-- ==== Sys2Proof/Word.lean ====
section
/-! DEFINITION. The word types of the model and the two table types its state is made of. -/

namespace Sys2Proof

/-- One byte of a memory structure, of the scratchpad, of host or device memory. -/
abbrev Byte := BitVec 8
/-- A 32-bit word: a parameter word, an FP32 code, a word of a packet's TRAFFIC bytes. -/
abbrev Word32 := BitVec 32
/-- A 64-bit word: an operand of an instruction, a register access of 8 bytes. -/
abbrev Word64 := BitVec 64
/-- The 34 bits of a W34 value (R118). -/
abbrev W34 := BitVec 34

/-- A sparse table by number: keys strictly rising, no entry equal to the value an unlisted key reads as. -/
abbrev Tab (α : Type) := List (Nat × α)
/-- A sparse byte memory: an unlisted address reads as 0x00. Its entries are `Host.Cell`s. -/
abbrev Mem := Tab Byte

end Sys2Proof
end

