-- ==== Sys2Proof/Syntax.lean ====
section
/-! DEFINITION. The commands of the block: one constructor of `Instr` for each row of spec/opcode_table.json, in
the table's order, with the row's operands. Operand types first.

A command names the unit it concerns by the number the owning chapter assigns (R7-R12). A quantity that comes from
outside the device (a sensor reading, a measured rate, a symbol damaged in a burst, a packet's bits) is an operand. -/

namespace Sys2Proof

/-- Who makes a register access (R309, R450, R486): the physical function's host driver, the host driver of virtual
function n through its own function page, the MGC, or a probe over Loupe. -/
inductive Agent where
  | hostPf
  | hostVf (n : Nat)
  | mgc
  | loupe
  deriving DecidableEq, Repr

/-- A word of a tile's storage that its code finds wrong (R385, R393, R394): the unit that holds it, its number in the unit, and whether two of
its bits are wrong (the code detects them) and not one (the code corrects it). The units are numbered as `Tile.markUnit` numbers
them (log 26, DESIGN CHOICE). -/
structure WordErr where
  unit : Nat
  word : Nat
  double : Bool
  deriving DecidableEq, Repr

/-- What the residue, parity and storage checks of a command find (R385, R386, R394): nothing; a checked value that is off by `err`, in the
facet array or elsewhere in the tile; a parity error of a path; words of the storage it reads that are wrong. -/
inductive Check where
  | pass
  | residue (err : Int) (inArray : Bool)
  | parity (inArray : Bool)
  | words (ws : List WordErr)
  deriving DecidableEq, Repr

/-- The two paths that commit row groups (R104). -/
inductive Path where
  | stream
  | drain
  deriving DecidableEq, Repr

/-- The waiters of R187 and the sources of a `RED` (R112): the instruction stream, a DMA engine, source s of the
`RED` at the front of the stream path. -/
inductive Waiter where
  | instr
  | dma (e : Nat)
  | redSource (s : Nat)
  deriving DecidableEq, Repr

/-- A row access that waits at a bank (R171): the requester (0 stream, 1 load, 2 drain, 3 vector, 4-7 DMA engines
0-3, 8 mesh router), the row (byte offset div 256) and, for a write, the enabled bytes of the row. -/
structure RowReq where
  requester : Nat
  row : Nat
  write : Option (List (Nat × Byte))
  deriving DecidableEq, Repr

/-- What the scratchpad code and the mesh parity find during a row access (R393, R394): 8-byte words of the row (0-31) that are wrong, each with
whether two of its bits are, and how often in a row the arriving flit failed on its hop, with the sending logical tile. -/
structure RowFault where
  words : List (Nat × Bool)
  meshFails : Nat
  meshFrom : Nat
  deriving DecidableEq, Repr

/-- The damaged symbols of a codeword (R248): symbol number 0-35 and the bits that differ. -/
abbrev Damage := List (Nat × BitVec 16)

/-- Whether the cause of an error goes with the access, or persists: a stuck cell damages its codeword again, a failed pin every codeword of its channel (R248, R249). -/
inductive Cause where
  | once
  | cell
  | pin
  deriving DecidableEq, Repr

/-- Damage that an access meets, and its cause (R249). -/
structure Strike where
  symbols : Damage
  cause : Cause
  deriving DecidableEq, Repr

/-- Virtual channels (R300). -/
inductive VC where
  | clasp
  | bulk
  | response
  | mgmt
  deriving DecidableEq, Repr

/-- What a packet is. The spec tells the kinds apart by VC, LEN and FLOW (R316, R320, R333) and gives no layout for
ingest forwarding and for MGMT traffic; the kind stands for it (log 20, DESIGN CHOICE). -/
inductive PktKind where
  | chunk
  | window
  | reply
  | notice
  | inboxWrite
  | timing
  | laneSwitch
  | repairReq
  | repairResp
  deriving DecidableEq, Repr

/-- A packet (R300). `t14`, `t18` and `t1c` are the TRAFFIC words at offsets 0x14, 0x18 and 0x1C (R316, R333). `aux`
holds fields whose layout the spec does not give (log 20, DESIGN CHOICE); `poison` is the mark of R329 (log 165, DESIGN CHOICE). -/
structure Packet where
  dst : Nat
  src : Nat
  vc : VC
  stage : Nat
  tenant : Nat
  pseq : Nat
  flow : Nat
  crc : Word32
  kind : PktKind
  t14 : Word32
  t18 : Word32
  t1c : Word32
  aux : List Nat
  payload : List Byte
  poison : Bool
  deriving DecidableEq, Repr

/-- A codeword as it arrives (R294, R295): the link header, the symbols received wrong on each active lane position, the symbols that the decoder
corrects there when it takes a codeword with more than 15 wrong symbols for another codeword (none: it detects that it cannot correct them), the packets
whose last flit the decoded codeword carries, and the packet buffers that it hands back, by virtual channel and stage class (R302; log 113, DESIGN CHOICE). -/
structure Codeword where
  seq : Nat
  ack : Nat
  ackv : Bool
  nak : Bool
  wrong : List Nat
  miscorrects : Option (List Nat)
  packets : List Packet
  credits : List (VC × Nat)
  deriving DecidableEq, Repr

/-- An image as presented to Signet (R433): its signed part, its two signatures, the reserved bytes at 0x4320, and its payload. -/
structure Image where
  signed : List Byte
  rsaSig : List Byte
  slhSig : List Byte
  tail : List Byte
  payload : List Byte
  deriving DecidableEq, Repr

/-- A token as presented to Signet (R455): its signed part and its two signatures. -/
structure Token where
  signed : List Byte
  rsaSig : List Byte
  slhSig : List Byte
  deriving DecidableEq, Repr

/-- A unit that Assay tests (R405). -/
inductive AssayUnit where
  | tile (phys : Nat)
  | lane (g : Nat)
  | channel (c : Nat)
  deriving DecidableEq, Repr

/-- What the debug registers of Loupe reach (R454). A register is read through BAR0 of function `fn`; the challenge is read in words of 64 bits. -/
inductive LoupeAccess where
  | readRegister (fn offset size : Nat)
  | writeRegister (offset size : Nat) (value : Word64)
  | readSecStat
  | readChallenge (word : Nat)
  | readTrace (t : Nat)
  | readSpad (t addr : Nat)
  | writeSpad (t addr : Nat) (value : Byte)
  | readMem (addr : Nat)
  | writeMem (addr : Nat) (value : Byte)
  | readTileState (t which index : Nat)
  | writeTileState (t which index : Nat) (value : Word64)
  | readSram (addr : Nat)
  | writeSram (addr : Nat) (value : Byte)
  | scan (chain : Nat)
  deriving DecidableEq, Repr

/-- A target of the debug halt (R454). -/
inductive HaltTarget where
  | tile (t : Nat)
  | mgc
  deriving DecidableEq, Repr

/-- What the receivers measure in a training attempt of a link (R293, R299): for each of the 5 lanes the bit errors before FEC among the bits received,
whether FEC locks, and the skew between the lanes in ns. -/
structure Training where
  measured : List (Nat × Nat)
  fecLocks : Bool
  skewNs : Nat
  deriving DecidableEq, Repr

/-- What an end tells the other at event 5 of R299: its chip identifier, the number of its link, and the links of the port to which the link belongs,
bit l for link l. -/
structure PeerIdentity where
  chip : Nat
  link : Nat
  port : Nat
  deriving DecidableEq, Repr

/-- The commands. -/
inductive Instr where
  -- Self-timed execution, the Tally
  | tallyTick
  | coreRateUpdate (region steps : Nat)
  | stallWatchdogExpiry (t : Nat)
  | timingFrameSend
  | timingFrameReceive (offset : Int) (errNs : Nat)
  | launchBegin (item : Nat)
  | tileModeChange
  -- Counting boards
  | launch (fn ring : Nat)
  | launchCheck (item : Nat)
  | launchArm (item : Nat)
  | load (fn ring : Nat)
  | retire (fn ring : Nat)
  -- The tile
  | nop (t : Nat)
  | endStream (t : Nat)
  | loop (t : Nat)
  | fence (t : Nat)
  | ldb (t : Nat) (chk : Check)
  | mma (t : Nat)
  | drain (t : Nat)
  | swap (t : Nat)
  | swapExchange (t : Nat)
  | red (t : Nat)
  | redSourceAdd (t s : Nat)
  | rowGroupCommit (t : Nat) (path : Path) (chk : Check) (store : List WordErr)
  | instructionComplete (t op : Nat)
  | waitSatisfied (t : Nat) (w : Waiter)
  | dmaEntryStart (t e : Nat)
  | dmaTransfer (t e : Nat) (chk : Check)
  | dmaEntryFinish (t e : Nat)
  | tilePartEnd (t : Nat)
  -- The vector path
  | vld (t : Nat) (chk : Check)
  | vst (t : Nat) (chk : Check)
  | vmov (t : Nat) (chk : Check)
  | vmld (t : Nat) (chk : Check)
  | vmst (t : Nat) (chk : Check)
  | viota (t : Nat) (chk : Check)
  | vadd (t : Nat) (chk : Check)
  | vsub (t : Nat) (chk : Check)
  | vmul (t : Nat) (chk : Check)
  | vfma (t : Nat) (chk : Check)
  | vmax (t : Nat) (chk : Check)
  | vmin (t : Nat) (chk : Check)
  | vneg (t : Nat) (chk : Check)
  | vabs (t : Nat) (chk : Check)
  | vcmp (t : Nat) (chk : Check)
  | vsel (t : Nat) (chk : Check)
  | vsf (t : Nat) (chk : Check)
  | vrstat (t : Nat) (chk : Check)
  | vrmsn (t : Nat) (chk : Check)
  | vsmx (t : Nat) (chk : Check)
  | vupd (t : Nat) (chk : Check)
  -- Scratchpad, bangles, sync objects
  | scratchpadRowAccess (t bank : Nat) (reqs : List RowReq) (fault : RowFault)
  | scfg (t : Nat)
  | ssig (t : Nat)
  | ssigTakeEffect (t : Nat)
  | bcfg (t : Nat)
  | bwaitd (t : Nat)
  | bwaits (t : Nat)
  | bangleWaitSatisfied (t : Nat)
  | bpush (t : Nat)
  | bpushTakeEffect (t : Nat)
  | bpop (t : Nat)
  | bpopTakeEffect (t : Nat)
  -- Attention and the key/value cache
  | lkload (t : Nat) (chk : Check)
  | lkput (t : Nat) (chk : Check)
  | lkrd (t : Nat) (chk : Check)
  | lkfl (t : Nat) (chk : Check)
  | ropet (t : Nat) (chk : Check)
  | rope (t : Nat) (chk : Check)
  | amask (t : Nat) (chk : Check)
  | apsmx (t : Nat) (chk : Check)
  | amerge (t : Nat) (chk : Check)
  | pageCmd (fn ring : Nat)
  | map (item : Nat)
  | ref (item : Nat)
  | unref (item : Nat)
  | swapOut (item : Nat)
  | swapOutCopy (item : Nat)
  | swapIn (item : Nat)
  | openPool (item : Nat)
  | closePool (item : Nat)
  -- Expert routing
  | xcfg (t : Nat)
  | xplace (t : Nat) (chk : Check)
  | xgather (t : Nat) (chk : Check)
  | xcombine (t : Nat) (chk : Check)
  -- The memory system (`burstFails`: a burst cannot complete after the PHY has retrained the channel, R262)
  -- (`waits`: the request joins its queue, and the engine serves none now; `part`: the bytes are a part of a larger request, R254)
  | memCodewordRead (addr len : Nat) (strike : Strike) (burstFails waits : Bool)
  | memCodewordWrite (addr : Nat) (bytes : List Byte) (part : Bool) (strike : Strike) (burstFails waits : Bool)
  | scrubRead (chan : Nat) (strike : Strike) (burstFails : Bool)
  | migrationStart (lchan : Nat)
  | migrationCopyStep (lchan : Nat) (strike : Strike) (oldFails spareFails : Bool)
  | poisonFillStep (lchan : Nat) (burstFails : Bool)
  -- Ingest, tables, inboxes
  | ingest (fn ring : Nat)
  | ingestArm (item engine : Nat)
  | ingestBlockDecode (item : Nat)
  | layoutWrite (item : Nat)
  | ingestForward (item : Nat)
  | inboxWriteReceive
  | ingestCmd (fn ring : Nat)
  | tableLoad (item : Nat)
  | drop (item : Nat)
  | inboxOpen (item : Nat)
  | inboxClose (item : Nat)
  | tlook (t : Nat) (chk : Check)
  -- Galral links
  | linkCodewordReceive (l : Nat) (cw : Codeword)
  | linkRetrain (l : Nat)
  | linkRetrainComplete (l : Nat) (tr : Training) (peer : Option PeerIdentity)
  | laneSwitchRequest (l lane : Nat)
  | laneSwitchRequestReceive (l : Nat)
  | laneSwitch (l : Nat)
  | laneLockLoss (l lane : Nat)
  | linkBringup (l : Nat)
  | linkSignalDetect (l : Nat) (tr : Training)
  | linkIdentityExchange (l : Nat) (peer : PeerIdentity)
  | linkPacketSend (l : Nat)
  | packetReceive (l : Nat)
  | linkMaskWrite (a : Agent) (value : Word32)
  | linkRtWrite (a : Agent) (chip : Nat) (value : BitVec 16)
  | linkPortWrite (a : Agent) (port : Nat) (value : BitVec 20)
  | linkTopoWrite (a : Agent) (value : BitVec 11)
  -- Collectives and remote windows
  | rsend (t : Nat)
  | rland (t : Nat)
  | chunkReceive
  | landingCombine (t op srcRank chunk : Nat)
  | ack
  | nak
  | busy
  | chunkBackoffExpiry (transfer chunk : Nat)
  | reject
  | abort
  | unreachableNoticeReceive
  | collectiveTimeout (item : Nat)
  | abortedKeyExpiry
  | windowChunkReceive
  | windowCmd (fn ring : Nat)
  | wopen (item : Nat)
  | wclose (item : Nat)
  | wrefSet (item : Nat)
  | wrefClear (item : Nat)
  -- Rings, completions, host attachment
  | descriptorFetch (fn ring : Nat)
  | nopDescriptor (fn ring : Nat)
  | completionRecordWrite (item : Nat)
  | msixTimerExpiry (fn vector : Nat)
  | sqTailWrite (fn ring : Nat) (value : Word32)
  | cqHeadWrite (fn ring : Nat) (value : Word32)
  | ringEnable (fn ring : Nat)
  | ringDisable (fn ring : Nat)
  | fnQuotaWrite (a : Agent) (ctx : Nat) (value : BitVec 15)
  | hwinSetLock (a : Agent) (w : Nat) (value : BitVec 113)
  | cxlMemRead (offset len : Nat)
  | cxlMemWrite (offset : Nat) (bytes : List Byte) (poison : Bool)
  | grantCommit (a : Agent) (ctx : Nat)
  | numvfsWrite (value : Nat)
  | vfEnableSet
  | vfEnableClear
  | memorySpaceEnableSet
  | memorySpaceEnableClear
  | busMasterEnableClear (fn : Nat)
  | busMasterEnableSet (fn : Nat)
  | flrVf (n : Nat)
  | flrPf
  | cxlReset
  | cxlResetMemClear
  | cxlLinkDown
  | functionDisableComplete (fn : Nat)
  -- Containment, conservation, Assay
  | carryComplete (t : Nat) (words : List WordErr)
  | carryTimeout (t : Nat)
  | strandSubstitution (t : Nat)
  | repairStart
  | repairPeerRequest
  | repairResponse
  | repairAttemptTimeout
  | tenantFence (a : Agent) (ctx : Nat)
  | tenantUnfence (a : Agent) (ctx : Nat)
  | auditSnap (a : Agent)
  | assayTestStart (u : AssayUnit)
  | assayTestComplete (passed : Bool)
  | assayRotation
  -- Power, temperature, energy
  | sensorRead (readings : List (BitVec 12))
  | thermalLoopTick
  | powerSample (watts : Nat)
  | powerCeilingTick (fast : Bool)
  | hardTrip (sensor : Nat)
  | uvGuardEntry (region : Nat)
  | uvGuardExit (region : Nat)
  | p1Entry
  | p2Entry
  | wake
  | wakeComplete
  | pwrCtlOff (a : Agent)
  | mctpOff
  | mctpWake
  | wakeNAssert (low : Bool)
  | energyRescale (measuredUj : Nat)
  -- Signet, journal, Loupe debug
  -- (`failures`: reconstructions of the PUF that fail before one succeeds, R440)
  | bootChain (failures : Nat)
  | recoveryImageWrite (kind slot : Nat) (img : Image)
  | firmwareUpdate (kind : Nat) (img : Image)
  | svnCommit (kind : Nat)
  | attestationRequest (nonce : List Byte) (overSpdm : Bool)
  | spdmKeyExchange (transcript : List Byte)
  | journalRecordWrite
  | journalCompaction
  | mgcWatchdogExpiry
  | tokenDebug (tok : Token)
  | tokenReturn (tok : Token)
  | tokenLock (tok : Token)
  | debugLevelRaise (level : Nat)
  | debugLevelLower (level : Nat)
  | debugSessionExpiry
  | debugHalt (x : HaltTarget)
  | debugSingleStep (x : HaltTarget)
  | debugResume (x : HaltTarget)
  | loupeDebugAccess (acc : LoupeAccess)
  -- Boundary scan
  | idcode
  | samplePreload (preload : List Bool)
  | extest
  | extestPulse
  | extestTrain
  | clamp
  | highz
  | bypass (ir : BitVec 8)
  | tapReset
  -- Resets, rails, start-up
  -- (`written`: bytes of the record being written that the flash holds when `VAUX` is lost, R478)
  | coldReset (vauxLost : Bool) (written : Nat)
  | porRelease (strap : Nat)
  | tripRecord
  | journalReplay
  | pgMainRise
  | regulatorRamp
  | memoryTraining (failed : List Nat)
  | memoryInit
  | portReady
  | pgMainFall
  | railFault
  | perstNFall
  | perstNRise
  | testModeAssert
  | setupLock (a : Agent)
  | registerWrite (a : Agent) (offset size : Nat) (value : Word64)
  | unlistedDescriptorType (fn ring : Nat)
  | msixUnmask (fn : Nat) (what : Option Nat)
  | spareLaneStopsQualifying (l : Nat)
  | alertCauseRead
  deriving DecidableEq, Repr

end Sys2Proof
end

