-- ==== Sys2Proof/Decode.lean ====
section
/-! DEFINITION. The words of spec/opcode_table.json. The table gives none of its rows any bits ("fields" is empty
everywhere): a command reaches the block as an event, not as a word, so no word spells one. -/

namespace Sys2Proof

/-- The command that a word of the table spells: no row has bits. -/
def decodeTableWord (_nbits _w : Nat) : Option Instr := none

end Sys2Proof
end

