-- ==== Sys2Proof/Config.lean ====
section
/-! DEFINITION. What the spec leaves to an implementation or to chance: uninterpreted constants with no body.
No proof can see a value of one of them. Each is named in the assumption log. -/

namespace Sys2Proof.Config

/-- R249, three or more damaged symbols: whether the read is detected as uncorrectable (`none`) or miscorrected,
and then the 64 bytes and the POISON bit it delivers. The argument counts the draws (log 5, DEDUCED). -/
opaque miscorrect : Nat → Option (List Byte × Bool)
/-- R456: the challenge Signet draws; the argument counts the draws (log 6, DEDUCED). -/
opaque challenge : Nat → BitVec 256
/-- R433: the hash of key material that the Signet ROM holds for a root key (log 7, DEDUCED). -/
opaque rootKeyHash : Nat → List Byte
/-- R433: RSASSA-PSS with SHA-384 verifies; the arguments are modulus and exponent, the message and the signature (log 7, DEDUCED). -/
opaque rsaVerifies : List Byte → List Byte → List Byte → Bool
/-- R433: SLH-DSA-SHA2-192s verifies; the arguments are the public key, the message and the signature (log 7, DEDUCED). -/
opaque slhVerifies : List Byte → List Byte → List Byte → Bool
/-- R431: the PUF helper data of the device (log 196, DEDUCED). -/
opaque pufHelper : List Byte
/-- R440: a part of the keys that Signet generates: 0 `RSA_N`, 1 `SLH_PK`, 2 the wrapped private keys, 3 the certificates; the first argument counts the
draws (log 7, DEDUCED). -/
opaque deviceKey : Nat → Nat → List Byte
/-- R441: the two signatures of an attestation report over its first 0x400 bytes: RSA (384 bytes) and SLH-DSA
(16,224 bytes); the first argument is the public part of the identity keys (log 7, DEDUCED). -/
opaque reportSignature : List Byte → List Byte → List Byte × List Byte
/-- R443: the responder's signature over the transcript of a key exchange; the first argument is the public part of the identity keys (log 7, DEDUCED). -/
opaque spdmSignature : List Byte → List Byte → List Byte
/-- R446: the payload bytes of a journal record. The spec gives a record's content, not its layout: the arguments
are the record's type and the numbers it names (log 8, DEDUCED). -/
opaque recordPayload : Nat → List Nat → List Byte
/-- R444: the MAC of a journal record under the journal MAC key (log 8, DEDUCED). -/
opaque recordMac : List Byte → List Byte
/-- R427, R482: the design coefficient of an activity event class, in force without a `CALIB` record (log 9, DEDUCED). -/
opaque designCoefficient : Nat → Nat
/-- R427: the leakage model: the factor at a region's temperature, as `PWR_REGION.TEMP` encodes it (log 9, DEDUCED). -/
opaque leakage : Nat → Nat
/-- R439: the bytes whose SHA-384 extends MEAS3 when the life cycle and the debug level become the arguments: the spec does not give their layout (log 27, DEDUCED). -/
opaque securityChange : Nat → Nat → List Byte
/-- R443: the IDE keys derived from an SPDM session; the argument counts the draws (log 7, DEDUCED). -/
opaque ideKey : Nat → BitVec 256
/-- R454: the content of the sequencer trace of a tile and of a scan chain, which the spec does not
give; the arguments are the unit read and the count of the draw (log 11, DEDUCED). -/
opaque debugData : Nat → Nat → Word64
/-- R470: which of the debug opcodes 0x40-0x7F, modulo 64, selects the debug data register of an access; the argument counts the draws (log 32, DEDUCED). -/
opaque debugOpcode : Nat → Nat
/-- R471: what a boundary cell captures from the board; the arguments are the count of the draw and the cell (log 12, DEDUCED). -/
opaque boardCapture : Nat → Nat → Bool

/-- R300: the 62 bytes of an idle flit after its first two; the arguments are the link, the codeword and the flit (log 185, DESIGN CHOICE). -/
opaque idleFlit : Nat → Nat → Nat → BitVec 496
/-- R43: the estimated error in ns of a chip in holdover; the argument counts the draws (log 21, DEDUCED). -/
opaque holdoverError : Nat → Nat
/-- R337: the place among the rates and widths at which the port trains of the rate and the width that a training reaches; the argument counts the draws (log 206, DESIGN CHOICE,
DESIGN CHOICE). -/
opaque portTraining : Nat → Nat
/-- R374: `DURATION` of a record whose item never passed event 3; the argument counts the draws (log 22, DEDUCED). -/
opaque duration : Nat → Nat

end Sys2Proof.Config
end

