-- ==== Sys2Proof/Machine/State.lean ====
section
/-! DEFINITION. The state of the block: plain data, holding every register field, buffer, counter, mode and pin the
spec gives the Bolum, the queue of waiting commands, and `State.reset`. INVENTORY.md lists each piece with its rule.

Register fields live in one file, `State.regs`: an entry for each field of each instance whose value differs from its
Reset column (the columns are in Machine/Regs.lean). Everything a register table does not name is a field of a
structure below. Storage of a tile belongs to the PHYSICAL tile (R8, R387). -/

namespace Sys2Proof.Machine

/-- Why the block stops. -/
inductive Fault where
  /-- Raised by every meaning whose command names a unit that the device does not have (a logical tile at or above
  256, a link at or above 20, a context at or above 64, ...). Safe: the spec gives no such unit an event. -/
  | noSuchUnit (what : String)
  deriving DecidableEq, Repr

/-- Why a command has no meaning. -/
inductive Refusal where
  /-- Raised by an arm of `exec` whose command is not modelled. Safe. -/
  | notModelled (mnemonic : String)
  deriving DecidableEq, Repr

/-- The outcome of a meaning. -/
abbrev Out (σ : Type) := Host.Outcome σ Fault Refusal

/-! ## Registers -/

/-- The registers, by name (R17, R488, R489, R345). -/
inductive Reg where
  | mgcDevid | setupCtl | setupStat | coreMode | coreStallCtl | tallyNow | tallyCtl | tallyStat | tallyLate | coreRate
  | pwrCfg | pwrCtl | pwrStat | energyBase | energyTotal | pwrRegion | pwrSensor
  | secStat | dbgConsent | dbgStat | secBound | journalStat | dbgChallenge | meas
  | repairStat | auditCtl | auditStat | assayCtl | assayStat | spareStat | auditData | repairSrc
  | memTop | memScrub | memSpareCtl | memErr | memChmap | memChstat
  | linkMask | linkCtl | linkTopo | linkRoute | linkPort | linkStat | linkErr | linkTdcc | linkLane | collCtl
  | tableSlot | inboxStat | linkRt | winStat | tilePhys
  | tileSpsize | tileSpstat | tileSeq | tileArray | tileTdcc | tileResidency | tileVstat | tileXstat | tileRas
  | tileStoreErr | tileHealth | tileHist
  | grantTiles | grantMem | grantRes | grantCredit | grantCtl | fnQuota | tenantCtl
  | hwin | cxmCtl | cxmSeg | cxmErr
  | ringCfg | fnState | hostErr | boardFault | kvFault | kvStat | ingestStat | collStat | collStrag | energyTenant
  | msixMod | doorbell | msixTable | msixPba
  deriving DecidableEq, Repr

/-- Access codes (R18). -/
inductive Access where
  | ro | rw | rwl | w1c | wo
  deriving DecidableEq, Repr

/-- One row of a register table: the register, bits [lo + width - 1 : lo], the access code and the Reset column
("J" as 0, R19). -/
structure Field where
  reg : Reg
  lo : Nat
  width : Nat
  acc : Access
  reset : Nat
  deriving DecidableEq, Repr

/-! ## The tile -/

/-- A 32-byte instruction (R93). -/
structure Insn where
  opc : BitVec 8
  flags : BitVec 8
  waitSync : BitVec 8
  signalSync : BitVec 8
  args : Word32
  opd0 : Word64
  opd1 : Word64
  opd2 : Word64
  deriving DecidableEq, Repr

/-- A 32-byte DMA entry (R69). -/
structure DmaEntry where
  op : Nat
  engine : Nat
  region : Nat
  waits : Bool
  signals : Bool
  spadAddr : Nat
  memOff : Nat
  length : Nat
  waitSync : Nat
  signalSync : Nat
  indexWord : Nat
  tripWord : Nat
  stride : Nat
  deriving DecidableEq, Repr

/-- An active loop: level, index of its first body instruction, body length, trip count, current iteration (R97). -/
structure LoopFrame where
  level : Nat
  start : Nat
  body : Nat
  trip : Nat
  iter : Nat
  deriving DecidableEq, Repr

/-- An operation in flight (R100): an issued instruction with its effective addresses at issue, the element count it
read, its ordinal among `MMA` and `RED` (R132), its progress, and the scratchpad spans it reads and writes, of which its range is made (R98). -/
structure Op where
  id : Nat
  insn : Insn
  ea0 : Nat
  ea1 : Nat
  ea2 : Nat
  count : Nat
  ordinal : Nat
  /-- Next row group to commit (R110). -/
  group : Nat
  /-- `RED`: the source being added, the sources added, the sources whose wait is satisfied (R112). -/
  source : Option Nat
  added : List Nat
  ready : List Nat
  /-- `SWAP`, or `MMA` with its SWAP flag: the exchange has taken place (R106). -/
  swapped : Bool
  /-- Every result has been written or the effect has taken place; the operation may complete. -/
  done : Bool
  reads : List (Nat × Nat)
  writes : List (Nat × Nat)
  /-- Some unit it read was marked (R392). -/
  marked : Bool
  /-- Issue steps the instruction occupies its path for, and the steps from issue to completion (R113, R151, R225, R244). -/
  occupancy : Nat
  latency : Nat
  deriving DecidableEq, Repr

/-- A stationary bank (R101, R105): the format code, the 32 x 32 element codes by k + 32 n, the 32 scale bytes by n
(an unlisted scale is 0x7F), and the poison mark of the whole bank (R391). The strand's banks hold the same. -/
structure Bank where
  fmt : Nat
  elems : Tab Nat
  scales : Tab Nat
  mark : Bool
  deriving DecidableEq, Repr

/-- The zero block of R101. -/
def Bank.zeroBlock : Bank := ⟨0, [], [], false⟩

/-- A cache reference (R208). -/
structure CacheRef where
  ptw : Nat
  lenw : Nat
  region : Nat
  row : Nat
  idw : Nat
  deriving DecidableEq, Repr

/-- A locket slot (R207). `from_` is the first column appended since the slot was loaded or last flushed (R210). -/
structure Slot where
  bound : Option CacheRef
  image : Mem
  marks : Tab Bool
  lbase : Nat
  fill : Nat
  from_ : Nat
  pendingFlush : Bool
  /-- A flush was suppressed: appends are dropped until the slot is loaded again (R210). -/
  dead : Bool
  deriving DecidableEq, Repr

/-- An unbound slot (R207). -/
def Slot.empty : Slot := ⟨none, [], [], 0, 0, 0, false, false⟩

/-- A configured bangle (R190): region base and size in bytes, producer and consumer (0-3 DMA engine, 4 the engines),
and the offsets HEAD and TAIL and the count FILL. -/
structure Bangle where
  base : Nat
  size : Nat
  prod : Nat
  cons : Nat
  head : Nat
  tail : Nat
  fill : Nat
  deriving DecidableEq, Repr

/-- Where a transfer's memory side lies: a device address, a host address, or nowhere (a suppressed use: it reads zeros and writes
nothing). -/
inductive DmaSide where
  | device (a : Nat)
  | host (a : Nat)
  | nowhere
  deriving DecidableEq, Repr

/-- A transfer under way (R52, R182, R495): its memory side, its scratchpad spans, the pieces of rows it has still to move, the bytes read and
not yet written (from memory: those still to come; from the scratchpad: those read so far), and whether they are marked. -/
structure Moving where
  side : DmaSide
  segs : List (Nat × Nat)
  rows : List (Nat × Nat)
  bytes : List Byte
  mark : Bool
  deriving DecidableEq, Repr

/-- A DMA engine of a tile (R99): the entries still to run, first the one that runs or starts next, whether it has
started, its next transfer, whether the wait of the entry is satisfied, and the transfer under way. -/
structure Dma where
  entries : List DmaEntry
  started : Bool
  released : Bool
  transfer : Nat
  moving : Option Moving
  deriving DecidableEq, Repr

/-- An idle engine. -/
def Dma.idle : Dma := ⟨[], false, false, 0, none⟩

/-- The part of a launch that runs on a tile (R101): the item, the board tile, and the figures of its stream entry. -/
structure Part where
  item : Nat
  tenant : Nat
  boardTile : Nat
  zorli : Bool
  privAcc : Nat
  spadUse : Nat
  resident : Nat
  syncUse : Nat
  /-- The count at which it began (R427). -/
  since : Nat
  deriving DecidableEq, Repr

/-- The storage and control state of one physical tile. -/
structure Tile where
  /-- Scratchpad bytes, the rows that are not fresh (R175), the poison marks of 32-byte units (R391). -/
  spad : Mem
  live : Tab Bool
  spadMarks : Tab Bool
  /-- Vector buffers, 4 x 32 KiB end to end, and their marks (R140, R391). -/
  vbuf : Mem
  vbufMarks : Tab Bool
  /-- Mask registers; an unlisted one is all ones (R140). -/
  masks : Tab (BitVec 8192)
  maskMarks : Tab Bool
  /-- Accumulators by 32 (1024 a + row) + n, and the marks of row groups by 256 a + group (R391). -/
  acc : Tab W34
  accMarks : Tab Bool
  active : Bank
  shadow : Bank
  /-- Table store by 256 r + index (R285), marks by entry. -/
  tableStore : Tab Word32
  tableMarks : Tab Bool
  /-- Angle table U_i (R220). -/
  angle : Tab (BitVec 48)
  angleMark : Bool
  locket : Tab Slot
  /-- Sync objects: COUNT (unlisted 0) and THRESH (unlisted 1) (R184). -/
  syncCount : Tab Nat
  syncThresh : Tab Nat
  bangles : Tab (Option Bangle)
  /-- Placement shape T and C (R228). -/
  shape : Option (Nat × Nat)
  /-- The sequencer (R96): stream, position, active loops innermost first, whether the wait of the next instruction
  is satisfied, whether a `BWAITD` or `BWAITS` holds issue (R193), whether `END` has issued, the operations in flight in issue
  order, the next operation number, and the ordinal of the next `MMA` or `RED` (R132). -/
  stream : List Insn
  pos : Nat
  loops : List LoopFrame
  released : Bool
  held : Bool
  ended : Bool
  ops : List Op
  nextOp : Nat
  ordinal : Nat
  dma : Tab Dma
  /-- Entries of the DMA program not yet handed out (R99, R100). -/
  dmaRest : List DmaEntry
  part : Option Part
  /-- Requester granted last in each bank (R171). -/
  lastGrant : Tab Nat
  /-- Tally count of the last step the sequencer completed (R33). -/
  lastStep : Nat
  /-- Scratchpad rows mapped to a spare row of their bank (R173, R393), and the corrections each row and each word
  of other storage has needed since start-up (R393, R394). -/
  rowSpare : Tab Nat
  rowCorr : Tab Nat
  wordCorr : Tab Nat
  /-- Halted by the probe (R454). -/
  halted : Bool
  deriving DecidableEq, Repr

/-- A tile with every row fresh and every store at its launch-start value (R485). -/
def Tile.empty : Tile :=
  { spad := [], live := [], spadMarks := [], vbuf := [], vbufMarks := [], masks := [], maskMarks := [], acc := [],
    accMarks := [], active := .zeroBlock, shadow := .zeroBlock, tableStore := [], tableMarks := [], angle := [],
    angleMark := false, locket := [], syncCount := [], syncThresh := [], bangles := [], shape := none, stream := [],
    pos := 0, loops := [], released := false, held := false, ended := false, ops := [], nextOp := 0, ordinal := 0, dma := [], dmaRest := [],
    part := none, lastGrant := [], lastStep := 0, rowSpare := [], rowCorr := [], wordCorr := [], halted := false }

/-! ## Boards -/

/-- A route-program entry (R70). -/
structure Route where
  kind : Nat
  vc : Nat
  srcTile : Nat
  dstTile : Nat
  dstMember : Nat
  port : Nat
  orderFree : Bool
  collective : Nat
  creditRef : Nat
  length : Nat
  srcSpad : Nat
  dstOff : Nat
  deriving DecidableEq, Repr

/-- A credit reservation (R71). -/
structure Credit where
  pool : Nat
  vc : Nat
  port : Nat
  collective : Nat
  count : Nat
  deriving DecidableEq, Repr

/-- A bound declaration (R74). -/
structure Bound where
  first : Nat
  words : Nat
  kind : Nat
  min : Word32
  max : Word32
  deriving DecidableEq, Repr

/-- A tile-stream entry with the stream and the DMA program it names (R67). -/
structure TileStream where
  insns : List Insn
  dma : List DmaEntry
  spadUse : Nat
  resident : Nat
  syncUse : Nat
  bangleUse : Nat
  privAcc : Nat
  races : List (Nat × Nat)
  deriving DecidableEq, Repr

/-- A variant (R65). -/
structure Variant where
  paramSize : Nat
  routes : List Route
  credits : List Credit
  bounds : List Bound
  tiles : List TileStream
  deriving DecidableEq, Repr

/-- A region (R72) with its binding (R78). -/
structure Region where
  kind : Nat
  shared : Bool
  size : Nat
  base : Nat
  bound : Nat
  deriving DecidableEq, Repr

/-- A table reference (R73) and, for a loadable slot, the generation the board holds (R81). -/
structure TableRef where
  loadable : Bool
  slot : Nat
  id : Nat
  gen : Nat
  deriving DecidableEq, Repr

/-- A loaded or retiring board (R78, R86, R87). -/
structure Board where
  dest : Nat
  destBytes : Nat
  boardId : Nat
  zorli : Bool
  footRows : Nat
  footCols : Nat
  originRow : Nat
  originCol : Nat
  rank : Nat
  chips : List Nat
  regions : List Region
  tablerefs : List TableRef
  variants : List Variant
  /-- Launch references (R82). -/
  refs : Nat
  /-- The `RETIRE` item, once its event 3 has passed (R87). -/
  retiring : Option Nat
  deriving DecidableEq, Repr

/-- An open pool (R195, R196). -/
structure Pool where
  dataBase : Nat
  sideBase : Nat
  ctrlBase : Nat
  ptBase : Nat
  pages : Nat
  ptEntries : Nat
  fmt : Nat
  heads : Nat
  tokens : Nat
  dim : Nat
  rowPages : Nat
  deriving DecidableEq, Repr

/-! ## Items -/

/-- Where an item stands on the path of R29. -/
inductive Phase where
  /-- Fetched; before event 3. -/
  | fetched
  /-- A launch that passed event 3 and waits for event 4 (R57). -/
  | passed3
  /-- A launch that passed event 4 and waits for its credit reservations (R83); an ingest item that waits to arm. -/
  | passed4
  /-- Armed: the launch waits for its tiles or its count; the ingest item runs. -/
  | armed
  /-- Running. -/
  | running
  /-- Every result is visible; the record is to be written. -/
  | done
  deriving DecidableEq, Repr

/-- A launch in an item (R77, R82): handle, variant, the parameter words as read at event 3, COLL_SEQ, the launch count
C, the serial taken in each pool it pins (R216), the peer references as read at event 4 (R333), the board tiles
that have not ended their part, and whether it has passed event 4 and so holds its board, pins and credits (R82, R216, R400). -/
structure Launch where
  handle : Nat
  variant : Nat
  boardId : Nat
  paramVariant : Nat
  wordCount : Nat
  paramOk : Bool
  reservedZero : Bool
  words : List Word32
  collSeq : Nat
  count : Nat
  serials : List (Nat × Nat)
  peers : List (Nat × Nat × Nat × Nat)
  tiles : List Nat
  held : Bool
  deriving DecidableEq, Repr

/-- A `SWAP_OUT` or `SWAP_IN` entry that has taken effect (R216, R219, R380): its page and buffer offset, the items whose reader pins must end first,
and the codewords copied; none: the copy has not begun. -/
structure Swap where
  inward : Bool
  pool : Nat
  page : Nat
  off : Nat
  pins : List Nat
  copied : Option Nat
  deriving DecidableEq, Repr

/-- A running list of commands (R364, R365): address, entries, next entry, entries whose RESULT is written, host buffer. -/
structure ListRun where
  addr : Nat
  count : Nat
  pos : Nat
  written : Nat
  hbuf : Nat
  hbytes : Nat
  swapping : Option Swap
  deriving DecidableEq, Repr

/-- An ingest segment (R267). -/
structure Segment where
  layout : Bool
  srcFmt : Nat
  dstFmt : Nat
  transpose : Bool
  forward : Bool
  follow : Bool
  blocks : Nat
  src : Nat
  srcBytes : Nat
  dst : Nat
  outBytes : Nat
  dstScale : Nat
  work : Nat
  kb : Nat
  nb : Nat
  tag : Nat
  statusOut : Nat
  fwdPort : Nat
  tables : Nat
  fwdInbox : Nat
  fwdGen : Nat
  fwdOff : Nat
  deriving DecidableEq, Repr

/-- An ingest run (R269): the segments; for each, when it follows an inbox, that inbox, its base, and `RECEIVED` at the moment it closed; the
engine; the current segment and block, the start of the next block, the decoded length so far; whether a bad header, an overrun or an inbox that is
gone decides the later blocks of the segment; the result words of the segment's blocks so far; the bytes forwarded of each segment, the forwarded
writes not yet answered, whether forwarding has stopped; the first failed block (R376). -/
structure IngestRun where
  segs : List Segment
  follows : List (Option (Nat × Nat × Option Nat))
  engine : Option Nat
  seg : Nat
  block : Nat
  at_ : Nat
  outSum : Nat
  lost : Bool
  overrun : Bool
  gone : Bool
  results : List Nat
  forwarded : List Nat
  unanswered : Nat
  stopForward : Bool
  /-- Table slots that its blocks named (R402). -/
  blockSlots : List Nat
  firstBad : Option (Nat × Nat)
  deriving DecidableEq, Repr

/-- An item (R368): its ring and submission count, the descriptor as read at fetch (none: unreadable, R367), its phase,
the statuses that applied to it (R377), the cause of a rejection (R89), NOTES (R375), the abort chip (R376), the Tally
count at its event 3 once it has passed it, the credits it holds as (pool, port, vc, count) and the table generations it holds. -/
structure Item where
  id : Nat
  fn : Nat
  ring : Nat
  submit : Nat
  desc : Option (List Byte)
  phase : Phase
  statuses : List Nat
  cause : Nat
  notes : Nat
  abortChip : Option Nat
  since : Option Nat
  launch : Option Launch
  list : Option ListRun
  ingest : Option IngestRun
  credits : List (Nat × Nat × Nat × Nat)
  tables : List (Nat × Nat)
  deriving DecidableEq, Repr

/-! ## Links, transfers, windows -/

/-- An agreed lane switch (R297): the lane replaced, the `SEQ` of the codeword from which the new lanes carry data, and which end asked. -/
structure LaneSwitchAt where
  lane : Nat
  seq : Nat
  byPeer : Bool
  deriving DecidableEq, Repr

/-- A flit of 64 bytes (R294, R300), with the packet whose last flit it is. -/
structure Flit where
  bytes : List Byte
  last : Option Packet
  deriving DecidableEq, Repr

/-- A codeword sent (R294): its link header, its 10 flits, and the packet buffers that it hands back to the peer (R302; log 113, DESIGN CHOICE). -/
structure SentCodeword where
  seq : Nat
  ack : Nat
  ackv : Bool
  nak : Bool
  flits : List Flit
  credits : List (VC × Nat)
  deriving DecidableEq, Repr

/-- A link (R292-R303). Codeword numbers count all codewords sent and received; `SEQ` is the number modulo 512. -/
structure Link where
  /-- Last completed event of R299. -/
  event : Nat
  failedRetrains : Nat
  /-- Codewords sent since bring-up, without those sent again; the packet queues per source: (source link, 20 for local injection, or 21 for a
  packet that a lost link of the port had already sent; packet). -/
  sent : Nat
  queue : List (Nat × Packet)
  /-- Flits of packets chosen that no codeword has carried yet. -/
  tx : List Flit
  /-- Codewords sent and not yet acknowledged, oldest first (R295), and the number of the one to send again next. -/
  replay : List (Nat × SentCodeword)
  resend : Option Nat
  /-- The codeword sent last. -/
  out : Option SentCodeword
  expect : Nat
  discarding : Bool
  /-- The next codeword sent carries a `NAK` (R295). -/
  nakDue : Bool
  /-- Codewords discarded since the last `NAK` was due (R295). -/
  missed : Nat
  nakedAt : Option Nat
  nakRun : Nat
  /-- Packets received in order, waiting for PACKET_RECEIVE. -/
  arrived : List Packet
  /-- The neighbour's packet buffers in use, by 8 VC + stage class; this link's own buffers that have become free and are to be handed back (R302). -/
  used : Tab Nat
  owed : List (VC × Nat)
  /-- CLASP or RESPONSE packets sent in a row with BULK waiting (R301); whose turn it is between RESPONSE and BULK; the
  source served last in each virtual channel. -/
  run : Nat
  bulkTurn : Bool
  lastSource : Tab Nat
  /-- Symbols corrected within the last 1 ms: (count, lane, symbols) (R297). -/
  recent : List (Nat × Nat × Nat)
  switch : Option LaneSwitchAt
  /-- The link's mask bit has been cleared within a packet: the link stops at the packet's end (R312). -/
  closing : Bool
  /-- What this chip told its peer at event 5 of R299, and the port membership that the peer told. -/
  told : Option PeerIdentity
  peerPort : Nat
  /-- Times the Tally has calibrated the link's delay anew for a spare lane switched in (R41, R297). -/
  calibrations : Nat
  deriving DecidableEq, Repr

/-- A link at cold reset. -/
def Link.empty : Link :=
  { event := 0, failedRetrains := 0, sent := 0, queue := [], tx := [], replay := [], resend := none, out := none, expect := 0,
    discarding := false, nakDue := false, missed := 0, nakedAt := none, nakRun := 0, arrived := [], used := [], owed := [], run := 0, bulkTurn := false,
    lastSource := [], recent := [], switch := none, closing := false, told := none, peerPort := 0, calibrations := 0 }

/-- A transfer issued by an `RSEND` (R314-R319, R333): its item, logical tile and operation, its route entry, its step,
destination chip, source and destination offsets; for a window write the window, its generation and the source board
tile; the chunk to send next and the chunks to send again, consecutive NAKs of each chunk, resends due at a count, and the count of
the first sending. -/
structure Transfer where
  id : Nat
  item : Nat
  tile : Nat
  op : Nat
  route : Route
  step : Nat
  dstChip : Nat
  src : Nat
  dst : Nat
  window : Nat
  wgen : Nat
  boardTile : Nat
  chunks : Nat
  nextChunk : Nat
  resend : List Nat
  naks : Tab Nat
  backoff : List (Nat × Nat)
  since : Option Nat
  deriving DecidableEq, Repr

/-- A chunk held in a slot (R323, R324), with the link it arrived on (20: this chip), and the kind and length of its transfer.
A chunk that comes before its landing is posted is judged by them when it is. -/
structure HeldChunk where
  srcRank : Nat
  chunk : Nat
  bytes : List Byte
  poison : Bool
  orderFree : Bool
  link : Nat
  kind : Nat
  length : Nat
  deriving DecidableEq, Repr

/-- The receive side of one (COLL, STEP, DST_TILE) of a launch (R317, R321-R324, R335): the logical tile; the posted `RLAND`s whose
landings are not complete, as (operation in flight, count at which it was posted), oldest first; the chunks held in slots; the W34
accumulators by chunk index, for each element whether its last addition saturated (R168), the poisoned ones, the (rank, index) pairs combined, the indices combined from every source; the (rank, transfer,
index) triples received and the last chunks known; the (rank, transfer) pairs acknowledged and how many of them a complete landing has
taken; and the count at which the first chunk of each (rank, transfer) arrived. -/
structure Landing where
  item : Nat
  coll : Nat
  step : Nat
  tile : Nat
  posts : List (Nat × Nat)
  held : List HeldChunk
  accs : Tab (List W34)
  accSats : Tab (List Bool)
  accPoison : List Nat
  combined : List (Nat × Nat)
  ready : List Nat
  seen : List (Nat × Nat × Nat)
  lasts : List (Nat × Nat × Nat)
  acked : List (Nat × Nat)
  counted : Nat
  firstAt : List (Nat × Nat × Nat)
  deriving DecidableEq, Repr

/-- A window write on its way in (R319, R334): the fields that name it, its chunks held, the index of its last chunk. -/
structure WindowIn where
  src : Nat
  window : Nat
  wgen : Nat
  boardTile : Nat
  xfer : Nat
  start : Nat
  seen : List Nat
  last : Option Nat
  deriving DecidableEq, Repr

/-- An open remote window (R331). -/
structure Window where
  base : Nat
  size : Nat
  peerLo : Nat
  peerHi : Nat
  deriving DecidableEq, Repr

/-- A peer reference (R331, R332). -/
structure PeerRef where
  gen : Nat
  peer : Nat
  window : Nat
  deriving DecidableEq, Repr

/-- A chunk of a copy whose rows are being written (R52, R182, R322): the logical tile and the link by which it came, the chunk, its destination offset and the rows
written. -/
structure Arrival where
  tile : Nat
  link : Nat
  packet : Packet
  off : Nat
  rows : Nat
  /-- The objects that its landing signals. -/
  signals : List Nat
  deriving DecidableEq, Repr

/-- An aborted launch key (R328), with the chip whose `ABORT` brought it (R376). -/
structure AbortedKey where
  tag : Nat
  cseq : Nat
  status : Nat
  since : Nat
  chip : Option Nat
  deriving DecidableEq, Repr

/-- An inbox (R286): base, size, source port (255 for CXL.mem), and the bytes written since it was opened as merged
spans. Generation, RECEIVED and the flags are in `INBOX_STAT`. -/
structure Inbox where
  base : Nat
  size : Nat
  port : Nat
  written : List (Nat × Nat)
  deriving DecidableEq, Repr

/-- A table generation (R282): number, reference count, and the image's parts. -/
structure TableGen where
  gen : Nat
  refs : Nat
  id : Nat
  lens : List Nat
  values : List Word32
  deriving DecidableEq, Repr

/-- A loadable table slot (R282). -/
structure TableSlot where
  current : Option TableGen
  previous : Option TableGen
  lastGen : Nat
  deriving DecidableEq, Repr

/-! ## Host attachment, power, security, pins -/

/-- A committed grant (R346). -/
structure Grant where
  row0 : Nat
  col0 : Nat
  rows : Nat
  cols : Nat
  /-- (base, size, shared) of the valid entries, by entry number. -/
  mem : List (Nat × Nat × Nat × Bool)
  ports : Nat
  slots : Nat
  inboxes : Nat
  winLo : Nat
  winHi : Nat
  winEn : Bool
  /-- Shares (port, CLASP_TX, BULK_TX, POOL1, POOL2) that are not all zero. -/
  credits : List (Nat × Nat × Nat × Nat × Nat)
  deriving DecidableEq, Repr

/-- The empty grant. -/
def Grant.empty : Grant :=
  { row0 := 0, col0 := 0, rows := 0, cols := 0, mem := [], ports := 0, slots := 0, inboxes := 0, winLo := 0, winHi := 0,
    winEn := false, credits := [] }

/-- A ring pair at run time (R349): the latest doorbell counts. -/
structure RingRun where
  sqTail : Nat
  cqHead : Nat
  deriving DecidableEq, Repr

/-- An MSI-X vector (R351): table entry, pending count, Tally count at which it left zero, pending bit. -/
structure Vec where
  addr : Nat
  data : Nat
  masked : Bool
  count : Nat
  since : Nat
  pbit : Bool
  deriving DecidableEq, Repr

/-- A vector at reset: masked, as the PCI Express table gives (log 3, DESIGN CHOICE). -/
def Vec.reset : Vec := ⟨0, 0, true, 0, 0, false⟩

/-- A journal record (R444): type, the numbers it names, SEQ, TALLY, and the bytes that the flash holds of it when it was torn (R478). -/
structure JRec where
  type : Nat
  args : List Nat
  seq : Nat
  tally : Nat
  torn : Option (List Byte)
  deriving DecidableEq, Repr

/-- The identity keys (R440): modulus, public key, wrapped private keys, certificates. -/
structure DeviceKeys where
  rsaN : List Byte
  slhPk : List Byte
  wrapped : List Byte
  certificates : List Byte
  deriving DecidableEq, Repr

/-- A debug session (R457): granted level, identity hash of the token, acceptance count, duration, whether L2 or L3 held. -/
structure Session where
  granted : Nat
  idHash : Nat
  since : Nat
  duration : Nat
  heldHigh : Bool
  deriving DecidableEq, Repr

/-- A repair in the queue (R397, R398): the granule's address, the first entry not tried yet, the entry whose data is outstanding, the count at which
the attempt started, the offsets of the parts of the granule that have arrived, and the codewords (address, bytes) of them that wait for a poison fill. -/
structure Repair where
  granule : Nat
  untried : Nat
  waiting : Option Nat
  since : Nat
  got : List Nat
  late : List (Nat × List Byte)
  deriving DecidableEq, Repr

/-- A carry in progress (R387, R389, R393, R394): the logical tile, the spare, the count of the fault, whether control state
was lost, whether a bank had run out of spare rows, and whether a rotation caused it (R407). -/
structure Carry where
  logical : Nat
  spare : Nat
  since : Nat
  ctlLost : Bool
  rowsOut : Bool
  rotation : Bool
  deriving DecidableEq, Repr

/-- What the pins, rails and the TAP hold (R467-R476). `porN`: the management domain is out of cold reset; `porHigh`: the level of `POR_N`, which `TEST_MODE` leaves
alone (R469). `pgMain`: the level of `PG_MAIN`; `railFault`: a rail fault has been detected since it rose (R477) (log 159, DEDUCED). `tripLatch` names the sensor of a
trip (R420, R473); `stillHot`: not every sensor has read below 95 °C since the trip (R420). -/
structure Pins where
  vaux : Bool
  porN : Bool
  porHigh : Bool
  pgMain : Bool
  railFault : Bool
  perstN : Bool
  wakeN : Bool
  testMode : Bool
  smbAddr : Nat
  /-- Regulators on, stack switches closed (0-3 of VM1, VM2, VMQ in order). -/
  regulators : Bool
  switches : Nat
  prsntLow : Bool
  cxlReceivers : Bool
  tripLatch : Option Nat
  tripRecorded : Bool
  stillHot : Bool
  alerts : List Nat
  /-- TAP instruction register, boundary register of 479 cells, board-test window open (R470-R472). -/
  ir : BitVec 8
  boundary : List Bool
  window : Bool
  deriving DecidableEq, Repr

/-- The requests that the device makes on CXL.cache (R338). -/
inductive CacheReq where
  | rdCurr
  | itoMWr
  | wrCur
  deriving DecidableEq, Repr

/-- What the device gave to the outside in answer to commands: MSI-X messages in order (function, vector), the last
requests of the last access of host memory with their lines (R338), the last codeword read of a channel engine, the last CXL.mem read, the last attestation report, the responder's signature of the last key exchange, the last debug read, the last captured scan register. -/
structure Outputs where
  messages : List (Nat × Nat)
  cache : List (CacheReq × Nat)
  memData : List Byte
  memMark : Bool
  cxlData : List Byte
  cxlPoison : Bool
  report : List Byte
  auth : List Byte
  loupe : Word64
  loupeRefused : Bool
  dr : List Bool
  deriving DecidableEq, Repr

/-- Host functions (R344, R353): SR-IOV and command bits, MSI-X function state, the ring pairs and vectors at run time (by 64 function + ring
and 2,048 function + vector), and whether the CXL link is up. `lastServed`: the function served last;
`lastRing`: the ring pair that each function served last (R369). `flr`: functions whose disable resets their page and MSI-X state; `pfReset`: the
disables in progress reset the grants and the host attachment as well (R353) (log 168, DESIGN CHOICE). -/
structure Functions where
  numVfs : Nat
  vfEnable : Bool
  memSpace : Bool
  busMaster : Tab Bool
  msixEnable : Tab Bool
  msixMask : Tab Bool
  vectors : Tab Vec
  rings : Tab RingRun
  linkUp : Bool
  /-- The rate in GT/s and the width at which the port has trained, while the link is up (R337). -/
  trained : Option (Nat × Nat)
  /-- The size in GiB with which the host has programmed the HDM decoder, while it is seen to be programmed (R337, R342, R353). -/
  hdm : Option Nat
  lastServed : Nat
  lastRing : Tab Nat
  flr : Tab Bool
  pfReset : Bool
  deriving DecidableEq, Repr

/-- A codeword access that waits at its channel engine (R254): its address and length, its bytes when it is a write, and whether it is narrow. -/
structure MemReq where
  addr : Nat
  len : Nat
  write : Option (List Byte)
  narrow : Bool
  deriving DecidableEq, Repr

/-- A write that waits for a poison fill to pass its codeword, or for a controller block that the under-voltage guard holds (R262, R415): logical channel,
codeword, offset in it, bytes, mark. -/
structure LateWrite where
  lchan : Nat
  cw : Nat
  off : Nat
  bytes : List Byte
  mark : Bool
  deriving DecidableEq, Repr

/-- Channels at run time (R258-R262): migrations by stack (logical channel, spare, P), fills by logical channel (spare, F), scrub
position by physical channel, the channel pass flags, services left (R406). -/
structure Channels where
  migrations : Tab (Option (Nat × Nat × Nat))
  fills : Tab (Option (Nat × Nat))
  requested : List Nat
  scrubPos : Tab Nat
  scrubDone : List Nat
  departures : Tab Nat
  ceAtTest : Tab Nat
  /-- Writes that wait for a poison fill or a held controller, oldest first (R262, R415). -/
  late : List LateWrite
  /-- The narrow and the bulk queue of each channel engine, by logical channel, oldest request first (R254). -/
  queues : Tab (List MemReq × List MemReq)
  /-- Narrow bursts that each channel engine has served in a row with a bulk request waiting (R254). -/
  narrowRun : Tab Nat
  /-- Damage whose cause persists: stuck cells by codeword, as `memDamage`, and failed pins by physical channel (R249). -/
  stuckCells : Tab Damage
  failedPins : Tab Damage
  deriving DecidableEq, Repr

/-- Power and temperature (R413-R428). -/
structure Power where
  /-- Thermal set-points by region (unlisted: 720, the `VSET` of reset) and the package ceiling, in mV. -/
  thermal : Tab Nat
  ceiling : Nat
  /-- Power samples in W, newest first (R421). -/
  samples : List Nat
  /-- Counts for which a clamp of a region has been engaged, below a whole millisecond (R429). -/
  clampNs : Tab Nat
  /-- Tally count since which the device is not busy, and since which it is in P1 (R424). -/
  idleFrom : Option Nat
  p1From : Option Nat
  /-- Activity events of the interval by context, class and region (`activityKey`), the count at which the interval began, and the coefficients of the
  latest `CALIB` record by class (R427, R482). -/
  activity : Tab Nat
  rescaledAt : Nat
  coeffs : List Nat
  /-- The sensor offsets of that record, by sensor (R446, R482); a reading of `SENSOR_READ` has its offset applied (log 205, DESIGN CHOICE). -/
  offsets : List Nat
  deriving DecidableEq, Repr

/-- Signet, the MGC, the journal store and the debug session (R430-R461). -/
structure Security where
  /-- Images by 2 kind + slot (kind 1-3; slot 0 A, 1 B). -/
  slots : Tab (Option Image)
  otpField : Bool
  otpReturned : Bool
  revoked : Nat
  floors : Tab Nat
  /-- The identity area (R431) has not been erased (R458); the keys in it, once they are made (R440). -/
  identityArea : Bool
  deviceKeys : Option DeviceKeys
  /-- Running images' SVN by kind; the MGC runs; the firmware that Signet verified (R452). -/
  running : Tab Nat
  mgcRuns : Bool
  /-- The journal has been replayed since cold reset (R19, R482). -/
  journalRead : Bool
  firmware : List Byte
  /-- What the firmware has given of a value that extends MEAS5-MEAS7, by register (R439). -/
  measIn : Tab Nat
  /-- The two log halves, oldest record first. -/
  half0 : List JRec
  half1 : List JRec
  /-- Changes of state not yet durable (type, numbers, Tally count), oldest first (R447). -/
  changes : List (Nat × List Nat × Nat)
  /-- Writes discarded since the last BOUND record and the count it was made at (R451). -/
  boundWrites : Nat
  boundAt : Option Nat
  session : Option Session
  aboveL0 : Bool
  mgcHalted : Bool
  sram : Mem
  ideKeys : List (BitVec 256)
  spdm : Nat
  deriving DecidableEq, Repr

/-- Assay at run time (R405-R407): the unit under test with the state it had before, times each lane failed, and 1 + the count of the last test of a unit
(tile p at p, lane g at 1000 + g, channel c at 2000 + c; 0: none), the next logical tile to rotate, 1 + the count of the last rotation, and the units
that a rotation took out of service, which are tested next (R407). -/
structure Assay where
  unit : Option (AssayUnit × Nat)
  laneFails : Tab Nat
  lastTest : Tab Nat
  nextTile : Nat
  lastRotation : Nat
  next : List AssayUnit
  deriving DecidableEq, Repr

/-- The state of the block. -/
structure State where
  /-- Commands that wait, first in, first out. -/
  pending : List Instr
  /-- Accesses that wait for a wake from P1 or P2, oldest first (R425). -/
  waiting : List Instr
  /-- The Tally (R40). -/
  tally : Nat
  /-- The one forward step of R42 has been made. -/
  tallyStepped : Bool
  /-- The model's own counter of free values drawn (log 4, DESIGN CHOICE); no rule of the spec names it. -/
  draws : Nat
  /-- Register fields that differ from their Reset column, by field and instance. -/
  regs : Tab Nat
  /-- Physical tiles (R8). -/
  tiles : Tab Tile
  /-- A change of tile mode that is due (R57). -/
  modeDue : Option Nat
  /-- Device memory: data bytes by physical channel x 3 GiB + offset, and the codewords with POISON = 1 (R247-R251). -/
  mem : Mem
  memPoison : Tab Bool
  /-- Symbols in error that a codeword's cells hold, by the same number as `memPoison` (R249). -/
  memDamage : Tab Damage
  chans : Channels
  /-- Host memory and its poisoned 64-byte lines, as the device reads and writes it (R338). -/
  host : Mem
  hostPoison : Tab Bool
  /-- Loaded and retiring boards by 256 tenant + handle; open pools by 4 tenant + pool. -/
  boards : Tab (Option Board)
  pools : Tab (Option Pool)
  /-- Items in flight: those before event 3 in the order of fetch, those past it in the order of event 3 (R88), those that have ended
  in the order in which they ended (R372); and the number of the next. -/
  items : List Item
  nextItem : Nat
  /-- Launches that reached event 4 and have not begun, in the order in which they reached it (R57, R83, R371). -/
  order4 : List Nat
  links : Tab Link
  /-- Packets of lost links that wait for room in a `MGMT` queue of their port: port, source, packet (R301, R307). -/
  mgmtLeft : List (Nat × Nat × Packet)
  /-- Next PSEQ by 4 port + VC, and the last 4,096 delivered (R307). -/
  pseqs : Tab Nat
  deliveredSeqs : Tab (List Nat)
  /-- Packets delivered to this chip and not yet processed, with the link they arrived on (20: this chip). -/
  inbound : List (Nat × Packet)
  transfers : List Transfer
  nextTransfer : Nat
  landings : List Landing
  /-- Chunks of copies that are being written, at most one for each tile (R52, R182). -/
  arriving : List Arrival
  abortedKeys : List AbortedKey
  windows : Tab (Option Window)
  windowIns : List WindowIn
  peerRefs : Tab (Option PeerRef)
  tables : Tab TableSlot
  inboxes : Tab (Option Inbox)
  /-- Committed grants by context, and what a pending narrowing keeps with the items it waits for (R348). -/
  grants : Tab Grant
  narrowing : Tab (Option (Grant × List Nat))
  /-- The items in flight at the fence of a context that have not ended (R399). -/
  fenceItems : Tab (List Nat)
  fns : Functions
  /-- `ISSUED`, `RETURNED` and the count by which `FREE` lies below `CAPACITY`, kept separately for each pool index (R400), by pool and index paired. -/
  audit : Tab (Nat × Nat × Nat)
  /-- Carries in progress (R387). -/
  carries : List Carry
  repairs : List Repair
  assay : Assay
  power : Power
  sec : Security
  pins : Pins
  outs : Outputs
  deriving DecidableEq, Repr

/-- The machine in cold reset: VAUX in tolerance, POR_N low, every register field at its Reset column, nothing stored
(R18, R19, R469, R473, R478). What the spec gives no value for is empty or zero (log 3, DESIGN CHOICE); the flash is erased and the
one-time-programmable array unprogrammed (log 2, DESIGN CHOICE). -/
def State.reset : State :=
  { pending := [], waiting := [], tally := 0, tallyStepped := false, draws := 0, regs := [], tiles := [], modeDue := none, mem := [], memPoison := [], memDamage := [],
    chans := { migrations := [], fills := [], requested := [], scrubPos := [], scrubDone := [], departures := [],
               ceAtTest := [], late := [], queues := [], narrowRun := [], stuckCells := [], failedPins := [] },
    host := [], hostPoison := [], boards := [], pools := [], items := [], nextItem := 0, order4 := [], links := [], mgmtLeft := [],
    pseqs := [], deliveredSeqs := [], inbound := [], transfers := [], nextTransfer := 0, landings := [], arriving := [],
    abortedKeys := [], windows := [], windowIns := [], peerRefs := [], tables := [], inboxes := [], grants := [], narrowing := [], fenceItems := [],
    fns := { numVfs := 0, vfEnable := false, memSpace := false, busMaster := [], msixEnable := [], msixMask := [],
             vectors := [], rings := [], linkUp := false, trained := none, hdm := none, lastServed := 63, lastRing := [], flr := [], pfReset := false },
    audit := [], carries := [], repairs := [],
    assay := { unit := none, laneFails := [], lastTest := [], nextTile := 0, lastRotation := 0, next := [] },
    power := { thermal := [], ceiling := 720, samples := [], clampNs := [], idleFrom := none, p1From := none, activity := [], rescaledAt := 0, coeffs := [], offsets := [] },
    sec := { slots := [], otpField := false, otpReturned := false, revoked := 0, floors := [], identityArea := true, deviceKeys := none,
             running := [], mgcRuns := false, journalRead := false, firmware := [], measIn := [], half0 := [], half1 := [], changes := [],
             boundWrites := 0, boundAt := none, session := none, aboveL0 := false, mgcHalted := false, sram := [],
             ideKeys := [], spdm := 0 },
    pins := { vaux := true, porN := false, porHigh := false, pgMain := false, railFault := false, perstN := false, wakeN := true, testMode := false,
              smbAddr := 0, regulators := false, switches := 0, prsntLow := false, cxlReceivers := false,
              tripLatch := none, tripRecorded := false, stillHot := false, alerts := [], ir := 0x01, boundary := List.replicate 479 false, window := false },
    outs := { messages := [], cache := [], memData := [], memMark := false, cxlData := [], cxlPoison := false, report := [], auth := [], loupe := 0, loupeRefused := false,
              dr := [] } }

end Sys2Proof.Machine
end

