-- ==== Sys2Proof/WellFormed.lean ====
section
/-! DEFINITION. Well-formed commands: each names units that the device has (R7-R12, R99, R170, R267, R355, R416). A
command that is not well-formed names none, and its meaning stops with `noSuchUnit`. -/

namespace Sys2Proof

/-- Virtual functions are numbered 1-63 (R11). -/
def Agent.wf : Agent → Bool
  | .hostPf | .mgc | .loupe => true
  | .hostVf n => 1 ≤ n && n < 64

/-- Four DMA engines (R99), 1-16 sources (R112). -/
def Waiter.wf : Waiter → Bool
  | .instr => true
  | .dma e => e < 4
  | .redSource s => s < 16

/-- The length of a packet is one that its format has: at most 992 payload bytes, on MGMT at most 96 (R300). -/
def Packet.lenOk (p : Packet) : Bool := p.payload.length ≤ (if p.vc == .mgmt then 96 else 992)

/-- A codeword holds 10 flits (R294), so the last flits of at most 10 packets, each of a length that R300 allows. -/
def Codeword.wf (cw : Codeword) : Bool := cw.packets.length ≤ 10 && cw.packets.all Packet.lenOk

/-- Nine requesters of a bank, 16,384 rows of 256 bytes (R170, R171). -/
def RowReq.wf (r : RowReq) : Bool :=
  r.requester < 9 && r.row < 16384 && r.write.all (fun w => w.all (fun e => e.1 < 256))

/-- A codeword has 36 symbols, each named once (R248). -/
def Damage.wf (d : Damage) : Bool := d.all (fun e => e.1 < 36 && e.2 != 0) && decide (d.map Prod.fst).Nodup

/-- Physical tiles 0-271, lanes 0-99, channels 0-271 (R8-R10). -/
def AssayUnit.wf : AssayUnit → Bool
  | .tile p => p < 272
  | .lane g => g < 100
  | .channel c => c < 272

/-- Tiles 0-255. -/
def HaltTarget.wf : HaltTarget → Bool
  | .tile t => t < 256
  | .mgc => true

/-- Tiles 0-255, functions 0-63, the four words of the challenge. -/
def LoupeAccess.wf : LoupeAccess → Bool
  | .readTrace t | .readSpad t _ | .writeSpad t _ _ | .readTileState t _ _ | .writeTileState t _ _ _ => t < 256
  | .readRegister fn _ _ => fn < 64
  | .readChallenge w => w < 4
  | .writeRegister _ _ _ | .readSecStat | .readMem _ | .writeMem _ _
  | .readSram _ | .writeSram _ _ | .scan _ => true

/-- The command names units that exist. -/
def Instr.wf : Instr → Bool
  | .tallyTick => true
  | .coreRateUpdate region _ => region < 16
  | .stallWatchdogExpiry t => t < 256
  | .timingFrameSend => true
  | .timingFrameReceive _ _ => true
  | .launchBegin _ => true
  | .tileModeChange => true
  | .launch fn ring => fn < 64 && ring < 64
  | .launchCheck _ => true
  | .launchArm _ => true
  | .load fn ring => fn < 64 && ring < 64
  | .retire fn ring => fn < 64 && ring < 64
  | .nop t => t < 256
  | .endStream t => t < 256
  | .loop t => t < 256
  | .fence t => t < 256
  | .ldb t _ => t < 256
  | .mma t => t < 256
  | .drain t => t < 256
  | .swap t => t < 256
  | .swapExchange t => t < 256
  | .red t => t < 256
  | .redSourceAdd t s => t < 256 && s < 16
  | .rowGroupCommit t _ _ _ => t < 256
  | .instructionComplete t _ => t < 256
  | .waitSatisfied t w => t < 256 && w.wf
  | .dmaEntryStart t e => t < 256 && e < 4
  | .dmaTransfer t e _ => t < 256 && e < 4
  | .dmaEntryFinish t e => t < 256 && e < 4
  | .tilePartEnd t => t < 256
  | .vld t _ => t < 256
  | .vst t _ => t < 256
  | .vmov t _ => t < 256
  | .vmld t _ => t < 256
  | .vmst t _ => t < 256
  | .viota t _ => t < 256
  | .vadd t _ => t < 256
  | .vsub t _ => t < 256
  | .vmul t _ => t < 256
  | .vfma t _ => t < 256
  | .vmax t _ => t < 256
  | .vmin t _ => t < 256
  | .vneg t _ => t < 256
  | .vabs t _ => t < 256
  | .vcmp t _ => t < 256
  | .vsel t _ => t < 256
  | .vsf t _ => t < 256
  | .vrstat t _ => t < 256
  | .vrmsn t _ => t < 256
  | .vsmx t _ => t < 256
  | .vupd t _ => t < 256
  | .scratchpadRowAccess t bank reqs _ => t < 256 && bank < 64 && reqs.all RowReq.wf
  | .scfg t => t < 256
  | .ssig t => t < 256
  | .ssigTakeEffect t => t < 256
  | .bcfg t => t < 256
  | .bwaitd t => t < 256
  | .bwaits t => t < 256
  | .bangleWaitSatisfied t => t < 256
  | .bpush t => t < 256
  | .bpushTakeEffect t => t < 256
  | .bpop t => t < 256
  | .bpopTakeEffect t => t < 256
  | .lkload t _ => t < 256
  | .lkput t _ => t < 256
  | .lkrd t _ => t < 256
  | .lkfl t _ => t < 256
  | .ropet t _ => t < 256
  | .rope t _ => t < 256
  | .amask t _ => t < 256
  | .apsmx t _ => t < 256
  | .amerge t _ => t < 256
  | .pageCmd fn ring => fn < 64 && ring < 64
  | .map _ => true
  | .ref _ => true
  | .unref _ => true
  | .swapOut _ => true
  | .swapOutCopy _ => true
  | .swapIn _ => true
  | .openPool _ => true
  | .closePool _ => true
  | .xcfg t => t < 256
  | .xplace t _ => t < 256
  | .xgather t _ => t < 256
  | .xcombine t _ => t < 256
  | .memCodewordRead _ _ strike _ _ => strike.symbols.wf
  | .memCodewordWrite _ _ _ strike _ _ => strike.symbols.wf
  | .scrubRead chan strike _ => chan < 272 && strike.symbols.wf
  | .migrationStart lchan => lchan < 256
  | .migrationCopyStep lchan strike _ _ => lchan < 256 && strike.symbols.wf
  | .poisonFillStep lchan _ => lchan < 256
  | .ingest fn ring => fn < 64 && ring < 64
  | .ingestArm _ engine => engine < 4
  | .ingestBlockDecode _ => true
  | .layoutWrite _ => true
  | .ingestForward _ => true
  | .inboxWriteReceive => true
  | .ingestCmd fn ring => fn < 64 && ring < 64
  | .tableLoad _ => true
  | .drop _ => true
  | .inboxOpen _ => true
  | .inboxClose _ => true
  | .tlook t _ => t < 256
  | .linkCodewordReceive l cw => l < 20 && cw.wf
  | .linkRetrain l => l < 20
  | .linkRetrainComplete l tr _ => l < 20 && tr.measured.length = 5
  | .laneSwitchRequest l lane => l < 20 && lane < 5
  | .laneSwitchRequestReceive l => l < 20
  | .laneSwitch l => l < 20
  | .laneLockLoss l lane => l < 20 && lane < 5
  | .linkBringup l => l < 20
  | .linkSignalDetect l tr => l < 20 && tr.measured.length = 5
  | .linkIdentityExchange l _ => l < 20
  | .linkPacketSend l => l < 20
  | .packetReceive l => l < 20
  | .linkMaskWrite a _ => a.wf
  | .linkRtWrite a chip _ => a.wf && chip < 2048
  | .linkPortWrite a port _ => a.wf && port < 20
  | .linkTopoWrite a _ => a.wf
  | .rsend t => t < 256
  | .rland t => t < 256
  | .chunkReceive => true
  | .landingCombine t _ _ _ => t < 256
  | .ack => true
  | .nak => true
  | .busy => true
  | .chunkBackoffExpiry _ _ => true
  | .reject => true
  | .abort => true
  | .unreachableNoticeReceive => true
  | .collectiveTimeout _ => true
  | .abortedKeyExpiry => true
  | .windowChunkReceive => true
  | .windowCmd fn ring => fn < 64 && ring < 64
  | .wopen _ => true
  | .wclose _ => true
  | .wrefSet _ => true
  | .wrefClear _ => true
  | .descriptorFetch fn ring => fn < 64 && ring < 64
  | .nopDescriptor fn ring => fn < 64 && ring < 64
  | .completionRecordWrite _ => true
  | .msixTimerExpiry fn vector => fn < 64 && vector < 2048
  | .sqTailWrite fn ring _ => fn < 64 && ring < 64
  | .cqHeadWrite fn ring _ => fn < 64 && ring < 64
  | .ringEnable fn ring => fn < 64 && ring < 64
  | .ringDisable fn ring => fn < 64 && ring < 64
  | .fnQuotaWrite a ctx _ => a.wf && ctx < 64
  | .hwinSetLock a w _ => a.wf && w < 256
  | .cxlMemRead _ _ => true
  | .cxlMemWrite _ _ _ => true
  | .grantCommit a ctx => a.wf && ctx < 64
  | .numvfsWrite _ => true
  | .vfEnableSet => true
  | .vfEnableClear => true
  | .memorySpaceEnableSet => true
  | .memorySpaceEnableClear => true
  | .busMasterEnableClear fn => fn < 64
  | .busMasterEnableSet fn => fn < 64
  | .flrVf n => 1 ≤ n && n < 64
  | .flrPf => true
  | .cxlReset => true
  | .cxlResetMemClear => true
  | .cxlLinkDown => true
  | .functionDisableComplete fn => fn < 64
  | .carryComplete t _ => t < 256
  | .carryTimeout t => t < 256
  | .strandSubstitution t => t < 256
  | .repairStart => true
  | .repairPeerRequest => true
  | .repairResponse => true
  | .repairAttemptTimeout => true
  | .tenantFence a ctx => a.wf && ctx < 64
  | .tenantUnfence a ctx => a.wf && ctx < 64
  | .auditSnap a => a.wf
  | .assayTestStart u => u.wf
  | .assayTestComplete _ => true
  | .assayRotation => true
  | .sensorRead readings => readings.length = 384
  | .thermalLoopTick => true
  | .powerSample _ => true
  | .powerCeilingTick _ => true
  | .hardTrip sensor => sensor < 384
  | .uvGuardEntry region => region < 16
  | .uvGuardExit region => region < 16
  | .p1Entry => true
  | .p2Entry => true
  | .wake => true
  | .wakeComplete => true
  | .pwrCtlOff a => a.wf
  | .mctpOff => true
  | .mctpWake => true
  | .wakeNAssert _ => true
  | .energyRescale _ => true
  | .bootChain _ => true
  | .recoveryImageWrite kind slot _ => 1 ≤ kind && kind ≤ 3 && slot < 2
  | .firmwareUpdate kind _ => 1 ≤ kind && kind ≤ 3
  | .svnCommit kind => 1 ≤ kind && kind ≤ 3
  | .attestationRequest _ _ => true
  | .spdmKeyExchange _ => true
  | .journalRecordWrite => true
  | .journalCompaction => true
  | .mgcWatchdogExpiry => true
  | .tokenDebug _ => true
  | .tokenReturn _ => true
  | .tokenLock _ => true
  | .debugLevelRaise level => level < 4
  | .debugLevelLower level => level < 4
  | .debugSessionExpiry => true
  | .debugHalt x => x.wf
  | .debugSingleStep x => x.wf
  | .debugResume x => x.wf
  | .loupeDebugAccess acc => acc.wf
  | .idcode => true
  | .samplePreload _ => true
  | .extest => true
  | .extestPulse => true
  | .extestTrain => true
  | .clamp => true
  | .highz => true
  | .bypass _ => true
  | .tapReset => true
  | .coldReset _ _ => true
  | .porRelease strap => strap < 4
  | .tripRecord => true
  | .journalReplay => true
  | .pgMainRise => true
  | .regulatorRamp => true
  | .memoryTraining failed => failed.all (fun c => c < 272)
  | .memoryInit => true
  | .portReady => true
  | .pgMainFall => true
  | .railFault => true
  | .perstNFall => true
  | .perstNRise => true
  | .testModeAssert => true
  | .setupLock a => a.wf
  | .registerWrite a _ _ _ => a.wf
  | .unlistedDescriptorType fn ring => fn < 64 && ring < 64
  | .msixUnmask fn what => fn < 64 && what.all (fun v => v < 2048)
  | .spareLaneStopsQualifying l => l < 20
  | .alertCauseRead => true

end Sys2Proof
end

