-- ==== Sys2Proof/Machine/Ops.lean ====
section
/-! DEFINITION. The named operations over tables, memories and register fields that every meaning is written with. -/

namespace Sys2Proof.Machine

/-! ## Tables in canonical form -/

/-- The value of key `k`; `d` is what an unlisted key reads as. -/
def Tab.get {α : Type} (d : α) : Tab α → Nat → α
  | [], _ => d
  | (k', v) :: r, k => if k' = k then v else if k < k' then d else Tab.get d r k

/-- The table with key `k` at `v`; the canonical form is kept: keys rise, and a value equal to `d` is not listed. -/
def Tab.set {α : Type} [DecidableEq α] (d : α) : Tab α → Nat → α → Tab α
  | [], k, v => if v = d then [] else [(k, v)]
  | (k', v') :: r, k, v =>
    if k < k' then (if v = d then (k', v') :: r else (k, v) :: (k', v') :: r)
    else if k' = k then (if v = d then r else (k, v) :: r)
    else (k', v') :: Tab.set d r k v

/-- The table with key `k` changed by `f`. -/
def Tab.modify {α : Type} [DecidableEq α] (d : α) (t : Tab α) (k : Nat) (f : α → α) : Tab α :=
  Tab.set d t k (f (Tab.get d t k))

/-- The table with keys `a` to `a + n - 1` back at the default. -/
def Tab.clear {α : Type} (t : Tab α) (a n : Nat) : Tab α := t.filter (fun e => e.1 < a || a + n ≤ e.1)

/-- The canonical form: keys strictly rising, no entry equal to the default. -/
def Tab.wf {α : Type} [DecidableEq α] (d : α) (t : Tab α) : Bool :=
  decide (List.Pairwise (fun (a b : Nat × α) => a.1 < b.1) t) && t.all (fun e => decide (e.2 ≠ d))

/-- The canonical form of a byte memory (an unlisted address reads as zero). -/
def Memory.wf (m : Mem) : Bool := Tab.wf (0 : Byte) m

/-- One byte. -/
def Mem.read (m : Mem) (a : Nat) : Byte := Tab.get 0 m a

/-- One byte written. -/
def Mem.write (m : Mem) (a : Nat) (b : Byte) : Mem := Tab.set 0 m a b

/-- The `n` bytes from `a`. -/
def Mem.readRange (m : Mem) (a n : Nat) : List Byte := (List.range n).map (fun i => Mem.read m (a + i))

/-- The bytes `bs` written from `a`. -/
def Mem.writeRange (m : Mem) (a : Nat) : List Byte → Mem
  | [] => m
  | b :: bs => Mem.writeRange (Mem.write m a b) (a + 1) bs

/-- The `n` bytes from `a` set to zero. -/
def Mem.zero (m : Mem) (a n : Nat) : Mem := Tab.clear m a n

/-! ## Numbers and bytes (R14) -/

/-- The number whose little-endian bytes are given. -/
def leNat : List Byte → Nat
  | [] => 0
  | b :: bs => b.toNat + 256 * leNat bs

/-- The `n` little-endian bytes of a number. -/
def leBytes : Nat → Nat → List Byte
  | 0, _ => []
  | n + 1, v => BitVec.ofNat 8 v :: leBytes n (v / 256)

/-- A little-endian field of `n` bytes at offset `a` of a structure. -/
def leAt (bs : List Byte) (a n : Nat) : Nat := leNat ((bs.drop a).take n)

/-- Bits [lo + n - 1 : lo] of a number. -/
def bitsOf (v lo n : Nat) : Nat := v / 2 ^ lo % 2 ^ n

/-- Bit `i` of a number. -/
def bitOf (v i : Nat) : Bool := v / 2 ^ i % 2 = 1

/-- The little-endian number of `n` bytes at address `a`. -/
def Mem.readNat (m : Mem) (a n : Nat) : Nat := leNat (Mem.readRange m a n)

/-- The number `v` written as `n` little-endian bytes at address `a`. -/
def Mem.writeNat (m : Mem) (a n v : Nat) : Mem := Mem.writeRange m a (leBytes n v)

/-- The smallest multiple of `q` that is at least `a`. -/
def alignUp (a q : Nat) : Nat := (a + q - 1) / q * q

/-- `a / q`, rounded up. -/
def ceilDiv (a q : Nat) : Nat := (a + q - 1) / q

/-- Saturating addition to a field of `w` bits. -/
def satAdd (w a b : Nat) : Nat := min (a + b) (2 ^ w - 1)

/-- The list with element `i` replaced, unchanged when there is none. -/
def listSet {α : Type} (l : List α) (i : Nat) (v : α) : List α := l.set i v

/-- The list with element `i` changed. -/
def listModify {α : Type} : List α → Nat → (α → α) → List α
  | [], _, _ => []
  | x :: r, 0, f => f x :: r
  | x :: r, i + 1, f => x :: listModify r i f

/-- Two spans (address, length) have an address in common. -/
def overlaps (a n b m : Nat) : Bool := 0 < n && 0 < m && a < b + m && b < a + n

/-- The span (a, n) lies in the span (b, m). -/
def within (a n b m : Nat) : Bool := b ≤ a && a + n ≤ b + m

/-! ## Register fields -/

/-- The key of a field of an instance in `State.regs`. -/
def Field.key (f : Field) (i : Nat) : Nat := 131072 * i + 1024 * f.reg.ctorIdx + f.lo

/-- The Reset column of a field of an instance; that of `LINK_PORT.LINKS` is 1 << p (R313). -/
def Field.resetAt (f : Field) (i : Nat) : Nat :=
  if f.reg = .linkPort ∧ f.lo = 0 then 2 ^ i % 2 ^ 20 else f.reset

/-- The value of a field of instance `i`. -/
def State.fld (s : State) (f : Field) (i : Nat) : Nat := Tab.get (f.resetAt i) s.regs (f.key i)

/-- A one-bit field as a truth value. -/
def State.flag (s : State) (f : Field) (i : Nat) : Bool := s.fld f i != 0

/-- The field of instance `i` set to `v` modulo its width. -/
def State.setFld (s : State) (f : Field) (i v : Nat) : State :=
  { s with regs := Tab.set (f.resetAt i) s.regs (f.key i) (v % 2 ^ f.width) }

/-- The field raised by `n`, saturating at its largest value. -/
def State.bump (s : State) (f : Field) (i n : Nat) : State := if n = 0 then s else s.setFld f i (satAdd f.width (s.fld f i) n)

/-- The field raised by `n` modulo its width. -/
def State.addFld (s : State) (f : Field) (i n : Nat) : State := s.setFld f i (s.fld f i + n)

/-- A field of a one-bit width set from a truth value. -/
def State.setFlag (s : State) (f : Field) (i : Nat) (b : Bool) : State := s.setFld f i (if b then 1 else 0)

/-! ## Outcomes -/

/-- The command acts on a unit that the device has; otherwise the block stops (log 10, DESIGN CHOICE). -/
def onUnit (ok : Bool) (what : String) (k : Out State) : Out State :=
  if ok then k else .fault (.noSuchUnit what)

/-- The event happens only when its condition holds (R23); otherwise nothing changes (log 1, DEDUCED). -/
def whenever (c : Bool) (s s' : State) : Out State := .next (if c then s' else s)

/-! ## Journal -/

/-- A change of state that the journal must record (R447): the record's type and the numbers it names. -/
def State.journal (s : State) (type : Nat) (args : List Nat) : State :=
  { s with sec := { s.sec with changes := s.sec.changes ++ [(type, args, s.tally)] } }

/-! The record types of R446. -/
def recGenesis : Nat := 0x01
def recSeal : Nat := 0x02
def recTile : Nat := 0x10
def recRowSpare : Nat := 0x11
def recChannel : Nat := 0x20
def recMapout : Nat := 0x21
def recLane : Nat := 0x30
def recTileMode : Nat := 0x40
def recCalib : Nat := 0x50
def recAudit : Nat := 0x60
def recTrip : Nat := 0x61
def recSlotActive : Nat := 0x70
def recDebugSession : Nat := 0x80
def recBound : Nat := 0x81

/-! ## Activity events (R427)

Instruction classes are the upper four bits of an opcode, 0-15 (log 187, DESIGN CHOICE). -/
def evRow : Nat := 16
def evBurst : Nat := 17
def evFlit : Nat := 18
def evCxl : Nat := 19
/-- One Tally count of the static energy of a tile, and of the L-die's fixed draw. -/
def evStatic : Nat := 20
def evFixed : Nat := 21
/-- What is charged to no tenant context is charged to the base. -/
def baseContext : Nat := 64
/-- Events of the L-die belong to no region. -/
def noRegion : Nat := 16

/-- The key of a count of activity events. -/
def activityKey (ctx class_ region : Nat) : Nat := 1024 * ctx + 32 * class_ + region

/-- Activity events of a class happen in a region for a context. -/
def State.event (s : State) (ctx class_ region n : Nat) : State :=
  { s with power := { s.power with activity := Tab.modify 0 s.power.activity (activityKey ctx class_ region) (· + n) } }

/-! ## Tiles -/

/-- A physical tile's storage. -/
def State.tile (s : State) (p : Nat) : Tile := Tab.get Tile.empty s.tiles p

/-- A physical tile's storage replaced. -/
def State.setTile (s : State) (p : Nat) (t : Tile) : State := { s with tiles := Tab.set Tile.empty s.tiles p t }

end Sys2Proof.Machine
end

