-- ==== Sys2Proof/Machine/Regs.lean ====
section
/-! DEFINITION. The register tables of the spec, one constant per field (name, bits, access, Reset column, R17-R20),
the fields of each register, and where each register lies (R345, R488, R489). A reserved row is a field that is not
listed: it reads as zero and ignores writes (R20). The Reset columns "J" and "-" read as zero (R19). -/

namespace Sys2Proof.Machine

/-! `coreRate` (R36). -/
def Fld.coreRateRate : Field := ⟨.coreRate, 0, 16, .ro, 0⟩
def Fld.coreRateMin : Field := ⟨.coreRate, 16, 16, .rw, 0xFFFF⟩
/-! `tallyCtl` (R44). -/
def Fld.tallyCtlRole : Field := ⟨.tallyCtl, 0, 2, .rwl, 0⟩
def Fld.tallyCtlParent : Field := ⟨.tallyCtl, 2, 5, .rwl, 0⟩
def Fld.tallyCtlEnable : Field := ⟨.tallyCtl, 7, 1, .rwl, 0⟩
/-! `tallyStat` (R44). -/
def Fld.tallyStatLocked : Field := ⟨.tallyStat, 0, 1, .ro, 0⟩
def Fld.tallyStatAligned : Field := ⟨.tallyStat, 1, 1, .ro, 0⟩
def Fld.tallyStatHoldover : Field := ⟨.tallyStat, 2, 1, .ro, 0⟩
def Fld.tallyStatErrNs : Field := ⟨.tallyStat, 8, 8, .ro, 0xFF⟩
/-! `tallyLate` (R46). -/
def Fld.tallyLateCount : Field := ⟨.tallyLate, 0, 32, .rw, 0⟩
/-! `tileTdcc` (R52). -/
def Fld.tileTdccRace : Field := ⟨.tileTdcc, 0, 32, .rw, 0⟩
def Fld.tileTdccFreeord : Field := ⟨.tileTdcc, 32, 32, .rw, 0⟩
/-! `linkTdcc` (R53). -/
def Fld.linkTdccFreeord : Field := ⟨.linkTdcc, 0, 32, .rw, 0⟩
/-! `boardFault` (R85). -/
def Fld.boardFaultWprot : Field := ⟨.boardFault, 0, 32, .rw, 0⟩
def Fld.boardFaultRunbound : Field := ⟨.boardFault, 32, 32, .rw, 0⟩
/-! `tileSeq` (R100). -/
def Fld.tileSeqInflight : Field := ⟨.tileSeq, 0, 10, .ro, 0⟩
def Fld.tileSeqPeak : Field := ⟨.tileSeq, 10, 10, .rw, 0⟩
/-! `tileArray` (R115). -/
def Fld.tileArrayStrand : Field := ⟨.tileArray, 0, 1, .ro, 0⟩
def Fld.tileArrayStrandGroups : Field := ⟨.tileArray, 32, 32, .rw, 0⟩
/-! `tileHealth` (R137). -/
def Fld.tileHealthCount : Field := ⟨.tileHealth, 0, 32, .rw, 0⟩
def Fld.tileHealthZeros : Field := ⟨.tileHealth, 32, 32, .rw, 0⟩
def Fld.tileHealthSats : Field := ⟨.tileHealth, 64, 32, .rw, 0⟩
def Fld.tileHealthNonfinite : Field := ⟨.tileHealth, 96, 32, .rw, 0⟩
/-! `tileHist` (R137). -/
def Fld.tileHistBin : Field := ⟨.tileHist, 0, 32, .rw, 0⟩
/-! `tileVstat` (R168). -/
def Fld.tileVstatSats : Field := ⟨.tileVstat, 0, 32, .rw, 0⟩
def Fld.tileVstatSmxFlagged : Field := ⟨.tileVstat, 32, 16, .rw, 0⟩
def Fld.tileVstatZeroRms : Field := ⟨.tileVstat, 48, 16, .rw, 0⟩
/-! `tileSpsize` (R174). -/
def Fld.tileSpsizeBytes : Field := ⟨.tileSpsize, 0, 32, .ro, 0x00400000⟩
def Fld.tileSpsizeSpares : Field := ⟨.tileSpsize, 32, 8, .ro, 0x04⟩
/-! `tileSpstat` (R174). -/
def Fld.tileSpstatBankwait : Field := ⟨.tileSpstat, 0, 32, .rw, 0⟩
/-! `tileResidency` (R180). -/
def Fld.tileResidencyHandle : Field := ⟨.tileResidency, 0, 8, .ro, 0⟩
def Fld.tileResidencyTenant : Field := ⟨.tileResidency, 8, 6, .ro, 0⟩
def Fld.tileResidencyValid : Field := ⟨.tileResidency, 14, 1, .ro, 0⟩
def Fld.tileResidencyLosses : Field := ⟨.tileResidency, 32, 32, .rw, 0⟩
/-! `kvFault` (R226). -/
def Fld.kvFaultBadpte : Field := ⟨.kvFault, 0, 16, .rw, 0⟩
def Fld.kvFaultCowfail : Field := ⟨.kvFault, 16, 16, .rw, 0⟩
def Fld.kvFaultOverfill : Field := ⟨.kvFault, 32, 16, .rw, 0⟩
def Fld.kvFaultSwaphit : Field := ⟨.kvFault, 48, 16, .rw, 0⟩
/-! `kvStat` (R226). -/
def Fld.kvStatFlushes : Field := ⟨.kvStat, 0, 32, .rw, 0⟩
def Fld.kvStatNonfinite : Field := ⟨.kvStat, 32, 16, .rw, 0⟩
def Fld.kvStatCmdrefused : Field := ⟨.kvStat, 48, 16, .rw, 0⟩
/-! `tileXstat` (R245). -/
def Fld.tileXstatOutside : Field := ⟨.tileXstat, 0, 32, .rw, 0⟩
def Fld.tileXstatUnplaced : Field := ⟨.tileXstat, 32, 32, .rw, 0⟩
/-! `memTop` (R265). -/
def Fld.memTopAddr : Field := ⟨.memTop, 0, 40, .ro, 0⟩
def Fld.memTopChannels : Field := ⟨.memTop, 40, 9, .ro, 0⟩
def Fld.memTopMapoutDue : Field := ⟨.memTop, 49, 1, .ro, 0⟩
/-! `memChmap` (R265). -/
def Fld.memChmapChannel : Field := ⟨.memChmap, 0, 6, .ro, 0⟩
def Fld.memChmapBacked : Field := ⟨.memChmap, 6, 1, .ro, 0⟩
def Fld.memChmapMigrating : Field := ⟨.memChmap, 7, 1, .ro, 0⟩
def Fld.memChmapFilling : Field := ⟨.memChmap, 8, 1, .ro, 0⟩
def Fld.memChmapFenced : Field := ⟨.memChmap, 9, 1, .ro, 0⟩
/-! `memChstat` (R265). -/
def Fld.memChstatCe : Field := ⟨.memChstat, 0, 32, .rw, 0⟩
def Fld.memChstatCeWin : Field := ⟨.memChstat, 32, 16, .ro, 0⟩
def Fld.memChstatUeWin : Field := ⟨.memChstat, 48, 8, .ro, 0⟩
def Fld.memChstatState : Field := ⟨.memChstat, 56, 3, .ro, 0⟩
def Fld.memChstatUe : Field := ⟨.memChstat, 64, 32, .rw, 0⟩
/-! `memScrub` (R265). -/
def Fld.memScrubPeriod : Field := ⟨.memScrub, 0, 8, .rwl, 0x0C⟩
def Fld.memScrubEnable : Field := ⟨.memScrub, 8, 1, .rwl, 1⟩
def Fld.memScrubPasses : Field := ⟨.memScrub, 32, 32, .ro, 0⟩
/-! `memSpareCtl` (R265). -/
def Fld.memSpareCtlCeThresh : Field := ⟨.memSpareCtl, 0, 16, .rwl, 0x0400⟩
def Fld.memSpareCtlShare : Field := ⟨.memSpareCtl, 16, 4, .rwl, 0x2⟩
def Fld.memSpareCtlAuto : Field := ⟨.memSpareCtl, 20, 1, .rwl, 1⟩
/-! `memErr` (R265). -/
def Fld.memErrBeyond : Field := ⟨.memErr, 0, 16, .rw, 0⟩
def Fld.memErrDropped : Field := ⟨.memErr, 16, 16, .rw, 0⟩
def Fld.memErrPoisonRead : Field := ⟨.memErr, 32, 32, .rw, 0⟩
/-! `ingestStat` (R291). -/
def Fld.ingestStatBlocksOk : Field := ⟨.ingestStat, 0, 32, .rw, 0⟩
def Fld.ingestStatBlocksFailed : Field := ⟨.ingestStat, 32, 16, .rw, 0⟩
def Fld.ingestStatSats : Field := ⟨.ingestStat, 48, 16, .rw, 0⟩
/-! `tableSlot` (R291). -/
def Fld.tableSlotCurGen : Field := ⟨.tableSlot, 0, 16, .ro, 0⟩
def Fld.tableSlotPrevGen : Field := ⟨.tableSlot, 16, 16, .ro, 0⟩
def Fld.tableSlotCurRefs : Field := ⟨.tableSlot, 32, 16, .ro, 0⟩
def Fld.tableSlotPrevRefs : Field := ⟨.tableSlot, 48, 16, .ro, 0⟩
def Fld.tableSlotCurId : Field := ⟨.tableSlot, 64, 32, .ro, 0⟩
def Fld.tableSlotPrevId : Field := ⟨.tableSlot, 96, 32, .ro, 0⟩
/-! `inboxStat` (R291). -/
def Fld.inboxStatReceived : Field := ⟨.inboxStat, 0, 37, .ro, 0⟩
def Fld.inboxStatGen : Field := ⟨.inboxStat, 37, 16, .ro, 0⟩
def Fld.inboxStatOpen : Field := ⟨.inboxStat, 53, 1, .ro, 0⟩
def Fld.inboxStatBroken : Field := ⟨.inboxStat, 54, 1, .ro, 0⟩
def Fld.inboxStatTenant : Field := ⟨.inboxStat, 58, 6, .ro, 0⟩
/-! `linkMask` (R313). -/
def Fld.linkMaskEnable : Field := ⟨.linkMask, 0, 20, .rw, 0⟩
/-! `linkCtl` (R313). -/
def Fld.linkCtlSymThresh : Field := ⟨.linkCtl, 0, 16, .rwl, 0x0800⟩
def Fld.linkCtlRetryLimit : Field := ⟨.linkCtl, 16, 4, .rwl, 0x8⟩
def Fld.linkCtlAutoSpare : Field := ⟨.linkCtl, 20, 1, .rwl, 1⟩
/-! `linkTopo` (R313). -/
def Fld.linkTopoChip : Field := ⟨.linkTopo, 0, 11, .rwl, 0⟩
/-! `linkPort` (R313). -/
def Fld.linkPortLinks : Field := ⟨.linkPort, 0, 20, .rwl, 0⟩
def Fld.linkPortBad : Field := ⟨.linkPort, 20, 1, .ro, 0⟩
def Fld.linkPortUp : Field := ⟨.linkPort, 21, 1, .ro, 0⟩
def Fld.linkPortUpCount : Field := ⟨.linkPort, 22, 4, .ro, 0⟩
def Fld.linkPortPeer : Field := ⟨.linkPort, 26, 11, .ro, 0⟩
/-! `linkRt` (R313). -/
def Fld.linkRtEntry : Field := ⟨.linkRt, 0, 16, .rw, 0⟩
/-! `linkStat` (R313). -/
def Fld.linkStatState : Field := ⟨.linkStat, 0, 3, .ro, 0⟩
def Fld.linkStatMismatch : Field := ⟨.linkStat, 3, 1, .ro, 0⟩
def Fld.linkStatPeerChip : Field := ⟨.linkStat, 4, 11, .ro, 0⟩
def Fld.linkStatPeerLink : Field := ⟨.linkStat, 15, 5, .ro, 0⟩
def Fld.linkStatLanes : Field := ⟨.linkStat, 20, 10, .ro, 0⟩
/-! `linkLane` (R313). -/
def Fld.linkLaneCorr : Field := ⟨.linkLane, 0, 32, .rw, 0⟩
/-! `linkErr` (R313). -/
def Fld.linkErrUncorr : Field := ⟨.linkErr, 0, 32, .rw, 0⟩
def Fld.linkErrRetries : Field := ⟨.linkErr, 32, 32, .rw, 0⟩
def Fld.linkErrRetrains : Field := ⟨.linkErr, 64, 16, .rw, 0⟩
def Fld.linkErrSwitches : Field := ⟨.linkErr, 80, 8, .rw, 0⟩
/-! `linkRoute` (R313). -/
def Fld.linkRouteNoroute : Field := ⟨.linkRoute, 0, 16, .rw, 0⟩
def Fld.linkRouteNoticeLost : Field := ⟨.linkRoute, 16, 16, .rw, 0⟩
def Fld.linkRouteDups : Field := ⟨.linkRoute, 32, 32, .rw, 0⟩
/-! `collCtl` (R336). -/
def Fld.collCtlTimeout : Field := ⟨.collCtl, 0, 5, .rwl, 0x1B⟩
def Fld.collCtlBackoff : Field := ⟨.collCtl, 8, 8, .rwl, 0x02⟩
def Fld.collCtlStragUs : Field := ⟨.collCtl, 16, 16, .rwl, 0x000A⟩
def Fld.collCtlNakLimit : Field := ⟨.collCtl, 32, 4, .rwl, 0x8⟩
/-! `collStat` (R336). -/
def Fld.collStatNaks : Field := ⟨.collStat, 0, 16, .rw, 0⟩
def Fld.collStatBusy : Field := ⟨.collStat, 16, 16, .rw, 0⟩
def Fld.collStatRejects : Field := ⟨.collStat, 32, 16, .rw, 0⟩
def Fld.collStatAborts : Field := ⟨.collStat, 48, 16, .rw, 0⟩
def Fld.collStatForeign : Field := ⟨.collStat, 64, 16, .rw, 0⟩
/-! `collStrag` (R336). -/
def Fld.collStragCount : Field := ⟨.collStrag, 0, 32, .rw, 0⟩
def Fld.collStragRank : Field := ⟨.collStrag, 32, 11, .ro, 0⟩
def Fld.collStragWorstUs : Field := ⟨.collStrag, 48, 16, .rw, 0⟩
/-! `winStat` (R336). -/
def Fld.winStatGen : Field := ⟨.winStat, 0, 16, .ro, 0⟩
def Fld.winStatOpen : Field := ⟨.winStat, 16, 1, .ro, 0⟩
def Fld.winStatTenant : Field := ⟨.winStat, 17, 6, .ro, 0⟩
def Fld.winStatArrived : Field := ⟨.winStat, 32, 32, .ro, 0⟩
def Fld.winStatRejected : Field := ⟨.winStat, 64, 16, .rw, 0⟩
/-! `hwin` (R339). -/
def Fld.hwinBase : Field := ⟨.hwin, 0, 64, .rwl, 0⟩
def Fld.hwinSize : Field := ⟨.hwin, 64, 40, .rwl, 0⟩
def Fld.hwinTenant : Field := ⟨.hwin, 104, 6, .rwl, 0⟩
def Fld.hwinRead : Field := ⟨.hwin, 110, 1, .rwl, 0⟩
def Fld.hwinWrite : Field := ⟨.hwin, 111, 1, .rwl, 0⟩
def Fld.hwinEnable : Field := ⟨.hwin, 112, 1, .rwl, 0⟩
def Fld.hwinLock : Field := ⟨.hwin, 113, 1, .ro, 0⟩
def Fld.hwinSetLock : Field := ⟨.hwin, 114, 1, .wo, 0⟩
/-! `cxmCtl` (R342). -/
def Fld.cxmCtlSegs : Field := ⟨.cxmCtl, 0, 7, .rw, 0⟩
/-! `cxmSeg` (R342). -/
def Fld.cxmSegDbase : Field := ⟨.cxmSeg, 16, 24, .rw, 0⟩
def Fld.cxmSegTenant : Field := ⟨.cxmSeg, 40, 6, .rw, 0⟩
def Fld.cxmSegWrite : Field := ⟨.cxmSeg, 46, 1, .rw, 0⟩
def Fld.cxmSegEnable : Field := ⟨.cxmSeg, 47, 1, .rw, 0⟩
/-! `grantTiles` (R346). -/
def Fld.grantTilesRow0 : Field := ⟨.grantTiles, 0, 4, .rw, 0⟩
def Fld.grantTilesCol0 : Field := ⟨.grantTiles, 4, 4, .rw, 0⟩
def Fld.grantTilesRows : Field := ⟨.grantTiles, 8, 5, .rw, 0⟩
def Fld.grantTilesCols : Field := ⟨.grantTiles, 13, 5, .rw, 0⟩
/-! `grantMem` (R346). -/
def Fld.grantMemBase : Field := ⟨.grantMem, 0, 40, .rw, 0⟩
def Fld.grantMemSize : Field := ⟨.grantMem, 40, 40, .rw, 0⟩
def Fld.grantMemShared : Field := ⟨.grantMem, 80, 1, .rw, 0⟩
def Fld.grantMemValid : Field := ⟨.grantMem, 81, 1, .rw, 0⟩
/-! `grantRes` (R346). -/
def Fld.grantResPorts : Field := ⟨.grantRes, 0, 20, .rw, 0⟩
def Fld.grantResSlots : Field := ⟨.grantRes, 20, 8, .rw, 0⟩
def Fld.grantResInboxes : Field := ⟨.grantRes, 28, 8, .rw, 0⟩
def Fld.grantResWinLo : Field := ⟨.grantRes, 36, 10, .rw, 0⟩
def Fld.grantResWinHi : Field := ⟨.grantRes, 46, 10, .rw, 0⟩
def Fld.grantResWinEn : Field := ⟨.grantRes, 56, 1, .rw, 0⟩
/-! `grantCredit` (R346). -/
def Fld.grantCreditClaspTx : Field := ⟨.grantCredit, 0, 12, .rw, 0⟩
def Fld.grantCreditBulkTx : Field := ⟨.grantCredit, 12, 12, .rw, 0⟩
def Fld.grantCreditPool1 : Field := ⟨.grantCredit, 24, 12, .rw, 0⟩
def Fld.grantCreditPool2 : Field := ⟨.grantCredit, 36, 12, .rw, 0⟩
/-! `grantCtl` (R346). -/
def Fld.grantCtlCommit : Field := ⟨.grantCtl, 0, 1, .wo, 0⟩
def Fld.grantCtlPending : Field := ⟨.grantCtl, 1, 1, .ro, 0⟩
def Fld.grantCtlRefused : Field := ⟨.grantCtl, 2, 1, .ro, 0⟩
def Fld.grantCtlCause : Field := ⟨.grantCtl, 8, 4, .ro, 0⟩
/-! `msixMod` (R351). -/
def Fld.msixModCount : Field := ⟨.msixMod, 0, 16, .rw, 1⟩
def Fld.msixModTimeUs : Field := ⟨.msixMod, 16, 16, .rw, 0⟩
/-! `hostErr` (R354). -/
def Fld.hostErrDoorbell : Field := ⟨.hostErr, 0, 16, .rw, 0⟩
def Fld.hostErrOutside : Field := ⟨.hostErr, 16, 16, .rw, 0⟩
def Fld.hostErrLost : Field := ⟨.hostErr, 32, 32, .rw, 0⟩
/-! `cxmErr` (R354). -/
def Fld.cxmErrDropped : Field := ⟨.cxmErr, 0, 32, .rw, 0⟩
def Fld.cxmErrZeroreads : Field := ⟨.cxmErr, 32, 32, .rw, 0⟩
/-! `ringCfg` (R356). -/
def Fld.ringCfgSqBase : Field := ⟨.ringCfg, 0, 64, .rw, 0⟩
def Fld.ringCfgCqBase : Field := ⟨.ringCfg, 64, 64, .rw, 0⟩
def Fld.ringCfgSqSize : Field := ⟨.ringCfg, 128, 4, .rw, 0⟩
def Fld.ringCfgCqSize : Field := ⟨.ringCfg, 132, 4, .rw, 0⟩
def Fld.ringCfgVector : Field := ⟨.ringCfg, 136, 11, .rw, 0⟩
def Fld.ringCfgEnable : Field := ⟨.ringCfg, 147, 1, .rw, 0⟩
def Fld.ringCfgActive : Field := ⟨.ringCfg, 148, 1, .ro, 0⟩
def Fld.ringCfgCfgErr : Field := ⟨.ringCfg, 149, 4, .ro, 0⟩
def Fld.ringCfgSqHead : Field := ⟨.ringCfg, 160, 32, .ro, 0⟩
def Fld.ringCfgCqTail : Field := ⟨.ringCfg, 192, 32, .ro, 0⟩
def Fld.ringCfgInflight : Field := ⟨.ringCfg, 224, 17, .ro, 0⟩
/-! `fnQuota` (R373). -/
def Fld.fnQuotaLimit : Field := ⟨.fnQuota, 0, 15, .rw, 0x0100⟩
def Fld.fnQuotaRefused : Field := ⟨.fnQuota, 15, 1, .ro, 0⟩
def Fld.fnQuotaInflight : Field := ⟨.fnQuota, 16, 15, .ro, 0⟩
/-! `fnState` (R382). -/
def Fld.fnStateState : Field := ⟨.fnState, 0, 2, .ro, 0⟩
def Fld.fnStateAborted : Field := ⟨.fnState, 32, 32, .rw, 0⟩
/-! `tileStoreErr` (R394). -/
def Fld.tileStoreErrStCe : Field := ⟨.tileStoreErr, 0, 16, .rw, 0⟩
def Fld.tileStoreErrStUe : Field := ⟨.tileStoreErr, 16, 16, .rw, 0⟩
def Fld.tileStoreErrPathPar : Field := ⟨.tileStoreErr, 32, 16, .rw, 0⟩
/-! `repairSrc` (R396). -/
def Fld.repairSrcBase : Field := ⟨.repairSrc, 0, 40, .rw, 0⟩
def Fld.repairSrcSize : Field := ⟨.repairSrc, 40, 40, .rw, 0⟩
def Fld.repairSrcKind : Field := ⟨.repairSrc, 80, 2, .rw, 0⟩
def Fld.repairSrcEnable : Field := ⟨.repairSrc, 82, 1, .rw, 0⟩
def Fld.repairSrcSrc : Field := ⟨.repairSrc, 96, 64, .rw, 0⟩
/-! `repairStat` (R398). -/
def Fld.repairStatDone : Field := ⟨.repairStat, 0, 32, .rw, 0⟩
def Fld.repairStatFailed : Field := ⟨.repairStat, 32, 16, .rw, 0⟩
def Fld.repairStatDropped : Field := ⟨.repairStat, 48, 16, .rw, 0⟩
/-! `tenantCtl` (R399). -/
def Fld.tenantCtlFence : Field := ⟨.tenantCtl, 0, 1, .wo, 0⟩
def Fld.tenantCtlUnfence : Field := ⟨.tenantCtl, 1, 1, .wo, 0⟩
def Fld.tenantCtlFenced : Field := ⟨.tenantCtl, 2, 1, .ro, 0⟩
def Fld.tenantCtlDrained : Field := ⟨.tenantCtl, 3, 1, .ro, 0⟩
def Fld.tenantCtlCause : Field := ⟨.tenantCtl, 8, 4, .ro, 0⟩
/-! `auditCtl` (R401). -/
def Fld.auditCtlPool : Field := ⟨.auditCtl, 0, 5, .rw, 0⟩
def Fld.auditCtlIndex : Field := ⟨.auditCtl, 5, 16, .rw, 0⟩
def Fld.auditCtlSnap : Field := ⟨.auditCtl, 31, 1, .wo, 0⟩
/-! `auditData` (R401). -/
def Fld.auditDataCapacity : Field := ⟨.auditData, 0, 32, .ro, 0⟩
def Fld.auditDataHeld : Field := ⟨.auditData, 32, 32, .ro, 0⟩
def Fld.auditDataFree : Field := ⟨.auditData, 64, 32, .ro, 0⟩
def Fld.auditDataIssued : Field := ⟨.auditData, 96, 32, .ro, 0⟩
def Fld.auditDataReturned : Field := ⟨.auditData, 128, 32, .ro, 0⟩
/-! `auditStat` (R403). -/
def Fld.auditStatViolations : Field := ⟨.auditStat, 0, 16, .rw, 0⟩
def Fld.auditStatPool : Field := ⟨.auditStat, 16, 5, .ro, 0⟩
def Fld.auditStatIndex : Field := ⟨.auditStat, 21, 16, .ro, 0⟩
/-! `assayCtl` (R408). -/
def Fld.assayCtlTileEn : Field := ⟨.assayCtl, 0, 1, .rwl, 1⟩
def Fld.assayCtlLaneEn : Field := ⟨.assayCtl, 1, 1, .rwl, 1⟩
def Fld.assayCtlChanEn : Field := ⟨.assayCtl, 2, 1, .rwl, 1⟩
def Fld.assayCtlRotate : Field := ⟨.assayCtl, 3, 1, .rwl, 0⟩
def Fld.assayCtlPeriod : Field := ⟨.assayCtl, 4, 8, .rwl, 0x18⟩
/-! `assayStat` (R408). -/
def Fld.assayStatPass : Field := ⟨.assayStat, 0, 16, .rw, 0⟩
def Fld.assayStatFail : Field := ⟨.assayStat, 16, 16, .rw, 0⟩
def Fld.assayStatBusy : Field := ⟨.assayStat, 32, 2, .ro, 0⟩
/-! `tilePhys` (R411). -/
def Fld.tilePhysState : Field := ⟨.tilePhys, 0, 3, .ro, 0⟩
def Fld.tilePhysArrayFenced : Field := ⟨.tilePhys, 3, 1, .ro, 0⟩
def Fld.tilePhysLogical : Field := ⟨.tilePhys, 4, 8, .ro, 0⟩
def Fld.tilePhysFences : Field := ⟨.tilePhys, 12, 4, .ro, 0⟩
def Fld.tilePhysAssayRuns : Field := ⟨.tilePhys, 32, 32, .ro, 0⟩
/-! `tileRas` (R411). -/
def Fld.tileRasResidue : Field := ⟨.tileRas, 0, 16, .rw, 0⟩
def Fld.tileRasSubst : Field := ⟨.tileRas, 16, 16, .rw, 0⟩
def Fld.tileRasSpCe : Field := ⟨.tileRas, 32, 16, .rw, 0⟩
def Fld.tileRasSpUe : Field := ⟨.tileRas, 48, 16, .rw, 0⟩
/-! `spareStat` (R411). -/
def Fld.spareStatTilesSpare : Field := ⟨.spareStat, 0, 5, .ro, 0⟩
def Fld.spareStatTilesQuar : Field := ⟨.spareStat, 5, 5, .ro, 0⟩
def Fld.spareStatTilesFailed : Field := ⟨.spareStat, 10, 9, .ro, 0⟩
def Fld.spareStatChSpare : Field := ⟨.spareStat, 19, 5, .ro, 0⟩
def Fld.spareStatLanesSpare : Field := ⟨.spareStat, 24, 7, .ro, 0⟩
def Fld.spareStatRowsMin : Field := ⟨.spareStat, 32, 3, .ro, 0⟩
/-! `pwrCfg` (R429). -/
def Fld.pwrCfgVset : Field := ⟨.pwrCfg, 0, 10, .rwl, 0x2D0⟩
def Fld.pwrCfgThermLimit : Field := ⟨.pwrCfg, 10, 8, .rwl, 0x69⟩
def Fld.pwrCfgStackLimit : Field := ⟨.pwrCfg, 18, 8, .rwl, 0x5F⟩
def Fld.pwrCfgLimitW : Field := ⟨.pwrCfg, 26, 12, .rwl, 0⟩
def Fld.pwrCfgWindowMs : Field := ⟨.pwrCfg, 38, 8, .rwl, 0x0A⟩
/-! `pwrCtl` (R429). -/
def Fld.pwrCtlTarget : Field := ⟨.pwrCtl, 0, 2, .rw, 0⟩
def Fld.pwrCtlIdleUs : Field := ⟨.pwrCtl, 2, 16, .rw, 0x0064⟩
def Fld.pwrCtlOff : Field := ⟨.pwrCtl, 18, 1, .wo, 0⟩
/-! `pwrStat` (R429). -/
def Fld.pwrStatState : Field := ⟨.pwrStat, 0, 2, .ro, 0⟩
def Fld.pwrStatTripped : Field := ⟨.pwrStat, 2, 1, .ro, 0⟩
def Fld.pwrStatTripSensor : Field := ⟨.pwrStat, 3, 9, .ro, 0⟩
def Fld.pwrStatWaking : Field := ⟨.pwrStat, 12, 1, .ro, 0⟩
def Fld.pwrStatPkgW : Field := ⟨.pwrStat, 16, 16, .ro, 0⟩
def Fld.pwrStatP2Entries : Field := ⟨.pwrStat, 32, 32, .rw, 0⟩
/-! `pwrRegion` (R429). -/
def Fld.pwrRegionSetpoint : Field := ⟨.pwrRegion, 0, 10, .ro, 0x2D0⟩
def Fld.pwrRegionTherm : Field := ⟨.pwrRegion, 10, 1, .ro, 0⟩
def Fld.pwrRegionPower : Field := ⟨.pwrRegion, 11, 1, .ro, 0⟩
def Fld.pwrRegionUv : Field := ⟨.pwrRegion, 12, 1, .ro, 0⟩
def Fld.pwrRegionTemp : Field := ⟨.pwrRegion, 16, 12, .ro, 0⟩
def Fld.pwrRegionUvEvents : Field := ⟨.pwrRegion, 32, 16, .rw, 0⟩
def Fld.pwrRegionClampMs : Field := ⟨.pwrRegion, 64, 32, .rw, 0⟩
/-! `pwrSensor` (R429). -/
def Fld.pwrSensorTemp : Field := ⟨.pwrSensor, 0, 12, .ro, 0⟩
def Fld.pwrSensorMax : Field := ⟨.pwrSensor, 12, 12, .rw, 0⟩
/-! `energyTenant` (R429). -/
def Fld.energyTenantUj : Field := ⟨.energyTenant, 0, 64, .rw, 0⟩
/-! `energyBase` (R429). -/
def Fld.energyBaseUj : Field := ⟨.energyBase, 0, 64, .rw, 0⟩
/-! `energyTotal` (R429). -/
def Fld.energyTotalUj : Field := ⟨.energyTotal, 0, 64, .rw, 0⟩
/-! `secStat` (R462). -/
def Fld.secStatLc : Field := ⟨.secStat, 0, 2, .ro, 0⟩
def Fld.secStatLevel : Field := ⟨.secStat, 2, 2, .ro, 0⟩
def Fld.secStatGranted : Field := ⟨.secStat, 4, 2, .ro, 0⟩
def Fld.secStatRecovery : Field := ⟨.secStat, 6, 1, .ro, 0⟩
def Fld.secStatNoAssay : Field := ⟨.secStat, 7, 1, .ro, 0⟩
def Fld.secStatMgcRestarts : Field := ⟨.secStat, 16, 16, .rw, 0⟩
/-! `dbgConsent` (R462). -/
def Fld.dbgConsentLevel : Field := ⟨.dbgConsent, 0, 2, .rw, 0⟩
def Fld.dbgConsentReturnOk : Field := ⟨.dbgConsent, 2, 1, .rw, 0⟩
/-! `dbgStat` (R462). -/
def Fld.dbgStatAccepted : Field := ⟨.dbgStat, 0, 16, .rw, 0⟩
def Fld.dbgStatRefused : Field := ⟨.dbgStat, 16, 16, .rw, 0⟩
def Fld.dbgStatCause : Field := ⟨.dbgStat, 32, 4, .ro, 0⟩
/-! `dbgChallenge` (R462). -/
def Fld.dbgChallengeValue : Field := ⟨.dbgChallenge, 0, 256, .ro, 0⟩
/-! `secBound` (R462). -/
def Fld.secBoundMgc : Field := ⟨.secBound, 0, 16, .rw, 0⟩
def Fld.secBoundLoupe : Field := ⟨.secBound, 16, 16, .rw, 0⟩
def Fld.secBoundLastOffset : Field := ⟨.secBound, 32, 24, .ro, 0⟩
def Fld.secBoundLastAgent : Field := ⟨.secBound, 56, 1, .ro, 0⟩
/-! `journalStat` (R462). -/
def Fld.journalStatActive : Field := ⟨.journalStat, 0, 1, .ro, 0⟩
def Fld.journalStatCompacting : Field := ⟨.journalStat, 1, 1, .ro, 0⟩
def Fld.journalStatTorn : Field := ⟨.journalStat, 16, 16, .rw, 0⟩
def Fld.journalStatFreeKib : Field := ⟨.journalStat, 32, 32, .ro, 0⟩
def Fld.journalStatSeq : Field := ⟨.journalStat, 64, 64, .ro, 0⟩
/-! `meas` (R462). -/
def Fld.measValue : Field := ⟨.meas, 0, 384, .ro, 0⟩
/-! `mgcDevid` (R490). -/
def Fld.mgcDevidPart : Field := ⟨.mgcDevid, 0, 16, .ro, 0x0768⟩
def Fld.mgcDevidGrade : Field := ⟨.mgcDevid, 16, 4, .ro, 0⟩
def Fld.mgcDevidStep : Field := ⟨.mgcDevid, 20, 8, .ro, 0xB0⟩
/-! `setupCtl` (R491). -/
def Fld.setupCtlLock : Field := ⟨.setupCtl, 0, 1, .wo, 0⟩
/-! `setupStat` (R491). -/
def Fld.setupStatPhase : Field := ⟨.setupStat, 0, 4, .ro, 0⟩
def Fld.setupStatReady : Field := ⟨.setupStat, 4, 1, .ro, 0⟩
def Fld.setupStatLocked : Field := ⟨.setupStat, 5, 1, .ro, 0⟩
def Fld.setupStatFromP3 : Field := ⟨.setupStat, 6, 1, .ro, 0⟩
def Fld.setupStatNoCalib : Field := ⟨.setupStat, 7, 1, .ro, 0⟩
def Fld.setupStatCorrections : Field := ⟨.setupStat, 16, 16, .ro, 0⟩
/-! `coreStallCtl` (R491). -/
def Fld.coreStallCtlLimit : Field := ⟨.coreStallCtl, 0, 5, .rwl, 0x18⟩
/-! `coreMode` (R56). -/
def Fld.coreModeTiles : Field := ⟨.coreMode, 0, 2, .ro, 0⟩

/-- The fields of a register. `TALLY_NOW`, doorbells and the MSI-X table are not fields: they have operations of their own. -/
def Reg.fields : Reg → List Field
  | .mgcDevid => [Fld.mgcDevidPart, Fld.mgcDevidGrade, Fld.mgcDevidStep]
  | .setupCtl => [Fld.setupCtlLock]
  | .setupStat => [Fld.setupStatPhase, Fld.setupStatReady, Fld.setupStatLocked, Fld.setupStatFromP3, Fld.setupStatNoCalib, Fld.setupStatCorrections]
  | .coreMode => [Fld.coreModeTiles]
  | .coreStallCtl => [Fld.coreStallCtlLimit]
  | .tallyNow => []
  | .tallyCtl => [Fld.tallyCtlRole, Fld.tallyCtlParent, Fld.tallyCtlEnable]
  | .tallyStat => [Fld.tallyStatLocked, Fld.tallyStatAligned, Fld.tallyStatHoldover, Fld.tallyStatErrNs]
  | .tallyLate => [Fld.tallyLateCount]
  | .coreRate => [Fld.coreRateRate, Fld.coreRateMin]
  | .pwrCfg => [Fld.pwrCfgVset, Fld.pwrCfgThermLimit, Fld.pwrCfgStackLimit, Fld.pwrCfgLimitW, Fld.pwrCfgWindowMs]
  | .pwrCtl => [Fld.pwrCtlTarget, Fld.pwrCtlIdleUs, Fld.pwrCtlOff]
  | .pwrStat => [Fld.pwrStatState, Fld.pwrStatTripped, Fld.pwrStatTripSensor, Fld.pwrStatWaking, Fld.pwrStatPkgW, Fld.pwrStatP2Entries]
  | .energyBase => [Fld.energyBaseUj]
  | .energyTotal => [Fld.energyTotalUj]
  | .pwrRegion => [Fld.pwrRegionSetpoint, Fld.pwrRegionTherm, Fld.pwrRegionPower, Fld.pwrRegionUv, Fld.pwrRegionTemp, Fld.pwrRegionUvEvents, Fld.pwrRegionClampMs]
  | .pwrSensor => [Fld.pwrSensorTemp, Fld.pwrSensorMax]
  | .secStat => [Fld.secStatLc, Fld.secStatLevel, Fld.secStatGranted, Fld.secStatRecovery, Fld.secStatNoAssay, Fld.secStatMgcRestarts]
  | .dbgConsent => [Fld.dbgConsentLevel, Fld.dbgConsentReturnOk]
  | .dbgStat => [Fld.dbgStatAccepted, Fld.dbgStatRefused, Fld.dbgStatCause]
  | .secBound => [Fld.secBoundMgc, Fld.secBoundLoupe, Fld.secBoundLastOffset, Fld.secBoundLastAgent]
  | .journalStat => [Fld.journalStatActive, Fld.journalStatCompacting, Fld.journalStatTorn, Fld.journalStatFreeKib, Fld.journalStatSeq]
  | .dbgChallenge => [Fld.dbgChallengeValue]
  | .meas => [Fld.measValue]
  | .repairStat => [Fld.repairStatDone, Fld.repairStatFailed, Fld.repairStatDropped]
  | .auditCtl => [Fld.auditCtlPool, Fld.auditCtlIndex, Fld.auditCtlSnap]
  | .auditStat => [Fld.auditStatViolations, Fld.auditStatPool, Fld.auditStatIndex]
  | .assayCtl => [Fld.assayCtlTileEn, Fld.assayCtlLaneEn, Fld.assayCtlChanEn, Fld.assayCtlRotate, Fld.assayCtlPeriod]
  | .assayStat => [Fld.assayStatPass, Fld.assayStatFail, Fld.assayStatBusy]
  | .spareStat => [Fld.spareStatTilesSpare, Fld.spareStatTilesQuar, Fld.spareStatTilesFailed, Fld.spareStatChSpare, Fld.spareStatLanesSpare, Fld.spareStatRowsMin]
  | .auditData => [Fld.auditDataCapacity, Fld.auditDataHeld, Fld.auditDataFree, Fld.auditDataIssued, Fld.auditDataReturned]
  | .repairSrc => [Fld.repairSrcBase, Fld.repairSrcSize, Fld.repairSrcKind, Fld.repairSrcEnable, Fld.repairSrcSrc]
  | .memTop => [Fld.memTopAddr, Fld.memTopChannels, Fld.memTopMapoutDue]
  | .memScrub => [Fld.memScrubPeriod, Fld.memScrubEnable, Fld.memScrubPasses]
  | .memSpareCtl => [Fld.memSpareCtlCeThresh, Fld.memSpareCtlShare, Fld.memSpareCtlAuto]
  | .memErr => [Fld.memErrBeyond, Fld.memErrDropped, Fld.memErrPoisonRead]
  | .memChmap => [Fld.memChmapChannel, Fld.memChmapBacked, Fld.memChmapMigrating, Fld.memChmapFilling, Fld.memChmapFenced]
  | .memChstat => [Fld.memChstatCe, Fld.memChstatCeWin, Fld.memChstatUeWin, Fld.memChstatState, Fld.memChstatUe]
  | .linkMask => [Fld.linkMaskEnable]
  | .linkCtl => [Fld.linkCtlSymThresh, Fld.linkCtlRetryLimit, Fld.linkCtlAutoSpare]
  | .linkTopo => [Fld.linkTopoChip]
  | .linkRoute => [Fld.linkRouteNoroute, Fld.linkRouteNoticeLost, Fld.linkRouteDups]
  | .linkPort => [Fld.linkPortLinks, Fld.linkPortBad, Fld.linkPortUp, Fld.linkPortUpCount, Fld.linkPortPeer]
  | .linkStat => [Fld.linkStatState, Fld.linkStatMismatch, Fld.linkStatPeerChip, Fld.linkStatPeerLink, Fld.linkStatLanes]
  | .linkErr => [Fld.linkErrUncorr, Fld.linkErrRetries, Fld.linkErrRetrains, Fld.linkErrSwitches]
  | .linkTdcc => [Fld.linkTdccFreeord]
  | .linkLane => [Fld.linkLaneCorr]
  | .collCtl => [Fld.collCtlTimeout, Fld.collCtlBackoff, Fld.collCtlStragUs, Fld.collCtlNakLimit]
  | .tableSlot => [Fld.tableSlotCurGen, Fld.tableSlotPrevGen, Fld.tableSlotCurRefs, Fld.tableSlotPrevRefs, Fld.tableSlotCurId, Fld.tableSlotPrevId]
  | .inboxStat => [Fld.inboxStatReceived, Fld.inboxStatGen, Fld.inboxStatOpen, Fld.inboxStatBroken, Fld.inboxStatTenant]
  | .linkRt => [Fld.linkRtEntry]
  | .winStat => [Fld.winStatGen, Fld.winStatOpen, Fld.winStatTenant, Fld.winStatArrived, Fld.winStatRejected]
  | .tilePhys => [Fld.tilePhysState, Fld.tilePhysArrayFenced, Fld.tilePhysLogical, Fld.tilePhysFences, Fld.tilePhysAssayRuns]
  | .tileSpsize => [Fld.tileSpsizeBytes, Fld.tileSpsizeSpares]
  | .tileSpstat => [Fld.tileSpstatBankwait]
  | .tileSeq => [Fld.tileSeqInflight, Fld.tileSeqPeak]
  | .tileArray => [Fld.tileArrayStrand, Fld.tileArrayStrandGroups]
  | .tileTdcc => [Fld.tileTdccRace, Fld.tileTdccFreeord]
  | .tileResidency => [Fld.tileResidencyHandle, Fld.tileResidencyTenant, Fld.tileResidencyValid, Fld.tileResidencyLosses]
  | .tileVstat => [Fld.tileVstatSats, Fld.tileVstatSmxFlagged, Fld.tileVstatZeroRms]
  | .tileXstat => [Fld.tileXstatOutside, Fld.tileXstatUnplaced]
  | .tileRas => [Fld.tileRasResidue, Fld.tileRasSubst, Fld.tileRasSpCe, Fld.tileRasSpUe]
  | .tileStoreErr => [Fld.tileStoreErrStCe, Fld.tileStoreErrStUe, Fld.tileStoreErrPathPar]
  | .tileHealth => [Fld.tileHealthCount, Fld.tileHealthZeros, Fld.tileHealthSats, Fld.tileHealthNonfinite]
  | .tileHist => [Fld.tileHistBin]
  | .grantTiles => [Fld.grantTilesRow0, Fld.grantTilesCol0, Fld.grantTilesRows, Fld.grantTilesCols]
  | .grantMem => [Fld.grantMemBase, Fld.grantMemSize, Fld.grantMemShared, Fld.grantMemValid]
  | .grantRes => [Fld.grantResPorts, Fld.grantResSlots, Fld.grantResInboxes, Fld.grantResWinLo, Fld.grantResWinHi, Fld.grantResWinEn]
  | .grantCredit => [Fld.grantCreditClaspTx, Fld.grantCreditBulkTx, Fld.grantCreditPool1, Fld.grantCreditPool2]
  | .grantCtl => [Fld.grantCtlCommit, Fld.grantCtlPending, Fld.grantCtlRefused, Fld.grantCtlCause]
  | .fnQuota => [Fld.fnQuotaLimit, Fld.fnQuotaRefused, Fld.fnQuotaInflight]
  | .tenantCtl => [Fld.tenantCtlFence, Fld.tenantCtlUnfence, Fld.tenantCtlFenced, Fld.tenantCtlDrained, Fld.tenantCtlCause]
  | .hwin => [Fld.hwinBase, Fld.hwinSize, Fld.hwinTenant, Fld.hwinRead, Fld.hwinWrite, Fld.hwinEnable, Fld.hwinLock, Fld.hwinSetLock]
  | .cxmCtl => [Fld.cxmCtlSegs]
  | .cxmSeg => [Fld.cxmSegDbase, Fld.cxmSegTenant, Fld.cxmSegWrite, Fld.cxmSegEnable]
  | .cxmErr => [Fld.cxmErrDropped, Fld.cxmErrZeroreads]
  | .ringCfg => [Fld.ringCfgSqBase, Fld.ringCfgCqBase, Fld.ringCfgSqSize, Fld.ringCfgCqSize, Fld.ringCfgVector, Fld.ringCfgEnable,
      Fld.ringCfgActive, Fld.ringCfgCfgErr, Fld.ringCfgSqHead, Fld.ringCfgCqTail, Fld.ringCfgInflight]
  | .fnState => [Fld.fnStateState, Fld.fnStateAborted]
  | .hostErr => [Fld.hostErrDoorbell, Fld.hostErrOutside, Fld.hostErrLost]
  | .boardFault => [Fld.boardFaultWprot, Fld.boardFaultRunbound]
  | .kvFault => [Fld.kvFaultBadpte, Fld.kvFaultCowfail, Fld.kvFaultOverfill, Fld.kvFaultSwaphit]
  | .kvStat => [Fld.kvStatFlushes, Fld.kvStatNonfinite, Fld.kvStatCmdrefused]
  | .ingestStat => [Fld.ingestStatBlocksOk, Fld.ingestStatBlocksFailed, Fld.ingestStatSats]
  | .collStat => [Fld.collStatNaks, Fld.collStatBusy, Fld.collStatRejects, Fld.collStatAborts, Fld.collStatForeign]
  | .collStrag => [Fld.collStragCount, Fld.collStragRank, Fld.collStragWorstUs]
  | .energyTenant => [Fld.energyTenantUj]
  | .msixMod => [Fld.msixModCount, Fld.msixModTimeUs]
  | .doorbell => []
  | .msixTable => []
  | .msixPba => []

/-- A register block: base offset, stride, register, number of instances, size of an instance in bytes. -/
abbrev RegRow := Nat × Nat × Reg × Nat × Nat

/-- The device registers of BAR0 (R488). -/
def bar0Rows : List RegRow :=
  [(0x000_0000, 8, .mgcDevid, 1, 4), (0x000_0008, 8, .setupCtl, 1, 4), (0x000_0010, 8, .setupStat, 1, 8),
   (0x000_0018, 8, .coreMode, 1, 4), (0x000_0020, 8, .coreStallCtl, 1, 4), (0x000_0040, 8, .tallyNow, 1, 8),
   (0x000_0048, 8, .tallyCtl, 1, 4), (0x000_0050, 8, .tallyStat, 1, 4), (0x000_0058, 8, .tallyLate, 1, 4),
   (0x000_0100, 8, .coreRate, 16, 4), (0x000_1000, 8, .pwrCfg, 1, 8), (0x000_1008, 8, .pwrCtl, 1, 4),
   (0x000_1010, 8, .pwrStat, 1, 8), (0x000_1018, 8, .energyBase, 1, 8), (0x000_1020, 8, .energyTotal, 1, 8),
   (0x000_1100, 16, .pwrRegion, 16, 12), (0x000_1800, 4, .pwrSensor, 384, 4), (0x000_2000, 8, .secStat, 1, 4),
   (0x000_2008, 8, .dbgConsent, 1, 4), (0x000_2010, 8, .dbgStat, 1, 8), (0x000_2018, 8, .secBound, 1, 8),
   (0x000_2020, 16, .journalStat, 1, 16), (0x000_2040, 32, .dbgChallenge, 1, 32), (0x000_2100, 64, .meas, 8, 48)] ++
  [(0x000_3000, 8, .repairStat, 1, 8), (0x000_3008, 8, .auditCtl, 1, 4), (0x000_3010, 8, .auditStat, 1, 8),
   (0x000_3018, 8, .assayCtl, 1, 4), (0x000_3020, 8, .assayStat, 1, 8), (0x000_3028, 8, .spareStat, 1, 8),
   (0x000_3040, 20, .auditData, 1, 20), (0x000_3100, 32, .repairSrc, 16, 24), (0x000_4000, 8, .memTop, 1, 8),
   (0x000_4008, 8, .memScrub, 1, 8), (0x000_4010, 8, .memSpareCtl, 1, 4), (0x000_4018, 8, .memErr, 1, 8),
   (0x000_4400, 4, .memChmap, 256, 4), (0x000_4800, 16, .memChstat, 272, 12)] ++
  [(0x000_6000, 8, .linkMask, 1, 4), (0x000_6008, 8, .linkCtl, 1, 4), (0x000_6010, 8, .linkTopo, 1, 4),
   (0x000_6018, 8, .linkRoute, 1, 8), (0x000_6100, 8, .linkPort, 20, 8), (0x000_6200, 4, .linkStat, 20, 4),
   (0x000_6300, 16, .linkErr, 20, 12), (0x000_6500, 4, .linkTdcc, 20, 4), (0x000_6600, 4, .linkLane, 100, 4),
   (0x000_6800, 8, .collCtl, 1, 8), (0x000_8000, 16, .tableSlot, 8, 16), (0x000_8100, 8, .inboxStat, 8, 8),
   (0x000_A000, 4, .linkRt, 2048, 4), (0x001_0000, 16, .winStat, 1024, 12), (0x002_0000, 8, .tilePhys, 272, 8)]

/-- The logical tile block (R488): offset within a tile's 4 KiB, stride, register, instances per tile, size. -/
def tileRows : List RegRow :=
  [(0x000, 8, .tileSpsize, 1, 8), (0x008, 8, .tileSpstat, 1, 8), (0x010, 8, .tileSeq, 1, 4), (0x018, 8, .tileArray, 1, 8),
   (0x020, 8, .tileTdcc, 1, 8), (0x028, 8, .tileResidency, 1, 8), (0x030, 8, .tileVstat, 1, 8), (0x038, 8, .tileXstat, 1, 8),
   (0x040, 8, .tileRas, 1, 8), (0x048, 8, .tileStoreErr, 1, 8), (0x050, 16, .tileHealth, 1, 16), (0x080, 4, .tileHist, 32, 4)]

/-- The grant block of a context (R345, R489). -/
def grantRows : List RegRow :=
  [(0x000, 8, .grantTiles, 1, 4), (0x008, 8, .grantRes, 1, 8), (0x010, 16, .grantMem, 8, 16), (0x100, 8, .grantCredit, 20, 8),
   (0x1F8, 8, .grantCtl, 1, 4), (0x200, 8, .fnQuota, 1, 4), (0x208, 8, .tenantCtl, 1, 4)]

/-- The counters of a function page (R382, R489). -/
def counterRows : List RegRow :=
  [(0x1900, 8, .hostErr, 1, 8), (0x1908, 8, .boardFault, 1, 8), (0x1910, 8, .kvFault, 1, 8), (0x1918, 8, .kvStat, 1, 8),
   (0x1920, 8, .ingestStat, 1, 8), (0x1928, 16, .collStat, 1, 12), (0x1938, 8, .collStrag, 1, 8), (0x1940, 8, .energyTenant, 1, 8)]

/-- The rest of a function page (R345, R356, R382): ring configuration, `FN_STATE`, MSI-X moderation. -/
def pageRows : List RegRow :=
  [(0x0_1000, 32, .ringCfg, 64, 32), (0x0_1800, 8, .fnState, 1, 8), (0x1_9000, 4, .msixMod, 2048, 4)]

end Sys2Proof.Machine
end

