-- ==== Sys2Proof/Machine/Net.lean ====
section
/-! DEFINITION. Packets, ports and routing (R300-R310): the packet's bytes and its CRC-32C, logical ports, the choice of a
link, and injection of a packet at this chip. -/

namespace Sys2Proof

open Machine

/-! ## CRC-32C (R63) -/

/-- Eight shifts of the reflected Castagnoli polynomial. -/
def crcBits : Nat → BitVec 32 → BitVec 32
  | 0, c => c
  | n + 1, c => crcBits n (if c.getLsbD 0 then (c >>> 1) ^^^ 0x82F63B78 else c >>> 1)

/-- One byte into the CRC. -/
def crcByte (c : BitVec 32) (b : Byte) : BitVec 32 := crcBits 8 (c ^^^ b.setWidth 32)

/-- CRC-32C of bytes: initial value and final XOR 0xFFFF_FFFF. -/
def crc32c (bs : List Byte) : BitVec 32 := bs.foldl crcByte 0xFFFFFFFF ^^^ 0xFFFFFFFF

/-! ## Packets (R300) -/

/-- The code of a virtual channel. -/
def VC.code : VC → Nat
  | .clasp => 0 | .bulk => 1 | .response => 2 | .mgmt => 3

/-- The virtual channel of a code. -/
def VC.ofCode : Nat → VC
  | 0 => .clasp | 1 => .bulk | 2 => .response | _ => .mgmt

/-- The 32 header bytes as the CRC sees them: `STAGE`, `PSEQ` and `CRC` taken as zero. -/
def Packet.header (p : Packet) : List Byte :=
  leBytes 2 (p.dst % 2048) ++ leBytes 2 (p.src % 2048) ++ leBytes 1 p.vc.code ++ leBytes 1 (p.tenant % 64) ++
  leBytes 2 p.payload.length ++ leBytes 4 0 ++ leBytes 2 p.flow ++ leBytes 2 0 ++ leBytes 4 0 ++
  leBytes 4 p.t14.toNat ++ leBytes 4 p.t18.toNat ++ leBytes 4 p.t1c.toNat

/-- The 32 header bytes as they travel. -/
def Packet.wire (p : Packet) : List Byte :=
  p.header.take 4 ++ leBytes 1 (p.vc.code + 4 * (p.stage % 8)) ++ (p.header.drop 5).take 3 ++ leBytes 4 (p.pseq % 2 ^ 24) ++ (p.header.drop 12).take 4 ++
    leBytes 4 p.crc.toNat ++ p.header.drop 20

/-- The CRC of a packet over its header and payload. -/
def Packet.crcOf (p : Packet) : Word32 := crc32c (p.header ++ p.payload)

/-- The check of R300 and R318 passes. -/
def Packet.crcOk (p : Packet) : Bool := p.crc == p.crcOf

/-- The flits a packet fills. -/
def Packet.flits (p : Packet) : Nat := ceilDiv (32 + p.payload.length) 64

/-- The bytes of one flit: padded with zero. -/
def flitPad (bs : List Byte) : List Byte := bs ++ List.replicate (64 - bs.length) 0

/-- The flits of a packet (R300): its bytes in order, zero beyond the payload. -/
def Packet.flitList (p : Packet) : List Flit :=
  (List.range p.flits).map (fun i =>
    { bytes := flitPad (((p.wire ++ p.payload).drop (64 * i)).take 64), last := if i + 1 = p.flits then some p else none })

/-- An idle flit (R300): its first two bytes are 0xFFFF; the others, which the spec leaves open, are free (log 185, DESIGN CHOICE). -/
def idleFlit (l n i : Nat) : Flit := { bytes := [0xFF, 0xFF] ++ leBytes 62 (Config.idleFlit l n i).toNat, last := none }

/-- A packet of this chip that still awaits its first hop's acknowledgement (R303). -/
def Packet.ownFirstHop (p : Packet) (chip : Nat) : Bool := p.src == chip && p.stage ≤ 1

/-- A packet that a chip sends for an item of a tenant (R427). -/
def Packet.forItem (p : Packet) : Bool := p.kind == .chunk || p.kind == .window || p.kind == .inboxWrite

/-- A packet of this chip, with its CRC. -/
def Packet.make (dst src : Nat) (vc : VC) (tenant flow : Nat) (kind : PktKind) (t14 t18 t1c : Nat) (aux : List Nat)
    (payload : List Byte) (poison : Bool) : Packet :=
  let p : Packet := { dst := dst % 2048, src := src % 2048, vc := vc, stage := 0, tenant := tenant % 64, pseq := 0,
                      flow := flow % 65536, crc := 0, kind := kind, t14 := BitVec.ofNat 32 t14, t18 := BitVec.ofNat 32 t18,
                      t1c := BitVec.ofNat 32 t1c, aux := aux, payload := payload, poison := poison }
  { p with crc := p.crcOf }

end Sys2Proof

namespace Sys2Proof.Machine

/-! ## Ports (R304-R306) -/

/-- This chip's identifier. -/
def State.chipId (s : State) : Nat := s.fld Fld.linkTopoChip 0

/-- The links that a port names, in ascending number. -/
def State.portLinks (s : State) (p : Nat) : List Nat :=
  (List.range 20).filter (fun l => bitOf (s.fld Fld.linkPortLinks p) l)

/-- A link is global: 15-19. -/
def globalLink (l : Nat) : Bool := 15 ≤ l

/-- The port is valid: 1 to 15 links, all local or all global, none named by another port (R304). -/
def State.portValid (s : State) (p : Nat) : Bool :=
  let ls := s.portLinks p
  ls.length != 0 && ls.length ≤ 15 && (ls.all globalLink || ls.all (fun l => !globalLink l)) &&
    ((List.range 20).all (fun q => q == p || (s.portLinks q).all (fun l => !ls.contains l)))

/-- The valid port to which a link belongs. -/
def State.portOf (s : State) (l : Nat) : Option Nat :=
  (List.range 20).find? (fun p => s.portValid p && (s.portLinks p).contains l)

/-- The state of a link: 0 DISABLED, 1 TRAINING, 2 UP, 3 RETRAIN, 4 DOWN (R313). -/
def State.linkState (s : State) (l : Nat) : Nat := s.fld Fld.linkStatState l

/-- The mask bit of a link (R311). -/
def State.linkMasked (s : State) (l : Nat) : Bool := bitOf (s.fld Fld.linkMaskEnable 0) l

/-- A link is eligible (R298). -/
def State.linkEligible (s : State) (l : Nat) : Bool := s.linkMasked l && (s.portOf l).isSome

/-- The up links of a port. -/
def State.portUp (s : State) (p : Nat) : List Nat := (s.portLinks p).filter (fun l => s.linkState l == 2)

/-- The port is unreachable: no link is up, retraining or in bring-up (R306). -/
def State.portUnreachable (s : State) (p : Nat) : Bool :=
  !s.portValid p || (s.portLinks p).all (fun l => let st := s.linkState l; !(st == 1 || st == 2 || st == 3))

/-- The link by which a packet leaves over a port: h mod n of the up links (R306); while none is up, the lowest-numbered
link in retraining or bring-up holds the packet (log 15, DESIGN CHOICE). -/
def State.portLink (s : State) (p : Nat) (k : Packet) : Option Nat :=
  match s.portUp p with
  | [] => (s.portLinks p).find? (fun l => s.linkState l == 1 || s.linkState l == 3)
  | ls => ls[(Nat.xor (Nat.xor k.src k.dst) k.flow) % ls.length]?

/-! ## Links -/

/-- A link. -/
def State.link (s : State) (l : Nat) : Link := Tab.get Link.empty s.links l

/-- A link replaced. -/
def State.setLink (s : State) (l : Nat) (k : Link) : State := { s with links := Tab.set Link.empty s.links l k }

/-- The packets whose last flit a list of flits holds. -/
def flitPackets (fs : List Flit) : List Packet := fs.filterMap (·.last)

/-- The packets that a link has begun to send and has not seen acknowledged (R295, R307). -/
def Link.unacked (k : Link) : List Packet := k.replay.flatMap (fun e => flitPackets e.2.flits) ++ flitPackets k.tx

/-- Packets of this chip's own and of lost links that have not passed their first hop here: queued, or not acknowledged. -/
def Link.onHop (k : Link) : List Packet := (k.queue.filter (fun e => 20 ≤ e.1)).map Prod.snd ++ k.unacked

/-- A packet buffer of link l has become free: the peer gets its credit back (R302). Only packets that came over a link held one. -/
def State.oweCredit (s : State) (l : Nat) (p : Packet) : State :=
  if l < 20 then s.setLink l { s.link l with owed := (s.link l).owed ++ [(p.vc, p.stage)] } else s

/-- MGMT packets queued for sending on a link. -/
def Link.mgmtQueued (k : Link) : Nat := (k.queue.filter (fun e => e.2.vc == .mgmt)).length

/-- The MGMT queue of a link is full (R301): at most 4. -/
def State.mgmtFull (s : State) (l : Nat) : Bool := 4 ≤ (s.link l).mgmtQueued

/-- A packet joins a link's queue from a source (20: local injection). -/
def State.enqueue (s : State) (l src : Nat) (p : Packet) : State :=
  let k := s.link l
  s.setLink l { k with queue := k.queue ++ [(src, p)] }

/-- Entry c of the routing table (R308). -/
def State.rtEntry (s : State) (c : Nat) : Nat := s.fld Fld.linkRtEntry c

/-- The port by which a packet leaves by the routing table: `PORT`, else `ALT`; none when neither lets it leave (R308). -/
def State.lookup (s : State) (p : Packet) : Option Nat :=
  let e := s.rtEntry p.dst
  let ok (q : Nat) : Bool := q < 20 && !s.portUnreachable q && p.stage < 5
  if bitOf e 5 && ok (bitsOf e 0 5) then some (bitsOf e 0 5)
  else if bitOf e 11 && ok (bitsOf e 6 5) then some (bitsOf e 6 5)
  else none

/-- A packet injected at this chip (R308): delivered here, or queued on a link of the named port or of the looked-up
port. The Bool says that it was unreachable at once (R310), and then nothing has changed. -/
def State.inject (s : State) (p : Packet) (port : Option Nat) : State × Bool :=
  if p.dst = s.chipId then ({ s with inbound := s.inbound ++ [(20, p)] }, false)
  else
    let q := match port with
      | some q => if s.portUnreachable q then none else some q
      | none => s.lookup p
    match q.bind (fun q => s.portLink q p) with
    | some l => (s.enqueue l 20 p, false)
    | none => (s, true)

/-- A packet sent when it can leave, and lost without a trace otherwise (a reply or notice that is dropped, R310). -/
def State.send (s : State) (p : Packet) : State := (s.inject p none).1

/-- A notice that is dropped counts (R310) (log 119, DEDUCED). -/
def State.sendNotice (s : State) (p : Packet) : State :=
  let r := s.inject p none
  if r.2 then s.bump Fld.linkRouteNoticeLost 0 1 else r.1

/-- The 64 payload bytes of a reply (R320). -/
def replyPayload (type reason chunk : Nat) : List Byte :=
  leBytes 1 type ++ leBytes 1 reason ++ leBytes 2 0 ++ leBytes 4 chunk ++ List.replicate 56 0

/-- The number of a packet kind in the fields of a notice or a reply (log 20, DESIGN CHOICE). -/
def PktKind.num : PktKind → Nat
  | .chunk => 0 | .window => 1 | .reply => 2 | .notice => 3 | .inboxWrite => 4 | .timing => 5 | .laneSwitch => 6 | .repairReq => 7 | .repairResp => 8

/-- A reply to a chunk or transfer: `TRAFFIC` and `FLOW` are copied (R320), and what the request says of its sender's transfer (log 20, DESIGN CHOICE). -/
def State.reply (s : State) (req : Packet) (type reason chunk : Nat) : State :=
  s.send (Packet.make req.src s.chipId .response req.tenant req.flow .reply req.t14.toNat req.t18.toNat req.t1c.toNat (PktKind.num req.kind :: req.aux.take 1)
    (replyPayload type reason chunk) false)

/-- A packet dropped in forwarding (R310): it counts, and its origin gets an unreachable notice with its first 32 bytes and its `FLOW`; a
notice sends none. -/
def State.dropForward (s : State) (p : Packet) : State :=
  let s := s.bump Fld.linkRouteNoroute 0 1
  if p.kind = .notice then s.bump Fld.linkRouteNoticeLost 0 1
  else s.sendNotice
    (Packet.make p.src s.chipId .response p.tenant p.flow .notice 0 0 0 (PktKind.num p.kind :: p.aux) p.wire false)

end Sys2Proof.Machine
end

