-- ==== Sys2Proof/Machine/Items.lean ====
section
/-! DEFINITION. Items, boards and the audit counts: the lookups and the small changes that every family shares. -/

namespace Sys2Proof.Machine

/-! ## Audit counts (R400) -/

/-- The key of a pool index. -/
def auditKey (pool idx : Nat) : Nat := 65536 * pool + idx

/-- `ISSUED` of a pool index rises by `n`. -/
def State.issue (s : State) (pool idx n : Nat) : State :=
  { s with audit := Tab.modify (0, 0, 0) s.audit (auditKey pool idx) (fun c => (c.1 + n, c.2.1, c.2.2 + n)) }

/-- `RETURNED` of a pool index rises by `n`. -/
def State.give (s : State) (pool idx n : Nat) : State :=
  { s with audit := Tab.modify (0, 0, 0) s.audit (auditKey pool idx) (fun c => (c.1, c.2.1 + n, c.2.2 - n)) }

/-- The counts of an index start again (a pool opened, a board loaded, a slot generation installed). -/
def State.auditFresh (s : State) (pool idx : Nat) : State :=
  { s with audit := Tab.set (0, 0, 0) s.audit (auditKey pool idx) (0, 0, 0) }

/-! ## Status codes (R377), notes (R375), causes (R89) -/

def stPoison : Nat := 0x01
def stReplayed : Nat := 0x02
def stDisabled : Nat := 0x10
def stFenced : Nat := 0x11
def stStaleWindow : Nat := 0x20
def stOverrun : Nat := 0x30
def stUnderrun : Nat := 0x31
def stTableRetired : Nat := 0x32
def stUnreachable : Nat := 0x40
def stCollFailed : Nat := 0x41
def stPreempted : Nat := 0x50
def stRejected : Nat := 0x60

def causeFormat : Nat := 0x01
def causeCrc : Nat := 0x02
def causeLayout : Nat := 0x03
def causeReserved : Nat := 0x04
def causeFootprint : Nat := 0x05
def causeTileLimit : Nat := 0x06
def causeStream : Nat := 0x07
def causeRegion : Nat := 0x08
def causeAddress : Nat := 0x09
def causeCredit : Nat := 0x0A
def causeLink : Nat := 0x0B
def causeMembers : Nat := 0x0C
def causeTable : Nat := 0x0D
def causeHandle : Nat := 0x0E
def causeRetired : Nat := 0x0F
def causeVariant : Nat := 0x10
def causeTilesInService : Nat := 0x11
def causeGrantChanged : Nat := 0x12
def causeParamHeader : Nat := 0x13
def causeParamBound : Nat := 0x14
def causeLaunchCount : Nat := 0x15
def causeRuntimeBound : Nat := 0x20

def noteTdcc : Nat := 0
def noteFresh : Nat := 1
def noteLate : Nat := 2
def noteStrand : Nat := 3
def noteRefused : Nat := 4

/-! ## Items -/

/-- An item by its number. -/
def State.item (s : State) (id : Nat) : Option Item := s.items.find? (fun i => i.id == id)

/-- An item changed. -/
def State.modItem (s : State) (id : Nat) (f : Item → Item) : State :=
  { s with items := s.items.map (fun i => if i.id = id then f i else i) }

/-- The context to which an item's events are charged (R427). -/
def State.contextOf (s : State) (id : Option Nat) : Nat :=
  match id.bind s.item with
  | some i => i.fn
  | none => baseContext

/-- A status applies to an item (R378, R379). -/
def Item.addStatus (i : Item) (st : Nat) : Item :=
  if i.statuses.contains st then i else { i with statuses := i.statuses ++ [st] }

/-- A status applies to an item. -/
def State.addStatus (s : State) (id st : Nat) : State := s.modItem id (fun i => i.addStatus st)

/-- A bit of `NOTES` is set. -/
def Item.addNote (i : Item) (b : Nat) : Item :=
  if bitOf i.notes b then i else { i with notes := i.notes + 2 ^ b }

/-- A bit of `NOTES` is set. -/
def State.addNote (s : State) (id b : Nat) : State := s.modItem id (fun i => i.addNote b)

/-- The item consumed poison when `m` holds (R395). -/
def State.consumed (s : State) (id : Nat) (m : Bool) : State := if m then s.addStatus id stPoison else s

/-- An item changed and moved behind every other item: `items` lists items past event 3 in the order of event 3, and ended items in the
order in which they ended. -/
def State.requeue (s : State) (id : Nat) (f : Item → Item) : State :=
  { s with items := s.items.filter (fun i => i.id != id) ++ (s.items.filter (fun i => i.id == id)).map f }

/-- The item ends: every result it will have is visible (R29, R372). -/
def State.endItem (s : State) (id : Nat) : State :=
  match s.item id with
  | none => s
  | some i => if i.phase = .done then s else s.requeue id (fun i => { i with phase := .done })

/-- An item's phase set. -/
def State.setPhase (s : State) (id : Nat) (p : Phase) : State := s.modItem id (fun i => { i with phase := p })

/-- The item ends with `BOARD_REJECTED` and a cause; it runs nothing (R90, R366). -/
def State.reject (s : State) (id cause : Nat) : State :=
  (s.modItem id (fun i => { (i.addStatus stRejected) with cause := cause })).endItem id

/-- A run-time bound was broken (R84): `RUNBOUND` counts, and the item carries cause `RUNTIME_BOUND` (R89). -/
def State.runBound (s : State) (tenant id : Nat) : State :=
  (s.bump Fld.boardFaultRunbound tenant 1).modItem id (fun i => { (i.addStatus stRejected) with cause := causeRuntimeBound })

/-! ## Boards -/

/-- The key of a board handle. -/
def boardKey (tenant handle : Nat) : Nat := 256 * tenant + handle

/-- The board of a handle; none when it is empty. -/
def State.board (s : State) (tenant handle : Nat) : Option Board := Tab.get none s.boards (boardKey tenant handle)

/-- The handle's board replaced. -/
def State.setBoard (s : State) (tenant handle : Nat) (b : Option Board) : State :=
  { s with boards := Tab.set none s.boards (boardKey tenant handle) b }

/-- A board changed. -/
def State.modBoard (s : State) (tenant handle : Nat) (f : Board → Board) : State :=
  s.setBoard tenant handle ((s.board tenant handle).map f)

/-- The logical tile that runs board tile `b` of a board (R66). -/
def Board.logical (b : Board) (bt : Nat) : Nat :=
  16 * (b.originRow + bt / b.footCols) + b.originCol + bt % b.footCols

/-- The logical tiles of a board's footprint. -/
def Board.tiles (b : Board) : List Nat := (List.range (b.footRows * b.footCols)).map b.logical

/-- The board of a launch. -/
def State.launchBoard (s : State) (i : Item) : Option Board :=
  i.launch.bind (fun l => s.board i.fn l.handle)

/-- The variant of a launch. -/
def State.launchVariant (s : State) (i : Item) : Option Variant :=
  match i.launch, s.launchBoard i with
  | some l, some b => b.variants[l.variant]?
  | _, _ => none

/-- Parameter word `w` of a launch (R62, R77): the words as read at event 3. -/
def Item.word (i : Item) (w : Nat) : Nat :=
  match i.launch with
  | none => 0
  | some l => (l.words.getD w 0).toNat

/-! ## Logical and physical tiles (R8) -/

/-- The physical tile that serves a logical tile: `IN_SERVICE` and bound to it. -/
def State.physOf (s : State) (t : Nat) : Option Nat :=
  (List.range 272).find? (fun p => s.fld Fld.tilePhysState p == 0 && s.fld Fld.tilePhysLogical p == t)

/-- The island of a physical tile: its physical column (R37). -/
def islandOf (p : Nat) : Nat := p % 16

/-- Activity events of a physical tile, charged to the context whose launch occupies it (R427). -/
def State.tileEvent (s : State) (p class_ n : Nat) : State :=
  s.event (match (s.tile p).part with
    | some q => q.tenant
    | none => baseContext) class_ (islandOf p) n

/-- The static energy of a tile that a launch has occupied since the last rescale (R427). -/
def State.staticEvent (s : State) (p : Nat) : State :=
  match (s.tile p).part with
  | some q => s.event q.tenant evStatic (islandOf p) (s.tally - max q.since s.power.rescaledAt)
  | none => s

/-- The tile can act: it is not halted by the probe, its region is not held by the under-voltage guard, and no carry of
its logical tile is in progress (R387, R415, R454). -/
def State.tileLive (s : State) (t p : Nat) : Bool :=
  !(s.tile p).halted && !s.flag Fld.pwrRegionUv (islandOf p) && !s.carries.any (fun c => c.logical == t)

/-- A command about a logical tile: the unit must exist; without a serving physical tile, or while the tile cannot act,
nothing changes (R23). -/
def onTile (t : Nat) (s : State) (k : Nat → Tile → Out State) : Out State :=
  onUnit (t < 256) "tile" <|
  match s.physOf t with
  | none => .next s
  | some p => if s.tileLive t p then k p (s.tile p) else .next s

/-! ## Ending parts -/

/-- A tile at the end of its part (R101, R188, R194, R211): sync counts, bangles and locket contents are discarded, the
sequencer is empty. -/
def Tile.endPart (t : Tile) : Tile :=
  { t with part := none, stream := [], pos := 0, loops := [], released := false, held := false, ended := false, ops := [], dma := [], dmaRest := [],
           syncCount := [], locket := [], bangles := [] }

/-- The units of every sync count of a tile. -/
def Tile.syncHeld (t : Tile) : Nat := t.syncCount.foldl (fun a e => a + e.2) 0

/-- The DMA entries of a tile that are handed out and not finished (R100). -/
def Tile.dmaInFlight (t : Tile) : Nat := t.dma.foldl (fun a e => a + e.2.entries.length) 0

/-- Operations in flight (R100). -/
def Tile.inFlight (t : Tile) : Nat := t.ops.length + t.dmaInFlight

/-- The part of logical tile `t` on its physical tile ends: discarded signals, bytes of bangles and abandoned operations count as
returned (R188, R400). -/
def State.endPart (s : State) (t p : Nat) : State :=
  let tl := s.tile p
  let s := ((s.staticEvent p).give 8 t tl.syncHeld).give 10 t tl.inFlight
  let s := tl.bangles.foldl (fun s e => match e.2 with
    | some b => s.give 9 (16 * t + e.1) b.fill
    | none => s) s
  s.setTile p tl.endPart

/-- The logical tiles on which an item's launch has a part. -/
def State.partTiles (s : State) (id : Nat) : List Nat :=
  (List.range 256).filter (fun t => match s.physOf t with
    | some p => ((s.tile p).part.map (·.item)) == some id
    | none => false)

/-- Every tile of a launch stops, abandons its outstanding operations and DMA entries, and ends its part (R328, R380). -/
def State.endAllParts (s : State) (id : Nat) : State :=
  (s.partTiles id).foldl (fun s t => match s.physOf t with
    | some p => s.endPart t p
    | none => s) s

/-- An `ABORT` for a launch key to each other member of the binding (R328). The header's remaining TRAFFIC is zero (log 123, DEDUCED). -/
def State.sendAborts (s : State) (tenant : Nat) (b : Board) (cseq reason : Nat) : State :=
  (b.chips.filter (· != s.chipId)).foldl (fun s c =>
    s.send (Packet.make c s.chipId .response tenant 0 .reply b.boardId cseq 0 [] (replyPayload 5 reason 0) false)) s

/-- The launch key (`TAG`, `CSEQ`) of a launch (R316, R317). -/
def Launch.key (l : Launch) : Nat × Nat := (l.boardId % 2 ^ 32, l.collSeq % 2 ^ 24)

/-- A launch part on this chip ends early (R328, R380): its tiles stop and abandon their work, one `ABORT` goes to each other member, and the record
carries the status. -/
def State.stopPart (s : State) (id status : Nat) : State :=
  match s.item id with
  | none => s
  | some i =>
    match i.launch, s.launchBoard i with
    | some l, some b =>
      if i.phase = .done then s.addStatus id status
      else
        let s := s.endAllParts id
        let s := { s with transfers := s.transfers.filter (fun x => x.item != id),
                          landings := s.landings.filter (fun x => x.item != id) }
        ((s.sendAborts i.fn b l.key.2 status).addStatus id status).endItem id
    | _, _ => s

/-- The launch key of a failed part is kept (R328), among the last 64. -/
def State.keepKey (s : State) (i : Item) (l : Launch) (status : Nat) : State :=
  let key : AbortedKey := ⟨l.key.1, l.key.2, status, s.tally, i.abortChip⟩
  { s with abortedKeys := (s.abortedKeys ++ [key]).drop (s.abortedKeys.length + 1 - 64) }

/-- The launch part of an item on this chip fails (R327, R328). -/
def State.failPart (s : State) (id status : Nat) : State :=
  match s.item id with
  | none => s
  | some i =>
    match i.launch, s.launchBoard i with
    | some l, some _ =>
      if i.phase = .done then s.addStatus id status
      else
        let s := s.keepKey i l status
        let s := if status = stUnreachable || status = stCollFailed then s.bump Fld.collStatAborts i.fn 1 else s
        s.stopPart id status
    | _, _ => s

end Sys2Proof.Machine
end

