-- ==== Sys2Proof/Machine/Points.lean ====
section
/-! DEFINITION. The set-points of the core regions (R413, R417, R421, R423) and the wake from P1 and P2 (R425). -/

namespace Sys2Proof.Machine

/-- `VSET` as it is applied: 640 to 850 mV (R413), on the 5 mV steps of the regulators, rounded down (R412) (log 183, DESIGN CHOICE). -/
def State.vset (s : State) : Nat := min 850 (max 640 (s.fld Fld.pwrCfgVset 0)) / 5 * 5

/-- The thermal set-point of a region (R417). -/
def State.thermalPoint (s : State) (r : Nat) : Nat := Tab.get 720 s.power.thermal r

/-- The P0 set-point of a region (R413) (log 141, DEDUCED). -/
def State.p0Point (s : State) (r : Nat) : Nat := max 550 (min s.vset (min s.power.ceiling (s.thermalPoint r)))

/-- The set-point of a region in the state the device is in (R413, R423, R425): P0, or P1 at 0.64 V or lower under a clamp, or P2 at 0.52 V; a wake ramps to
the P0 set-point. In P3 the regions are off and the field keeps its value (log 140, DEDUCED). -/
def State.pointOf (s : State) (r : Nat) : Nat :=
  let p0 := s.p0Point r
  if s.flag Fld.pwrStatWaking 0 then p0
  else match s.fld Fld.pwrStatState 0 with
    | 0 => p0
    | 1 => min 640 p0
    | 2 => 520
    | _ => s.fld Fld.pwrRegionSetpoint r

/-- The set-point of a region and the clamp that sets it (R413). -/
def State.applyPoint (s : State) (r : Nat) : State :=
  let th := s.thermalPoint r
  let ce := s.power.ceiling
  let clamped := min th ce < s.vset
  ((s.setFld Fld.pwrRegionSetpoint r (s.pointOf r)).setFlag Fld.pwrRegionTherm r (clamped && th ≤ ce)).setFlag Fld.pwrRegionPower r (clamped && ce ≤ th)

/-- The set-points of all 16 regions. -/
def State.applyPoints (s : State) : State := (List.range 16).foldl State.applyPoint s

/-- The device is busy (R424, R460): an item is in flight, a migration, a poison fill or a carry is in progress, the repair queue is not empty, or the
probe holds a tile or the MGC. -/
def State.busy (s : State) : Bool :=
  !s.items.isEmpty || s.chans.migrations.any (fun e => e.2.isSome) || s.chans.fills.any (fun e => e.2.isSome) || !s.repairs.isEmpty ||
    !s.carries.isEmpty || s.tiles.any (fun e => e.2.halted) || s.sec.mgcHalted

/-- The device has just been busy: the idle times of R424 start again. -/
def State.stir (s : State) : State :=
  { s with power := { s.power with idleFrom := none, p1From := s.power.p1From.map (fun _ => s.tally) } }

/-- What a count of the Tally finds (R424) (log 142, DEDUCED). -/
def State.idleTick (s : State) : State :=
  if s.busy then s.stir
  else match s.power.idleFrom with
    | some _ => s
    | none => { s with power := { s.power with idleFrom := some s.tally } }

/-- The device is in P0 (R423). -/
def State.inP0 (s : State) : Bool := s.fld Fld.pwrStatState 0 == 0

/-- A wake starts (R425, event 1): the device is in P1 or P2, and none is in progress. -/
def State.startWake (s : State) : State :=
  let st := s.fld Fld.pwrStatState 0
  if (st = 1 || st = 2) && !s.flag Fld.pwrStatWaking 0 then (s.setFlag Fld.pwrStatWaking 0 true).applyPoints else s

/-- Traffic that waits in a queue of its own wakes the device first, and is taken in P0 (R425). -/
def onAwake (s : State) (k : State → State) : Out State := .next (if s.inP0 then k s else s.startWake)

/-- An access that comes in P1 or P2 waits for the wake that it starts (R425); in P3 nothing is there to take it. -/
def State.await (s : State) (c : Instr) : State :=
  if s.fld Fld.pwrStatState 0 = 1 ∨ s.fld Fld.pwrStatState 0 = 2 then { s.startWake with waiting := s.waiting ++ [c] } else s

/-- An access that P1 and P2 do not serve: `c` is the command itself, which is served once the device is in P0 (R425) (log 19, DEDUCED) (log 31, DESIGN CHOICE). -/
def onAccess (c : Instr) (s : State) (k : State → State) : Out State := .next (if s.inP0 then k s else s.await c)

end Sys2Proof.Machine
end

