-- ==== Sys2Proof/Machine/Memory.lean ====
section
/-! DEFINITION. The memory system (chapter 10): the address interleave, codeword accesses and the array code's outcomes,
scrub, migration, poison fill, and the failure of a channel. Data of every request passes through `readCw` and `writeCw`. -/

namespace Sys2Proof.Machine

/-! ## The array code (R248) -/

/-- Multiplication by x in GF(2^16) with the polynomial x^16 + x^12 + x^3 + x + 1. -/
def gfTimesX (a : BitVec 16) : BitVec 16 := if a.msb then (a <<< 1) ^^^ 0x100B else a <<< 1

/-- Multiplication in GF(2^16): one step for each bit of the second factor, low bit first. -/
def gfMulGo : Nat → BitVec 16 → BitVec 16 → BitVec 16
  | 0, _, _ => 0
  | n + 1, a, b => (if b.getLsbD 0 then a else 0) ^^^ gfMulGo n (gfTimesX a) (b >>> 1)

/-- The product of two symbols. -/
def gfMul (a b : BitVec 16) : BitVec 16 := gfMulGo 16 a b

/-- α^3, the constant term of g(x) = (x + 1)(x + α)(x + α²) = x³ + g2 x² + g1 x + α³. -/
def gfAlpha3 : BitVec 16 := 8
/-- The inverse of α^3: α^3 times it is 1. -/
def gfAlpha3Inv : BitVec 16 := 0xEE06
/-- g1 = α + α² + α³. -/
def gfG1 : BitVec 16 := 14
/-- g2 = 1 + α + α². -/
def gfG2 : BitVec 16 := 7

/-- One symbol into the running check: the polynomial r0 + r1 x + r2 x², with the symbol added to r0, divided by x modulo
g(x). -/
def checkStep (r : BitVec 16 × BitVec 16 × BitVec 16) (sym : BitVec 16) : BitVec 16 × BitVec 16 × BitVec 16 :=
  let q := gfMul (r.1 ^^^ sym) gfAlpha3Inv
  (r.2.1 ^^^ gfMul q gfG1, r.2.2 ^^^ gfMul q gfG2, q)

/-- The check symbols 33-35 of symbols 0-32 (R248). -/
def checkSymbols (syms : List (BitVec 16)) : BitVec 16 × BitVec 16 × BitVec 16 := syms.foldl checkStep (0, 0, 0)

/-- Data symbol i: bit b is the bit on line i in beat b, which is bit i mod 8 of data byte 4 b + i div 8 (R248). -/
def dataSymbol (bytes : List Byte) (i : Nat) : BitVec 16 :=
  (List.range 16).foldl (fun a b => if (bytes.getD (4 * b + i / 8) 0).getLsbD (i % 8) then a ||| (1#16 <<< b) else a) 0

/-- The 36 symbols of a codeword (R248). -/
def codewordSymbols (bytes : List Byte) (poison : Bool) : List (BitVec 16) :=
  let d := (List.range 32).map (dataSymbol bytes) ++ [if poison then 1 else 0]
  let c := checkSymbols d
  d ++ [c.1, c.2.1, c.2.2]

/-- The value of Σ symbol_i x^i at a point, by Horner's rule from the last symbol. -/
def symbolsAt (x : BitVec 16) (syms : List (BitVec 16)) : BitVec 16 := syms.foldr (fun s a => s ^^^ gfMul x a) 0

/-! ## The address interleave (R250, R251) -/

/-- Codewords of a channel: 3 GiB of 64 bytes. -/
def chanCodewords : Nat := 50331648

/-- Bytes of a channel. -/
def chanBytes : Nat := 0xC000_0000

/-- `MEM_TOP`. -/
def State.memTop (s : State) : Nat := s.fld Fld.memTopAddr 0

/-- The backed logical channels in ascending order (Λ). -/
def State.lambda (s : State) : List Nat := (List.range 256).filter (fun n => s.flag Fld.memChmapBacked n)

/-- Logical channel j of Λ; with K = 256 it is j itself. -/
def State.lambdaAt (s : State) (j : Nat) : Nat :=
  if s.fld Fld.memTopChannels 0 = 256 then j else s.lambda.getD j 0

/-- The logical channel and the byte offset in it of an address below `MEM_TOP` (R251). -/
def State.mapAddr (s : State) (a : Nat) : Nat × Nat :=
  let k := s.fld Fld.memTopChannels 0
  let g := a / 256
  (s.lambdaAt (g % k), 256 * (g / k) + a % 256)

/-- The address of a byte offset of a backed logical channel (the inverse of R251). -/
def State.unmapAddr (s : State) (lchan off : Nat) : Nat :=
  let k := s.fld Fld.memTopChannels 0
  let j := if k = 256 then lchan else s.lambda.findIdx (· == lchan)
  256 * (off / 256 * k + j) + off % 256

/-- The physical channel bound to a logical channel's slot (0-271); none when the slot is unbound. -/
def State.boundChan (s : State) (lchan : Nat) : Option Nat :=
  let c := s.fld Fld.memChmapChannel lchan
  if c = 0x3F then none else some (34 * (lchan % 8) + c)

/-- The logical channel to whose slot a physical channel is bound. -/
def State.slotOf (s : State) (c : Nat) : Option Nat :=
  ((List.range 32).map (fun i => 8 * i + c / 34)).find? (fun n => s.fld Fld.memChmapChannel n == c % 34)

/-- The fill of a logical channel's slot: the spare and the pointer F (R262). -/
def State.fillOf (s : State) (lchan : Nat) : Option (Nat × Nat) := Tab.get none s.chans.fills lchan

/-- The migration of a stack: logical channel, spare (physical), pointer P (R261). -/
def State.migrationOf (s : State) (stack : Nat) : Option (Nat × Nat × Nat) := Tab.get none s.chans.migrations stack

/-- The lowest-numbered `SPARE_IDLE` channel of a stack (R260, R262). -/
def State.idleSpare (s : State) (stack : Nat) : Option Nat :=
  ((List.range 34).map (fun i => 34 * stack + i)).find? (fun c => s.fld Fld.memChstatState c == 1)

/-! ## Repair queue (R397) -/

/-- An enabled entry of KIND 0 or 1 covers the address. -/
def State.repairCovered (s : State) (a i : Nat) : Bool :=
  s.flag Fld.repairSrcEnable i && s.fld Fld.repairSrcKind i < 2 &&
    within a 1 (s.fld Fld.repairSrcBase i) (s.fld Fld.repairSrcSize i)

/-- A read delivered poisoned data from address `a`: its granule is queued once, or counts as dropped. -/
def State.queueRepair (s : State) (a : Nat) : State :=
  let g := a / 4096 * 4096
  if !(List.range 16).any (s.repairCovered a) || s.repairs.any (fun r => r.granule == g) then s
  else if s.repairs.length < 64 then { s with repairs := s.repairs ++ [⟨g, 0, none, s.tally, [], []⟩] }
  else s.bump Fld.repairStatDropped 0 1

/-! ## Codewords of the array -/

/-- The stored data of a codeword of a physical channel. -/
def State.arrayData (s : State) (c cw : Nat) : List Byte := Mem.readRange s.mem (chanBytes * c + 64 * cw) 64

/-- The POISON bit of a codeword. -/
def State.arrayPoison (s : State) (c cw : Nat) : Bool := Tab.get false s.memPoison (chanCodewords * c + cw)

/-- Damage with further damage, each symbol once: faults that damage the same symbol are one symbol in error (R249). -/
def Damage.and (old d : Damage) : Damage := old.filter (fun e => !d.any (fun x => x.1 == e.1)) ++ d

/-- The symbols in error that a read of a codeword finds: those that its cells hold, and those that a cause that persists damages again (R249). -/
def State.cellDamage (s : State) (c cw : Nat) : Damage :=
  let k := chanCodewords * c + cw
  Damage.and (Damage.and (Tab.get [] s.memDamage k) (Tab.get [] s.chans.stuckCells k)) (Tab.get [] s.chans.failedPins c)

/-- The cells of a codeword are damaged further; a cause that persists stays with the codeword or with the channel. -/
def State.damageCells (s : State) (c cw : Nat) (x : Strike) : State :=
  let k := chanCodewords * c + cw
  let more (old : Damage) : Damage := Damage.and old x.symbols
  match x.cause with
  | .once => { s with memDamage := Tab.modify [] s.memDamage k more }
  | .cell => { s with chans := { s.chans with stuckCells := Tab.modify [] s.chans.stuckCells k more } }
  | .pin => { s with chans := { s.chans with failedPins := Tab.modify [] s.chans.failedPins c more } }

/-- A codeword of a physical channel stored: a write clears what its cells held, an error among it (R249). -/
def State.putArray (s : State) (c cw : Nat) (bytes : List Byte) (poison : Bool) : State :=
  { s with mem := Mem.writeRange s.mem (chanBytes * c + 64 * cw) bytes,
           memPoison := Tab.set false s.memPoison (chanCodewords * c + cw) poison,
           memDamage := Tab.set [] s.memDamage (chanCodewords * c + cw) [] }

/-- 64 zero bytes. -/
def zeros64 : List Byte := List.replicate 64 0

/-- Bytes laid over a codeword from byte offset `o`. -/
def overlay (old : List Byte) (o : Nat) (new : List Byte) : List Byte :=
  old.take o ++ new ++ old.drop (o + new.length)

/-- How the slot of a logical channel answers a codeword: it is fenced, the codeword is not yet filled, or the array of
a physical channel holds it (R262, R263). -/
inductive SlotView where
  | fenced
  | unfilled
  | array (c : Nat)
  deriving DecidableEq, Repr

/-- The view of a codeword of a logical channel. -/
def State.slotView (s : State) (lchan cw : Nat) : SlotView :=
  match s.boundChan lchan with
  | none => .fenced
  | some c =>
    if s.flag Fld.memChmapFenced lchan then .fenced
    else match s.fillOf lchan with
      | some (_, f) => if f ≤ cw then .unfilled else .array c
      | none => .array c

/-- The controller block of a stack is held: the under-voltage guard holds island 0, which holds those of stacks 0 to 3, or island 15, which holds those of
stacks 4 to 7 (R37, R415). -/
def State.stackHeld (s : State) (stack : Nat) : Bool := s.flag Fld.pwrRegionUv (if stack < 4 then 0 else 15)

/-- A write to a codeword of a logical channel waits: for a poison fill to pass it (R262), or for its controller block (R415). -/
def State.blocked (s : State) (lchan cw : Nat) : Bool := s.slotView lchan cw == .unfilled || s.stackHeld (lchan % 8)

/-! ## Burst slots (R255, R427) -/

/-- The codeword accesses of a request: (codeword address, offset in it, length) (log 95, DEDUCED). -/
def cwSplit (a n : Nat) : List (Nat × Nat × Nat) :=
  if n = 0 then [] else
  (List.range ((a + n - 1) / 64 - a / 64 + 1)).map (fun i =>
    let c := 64 * (a / 64 + i)
    let lo := max a c
    (c, lo - c, min (a + n) (c + 64) - lo))

/-- The burst slots of one access: a read that finds an error writes back, and a write of fewer than 64 bytes reads first; a write is made on the target of a
migration as well (R261). An address at or above `MEM_TOP`, a fenced slot and a read that a fill has not passed use none. -/
def State.slotsOf (s : State) (write : Bool) (p : Nat × Nat × Nat) : Nat :=
  if s.memTop ≤ p.1 then 0
  else
    let (lchan, off) := s.mapAddr p.1
    match s.slotView lchan (off / 64) with
    | .fenced => 0
    | .unfilled => if write then (if p.2.2 = 64 then 1 else 2) else 0
    | .array c =>
      if write then
        (if p.2.2 = 64 then 1 else 2) * (match s.migrationOf (lchan % 8) with
          | some (l, _, _) => if l = lchan then 2 else 1
          | none => 1)
      else if (s.cellDamage c (off / 64)).isEmpty then 1 else 2

/-- The burst slots of a request that reads or writes, charged to a context. -/
def State.slots (s : State) (write : Bool) (ctx a n : Nat) : State :=
  s.event ctx evBurst noRegion (((cwSplit a n).map (s.slotsOf write)).foldl (· + ·) 0)

/-- Burst slots of a read for a context. -/
def State.bursts (s : State) (ctx a n : Nat) : State := s.slots false ctx a n

/-- Burst slots of a write for a context. -/
def State.storeBursts (s : State) (ctx a n : Nat) : State := s.slots true ctx a n

/-! ## Errors and failure -/

/-- The slot of a logical channel is fenced: every write that waits for it is discarded (R263). -/
def State.dropLate (s : State) (l : Nat) : State :=
  let v : State := { s with chans := { s.chans with late := s.chans.late.filter (fun w => w.lchan != l) } }
  v.bump Fld.memErrDropped 0 (s.chans.late.filter (fun w => w.lchan == l)).length

/-- The poison fill of a logical channel set, or ended. -/
def State.setFill (s : State) (l : Nat) (f : Option (Nat × Nat)) : State :=
  { s with chans := { s.chans with fills := Tab.set none s.chans.fills l f } }

/-- A channel leaves service once more (R406). -/
def State.departs (s : State) (c : Nat) : State :=
  { s with chans := { s.chans with departures := Tab.modify 0 s.chans.departures c (· + 1) } }

/-- The channels that patrol scrub visits: every bound channel that is not fenced and every idle spare (R258). -/
def State.scrubs (s : State) (c : Nat) : Bool :=
  match s.slotOf c with
  | some l => !s.flag Fld.memChmapFenced l
  | none => s.fld Fld.memChstatState c == 1

/-- A pass over all channels ends once every channel that scrub visits has been read to its end (R258). -/
def State.passEnd (s : State) : State :=
  if !s.chans.scrubDone.isEmpty && (List.range 272).all (fun c => !s.scrubs c || s.chans.scrubDone.contains c) then
    ({ s with chans := { s.chans with scrubDone := [] } }).bump Fld.memScrubPasses 0 1
  else s

/-- The poison fill of a slot has reached the last codeword (R262): the spare is a bound channel. -/
def State.fillDone (s : State) (lchan sp : Nat) : State :=
  ((s.setFill lchan none).setFld Fld.memChstatState sp 0).journal recChannel [sp, 0, lchan / 8]

/-- No migration runs in a stack. -/
def State.endMigration (s : State) (stack : Nat) : State :=
  { s with chans := { s.chans with migrations := Tab.set none s.chans.migrations stack none } }

/-- The slot of a channel that has failed: the stack's next idle spare is bound for a poison fill, or the slot is fenced (R262, R263). -/
def State.failBound (s : State) (c : Nat) : State :=
  match s.slotOf c with
  | none => s.journal recChannel [c, 4, 0x3F]
  | some l =>
    match s.idleSpare (c / 34) with
    | some sp =>
      (((s.setFld Fld.memChstatState sp 2).setFld Fld.memChmapChannel l (sp % 34)).setFill l (some (sp, 0))).journal recChannel [c, 4, 0x3F]
    | none =>
      ((((s.setFlag Fld.memChmapFenced l true).setFlag Fld.memTopMapoutDue 0 true).setFill l none).dropLate l).journal recChannel [c, 4, l / 8]

/-- A channel fails hard and is fenced (R262, R263). A migration's target stops the migration, and the old channel keeps serving; the old channel of a
migration hands its slot to the target, whose fill starts at P. -/
def State.failHard (s : State) (c : Nat) : State :=
  let s := (if (s.slotOf c).isSome then s.departs c else s).setFld Fld.memChstatState c 4
  (match s.migrationOf (c / 34) with
  | some (l, sp, p) =>
    if sp = c then (s.endMigration (c / 34)).journal recChannel [c, 4, 0x3F]
    else if s.slotOf c = some l then
      let s := (s.endMigration (c / 34)).setFld Fld.memChmapChannel l (sp % 34)
      if p < chanCodewords then (s.setFill l (some (sp, p))).journal recChannel [c, 4, 0x3F]
      else (s.journal recChannel [c, 4, 0x3F]).fillDone l sp
    else s.failBound c
  | none => s.failBound c).passEnd

/-- The channel fails hard when its `UE_WIN` has reached 16 (R262); once it has failed it fails no more. -/
def State.checkUeWin (s : State) (c : Nat) : State :=
  let st := s.fld Fld.memChstatState c
  if (st = 0 || st = 2) && 16 ≤ s.fld Fld.memChstatUeWin c then s.failHard c else s

/-- A corrected symbol counts (R249). -/
def State.countCe (s : State) (c : Nat) : State := (s.bump Fld.memChstatCe c 1).bump Fld.memChstatCeWin c 1

/-- An uncorrectable codeword counts and is rewritten as zeros with POISON = 1 (R249) (log 108, DEDUCED). -/
def State.countUe (s : State) (c cw : Nat) : State :=
  ((s.bump Fld.memChstatUe c 1).bump Fld.memChstatUeWin c 1).putArray c cw zeros64 true

/-- The decoding of a codeword of the array (R249): the symbols in error that its cells hold decide, and the write-back clears them. Three or more: detected or
miscorrected, a free value (log 5, DEDUCED). -/
def State.decodeCw (s : State) (c cw : Nat) : State :=
  match (s.cellDamage c cw).length with
  | 0 => s
  | 1 => (s.countCe c).putArray c cw (s.arrayData c cw) (s.arrayPoison c cw)
  | 2 => s.countUe c cw
  | _ + 3 =>
    let s' := { s with draws := s.draws + 1 }
    match Config.miscorrect s.draws with
    | none => s'.countUe c cw
    | some (bytes, p) => (s'.countCe c).putArray c cw ((bytes ++ zeros64).take 64) p

/-! ## Codeword accesses -/

/-- A codeword access that delivered poisoned data (R249, R397). -/
def State.poisonDelivered (s : State) (a : Nat) : State := (s.bump Fld.memErrPoisonRead 0 1).queueRepair a

/-- A codeword access that reads: the 64 bytes, whether they are marked, the counters (R249, R252, R262, R263). The count that makes the channel fail hard
takes effect after this read. -/
def State.readCw (s : State) (a : Nat) : List Byte × Bool × State :=
  if s.memTop ≤ a then (zeros64, false, s.bump Fld.memErrBeyond 0 1)
  else
    let (lchan, off) := s.mapAddr a
    match s.slotView lchan (off / 64) with
    | .fenced | .unfilled => (zeros64, true, s.poisonDelivered a)
    | .array c =>
      let v := s.decodeCw c (off / 64)
      let m := v.arrayPoison c (off / 64)
      (v.arrayData c (off / 64), m, (if m then v.poisonDelivered a else v).checkUeWin c)

/-- The channel that a running migration of `lchan` writes as well (R261). -/
def State.mirrorOf (s : State) (lchan : Nat) : Option Nat :=
  match s.migrationOf (lchan % 8) with
  | some (l, sp, _) => if l = lchan then some sp else none
  | none => none

/-- What a write does to a codeword that holds `old` and `poison`: a full write stores POISON = 0, a part write merges and
keeps it, a poison write stores zeros and POISON = 1 (R249, R392). -/
def mergeCw (old : List Byte) (poison : Bool) (o : Nat) (bytes : List Byte) (mark : Bool) : List Byte × Bool :=
  if mark then (zeros64, true)
  else if bytes.length = 64 then (bytes, false)
  else (overlay old o bytes, poison)

/-- The write on one physical channel: one of fewer than 64 bytes reads and corrects first (R249, R256). -/
def State.writeOn (s : State) (c cw o : Nat) (bytes : List Byte) (mark : Bool) : State :=
  let v := if mark || bytes.length = 64 then s else s.decodeCw c cw
  let r := mergeCw (v.arrayData c cw) (v.arrayPoison c cw) o bytes mark
  (v.putArray c cw r.1 r.2).checkUeWin c

/-- A write to a codeword of a bound channel, and of the spare to which it migrates (R261). -/
def State.writeBoth (s : State) (lchan c cw o : Nat) (bytes : List Byte) (mark : Bool) : State :=
  match s.mirrorOf lchan with
  | none => s.writeOn c cw o bytes mark
  | some sp => (s.writeOn c cw o bytes mark).writeOn sp cw o bytes mark

/-- A write joins those that wait. -/
def State.writeLater (s : State) (w : LateWrite) : State := { s with chans := { s.chans with late := s.chans.late ++ [w] } }

/-- A codeword access that writes bytes from offset `o` of the codeword at `a` (64-byte aligned). A write that a poison fill has not passed, or whose
controller block is held, waits (R262, R415) (log 16, DEDUCED). -/
def State.writeCw (s : State) (a o : Nat) (bytes : List Byte) (mark : Bool) : State :=
  if s.memTop ≤ a then s.bump Fld.memErrBeyond 0 1
  else
    let (lchan, off) := s.mapAddr a
    match s.slotView lchan (off / 64) with
    | .fenced => s.bump Fld.memErrDropped 0 1
    | .unfilled => s.writeLater ⟨lchan, off / 64, o, bytes, mark⟩
    | .array c =>
      if s.stackHeld (lchan % 8) then s.writeLater ⟨lchan, off / 64, o, bytes, mark⟩
      else s.writeBoth lchan c (off / 64) o bytes mark

/-- The requests that wait: in the queues of the channel engines, and the writes that a poison fill or a held controller keeps back. -/
def State.waitingRequests (s : State) : Nat :=
  s.chans.late.length + (s.chans.queues.map (fun e => e.2.1.length + e.2.2.length)).foldl (· + ·) 0

/-- What an access answers once every request that it makes is served; until then it has not occurred (R254, R257, R262, R415). -/
def State.accepted (s v : State) : State := if s.waitingRequests < v.waitingRequests then s else v

/-- A command whose requests to device memory must all be served for it to occur (R257) (log 16, DEDUCED). -/
def State.accepting (s : State) : Out State → Out State
  | .next v => .next (s.accepted v)
  | o => o

/-- The writes that wait and that nothing blocks any more take effect, in their order (R262, R415). -/
def State.lateWrites (s : State) : State :=
  s.chans.late.foldl (fun (s : State) w => match s.slotView w.lchan w.cw with
    | .fenced => s.bump Fld.memErrDropped 0 1
    | .unfilled => s.writeLater w
    | .array c => if s.stackHeld (w.lchan % 8) then s.writeLater w else s.writeBoth w.lchan c w.cw w.off w.bytes w.mark)
    { s with chans := { s.chans with late := [] } }

/-! ## Requests (R254) -/

/-- An access is narrow: at most 32 bytes that lie in one 32-byte sector (R254). -/
def narrowAccess (a n : Nat) : Bool := decide (n ≤ 32) && decide (a % 32 + n ≤ 32)

/-- The queues of the engine of a logical channel (R254). -/
def State.queuesOf (s : State) (l : Nat) : List MemReq × List MemReq := Tab.get ([], []) s.chans.queues l

/-- The queues of an engine, and its narrow bursts in a row with a bulk request waiting. -/
def State.setQueues (s : State) (l : Nat) (q : List MemReq × List MemReq) (run : Nat) : State :=
  { s with chans := { s.chans with queues := Tab.set ([], []) s.chans.queues l q, narrowRun := Tab.set 0 s.chans.narrowRun l run } }

/-- A request joins the queue of its class (R254). -/
def State.joinQueue (s : State) (q : MemReq) : State :=
  let l := (s.mapAddr q.addr).1
  let (n, b) := s.queuesOf l
  s.setQueues l (if q.narrow then (n ++ [q], b) else (n, b ++ [q])) (Tab.get 0 s.chans.narrowRun l)

/-- The channel engine of a codeword cannot serve an access to it now: its controller block is held (R415), or requests wait in its queues (R254). -/
def State.engineBusyAt (s : State) (a : Nat) : Bool :=
  decide (a < s.memTop) && (let l := (s.mapAddr a).1; s.stackHeld (l % 8) || s.queuesOf l != ([], []))

/-- The channel engines of a request can serve it now. -/
def State.memServes (s : State) (a n : Nat) : Bool := (cwSplit a n).all (fun p => !s.engineBusyAt p.1)

/-- They can accept it as a write now: no codeword of it waits for a poison fill either (R262: a write at or above F waits). -/
def State.memReady (s : State) (a n : Nat) : Bool :=
  s.memServes a n && (cwSplit a n).all (fun p => s.memTop ≤ p.1 || (let m := s.mapAddr p.1; !s.blocked m.1 (m.2 / 64)))

/-- A codeword access of a request that reads: one that its engine cannot serve now joins its queue, and delivers nothing yet. -/
def State.fetchCw (s : State) (a n : Nat) (p : Nat × Nat × Nat) : List Byte × Bool × State :=
  if s.engineBusyAt p.1 then (zeros64, false, s.joinQueue ⟨p.1 + p.2.1, p.2.2, none, narrowAccess a n⟩) else s.readCw p.1

/-- A codeword access of a request that writes. -/
def State.storeCw (s : State) (a n : Nat) (p : Nat × Nat × Nat) (bytes : List Byte) (mark : Bool) : State :=
  if s.engineBusyAt p.1 then s.joinQueue ⟨p.1 + p.2.1, p.2.2, some bytes, narrowAccess a n⟩ else s.writeCw p.1 p.2.1 bytes mark

/-- A read request: its bytes, one mark for each byte, and the counters. -/
def State.memRead (s : State) (a n : Nat) : List (Byte × Bool) × State :=
  (cwSplit a n).foldl (fun acc p =>
    let (bs, m, s') := acc.2.fetchCw a n p
    (acc.1 ++ ((bs.drop p.2.1).take p.2.2).map (fun b => (b, m)), s')) ([], s)

/-- The bytes of a read request, and its mark. -/
def State.memTake (s : State) (a n : Nat) : List Byte × Bool × State :=
  let r := s.memRead a n
  (r.1.map Prod.fst, r.1.any Prod.snd, r.2)

/-- The bytes of device memory as a read decodes them, with no request. -/
def State.memBytes (s : State) (a n : Nat) : List Byte :=
  ((cwSplit a n).foldl (fun (acc : List Byte × State) p => let r := acc.2.readCw p.1; (acc.1 ++ (r.1.drop p.2.1).take p.2.2, r.2.2)) ([], s)).1

/-- A write request of unmarked bytes. -/
def State.memWrite (s : State) (a : Nat) (bytes : List Byte) : State :=
  (cwSplit a bytes.length).foldl (fun s p => s.storeCw a bytes.length p ((bytes.drop (p.1 + p.2.1 - a)).take p.2.2) false) s

/-- A write request whose bytes carry marks: a codeword that a marked byte touches becomes a poison write (R392). -/
def State.memWriteMarked (s : State) (a : Nat) (bytes : List (Byte × Bool)) : State :=
  (cwSplit a bytes.length).foldl (fun s p =>
    let part := (bytes.drop (p.1 + p.2.1 - a)).take p.2.2
    s.storeCw a bytes.length p (part.map Prod.fst) (part.any Prod.snd)) s

/-- The little-endian number of `n` bytes of device memory, as stored, with no counter. -/
def State.memNat (s : State) (a n : Nat) : Nat := leNat (s.memBytes a n)

/-! Requests whose burst slots are charged to a context (R427). -/

/-- A read request. -/
def State.takeFor (s : State) (ctx a n : Nat) : List Byte × Bool × State := (s.bursts ctx a n).memTake a n

/-- A write request of unmarked bytes. -/
def State.storeFor (s : State) (ctx a : Nat) (bytes : List Byte) : State := (s.storeBursts ctx a bytes.length).memWrite a bytes

/-- A write request whose bytes carry marks. -/
def State.storeMarked (s : State) (ctx a : Nat) (bytes : List (Byte × Bool)) : State := (s.storeBursts ctx a bytes.length).memWriteMarked a bytes

/-- A little-endian number written to device memory. -/
def State.putNatFor (s : State) (ctx a n v : Nat) : State := s.storeFor ctx a (leBytes n v)

/-! ## Repairs that wait (R398) -/

/-- One codeword of a granule takes the data of a copy, when it still holds `POISON` = 1 (R398). -/
def State.repairCw (s : State) (a : Nat) (bytes : List Byte) : State :=
  if s.memTop ≤ a then s
  else
    let m := s.mapAddr a
    match s.slotView m.1 (m.2 / 64) with
    | .array c => if (s.decodeCw c (m.2 / 64)).arrayPoison c (m.2 / 64) then s.storeCw a 64 (a, 0, 64) bytes false else s
    | .fenced | .unfilled => s

/-- A codeword waits for a poison fill to pass it, or for its controller block (R262, R415). -/
def State.unfilled (s : State) (a : Nat) : Bool := decide (a < s.memTop) && (let m := s.mapAddr a; s.blocked m.1 (m.2 / 64))

/-- An address is backed: it lies below `MEM_TOP`, in a slot that is not fenced (R252, R263). -/
def State.holds (s : State) (a : Nat) : Bool :=
  decide (a < s.memTop) && (let m := s.mapAddr a; s.slotView m.1 (m.2 / 64) != .fenced)

/-- A codeword of the granule lies in a fenced slot, which takes no write (R263) (log 132, DEDUCED). -/
def State.granuleFenced (s : State) (g : Nat) : Bool :=
  (cwSplit g 4096).any (fun p => p.1 < s.memTop && (let m := s.mapAddr p.1; s.slotView m.1 (m.2 / 64) == .fenced))

/-- A repair changed. -/
def State.modRepair (s : State) (g : Nat) (f : Repair → Repair) : State :=
  { s with repairs := s.repairs.map (fun r => if r.granule = g then f r else r) }

/-- A repair leaves the queue. -/
def State.endRepair (s : State) (g : Nat) (f : Field) : State :=
  ({ s with repairs := s.repairs.filter (fun r => r.granule != g) }.bump f 0 1).stir

/-- A repair of which every part has arrived and none waits is done; a granule of which a fenced slot holds a part cannot be repaired. -/
def State.repairDone (s : State) (g : Nat) : State :=
  match s.repairs.find? (fun r => r.granule == g) with
  | none => s
  | some r =>
    if r.got.length = 8 && r.late.isEmpty then
      s.endRepair g (if s.granuleFenced g then Fld.repairStatFailed else Fld.repairStatDone)
    else s

/-- The codewords of a part of a granule: each is repaired now, or waits until a fill has passed it (R398). -/
def State.repairPart (s : State) (g off : Nat) (bytes : List Byte) : State :=
  let cws := (List.range (bytes.length / 64)).map (fun k => (g + off + 64 * k, (bytes.drop (64 * k)).take 64))
  let s1 := (cws.filter (fun e => !s.unfilled e.1)).foldl (fun (s : State) e => s.repairCw e.1 e.2) (s.event baseContext evBurst noRegion cws.length)
  (s1.modRepair g (fun r => { r with got := if r.got.contains off then r.got else off :: r.got,
                                     late := r.late ++ cws.filter (fun e => s.unfilled e.1) })).repairDone g

/-- The codewords of repairs that no longer wait are repaired (R398). -/
def State.lateRepairs (s : State) : State :=
  (s.repairs.filter (fun r => !r.late.isEmpty)).foldl (fun (s : State) r =>
    let now := r.late.filter (fun e => !s.unfilled e.1)
    ((now.foldl (fun (s : State) e => s.repairCw e.1 e.2) s).modRepair r.granule
      (fun r => { r with late := r.late.filter (fun e => s.unfilled e.1) })).repairDone r.granule) s

/-! ## The commands -/

/-- The stacks are active: P0 or P1 (R423). -/
def State.memOn (s : State) : Bool := s.fld Fld.pwrStatState 0 < 2

/-- The stack of a physical channel is active, and its controller block is not held (R37, R415, R423). -/
def State.chanOn (s : State) (c : Nat) : Bool := s.memOn && !s.stackHeld (c / 34)

/-- The request that an engine serves next: the narrow queue first, but one bulk request after four narrow bursts in a row with a bulk request waiting
(R254). -/
def State.nextRequest (s : State) (l : Nat) : Option (MemReq × State) :=
  let run := Tab.get 0 s.chans.narrowRun l
  match s.queuesOf l with
  | ([], []) => none
  | (x :: n, []) => some (x, s.setQueues l (n, []) 0)
  | ([], y :: b) => some (y, s.setQueues l ([], b) 0)
  | (x :: n, y :: b) => some (if run < 4 then (x, s.setQueues l (n, y :: b) (run + 1)) else (y, s.setQueues l (x :: n, b) 0))

/-- The codeword at an address shows damage to a burst, or its burst cannot complete (R249, R262). -/
def State.strike (s : State) (a : Nat) (damage : Strike) (burstFails : Bool) : State :=
  if s.memTop ≤ a then s
  else
    let m := s.mapAddr a
    match s.slotView m.1 (m.2 / 64) with
    | .array c => if burstFails then s.failHard c else s.damageCells c (m.2 / 64) damage
    | _ => s

/-- A channel engine serves a request: a narrow read returns its 32-byte sector (R249, R252, R255, R262, R263). The damage of a write of fewer than 64
bytes shows in the read that it makes first, and that of a full write stays in the cells. -/
def State.serveRequest (s : State) (q : MemReq) (x : Strike) (burstFails : Bool) : State :=
  let a := q.addr / 64 * 64
  match q.write with
  | none =>
    let r := ((s.strike a x burstFails).bursts baseContext q.addr 1).readCw a
    let bytes := if q.narrow then (r.1.drop (q.addr % 64 / 32 * 32)).take 32 else r.1
    { r.2.2 with outs := { r.2.2.outs with memData := bytes, memMark := r.2.1 } }
  | some bytes =>
    let s := s.storeBursts baseContext q.addr bytes.length
    if bytes.length = 64 then ((if burstFails then s.strike a ⟨[], .once⟩ true else s).writeCw a 0 bytes false).strike a x false
    else (s.strike a x burstFails).writeCw a (q.addr % 64) bytes false

/-- A request comes to its channel engine, and unless it is to wait the engine serves its next one (R254); a write that cannot be accepted now is not served.
An address at or above `MEM_TOP` has no engine (R252). `q` without bytes or length only has the engine serve what waits (log 178, DESIGN CHOICE). -/
def State.engineStep (s : State) (q : MemReq) (x : Strike) (burstFails waits : Bool) : State :=
  let l := (s.mapAddr q.addr).1
  if s.memTop ≤ q.addr then (if q.len = 0 then s else s.serveRequest q x burstFails)
  else if s.stackHeld (l % 8) then s
  else
    let v := if q.len = 0 then s else s.joinQueue q
    if waits then v
    else match v.nextRequest l with
      | none => s
      | some (r, w) => s.accepted (w.serveRequest r x burstFails)

/-- `MEM_CODEWORD_READ`: a channel engine reads the codeword that holds the first of `len` bytes from `addr` (R249, R252, R254, R255, R262, R263). -/
def execMemCodewordRead (addr len : Nat) (strike : Strike) (burstFails waits : Bool) (s : State) : Out State :=
  onUnit (Damage.wf strike.symbols) "symbol" <|
  whenever s.memOn s (s.engineStep ⟨addr, len, none, narrowAccess addr len⟩ strike burstFails waits)

/-- `MEM_CODEWORD_WRITE`: a channel engine writes bytes that lie in one codeword; a part of a larger request is a bulk access (R249, R254, R256, R261-R263). -/
def execMemCodewordWrite (addr : Nat) (bytes : List Byte) (part : Bool) (strike : Strike) (burstFails waits : Bool) (s : State) : Out State :=
  onUnit (Damage.wf strike.symbols) "symbol" <|
  whenever (s.memOn && addr % 64 + bytes.length ≤ 64) s
    (s.engineStep ⟨addr, bytes.length, some bytes, !part && narrowAccess addr bytes.length⟩ strike burstFails waits)

/-- An idle spare channel is read (R259): a burst that cannot complete or an uncorrectable error marks it `FAILED`, which the journal records. -/
def State.scrubSpare (s : State) (c cw : Nat) (burstFails : Bool) : State :=
  let v := if burstFails then s else s.decodeCw c cw
  if burstFails || s.fld Fld.memChstatUeWin c < v.fld Fld.memChstatUeWin c then
    (v.setFld Fld.memChstatState c 4).journal recChannel [c, 4, 0x3F]
  else v

/-- `SCRUB_READ`: the patrol scrub reads the next codeword of a physical channel (R258, R259) (log 107, DEDUCED). -/
def execScrubRead (chan : Nat) (strike : Strike) (burstFails : Bool) (s : State) : Out State :=
  onUnit (chan < 272 && Damage.wf strike.symbols) "channel" <|
  whenever (s.flag Fld.memScrubEnable 0 && s.chanOn chan && s.scrubs chan && !s.chans.scrubDone.contains chan) s <|
  let cw := Tab.get 0 s.chans.scrubPos chan
  let s := if cw = 0 then (s.setFld Fld.memChstatCeWin chan 0).setFld Fld.memChstatUeWin chan 0 else s
  let s := match s.slotOf chan with
    | some l => let a := s.unmapAddr l (64 * cw); (((s.strike a strike burstFails).bursts baseContext a 1).readCw a).2.2
    | none =>
      let s := s.damageCells chan cw strike
      (s.event baseContext evBurst noRegion (if (s.cellDamage chan cw).isEmpty then 1 else 2)).scrubSpare chan cw burstFails
  let done := if cw + 1 = chanCodewords then chan :: s.chans.scrubDone else s.chans.scrubDone
  let v : State := { s with chans := { s.chans with scrubPos := Tab.set 0 s.chans.scrubPos chan ((cw + 1) % chanCodewords), scrubDone := done } }
  v.passEnd

/-- The channel bound to a slot is declining: its `CE_WIN` exceeds the threshold, or its migration was requested (R260). -/
def State.declining (s : State) (lchan : Nat) : Bool :=
  match s.boundChan lchan with
  | none => false
  | some c => s.fld Fld.memChstatState c == 0 && !s.flag Fld.memChmapFenced lchan &&
      (s.fld Fld.memSpareCtlCeThresh 0 < s.fld Fld.memChstatCeWin c || s.chans.requested.contains c)

/-- `MIGRATION_START` (R260, R261). -/
def execMigrationStart (lchan : Nat) (s : State) : Out State :=
  onUnit (lchan < 256) "logical channel" <|
  match s.idleSpare (lchan % 8) with
  | none => .next s
  | some sp =>
    whenever (s.chanOn sp && s.declining lchan && s.flag Fld.memSpareCtlAuto 0 && s.migrationOf (lchan % 8) == none) s <|
    State.passEnd { (s.setFld Fld.memChstatState sp 2) with
      chans := { s.chans with migrations := Tab.set none s.chans.migrations (lchan % 8) (some (lchan, sp, 0)) } }

/-- The migration has passed the last codeword: the slot is rebound, and the old channel is retired (R261), or failed when it has left service
twice (R406). One that a rotation asked for is tested next (R407). -/
def State.migrationComplete (s : State) (lchan old sp : Nat) : State :=
  let s := ((s.endMigration (lchan % 8)).setFld Fld.memChmapChannel lchan (sp % 34)).setFld Fld.memChstatState sp 0
  let next := if s.chans.requested.contains old then s.assay.next ++ [.channel old] else s.assay.next
  let s := { s with assay := { s.assay with next := next }, chans := { s.chans with requested := s.chans.requested.filter (· != old) } }.departs old
  let st := if 2 ≤ Tab.get 0 s.chans.departures old then 4 else 3
  (((s.setFld Fld.memChstatState old st).journal recChannel [sp, 0, lchan / 8]).journal recChannel [old, st, 0x3F]).passEnd

/-- The copy pointer moves past codeword P. -/
def State.copied (s : State) (lchan sp p : Nat) : State :=
  { s with chans := { s.chans with migrations := Tab.set none s.chans.migrations (lchan % 8) (some (lchan, sp, p + 1)) } }

/-- `MIGRATION_COPY_STEP`: codeword P is read from the old channel, corrected, and written to the spare (R261, R264); a burst of either channel that cannot
complete fails that channel (R262). -/
def execMigrationCopyStep (lchan : Nat) (strike : Strike) (oldFails spareFails : Bool) (s : State) : Out State :=
  onUnit (lchan < 256 && Damage.wf strike.symbols) "logical channel" <|
  match s.migrationOf (lchan % 8), s.boundChan lchan with
  | some (l, sp, p), some old =>
    whenever (l = lchan && s.chanOn sp) s <|
    if oldFails then s.failHard old
    else if spareFails then s.failHard sp
    else
      let v := (s.event baseContext evBurst noRegion 2).damageCells old p strike
      let v := (v.event baseContext evBurst noRegion (if (v.cellDamage old p).isEmpty then 0 else 1)).decodeCw old p
      let v := ((v.putArray sp p (v.arrayData old p) (v.arrayPoison old p)).copied lchan sp p).checkUeWin old
      if p + 1 = chanCodewords && v.fld Fld.memChstatState old == 0 then v.migrationComplete lchan old sp else v
  | _, _ => .next s

/-- `POISON_FILL_STEP`: codeword F becomes zeros with POISON = 1, and what waited for it follows (R262, R398). -/
def execPoisonFillStep (lchan : Nat) (burstFails : Bool) (s : State) : Out State :=
  onUnit (lchan < 256) "logical channel" <|
  match s.fillOf lchan with
  | none => .next s
  | some (sp, f) =>
    whenever (s.chanOn sp) s <|
    if burstFails then s.failHard sp
    else
      let v := (s.event baseContext evBurst noRegion 1).putArray sp f zeros64 true
      let v := if f + 1 < chanCodewords then v.setFill lchan (some (sp, f + 1)) else v.fillDone lchan sp
      v.lateWrites.lateRepairs

end Sys2Proof.Machine
end

