-- ==== Sys2Proof/Machine/Port.lean ====
section
/-! DEFINITION. What the CXL port reports of itself: the capabilities of R337, the SR-IOV capability (R344), the BARs (R345), and the requests
that the device makes on CXL.cache (R338). -/

namespace Sys2Proof.Machine

/-! ## Capabilities (R337) -/

/-- The capabilities of R337. -/
inductive Capability where
  | deviceType2
  | linkRateAndWidth
  | flits256
  | flits68
  | l0p
  | aspmL0sL1
  | cacheRequests
  | cxlMemHdmD
  | backInvalidate
  | multipleLogicalDevices
  | sriov
  | portBasedRouting
  | unorderedIoTarget
  | unorderedIoRequester
  | ide
  | ideSkid
  | tspTdisp
  | doe
  | memPoison
  | viral
  | globalPersistentFlush
  | dynamicCapacity
  | memoryMailbox
  | atsPriPasid
  | msix
  | msiAndIntx
  | functionLevelReset
  | cxlReset
  | surpriseRemoval
  deriving DecidableEq, Repr

/-- The device's capability structures hold the capability; one that they do not hold it never requests or accepts. -/
def Capability.present : Capability → Bool
  | .deviceType2 | .linkRateAndWidth | .flits256 | .l0p | .cacheRequests | .cxlMemHdmD | .sriov | .unorderedIoTarget | .ide | .doe | .memPoison
  | .msix | .functionLevelReset | .cxlReset | .surpriseRemoval => true
  | .flits68 | .aspmL0sL1 | .backInvalidate | .multipleLogicalDevices | .portBasedRouting | .unorderedIoRequester | .ideSkid | .tspTdisp | .viral
  | .globalPersistentFlush | .dynamicCapacity | .memoryMailbox | .atsPriPasid | .msiAndIntx => false

/-- The rates in GT/s at which the port trains, highest first. -/
def linkRates : List Nat := [128, 64, 32]

/-- The widths at which the port trains, widest first; L0p goes from the first to the second and back. -/
def linkWidths : List Nat := [16, 8, 4]

/-- HDM decoders, and the interleave ways of each. -/
def hdmDecoders : Nat := 1
def hdmWays : Nat := 1

/-- The answers to a snoop that a cache may give. -/
inductive SnoopAnswer where
  | invalid
  | shared
  | modified
  deriving DecidableEq, Repr

/-- The device holds no cache lines: it answers a snoop of any line as invalid. -/
def snoopAnswer (_line : Nat) : SnoopAnswer := .invalid

/-! ## SR-IOV (R344) and BARs (R345) -/

/-- `TotalVFs`. -/
def totalVfs : Nat := 63
/-- `First VF Offset`. -/
def firstVfOffset : Nat := 1
/-- `VF Stride`. -/
def vfStride : Nat := 1

/-- The routing identifier of virtual function n, above that of the physical function. -/
def vfRouting (n : Nat) : Nat := firstVfOffset + (n - 1) * vfStride

/-- A base address register. -/
structure Bar where
  number : Nat
  size : Nat
  wide : Bool
  prefetchable : Bool
  deriving DecidableEq, Repr

/-- The BARs of a function: BAR0, 64-bit and not prefetchable, of 64 MiB in the physical function and 128 KiB in a virtual one. -/
def functionBars (fn : Nat) : List Bar := [{ number := 0, size := if fn = 0 then 0x4000000 else 0x20000, wide := true, prefetchable := false }]

/-! ## Requests on CXL.cache (R338) -/

/-- The 64-byte lines that an access of host memory touches: line number, and whether the access covers the line whole. -/
def hostLines (a n : Nat) : List (Nat × Bool) :=
  if n = 0 then []
  else (List.range ((a + n - 1) / 64 - a / 64 + 1)).map (fun k => (a / 64 + k, within (64 * (a / 64 + k)) 64 a n))

/-- A read is `RdCurr` of every line it touches. -/
def readRequests (a n : Nat) : List (CacheReq × Nat) := (hostLines a n).map (fun l => (.rdCurr, l.1))

/-- A write is `ItoMWr` of whole lines and `WrCur` of part lines. -/
def writeRequests (a n : Nat) : List (CacheReq × Nat) := (hostLines a n).map (fun l => (if l.2 then .itoMWr else .wrCur, l.1))

end Sys2Proof.Machine
end

