-- ==== Sys2Proof/Machine/Access.lean ====
section
/-! DEFINITION. Accesses that the device makes for a tenant: host memory through the host windows (R338-R341), device memory inside a grant,
and the write protection of loaded boards (R80). -/

namespace Sys2Proof.Machine

/-! ## Host memory -/

/-- The access lies wholly inside one window that takes part, belongs to the tenant and permits it (R339). -/
def State.hostPermits (s : State) (tenant a n : Nat) (write : Bool) : Bool :=
  (List.range 256).any (fun w =>
    s.flag Fld.hwinEnable w && s.flag Fld.hwinLock w && s.fld Fld.hwinTenant w == tenant &&
      s.flag (if write then Fld.hwinWrite else Fld.hwinRead) w && within a n (s.fld Fld.hwinBase w) (s.fld Fld.hwinSize w))

/-- Some 64-byte line of a host range is poisoned. -/
def State.hostMarked (s : State) (a n : Nat) : Bool :=
  n != 0 && (List.range ((a + n - 1) / 64 - a / 64 + 1)).any (fun k => Tab.get false s.hostPoison (a / 64 + k))

/-- Bus Master Enable of a function is set, so its host accesses proceed (R353). -/
def State.hostReady (s : State) (fn : Nat) : Bool := Tab.get false s.fns.busMaster fn

/-- Requests go out on CXL.cache for a function; each 64 bytes that cross the port count (R338, R427). -/
def State.hostRequests (s : State) (fn : Nat) (rs : List (CacheReq × Nat)) : State :=
  ({ s with outs := { s.outs with cache := rs } }).event fn evCxl noRegion rs.length

/-- A read of host memory: its bytes and mark, or none when it is refused (R341) or the link is down (R353). -/
def State.hostRead (s : State) (fn a n : Nat) : Option (List Byte × Bool) × State :=
  if !s.hostPermits fn a n false then (none, s.bump Fld.hostErrOutside fn 1)
  else if !s.fns.linkUp then (none, s)
  else (some (Mem.readRange s.host a n, s.hostMarked a n), s.hostRequests fn (readRequests a n))

/-- The marks of host lines after a write: marked data poisons every line it touches, and unmarked data clears the lines it
writes wholly. -/
def hostMarks (marks : Tab Bool) (a n : Nat) (mark : Bool) : Tab Bool :=
  if n = 0 then marks
  else (List.range ((a + n - 1) / 64 - a / 64 + 1)).foldl (fun m k =>
    let l := a / 64 + k
    if mark then Tab.set false m l true else if within (64 * l) 64 a n then Tab.set false m l false else m) marks

/-- Bytes stored in host memory. -/
def State.hostPut (s : State) (a : Nat) (bytes : List Byte) (mark : Bool) : State :=
  { s with host := Mem.writeRange s.host a bytes, hostPoison := hostMarks s.hostPoison a bytes.length mark }

/-- A write of host memory: the Bool says that the access was permitted; a refused one is discarded and counts (R341), and one that the
link cannot carry is lost (R353). -/
def State.hostWrite (s : State) (fn a : Nat) (bytes : List Byte) (mark : Bool) : Bool × State :=
  if !s.hostPermits fn a bytes.length true then (false, s.bump Fld.hostErrOutside fn 1)
  else if !s.fns.linkUp then (true, s)
  else (true, (s.hostPut a bytes mark).hostRequests fn (writeRequests a bytes.length))

/-- The item made an access that was refused: cause `RUNTIME_BOUND` (R341). -/
def State.outsideItem (s : State) (id : Nat) : State :=
  s.modItem id (fun i => { (i.addStatus stRejected) with cause := causeRuntimeBound })

/-! ## Device memory of a tenant -/

/-- The committed grant of a context. -/
def State.grant (s : State) (ctx : Nat) : Grant := Tab.get Grant.empty s.grants ctx

/-- The grant that an item runs under: the one it was checked against, while a narrowing waits for it (R348). -/
def State.grantOf (s : State) (i : Item) : Grant :=
  match Tab.get none s.narrowing i.fn with
  | some (g, ids) => if ids.contains i.id then g else s.grant i.fn
  | none => s.grant i.fn

/-- A range lies inside an own range of a grant. -/
def Grant.own (g : Grant) (a n : Nat) : Bool := g.mem.any (fun e => !e.2.2.2 && within a n e.2.1 e.2.2.1)

/-- A range lies inside an own range of the tenant's grant. -/
def State.ownRange (s : State) (tenant a n : Nat) : Bool := (s.grant tenant).own a n

/-- A range lies inside a shared range of the tenant's grant. -/
def State.sharedRange (s : State) (tenant a n : Nat) : Bool :=
  (s.grant tenant).mem.any (fun e => e.2.2.2 && within a n e.2.1 e.2.2.1)

/-- The tenant whose loaded or retiring board's image range a write meets (R80). -/
def State.protects (s : State) (a n : Nat) : Option Nat :=
  (s.boards.find? (fun e => match e.2 with
    | some b => overlaps a n b.dest b.destBytes
    | none => false)).map (fun e => e.1 / 256)

/-- A write that R80 may discard: a DMA write, a remote write or a write over CXL.mem. It is judged for each codeword access that it is divided
into (R254); each discarded one counts (log 179, DEDUCED). -/
def State.protectedWrite (s : State) (ctx a : Nat) (bytes : List Byte) (mark : Bool) : State :=
  (cwSplit a bytes.length).foldl (fun (s : State) p =>
    match s.protects (p.1 + p.2.1) p.2.2 with
    | some owner => s.bump Fld.boardFaultWprot owner 1
    | none => (s.event ctx evBurst noRegion (s.slotsOf true p)).storeCw a bytes.length p ((bytes.drop (p.1 + p.2.1 - a)).take p.2.2) mark) s

end Sys2Proof.Machine
end

