-- ==== Sys2Proof/Machine/Pools.lean ====
section
/-! DEFINITION. Key/value pools (R195-R218): geometry, the control area, translation with its outcomes, references and the release
ring, the copy of a page, and the parts of a page transfer. -/

namespace Sys2Proof

open Machine

/-! ## Geometry (R198-R200) -/

/-- The pool holds MXFP8 blocks with a BF16 tail. -/
def Machine.Pool.mx (p : Pool) : Bool := p.fmt < 2

/-- The footprint of a page in bytes (R199). -/
def Machine.Pool.footprint (p : Pool) : Nat := if p.mx then 100352 else 65536

/-- The device address of a page offset (R199, R200). -/
def Machine.Pool.pageAddr (p : Pool) (page off : Nat) : Nat :=
  if off < 0x10000 then p.dataBase + 65536 * page + off else p.sideBase + 34816 * page + (off - 0x10000)

/-- Address of the sequence-state byte. -/
def Machine.Pool.seqAddr (p : Pool) (id : Nat) : Nat := p.ctrlBase + 0x40 + id
/-- Address of a page's state word. -/
def Machine.Pool.stateAddr (p : Pool) (page : Nat) : Nat := p.ctrlBase + 0x10040 + 4 * page
/-- Address of release-ring entry i. -/
def Machine.Pool.ringAddr (p : Pool) (i : Nat) : Nat := p.ctrlBase + alignUp (0x10040 + 4 * p.pages) 64 + 8 * (i % p.pages)
/-- Bytes of the control area (R198). -/
def Machine.Pool.ctrlBytes (p : Pool) : Nat := alignUp (0x10040 + 4 * p.pages) 64 + 8 * p.pages

/-- Groups of 32 tokens in a page. -/
def Machine.Pool.groups (p : Pool) : Nat := p.tokens / 32

/-- The size of a part of a page transfer (R204). -/
def Machine.Pool.partSize (p : Pool) (part : Nat) : Nat :=
  let hd := p.heads * p.dim
  if part < 2 then (if p.mx then 32 * hd else 64 * hd) else if part < 4 then hd else 64 * hd

/-- The page offset of a part of in-page group g (R200, R204). -/
def Machine.Pool.partOffset (p : Pool) (part g : Nat) : Nat :=
  let hd := p.heads * p.dim
  let blk := if p.mx then 32 * hd else 64 * hd
  match part with
  | 0 => g * blk
  | 1 => 0x8000 + g * blk
  | 2 => 0x10000 + g * hd
  | 3 => 0x10400 + g * hd
  | 4 => if p.mx then 0x10800 else g * blk
  | _ => if p.mx then 0x14800 else 0x8000 + g * blk

end Sys2Proof

namespace Sys2Proof.Machine

/-! ## Pools of a tenant -/

/-- An open pool. -/
def State.pool (s : State) (tenant k : Nat) : Option Pool := Tab.get none s.pools (4 * tenant + k)

/-- A pool opened or closed. -/
def State.setPool (s : State) (tenant k : Nat) (p : Option Pool) : State :=
  { s with pools := Tab.set none s.pools (4 * tenant + k) p }

/-- The open pool whose page-table area a kind-2 binding names (R195) (log 214, DESIGN CHOICE). -/
def State.poolAt (s : State) (tenant base size : Nat) : Option (Nat × Pool) :=
  (List.range 4).findSome? (fun k => (s.pool tenant k).bind (fun p =>
    if p.ptBase = base && 8 * p.ptEntries = size then some (k, p) else none))

/-- The pools that a board binds. -/
def State.boardPools (s : State) (tenant : Nat) (b : Board) : List Nat :=
  (b.regions.filterMap (fun r => if r.kind = 2 then (s.poolAt tenant r.base r.bound).map Prod.fst else none)).eraseDups

/-! ## The control area (R198) -/

/-- `REFS` of a page. -/
def State.refs (s : State) (p : Pool) (page : Nat) : Nat := bitsOf (s.memNat (p.stateAddr page) 4) 0 17
/-- `QUEUED` of a page. -/
def State.queued (s : State) (p : Pool) (page : Nat) : Bool := bitOf (s.memNat (p.stateAddr page) 4) 17
/-- A counted read of a control word; an item for which it is made consumes its mark (R249, R395). -/
def State.ctrlRead (s : State) (item : Option Nat) (a n : Nat) : Nat × State :=
  let r := s.takeFor (s.contextOf item) a n
  (leNat r.1, match item with
    | some id => r.2.2.consumed id r.2.1
    | none => r.2.2)
/-- A page's state written. -/
def State.setPage (s : State) (ctx : Nat) (p : Pool) (page refs : Nat) (queued : Bool) : State :=
  s.putNatFor ctx (p.stateAddr page) 4 (refs + (if queued then 131072 else 0))

/-- The serials of the launches that hold a reader pin on a pool (R216). -/
def State.pinSerials (s : State) (tenant k : Nat) : List Nat :=
  (s.items.filter (fun i => i.fn == tenant)).flatMap (fun i => match i.launch with
    | some l => (l.serials.filter (fun x => x.1 == k)).map Prod.snd
    | none => [])

/-- Serial `a` is at or below stamp `t`, modulo 2^32 (R216). -/
def serialLe (a t : Nat) : Bool := (t + 2 ^ 32 - a % 2 ^ 32) % 2 ^ 32 < 2 ^ 31

/-- `REL_DONE` advances over released entries in ring order; `QUEUED` of each page clears (R216). The tenant can write the ring, so an entry that names
no page of the pool changes no page state (R5) (log 180, DESIGN CHOICE). -/
def State.releaseGo (s : State) (tenant k : Nat) (p : Pool) : Nat → State
  | 0 => s
  | n + 1 =>
    let done := s.ctrlRead none (p.ctrlBase + 4) 4
    let e := done.2.ctrlRead none (p.ringAddr done.1) 8
    let page := bitsOf e.1 0 24
    if (s.pinSerials tenant k).any (fun a => serialLe a (bitsOf e.1 32 32)) then e.2
    else
      let s := if page < p.pages then
          let r := e.2.ctrlRead none (p.stateAddr page) 4
          r.2.setPage baseContext p page (bitsOf r.1 0 17) false
        else e.2
      let s := s.putNatFor baseContext (p.ctrlBase + 4) 4 ((done.1 + 1) % 2 ^ 32)
      State.releaseGo (s.give 6 (4 * tenant + k) 1) tenant k p n

/-- The release of a pool's ring entries whose pins have all ended. -/
def State.release (s : State) (tenant k : Nat) : State :=
  match s.pool tenant k with
  | none => s
  | some p =>
    let tail := s.ctrlRead none (p.ctrlBase + 8) 4
    let done := tail.2.ctrlRead none (p.ctrlBase + 4) 4
    done.2.releaseGo tenant k p (min ((tail.1 + 2 ^ 32 - done.1) % 2 ^ 32) p.pages)

/-- `REFS` falls by one, for an item; at 0 the page is appended to the release ring with the current serial and marked `QUEUED` (R216). -/
def State.unref (s : State) (tenant item k : Nat) (p : Pool) (page : Nat) : State :=
  let w := s.ctrlRead (some item) (p.stateAddr page) 4
  let r := bitsOf w.1 0 17
  if r = 0 then w.2
  else if 1 < r then w.2.setPage (s.contextOf (some item)) p page (r - 1) (bitOf w.1 17)
  else
    let tail := w.2.ctrlRead (some item) (p.ctrlBase + 8) 4
    let serial := tail.2.ctrlRead (some item) (p.ctrlBase + 0xC) 4
    let s := serial.2.putNatFor (s.contextOf (some item)) (p.ringAddr tail.1) 8 (page + 2 ^ 32 * serial.1)
    let s := s.setPage (s.contextOf (some item)) p page 0 true
    let s := s.putNatFor (s.contextOf (some item)) (p.ctrlBase + 8) 4 ((tail.1 + 1) % 2 ^ 32)
    s.release tenant k

/-- A page gets its first reference. -/
def State.firstRef (s : State) (tenant k : Nat) (p : Pool) (page : Nat) : State :=
  (s.setPage tenant p page 1 false).issue 6 (4 * tenant + k) 1

/-! ## Translation (R202) -/

/-- A use suppressed under R84 that a field of `KV_FAULT` counts. -/
def State.kvSuppress (s : State) (tenant id : Nat) (f : Field) : State := (s.bump f tenant 1).runBound tenant id

/-- A use of entry `idx` of a sequence: the entry when the use proceeds; none when it reads zeros and writes nothing. -/
def State.kvUse (s : State) (tenant item : Nat) (p : Pool) (seq idx : Nat) : Option Nat × State :=
  if 65535 < seq then (none, s.kvSuppress tenant item Fld.kvFaultBadpte)
  else
    let r1 := s.takeFor tenant (p.seqAddr seq) 1
    let s := r1.2.2
    let r2 := if idx < p.ptEntries then s.takeFor tenant (p.ptBase + 8 * idx) 8 else ([], false, s)
    let s := r2.2.2
    let e := leNat r2.1
    if r1.2.1 || r2.2.1 then (none, s.consumed item true)
    else if bitOf (leNat r1.1) 0 then (none, (s.bump Fld.kvFaultSwaphit tenant 1).addStatus item stPreempted)
    else if p.ptEntries ≤ idx || !bitOf e 24 || p.pages ≤ bitsOf e 0 24 then (none, s.kvSuppress tenant item Fld.kvFaultBadpte)
    else (some e, s)

/-- The entry index of sequence group G of a row (R202). -/
def Pool.entryOf (p : Pool) (ptw row group : Nat) : Nat := ptw + row * p.rowPages + group / p.groups

/-- The footprint of a page copied to another page, codeword marks with it. -/
def State.copyPage (s : State) (ctx : Nat) (p : Pool) (src dst : Nat) : State × Bool :=
  let spans := if p.mx then [(0, 65536), (0x10000, 34816)] else [(0, 65536)]
  spans.foldl (fun (acc : State × Bool) g =>
    let r := (acc.1.bursts ctx (p.pageAddr src g.1) g.2).memRead (p.pageAddr src g.1) g.2
    (r.2.storeMarked ctx (p.pageAddr dst g.1) r.1, acc.2 || r.1.any Prod.snd)) (s, false)

end Sys2Proof.Machine
end

