-- ==== Sys2Proof/Machine/Faults.lean ====
section
/-! DEFINITION. Tile faults (R387-R390, R393, R394): the choice of a spare, the start of a carry, the fence of a facet array, and a
tile that fails with no spare. -/

namespace Sys2Proof

/-- The check fails, and the result is not committed: a checked value that is off by no multiple of 255, or a parity error (R385, R386) (log 166, DESIGN CHOICE). -/
def Check.failed : Check → Bool
  | .residue err _ => err % 255 != 0
  | .parity _ => true
  | .pass | .words _ => false

/-- The mismatch lies in the facet array, when the operation runs there. -/
def Check.inArray : Check → Bool
  | .residue _ a | .parity a => a
  | .pass | .words _ => false

/-- The check is the parity of a path (R394). -/
def Check.isParity : Check → Bool
  | .parity _ => true
  | .pass | .residue _ _ | .words _ => false

/-- The unit of the control state of a tile: sequencer, loops, sync objects, bangles, DMA positions (R394). -/
def controlUnit : Nat := 139291

/-- The word is one of the scratchpad (R393). -/
def WordErr.spad (w : WordErr) : Bool := w.unit < 131072

/-- The word is one of the control state. -/
def WordErr.control (w : WordErr) : Bool := w.unit == controlUnit

/-- The key of a word of storage other than the scratchpad. -/
def WordErr.key (w : WordErr) : Nat := 1024 * w.unit + w.word % 1024

end Sys2Proof

namespace Sys2Proof.Machine

/-- The physical tiles in a state. -/
def State.physIn (s : State) (st : Nat) : List Nat := (List.range 272).filter (fun p => s.fld Fld.tilePhysState p == st)

/-- The spare that a fault takes (R387): the lowest-numbered tile in `SPARE` that no carry has taken; otherwise the lowest in `ASSAY`
that entered its test from `SPARE`. -/
def State.pickSpare (s : State) : Option Nat :=
  match (s.physIn 1).find? (fun p => !s.carries.any (fun c => c.spare == p)) with
  | some p => some p
  | none =>
    match s.assay.unit with
    | some (.tile p, 1) => some p
    | _ => none

/-- The payload of a `TILE` record (R446). -/
def State.tileRecord (s : State) (p : Nat) : List Nat :=
  [p, s.fld Fld.tilePhysState p, s.fld Fld.tilePhysLogical p, s.fld Fld.tilePhysArrayFenced p, s.fld Fld.tilePhysFences p,
   s.fld Fld.tilePhysAssayRuns p]

/-- A running Assay test of physical tile `p` stops, and the tile is a spare again (R387, R390). -/
def State.stopAssayOf (s : State) (p : Nat) : State :=
  match s.assay.unit with
  | some (.tile q, _) =>
    if q = p then
      let s := ({ s with assay := { s.assay with unit := none } }.setFld Fld.assayStatBusy 0 0).setFld Fld.tilePhysState p 1
      s.journal recTile (s.tileRecord p)
    else s
  | _ => s

/-- The item whose part runs on a tile. -/
def Tile.itemId (t : Tile) : Option Nat := t.part.map (·.item)

/-- The healthy physical tiles: `IN_SERVICE` or `SPARE` (R483), or under a test that began in `SPARE`, from which a fault takes it (R387); the tile that a carry is about to retire is none (R57, R390). -/
def State.healthy (s : State) : Nat :=
  (s.physIn 0).length + (s.physIn 1).length + (match s.assay.unit with
    | some (.tile _, 1) => 1
    | _ => 0) - (s.carries.filter (fun c => !c.rotation)).length

/-- The tile mode that a number of healthy tiles allows (R57, R483). -/
def modeFor (h : Nat) : Nat := if 256 ≤ h then 0 else if 240 ≤ h then 1 else 2

/-- A change of tile mode becomes due when the healthy tiles no longer carry the mode (R57); it never rises here (R58) (log 73, DEDUCED). -/
def State.modeCheck (s : State) : State :=
  let m := modeFor s.healthy
  if s.fld Fld.coreModeTiles 0 < m then { s with modeDue := some m } else s

/-- A carry begins (R387); unless a rotation causes it, the tile that it retires is no longer healthy. -/
def State.addCarry (s : State) (c : Carry) : State := { s with carries := s.carries ++ [c] }.modeCheck

/-- A physical tile fails with no spare: its part's launch fails, and the reduced mode becomes due (R390). -/
def State.tileFailed (s : State) (_t p : Nat) : State :=
  let s1 := s.setFld Fld.tilePhysState p 4
  let s2 := match (s.tile p).itemId with
    | some id => s1.failPart id stPoison
    | none => s1
  -- the failed tile no longer serves: its part has ended with the launch
  let s3 := s2.setTile p (s2.tile p).endPart
  (s3.journal recTile (s3.tileRecord p)).modeCheck

/-- A tile fault on logical tile `t`, served by physical tile `p` (R387, R390). `ctlLost`: control state was lost (R394); `rowsOut`: a bank
has no spare row left (R393). A tile whose carry is in progress has its fault already. -/
def State.tileFault (s : State) (t p : Nat) (ctlLost rowsOut : Bool) : State :=
  if s.carries.any (fun c => c.logical == t) then s else
  let s := s.bump Fld.tilePhysFences p 1
  match s.pickSpare with
  | some sp =>
    let s := s.stopAssayOf sp
    s.addCarry { logical := t, spare := sp, since := s.tally, ctlLost := ctlLost, rowsOut := rowsOut, rotation := false }
  | none =>
    -- the part ends while the tile is still bound, so that its operations return
    match (s.tile p).itemId with
    | some id => ((s.failPart id stPoison).tileFailed t p)
    | none => s.tileFailed t p

/-- A residue mismatch located in the facet array with no spare: the array is fenced, and the tile resumes on the strand (R390). -/
def State.arrayFence (s : State) (t p : Nat) : State :=
  let s := (s.setFlag Fld.tilePhysArrayFenced p true).setFlag Fld.tileArrayStrand t true
  let s := match (s.tile p).itemId with
    | some id => (s.addStatus id stReplayed).addNote id noteStrand
    | none => s
  s.journal recTile (s.tileRecord p)

/-- A failed check at a commit point (R386, R387, R390, R394): counted, and handled by where it is located; `array`: the operation runs in the facet
array, which alone can hold the mismatch. A mismatch on the strand is a tile fault (log 169, DEDUCED). -/
def State.checkFailed (s : State) (t p : Nat) (chk : Check) (array : Bool) : State :=
  let s := s.bump (if chk.isParity then Fld.tileStoreErrPathPar else Fld.tileRasResidue) t 1
  if chk.inArray && array && !s.flag Fld.tileArrayStrand t && s.pickSpare.isNone then s.arrayFence t p else s.tileFault t p false false

/-- A unit of storage that holds an uncorrectable word is marked, and reads as zeros (R391, R392, R394). The units are numbered (log 26, DESIGN CHOICE): the
scratchpad's 131,072 units of 32 bytes, the vector buffers' 4,096, the 2,048 row groups of the accumulators, the active and the shadow
bank, the 8 mask registers, the 16 entries of the table store, the angle table, and 1,024 units of 32 bytes for each locket slot (log 43, DEDUCED). -/
def Tile.markUnit (t : Tile) (u : Nat) : Tile :=
  if u < 131072 then { t with spad := Mem.zero t.spad (32 * u) 32, spadMarks := Tab.set false t.spadMarks u true }
  else if u < 135168 then
    { t with vbuf := Mem.zero t.vbuf (32 * (u - 131072)) 32, vbufMarks := Tab.set false t.vbufMarks (u - 131072) true }
  else if u < 137216 then
    { t with acc := Tab.clear t.acc (128 * (u - 135168)) 128, accMarks := Tab.set false t.accMarks (u - 135168) true }
  else if u = 137216 then { t with active := { t.active with elems := [], scales := [], mark := true } }
  else if u = 137217 then { t with shadow := { t.shadow with elems := [], scales := [], mark := true } }
  else if u < 137226 then
    { t with masks := Tab.set (BitVec.allOnes 8192) t.masks (u - 137218) 0, maskMarks := Tab.set false t.maskMarks (u - 137218) true }
  else if u < 137242 then
    { t with tableStore := Tab.clear t.tableStore (256 * (u - 137226)) 256, tableMarks := Tab.set false t.tableMarks (u - 137226) true }
  else if u = 137242 then { t with angle := [], angleMark := true }
  else if u < 139291 then
    let k := (u - 137243) / 1024
    let v := (u - 137243) % 1024
    let x := Tab.get Slot.empty t.locket k
    { t with locket := Tab.set Slot.empty t.locket k { x with image := Mem.zero x.image (32 * v) 32, marks := Tab.set false x.marks v true } }
  else t

/-- The units marked. -/
def Tile.markUnits (t : Tile) (us : List Nat) : Tile := us.foldl Tile.markUnit t

/-! ## Words that the storage codes find wrong (R385, R393, R394) -/

/-- The bank of a row (R170): banks are interleaved by row. -/
def bankOf (row : Nat) : Nat := row % 64

/-- The spare rows of a bank that have been taken (R173). -/
def Tile.bankSpares (t : Tile) (bank : Nat) : Nat := (t.rowSpare.filter (fun e => bankOf e.1 == bank)).foldl (fun a e => max a e.2) 0

/-- A row moves to the next spare row of its bank, whose cells have needed no correction (R393) (log 170, DEDUCED); the Bool: the bank has none left. -/
def State.spareRow (s : State) (p row : Nat) : State × Bool :=
  let tl := s.tile p
  let n := tl.bankSpares (bankOf row)
  if n < 4 then
    ((s.setTile p { tl with rowSpare := Tab.set 0 tl.rowSpare row (n + 1), rowCorr := Tab.set 0 tl.rowCorr row 0 }).journal recRowSpare
      [p, bankOf row, row / 64, n], false)
  else (s, true)

/-- Wrong words count (R393, R394). -/
def State.countWords (s : State) (t : Nat) (ws : List WordErr) : State :=
  let n (spad double : Bool) : Nat := (ws.filter (fun w => w.spad == spad && w.double == double)).length
  (((s.bump Fld.tileRasSpCe t (n true false)).bump Fld.tileRasSpUe t (n true true)).bump Fld.tileStoreErrStCe t (n false false)).bump
    Fld.tileStoreErrStUe t (n false true)

/-- The tile after a wrong word: a correction is remembered, and the unit of an uncorrectable word is marked. -/
def Tile.noteWord (t : Tile) (w : WordErr) : Tile :=
  if w.double then (if w.control then t else t.markUnit w.unit)
  else if w.spad then { t with rowCorr := Tab.modify 0 t.rowCorr (w.unit / 8) (· + 1) }
  else { t with wordCorr := Tab.modify 0 t.wordCorr w.key (· + 1) }

/-- The scratchpad rows that wrong words send to a spare row: those with an uncorrectable word or more than 16 corrections. -/
def Tile.rowsToSpare (t : Tile) (ws : List WordErr) : List Nat :=
  (((ws.filter WordErr.spad).map (fun w => w.unit / 8)).eraseDups).filter (fun r =>
    16 < Tab.get 0 t.rowCorr r || ws.any (fun w => w.spad && w.double && w.unit / 8 == r))

/-- What the codes of a tile's storage find while it is read (R393, R394): counts, marks, spare rows, and the tile fault that follows as
(control state lost, bank out of spare rows): an uncorrectable word of the control state, a word with more than 16 corrections, a bank that has
no spare row left. -/
def State.findWords (s : State) (t p : Nat) (ws : List WordErr) : State × Option (Bool × Bool) :=
  let ws := ws.filter (fun w => w.unit ≤ controlUnit)
  if ws.isEmpty then (s, none)
  else
    let tl := ws.foldl Tile.noteWord (s.tile p)
    let r := (tl.rowsToSpare ws).foldl (fun (acc : State × Bool) row => let x := acc.1.spareRow p row; (x.1, acc.2 || x.2))
      ((s.countWords t ws).setTile p tl, false)
    let ctl := ws.any (fun w => w.control && w.double)
    (r.1, if ctl || r.2 || ws.any (fun w => !w.spad && 16 < Tab.get 0 tl.wordCorr w.key) then some (ctl, r.2) else none)

/-- The tile fault that wrong words cause. -/
def State.wordFault (s : State) (t p : Nat) (f : Option (Bool × Bool)) : State :=
  match f with
  | some (ctl, rows) => s.tileFault t p ctl rows
  | none => s

/-- The instruction of logical tile `t` has issued between two states: its physical tile has numbered an operation. -/
def issuedOn (s s' : State) (p : Nat) : Bool := (s.tile p).nextOp != (s'.tile p).nextOp

/-- An instruction runs with what the codes of the storage it reads find (R394). An uncorrectable word is marked before the instruction reads it, and
lost control state keeps it from running; an instruction that does not issue reads nothing (log 42, DEDUCED). -/
def onStore (t : Nat) (chk : Check) (s : State) (k : Check → State → Out State) : Out State :=
  match chk, s.physOf t with
  | .words ws, some p =>
    let r := s.findWords t p ws
    match k .pass r.1 with
    | .next s1 =>
      if !issuedOn r.1 s1 p then .next s
      else if r.2.any Prod.fst then .next (r.1.wordFault t p r.2)
      else .next (s1.wordFault t p r.2)
    | o => o
  | c, _ => k c s

end Sys2Proof.Machine
end

