-- ==== Sys2Proof/Machine/Numerics.lean ====
section
/-! DEFINITION. Number formats and arithmetic (chapter 5): decoding and encoding of every format, exact values, the one
rounding, product groups, W34 addition, conversion of rows, compensated pairs, stochastic rounding, histogram bins. -/

namespace Sys2Proof.Machine

/-! ## Formats (R116-R118) -/

/-- A format: exponent and fraction bits, bias, exponent and significand of the largest finite value, whether it has
subnormals, an infinity and a NaN. -/
structure Fmt where
  ebits : Nat
  mbits : Nat
  bias : Nat
  emax : Int
  maxSig : Nat
  subnormals : Bool
  infinity : Bool
  nan : Bool
  deriving DecidableEq, Repr

/-- MXFP8 E4M3: its largest value is 1.75 x 2^8. -/
def Fmt.e4m3 : Fmt := ⟨4, 3, 7, 8, 14, true, false, true⟩
/-- MXFP8 E5M2. -/
def Fmt.e5m2 : Fmt := ⟨5, 2, 15, 15, 7, true, true, true⟩
/-- MXFP6 E2M3. -/
def Fmt.e2m3 : Fmt := ⟨2, 3, 1, 2, 15, true, false, false⟩
/-- MXFP6 E3M2. -/
def Fmt.e3m2 : Fmt := ⟨3, 2, 3, 4, 7, true, false, false⟩
/-- MXFP4 E2M1. -/
def Fmt.e2m1 : Fmt := ⟨2, 1, 1, 2, 3, true, false, false⟩
/-- BF16. -/
def Fmt.bf16 : Fmt := ⟨8, 7, 127, 127, 255, true, true, true⟩
/-- FP32. -/
def Fmt.fp32 : Fmt := ⟨8, 23, 127, 127, 16777215, true, true, true⟩
/-- W34. -/
def Fmt.w34 : Fmt := ⟨10, 23, 511, 511, 16777215, false, true, true⟩

/-- The element formats by code (R103). -/
def Fmt.ofCode : Nat → Fmt
  | 0 => .e4m3 | 1 => .e5m2 | 2 => .e2m3 | 3 => .e3m2 | 4 => .e2m1 | 5 => .bf16 | 6 => .fp32 | _ => .w34

/-- Bytes per 32 elements, by format code (R103). -/
def fmtBytes : Nat → Nat
  | 0 => 32 | 1 => 32 | 2 => 24 | 3 => 24 | 4 => 16 | 5 => 64 | 6 => 128 | _ => 256

/-- Bits per element as stored, by format code (R103, R118). -/
def fmtBits : Nat → Nat
  | 0 => 8 | 1 => 8 | 2 => 6 | 3 => 6 | 4 => 4 | 5 => 16 | 6 => 32 | _ => 64

/-- An MX format: it carries scales. -/
def fmtScaled (c : Nat) : Bool := c < 5

/-! ## Exact values -/

/-- A value: NaN, an infinity, or ±m x 2^x. -/
inductive Val where
  | nan
  | inf (neg : Bool)
  | fin (neg : Bool) (m : Nat) (x : Int)
  deriving DecidableEq, Repr

/-- +0. -/
def Val.zero : Val := .fin false 0 0

/-- The value with its sign changed. -/
def Val.neg : Val → Val
  | .nan => .nan
  | .inf n => .inf (!n)
  | .fin n m x => .fin (!n) m x

/-- The value without its sign. -/
def Val.abs : Val → Val
  | .nan => .nan
  | .inf _ => .inf false
  | .fin _ m x => .fin false m x

/-- Finite. -/
def Val.isFin : Val → Bool
  | .fin _ _ _ => true
  | _ => false

/-- ±0. -/
def Val.isZero : Val → Bool
  | .fin _ m _ => m == 0
  | _ => false

/-- The signed significand. -/
def signed (neg : Bool) (m : Nat) : Int := if neg then -(m : Int) else m

/-- The exact sum of two finite values on the finer grid; a zero sum is +0 unless both are −0 (R121, R122). -/
def Val.add : Val → Val → Val
  | .nan, _ => .nan
  | _, .nan => .nan
  | .inf a, .inf b => if a = b then .inf a else .nan
  | .inf a, _ => .inf a
  | _, .inf b => .inf b
  | .fin n1 m1 x1, .fin n2 m2 x2 =>
    let x := min x1 x2
    let v := signed n1 m1 * 2 ^ (x1 - x).toNat + signed n2 m2 * 2 ^ (x2 - x).toNat
    if v = 0 then .fin (n1 && n2 && m1 == 0 && m2 == 0) 0 0
    else .fin (v < 0) v.natAbs x

/-- The exact product. R120 gives no case of two infinities: their product is infinity of its sign (log 176, DESIGN CHOICE). -/
def Val.mul : Val → Val → Val
  | .nan, _ => .nan
  | _, .nan => .nan
  | .inf a, .inf b => .inf (a != b)
  | .inf a, .fin n m _ => if m = 0 then .nan else .inf (a != n)
  | .fin n m _, .inf b => if m = 0 then .nan else .inf (b != n)
  | .fin n1 m1 x1, .fin n2 m2 x2 => .fin (n1 != n2) (m1 * m2) (x1 + x2)

/-- Comparison of two finite or infinite values: a < b. NaN compares false. -/
def Val.lt : Val → Val → Bool
  | .nan, _ => false
  | _, .nan => false
  | .inf a, .inf b => a && !b
  | .inf a, .fin _ _ _ => a
  | .fin _ _ _, .inf b => !b
  | .fin n1 m1 x1, .fin n2 m2 x2 =>
    let x := min x1 x2
    signed n1 m1 * 2 ^ (x1 - x).toNat < signed n2 m2 * 2 ^ (x2 - x).toNat

/-- Equality as numbers (±0 are equal). NaN compares false. -/
def Val.eq (a b : Val) : Bool := a != .nan && b != .nan && !Val.lt a b && !Val.lt b a

/-- The exponent of the leading bit of a non-zero magnitude. -/
def leadExp (m : Nat) (x : Int) : Int := (Nat.log2 m : Int) + x

/-! ## Rounding -/

/-- The significand of m x 2^x, with a remainder below 2^x when `sticky`, on the grid 2^u: to nearest with ties to even, or
with the random word r (R131). -/
def roundSig (m : Nat) (x u : Int) (sticky : Bool) (rnd : Option Nat) : Nat :=
  if u ≤ x then m * 2 ^ (x - u).toNat
  else
    let d := (u - x).toNat
    let q := m / 2 ^ d
    let rem := m % 2 ^ d
    match rnd with
    | none =>
      let half := 2 ^ (d - 1)
      if half < rem || (rem == half && (sticky || q % 2 == 1)) then q + 1 else q
    | some r => if r < rem * 2 ^ 24 / 2 ^ d then q + 1 else q

/-- The grid exponent of a format at a leading exponent. -/
def Fmt.grid (f : Fmt) (lead : Int) : Int := max (lead - f.mbits) (1 - f.bias - f.mbits)

/-- The code of an unsigned finite value with significand q on the grid 2^u (q ≤ 2^(M+1)). -/
def Fmt.pack (f : Fmt) (q : Nat) (u : Int) : Nat :=
  if q < 2 ^ f.mbits then q
  else if q = 2 ^ (f.mbits + 1) then (u + 1 + f.bias + f.mbits).toNat * 2 ^ f.mbits
  else (u + f.bias + f.mbits).toNat * 2 ^ f.mbits + (q - 2 ^ f.mbits)

/-- The code of the largest finite magnitude. -/
def Fmt.maxCode (f : Fmt) : Nat := f.pack f.maxSig (f.emax - f.mbits)

/-- The sign bit of a format. -/
def Fmt.signBit (f : Fmt) (neg : Bool) : Nat := if neg then 2 ^ (f.ebits + f.mbits) else 0

/-- The canonical NaN of a format that has one (R118). -/
def Fmt.nanCode (f : Fmt) : Nat := (2 ^ f.ebits - 1) * 2 ^ f.mbits + 2 ^ (f.mbits - 1)

/-- The code of infinity. -/
def Fmt.infCode (f : Fmt) (neg : Bool) : Nat := f.signBit neg + (2 ^ f.ebits - 1) * 2 ^ f.mbits

/-- A finite exact magnitude rounded once and encoded, and whether it saturated (R122, R125, R126, R131). -/
def Fmt.encodeMag (f : Fmt) (neg : Bool) (m : Nat) (x : Int) (sticky : Bool) (rnd : Option Nat) : Nat × Bool :=
  if m = 0 then (f.signBit neg, false)
  else
    let lead := leadExp m x
    if !f.subnormals && lead < 1 - f.bias then (f.signBit neg, false)
    else
      let u := f.grid lead
      let q := roundSig m x u sticky rnd
      let above := f.maxSig * 2 ^ (f.emax - f.mbits - u).toNat < q * 2 ^ (u - (f.emax - f.mbits)).toNat
      if above then (f.signBit neg + f.maxCode, true) else (f.signBit neg + f.pack q u, false)

/-- A value rounded once and encoded (R125); the formats without infinity or NaN never see one (R127). -/
def Fmt.encode (f : Fmt) (v : Val) (rnd : Option Nat := none) : Nat × Bool :=
  match v with
  | .nan => (f.nanCode, false)
  | .inf n => (f.infCode n, false)
  | .fin n m x => f.encodeMag n m x false rnd

/-- Decoding (R116, R117, R118). -/
def Fmt.decode (f : Fmt) (code : Nat) : Val :=
  let neg := bitOf code (f.ebits + f.mbits)
  let e := bitsOf code f.mbits f.ebits
  let fr := bitsOf code 0 f.mbits
  let top := 2 ^ f.ebits - 1
  if e = top && f.infinity && fr = 0 then .inf neg
  else if e = top && f.infinity then .nan
  else if e = top && f.nan && fr = 2 ^ f.mbits - 1 then .nan
  else if e = 0 && !f.subnormals then .fin neg 0 0
  else if e = 0 then .fin neg fr (1 - f.bias - f.mbits)
  else .fin neg (2 ^ f.mbits + fr) ((e : Int) - f.bias - f.mbits)

/-- FP32 of a value. -/
def toF32 (v : Val) : Word32 := BitVec.ofNat 32 (Fmt.fp32.encode v).1
/-- The value of an FP32 code. -/
def ofF32 (w : Word32) : Val := Fmt.fp32.decode w.toNat
/-- W34 of a value. -/
def toW34 (v : Val) (rnd : Option Nat := none) : W34 := BitVec.ofNat 34 (Fmt.w34.encode v rnd).1
/-- The value of a W34 code. -/
def ofW34 (w : W34) : Val := Fmt.w34.decode w.toNat

/-- W34 addition: one rounding of the exact sum (R121, R122). -/
def w34Add (a b : W34) (rnd : Option Nat := none) : W34 := toW34 (Val.add (ofW34 a) (ofW34 b)) rnd

/-- W34 addition, and whether it saturated (R121, R122). -/
def w34AddSat (a b : W34) : W34 × Bool := let r := Fmt.w34.encode (Val.add (ofW34 a) (ofW34 b)); (BitVec.ofNat 34 r.1, r.2)

/-- The sign, exponent and fraction of a quotient of magnitudes with at least 70 significant bits, and whether it is
inexact; the divisor is not zero. -/
def divMag (m1 : Nat) (x1 : Int) (m2 : Nat) (x2 : Int) : Nat × Int × Bool :=
  let k := 70 + Nat.log2 m2
  (m1 * 2 ^ k / m2, x1 - x2 - k, m1 * 2 ^ k % m2 != 0)

/-- The integer square root by bits from 2^k down. -/
def isqrtGo (n : Nat) : Nat → Nat → Nat
  | 0, r => if (r + 1) * (r + 1) ≤ n then r + 1 else r
  | k + 1, r => isqrtGo n k (if (r + 2 ^ (k + 1)) * (r + 2 ^ (k + 1)) ≤ n then r + 2 ^ (k + 1) else r)

/-- The integer square root. -/
def isqrt (n : Nat) : Nat := isqrtGo n (Nat.log2 n / 2 + 1) 0

/-- The square root of a magnitude with at least 70 significant bits, and whether it is inexact. -/
def sqrtMag (m : Nat) (x : Int) : Nat × Int × Bool :=
  let m1 := if x % 2 = 0 then m else 2 * m
  let x1 := if x % 2 = 0 then x else x - 1
  let n := m1 * 2 ^ 140
  let r := isqrt n
  (r, (x1 - 140) / 2, r * r != n)

/-! ## Element rows -/

/-- Element `e` of a little-endian field of elements of a format code (R103). -/
def elemAt (bytes : Nat) (fmt e : Nat) : Nat := bitsOf bytes (fmtBits fmt * e) (fmtBits fmt)

/-- The codes of the 32 elements of a field of bytes. -/
def rowCodes (bytes : List Byte) (fmt : Nat) : List Nat :=
  let v := leNat bytes
  (List.range 32).map (elemAt v fmt)

/-- The bytes of 32 element codes. -/
def rowBytes (codes : List Nat) (fmt : Nat) : List Byte :=
  leBytes (fmtBytes fmt) (codes.foldr (fun c a => c + 2 ^ fmtBits fmt * a) 0)

/-! ## Product groups (R119, R120) -/

/-- One product: its value as an exact product, the scales applied (each an E8M0 byte; 0xFF is NaN). -/
def productVal (a b : Val) (ca cb : Nat) : Val :=
  if ca = 0xFF || cb = 0xFF then .nan
  else match Val.mul a b with
    | .fin n m x => .fin n m (x + ((ca : Int) - 127) + ((cb : Int) - 127))
    | v => v

/-- The value of a group of products of a streamed format with M_a fraction bits and a stationary one with M_b. -/
def groupValue (ma mb : Nat) (ca cb : Nat) (as bs : List Val) : Val :=
  let w : Int := (ma + 1 : Nat) + (mb + 1 : Nat)
  let ps := (List.zip as bs).map (fun p => productVal p.1 p.2 ca cb)
  if ps.any (· == .nan) || (ps.contains (.inf true) && ps.contains (.inf false)) then .nan
  else if ps.contains (.inf true) then .inf true
  else if ps.contains (.inf false) then .inf false
  else
    let es := ps.filterMap (fun p => match p with
      | .fin _ m x => if m = 0 then none else some (x + w)
      | _ => none)
    match es with
    | [] => .zero
    | e :: r =>
      let g := (r.foldl max e) - w - 3
      let v := ps.foldl (fun acc p => match p with
        | .fin n m x => acc + signed n (if g ≤ x then m * 2 ^ (x - g).toNat else m / 2 ^ (g - x).toNat)
        | _ => acc) (0 : Int)
      if v = 0 then .zero else .fin (v < 0) v.natAbs g

/-! ## Conversion of rows (R126, R127), pairs (R128) -/

/-- What a conversion of values counted: zeros, saturations, non-finite values (R135). -/
structure ConvStats where
  zeros : Nat
  sats : Nat
  nonfinite : Nat
  deriving DecidableEq, Repr

/-- No count. -/
def ConvStats.none : ConvStats := ⟨0, 0, 0⟩

/-- The counts of two conversions together. -/
def ConvStats.add (a b : ConvStats) : ConvStats := ⟨a.zeros + b.zeros, a.sats + b.sats, a.nonfinite + b.nonfinite⟩

/-- The exponent X of an MX row's scale: floor(log2 amax) − emax, clamped; 0 when amax = 0 (R126). -/
def mxExp (f : Fmt) (vs : List Val) : Int :=
  let ls := vs.filterMap (fun v => match v with
    | .fin _ m x => if m = 0 then none else some (leadExp m x)
    | _ => none)
  match ls with
  | [] => 0
  | e :: r => max (-127) (min 127 (r.foldl max e - f.emax))

/-- One value of an MX row in the element format. -/
def mxElem (f : Fmt) (x : Int) (v : Val) : Nat × Bool :=
  match v with
  | .fin n m e => f.encodeMag n m (e - x) false none
  | _ => (0, false)

/-- A row of values to an MX format: the scale byte, the element codes and the counts (R126, R127) (log 211, DESIGN CHOICE). -/
def mxRow (f : Fmt) (vs : List Val) : Nat × List Nat × ConvStats :=
  let bad := (vs.filter (fun v => !v.isFin)).length
  if bad ≠ 0 then (0xFF, vs.map (fun _ => 0), ⟨0, 0, bad⟩)
  else
    let x := mxExp f vs
    let es := vs.map (mxElem f x)
    ((x + 127).toNat, es.map Prod.fst,
      ⟨(es.filter (fun e => e.1 % 2 ^ (f.ebits + f.mbits) == 0)).length, (es.filter Prod.snd).length, 0⟩)

/-- The code is ±0 in its format. -/
def Fmt.zeroCode (f : Fmt) (code : Nat) : Bool := code % 2 ^ (f.ebits + f.mbits) == 0

/-- One value to BF16, FP32 or W34, with its counts (R125, R135). -/
def convOne (f : Fmt) (v : Val) : Nat × ConvStats :=
  let r := f.encode v
  (r.1, ⟨if v.isFin && f.zeroCode r.1 then 1 else 0, if r.2 then 1 else 0, if v.isFin then 0 else 1⟩)

/-- The compensated pair of a value (R128): hi, lo. -/
def convPair (f : Fmt) (v : Val) : Nat × Nat :=
  let hi := (f.encode v).1
  match f.decode hi with
  | .fin n m x => (hi, (f.encode (Val.add v (.fin (!n) m x))).1)
  | _ => (hi, 0)

/-! ## Stochastic rounding (R130, R132) -/

/-- The random word of R130. -/
def randomWord (t p i : Nat) : Nat :=
  let w := 2 ^ 64
  let z := (t * 2 ^ 32 + p + (i + 1) * 0x9E3779B97F4A7C15) % w
  let z := (Nat.xor z (z / 2 ^ 30)) * 0xBF58476D1CE4E5B9 % w
  let z := (Nat.xor z (z / 2 ^ 27)) * 0x94D049BB133111EB % w
  let z := Nat.xor z (z / 2 ^ 31)
  z / 2 ^ 40

/-! ## Histogram (R134) -/

/-- The bin of a W34 value. -/
def histBin (w : W34) : Nat :=
  let ef := bitsOf w.toNat 23 10
  if ef = 0 then 0
  else if ef = 1023 then 31
  else
    let e : Int := (ef : Int) - 511
    if e < -20 then 1 else if 8 ≤ e then 30 else (e + 22).toNat

end Sys2Proof.Machine
end

