-- ==== Sys2Proof/Machine/Operands.lean ====
section
/-! DEFINITION. Instruction fields, scratchpad operands and their effective addresses (R93, R94, R191), scratchpad bytes and marks (R175, R391,
R392), and the ranges of R98. -/

namespace Sys2Proof.Machine

/-! ## Instruction fields (R93) -/

/-- The 32 bytes of an instruction, decoded. -/
def Insn.ofBytes (b : List Byte) : Insn :=
  { opc := b.getD 0 0, flags := b.getD 1 0, waitSync := b.getD 2 0, signalSync := b.getD 3 0,
    args := BitVec.ofNat 32 (leAt b 4 4), opd0 := BitVec.ofNat 64 (leAt b 8 8), opd1 := BitVec.ofNat 64 (leAt b 16 8),
    opd2 := BitVec.ofNat 64 (leAt b 24 8) }

/-- Bits [lo + n - 1 : lo] of `ARGS`. -/
def Insn.arg (i : Insn) (lo n : Nat) : Nat := bitsOf i.args.toNat lo n
/-- Bit `b` of `ARGS`. -/
def Insn.argBit (i : Insn) (b : Nat) : Bool := bitOf i.args.toNat b
/-- `WAIT`. -/
def Insn.wait (i : Insn) : Bool := bitOf i.flags.toNat 0
/-- `SIGNAL`. -/
def Insn.signal (i : Insn) : Bool := bitOf i.flags.toNat 1
/-- `ORDER_FREE`. -/
def Insn.orderFree (i : Insn) : Bool := bitOf i.flags.toNat 2
/-- `WAIT_SYNC`. -/
def Insn.waitObj (i : Insn) : Nat := i.waitSync.toNat % 128
/-- `SIGNAL_SYNC`. -/
def Insn.signalObj (i : Insn) : Nat := i.signalSync.toNat % 128

/-! The opcodes (R95, R144, R193, R209, R220-R223, R228, R284, R314). -/
def opNop : Nat := 0x00
def opEnd : Nat := 0x01
def opLoop : Nat := 0x02
def opFence : Nat := 0x03
def opLdb : Nat := 0x10
def opMma : Nat := 0x11
def opDrain : Nat := 0x12
def opSwap : Nat := 0x13
def opRed : Nat := 0x14
def opScfg : Nat := 0x80
def opSsig : Nat := 0x81
def opBcfg : Nat := 0x84
def opBwaitd : Nat := 0x85
def opBwaits : Nat := 0x86
def opBpush : Nat := 0x87
def opBpop : Nat := 0x88
def opRsend : Nat := 0xB0
def opRland : Nat := 0xB1

/-! ## Operands (R94, R191) -/

/-- `BASE` of a scratchpad operand. -/
def opdBase (o : Word64) : Nat := bitsOf o.toNat 0 22

/-- A signed 16-bit stride. -/
def stride16 (v : Nat) : Int := if v < 0x8000 then v else (v : Int) - 0x10000

/-- The current iteration of the enclosing loop at a level. -/
def iterOf (loops : List LoopFrame) (level : Nat) : Nat :=
  match loops.find? (fun f => f.level == level) with
  | some f => f.iter
  | none => 0

/-- The effective address before any wrapping (R94). -/
def rawEa (loops : List LoopFrame) (o : Word64) : Int :=
  let v := o.toNat
  let a := if bitOf v 28 then stride16 (bitsOf v 32 16) * iterOf loops (bitsOf v 22 3) else 0
  let b := if bitOf v 29 then stride16 (bitsOf v 48 16) * iterOf loops (bitsOf v 25 3) else 0
  (opdBase o : Int) + 16 * (a + b)

/-- The bangle region (base, size) that contains an offset, if any (R191). -/
def Tile.regionOf (t : Tile) (a : Nat) : Option (Nat × Nat) :=
  (t.bangles.find? (fun e => match e.2 with
    | some b => within a 1 b.base b.size
    | none => false)).bind (fun e => e.2.map (fun b => (b.base, b.size)))

/-- The bangle in whose region an address lies. -/
def Tile.regionIndex (t : Tile) (a : Nat) : Option Nat :=
  (t.bangles.find? (fun e => match e.2 with
    | some b => within a 1 b.base b.size
    | none => false)).map Prod.fst

/-- An operand in use: its effective address after wrapping and the bangle region it lies in. -/
structure Opnd where
  ea : Nat
  region : Option (Nat × Nat)
  deriving DecidableEq, Repr

/-- An operand at the current iterations. -/
def Tile.opnd (t : Tile) (o : Word64) : Opnd :=
  let a := rawEa t.loops o
  match t.regionOf (opdBase o) with
  | some (b, n) => ⟨b + ((a - b) % (n : Int)).toNat, some (b, n)⟩
  | none => ⟨a.toNat, none⟩

/-- Operand `k` (0-2) of an operation in flight, at the effective address it had at issue. -/
def Op.opnd (x : Op) (t : Tile) (k : Nat) : Opnd :=
  match k with
  | 0 => ⟨x.ea0, t.regionOf (opdBase x.insn.opd0)⟩
  | 1 => ⟨x.ea1, t.regionOf (opdBase x.insn.opd1)⟩
  | _ => ⟨x.ea2, t.regionOf (opdBase x.insn.opd2)⟩

/-- The spans of a wrapped range: it starts at offset `d` of the region and is cut where it runs past the region's end. -/
def wrapSegs (b n : Nat) : Nat → Nat → Nat → List (Nat × Nat)
  | 0, _, _ => []
  | f + 1, d, len =>
    if len = 0 || n = 0 then []
    else if d + len ≤ n then [(b + d, len)]
    else (b + d, n - d) :: wrapSegs b n f 0 (len - (n - d))

/-- The byte spans of `n` bytes from offset `k` of an operand (R191). -/
def Opnd.segs (o : Opnd) (k n : Nat) : List (Nat × Nat) :=
  if n = 0 then []
  else match o.region with
    | none => [(o.ea + k, n)]
    | some (b, sz) => wrapSegs b sz (n / (max sz 1) + 2) ((o.ea - b + k) % sz) n

/-! ## Scratchpad bytes and marks -/

/-- The 32-byte units of a span. -/
def unitsOf (a n : Nat) : List Nat := if n = 0 then [] else (List.range ((a + n - 1) / 32 - a / 32 + 1)).map (· + a / 32)

/-- The rows of a span. -/
def rowsOf (a n : Nat) : List Nat := if n = 0 then [] else (List.range ((a + n - 1) / 256 - a / 256 + 1)).map (· + a / 256)

/-- The bytes of spans of the scratchpad. -/
def Tile.readSegs (t : Tile) (segs : List (Nat × Nat)) : List Byte := segs.flatMap (fun g => Mem.readRange t.spad g.1 g.2)

/-- Some unit of the spans is marked. -/
def Tile.markedSegs (t : Tile) (segs : List (Nat × Nat)) : Bool :=
  segs.any (fun g => (unitsOf g.1 g.2).any (fun u => Tab.get false t.spadMarks u))

/-- Bytes written to the scratchpad at one address: rows they touch are no longer fresh (R175). -/
def Tile.writeAt (t : Tile) (a : Nat) (bytes : List Byte) : Tile :=
  { t with spad := Mem.writeRange t.spad a bytes,
           live := (rowsOf a bytes.length).foldl (fun m r => Tab.set false m r true) t.live }

/-- Bytes written over spans. -/
def Tile.writeSegs (t : Tile) : List (Nat × Nat) → List Byte → Tile
  | [], _ => t
  | g :: r, bytes => Tile.writeSegs (t.writeAt g.1 (bytes.take g.2)) r (bytes.drop g.2)

/-- The marks after a write of spans: marked data marks every unit it touches; unmarked data clears the units it writes
wholly (R392). -/
def markSpan (marks : Tab Bool) (a n : Nat) (mark : Bool) : Tab Bool :=
  (unitsOf a n).foldl (fun m u =>
    if mark then Tab.set false m u true
    else if within (32 * u) 32 a n then Tab.set false m u false
    else m) marks

/-- The marks of several spans. -/
def Tile.markSegs (t : Tile) (segs : List (Nat × Nat)) (mark : Bool) : Tile :=
  { t with spadMarks := segs.foldl (fun m g => markSpan m g.1 g.2 mark) t.spadMarks }

/-- Bytes of an operand. -/
def Tile.sread (t : Tile) (o : Opnd) (k n : Nat) : List Byte := t.readSegs (o.segs k n)

/-- Bytes written at an operand. -/
def Tile.sput (t : Tile) (o : Opnd) (k : Nat) (bytes : List Byte) : Tile := t.writeSegs (o.segs k bytes.length) bytes

/-- Bytes written at an operand, with the marks of a whole instruction's write. -/
def Tile.swrite (t : Tile) (o : Opnd) (k : Nat) (bytes : List Byte) (mark : Bool) : Tile :=
  (t.sput o k bytes).markSegs (o.segs k bytes.length) mark

/-- Rows `a` to below `b` set fresh: they read as zero and lose their marks (R175). -/
def Tile.freshRows (t : Tile) (a b : Nat) : Tile :=
  { t with spad := Mem.zero t.spad (256 * a) (256 * (b - a)), live := Tab.clear t.live a (b - a),
           spadMarks := Tab.clear t.spadMarks (8 * a) (8 * (b - a)) }

/-- Rows of the scratchpad: 4 MiB of 256 bytes (R170). -/
def spadRows : Nat := 16384

/-- Every row fresh. -/
def Tile.freshAll (t : Tile) : Tile := { t with spad := [], live := [], spadMarks := [] }

/-! ## Ranges (R98) -/

/-- The span from the lowest to the highest byte of some spans. -/
def hull (gs : List (Nat × Nat)) : List (Nat × Nat) :=
  match gs.filter (fun g => g.2 != 0) with
  | [] => []
  | g :: r =>
    let lo := r.foldl (fun a x => min a x.1) g.1
    [(lo, r.foldl (fun a x => max a (x.1 + x.2)) (g.1 + g.2) - lo)]

/-- What an operand of which an instruction touches some pieces, given as (offset, length), adds to its range: from the lowest to the highest byte touched. -/
def Opnd.range (o : Opnd) (pieces : List (Nat × Nat)) : List (Nat × Nat) := (hull pieces).flatMap (fun g => o.segs g.1 g.2)

/-- The range of an instruction that reads and writes the given spans, each part with whether it writes it (R98): one span from the lowest to the highest byte that
it touches outside bangles, and the spans of its operands in bangles as R191 gives them (log 171, DEDUCED). -/
def Tile.ranges (t : Tile) (reads writes : List (Nat × Nat)) : List ((Nat × Nat) × Bool) :=
  let inside (g : Nat × Nat) : Bool := (t.regionOf g.1).isSome
  let plain (gs : List (Nat × Nat)) : List (Nat × Nat) := gs.filter (fun g => !inside g)
  (hull (plain (reads ++ writes))).map (fun g => (g, (plain writes).any (fun g => g.2 != 0))) ++
    (reads.filter inside).map (fun g => (g, false)) ++ (writes.filter inside).map (fun g => (g, true))

/-- The range of an operation in flight. -/
def Op.ranges (x : Op) (t : Tile) : List ((Nat × Nat) × Bool) := t.ranges x.reads x.writes

/-- An operation in flight conflicts with an instruction that reads and writes the given spans: a byte lies in both ranges, and one of the two writes that
range (R98). -/
def Op.conflicts (x : Op) (t : Tile) (reads writes : List (Nat × Nat)) : Bool :=
  (x.ranges t).any (fun a => (t.ranges reads writes).any (fun b => (a.2 || b.2) && overlaps a.1.1 a.1.2 b.1.1 b.1.2))

/-- The distinct scratchpad rows that spans touch. -/
def rowCount (segs : List (Nat × Nat)) : Nat := ((segs.flatMap (fun g => rowsOf g.1 g.2)).eraseDups).length

end Sys2Proof.Machine
end

