-- ==== Sys2Proof/Machine/Sequencer.lean ====
section
/-! DEFINITION. The sequencer, sync objects and bangles (R92-R101, R184-R194): issue, completion, waits, loops and the end of a part. -/

namespace Sys2Proof.Machine

/-! ## Position and loops (R97) -/

/-- After an instruction: a loop whose body has ended returns to its start or is left, the next outer loop with it. -/
def settle : List LoopFrame → Nat → List LoopFrame × Nat
  | [], pos => ([], pos)
  | f :: r, pos =>
    if pos = f.start + f.body then
      if f.iter + 1 < f.trip then ({ f with iter := f.iter + 1 } :: r, f.start) else settle r pos
    else (f :: r, pos)

/-- The tile with its stream position moved to `pos`, loops settled, and no wait satisfied for the next instruction. -/
def Tile.goto (t : Tile) (pos : Nat) : Tile :=
  let r := settle t.loops pos
  { t with loops := r.1, pos := r.2, released := false, held := false }

/-- The tile past its current instruction. -/
def Tile.advance (t : Tile) : Tile := t.goto (t.pos + 1)

/-- The next instruction of the stream. -/
def Tile.next (t : Tile) : Option Insn := if t.ended then none else t.stream[t.pos]?

/-- The prologue has issued (R189): the next instruction is no `BCFG` and no `SCFG`. -/
def Tile.prologueDone (t : Tile) : Bool :=
  match t.stream[t.pos]? with
  | some i => i.opc.toNat != opBcfg && i.opc.toNat != opScfg
  | none => true

/-- Issue is not held: fewer than 512 operations in flight, and the wait of the next instruction is satisfied (R96, R100).
`RED` issues without waiting (R112). -/
def Tile.mayIssue (t : Tile) (i : Insn) : Bool :=
  t.part.isSome && t.inFlight < 512 && (!i.wait || t.released || i.opc.toNat == opRed)

/-! ## Sync objects (R184-R186) -/

/-- `COUNT` of an object. -/
def Tile.count (t : Tile) (o : Nat) : Nat := Tab.get 0 t.syncCount o
/-- `THRESH` of an object. -/
def Tile.thresh (t : Tile) (o : Nat) : Nat := Tab.get 1 t.syncThresh o
/-- A signal of `n` fits in the object's `COUNT` (R185). -/
def Tile.signalFits (t : Tile) (o n : Nat) : Bool := t.count o + n < 2 ^ 32
/-- A signal of `n`. -/
def Tile.signalled (t : Tile) (o n : Nat) : Tile := { t with syncCount := Tab.set 0 t.syncCount o (t.count o + n) }

/-- A signal of `n` to object `o` of logical tile `t`, counted in the audit (R185, R400). -/
def State.signal (s : State) (t p o n : Nat) : State := (s.setTile p ((s.tile p).signalled o n)).issue 8 t n

/-- The object's wait is satisfied (R186). -/
def Tile.waitReady (t : Tile) (o : Nat) : Bool := t.thresh o ≤ t.count o

/-- The step of the tile's sequencer (R33). -/
def Tile.stepped (t : Tile) (tally : Nat) : Tile := { t with lastStep := tally }

/-- The signal of an instruction that completes fits, when it makes one. -/
def Tile.signalRoom (t : Tile) (i : Insn) : Bool := !i.signal || t.signalFits i.signalObj 1

/-- The room for the signals of an `SSIG`: its own N, and 1 for `SIGNAL`. -/
def Tile.ssigRoom (t : Tile) (i : Insn) : Bool :=
  t.signalFits (i.arg 0 7) (i.arg 8 16) && ((t.signalled (i.arg 0 7) (i.arg 8 16)).signalRoom i)

/-- An operation that waits for room for its signal: one that is done, or that signals as it takes effect (R185). -/
def Tile.wantsRoom (t : Tile) (x : Op) : Bool :=
  let c := x.insn.opc.toNat
  if c = opSsig then !t.ssigRoom x.insn else (x.done || c == opLdb || c == opBpush || c == opBpop) && !t.signalRoom x.insn

/-- A satisfied wait consumes `THRESH` (R186). An operation that was waiting for room for its signal may wait no longer, so the watchdog starts
again (R33, R185). -/
def State.consumeWait (s : State) (t p o : Nat) : State :=
  let tl := s.tile p
  let tl := if tl.ops.any tl.wantsRoom then tl.stepped s.tally else tl
  (s.setTile p { tl with syncCount := Tab.set 0 tl.syncCount o (tl.count o - tl.thresh o) }).give 8 t (tl.thresh o)

/-! ## Issue and completion -/

/-- `TILE_SEQ.PEAK` follows `INFLIGHT` (R100). -/
def State.peak (s : State) (t p : Nat) : State :=
  s.setFld Fld.tileSeqPeak t (max (s.fld Fld.tileSeqPeak t) (s.tile p).inFlight)

/-- An operation in flight made from the next instruction at the current iterations; every instruction takes at least one issue step (R146). -/
def Tile.mkOp (t : Tile) (i : Insn) (count : Nat) (reads writes : List (Nat × Nat)) (occ lat : Nat) : Op :=
  { id := t.nextOp, insn := i, ea0 := (t.opnd i.opd0).ea, ea1 := (t.opnd i.opd1).ea, ea2 := (t.opnd i.opd2).ea, count := count,
    ordinal := t.ordinal, group := 0, source := none, added := [], ready := [], swapped := false, done := false,
    reads := reads, writes := writes, marked := false, occupancy := max 1 occ, latency := lat }

/-- The instruction class of an opcode (log 187, DESIGN CHOICE). -/
def Insn.evClass (i : Insn) : Nat := i.opc.toNat / 16

/-- An instruction issues and its operation is in flight; its issue steps count (R427). -/
def State.issueOp (s : State) (t p : Nat) (x : Op) : State :=
  let tl := s.tile p
  let tl := { (tl.advance.stepped s.tally) with ops := tl.ops ++ [x], nextOp := tl.nextOp + 1 }
  (((s.setTile p tl).issue 10 t 1).peak t p).tileEvent p x.insn.evClass x.occupancy

/-- The signal at completion (R96). -/
def State.completionSignal (s : State) (t p : Nat) (i : Insn) : State :=
  if i.signal then s.signal t p i.signalObj 1 else s

/-- An instruction that completes in its issue step: it issues, completes and signals. -/
def State.issueInstant (s : State) (t p : Nat) (i : Insn) (f : Tile → Tile) : State :=
  let tl := s.tile p
  ((((s.setTile p (f (tl.advance.stepped s.tally))).issue 10 t 1).give 10 t 1).completionSignal t p i).tileEvent p i.evClass 1

/-- The next instruction of logical tile `t` has opcode `opc` and is not held (R96); otherwise nothing changes. -/
def onInsn (t opc : Nat) (s : State) (k : Nat → Tile → Insn → State) : Out State :=
  onTile t s fun p tl =>
    match tl.next with
    | none => .next s
    | some i => .next (if i.opc.toNat = opc && tl.mayIssue i then k p tl i else s)

/-- An entry of the DMA program joins its engine's queue. -/
def Tile.giveEngine (t : Tile) (e : DmaEntry) : Tile :=
  let d := Tab.get Dma.idle t.dma e.engine
  { t with dma := Tab.set Dma.idle t.dma e.engine { d with entries := d.entries ++ [e] } }

/-- Entries of the DMA program that are handed out: as many as leave at most 512 operations in flight (R99, R100) (log 48, DEDUCED). -/
def State.handOut (s : State) (t p : Nat) : State :=
  let tl := s.tile p
  let n := min tl.dmaRest.length (512 - tl.inFlight)
  ((s.setTile p { ((tl.dmaRest.take n).foldl Tile.giveEngine tl) with dmaRest := tl.dmaRest.drop n }).issue 10 t n).peak t p

/-- An operation leaves the in-flight set and signals; entries that waited to be handed out follow. -/
def State.completeOp (s : State) (t p : Nat) (x : Op) : State :=
  let tl := s.tile p
  (((s.setTile p { (tl.stepped s.tally) with ops := tl.ops.filter (fun y => y.id != x.id) }).give 10 t 1).completionSignal t p
    x.insn).handOut t p

/-- An operation in flight changed. -/
def Tile.modOp (t : Tile) (id : Nat) (f : Op → Op) : Tile :=
  { t with ops := t.ops.map (fun y => if y.id = id then f y else y) }

/-- The item of the part on a tile. -/
def State.partItem (s : State) (tl : Tile) : Option Item := tl.part.bind (fun q => s.item q.item)

/-- Parameter word `w` of the launch on a tile. -/
def State.paramWord (s : State) (tl : Tile) (w : Nat) : Nat :=
  match s.partItem tl with
  | some i => i.word w
  | none => 0

/-! ## The commands of the sequencer -/

/-- `NOP` (R95). -/
def execNop (t : Nat) (s : State) : Out State :=
  onInsn t opNop s fun p tl i => if tl.signalRoom i then s.issueInstant t p i id else s

/-- `END` (R92, R96, R101): the stream has issued; `END` is no operation in flight, and completes in its issue step. -/
def execEndStream (t : Nat) (s : State) : Out State :=
  onInsn t opEnd s fun p tl i =>
    if tl.signalRoom i then ((s.setTile p { (tl.stepped s.tally) with ended := true, released := false }).completionSignal t p i).tileEvent p i.evClass 1 else s

/-- The trip count of a `LOOP` (R97). -/
def State.tripOf (s : State) (tl : Tile) (i : Insn) : Nat :=
  if i.argBit 3 then s.paramWord tl (i.arg 16 16) else i.arg 16 16

/-- The tile after a `LOOP`: a trip count of zero skips the body (R97). -/
def Tile.enterLoop (tl : Tile) (i : Insn) (trip : Nat) : Tile :=
  if trip = 0 then tl.goto (tl.pos + 1 + i.arg 4 12)
  else { tl with
    loops := { level := i.arg 0 3, start := tl.pos + 1, body := i.arg 4 12, trip := trip, iter := 0 } :: tl.loops,
    pos := tl.pos + 1, released := false }

/-- `LOOP` (R96, R97): it completes in its issue step. -/
def execLoop (t : Nat) (s : State) : Out State :=
  onInsn t opLoop s fun p tl i =>
    if tl.signalRoom i then ((s.setTile p ((tl.stepped s.tally).enterLoop i (s.tripOf tl i))).completionSignal t p i).tileEvent p i.evClass 1 else s

/-- `FENCE` (R96): it issues only after every earlier instruction has completed. -/
def execFence (t : Nat) (s : State) : Out State :=
  onInsn t opFence s fun p tl i => if tl.ops.isEmpty && tl.signalRoom i then s.issueInstant t p i id else s

/-- The operation at the front of the stream path (R104): the first `MMA`, `RED` or `SWAP` not yet done. -/
def Tile.streamFront (t : Tile) : Option Op :=
  t.ops.find? (fun x => !x.done && (x.insn.opc.toNat == opMma || x.insn.opc.toNat == opRed || x.insn.opc.toNat == opSwap))

/-- The number of sources of a `RED`. -/
def redSources (i : Insn) : Nat := i.arg 4 4 + 1

/-- Source `n` of a `RED` may wait now (R112): in ascending order, or in any order with `ORDER_FREE`. -/
def Op.redWaits (x : Op) (n : Nat) : Bool :=
  x.insn.opc.toNat == opRed && x.insn.wait && n < redSources x.insn && !x.ready.contains n &&
    (x.insn.orderFree || (List.range n).all (fun m => x.ready.contains m))

/-- `WAIT_SATISFIED` (R186, R187): the waiter's object has reached its threshold. -/
def execWaitSatisfied (t : Nat) (w : Waiter) (s : State) : Out State :=
  onUnit w.wf "waiter" <|
  onTile t s fun p tl =>
    match w with
    | .instr =>
      match tl.next with
      | none => .next s
      | some i =>
        if i.wait && !tl.released && i.opc.toNat != opRed && tl.waitReady i.waitObj then
          let s := s.consumeWait t p i.waitObj
          .next (s.setTile p { (s.tile p) with released := true })
        else .next s
    | .dma e =>
      let d := Tab.get Dma.idle tl.dma e
      match d.entries with
      | [] => .next s
      | en :: _ =>
        if en.waits && !d.released && !d.started && tl.prologueDone && tl.waitReady en.waitSync then
          let s := s.consumeWait t p en.waitSync
          let tl := s.tile p
          .next (s.setTile p { tl with dma := Tab.set Dma.idle tl.dma e { d with released := true } })
        else .next s
    | .redSource n =>
      match tl.streamFront with
      | none => .next s
      | some x =>
        if x.redWaits n && tl.waitReady (x.insn.waitObj + n) then
          let s := s.consumeWait t p (x.insn.waitObj + n)
          .next (s.setTile p (((s.tile p).stepped s.tally).modOp x.id (fun y => { y with ready := n :: y.ready })))
        else .next s

/-- A part that can end: `END` has issued, no operation and no DMA entry is left (R101). -/
def Tile.partOver (t : Tile) : Bool := t.part.isSome && t.ended && t.inFlight == 0 && t.dmaRest.isEmpty

/-- `TILE_PART_END` (R101, R188, R211, R322): the tile's part ends; when it was the launch's last, every result is visible. A
transfer that matched no landing posted during the launch fails the launch part. -/
def execTilePartEnd (t : Nat) (s : State) : Out State :=
  onTile t s fun p tl =>
    match tl.part with
    | none => .next s
    | some q =>
      if !tl.partOver then .next s
      else if s.landings.any (fun l => l.item == q.item && l.tile == t && l.counted < l.acked.length) then
        .next (s.failPart q.item stCollFailed)
      else
        let s := s.endPart t p
        let s := s.modItem q.item (fun i => { i with launch := i.launch.map (fun l => { l with tiles := l.tiles.erase q.boardTile }) })
        .next (match s.item q.item with
          | some i =>
            if i.phase = .running && (i.launch.map (fun l => l.tiles.isEmpty)) == some true then s.endItem q.item else s
          | none => s)

/-! ## Sync and bangle instructions (R193) -/

/-- `SCFG`: sets the object's `THRESH`. -/
def execScfg (t : Nat) (s : State) : Out State :=
  onInsn t opScfg s fun p tl i =>
    if tl.signalRoom i then
      s.issueInstant t p i (fun tl => { tl with syncThresh := Tab.set 1 tl.syncThresh (i.arg 0 7) (i.arg 8 16) })
    else s

/-- `SSIG` issues: it stays in flight until it takes effect. -/
def execSsig (t : Nat) (s : State) : Out State :=
  onInsn t opSsig s fun p tl i => s.issueOp t p (tl.mkOp i 0 [] [] 1 0)

/-- The operation that may take effect because every earlier instruction has completed: the first in flight, with a given
opcode. -/
def Tile.headOp (t : Tile) (opc : Nat) : Option Op :=
  match t.ops with
  | [] => none
  | x :: _ => if x.insn.opc.toNat = opc then some x else none

/-- `SSIG_TAKE_EFFECT` (R185, R193): N is added once every earlier instruction has completed, and the operation completes. -/
def execSsigTakeEffect (t : Nat) (s : State) : Out State :=
  onTile t s fun p tl =>
    match tl.headOp opSsig with
    | none => .next s
    | some x =>
      .next (if tl.ssigRoom x.insn then (s.signal t p (x.insn.arg 0 7) (x.insn.arg 8 16)).completeOp t p x else s)

/-- The bangle of a configured index. -/
def Tile.bangle (t : Tile) (b : Nat) : Option Bangle := Tab.get none t.bangles b

/-- A bangle replaced. -/
def Tile.setBangle (t : Tile) (b : Nat) (v : Bangle) : Tile := { t with bangles := Tab.set none t.bangles b (some v) }

/-- `BCFG` (R190): the region, producer and consumer, with `HEAD` = `TAIL` = `FILL` = 0. -/
def execBcfg (t : Nat) (s : State) : Out State :=
  onInsn t opBcfg s fun p tl i =>
    if tl.signalRoom i then
      (s.issueInstant t p i (fun tl => tl.setBangle (i.arg 0 4)
        { base := opdBase i.opd0, size := 256 * i.arg 12 15, prod := i.arg 4 4, cons := i.arg 8 4, head := 0, tail := 0, fill := 0 })).auditFresh
        9 (16 * t + i.arg 0 4)
    else s

/-- The condition of a bangle instruction: `FILL` ≥ `BYTES` for data, `SIZE` − `FILL` ≥ `BYTES` for space (R193). -/
def Bangle.ready (b : Bangle) (data : Bool) (n : Nat) : Bool := if data then n ≤ b.fill else n ≤ b.size - b.fill

/-- The bangle condition of an instruction. -/
def Tile.bangleReady (t : Tile) (i : Insn) (data : Bool) : Bool :=
  match t.bangle (i.arg 0 4) with
  | some b => b.ready data (i.arg 4 23)
  | none => false

/-- A `BWAITD` or `BWAITS` issues; while its condition does not hold, it holds issue (R193). -/
def State.bangleWait (s : State) (t p : Nat) (tl : Tile) (i : Insn) (data : Bool) : State :=
  if tl.held || !tl.signalRoom i then s
  else if tl.bangleReady i data then s.issueInstant t p i id
  else s.setTile p { (tl.stepped s.tally) with held := true }

/-- `BWAITD`. -/
def execBwaitd (t : Nat) (s : State) : Out State := onInsn t opBwaitd s fun p tl i => s.bangleWait t p tl i true

/-- `BWAITS`. -/
def execBwaits (t : Nat) (s : State) : Out State := onInsn t opBwaits s fun p tl i => s.bangleWait t p tl i false

/-- `BANGLE_WAIT_SATISFIED` (R193, R194): the condition of a held `BWAITD` or `BWAITS` holds, and issue resumes. -/
def execBangleWaitSatisfied (t : Nat) (s : State) : Out State :=
  onTile t s fun p tl =>
    match tl.next with
    | none => .next s
    | some i =>
      let data := i.opc.toNat == opBwaitd
      .next (if tl.held && (data || i.opc.toNat == opBwaits) && tl.bangleReady i data && tl.signalRoom i then s.issueInstant t p i id
        else s)

/-- `BPUSH` issues a request. -/
def execBpush (t : Nat) (s : State) : Out State :=
  onInsn t opBpush s fun p tl i => s.issueOp t p (tl.mkOp i 0 [] [] 1 0)

/-- `BPOP` issues a request. -/
def execBpop (t : Nat) (s : State) : Out State :=
  onInsn t opBpop s fun p tl i => s.issueOp t p (tl.mkOp i 0 [] [] 1 0)

/-- A producer advances `TAIL` (R192, R193). -/
def Bangle.push (b : Bangle) (n : Nat) : Bangle := { b with tail := (b.tail + n) % b.size, fill := b.fill + n }
/-- A consumer advances `HEAD`. -/
def Bangle.pop (b : Bangle) (n : Nat) : Bangle := { b with head := (b.head + n) % b.size, fill := b.fill - n }

/-- `BPUSH_TAKE_EFFECT` (R193): every earlier instruction has completed and there is space. -/
def execBpushTakeEffect (t : Nat) (s : State) : Out State :=
  onTile t s fun p tl =>
    match tl.headOp opBpush with
    | none => .next s
    | some x =>
      let n := x.insn.arg 4 23
      match tl.bangle (x.insn.arg 0 4) with
      | none => .next s
      | some b =>
        .next (if b.ready false n && tl.signalRoom x.insn then
          ((s.setTile p (tl.setBangle (x.insn.arg 0 4) (b.push n))).issue 9 (16 * t + x.insn.arg 0 4) n).completeOp t p x
        else s)

/-- `BPOP_TAKE_EFFECT` (R193): every earlier instruction has completed and there is fill. -/
def execBpopTakeEffect (t : Nat) (s : State) : Out State :=
  onTile t s fun p tl =>
    match tl.headOp opBpop with
    | none => .next s
    | some x =>
      let n := x.insn.arg 4 23
      match tl.bangle (x.insn.arg 0 4) with
      | none => .next s
      | some b =>
        .next (if b.ready true n && tl.signalRoom x.insn then
          ((s.setTile p (tl.setBangle (x.insn.arg 0 4) (b.pop n))).give 9 (16 * t + x.insn.arg 0 4) n).completeOp t p x
        else s)

end Sys2Proof.Machine
end

