-- ==== Sys2Proof/Machine/FacetArray.lean ====
section
/-! DEFINITION. The facet array and the strand (R102-R115): `LDB`, `SWAP`, `MMA`, `RED`, `DRAIN`, the commit of a row group with its checks,
marks, statistics and stochastic rounding, and `INSTRUCTION_COMPLETE`. The strand gives the same bits (R114); only occupancy differs. -/

namespace Sys2Proof.Machine

/-! ## Issue of engine instructions (R98) -/

/-- The instruction overlaps no earlier engine instruction in flight where one of the two writes (R98). -/
def Tile.clearOf (t : Tile) (reads writes : List (Nat × Nat)) : Bool := !t.ops.any (fun x => x.conflicts t reads writes)

/-- An engine instruction issues as an operation in flight, unless R98 holds it. -/
def State.issueEngine (s : State) (t p : Nat) (tl : Tile) (i : Insn) (count : Nat) (reads writes : List (Nat × Nat)) (occ lat : Nat) :
    State :=
  if tl.clearOf reads writes then s.issueOp t p (tl.mkOp i count reads writes occ lat) else s

/-! ## Fields -/

/-- `ACC` of an `MMA`, `DRAIN` or `RED`. -/
def Insn.acc (i : Insn) : Nat := i.arg 0 3
/-- The row groups of an `MMA` or `RED`. -/
def Insn.streamGroups (i : Insn) : Nat := i.arg 8 8 + 1
/-- The first row group of an `MMA` or `RED`. -/
def Insn.streamFirst (i : Insn) : Nat := i.arg 16 8
/-- The row groups of a `DRAIN`. -/
def Insn.drainGroups (i : Insn) : Nat := i.arg 10 8 + 1
/-- The first row group of a `DRAIN`. -/
def Insn.drainFirst (i : Insn) : Nat := i.arg 18 8
/-- The format code of the sources of a `RED`. -/
def Insn.redFmt (i : Insn) : Nat := if i.argBit 3 then 7 else 6
/-- An instruction of the stream path that adds into an accumulator. -/
def Insn.adds (i : Insn) : Bool := i.opc.toNat == opMma || i.opc.toNat == opRed
/-- An `MMA` with its `SWAP` flag, or a `SWAP`. -/
def Insn.swaps (i : Insn) : Bool := i.opc.toNat == opSwap || (i.opc.toNat == opMma && i.argBit 7)

/-! ## LDB -/

/-- `LDB` (R105, R113). A failed check of its paths leaves it unissued (R394). -/
def execLdb (t : Nat) (chk : Check) (s : State) : Out State :=
  onStore t chk s fun chk s =>
  onInsn t opLdb s fun p tl i =>
    if chk.failed then s.checkFailed t p chk true
    else
      let fmt := i.arg 0 3
      let el := (tl.opnd i.opd0).segs 0 (32 * fmtBytes fmt)
      let sc := if fmt = 5 then [] else (tl.opnd i.opd1).segs 0 32
      s.issueEngine t p tl i 0 (el ++ sc) [] (rowCount el + rowCount sc) 2

/-- The shadow bank loaded by an `LDB` (R105). -/
def Tile.loadShadow (t : Tile) (x : Op) : Tile :=
  let fmt := x.insn.arg 0 3
  let e := fmtBytes fmt
  let cols := (List.range 32).flatMap (fun n => rowCodes (t.sread (x.opnd t 0) (n * e) e) fmt)
  let elems := cols.foldl (fun (acc : Tab Nat × Nat) c => (Tab.set 0 acc.1 acc.2 c, acc.2 + 1)) (([], 0) : Tab Nat × Nat)
  let scales : Tab Nat := if fmt = 5 then []
    else ((t.sread (x.opnd t 1) 0 32).foldl (fun (acc : Tab Nat × Nat) b => (Tab.set 0x7F acc.1 acc.2 b.toNat, acc.2 + 1))
      (([], 0) : Tab Nat × Nat)).1
  { t with shadow := { fmt := fmt, elems := elems.1, scales := scales, mark := t.markedSegs x.reads } }

/-- The operations in flight before one. -/
def Tile.before (t : Tile) (x : Op) : List Op := t.ops.takeWhile (fun y => y.id != x.id)

/-- An `LDB` may load the shadow bank (R104, R106): it is the first in flight on the load path, and every earlier swap has
exchanged (log 37, DEDUCED). -/
def Tile.loadReady (t : Tile) (x : Op) : Bool :=
  (t.before x).all (fun y => y.insn.opc.toNat != opLdb && (!y.insn.swaps || y.swapped))

/-! ## SWAP -/

/-- `SWAP` issues a request (R106). -/
def execSwap (t : Nat) (s : State) : Out State :=
  onInsn t opSwap s fun p tl i => s.issueOp t p (tl.mkOp i 0 [] [] 0 0)

/-- `SWAP_EXCHANGE` (R104, R106): the swap at the front of the stream path exchanges the banks once every earlier `LDB` has
completed. -/
def execSwapExchange (t : Nat) (s : State) : Out State :=
  onTile t s fun p tl =>
    match tl.streamFront with
    | none => .next s
    | some x =>
      .next (if x.insn.swaps && !x.swapped && (tl.before x).all (fun y => y.insn.opc.toNat != opLdb) then
        let tl := { tl with active := tl.shadow, shadow := tl.active }
        s.setTile p (tl.modOp x.id (fun y => { y with swapped := true, done := y.insn.opc.toNat == opSwap }))
      else s)

/-! ## MMA, RED and DRAIN issue -/

/-- The occupancy of an `MMA` (R113, R114). -/
def mmaOccupancy (g afmt bfmt : Nat) (strand : Bool) : Nat :=
  let bf := afmt = 5 ∨ bfmt = 5
  if strand then (if bf then 64 * g else 16 * g)
  else if bf then 4 * g
  else if afmt = 4 ∧ bfmt = 4 then ceilDiv g 2
  else g

/-- The bank that an `MMA` issued now will use: the shadow when the swaps pending before it make an odd number. -/
def Tile.bankFor (t : Tile) (i : Insn) : Bank :=
  let n := (t.ops.filter (fun y => y.insn.swaps && !y.swapped)).length + (if i.argBit 7 then 1 else 0)
  if n % 2 = 0 then t.active else t.shadow

/-- `MMA` (R107, R113, R132): it takes the next ordinal. -/
def execMma (t : Nat) (s : State) : Out State :=
  onInsn t opMma s fun p tl i =>
    let afmt := i.arg 3 3
    let m := 4 * i.streamGroups
    let reads := (tl.opnd i.opd0).segs 0 (m * fmtBytes afmt) ++ (if afmt = 5 then [] else (tl.opnd i.opd1).segs 0 m)
    if !tl.clearOf reads [] then s
    else
      let occ := mmaOccupancy i.streamGroups afmt (tl.bankFor i).fmt (s.flag Fld.tileArrayStrand t)
      let s := s.issueOp t p (tl.mkOp i 0 reads [] occ 14)
      s.setTile p { (s.tile p) with ordinal := tl.ordinal + 1 }

/-- The bytes of one source of a `RED` (R112). -/
def Insn.redBytes (i : Insn) : Nat := 4 * i.streamGroups * fmtBytes i.redFmt

/-- `RED` (R112, R113, R132). With `WAIT` = 0 every source is ready at issue. -/
def execRed (t : Nat) (s : State) : Out State :=
  onInsn t opRed s fun p tl i =>
    let n := redSources i
    let reads := (tl.opnd i.opd0).segs 0 (n * i.redBytes)
    if !tl.clearOf reads [] then s
    else
      let x := tl.mkOp i 0 reads [] (n * i.streamGroups * (if i.redFmt = 7 then 4 else 2)) 4
      let s := s.issueOp t p { x with ready := if i.wait then [] else List.range n }
      s.setTile p { (s.tile p) with ordinal := tl.ordinal + 1 }

/-- The 256-byte rows of an output row group (R113). -/
def drainDepth (i : Insn) : Nat := max 1 (ceilDiv (4 * fmtBytes (i.arg 3 4)) 256) * (if i.argBit 8 then 2 else 1)

/-- The spans a `DRAIN` writes as output: rows, and the scales or lo parts (R111). -/
def Insn.drainOut (i : Insn) (o0 o1 : Opnd) (groups : Nat) : List (Nat × Nat) × List (Nat × Nat) :=
  let fmt := i.arg 3 4
  (o0.segs 0 (4 * groups * fmtBytes fmt),
   if fmtScaled fmt then o1.segs 0 (4 * groups) else if i.argBit 8 then o1.segs 0 (4 * groups * fmtBytes fmt) else [])

/-- `DRAIN` (R111, R113). -/
def execDrain (t : Nat) (s : State) : Out State :=
  onInsn t opDrain s fun p tl i =>
    let o := i.drainOut (tl.opnd i.opd0) (tl.opnd i.opd1) i.drainGroups
    let rec_ := if i.argBit 9 then (tl.opnd i.opd2).segs 0 256 else []
    s.issueEngine t p tl i 0 rec_ (o.1 ++ o.2 ++ rec_) (i.drainGroups * drainDepth i) 6

/-! ## Start conditions (R104) -/

/-- An operation that names an accumulator may start: every earlier instruction on the other path that names it has
completed. -/
def Tile.accFree (t : Tile) (x : Op) : Bool :=
  let other (y : Op) : Bool := if x.insn.adds then y.insn.opc.toNat == opDrain else y.insn.adds
  (t.before x).all (fun y => !(other y && y.insn.acc == x.insn.acc))

/-- The drain that runs: the first not done. -/
def Tile.drainFront (t : Tile) : Option Op := t.ops.find? (fun x => !x.done && x.insn.opc.toNat == opDrain)

/-! ## Row groups -/

/-- The key of an accumulator element. -/
def accIdx (acc row n : Nat) : Nat := 32 * (1024 * acc + row) + n

/-- The stochastic word of an accumulator element, when the accumulator is privileged (R129, R132). -/
def privWord (q : Part) (acc ordinal row n : Nat) : Option Nat :=
  if bitOf q.privAcc acc then
    some (randomWord (0x80000000 + (q.boardTile % 256) * 8 + acc) (ordinal % 2 ^ 32) (32 * row + n))
  else none

/-- One addition into an accumulator element (R107, R112, R121). -/
def Tile.accAdd (t : Tile) (q : Part) (x : Op) (row n : Nat) (zero : Bool) (v : Val) : Tile :=
  let k := accIdx x.insn.acc row n
  let base := if zero then Val.zero else ofW34 (Tab.get 0 t.acc k)
  { t with acc := Tab.set 0 t.acc k (toW34 (Val.add base v) (privWord q x.insn.acc x.ordinal row n)) }

/-- The values and the scale of column n of a bank. -/
def Bank.column (b : Bank) (n : Nat) : List Val × Nat :=
  ((List.range 32).map (fun k => (Fmt.ofCode b.fmt).decode (Tab.get 0 b.elems (k + 32 * n))),
   if b.fmt = 5 then 0x7F else Tab.get 0x7F b.scales n)

/-- The values and the scale of streamed row m of an `MMA` (R107). -/
def Tile.streamRow (t : Tile) (x : Op) (m : Nat) : List Val × Nat :=
  let f := x.insn.arg 3 3
  let e := fmtBytes f
  ((rowCodes (t.sread (x.opnd t 0) (m * e) e) f).map (Fmt.ofCode f).decode,
   if f = 5 then 0x7F else leNat (t.sread (x.opnd t 1) m 1))

/-- Row group g of an `MMA` (R107, R108). -/
def Tile.mmaGroup (t : Tile) (q : Part) (x : Op) (g : Nat) : Tile :=
  let ma := (Fmt.ofCode (x.insn.arg 3 3)).mbits
  let mb := (Fmt.ofCode t.active.fmt).mbits
  let cols := (List.range 32).map t.active.column
  (List.range 4).foldl (fun t' r =>
    let a := t.streamRow x (4 * g + r)
    let row := 4 * (x.insn.streamFirst + g) + r
    (cols.foldl (fun (acc : Tile × Nat) c =>
      (acc.1.accAdd q x row acc.2 (x.insn.argBit 6) (groupValue ma mb a.2 c.2 a.1 c.1), acc.2 + 1)) (t', 0)).1) t

/-- Row group g of source s of a `RED` (R112, R123). -/
def Tile.redGroup (t : Tile) (q : Part) (x : Op) (src g : Nat) : Tile :=
  let f := x.insn.redFmt
  let e := fmtBytes f
  (List.range 4).foldl (fun t' r =>
    let vs := (rowCodes (t.sread (x.opnd t 0) (src * x.insn.redBytes + (4 * g + r) * e) e) f).map
      (fun c => (Fmt.ofCode f).decode (c % 2 ^ (if f = 7 then 34 else 32)))
    (vs.foldl (fun (acc : Tile × Nat) v =>
      (acc.1.accAdd q x (4 * (x.insn.streamFirst + g) + r) acc.2 false v, acc.2 + 1)) (t', 0)).1) t

/-- The key of a row group's mark. -/
def accMarkIdx (acc g : Nat) : Nat := 256 * acc + g

/-- Some of the row groups is marked. -/
def Tile.accMarked (t : Tile) (acc first n : Nat) : Bool :=
  (List.range n).any (fun g => Tab.get false t.accMarks (accMarkIdx acc (first + g)))

/-- Row groups marked or cleared. -/
def Tile.markAcc (t : Tile) (acc first n : Nat) (mark : Bool) : Tile :=
  { t with accMarks := (List.range n).foldl (fun m g => Tab.set false m (accMarkIdx acc (first + g)) mark) t.accMarks }

/-! ## Contention (R52) -/

/-- The launch on a tile saw a counter of R52 advance (R54). -/
def State.race (s : State) (t : Nat) (q : Option Part) (n : Nat) : State :=
  if n = 0 then s
  else
    let s := s.bump Fld.tileTdccRace t n
    match q with
    | some q => s.addNote q.item noteTdcc
    | none => s

/-- The distinct rows of spans. -/
def spanRows (segs : List (Nat × Nat)) : List Nat := (segs.flatMap (fun g => rowsOf g.1 g.2)).eraseDups

/-- A transfer of a DMA engine is pending on a row, from its start until it has finished, and one of it and the access is a write (R52). -/
def Tile.meetsDma (t : Tile) (row : Nat) (write : Bool) : Bool :=
  t.dma.any (fun e => match e.2.entries, e.2.moving with
    | en :: _, some m => (write || en.op == 0 || en.op == 2) && m.segs.any (fun g => overlaps g.1 g.2 (256 * row) 256)
    | _, _ => false)

/-- The objects that a `RLAND` signals when its landing is complete: `SYNC`, and its own (R96, R322). -/
def Insn.landSignals (i : Insn) : List Nat := bitsOf i.opd1.toNat 0 7 :: (if i.signal then [i.signalObj] else [])

/-- An access of the incoming side is pending on a row of a tile: a transfer of a DMA engine, or an arrival, which writes (R52). -/
def State.meetsIncoming (s : State) (t : Nat) (tl : Tile) (row : Nat) (write : Bool) : Bool :=
  tl.meetsDma row write || s.arriving.any (fun a => a.tile == t && overlaps a.off a.packet.payload.length (256 * row) 256)

/-- The contentions of the row accesses of an engine instruction, each counted when it is granted: one for each row read and each row
written that a pending access of the incoming side meets (R52, R182) (log 35, DEDUCED). -/
def State.engineRaces (s : State) (t : Nat) (tl : Tile) (reads writes : List (Nat × Nat)) : Nat :=
  ((spanRows reads).filter (fun r => s.meetsIncoming t tl r false)).length + ((spanRows writes).filter (fun r => s.meetsIncoming t tl r true)).length

/-- An engine instruction on a tile makes row accesses: they count (R427), and so do the contentions they meet. -/
def State.engineAccess (s : State) (t p : Nat) (tl : Tile) (reads writes : List (Nat × Nat)) : State :=
  (s.race t tl.part (s.engineRaces t tl reads writes)).tileEvent p evRow ((spanRows reads).length + (spanRows writes).length)

/-! ## Commits -/

/-- What a commit leaves when row groups ran on the strand (R115, R375): `STRAND_GROUPS` counts those of `MMA` and `RED`. -/
def State.onStrand (s : State) (t item : Nat) (counts : Bool) : State :=
  if s.flag Fld.tileArrayStrand t then
    (if counts then s.bump Fld.tileArrayStrandGroups t 1 else s).addNote item noteStrand
  else s

/-- The scratchpad bytes of row group g of an `MMA`: its rows, and their scales (R107). -/
def Tile.mmaSpans (t : Tile) (x : Op) (g : Nat) : List (Nat × Nat) :=
  let f := x.insn.arg 3 3
  (x.opnd t 0).segs (4 * g * fmtBytes f) (4 * fmtBytes f) ++ (if f = 5 then [] else (x.opnd t 1).segs (4 * g) 4)

/-- The next row group of the `MMA` at the front commits (R107, R110, R392). -/
def State.commitMma (s : State) (t p : Nat) (tl : Tile) (q : Part) (x : Op) : State :=
  let i := x.insn
  let g := x.group
  let s := s.engineAccess t p tl (tl.mmaSpans x g) []
  let m := x.marked || tl.markedSegs x.reads || tl.active.mark ||
    (!i.argBit 6 && tl.accMarked i.acc i.streamFirst i.streamGroups)
  let tl := tl.mmaGroup q x g
  let tl := if m then tl.markAcc i.acc i.streamFirst (g + 1) true else tl.markAcc i.acc (i.streamFirst + g) 1 false
  let tl := tl.modOp x.id (fun y => { y with group := g + 1, marked := m, done := g + 1 == i.streamGroups })
  ((s.setTile p (tl.stepped s.tally)).consumed q.item m).onStrand t q.item true

/-- The next row group of the source that the `RED` at the front is adding commits (R110, R112). On the strand a row group counts once, with the
source added last (log 172, DESIGN CHOICE). -/
def State.commitRed (s : State) (t p : Nat) (tl : Tile) (q : Part) (x : Op) (src : Nat) : State :=
  let i := x.insn
  let g := x.group
  let s := s.engineAccess t p tl ((x.opnd tl 0).segs (src * i.redBytes + 4 * g * fmtBytes i.redFmt) (4 * fmtBytes i.redFmt)) []
  let m := x.marked || tl.markedSegs ((x.opnd tl 0).segs (src * i.redBytes) i.redBytes) ||
    tl.accMarked i.acc i.streamFirst i.streamGroups
  let tl := tl.redGroup q x src g
  let tl := if m then tl.markAcc i.acc i.streamFirst (if x.added.isEmpty then g + 1 else i.streamGroups) true else tl
  let last := g + 1 == i.streamGroups
  let all := x.added.length + 1 == redSources i
  let tl := tl.modOp x.id (fun y => { y with
    group := if last then 0 else g + 1, marked := m,
    source := if last then none else some src, added := if last then src :: y.added else y.added, done := last && all })
  ((s.setTile p (tl.stepped s.tally)).consumed q.item m).onStrand t q.item all

/-- One drained row: the codes of its row, its scale or lo part, and its counts (R111, R125-R128, R135). -/
def drainRow (fmt : Nat) (pair : Bool) (ws : List W34) : List Byte × List Byte × ConvStats :=
  let vs := ws.map ofW34
  if fmtScaled fmt then
    let r := mxRow (Fmt.ofCode fmt) vs
    (rowBytes r.2.1 fmt, leBytes 1 r.1, r.2.2)
  else
    let f := Fmt.ofCode fmt
    let cs := vs.map (convOne f)
    (rowBytes (cs.map Prod.fst) fmt,
     if pair then rowBytes (vs.map (fun v => (convPair f v).2)) fmt else [],
     cs.foldl (fun a c => a.add c.2) ConvStats.none)

/-- The counts of a drained row group: COUNT, ZEROS, SATS, NONFINITE and the 32 bins (R134, R135). -/
def drainCounts (st : ConvStats) (ws : List W34) : List Nat :=
  [ws.length, st.zeros, st.sats, st.nonfinite] ++ (List.range 32).map (fun b => (ws.filter (fun w => histBin w == b)).length)

/-- Offset of a field of the statistics record (R136): the four counts, then the bins. -/
def statOffset (k : Nat) : Nat := if k < 4 then 4 * k else 0x20 + 4 * (k - 4)

/-- The counts added into the statistics record (R136). -/
def Tile.addStats (t : Tile) (o : Opnd) (counts : List Nat) : Tile :=
  (counts.foldl (fun (acc : Tile × Nat) n =>
    (acc.1.sput o (statOffset acc.2) (leBytes 4 (satAdd 32 (leNat (acc.1.sread o (statOffset acc.2) 4)) n)), acc.2 + 1)) (t, 0)).1

/-- The tile registers of R137. -/
def State.addHealth (s : State) (t : Nat) (counts : List Nat) : State :=
  let s := (((s.bump Fld.tileHealthCount t (counts.getD 0 0)).bump Fld.tileHealthZeros t (counts.getD 1 0)).bump
    Fld.tileHealthSats t (counts.getD 2 0)).bump Fld.tileHealthNonfinite t (counts.getD 3 0)
  (List.range 32).foldl (fun s b => s.bump Fld.tileHistBin (32 * t + b) (counts.getD (4 + b) 0)) s

/-- Row group g of a `DRAIN` written: its rows, scales or lo parts, its statistics, and the rows cleared (R111) (log 39, DEDUCED). -/
def Tile.drainGroup (t : Tile) (x : Op) (g : Nat) : Tile × List Nat :=
  let i := x.insn
  let fmt := i.arg 3 4
  let e := fmtBytes fmt
  let rowW (r : Nat) : List W34 := (List.range 32).map (fun n => Tab.get 0 t.acc (accIdx i.acc (4 * (i.drainFirst + g) + r) n))
  let rows := (List.range 4).map (fun r => drainRow fmt (i.argBit 8) (rowW r))
  let o0 := x.opnd t 0
  let o1 := x.opnd t 1
  let e1 := if fmtScaled fmt then 1 else e
  let t1 := (rows.foldl (fun (acc : Tile × Nat) r =>
    ((acc.1.sput o0 ((4 * g + acc.2) * e) r.1).sput o1 ((4 * g + acc.2) * e1) r.2.1, acc.2 + 1)) (t, 0)).1
  let counts := drainCounts (rows.foldl (fun a r => a.add r.2.2) ConvStats.none) ((List.range 4).flatMap rowW)
  let t2 := if i.argBit 9 then t1.addStats (x.opnd t 2) counts else t1
  (if i.argBit 7 then { t2 with acc := Tab.clear t2.acc (accIdx i.acc (4 * (i.drainFirst + g)) 0) 128 } else t2, counts)

/-- The spans of a `DRAIN`'s record, without the reserved bytes it leaves unchanged. -/
def Tile.recordSegs (t : Tile) (x : Op) : List (Nat × Nat) :=
  if x.insn.argBit 9 then (x.opnd t 2).segs 0 16 ++ (x.opnd t 2).segs 0x20 128 else []

/-- The scratchpad bytes that row group g of a `DRAIN` writes: its rows, its scales or lo parts, and its record (R111). -/
def Tile.drainSpans (t : Tile) (x : Op) (g : Nat) : List (Nat × Nat) :=
  let i := x.insn
  let e := fmtBytes (i.arg 3 4)
  (x.opnd t 0).segs (4 * g * e) (4 * e) ++
    (if fmtScaled (i.arg 3 4) then (x.opnd t 1).segs (4 * g) 4 else if i.argBit 8 then (x.opnd t 1).segs (4 * g * e) (4 * e) else []) ++
    t.recordSegs x

/-- The next row group of the `DRAIN` at the front commits (R110, R111, R137, R138, R392). -/
def State.commitDrain (s : State) (t p : Nat) (tl : Tile) (q : Part) (x : Op) : State :=
  let i := x.insn
  let g := x.group
  let s := s.engineAccess t p tl (tl.recordSegs x) (tl.drainSpans x g)
  let m := x.marked || tl.accMarked i.acc i.drainFirst i.drainGroups || (i.argBit 9 && tl.markedSegs x.reads)
  let last := g + 1 == i.drainGroups
  let r := tl.drainGroup x g
  let o := i.drainOut (x.opnd tl 0) (x.opnd tl 1) (g + 1)
  let spans := o.1 ++ o.2 ++ r.1.recordSegs x
  let tl := if m || last then r.1.markSegs spans m else r.1
  let tl := if i.argBit 7 then
      (if m then tl.markAcc i.acc i.drainFirst (g + 1) true else tl.markAcc i.acc (i.drainFirst + g) 1 false) else tl
  let tl := tl.modOp x.id (fun y => { y with group := g + 1, marked := m, done := last })
  let s := ((s.setTile p (tl.stepped s.tally)).consumed q.item m).addHealth t r.2
  s.onStrand t q.item false

/-- A row group commits on a path, its check having passed. -/
def State.commitGroup (s : State) (t p : Nat) (tl : Tile) (q : Part) (x : Op) : State :=
  if x.insn.opc.toNat = opMma then s.commitMma t p tl q x
  else if x.insn.opc.toNat = opDrain then s.commitDrain t p tl q x
  else match x.source with
    | some src => s.commitRed t p tl q x src
    | none => s

/-- The operation of a path whose next row group may commit. -/
def Tile.groupFront (t : Tile) (path : Path) : Option Op :=
  (match path with
  | .stream => t.streamFront
  | .drain => t.drainFront).bind fun x =>
    if !t.accFree x || x.insn.opc.toNat == opSwap || (x.insn.swaps && !x.swapped) ||
        (x.insn.opc.toNat == opRed && x.source.isNone) then none else some x

/-- `ROW_GROUP_COMMIT` (R110, R386, R394): the row group at the front of a path passes its check and commits, or the failure is
handled where it is located: the products of an `MMA` are the facet array's. What the storage codes find is marked before the group is
computed; lost control state is a tile fault and commits nothing. -/
def execRowGroupCommit (t : Nat) (path : Path) (chk : Check) (store : List WordErr) (s : State) : Out State :=
  onTile t s fun p tl =>
    match tl.groupFront path, tl.part with
    | some x, some q =>
      let r := s.findWords t p store
      .next (if r.2.any Prod.fst then r.1.wordFault t p r.2
        else if chk.failed then r.1.checkFailed t p chk (x.insn.opc.toNat == opMma)
        else (r.1.commitGroup t p (r.1.tile p) q x).wordFault t p r.2)
    | _, _ => .next s

/-- Source `n` of a `RED` may be added now (R112). -/
def Op.mayAdd (x : Op) (n : Nat) : Bool :=
  x.insn.opc.toNat == opRed && x.source.isNone && n < redSources x.insn && x.ready.contains n && !x.added.contains n &&
    (x.insn.orderFree || (List.range n).all (fun m => x.added.contains m))

/-- `RED_SOURCE_ADD` (R112, R52): the stream path takes a ready source. A source taken ahead of a lower-indexed one counts (log 38, DEDUCED). -/
def execRedSourceAdd (t n : Nat) (s : State) : Out State :=
  onUnit (n < 16) "source" <|
  onTile t s fun p tl =>
    match tl.streamFront, tl.part with
    | some x, some q =>
      if x.mayAdd n && tl.accFree x then
        let s := s.setTile p ((tl.stepped s.tally).modOp x.id (fun y => { y with source := some n, group := 0 }))
        .next (if (List.range n).all (fun m => x.added.contains m) then s
          else (s.bump Fld.tileTdccFreeord t 1).addNote q.item noteTdcc)
      else .next s
    | _, _ => .next s

/-- `INSTRUCTION_COMPLETE` (R96, R100, R105): an operation whose results are all written completes and signals. An `LDB` writes the shadow
bank and completes. -/
def execInstructionComplete (t op : Nat) (s : State) : Out State :=
  onTile t s fun p tl =>
    match tl.ops.find? (fun x => x.id == op) with
    | none => .next s
    | some x =>
      if !tl.signalRoom x.insn then .next s
      else if x.insn.opc.toNat = opLdb then
        if tl.loadReady x then
          let s := s.engineAccess t p tl x.reads []
          let tl := tl.loadShadow x
          let s := s.setTile p tl
          let s := match tl.part with
            | some q => s.consumed q.item tl.shadow.mark
            | none => s
          .next (s.completeOp t p x)
        else .next s
      else .next (if x.done then s.completeOp t p x else s)

end Sys2Proof.Machine
end

