-- ==== Sys2Proof/Machine/SpecialFn.lean ====
section
/-! DEFINITION. The special functions (chapter 6): correctly rounded exponentials, logarithms, reciprocals and roots, the
compositions of R153, the exponential of the softmax, and the Zorli evaluations. A transcendental value is computed on the
grid 2^-320 and rounded once from there (log 14, PRESUMED). -/

namespace Sys2Proof.Machine

/-- The grid on which transcendental values are computed. -/
def sfP : Nat := 320

/-- ln 2 on the grid 2^-320, rounded down. -/
def sfLn2 : Nat := 1480553391661173448385607439722553250922680800745876974795605978609098082859138712941075737848984

/-- The number of grid units of a value ±m x 2^x, rounded towards minus infinity. -/
def toGrid (neg : Bool) (m : Nat) (x : Int) : Int :=
  let e := x + sfP
  if 0 ≤ e then signed neg m * 2 ^ e.toNat else (signed neg m) / (2 : Int) ^ (-e).toNat

/-- The Taylor terms of e^r from term k on, r on the grid. -/
def expTerms : Nat → Nat → Nat → Nat → Nat
  | 0, _, _, _ => 0
  | n + 1, k, term, r => term + expTerms n (k + 1) (term * r / 2 ^ sfP / k) r

/-- e^r on the grid for r from 0 to below 1. -/
def expGrid (r : Nat) : Nat := expTerms 90 1 (2 ^ sfP) r

/-- e^x for a finite x that is not zero: significand and exponent (inexact). -/
def expMag (neg : Bool) (m : Nat) (x : Int) : Nat × Int :=
  if 10 < leadExp m x then (1, if neg then -8192 else 8192)
  else
    let v := toGrid neg m x
    let n := v / (sfLn2 : Int)
    (expGrid (v - n * sfLn2).toNat, n - sfP)

/-- 2^x for a finite x that is not an integer. -/
def exp2Mag (neg : Bool) (m : Nat) (x : Int) : Nat × Int :=
  if 12 < leadExp m x then (1, if neg then -8192 else 8192)
  else
    let v := toGrid neg m x
    let n := v / (2 : Int) ^ sfP
    (expGrid ((v - n * 2 ^ sfP).toNat * sfLn2 / 2 ^ sfP), n - sfP)

/-- The terms z^(2k+1) / (2k+1) of the area tangent from k on, z on the grid. -/
def atanhTerms : Nat → Nat → Nat → Nat → Nat
  | 0, _, _, _ => 0
  | n + 1, k, zp, z2 => zp / (2 * k + 1) + atanhTerms n (k + 1) (zp * z2 / 2 ^ sfP) z2

/-- ln y on the grid for y = m / 2^(log2 m), which lies in [1, 2). -/
def lnGrid (m : Nat) : Nat :=
  let b := 2 ^ Nat.log2 m
  let z := (m - b) * 2 ^ sfP / (m + b)
  2 * atanhTerms 110 0 z (z * z / 2 ^ sfP)

/-- ln of m x 2^x, on the grid. -/
def lnVal (m : Nat) (x : Int) : Int := leadExp m x * sfLn2 + lnGrid m

/-- log2 of m x 2^x, on the grid. -/
def log2Val (m : Nat) (x : Int) : Int := leadExp m x * 2 ^ sfP + (lnGrid m * 2 ^ sfP / sfLn2 : Nat)

/-- 1 / √(m x 2^x) with at least 70 significant bits, and whether it is inexact. -/
def rsqrtMag (m : Nat) (x : Int) : Nat × Int × Bool :=
  let m1 := if x % 2 = 0 then m else 2 * m
  let x1 := if x % 2 = 0 then x else x - 1
  let n := 2 ^ (2 * (150 + Nat.log2 m1))
  let r := isqrt (n / m1)
  (r, -(150 + Nat.log2 m1 : Int) - x1 / 2, r * r * m1 != n)

/-- A result and whether its rounding saturated. -/
abbrev SfRes := Word32 × Bool

/-- A value rounded once to FP32 (R125). -/
def flF32 (v : Val) : SfRes := let r := Fmt.fp32.encode v; (BitVec.ofNat 32 r.1, r.2)

/-- A finite exact magnitude with a remainder, rounded once to FP32. -/
def flMag (neg : Bool) (m : Nat) (x : Int) (sticky : Bool) : SfRes :=
  let r := Fmt.fp32.encodeMag neg m x sticky none
  (BitVec.ofNat 32 r.1, r.2)

/-- The canonical FP32 NaN. -/
def f32NaN : Word32 := 0x7FC00000
/-- FP32 infinities. -/
def f32Inf (neg : Bool) : Word32 := if neg then 0xFF800000 else 0x7F800000
/-- FP32 1.0. -/
def f32One : Word32 := 0x3F800000

/-- ±m x 2^x is an integer; its value. -/
def intOf (neg : Bool) (m : Nat) (x : Int) : Option Int :=
  if 0 ≤ x then some (signed neg m * 2 ^ (min x 64).toNat)
  else if m % 2 ^ (-x).toNat = 0 then some (signed neg (m / 2 ^ (-x).toNat)) else none

/-- `EXP2`: 2^x correctly rounded (R153). -/
def sfExp2 : Val → SfRes
  | .nan => (f32NaN, false)
  | .inf n => (if n then 0 else f32Inf false, false)
  | .fin n m x =>
    match intOf n m x with
    | some k => flMag false 1 (max (-8192) (min 8192 k)) false
    | none => let r := exp2Mag n m x; flMag false r.1 r.2 true

/-- `EXP`: e^x correctly rounded. -/
def sfExp : Val → SfRes
  | .nan => (f32NaN, false)
  | .inf n => (if n then 0 else f32Inf false, false)
  | .fin n m x => if m = 0 then (f32One, false) else let r := expMag n m x; flMag false r.1 r.2 true

/-- A logarithm given by a value on the grid. -/
def sfLog (val : Nat → Int → Int) : Val → SfRes
  | .nan => (f32NaN, false)
  | .inf n => (if n then f32NaN else f32Inf false, false)
  | .fin n m x =>
    if m = 0 then (f32Inf true, false)
    else if n then (f32NaN, false)
    else if m = 2 ^ Nat.log2 m && leadExp m x = 0 then (0, false)
    else
      let v := val m x
      flMag (v < 0) v.natAbs (-(sfP : Int)) true

/-- `LOG2`. -/
def sfLog2 (v : Val) : SfRes :=
  match v with
  | .fin false m x => if m ≠ 0 && m = 2 ^ Nat.log2 m then flF32 (.fin (leadExp m x < 0) (leadExp m x).natAbs 0) else sfLog log2Val v
  | _ => sfLog log2Val v

/-- `LN`. -/
def sfLn (v : Val) : SfRes := sfLog lnVal v

/-- `RCP`. -/
def sfRcp : Val → SfRes
  | .nan => (f32NaN, false)
  | .inf n => (if n then 0x80000000 else 0, false)
  | .fin n m x => if m = 0 then (f32Inf n, false) else let r := divMag 1 0 m x; flMag n r.1 r.2.1 r.2.2

/-- `SQRT`. -/
def sfSqrt : Val → SfRes
  | .nan => (f32NaN, false)
  | .inf n => (if n then f32NaN else f32Inf false, false)
  | .fin n m x =>
    if m = 0 then (if n then 0x80000000 else 0, false)
    else if n then (f32NaN, false)
    else let r := sqrtMag m x; flMag false r.1 r.2.1 r.2.2

/-- `RSQRT`. -/
def sfRsqrt : Val → SfRes
  | .nan => (f32NaN, false)
  | .inf n => (if n then f32NaN else 0, false)
  | .fin n m x =>
    if m = 0 then (f32Inf n, false)
    else if n then (f32NaN, false)
    else let r := rsqrtMag m x; flMag false r.1 r.2.1 r.2.2

/-- The sign bit of an FP32 code replaced. -/
def withSign (neg : Bool) (w : Word32) : Word32 := (w &&& 0x7FFFFFFF) ||| (if neg then 0x80000000 else 0)

/-- The sign of a value; NaN has none. -/
def Val.sign : Val → Bool
  | .nan => false
  | .inf n => n
  | .fin n _ _ => n

/-- 1.0 as a value. -/
def Val.one : Val := .fin false 1 0
/-- 2.0 as a value. -/
def Val.two : Val := .fin false 1 1

/-- `TANH` (R153), over the `EXP`, `RCP` and rounding of its mode. -/
def tanhWith (fl : Val → Val) (ex rcp : Val → Val) (v : Val) : Val :=
  match v with
  | .nan => .nan
  | .inf n => .fin n 1 0
  | .fin n _ _ =>
    let t := fl (Val.mul .two v.abs)
    let d := fl (Val.add (ex t) .one)
    let y := fl (Val.add .one (Val.neg (Val.mul .two (rcp d))))
    match y with
    | .fin _ m x => .fin n m x
    | z => z

/-- `SIGMOID` (R153). -/
def sigmoidWith (fl : Val → Val) (ex rcp : Val → Val) (v : Val) : Val :=
  match v with
  | .nan => .nan
  | _ => rcp (fl (Val.add .one (ex v.neg)))

/-- The value of a native result. -/
def flVal (v : Val) : Val := ofF32 (flF32 v).1

/-- A native special function by its code (R153); codes 9-15 are refused at load. -/
def sfNative (code : Nat) (w : Word32) : SfRes :=
  let v := ofF32 w
  match code with
  | 0 => sfExp2 v
  | 1 => sfExp v
  | 2 => sfLog2 v
  | 3 => sfLn v
  | 4 => sfRcp v
  | 5 => sfSqrt v
  | 6 => sfRsqrt v
  | 7 => flF32 (tanhWith flVal (fun a => ofF32 (sfExp a).1) (fun a => ofF32 (sfRcp a).1) v)
  | _ => flF32 (sigmoidWith flVal (fun a => ofF32 (sfExp a).1) (fun a => ofF32 (sfRcp a).1) v)

/-- `expw` (R159): e^x correctly rounded to W34, and whether it saturated. -/
def expw (w : Word32) : W34 × Bool :=
  match ofF32 w with
  | .nan => (BitVec.ofNat 34 Fmt.w34.nanCode, false)
  | .inf n => (if n then 0 else BitVec.ofNat 34 (Fmt.w34.infCode false), false)
  | .fin n m x =>
    if m = 0 then (toW34 .one, false)
    else
      let r := expMag n m x
      let e := Fmt.w34.encodeMag false r.1 r.2 true none
      (BitVec.ofNat 34 e.1, e.2)

/-! ## Zorli compatibility mode (R163-R167) -/

/-- One Zorli rounding of a finite exact magnitude: to nearest, below 2^-126 and so zero too to +0, above the range to infinity (R164) (log 49, DEDUCED). -/
def zFlMag (neg : Bool) (m : Nat) (x : Int) (sticky : Bool) : Val :=
  if m = 0 then .zero
  else
    let u := Fmt.fp32.grid (leadExp m x)
    let q := roundSig m x u sticky none
    if 16777215 * 2 ^ (104 - u).toNat < q * 2 ^ (u - 104).toNat then .inf neg
    else if q = 0 || leadExp q u < -126 then .zero
    else .fin neg q u

/-- One Zorli rounding of an exact value. -/
def zFl : Val → Val
  | .fin n m x => zFlMag n m x false
  | v => v

/-- A subnormal input is taken as zero of its sign (R164). -/
def zIn (v : Val) : Val :=
  match v with
  | .fin n m x => if m ≠ 0 && leadExp m x < -126 then .fin n 0 0 else v
  | _ => v

/-- FP32 constants of R165 to R167 by their codes. -/
def zConst (code : Nat) : Val := Fmt.fp32.decode code

/-- T[j] = 2^(j/64) rounded to the nearest FP32 value. -/
def zT (j : Nat) : Val := ofF32 (sfExp2 (.fin false j (-6))).1
/-- Q[j] = 1 / (1 + j/64), rounded to the nearest FP32 value. -/
def zQ (j : Nat) : Val := ofF32 (sfRcp (.fin false (64 + j) (-6))).1
/-- L[j] = log2(1 + j/64), rounded to the nearest FP32 value. -/
def zL (j : Nat) : Val := ofF32 (sfLog2 (.fin false (64 + j) (-6))).1

/-- Zorli `EXP2` (R165). -/
def zExp2 (v : Val) : Val :=
  match v with
  | .nan => .nan
  | .inf n => if n then .zero else .inf false
  | .fin n m x =>
    if !Val.lt v (.fin false 128 0) then .inf false
    else if Val.lt v (.fin true 126 0) then .zero
    else
      -- x and its parts on the grid 2^-149: every FP32 value is a multiple of it
      let g : Int := signed n m * 2 ^ (x + 149).toNat
      let k := g / (2 : Int) ^ 149
      let f := (g - k * 2 ^ 149).toNat
      let j := 64 * f / 2 ^ 149
      let gv : Val := .fin false (64 * f - j * 2 ^ 149) (-155)
      let t := zFl (Val.mul (zConst 0x3E75FDF0) gv)
      let t := zFl (Val.add (zConst 0x3F317218) t)
      let t := zFl (Val.mul gv t)
      let q := zFl (Val.add .one t)
      match zFl (Val.mul (zT j) q) with
      | .fin s m' x' => zFl (.fin s m' (x' + k))
      | w => w

/-- Zorli `LOG2` (R166). -/
def zLog2 (v : Val) : Val :=
  match v with
  | .nan => .nan
  | .inf n => if n then .nan else .inf false
  | .fin n m x =>
    if m = 0 then .inf true
    else if n then .nan
    else
      let e := Nat.log2 m
      let k := leadExp m x
      -- m / 2^e in [1, 2)
      let j := (m - 2 ^ e) * 64 / 2 ^ e
      let d := Val.add (.fin false m (-(e : Int))) (.fin true (64 + j) (-6))
      let z := zFl (Val.mul d (zQ j))
      let t := zFl (Val.mul (zConst 0xBF38AA3B) z)
      let t := zFl (Val.add (zConst 0x3FB8AA3B) t)
      let t := zFl (Val.mul z t)
      let r := zFl (Val.add (zL j) t)
      zFl (Val.add (.fin (k < 0) k.natAbs 0) r)

/-- Zorli `RCP`. -/
def zRcp (v : Val) : Val :=
  match v with
  | .nan => .nan
  | .inf _ => .zero
  | .fin n m x => if m = 0 then .inf n else let r := divMag 1 0 m x; zFlMag n r.1 r.2.1 r.2.2

/-- Zorli `SQRT`. -/
def zSqrt (v : Val) : Val :=
  match v with
  | .nan => .nan
  | .inf n => if n then .nan else .inf false
  | .fin n m x =>
    if m = 0 then .zero else if n then .nan else let r := sqrtMag m x; zFlMag false r.1 r.2.1 r.2.2

/-- Zorli `EXP`. -/
def zExp (v : Val) : Val := zExp2 (zFl (Val.mul v (zConst 0x3FB8AA3B)))

/-- A Zorli special function by its code (R163-R167). No Zorli result saturates: it becomes infinity; and a result of zero is +0 (R164). -/
def sfZorli (code : Nat) (w : Word32) : SfRes :=
  let v := zIn (ofF32 w)
  (toF32 (zFl (match code with
    | 0 => zExp2 v
    | 1 => zExp v
    | 2 => zLog2 v
    | 3 => zFl (Val.mul (zLog2 v) (zConst 0x3F317218))
    | 4 => zRcp v
    | 5 => zSqrt v
    | 6 => zRcp (zSqrt v)
    | 7 => tanhWith zFl zExp zRcp v
    | _ => sigmoidWith zFl zExp zRcp v)), false)

end Sys2Proof.Machine
end

