-- ==== Sys2Proof/Machine/Vector.lean ====
section
/-! DEFINITION. The vector path (R139-R169): the effect of an instruction on its path, vector buffers and mask registers, lane arithmetic,
loads and stores with their conversions, the special functions, row statistics, softmax and the adapter weight update. The effect takes
place at issue: the path runs one instruction after another, and R98 holds what would overlap (R139). -/

namespace Sys2Proof.Machine

/-! ## Effects of a path instruction -/

/-- What an instruction of the vector path, locket or placement does: the tile with its data written, the scratchpad and vector-buffer spans it
reads and writes, whether some other unit it read is marked, how other units it writes take the mark, the saturations it counts,
and its steps. -/
structure Effect where
  tile : Tile
  reads : List (Nat × Nat) := []
  writes : List (Nat × Nat) := []
  vreads : List (Nat × Nat) := []
  vwrites : List (Nat × Nat) := []
  extra : Bool := false
  mark : Bool → Tile → Tile := fun _ t => t
  /-- The ranges of R98, where they are not just the spans read and written. -/
  rangeR : Option (List (Nat × Nat)) := none
  rangeW : Option (List (Nat × Nat)) := none
  sats : Nat := 0
  smxFlagged : Nat := 0
  zeroRms : Nat := 0
  occ : Nat := 1
  lat : Nat := 4

/-- What the instruction's reads add to its range (R98). -/
def Effect.readRange (e : Effect) : List (Nat × Nat) := e.rangeR.getD e.reads

/-- What its writes add. -/
def Effect.writeRange (e : Effect) : List (Nat × Nat) := e.rangeW.getD e.writes

/-- R98 lets the instruction issue. -/
def Effect.clear (e : Effect) (t : Tile) : Bool := t.clearOf e.readRange e.writeRange

/-- Some unit of vector-buffer spans is marked. -/
def Tile.vmarked (t : Tile) (spans : List (Nat × Nat)) : Bool :=
  spans.any (fun g => (unitsOf g.1 g.2).any (fun u => Tab.get false t.vbufMarks u))

/-- The instruction reads a marked unit (R392). -/
def Effect.readsMarked (e : Effect) (t : Tile) : Bool := e.extra || t.markedSegs e.reads || t.vmarked e.vreads

/-- The tile after the effect, with its marks (R392) (log 40, DEDUCED). -/
def Effect.marked (e : Effect) (m : Bool) : Tile :=
  let t := e.mark m (e.tile.markSegs e.writes m)
  { t with vbufMarks := e.vwrites.foldl (fun k g => markSpan k g.1 g.2 m) t.vbufMarks }

/-- The counters of `TILE_VSTAT` (R168, R169). -/
def State.vstat (s : State) (t sats smx zr : Nat) : State :=
  ((s.bump Fld.tileVstatSats t sats).bump Fld.tileVstatSmxFlagged t smx).bump Fld.tileVstatZeroRms t zr

/-- An instruction runs with its effect: a failed check commits nothing (R386); R98 may hold it; otherwise its results are written
and its operation is in flight until it completes (log 36, DEDUCED). -/
def State.runEffect (s : State) (t p : Nat) (tl : Tile) (i : Insn) (chk : Check) (e : Effect) : State :=
  if chk.failed then s.checkFailed t p chk false
  else if !e.clear tl then s
  else
    let m := e.readsMarked tl
    let s := (s.setTile p (e.marked m)).engineAccess t p tl e.reads e.writes
    let s := match tl.part with
      | some q => s.consumed q.item m
      | none => s
    (s.vstat t e.sats e.smxFlagged e.zeroRms).issueOp t p
      { (tl.mkOp i 0 e.readRange e.writeRange e.occ e.lat) with done := true, marked := m }

/-- A path instruction of an opcode. -/
def pathInsn (t opc : Nat) (chk : Check) (s : State) (f : Tile → Insn → Effect) : Out State :=
  onInsn t opc s fun p tl i => s.runEffect t p tl i chk (f tl i)

/-! ## Operands (R140, R141, R143) -/

/-- The vector-buffer address of an operand: buffers 0-3 end to end. -/
def Tile.vaddr (t : Tile) (o : Word64) : Nat := (rawEa t.loops o).toNat % 131072

/-- `n` FP32 codes from a vector-buffer address. -/
def Tile.vread (t : Tile) (a n : Nat) : List Word32 :=
  (List.range n).map (fun k => BitVec.ofNat 32 (Mem.readNat t.vbuf (a + 4 * k) 4))

/-- FP32 codes written from a vector-buffer address; an element `none` keeps its old value. -/
def Tile.vput (t : Tile) (a : Nat) : List (Option Word32) → Tile
  | [] => t
  | none :: r => Tile.vput t (a + 4) r
  | some w :: r => Tile.vput { t with vbuf := Mem.writeNat t.vbuf a 4 w.toNat } (a + 4) r

/-- The runs of written elements of `w` bytes. -/
def runs (w a : Nat) : List Bool → List (Nat × Nat)
  | [] => []
  | false :: r => runs w (a + w) r
  | true :: r =>
    match runs w (a + w) r with
    | (b, n) :: q => if b = a + w then (a, n + w) :: q else (a, w) :: (b, n) :: q
    | [] => [(a, w)]

/-- N (R143): the count field, or the parameter word it names. -/
def State.vcount (s : State) (tl : Tile) (i : Insn) : Nat :=
  if i.argBit 14 then s.paramWord tl (i.arg 0 14) else i.arg 0 14 + 1

/-- A mask register. -/
def Tile.maskReg (t : Tile) (m : Nat) : BitVec 8192 := Tab.get (BitVec.allOnes 8192) t.masks m

/-- A mask register replaced. -/
def Tile.setMask (t : Tile) (m : Nat) (v : BitVec 8192) : Tile := { t with masks := Tab.set (BitVec.allOnes 8192) t.masks m v }

/-- The predicate of the elements below n under `MASK_EN` and `MREG` (R146). -/
def Tile.actives (t : Tile) (i : Insn) (n : Nat) : List Bool :=
  if i.argBit 19 then (let m := t.maskReg (i.arg 16 3); (List.range n).map m.getLsbD) else List.replicate n true

/-- The mark of the predicate register, when it is read: no bit of it is below N = 0 (R146). -/
def Tile.predMark (t : Tile) (i : Insn) (n : Nat) : Bool := n != 0 && i.argBit 19 && Tab.get false t.maskMarks (i.arg 16 3)

/-- `MZERO`. -/
def Insn.mzero (i : Insn) : Bool := i.argBit 20
/-- `MDST`. -/
def Insn.mdst (i : Insn) : Nat := i.arg 25 3

/-- The mark of a mask register that an instruction writes; `whole`: every bit of it. -/
def maskMark (m : Nat) (whole : Bool) (mk : Bool) (t : Tile) : Tile :=
  if mk || whole then { t with maskMarks := Tab.set false t.maskMarks m mk } else t

/-- The second source: one broadcast element or n elements, with its span (R143). -/
def Tile.second (t : Tile) (i : Insn) (n : Nat) : List Word32 × (Nat × Nat) :=
  let a := t.vaddr i.opd2
  if i.argBit 15 then (List.replicate n ((t.vread a 1).getD 0 0), (a, if n = 0 then 0 else 4)) else (t.vread a n, (a, 4 * n))

/-! ## Lanes (R146, R148, R149) -/

/-- The written elements of a lane instruction and its saturations: an active element takes its result, a predicated one +0 with `MZERO`
and its old value without. -/
def laneResults (act : List Bool) (mz : Bool) (rs : List (Word32 × Bool)) : List (Option Word32) × Nat :=
  let xs := List.zipWith (fun a r => (a, r)) act rs
  (xs.map (fun x => if x.1 then some x.2.1 else if mz then some 0 else none),
   (xs.filter (fun x => x.1 && x.2.2)).length)

/-- FP32 of a value, with its saturation. -/
def f32Sat (v : Val) : Word32 × Bool := let r := Fmt.fp32.encode v; (BitVec.ofNat 32 r.1, r.2)

/-- The steps of a lane instruction: source operands in one buffer cost a step each (R151). -/
def laneSteps (n : Nat) (srcs : List Nat) : Nat :=
  ceilDiv n 64 * ((List.range 4).map (fun b => (srcs.filter (fun a => a / 32768 == b)).length)).foldl max 1

/-- The effect of an instruction whose destination is vector elements: the values, the buffers read. -/
def Tile.laneEffect (t : Tile) (i : Insn) (act : List Bool) (rs : List (Word32 × Bool)) (vreads : List (Nat × Nat))
    (srcs : List Nat) (lat : Nat) : Effect :=
  let r := laneResults act i.mzero rs
  let a := t.vaddr i.opd0
  { tile := t.vput a r.1, vreads := vreads, vwrites := runs 4 a (r.1.map Option.isSome), extra := t.predMark i act.length, sats := r.2,
    occ := laneSteps act.length srcs, lat := lat }

/-- An instruction of no element: it takes one issue step (R146). -/
def Tile.idle (t : Tile) : Effect := { tile := t, occ := 1, lat := 0 }

/-- A lane instruction of one source. -/
def unary (t opc : Nat) (chk : Check) (s : State) (f : Word32 → Word32 × Bool) : Out State :=
  pathInsn t opc chk s fun tl i =>
    let n := s.vcount tl i
    let a := tl.vaddr i.opd1
    tl.laneEffect i (tl.actives i n) ((tl.vread a n).map f) [(a, 4 * n)] [a] 4

/-- A lane instruction of two sources (log 213, DESIGN CHOICE). -/
def binary (t opc : Nat) (chk : Check) (s : State) (f : Word32 → Word32 → Word32 × Bool) : Out State :=
  pathInsn t opc chk s fun tl i =>
    let n := s.vcount tl i
    let a := tl.vaddr i.opd1
    let b := tl.second i n
    tl.laneEffect i (tl.actives i n) (List.zipWith f (tl.vread a n) b.1) [(a, 4 * n), b.2]
      (if i.argBit 15 then [a] else [a, b.2.1]) 4

/-- The canonical NaN of FP32 (R118). -/
def f32Nan : Word32 := 0x7FC00000

/-- A code that is moved and not computed with: a NaN becomes the canonical one (R118: no payload is ever propagated) (log 173, DEDUCED). -/
def quiet (w : Word32) : Word32 := if ofF32 w == .nan then f32Nan else w

/-- Only the sign changes; a NaN result is canonical (R149). -/
def signOp (f : Word32 → Word32) (w : Word32) : Word32 × Bool := (if ofF32 w == .nan then f32Nan else f w, false)

/-- `VMAX` (R149): −0 orders below +0, and a NaN operand gives the canonical NaN. -/
def vmaxOp (a b : Word32) : Word32 × Bool :=
  if ofF32 a == .nan || ofF32 b == .nan then (f32Nan, false)
  else if Val.lt (ofF32 a) (ofF32 b) then (b, false)
  else if Val.lt (ofF32 b) (ofF32 a) then (a, false)
  else (if a.msb then b else a, false)

/-- `VMIN` (R149). -/
def vminOp (a b : Word32) : Word32 × Bool :=
  if ofF32 a == .nan || ofF32 b == .nan then (f32Nan, false)
  else if Val.lt (ofF32 a) (ofF32 b) then (a, false)
  else if Val.lt (ofF32 b) (ofF32 a) then (b, false)
  else (if a.msb then a else b, false)

/-- `VMOV` (R144): d = a. -/
def execVmov (t : Nat) (chk : Check) (s : State) : Out State :=
  onStore t chk s fun chk s => unary t 0x42 chk s (fun a => (quiet a, false))
/-- `VNEG` (R149). -/
def execVneg (t : Nat) (chk : Check) (s : State) : Out State :=
  onStore t chk s fun chk s => unary t 0x4E chk s (signOp (fun w => w ^^^ 0x80000000))
/-- `VABS` (R149). -/
def execVabs (t : Nat) (chk : Check) (s : State) : Out State :=
  onStore t chk s fun chk s => unary t 0x4F chk s (signOp (fun w => w &&& 0x7FFFFFFF))
/-- `VADD` (R149). -/
def execVadd (t : Nat) (chk : Check) (s : State) : Out State :=
  onStore t chk s fun chk s =>
  binary t 0x48 chk s (fun a b => f32Sat (Val.add (ofF32 a) (ofF32 b)))
/-- `VSUB` (R149). -/
def execVsub (t : Nat) (chk : Check) (s : State) : Out State :=
  onStore t chk s fun chk s =>
  binary t 0x49 chk s (fun a b => f32Sat (Val.add (ofF32 a) (ofF32 b).neg))
/-- `VMUL` (R149). -/
def execVmul (t : Nat) (chk : Check) (s : State) : Out State :=
  onStore t chk s fun chk s =>
  binary t 0x4A chk s (fun a b => f32Sat (Val.mul (ofF32 a) (ofF32 b)))
/-- `VMAX` (R149). -/
def execVmax (t : Nat) (chk : Check) (s : State) : Out State :=
  onStore t chk s fun chk s => binary t 0x4C chk s vmaxOp
/-- `VMIN` (R149). -/
def execVmin (t : Nat) (chk : Check) (s : State) : Out State :=
  onStore t chk s fun chk s => binary t 0x4D chk s vminOp

/-- `VFMA` (R149, R151): d = a × b + d with one rounding. -/
def execVfma (t : Nat) (chk : Check) (s : State) : Out State :=
  onStore t chk s fun chk s =>
  pathInsn t 0x4B chk s fun tl i =>
    let n := s.vcount tl i
    let a := tl.vaddr i.opd1
    let d := tl.vaddr i.opd0
    let b := tl.second i n
    let rs := List.zipWith (fun ab dv => f32Sat (Val.add (Val.mul (ofF32 ab.1) (ofF32 ab.2)) (ofF32 dv)))
      (List.zip (tl.vread a n) b.1) (tl.vread d n)
    tl.laneEffect i (tl.actives i n) rs [(a, 4 * n), b.2, (d, 4 * n)] (if i.argBit 15 then [a, d] else [a, b.2.1, d]) 4

/-- `VIOTA` (R145): d = i + s for one scalar s. -/
def execViota (t : Nat) (chk : Check) (s : State) : Out State :=
  onStore t chk s fun chk s =>
  pathInsn t 0x45 chk s fun tl i =>
    let n := s.vcount tl i
    let a := tl.vaddr i.opd2
    if n = 0 then tl.idle else
    let sc := ofF32 ((tl.vread a 1).getD 0 0)
    tl.laneEffect i (tl.actives i n) ((List.range n).map (fun k => f32Sat (Val.add (.fin false k 0) sc))) [(a, 4)] [] 4

/-- The condition of `VCMP` (R144, R149). -/
def cmpCond (c : Nat) (a b : Word32) : Bool :=
  let x := ofF32 a
  let y := ofF32 b
  if x == .nan || y == .nan then c == 1
  else match c with
    | 0 => Val.eq x y
    | 1 => !Val.eq x y
    | 2 => Val.lt x y
    | 3 => !Val.lt y x
    | 4 => Val.lt y x
    | _ => !Val.lt x y

/-- A mask register with its low bits replaced where a value is given. -/
def maskPut (old : BitVec 8192) (bits : List (Option Bool)) : BitVec 8192 :=
  (bits.foldl (fun (acc : BitVec 8192 × Nat) b =>
    (match b with
     | some true => acc.1 ||| (1#8192 <<< acc.2)
     | some false => acc.1 &&& ~~~(1#8192 <<< acc.2)
     | none => acc.1, acc.2 + 1)) (old, 0)).1

/-- `VCMP` (R144, R148, R149). -/
def execVcmp (t : Nat) (chk : Check) (s : State) : Out State :=
  onStore t chk s fun chk s =>
  pathInsn t 0x50 chk s fun tl i =>
    let n := s.vcount tl i
    let a := tl.vaddr i.opd1
    let b := tl.second i n
    let cs := List.zipWith (cmpCond (i.arg 21 3)) (tl.vread a n) b.1
    let bits := List.zipWith (fun on c => if on then some c else if i.mzero then some false else none) (tl.actives i n) cs
    if n = 0 then tl.idle else
    { tile := tl.setMask i.mdst (maskPut (tl.maskReg i.mdst) bits), vreads := [(a, 4 * n), b.2], extra := tl.predMark i n,
      mark := maskMark i.mdst (n == 8192 && bits.all Option.isSome),
      occ := laneSteps n (if i.argBit 15 then [a] else [a, b.2.1]) }

/-- `VSEL` (R144, R145): a where the mask bit is 1, else b. -/
def execVsel (t : Nat) (chk : Check) (s : State) : Out State :=
  onStore t chk s fun chk s =>
  pathInsn t 0x51 chk s fun tl i =>
    let n := s.vcount tl i
    let a := tl.vaddr i.opd1
    let b := tl.second i n
    let rs := List.zipWith (fun on ab => (quiet (if on then ab.1 else ab.2), false)) (tl.actives i n) (List.zip (tl.vread a n) b.1)
    tl.laneEffect i (List.replicate n true) rs [(a, 4 * n), b.2] (if i.argBit 15 then [a] else [a, b.2.1]) 4

/-! ## Loads and stores (R147, R150) -/

/-- The element codes of a scratchpad operand: `n` elements of a format. -/
def Tile.elements (t : Tile) (o : Opnd) (fmt n : Nat) : List Nat :=
  if fmtScaled fmt then
    (List.range (ceilDiv n 32)).flatMap (fun b => rowCodes (t.sread o (b * fmtBytes fmt) (fmtBytes fmt)) fmt)
  else (List.range n).map (fun k => leNat (t.sread o (k * (fmtBits fmt / 8)) (fmtBits fmt / 8)) % 2 ^ (if fmt = 7 then 34 else fmtBits fmt))

/-- The bytes that `n` elements of a format take; MX formats in whole blocks. -/
def spanBytes (fmt n : Nat) : Nat := if fmtScaled fmt then ceilDiv n 32 * fmtBytes fmt else n * (fmtBits fmt / 8)

/-- A value times an E8M0 scale; a scale of 0xFF gives NaN (R117). -/
def scaled (v : Val) (c : Nat) : Val := productVal v (.fin false 1 0) c 127

/-- The steps of a path transfer: ⌈N / 64⌉, or the rows touched if more (R151). -/
def moveSteps (n : Nat) (segs : List (Nat × Nat)) : Nat := max (ceilDiv n 64) (rowCount segs)

/-- `VLD` (R147, R150). -/
def execVld (t : Nat) (chk : Check) (s : State) : Out State :=
  onStore t chk s fun chk s =>
  pathInsn t 0x40 chk s fun tl i =>
    let n := s.vcount tl i
    let fmt := i.arg 21 3
    let o1 := tl.opnd i.opd1
    let o2 := tl.opnd i.opd2
    if n = 0 then tl.idle else
    let codes := tl.elements o1 fmt n
    let scales := if fmtScaled fmt then (tl.sread o2 0 (ceilDiv n 32)).flatMap (fun b => List.replicate 32 b.toNat)
      else List.replicate n 127
    let rs := List.zipWith (fun c sc => f32Sat (scaled ((Fmt.ofCode fmt).decode c) sc)) codes scales
    let reads := o1.segs 0 (spanBytes fmt n) ++ (if fmtScaled fmt then o2.segs 0 (ceilDiv n 32) else [])
    { tl.laneEffect i (tl.actives i n) rs [] [] 4 with reads := reads, occ := moveSteps n reads }

/-- Elements of `w` bytes written from an operand; `none` keeps the old bytes. -/
def Tile.sputElems (t : Tile) (o : Opnd) (w k : Nat) : List (Option Nat) → Tile
  | [] => t
  | none :: r => Tile.sputElems t o w (k + w) r
  | some c :: r => Tile.sputElems (t.sput o k (leBytes w c)) o w (k + w) r

/-- The spans of the elements written. -/
def Opnd.runSegs (o : Opnd) (w : Nat) (on : List Bool) : List (Nat × Nat) := (runs w 0 on).flatMap (fun r => o.segs r.1 r.2)

/-- The range of the elements written (R98). -/
def Opnd.runRange (o : Opnd) (w : Nat) (on : List Bool) : List (Nat × Nat) := o.range (runs w 0 on)

/-- A list in parts of 32. -/
def blocks32 {α : Type} : Nat → List α → List (List α)
  | 0, _ => []
  | k + 1, l => l.take 32 :: blocks32 k (l.drop 32)

/-- `VST` to an MX format: whole blocks, with +0 for predicated elements and the tail (R147); scales that lie over data are written last (log 174, DESIGN CHOICE). -/
def Tile.storeMx (t : Tile) (i : Insn) (n fmt : Nat) (act : List Bool) (vs : List Val) : Effect :=
  let nb := ceilDiv n 32
  let vals := List.zipWith (fun on v => if on then v else .zero) act vs ++ List.replicate (32 * nb - n) .zero
  let rows := (blocks32 nb vals).map (mxRow (Fmt.ofCode fmt))
  let o0 := t.opnd i.opd0
  let o2 := t.opnd i.opd2
  let data := rows.flatMap (fun r => rowBytes r.2.1 fmt)
  let writes := o0.segs 0 data.length ++ o2.segs 0 nb
  { tile := (t.sput o0 0 data).sput o2 0 (rows.map (fun r => BitVec.ofNat 8 r.1)), writes := writes,
    sats := rows.foldl (fun a r => a + r.2.2.sats) 0, occ := moveSteps n writes }

/-- `VST` (R147, R148, R150). -/
def execVst (t : Nat) (chk : Check) (s : State) : Out State :=
  onStore t chk s fun chk s =>
  pathInsn t 0x41 chk s fun tl i =>
    let n := s.vcount tl i
    let fmt := i.arg 21 3
    let a := tl.vaddr i.opd1
    let act := tl.actives i n
    let vs := (tl.vread a n).map ofF32
    let e := if n = 0 then tl.idle
      else if fmtScaled fmt then tl.storeMx i n fmt act vs
      else
        let w := fmtBits fmt / 8
        let o0 := tl.opnd i.opd0
        let rs := List.zipWith (fun on v => (on, (Fmt.ofCode fmt).encode v)) act vs
        let el := rs.map (fun r => if r.1 then some r.2.1 else if i.mzero then some 0 else none)
        let writes := o0.runSegs w (el.map Option.isSome)
        { tile := tl.sputElems o0 w 0 el, writes := writes, rangeW := some (o0.runRange w (el.map Option.isSome)), sats := (rs.filter (fun r => r.1 && r.2.2)).length,
          occ := moveSteps n writes }
    { e with vreads := [(a, 4 * n)], extra := tl.predMark i n }

/-- `VMLD`: the bits of the mask register below N (R144, R151). -/
def execVmld (t : Nat) (chk : Check) (s : State) : Out State :=
  onStore t chk s fun chk s =>
  pathInsn t 0x43 chk s fun tl i =>
    let n := s.vcount tl i
    let o1 := tl.opnd i.opd1
    if n = 0 then tl.idle else
    let v := leNat (tl.sread o1 0 (ceilDiv n 8))
    { tile := tl.setMask i.mdst (maskPut (tl.maskReg i.mdst) ((List.range n).map (fun k => some (bitOf v k)))),
      reads := o1.segs 0 (ceilDiv n 8), mark := maskMark i.mdst (n == 8192), occ := ceilDiv n 2048, lat := 2 }

/-- `VMST`: bits at or above N in the last byte are written as 0 (R144). -/
def execVmst (t : Nat) (chk : Check) (s : State) : Out State :=
  onStore t chk s fun chk s =>
  pathInsn t 0x44 chk s fun tl i =>
    let n := s.vcount tl i
    let o0 := tl.opnd i.opd0
    let v := (tl.maskReg i.mdst).toNat % 2 ^ n
    { tile := tl.sput o0 0 (leBytes (ceilDiv n 8) v), writes := o0.segs 0 (ceilDiv n 8),
      extra := n != 0 && Tab.get false tl.maskMarks i.mdst, occ := ceilDiv n 2048, lat := 2 }

/-! ## Special functions (R152-R154, R163) -/

/-- Four units serve the active lanes of each chunk of 64 (R151, R152). -/
def sfuSteps (act : List Bool) : Nat :=
  ((List.range (ceilDiv act.length 64)).map (fun c => max 1 (ceilDiv (((act.drop (64 * c)).take 64).filter id).length 4))).foldl (· + ·) 0

/-- `VSF`: native functions, or the Zorli's when the board asks (R153, R163). -/
def execVsf (t : Nat) (chk : Check) (s : State) : Out State :=
  onStore t chk s fun chk s =>
  pathInsn t 0x58 chk s fun tl i =>
    let n := s.vcount tl i
    let a := tl.vaddr i.opd1
    let z := (tl.part.map (·.zorli)).getD false
    let f (w : Word32) : Word32 × Bool := if z then sfZorli (i.arg 21 4) w else sfNative (i.arg 21 4) w
    let act := tl.actives i n
    { tl.laneEffect i act ((List.zip act (tl.vread a n)).map (fun x => if x.1 then f x.2 else (0, false))) [(a, 4 * n)] [] 8 with
      occ := sfuSteps act }

/-! ## Row statistics (R155, R156) -/

/-- The exact sum of finite values: a zero sum is +0. -/
def exactSum (vs : List Val) : Val :=
  match vs.foldl (fun a v => Val.add a v) .zero with
  | .fin n m x => if m = 0 then .zero else .fin n m x
  | v => v

/-- A finite value divided by a positive count, rounded once to W34. -/
def meanW34 (v : Val) (n : Nat) : W34 :=
  match v with
  | .fin neg m x =>
    if m = 0 then 0 else let r := divMag m x n 0; BitVec.ofNat 34 (Fmt.w34.encodeMag neg r.1 r.2.1 r.2.2 none).1
  | v => toW34 v

/-- The sums of the active elements: `SUM`, `MEAN`, `MSQ`. -/
def rowStats (vs : List Val) : W34 × W34 × W34 :=
  if vs.isEmpty then (0, 0, 0)
  else if vs.any (· == .nan) then (toW34 .nan, toW34 .nan, toW34 .nan)
  else if vs.contains (.inf true) && vs.contains (.inf false) then (toW34 .nan, toW34 .nan, toW34 (.inf false))
  else if vs.contains (.inf true) then (toW34 (.inf true), toW34 (.inf true), toW34 (.inf false))
  else if vs.contains (.inf false) then (toW34 (.inf false), toW34 (.inf false), toW34 (.inf false))
  else
    let s := exactSum vs
    let q := exactSum (vs.map (fun v => Val.mul v v))
    (toW34 s, meanW34 s vs.length, meanW34 q vs.length)

/-- The active values of a source. -/
def activeVals (act : List Bool) (ws : List Word32) : List Val :=
  (List.zip act ws).filterMap (fun x => if x.1 then some (ofF32 x.2) else none)

/-- Bytes written into a vector buffer. -/
def Tile.vbytes (t : Tile) (a : Nat) (bs : List Byte) : Tile := { t with vbuf := Mem.writeRange t.vbuf a bs }

/-- `VRSTAT` (R155, R156): with N = 0 the record is still replaced (R146). -/
def execVrstat (t : Nat) (chk : Check) (s : State) : Out State :=
  onStore t chk s fun chk s =>
  pathInsn t 0x60 chk s fun tl i =>
    let n := s.vcount tl i
    let a := tl.vaddr i.opd1
    let d := tl.vaddr i.opd0
    let vs := activeVals (tl.actives i n) (tl.vread a n)
    let r := rowStats vs
    { tile := (tl.vbytes d (leBytes 8 r.1.toNat ++ leBytes 8 r.2.1.toNat ++ leBytes 8 r.2.2.toNat)).vbytes (d + 0x1C) (leBytes 4 vs.length),
      vreads := [(a, 4 * n)], vwrites := [(d, 24), (d + 0x1C, 4)], extra := tl.predMark i n, occ := ceilDiv n 64, lat := 12 }

/-! ## RMS normalisation (R157) -/

/-- √p correctly rounded to W34. -/
def sqrtW34 (p : Val) : Val :=
  match p with
  | .nan => .nan
  | .inf n => if n then .nan else .inf false
  | .fin n m x =>
    if m = 0 then .zero
    else if n then .nan
    else let r := sqrtMag m x; Fmt.w34.decode (Fmt.w34.encodeMag false r.1 r.2.1 r.2.2 none).1

/-- The quotient of two values rounded once to a format, with its saturation. -/
def divRound (f : Fmt) (a b : Val) : Nat × Bool :=
  match a, b with
  | .nan, _ => (f.nanCode, false)
  | _, .nan => (f.nanCode, false)
  | .inf _, .inf _ => (f.nanCode, false)
  | .inf n, .fin n2 _ _ => (f.infCode (n != n2), false)
  | .fin n _ _, .inf n2 => (f.signBit (n != n2), false)
  | .fin n m x, .fin n2 m2 x2 =>
    if m2 = 0 then (if m = 0 then f.nanCode else f.infCode (n != n2), false)
    else if m = 0 then (f.signBit (n != n2), false)
    else let r := divMag m x m2 x2; f.encodeMag (n != n2) r.1 r.2.1 r.2.2 none

/-- x / rms to FP32; rms = +0 gives +0 (R157). -/
def rmsQuot (rms x : Val) : Word32 × Bool :=
  if rms.isZero then (0, false) else let r := divRound .fp32 x rms; (BitVec.ofNat 32 r.1, r.2)

/-- A W34 word of a vector buffer. -/
def Tile.vw34 (t : Tile) (a : Nat) : W34 := BitVec.ofNat 34 (Mem.readNat t.vbuf a 8)

/-- `VRMSN` (R157) (log 212, DESIGN CHOICE). -/
def execVrmsn (t : Nat) (chk : Check) (s : State) : Out State :=
  onStore t chk s fun chk s =>
  pathInsn t 0x61 chk s fun tl i =>
    let n := s.vcount tl i
    if n = 0 then tl.idle else
    let a := tl.vaddr i.opd1
    let rec_ := tl.vaddr i.opd2
    let p := ofW34 (w34Add (tl.vw34 (rec_ + 0x10)) (toW34 (ofF32 (BitVec.ofNat 32 (Mem.readNat tl.vbuf (rec_ + 0x18) 4)))))
    let rms := sqrtW34 p
    { tl.laneEffect i (tl.actives i n) ((tl.vread a n).map (fun w => rmsQuot rms (ofF32 w))) [(a, 4 * n), (rec_ + 0x10, 12)] [] 16 with
      zeroRms := if p.isZero then 1 else 0, occ := ceilDiv n 64 }

/-! ## Softmax (R159-R161, R223) -/

/-- Adjacent pairs added. -/
def pairAdds : List W34 → List W34
  | a :: b :: r => w34Add a b :: pairAdds r
  | l => l

/-- The tree over the 64 lane partials (R159). -/
def laneTree (p : List W34) : W34 := ((pairAdds (pairAdds (pairAdds (pairAdds (pairAdds (pairAdds p)))))).getD 0 0)

/-- Its last addition saturated (R122). -/
def laneTreeSat (p : List W34) : Bool :=
  let q := pairAdds (pairAdds (pairAdds (pairAdds (pairAdds p))))
  (w34AddSat (q.getD 0 0) (q.getD 1 0)).2

/-- The lane partials after the exponentials are added in ascending index; element k goes to lane k mod 64. -/
def lanePartials : List (Nat × W34) → List W34 → List W34
  | [], p => p
  | (k, e) :: r, p => lanePartials r (p.set (k % 64) (w34Add (p.getD (k % 64) 0) e))

/-- A softmax: the outputs (none below N is left out), the sum, the flag word, the saturations counted (R168). -/
structure SmxOut where
  out : List (Option Word32)
  sum : W34
  /-- The last addition of the sum saturated. -/
  sumSat : Bool
  flags : Nat
  sats : Nat
  deriving DecidableEq, Repr

/-- The softmax of a row (R159, R160, R161). -/
def softmaxRow (beta : Word32) (act : List Bool) (ws : List Word32) : SmxOut :=
  let xs := (List.zip act ws).map (fun x => if x.1 then some (expw (toF32 (Val.mul (ofF32 beta) (ofF32 x.2)))) else none)
  let es := ((List.range xs.length).zip xs).filterMap (fun x => x.2.map (fun e => (x.1, e)))
  let ps := lanePartials (es.map (fun e => (e.1, e.2.1))) (List.replicate 64 0)
  let s := laneTree ps
  let sv := ofW34 s
  let rs := xs.map (fun x => match x with
    | some e => some (if sv.isZero then (0, false) else divRound .fp32 (ofW34 e.1) sv)
    | none => none)
  { out := rs.map (fun r => match r with
      | some q => some (BitVec.ofNat 32 q.1)
      | none => some 0),
    sum := s,
    sumSat := laneTreeSat ps,
    flags := (if es.isEmpty then 1 else 0) + (if !es.isEmpty && sv.isZero then 2 else 0) + (if es.any (fun e => e.2.2) then 4 else 0) +
      (if sv.isFin then 0 else 8),
    sats := (es.filter (fun e => e.2.2)).length + (rs.filter (fun r => match r with
      | some q => q.2
      | none => false)).length }

/-- The effect of a softmax over a row: `VSMX`, or the partial form that also writes s, a written value whose last addition may saturate (R168, R223). A flag word or sum that lies over the outputs
is written last (log 174, DESIGN CHOICE). -/
def Tile.softmaxEffect (tl : Tile) (i : Insn) (n : Nat) (partial_ : Bool) : Effect :=
  let a := tl.vaddr i.opd1
  let d := tl.vaddr i.opd0
  let rec_ := tl.vaddr i.opd2
  let act := tl.actives i n
  let r := softmaxRow (BitVec.ofNat 32 (Mem.readNat tl.vbuf rec_ 4)) act (tl.vread a n)
  let t1 := (tl.vput d r.out).vbytes (rec_ + 4) (leBytes 4 r.flags)
  { tile := if partial_ then t1.vbytes (rec_ + 8) (leBytes 8 r.sum.toNat) else t1,
    vreads := [(a, 4 * n), (rec_, 4)], vwrites := [(d, 4 * n), (rec_ + 4, if partial_ then 12 else 4)],
    extra := tl.predMark i n, sats := r.sats + (if partial_ && r.sumSat then 1 else 0), smxFlagged := if r.flags = 0 then 0 else 1, occ := 2 * sfuSteps act, lat := 16 }

/-- `VSMX`. -/
def execVsmx (t : Nat) (chk : Check) (s : State) : Out State :=
  onStore t chk s fun chk s =>
  pathInsn t 0x68 chk s fun tl i => tl.softmaxEffect i (s.vcount tl i) false

/-! ## Adapter weight update (R129-R133, R162) -/

/-- The square root of a quotient of two positive finite values, correctly rounded to FP32. -/
def sqrtQuot (m1 : Nat) (x1 : Int) (m2 : Nat) (x2 : Int) : Word32 :=
  let e := x1 - x2
  let a := (if e % 2 = 0 then m1 else 2 * m1) * 2 ^ 240
  let e := if e % 2 = 0 then e else e - 1
  let r := isqrt (a / m2)
  BitVec.ofNat 32 (Fmt.fp32.encodeMag false r (e / 2 - 120) (r * r * m2 != a) none).1

/-- `RATIO` of the update record (R133). For a sum that is infinite, NaN or negative the rule gives no case; a NaN, or sums of opposite signs, give
NaN, and otherwise the limit is taken (log 175, DESIGN CHOICE). -/
def updRatio (u2 w2 : Val) : Word32 :=
  if w2.isZero then (if u2.isZero then 0 else 0x7F7FFFFF)
  else match u2, w2 with
    | .fin n1 m1 x1, .fin n2 m2 x2 =>
      if m1 = 0 then (if n1 != n2 then 0x80000000 else 0) else if n1 != n2 then f32Nan else sqrtQuot m1 x1 m2 x2
    | .inf n1, .fin n2 _ _ => if n1 != n2 then f32Nan else 0x7F800000
    | .fin n1 _ _, .inf n2 => if n1 != n2 then 0x80000000 else 0
    | _, _ => f32Nan

/-- The update record while an instruction runs: the two sums and the three counts. -/
structure UpdRec where
  u2 : W34
  w2 : W34
  count : Nat
  sats : Nat
  skipped : Nat
  deriving DecidableEq, Repr

/-- One element of `VUPD`: the record after it, the weight's new code when it is written. -/
def updElem (f : Fmt) (key : Nat × Nat × Nat) (r : UpdRec) (w : Nat) (u : Word32) : UpdRec × Option (Nat × Bool) :=
  let wv := f.decode w
  let uv := ofF32 u
  if !uv.isFin || wv == .nan then ({ r with skipped := satAdd 32 r.skipped 1 }, none)
  else
    let nv := f.encode (Val.add wv uv) (some (randomWord key.1 key.2.1 key.2.2))
    ({ r with u2 := w34Add r.u2 (toW34 (Val.mul uv uv)), w2 := w34Add r.w2 (toW34 (Val.mul wv wv)), count := satAdd 32 r.count 1,
              sats := satAdd 32 r.sats (if nv.2 then 1 else 0) }, some nv)

/-- The elements of `VUPD` in ascending index; element j has the key's index base + j. -/
def updAll (f : Fmt) (t p : Nat) : Nat → UpdRec → List (Bool × Nat × Word32) → UpdRec × List (Option (Nat × Bool))
  | _, r, [] => (r, [])
  | i, r, (on, w, u) :: rest =>
    if on then
      let x := updElem f (t, p, i % 2 ^ 32) r w u
      let y := updAll f t p (i + 1) x.1 rest
      (y.1, x.2 :: y.2)
    else
      let y := updAll f t p (i + 1) r rest
      (y.1, none :: y.2)

/-- `VUPD` (R129-R133, R162): predicated by mask register 0. Where the record lies over the weights, the record is written last (log 174, DESIGN CHOICE). -/
def execVupd (t : Nat) (chk : Check) (s : State) : Out State :=
  onStore t chk s fun chk s =>
  pathInsn t 0x70 chk s fun tl i =>
    let n := s.vcount tl i
    if n = 0 then tl.idle else
    let w : Nat := if i.argBit 15 then 4 else 2
    let fmt := if i.argBit 15 then 6 else 5
    let k := i.arg 16 14
    let o0 := tl.opnd i.opd0
    let o2 := tl.opnd i.opd2
    let a := tl.vaddr i.opd1
    let act := if i.argBit 30 then (let m := tl.maskReg 0; (List.range n).map m.getLsbD) else List.replicate n true
    let idx := ((s.paramWord tl (k + 2) : Int) + (((o0.ea : Int) - opdBase i.opd0) / w)) % (2 ^ 32 : Nat)
    let r0 : UpdRec := { u2 := BitVec.ofNat 34 (leNat (tl.sread o2 0 8)), w2 := BitVec.ofNat 34 (leNat (tl.sread o2 8 8)),
                         count := leNat (tl.sread o2 0x14 4), sats := leNat (tl.sread o2 0x18 4), skipped := leNat (tl.sread o2 0x1C 4) }
    let r := updAll (Fmt.ofCode fmt) (s.paramWord tl k % 2 ^ 31) (s.paramWord tl (k + 1)) idx.toNat r0
      (List.zip act (List.zip (tl.elements o0 fmt n) (tl.vread a n)))
    let el := r.2.map (fun x => x.map Prod.fst)
    let recB := leBytes 8 r.1.u2.toNat ++ leBytes 8 r.1.w2.toNat ++ leBytes 4 (updRatio (ofW34 r.1.u2) (ofW34 r.1.w2)).toNat ++
      leBytes 4 r.1.count ++ leBytes 4 r.1.sats ++ leBytes 4 r.1.skipped
    let reads := o0.segs 0 (n * w) ++ o2.segs 0 32
    { tile := (tl.sputElems o0 w 0 el).sput o2 0 recB, reads := reads, writes := o0.runSegs w (el.map Option.isSome) ++ o2.segs 0 32,
      rangeW := some (o0.runRange w (el.map Option.isSome) ++ o2.segs 0 32),
      vreads := [(a, 4 * n)], extra := i.argBit 30 && Tab.get false tl.maskMarks 0,
      sats := (r.2.filter (fun x => match x with
        | some q => q.2
        | none => false)).length,
      occ := max (ceilDiv n 64) (2 * rowCount reads) + 2 }

end Sys2Proof.Machine
end

