-- ==== Sys2Proof/Machine/SpadAccess.lean ====
section
/-! DEFINITION. Scratchpad banks (R171-R175, R181-R183, R52, R393): the grant of a row access, the contention counter, corrections,
uncorrectable words and spare rows. -/

namespace Sys2Proof.Machine

/-- An engine operation in flight is pending as a write on a row: a row of its range, which it writes (R52, R98). -/
def Op.writesRow (x : Op) (t : Tile) (row : Nat) : Bool := (x.ranges t).any (fun g => g.2 && overlaps g.1.1 g.1.2 (256 * row) 256)

/-! ### Order through signals and bangle pointers (R181)

Sync object o is the event o; the movement of a pointer of bangle n is the event 128 + n. -/

/-- The event of a bangle's pointers. -/
def bangleEvent (n : Nat) : Nat := 128 + n

/-- The events that a DMA entry causes: its signal, and the movement of its bangle's pointer. -/
def Tile.entryEvents (t : Tile) (en : DmaEntry) : List Nat :=
  (if en.signals then [en.signalSync] else []) ++ (match t.regionIndex en.spadAddr with
    | some n => [bangleEvent n]
    | none => [])

/-- The DMA entry starts only behind an event of `evs`. -/
def Tile.entryAfter (t : Tile) (evs : List Nat) (en : DmaEntry) : Bool :=
  (en.waits && evs.contains en.waitSync) || (t.regionIndex en.spadAddr).any (fun n => evs.contains (bangleEvent n))

/-- The events that an instruction causes when it takes effect and completes. -/
def Insn.events (i : Insn) : List Nat :=
  let c := i.opc.toNat
  (if i.signal then [i.signalObj] else []) ++ (if c = opSsig then [i.arg 0 7] else if c = opBpush || c = opBpop then [bangleEvent (i.arg 0 4)]
    else if c = opRland then [bitsOf i.opd1.toNat 0 7] else [])

/-- An operation in flight takes effect only behind an event of `evs`: a `RED` with a source that still waits for one, a request on a bangle, and what
takes effect only when every earlier operation has completed. -/
def behindOps (evs : List Nat) : Bool → List Op → List Op
  | _, [] => []
  | after, x :: r =>
    let c := x.insn.opc.toNat
    let own := (c == opRed && (List.range (redSources x.insn)).any (fun n => !x.ready.contains n && evs.contains (x.insn.waitObj + n))) ||
      ((c == opBpush || c == opBpop) && evs.contains (bangleEvent (x.insn.arg 0 4)))
    let b := own || (after && (c == opSsig || c == opBpush || c == opBpop))
    if b then x :: behindOps evs true r else behindOps evs after r

/-- An instruction of the stream issues only behind an event of `evs`. -/
def Insn.issuesAfter (i : Insn) (evs : List Nat) : Bool :=
  let c := i.opc.toNat
  (i.wait && c != opRed && evs.contains i.waitObj) || ((c == opBwaitd || c == opBwaits) && evs.contains (bangleEvent (i.arg 0 4)))

/-- The instructions of the stream still to issue that issue only behind an event of `evs`: those from the first that waits for one. -/
def Tile.behindStream (t : Tile) (evs : List Nat) : List Insn :=
  if t.ended then []
  else
    let rest := t.stream.drop t.pos
    (if t.released then rest.drop 1 else rest).dropWhile (fun i => !i.issuesAfter evs)

/-- The events that `evs` reach: of DMA entries that still wait, of operations in flight and of instructions still to issue, step by step (R181) (log 177, DEDUCED,
DEDUCED). -/
def Tile.reach (t : Tile) : Nat → List Nat → List Nat
  | 0, evs => evs
  | n + 1, evs =>
    let waiting := t.dma.flatMap (fun e => if e.2.started || e.2.released then e.2.entries.drop 1 else e.2.entries) ++ t.dmaRest
    let more := (((waiting.filter (t.entryAfter evs)).flatMap t.entryEvents ++ (behindOps evs false t.ops).flatMap (fun x => x.insn.events) ++
      (t.behindStream evs).flatMap Insn.events).filter (fun o => !evs.contains o)).eraseDups
    if more.isEmpty then evs else t.reach n (evs ++ more)

/-- The spans that an engine operation reads with no order against an operation that causes `evs`: a source of a `RED` that still waits for one
of the objects they reach is read after that signal (R112, R181) (log 177, DEDUCED). -/
def Op.openReads (x : Op) (t : Tile) (evs : List Nat) : List (Nat × Nat) :=
  if x.insn.opc.toNat = opRed then
    ((List.range (redSources x.insn)).filter (fun n => x.ready.contains n || !evs.contains (x.insn.waitObj + n))).flatMap
      (fun n => (x.opnd t 0).segs (n * x.insn.redBytes) x.insn.redBytes)
  else (x.ranges t).map Prod.fst

/-- An access of the incoming side to a row, made for an operation that causes `evs`, meets an engine access that is pending there and
not ordered against it, at least one a write (R52, R181). -/
def Tile.meetsEngine (t : Tile) (row : Nat) (write : Bool) (evs : List Nat) : Bool :=
  t.ops.any (fun x => x.writesRow t row ||
    (write && (x.openReads t (t.reach 144 evs)).any (fun g => overlaps g.1 g.2 (256 * row) 256)))

/-- A request of the incoming side: a DMA engine, or a mesh arrival, which writes (R52). -/
def reqIncoming (r : RowReq) : Bool := (4 ≤ r.requester && r.requester < 8) || (r.requester == 8 && r.write.isSome)

/-- A request of an engine of the tile. -/
def reqEngine (r : RowReq) : Bool := r.requester < 4

/-- The events that the operation behind a request of the incoming side causes: those of the entry that its engine runs, or of the landing of the chunk that
arrives at the row. -/
def State.requestEvents (s : State) (t : Nat) (tl : Tile) (r : RowReq) : List Nat :=
  if r.requester = 8 then
    (s.arriving.filter (fun a => a.tile == t && overlaps a.off a.packet.payload.length (256 * r.row) 256)).flatMap (fun a => a.signals)
  else match (Tab.get Dma.idle tl.dma (r.requester - 4)).entries with
    | en :: _ => tl.entryEvents en
    | [] => []

/-- A granted access meets a pending access of the other side: among the requests waiting at the bank, or, for the incoming side,
among the operations in flight (log 35, DEDUCED). -/
def State.raceAt (s : State) (t : Nat) (tl : Tile) (reqs : List RowReq) (g : RowReq) : Bool :=
  reqs.any (fun q => q.row == g.row && ((reqIncoming q && reqEngine g) || (reqEngine q && reqIncoming g)) && (q.write.isSome || g.write.isSome)) ||
  (reqIncoming g && tl.meetsEngine g.row g.write.isSome (s.requestEvents t tl g)) || (reqEngine g && s.meetsIncoming t tl g.row g.write.isSome)

/-- The request that a bank grants: rotating priority over nine requesters, starting after the one it granted last (R171) (log 41, DEDUCED). -/
def grantee (last : Nat) (reqs : List RowReq) : Option RowReq :=
  ((List.range 9).map (fun k => (last + 1 + k) % 9)).findSome? (fun r => reqs.find? (fun q => q.requester == r))

/-- The enabled bytes of a row written; a fresh row's other bytes read zero (R175). The write carries unmarked data: a unit that it
writes wholly loses its mark (R392). -/
def Tile.writeRow (t : Tile) (row : Nat) (bytes : List (Nat × Byte)) : Tile :=
  { t with spad := bytes.foldl (fun m b => Mem.write m (256 * row + b.1 % 256) b.2) t.spad, live := Tab.set false t.live row true,
           spadMarks := ((List.range 8).filter (fun u => (List.range 32).all (fun k => bytes.any (fun b => b.1 % 256 == 32 * u + k)))).foldl
             (fun m u => Tab.set false m (8 * row + u) false) t.spadMarks }

/-- The words of a row that its code finds wrong, as words of the tile's storage. -/
def rowErrs (f : RowFault) (row : Nat) : List WordErr := f.words.map (fun w => ⟨8 * row + w.1 % 32 / 4, w.1 % 4, w.2⟩)

/-- A mesh flit that fails on its hop to a tile is sent again, and counts there; one that fails 16 times in a row is a fault of the sending tile (R394). -/
def State.meshFlit (s : State) (t : Nat) (fault : RowFault) : State :=
  let s := s.bump Fld.tileStoreErrPathPar t fault.meshFails
  if 16 ≤ fault.meshFails then (match s.physOf fault.meshFrom with
    | some ps => s.tileFault fault.meshFrom ps false false
    | none => s) else s

/-- `SCRATCHPAD_ROW_ACCESS` (R171-R175, R179, R52, R393, R394): the bank grants one of the waiting requests, which come from a launch that runs on
the tile. The others wait a step; a row that needs a spare takes one, and a bank that has none left is a tile fault on this tile. A mesh hop may fail on any tile. -/
def execScratchpadRowAccess (t bank : Nat) (reqs : List RowReq) (fault : RowFault) (s : State) : Out State :=
  onUnit (bank < 64 && reqs.all RowReq.wf) "bank" <|
  onTile t s fun p tl =>
    let reqs := reqs.filter (fun q => bankOf q.row == bank)
    match grantee (Tab.get 8 tl.lastGrant bank) reqs, tl.part with
    | some g, some _ =>
      let served := reqs.filter (fun q => q == g || (g.write.isNone && q.write.isNone && q.row == g.row))
      let s := if served.length < reqs.length then s.bump Fld.tileSpstatBankwait t 1 else s
      let s := s.race t tl.part (if s.raceAt t tl (reqs.filter (· != g)) g then 1 else 0)
      let s := s.tileEvent p evRow 1
      let s := s.setTile p { tl with lastGrant := Tab.set 8 tl.lastGrant bank g.requester }
      -- what the code finds in the row (R393)
      let r := s.findWords t p (rowErrs fault g.row)
      let s := match g.write with
        | some bytes => if bytes.isEmpty then r.1 else r.1.setTile p ((r.1.tile p).writeRow g.row bytes)
        | none => r.1
      .next ((s.meshFlit t fault).wordFault t p r.2)
    | _, _ => .next (s.meshFlit t fault)

end Sys2Proof.Machine
end

