-- ==== Sys2Proof/Machine/Dma.lean ====
section
/-! DEFINITION. The DMA engines of a tile (R69, R99, R192, R203, R204, R257, R495): the start of an entry, its transfers row by row, the
finish (log 17, DEDUCED). -/

namespace Sys2Proof.Machine

/-- A part of a page transfer (R203). -/
def DmaEntry.part (e : DmaEntry) : Nat := bitsOf e.memOff 12 3
/-- `GROUP0` of a page transfer. -/
def DmaEntry.group0 (e : DmaEntry) : Nat := bitsOf e.memOff 32 32
/-- Row of a page transfer. -/
def DmaEntry.row (e : DmaEntry) : Nat := bitsOf e.memOff 0 12
/-- The entry writes the scratchpad: `OP` 0 and 2. -/
def DmaEntry.fills (e : DmaEntry) : Bool := e.op == 0 || e.op == 2

/-- The region that an entry of a launch names. -/
def State.regionOf (s : State) (i : Item) (r : Nat) : Option Region := (s.launchBoard i).bind (fun b => b.regions[r]?)

/-- The number of transfers of an entry (R204, R495). -/
def dmaCount (i : Item) (e : DmaEntry) (r : Region) : Nat :=
  if r.kind = 2 then (if e.part < 4 then i.word e.tripWord / 32 - e.group0 else 1)
  else if e.tripWord = 0xFFFF then 1 else i.word e.tripWord

/-- The engine of a tile. -/
def Tile.engine (t : Tile) (e : Nat) : Dma := Tab.get Dma.idle t.dma e

/-- An engine replaced. -/
def Tile.setEngine (t : Tile) (e : Nat) (d : Dma) : Tile := { t with dma := Tab.set Dma.idle t.dma e d }

/-- A DMA engine's current entry with the item and region it works for. -/
def State.dmaNow (s : State) (tl : Tile) (e : Nat) : Option (DmaEntry × Item × Region) :=
  match (tl.engine e).entries, s.partItem tl with
  | en :: _, some i => (s.regionOf i en.region).map (fun r => (en, i, r))
  | _, _ => none

/-- `DMA_ENTRY_START` (R99, R189): the engine starts its next entry once the prologue has issued and any wait is satisfied. -/
def execDmaEntryStart (t e : Nat) (s : State) : Out State :=
  onUnit (e < 4) "engine" <|
  onTile t s fun p tl =>
    let d := tl.engine e
    match d.entries with
    | [] => .next s
    | en :: _ =>
      .next (if !d.started && tl.prologueDone && (!en.waits || d.released) then
        s.setTile p (tl.setEngine e { d with started := true, transfer := 0, moving := none })
      else s)

/-! ## Addresses -/

/-- The device address of an offset of a region: kind 4 lies in the remote window of this chip that the binding names (R78, R331). -/
def State.regionBase (s : State) (r : Region) : Option Nat :=
  if r.kind = 4 then (Tab.get none s.windows (r.base % 65536)).map (·.base) else some r.base

/-- An offset of a region used for `n` bytes, checked at use (R84). -/
def State.regionUse (s : State) (tenant item : Nat) (r : Region) (off n : Nat) : DmaSide × State :=
  match s.regionBase r with
  | some b => if off + n ≤ r.bound then (.device (b + off), s) else (.nowhere, s.runBound tenant item)
  | none => (.nowhere, s.runBound tenant item)

/-- A use of an entry of a page table reads marked words (R202). -/
def State.kvMarked (s : State) (p : Pool) (seq idx : Nat) : Bool :=
  seq ≤ 65535 && ((s.memTake (p.seqAddr seq) 1).2.1 || (decide (idx < p.ptEntries) && (s.memTake (p.ptBase + 8 * idx) 8).2.1))

/-- The memory side of transfer `k` of an entry (R203, R204, R495), whether a word that gives it was read marked, so that what the transfer
writes is marked (R392, R395), and the state after these reads. An index that lies outside the region is a suppressed use that reads zero, and the
transfer at that index is checked again (R84). -/
def State.dmaSide (s : State) (i : Item) (en : DmaEntry) (r : Region) (k : Nat) : DmaSide × Bool × State :=
  if r.kind = 2 then
    match s.poolAt i.fn r.base r.bound with
    | none => (.nowhere, false, s.runBound i.fn i.id)
    | some (_, p) =>
      let g := if en.part < 4 then en.group0 + k else i.word en.tripWord / 32
      let seq := i.word (bitsOf en.stride 0 14)
      let idx := p.entryOf (i.word en.indexWord) en.row g
      match s.kvUse i.fn i.id p seq idx with
      | (some e, s) => (.device (p.pageAddr (bitsOf e 0 24) (p.partOffset en.part (g % p.groups))), false, s)
      | (none, s') => (.nowhere, s.kvMarked p seq idx, s')
  else if r.kind = 3 then (.host (s.fld Fld.hwinBase (r.base % 256) + en.memOff + k * en.stride), false, s)
  else if (en.op = 2 || en.op = 3) && en.indexWord = 0xFFFF then
    let x : List Byte × Bool × State := match s.regionUse i.fn i.id r (en.memOff + 4 * k) 4 with
      | (.device a, s) => s.takeFor i.fn a 4
      | (_, s) => ([], false, s)
    let u := (x.2.2.consumed i.id x.2.1).regionUse i.fn i.id r (leNat x.1 * en.stride) en.length
    (u.1, x.2.1, u.2)
  else
    let off := if en.op = 2 || en.op = 3 then en.memOff + i.word (en.indexWord + k) * en.stride else en.memOff + k * en.stride
    let u := s.regionUse i.fn i.id r off en.length
    (u.1, false, u.2)

/-- The bangle of a bangle transfer: its `SPAD_ADDR` is the region base (R192). -/
def Tile.bangleAt (t : Tile) (a : Nat) : Option (Nat × Bangle) :=
  t.bangles.findSome? (fun e => match e.2 with
    | some b => if within a 1 b.base b.size then some (e.1, b) else none
    | none => none)

/-- The scratchpad spans of transfer `k` (R192, R495). -/
def Tile.dmaSegs (t : Tile) (en : DmaEntry) (k : Nat) : List (Nat × Nat) :=
  match t.bangleAt en.spadAddr with
  | some (_, b) => (Opnd.mk b.base (some (b.base, b.size))).segs (if en.fills then b.tail else b.head) en.length
  | none => [(en.spadAddr + k * en.length, en.length)]

/-- The bangle lets the transfer run (R192). -/
def Tile.dmaRoom (t : Tile) (en : DmaEntry) : Bool :=
  match t.bangleAt en.spadAddr with
  | some (_, b) => b.ready (!en.fills) en.length
  | none => true

/-- The pointers of bangle n are about to move: a request of the stream that waits on them may wait no longer, so the watchdog starts again (R33, R193). -/
def Tile.pointerMoves (t : Tile) (tally n : Nat) : Tile :=
  match t.ops with
  | x :: _ =>
    let c := x.insn.opc.toNat
    if (c = opBpush || c = opBpop) && x.insn.arg 0 4 == n && !t.bangleReady x.insn (c == opBpop) then t.stepped tally else t
  | [] => t

/-- The pointers after a transfer (R192), with the audit counts (R400). -/
def State.dmaMove (s : State) (t p : Nat) (en : DmaEntry) : State :=
  let tl := s.tile p
  match tl.bangleAt en.spadAddr with
  | none => s
  | some (n, b) =>
    if en.fills then (s.setTile p ((tl.pointerMoves s.tally n).setBangle n (b.push en.length))).issue 9 (16 * t + n) en.length
    else (s.setTile p ((tl.pointerMoves s.tally n).setBangle n (b.pop en.length))).give 9 (16 * t + n) en.length

/-- The pieces of a span that lie in one scratchpad row each, in ascending order. -/
def rowPieces (g : Nat × Nat) : List (Nat × Nat) :=
  (rowsOf g.1 g.2).map (fun r => let lo := max g.1 (256 * r); (lo, min (g.1 + g.2) (256 * r + 256) - lo))

/-- The side is accessible now: no codeword to be written waits for a poison fill (R262), and a host write waits for Bus Master Enable
(R353). -/
def State.sideReady (s : State) (fn : Nat) (en : DmaEntry) (side : DmaSide) : Bool :=
  match side with
  | .device a => en.fills || s.memReady a en.length
  | .host _ => s.hostReady fn
  | .nowhere => true

/-- A transfer begins: its memory side is found, and a transfer to the scratchpad reads it; a suppressed use reads zeros (R84, R495). -/
def State.dmaBegin (s : State) (i : Item) (en : DmaEntry) (r : Region) (k : Nat) (segs : List (Nat × Nat)) : Moving × State :=
  let side := s.dmaSide i en r k
  let read : List Byte × Bool × State := if en.fills then
      (match side.1 with
        | .device a => side.2.2.takeFor i.fn a en.length
        | _ => (List.replicate en.length 0, false, side.2.2))
    else ([], false, side.2.2)
  let m := side.2.1 || read.2.1
  ({ side := side.1, segs := segs, rows := segs.flatMap rowPieces, bytes := read.1, mark := m }, read.2.2.consumed i.id m)

/-- The row access of a transfer counts once when it meets a pending engine access (R52). -/
def Tile.dmaRaces (t : Tile) (en : DmaEntry) (g : Nat × Nat) : Nat :=
  if t.meetsEngine (g.1 / 256) en.fills (t.entryEvents en) then 1 else 0

/-- One row of a transfer to the scratchpad is written, with its marks (R391, R392). -/
def Tile.fillRow (tl : Tile) (m : Moving) (g : Nat × Nat) : Tile := (tl.writeAt g.1 (m.bytes.take g.2)).markSegs [g] m.mark

/-- A transfer after one of its rows: the bytes written are gone from it, and those read have joined it, with their mark. -/
def Moving.past (m : Moving) (tl : Tile) (en : DmaEntry) (g : Nat × Nat) : Moving :=
  if en.fills then { m with rows := m.rows.drop 1, bytes := m.bytes.drop g.2 }
  else { m with rows := m.rows.drop 1, bytes := m.bytes ++ tl.readSegs [g], mark := m.mark || tl.markedSegs [g] }

/-- A transfer whose last row has moved takes effect in memory or in a host window (R84, R341, R392). -/
def State.dmaLand (s : State) (i : Item) (en : DmaEntry) (m : Moving) : State :=
  if en.fills then s
  else
    let s := s.consumed i.id m.mark
    match m.side with
    | .device a => s.protectedWrite i.fn a m.bytes m.mark
    | .host a =>
      let r := s.hostWrite i.fn a m.bytes m.mark
      if r.1 then r.2 else r.2.outsideItem i.id
    | .nowhere => s

/-- The rest of a transfer when its pieces have moved: it lands, the bangle pointers move, and the engine goes on to the next. -/
def State.dmaEnd (s : State) (t p e : Nat) (i : Item) (en : DmaEntry) (m : Moving) : State :=
  let s := (s.dmaLand i en m).dmaMove t p en
  let d := (s.tile p).engine e
  s.setTile p ((s.tile p).setEngine e { d with transfer := d.transfer + 1, moving := none })

/-- One row of the transfer under way (R172, R182): it is granted, and counts a contention it meets; the last row ends the transfer, which waits while
its memory side is not accessible. -/
def State.dmaRow (s : State) (t p e : Nat) (tl : Tile) (i : Item) (en : DmaEntry) (m : Moving) : State :=
  match m.rows with
  | [] => s.dmaEnd t p e i en m
  | g :: r =>
    if r.isEmpty && !s.sideReady i.fn en m.side then s.setTile p (tl.setEngine e { tl.engine e with moving := some m })
    else
      let s := (s.race t tl.part (tl.dmaRaces en g)).tileEvent p evRow 1
      let m' := m.past tl en g
      let tl' := if en.fills then tl.fillRow m g else tl
      let s := s.setTile p (tl'.setEngine e { tl.engine e with moving := some m' })
      if r.isEmpty then s.dmaEnd t p e i en m' else s

/-- `DMA_TRANSFER` (R495, R192, R203, R84, R341, R392, R52, R182, R394): the transfer of the entry that runs begins and moves its first row, or moves its next
row; a parity error on its path commits nothing. -/
def execDmaTransfer (t e : Nat) (chk : Check) (s : State) : Out State :=
  onUnit (e < 4) "engine" <| s.accepting <|
  onTile t s fun p tl =>
    match s.dmaNow tl e with
    | none => .next s
    | some (en, i, r) =>
      let d := tl.engine e
      if !d.started || dmaCount i en r ≤ d.transfer || (d.moving.isNone && !tl.dmaRoom en) then .next s
      else if chk.failed then .next (s.checkFailed t p chk false)
      else
        let f := s.findWords t p (match chk with
          | .words ws => ws
          | _ => [])
        if f.2.any Prod.fst then .next (f.1.wordFault t p f.2)
        else
          let b := match d.moving with
            | some m => (m, f.1)
            | none => f.1.dmaBegin i en r d.transfer (tl.dmaSegs en d.transfer)
          .next ((b.2.dmaRow t p e (b.2.tile p) i en b.1).wordFault t p f.2)

/-- An engine whose entry has finished. -/
def Dma.next (d : Dma) : Dma := { Dma.idle with entries := d.entries.drop 1 }

/-- `DMA_ENTRY_FINISH` (R99, R100, R185, R257): every transfer is done; the entry signals and leaves the operations in flight. -/
def execDmaEntryFinish (t e : Nat) (s : State) : Out State :=
  onUnit (e < 4) "engine" <|
  onTile t s fun p tl =>
    match s.dmaNow tl e with
    | none => .next s
    | some (en, i, r) =>
      let d := tl.engine e
      if d.started && dmaCount i en r ≤ d.transfer && (!en.signals || tl.signalFits en.signalSync 1) then
        let s := (s.setTile p (tl.setEngine e d.next)).give 10 t 1
        let s := if en.signals then s.signal t p en.signalSync 1 else s
        .next (s.handOut t p)
      else .next s

end Sys2Proof.Machine
end

