-- ==== Sys2Proof/Machine/Attention.lean ====
section
/-! DEFINITION. The locket, rotary codes and attention masks (R206-R213, R220-R226): `LKLOAD` to `AMERGE`. They run on the vector path. -/

namespace Sys2Proof.Machine

/-! ## Slots (R200, R207) -/

/-- A slot of the locket. -/
def Tile.slot (t : Tile) (k : Nat) : Slot := Tab.get Slot.empty t.locket k
/-- A slot replaced. -/
def Tile.setSlot (t : Tile) (k : Nat) (x : Slot) : Tile := { t with locket := Tab.set Slot.empty t.locket k x }

/-- The image offset of a token's key bytes in block b (64 bytes): the key-block layout. -/
def keyOff (b token : Nat) : Nat := 2048 * b + 64 * token
/-- The image offset of a token's value of dimension n in block b (2 bytes): the value-block layout, after the key half. -/
def valOff (hd b n token : Nat) : Nat := 64 * hd + 2048 * b + 64 * n + 2 * token

/-- The byte spans of a token column of an image. -/
def tokenSpans (hd token : Nat) : List (Nat × Nat) :=
  (List.range (hd / 32)).map (fun b => (keyOff b token, 64)) ++
  (List.range (hd / 32)).flatMap (fun b => (List.range 32).map (fun n => (valOff hd b n token, 2)))

/-- The bytes of an image: 128 H D. -/
def imageBytes (p : Pool) : Nat := 128 * (p.heads * p.dim)

/-- The pool of a cache reference in a launch (R208). -/
def State.refPool (s : State) (i : Item) (c : CacheRef) : Option (Nat × Pool) :=
  (s.regionOf i c.region).bind (fun r => if r.kind = 2 then s.poolAt i.fn r.base r.bound else none)

/-- A cache reference (R208). -/
def CacheRef.ofWord (w : Word64) : CacheRef :=
  let v := w.toNat
  { ptw := bitsOf v 0 14, lenw := bitsOf v 14 14, region := bitsOf v 28 4, row := bitsOf v 32 12, idw := bitsOf v 44 14 }

/-- A locket instruction waits for an `LKFL` in flight on its slot, and an `LKFL` for any `LKFL` in flight on the tile (R225). -/
def Tile.locketHeld (t : Tile) (i : Insn) : Bool :=
  t.ops.any (fun x => x.insn.opc.toNat == 0x93 && (i.opc.toNat == 0x93 || x.insn.arg 0 1 == i.arg 0 1))

/-- A locket instruction with the slot's pool: the item, the pool's number and the pool. -/
def locketInsn (t opc : Nat) (chk : Check) (s : State) (ref : Tile → Insn → Option CacheRef)
    (k : Nat → Tile → Insn → Item → Nat × Pool → State) : Out State :=
  onInsn t opc s fun p tl i =>
    match s.partItem tl, ref tl i with
    | some it, some c =>
      match s.refPool it c with
      | some q =>
        if tl.locketHeld i then s
        else if chk.failed then s.checkFailed t p chk false
        else k p tl i it q
      | none => s
    | _, _ => s

/-- The reference that a bound slot carries. -/
def boundRef (tl : Tile) (i : Insn) : Option CacheRef := (tl.slot (i.arg 0 1)).bound

/-- `LKLOAD` (R208, R209): the slot is bound, and the tail image is copied with the columns at or above `FILL` at +0. -/
def execLkload (t : Nat) (chk : Check) (s : State) : Out State :=
  onStore t chk s fun chk s =>
  locketInsn t 0x90 chk s (fun _ i => some (CacheRef.ofWord i.opd2)) fun p tl i it q =>
    let c := CacheRef.ofWord i.opd2
    let hd := q.2.heads * q.2.dim
    let n := imageBytes q.2
    let len := it.word c.lenw
    let fill := len % 32
    let o := tl.opnd i.opd0
    let img := Mem.writeRange [] 0 (tl.sread o 0 n)
    let img := ((List.range (32 - fill)).flatMap (fun r => tokenSpans hd (fill + r))).foldl (fun m g => Mem.zero m g.1 g.2) img
    let slot : Slot := { bound := some c, image := img, marks := [], lbase := len - fill, fill := fill, from_ := fill,
                         pendingFlush := false, dead := false }
    s.runEffect t p tl i .pass
      { tile := tl.setSlot (i.arg 0 1) slot, reads := o.segs 0 n,
        mark := fun m t => t.setSlot (i.arg 0 1) { slot with marks := markSpan [] 0 n m },
        occ := hd / 2, lat := 2 }

/-- The BF16 code of an FP32 element and whether it saturated (R125). -/
def bf16Of (w : Word32) : Nat × Bool := Fmt.bf16.encode (ofF32 w)

/-- One token appended at column r of an image: its keys and values, and the saturations (R209). -/
def putToken (p : Pool) (img : Mem) (r u : Nat) (keys vals : Nat → Word32) : Mem × Nat :=
  (List.range (p.heads * p.dim)).foldl (fun acc e =>
    let b := e / 32
    let n := e % 32
    let k := bf16Of (keys (u * (p.heads * p.dim) + e))
    let v := bf16Of (vals (u * (p.heads * p.dim) + e))
    (Mem.writeNat (Mem.writeNat acc.1 (keyOff b r + 2 * n) 2 k.1) (valOff (p.heads * p.dim) b n r) 2 v.1,
     acc.2 + (if k.2 then 1 else 0) + (if v.2 then 1 else 0))) (img, 0)

/-- `LKPUT` (R209, R210): tokens beyond column 31, and all tokens after a suppressed flush, are dropped and counted. -/
def execLkput (t : Nat) (chk : Check) (s : State) : Out State :=
  onStore t chk s fun chk s =>
  locketInsn t 0x91 chk s boundRef fun p tl i it q =>
    let hd := q.2.heads * q.2.dim
    let cnt := i.arg 1 5 + 1
    let x := tl.slot (i.arg 0 1)
    let ka := tl.vaddr i.opd1
    let va := tl.vaddr i.opd2
    let n := if x.dead then 0 else min cnt (32 - x.fill)
    let f (a e : Nat) : Word32 := BitVec.ofNat 32 (Mem.readNat tl.vbuf (a + 4 * e) 4)
    let r := (List.range n).foldl (fun (acc : Mem × Nat) u =>
      let y := putToken q.2 acc.1 (x.fill + u) u (f ka) (f va)
      (y.1, acc.2 + y.2)) (x.image, 0)
    let slot := { x with image := r.1, fill := x.fill + n, pendingFlush := true }
    let spans := (List.range n).flatMap (fun u => tokenSpans hd (x.fill + u))
    let s' := s.runEffect t p tl i .pass
      { tile := tl.setSlot (i.arg 0 1) slot, vreads := [(ka, 4 * cnt * hd), (va, 4 * cnt * hd)], sats := r.2,
        mark := fun m t => t.setSlot (i.arg 0 1) { slot with marks := spans.foldl (fun k g => markSpan k g.1 g.2 m) slot.marks },
        occ := ceilDiv (cnt * hd * 2) 64, lat := 4 }
    if n < cnt then
      (s'.bump Fld.kvFaultOverfill it.fn (cnt - n)).bump Fld.boardFaultRunbound it.fn (cnt - n) |>.modItem it.id
        (fun y => { (y.addStatus stRejected) with cause := causeRuntimeBound })
    else s'

/-- Some unit of an image is marked. -/
def Slot.marked (x : Slot) (n : Nat) : Bool := (unitsOf 0 n).any (fun u => Tab.get false x.marks u)

/-- `LKRD` (R209): the slot's image, keys and then values. -/
def execLkrd (t : Nat) (chk : Check) (s : State) : Out State :=
  onStore t chk s fun chk s =>
  locketInsn t 0x92 chk s boundRef fun p tl i _ q =>
    let x := tl.slot (i.arg 0 1)
    let n := imageBytes q.2
    let o := tl.opnd i.opd0
    s.runEffect t p tl i .pass
      { tile := tl.sput o 0 (Mem.readRange x.image 0 n), writes := o.segs 0 n, extra := x.marked n,
        occ := q.2.heads * q.2.dim / 2, lat := 2 }

/-! ## The flush (R210, R213) -/

/-- The 32-byte units of the image that hold a byte of columns [from, fill). -/
def tailUnits (hd lo hi : Nat) : List Nat :=
  (((List.range (hi - lo)).flatMap (fun k => (tokenSpans hd (lo + k)).flatMap (fun g => unitsOf g.1 g.2))).eraseDups)

/-- The flush's writes of a tail or of a BF16 group: (page offset, bytes) of each unit (R210). -/
def tailWrites (p : Pool) (x : Slot) (g : Nat) : List (Nat × List Byte) :=
  let hd := p.heads * p.dim
  (tailUnits hd x.from_ x.fill).map (fun u =>
    let o := 32 * u
    (if o < 64 * hd then p.partOffset 4 g + o else p.partOffset 5 g + (o - 64 * hd), Mem.readRange x.image o 32))

/-- The values of key column r of block b: 32 dimensions of one token; of value column n: 32 tokens of one dimension. -/
def imageColumn (x : Slot) (o : Nat) : List Val := (List.range 32).map (fun e => Fmt.bf16.decode (Mem.readNat x.image (o + 2 * e) 2))

/-- A full MX group encoded: block bytes and scale bytes of a half, with its counts (R126, R210). -/
def encodeHalf (p : Pool) (x : Slot) (base : Nat) : List Byte × List Byte × ConvStats :=
  let fmt := p.fmt
  ((List.range (p.heads * p.dim)).map (fun c => mxRow (Fmt.ofCode fmt) (imageColumn x (base + 64 * c)))).foldr
    (fun r acc => (rowBytes r.2.1 fmt ++ acc.1, BitVec.ofNat 8 r.1 :: acc.2.1, r.2.2.add acc.2.2)) ([], [], ConvStats.none)

/-- The flush's writes and counts: a full MX group is encoded; otherwise the appended units are copied. -/
def flushWrites (p : Pool) (x : Slot) (g : Nat) : List (Nat × List Byte) × ConvStats :=
  if p.mx && x.fill == 32 then
    let k := encodeHalf p x 0
    let v := encodeHalf p x (64 * (p.heads * p.dim))
    ([(p.partOffset 0 g, k.1), (p.partOffset 1 g, v.1), (p.partOffset 2 g, k.2.1), (p.partOffset 3 g, v.2.1)], k.2.2.add v.2.2)
  else (tailWrites p x g, ConvStats.none)

/-- The page that a flush writes, after the copy-on-write that a shared entry needs; none when the copy cannot be made (R213). -/
def State.copyOnWrite (s : State) (tenant item k : Nat) (p : Pool) (idx e : Nat) : Option Nat × State :=
  let old := bitsOf e 0 24
  let priv := bitsOf e 32 24
  if !bitOf e 25 then (some old, s)
  else if !bitOf e 56 || p.pages ≤ priv then (none, s.kvSuppress tenant item Fld.kvFaultCowfail)
  else
    let a := s.ctrlRead (some item) (p.stateAddr priv) 4
    let b := a.2.ctrlRead (some item) (p.stateAddr old) 4
    if bitsOf a.1 0 18 = 0 ∧ 0 < bitsOf b.1 0 17 then
      let c := b.2.copyPage tenant p old priv
      let s := (c.1.consumed item c.2).firstRef tenant k p priv
      let s := s.putNatFor tenant (p.ptBase + 8 * idx) 8 (priv + 2 ^ 24)
      (some priv, s.unref tenant item k p old)
    else (none, b.2.kvSuppress tenant item Fld.kvFaultCowfail)

/-- The slot after a flush that was made. -/
def Slot.flushed (x : Slot) : Slot :=
  if x.fill = 32 then { x with lbase := x.lbase + 32, fill := 0, from_ := 0, image := [], marks := [], pendingFlush := false }
  else { x with from_ := x.fill, pendingFlush := false }

/-- The use of the entry, the copy and the writes of a flush (R202, R210, R213, R226); a suppressed flush leaves the image as it was and
drops later appends (log 217, DESIGN CHOICE). -/
def State.flush (s : State) (t p slot : Nat) (it : Item) (q : Nat × Pool) (x : Slot) : State :=
  let done (s : State) (y : Slot) : State := s.setTile p ((s.tile p).setSlot slot y)
  match x.bound with
  | none => s
  | some c =>
    let g := x.lbase / 32
    let idx := q.2.entryOf (it.word c.ptw) c.row g
    match s.kvUse it.fn it.id q.2 (it.word c.idw) idx with
    | (none, s) => done s { x with pendingFlush := false, dead := true }
    | (some e, s) =>
      match s.copyOnWrite it.fn it.id q.1 q.2 idx e with
      | (none, s) => done s { x with pendingFlush := false, dead := true }
      | (some page, s) =>
        let w := flushWrites q.2 x (g % q.2.groups)
        let m := x.marked (imageBytes q.2)
        let s := w.1.foldl (fun (s : State) e => s.storeMarked it.fn (q.2.pageAddr page e.1) (e.2.map (fun b => (b, m)))) s
        let s := if w.1.isEmpty then s else s.bump Fld.kvStatFlushes it.fn 1
        done ((s.bump Fld.kvStatNonfinite it.fn w.2.nonfinite).vstat t w.2.sats 0 0 |>.consumed it.id m) x.flushed

/-- `LKFL` (R210): a slot that is not pending writes nothing (log 215, DESIGN CHOICE). -/
def execLkfl (t : Nat) (chk : Check) (s : State) : Out State :=
  s.accepting <| onStore t chk s fun chk s =>
  locketInsn t 0x93 chk s boundRef fun p tl i it q =>
    let x := tl.slot (i.arg 0 1)
    let s := if x.pendingFlush then s.flush t p (i.arg 0 1) it q x else s
    s.runEffect t p (s.tile p) i .pass { tile := s.tile p, occ := 2, lat := if x.fill = 32 then q.2.heads * q.2.dim else 0 }

/-! ## Rotary codes (R220, R221) -/

/-- `ROPET` (R220): the entries of the angle table (log 216, DESIGN CHOICE). -/
def execRopet (t : Nat) (chk : Check) (s : State) : Out State :=
  onStore t chk s fun chk s =>
  pathInsn t 0x94 chk s fun tl i =>
    let n := i.arg 0 9
    let o := tl.opnd i.opd1
    let tab := (List.range n).foldl (fun m k => Tab.set 0 m k (BitVec.ofNat 48 (leNat (tl.sread o (8 * k) 6)))) tl.angle
    { tile := { tl with angle := tab }, reads := o.segs 0 (8 * n),
      mark := fun m t => if m || n == 128 then { t with angleMark := m } else t, occ := ceilDiv n 32, lat := 2 }

/-- π on the grid 2^-320, rounded down. -/
def sfPi : Nat :=
  6710401180212168915155840974220003240804194089427148950727106424351713218671805380099500388914039

/-- The terms of the sine or cosine series from x^k / k! on, alternating, x² on the grid. -/
def trigTerms : Nat → Nat → Nat → Nat → Int
  | 0, _, _, _ => 0
  | n + 1, k, term, x2 => (term : Int) - trigTerms n (k + 2) (term * x2 / 2 ^ sfP / ((k + 1) * (k + 2))) x2

/-- sin and cos of 2π r / 2^32 for r below 2^30, on the grid. -/
def trigGrid (r : Nat) : Nat × Nat :=
  let x := 2 * sfPi * r / 2 ^ 32
  let x2 := x * x / 2 ^ sfP
  ((trigTerms 50 1 x x2).toNat, (trigTerms 50 0 (2 ^ sfP) x2).toNat)

/-- A grid value rounded to FP32; exact at a multiple of a quarter turn (log 14, PRESUMED). -/
def trigF32 (neg : Bool) (r v : Nat) : Val :=
  Fmt.fp32.decode (Fmt.fp32.encodeMag (neg && v != 0) v (-(sfP : Int)) (r != 0) none).1

/-- cos φ and sin φ of φ = 2π k / 2^32, each correctly rounded to FP32 (R221). -/
def cosSin (k : Nat) : Val × Val :=
  let r := k % 2 ^ 30
  let g := trigGrid r
  match k / 2 ^ 30 % 4 with
  | 0 => (trigF32 false r g.2, trigF32 false r g.1)
  | 1 => (trigF32 true r g.1, trigF32 false r g.2)
  | 2 => (trigF32 true r g.2, trigF32 true r g.1)
  | _ => (trigF32 false r g.1, trigF32 true r g.2)

/-- The rotation of position p and entry U (R221). -/
def rotation (p : Nat) (u : BitVec 48) : Val × Val := cosSin (p * u.toNat % 2 ^ 48 / 2 ^ 16)

/-- The head dimension of `ROPE`. -/
def Insn.ropeDim (i : Insn) : Nat := 64 * 2 ^ i.arg 8 2

/-- One row of `ROPE`: outputs with their saturations (log 44, DEDUCED). -/
def ropeRow (d q : Nat) (halves : Bool) (rot : List (Val × Val)) (x : List Word32) : List (Word32 × Bool) :=
  (List.range d).map (fun e =>
    let pair : Option (Nat × Bool) :=
      if halves then (if e < q then some (e, false) else if e < 2 * q then some (e - q, true) else none)
      else (if e < 2 * q then some (e / 2, e % 2 == 1) else none)
    match pair with
    | none => (x.getD e 0, false)
    | some (k, second) =>
      let a := ofF32 (x.getD (if halves then k else 2 * k) 0)
      let b := ofF32 (x.getD (if halves then k + q else 2 * k + 1) 0)
      let cs := rot.getD k (.zero, .zero)
      f32Sat (if second then Val.add (Val.mul a cs.2) (Val.mul b cs.1) else Val.add (Val.mul a cs.1) (Val.mul b cs.2).neg))

/-- `ROPE` (R221). -/
def execRope (t : Nat) (chk : Check) (s : State) : Out State :=
  onStore t chk s fun chk s =>
  pathInsn t 0x95 chk s fun tl i =>
    let rows := i.arg 0 8 + 1
    let d := i.ropeDim
    let q := i.arg 10 8
    let src := tl.vaddr i.opd1
    let dst := tl.vaddr i.opd0
    let pa := tl.vaddr i.opd2
    let posrow := i.argBit 19
    let pos (m : Nat) : Nat := if posrow then (Mem.readNat tl.vbuf pa 4 + m) % 2 ^ 32 else Mem.readNat tl.vbuf (pa + 4 * m) 4
    let out := (List.range rows).flatMap (fun m =>
      ropeRow d q (i.argBit 18) ((List.range q).map (fun k => rotation (pos m) (Tab.get 0 tl.angle k))) (tl.vread (src + 4 * d * m) d))
    { tile := tl.vput dst (out.map (fun r => some r.1)), vreads := [(src, 4 * d * rows), (pa, if posrow then 4 else 4 * rows)],
      vwrites := [(dst, 4 * d * rows)], extra := tl.angleMark, sats := (out.filter Prod.snd).length,
      occ := (rows + 1) * ceilDiv d 64, lat := 10 }

/-! ## Masks and split rows (R222, R223) -/

/-- `AMASK` (R222): bit i is 1 exactly when p₀ + i < λ. -/
def execAmask (t : Nat) (chk : Check) (s : State) : Out State :=
  onStore t chk s fun chk s =>
  pathInsn t 0x96 chk s fun tl i =>
    let n := s.vcount tl i
    if n = 0 then { tl.idle with lat := 2 } else
    let a := tl.vaddr i.opd1
    let b := tl.vaddr i.opd2
    let p0 := Mem.readNat tl.vbuf a 4
    let lam := Mem.readNat tl.vbuf b 4
    { tile := tl.setMask i.mdst (maskPut (tl.maskReg i.mdst) ((List.range n).map (fun k => some (decide (p0 + k < lam))))),
      vreads := [(a, 4), (b, 4)], mark := maskMark i.mdst (n == 8192), occ := ceilDiv n 2048, lat := 2 }

/-- `APSMX` (R223): softmax of one chunk of a row, with its sum in the record. -/
def execApsmx (t : Nat) (chk : Check) (s : State) : Out State :=
  onStore t chk s fun chk s =>
  pathInsn t 0x97 chk s fun tl i => tl.softmaxEffect i (s.vcount tl i) true

/-- `AMERGE` (R223): with no chunk active, N = 0 among them, the merged record holds S = +0 and bit 0 (log 47, DEDUCED). -/
def execAmerge (t : Nat) (chk : Check) (s : State) : Out State :=
  onStore t chk s fun chk s =>
  pathInsn t 0x98 chk s fun tl i =>
    let n := s.vcount tl i
    let a := tl.vaddr i.opd1
    let rec_ := tl.vaddr i.opd2
    let act := tl.actives i n
    let recs := (List.range n).map (fun c => (tl.vw34 (a + 16 * c + 8), Mem.readNat tl.vbuf (a + 16 * c + 4) 4))
    let on := (List.zip act recs).filterMap (fun x => if x.1 then some x.2 else none)
    let total := on.foldl (fun acc r => w34AddSat acc.1 r.1) ((0 : W34), false)
    let sum := total.1
    let sv := ofW34 sum
    let rs := recs.map (fun r => if sv.isZero then ((0 : Word32), false)
      else (let d := divRound .fp32 (ofW34 r.1) sv; (BitVec.ofNat 32 d.1, d.2)))
    let flags := (if on.all (fun r => bitOf r.2 0) then 1 else 0) + (if !on.isEmpty && sv.isZero then 2 else 0) +
      (if on.any (fun r => bitOf r.2 2) then 4 else 0) + (if sv.isFin then 0 else 8)
    let e := tl.laneEffect i act rs [(a, 16 * n)] [] 16
    { e with tile := (e.tile.vbytes (rec_ + 4) (leBytes 4 flags)).vbytes (rec_ + 8) (leBytes 8 sum.toNat),
             vwrites := e.vwrites ++ [(rec_ + 4, 12)], sats := e.sats + (if total.2 then 1 else 0), occ := ceilDiv n 4 + 2 }

end Sys2Proof.Machine
end

