-- ==== Sys2Proof/Machine/Bound.lean ====
section
/-! DEFINITION. Register writes that hardware discards (R309, R450, R451, R492), and who may write the shared configuration. -/

namespace Sys2Proof.Machine

/-- At most one `BOUND` record per second (R451). -/
def State.boundDue (s : State) : Bool :=
  match s.sec.boundAt with
  | none => true
  | some c => c + 1000000000 ≤ s.tally

/-- A write by an agent that R309, R450 or R492 discards (R451): it changes nothing; the MGC's and Loupe's count in `SEC_BOUND`, and a `BOUND` record holds
the agent, the register offset and the number of writes discarded since the last such record. -/
def State.boundDiscard (s : State) (a : Agent) (offset : Nat) : State :=
  match a with
  | .hostPf | .hostVf _ => s
  | .mgc | .loupe =>
    let loupe := a == .loupe
    let s := s.bump (if loupe then Fld.secBoundLoupe else Fld.secBoundMgc) 0 1
    let s := (s.setFld Fld.secBoundLastOffset 0 (offset / 4)).setFlag Fld.secBoundLastAgent 0 loupe
    let n := s.sec.boundWrites + 1
    if s.boundDue then
      let s := { s with sec := { s.sec with boundWrites := 0, boundAt := some s.tally } }
      s.journal recBound [if loupe then 1 else 0, offset, n]
    else { s with sec := { s.sec with boundWrites := n } }

/-- The agent can make an access: the MGC does while it runs its firmware and the probe does not hold it (R430, R436, R454). -/
def State.agentActs (s : State) (a : Agent) : Bool := a != .mgc || (s.sec.mgcRuns && !s.sec.mgcHalted)

/-- A register that only the physical function's host driver writes (R309, R340, R450): another agent's write is discarded. -/
def onHostPf (a : Agent) (offset : Nat) (s : State) (k : State → State) : State :=
  if a = .hostPf then k s else if s.agentActs a then s.boundDiscard a offset else s

/-- The set-up lock point has been reached (R493). -/
def State.locked (s : State) : Bool := s.flag Fld.setupStatLocked 0

end Sys2Proof.Machine
end

