-- ==== Sys2Proof/Machine/Timing.lean ====
section
/-! DEFINITION. The Tally, timing frames, rate monitors, the stall watchdog and the change of tile mode (R33, R36, R40-R44, R56-R58). -/

namespace Sys2Proof.Machine

/-! ## Launches on the device -/

/-- The item is a launch that has passed event 4 and has not ended. -/
def Item.launched (i : Item) : Bool := i.launch.isSome && (i.phase == .passed4 || i.phase == .armed || i.phase == .running)

/-- A launch has begun and has not ended. -/
def State.launchRuns (s : State) : Bool := s.items.any (fun i => i.launch.isSome && i.phase == .running)

/-! ## The Tally (R40-R44) -/

/-- The role: 3 is treated as 0 (R44). -/
def State.tallyRole (s : State) : Nat := let r := s.fld Fld.tallyCtlRole 0; if r = 3 then 0 else r

/-- The machine leader. -/
def State.tallyLeader (s : State) : Bool := s.tallyRole == 0

/-- The parent link can carry a frame: a value above 19 is a lost parent, and a link that is down is lost (R43, R44) (log 111, DEDUCED). -/
def State.parentUp (s : State) : Bool :=
  let l := s.fld Fld.tallyCtlParent 0
  l < 20 && (s.linkState l == 2 || s.linkState l == 3)

/-- `TALLY_STAT.HOLDOVER` (R44). -/
def State.holdover (s : State) : Bool := !s.tallyLeader && (!s.flag Fld.tallyCtlEnable 0 || !s.parentUp)

/-- The bound of R43 on the estimated error: 10 ns for a group leader, 4 ns for a group member. -/
def State.tallyBound (s : State) : Nat := if s.tallyRole = 1 then 10 else 4

/-- The management domain runs, so the Tally counts (R40, R476). -/
def State.awake (s : State) : Bool := s.pins.vaux && s.pins.porN

/-- The main power is good: `PG_MAIN` is high, and no rail fault has been detected since it rose (R477). -/
def State.mainGood (s : State) : Bool := s.pins.pgMain && !s.pins.railFault

/-- A clamp of a region is engaged for one more count (R429) (log 143, DEDUCED). -/
def State.clampTick (s : State) (r : Nat) : State :=
  if !(s.flag Fld.pwrRegionTherm r || s.flag Fld.pwrRegionPower r) || s.fld Fld.pwrStatState 0 = 3 then s
  else
    let n := Tab.get 0 s.power.clampNs r + 1
    let s' := { s with power := { s.power with clampNs := Tab.set 0 s.power.clampNs r (n % 1000000) } }
    if n = 1000000 then s'.bump Fld.pwrRegionClampMs r 1 else s'

/-- `TALLY_TICK` (R40, R43, R424, R429): one count; in holdover the estimated error is a free value (log 21, DEDUCED), and `ALIGNED` clears once it exceeds the
bound. -/
def execTallyTick (s : State) : Out State :=
  whenever s.awake s <|
  let s := (List.range 16).foldl State.clampTick ({ s with tally := s.tally + 1 }).idleTick
  if s.holdover then
    let e := min 255 (Config.holdoverError s.draws)
    let s := ({ s with draws := s.draws + 1 }).setFld Fld.tallyStatErrNs 0 e
    if s.tallyBound < e then s.setFlag Fld.tallyStatAligned 0 false else s
  else s

/-- `CORE_RATE_UPDATE` (R36): `steps` is what the region's monitor counted in the last 1,000 counts. It stops in P2 and P3. -/
def execCoreRateUpdate (region steps : Nat) (s : State) : Out State :=
  onUnit (region < 16) "region" <|
  whenever (1000 ≤ s.tally && s.fld Fld.pwrStatState 0 < 2) s <|
  let v := min steps 65535
  (s.setFld Fld.coreRateRate region v).setFld Fld.coreRateMin region (min v (s.fld Fld.coreRateMin region))

/-- A timing frame of this chip. -/
def State.timingFrame (s : State) (dst : Nat) : Packet :=
  Packet.make dst s.chipId .mgmt 0 0 .timing 0 0 0 [] [] false

/-- `TIMING_FRAME_SEND` (R41): a chip that follows a parent sends a frame over the parent link, which waits while the link's `MGMT` queue is
full (R301). -/
def execTimingFrameSend (s : State) : Out State :=
  let l := s.fld Fld.tallyCtlParent 0
  whenever (!s.tallyLeader && s.flag Fld.tallyCtlEnable 0 && s.parentUp && !s.mgmtFull l) s <|
  s.enqueue l 20 (s.timingFrame (s.fld Fld.linkStatPeerChip l))

/-- A timing frame delivered to this chip can be dealt with: the answer to a follower waits while the `MGMT` queue of its link is full (R301). -/
def State.timingReady (s : State) (l : Nat) : Bool :=
  (!s.tallyLeader && l == s.fld Fld.tallyCtlParent 0) || !s.flag Fld.tallyCtlEnable 0 || 20 ≤ l || !s.mgmtFull l

/-- The first timing frame delivered to this chip that can be dealt with. -/
def State.firstTiming (s : State) : Option (Nat × Packet) := s.inbound.find? (fun e => e.2.kind == .timing && s.timingReady e.1)

/-- The estimated error as a received frame leaves it (R43, R44). -/
def State.setTallyError (s : State) (err : Nat) : State :=
  let s := s.setFld Fld.tallyStatErrNs 0 (min err 255)
  if err ≤ s.tallyBound then (s.setFlag Fld.tallyStatAligned 0 true).setFlag Fld.tallyStatLocked 0 true
  else s.setFlag Fld.tallyStatAligned 0 false

/-- A frame of the parent completes a two-way measurement (R41-R43). -/
def State.timingMeasured (s : State) (offset : Int) (errNs : Nat) : State :=
  let s := if 0 < offset && !s.flag Fld.tallyStatLocked 0 && !s.tallyStepped && !s.launchRuns then
      { s with tally := s.tally + offset.toNat, tallyStepped := true }
    else s
  s.setTallyError errNs

/-- `TIMING_FRAME_RECEIVE` (R41-R44, R301): a frame of the parent completes a two-way measurement: `offset` is the parent's count less this chip's,
`errNs` the estimated error that remains. Before its first lock a chip that runs no launch steps forward once; afterwards the count is slewed,
which shows in when its ticks come (log 23, DEDUCED). A frame of any other chip is a follower's, and is answered over its link (log 110, DEDUCED). A chip with
`ENABLE` = 0 exchanges no frames and drops them. -/
def execTimingFrameReceive (offset : Int) (errNs : Nat) (s : State) : Out State :=
  match s.firstTiming with
  | none => .next s
  | some (l, p) =>
    let v := { s with inbound := s.inbound.erase (l, p) }
    if !s.flag Fld.tallyCtlEnable 0 then .next v
    else if !s.tallyLeader && l == s.fld Fld.tallyCtlParent 0 then .next (v.timingMeasured offset errNs)
    else .next (if l < 20 then v.enqueue l 20 (v.timingFrame p.src) else v)

/-! ## The stall watchdog (R33) -/

/-- An operation in flight that waits for nothing (R33): a finished one whose signal has room, the front of a path whose start conditions hold
(R104), a request whose moment has come. Transfers and landings wait for others, and so does a `RED` with no source ready. -/
def Tile.stuck (t : Tile) (x : Op) : Bool :=
  let c := x.insn.opc.toNat
  let front := (t.streamFront.map (·.id)) == some x.id
  let loaded := (t.before x).all (fun y => y.insn.opc.toNat != opLdb)
  let head := (t.ops.head?.map (·.id)) == some x.id
  if c = opRsend || c = opRland then x.done && t.signalRoom x.insn
  else if c = opSsig then head && t.ssigRoom x.insn
  else if c = opBpush || c = opBpop then head && t.bangleReady x.insn (c == opBpop) && t.signalRoom x.insn
  else if x.done then t.signalRoom x.insn
  else if c = opLdb then t.loadReady x && t.signalRoom x.insn
  else if c = opRed then front && t.accFree x && (x.source.isSome || (List.range 16).any x.mayAdd)
  else if c = opMma then front && t.accFree x && (!x.insn.swaps || x.swapped || loaded)
  else if c = opSwap then front && loaded
  else if c = opDrain then (t.drainFront.map (·.id)) == some x.id && t.accFree x
  else true

/-- `STALL_WATCHDOG_EXPIRY` (R33, R387, R390, R415): a sequencer with work issued that is not waiting has completed no step for 2^LIMIT counts; values
below 12 are treated as 12 (R491). The under-voltage guard of the region does not hold it up; the probe and a carry do. -/
def execStallWatchdogExpiry (t : Nat) (s : State) : Out State :=
  onUnit (t < 256) "tile" <|
  match s.physOf t with
  | none => .next s
  | some p =>
    let tl := s.tile p
    whenever (!tl.halted && !s.carries.any (fun c => c.logical == t) && tl.ops.any tl.stuck &&
        tl.lastStep + 2 ^ max 12 (s.fld Fld.coreStallCtlLimit 0) ≤ s.tally) s (s.tileFault t p false false)

/-! ## Residency (R176, R177, R180) -/

/-- The scratchpad of a logical tile set fresh. -/
def State.freshTile (s : State) (t : Nat) : State :=
  match s.physOf t with
  | some p => s.setTile p (s.tile p).freshAll
  | none => s

/-- The residency of a logical tile ends, when it has an owner (R177) (log 68, DEDUCED). -/
def State.endResidency (s : State) (t : Nat) : State :=
  if s.flag Fld.tileResidencyValid t then
    (((s.setFlag Fld.tileResidencyValid t false).setFld Fld.tileResidencyHandle t 0).setFld Fld.tileResidencyTenant t 0).bump
      Fld.tileResidencyLosses t 1 |>.freshTile t
  else s

/-- Residency ends on every tile whose owner meets a condition. -/
def State.endResidencyOf (s : State) (tenant : Nat) (handle : Option Nat) : State :=
  (List.range 256).foldl (fun s t =>
    if s.fld Fld.tileResidencyTenant t = tenant && (handle.all (· == s.fld Fld.tileResidencyHandle t)) then s.endResidency t else s) s

/-! ## The change of tile mode (R57, R390, R483) -/

/-- A physical tile's storage at its launch-start value, and its corrections counted anew from this start-up; the rows that spare rows have taken over stay (R393, R394,
R485). -/
def Tile.blank (t : Tile) : Tile :=
  { Tile.empty with rowSpare := t.rowSpare, halted := t.halted }

/-- The binding of a logical tile moves to a physical tile that carries nothing: every row is fresh, and there is no residency (R177). -/
def State.bindTile (s : State) (t p : Nat) : State :=
  let s := s.endResidency t
  let s := s.setTile p (s.tile p).blank
  ((s.setFld Fld.tilePhysState p 0).setFld Fld.tilePhysLogical p t).setFlag Fld.tileArrayStrand t (s.flag Fld.tilePhysArrayFenced p)

/-- A logical tile that no physical tile serves takes the lowest-numbered spare (R483). -/
def State.serveTile (s : State) (t : Nat) : State :=
  if (s.physOf t).isSome then s
  else match (s.physIn 1).head? with
    | some p => (s.bindTile t p).journal recTile ((s.bindTile t p).tileRecord p)
    | none => s

/-- The physical tiles that serve logical tiles 240-255 become spares. -/
def State.freeRow15 (s : State) : State :=
  ((List.range 16).map (240 + ·)).foldl (fun s t =>
    match s.physOf t with
    | some p => let s := (s.endResidency t).setFld Fld.tilePhysState p 1; s.journal recTile (s.tileRecord p)
    | none => s) s

/-- `TILE_MODE_CHANGE` (R57): a change that is due is made once no launch that has passed event 4 is left. It is journalled, and the launches that wait at
event 4 are then checked in order (`LAUNCH_CHECK`) (log 66, DEDUCED) (log 67, DEDUCED). -/
def execTileModeChange (s : State) : Out State :=
  match s.modeDue with
  | none => .next s
  | some m =>
    whenever (!s.items.any Item.launched) s <|
    let s := ({ s with modeDue := none }).setFld Fld.coreModeTiles 0 m
    let s := s.journal recTileMode [m]
    if m = 1 then (List.range 240).foldl State.serveTile s.freeRow15 else s

end Sys2Proof.Machine
end

