-- ==== Sys2Proof/Machine/Descriptor.lean ====
section
/-! DEFINITION. Descriptors (R360-R366): their fields, the checks of event 3, and the order in which the items of a ring pass it (R370). -/

namespace Sys2Proof.Machine

/-! ## Fields -/

/-- `TYPE`. -/
def descType (d : List Byte) : Nat := leAt d 0 1
/-- `FLAGS`. -/
def descFlags (d : List Byte) : Nat := leAt d 1 1
/-- `FENCE`. -/
def descFence (d : List Byte) : Bool := bitOf (descFlags d) 0
/-- `DEV_ADDR`. -/
def descDev (d : List Byte) : Bool := bitOf (descFlags d) 1
/-- `USER`. -/
def descUser (d : List Byte) : Nat := leAt d 8 8
/-- `HANDLE` of `LAUNCH`, `LOAD` and `RETIRE`. -/
def descHandle (d : List Byte) : Nat := leAt d 0x10 1
/-- `LIST_ADDR`, `COUNT`, `HBUF_ADDR` and `HBUF_BYTES` of a list-driven type. -/
def descList (d : List Byte) : Nat := leAt d 0x10 8
def descCount (d : List Byte) : Nat := leAt d 0x18 2
def descHbuf (d : List Byte) : Nat := leAt d 0x20 8
def descHbytes (d : List Byte) : Nat := leAt d 0x28 8

/-! The types of R361. -/
def tyLaunch : Nat := 0x01
def tyLoad : Nat := 0x02
def tyRetire : Nat := 0x03
def tyPageCmd : Nat := 0x04
def tyIngest : Nat := 0x05
def tyIngestCmd : Nat := 0x06
def tyWindowCmd : Nat := 0x07
def tyNop : Nat := 0x0F

/-- A type that R361 lists. -/
def typeListed (t : Nat) : Bool := (1 ≤ t && t ≤ 7) || t == tyNop

/-- A list-driven type (R364). -/
def typeList (t : Nat) : Bool := 4 ≤ t && t ≤ 7

/-- The reserved bytes of a body by type: (offset, length) (R362-R364). -/
def reservedSpans (t : Nat) : List (Nat × Nat) :=
  if t = tyLaunch then [(0x11, 1), (0x14, 4), (0x28, 24)]
  else if t = tyLoad then [(0x11, 7), (0x38, 8)]
  else if t = tyRetire then [(0x11, 47)]
  else if typeList t then [(0x1A, 6), (0x30, 16)]
  else [(0x10, 48)]

/-- Bytes that are all zero. -/
def zeroBytes (d : List Byte) (a n : Nat) : Bool := ((d.drop a).take n).all (· == 0)

/-- Step 2 of R366. -/
def descReservedOk (d : List Byte) : Bool :=
  descFlags d < 4 && zeroBytes d 2 6 && (reservedSpans (descType d)).all (fun g => zeroBytes d g.1 g.2)

/-- Step 3 of R366: ranges and alignment. -/
def descRangeOk (d : List Byte) : Bool :=
  let t := descType d
  if t = tyLaunch then leAt d 0x18 8 % 64 == 0
  else if t = tyLoad then
    leAt d 0x18 8 % 64 == 0 && leAt d 0x20 8 % 64 == 0 && leAt d 0x28 8 % 64 == 0 && 128 ≤ leAt d 0x28 8 && leAt d 0x28 8 ≤ 2 ^ 28 &&
      leAt d 0x30 8 % 64 == 0
  else if typeList t then
    descList d % 64 == 0 && 1 ≤ descCount d && descCount d ≤ (if t = tyPageCmd then 4096 else 256) &&
      (if t = tyPageCmd then descHbuf d % 64 == 0 && descHbytes d % 64 == 0 else descHbuf d == 0 && descHbytes d == 0)
  else true

/-- Bytes of a list entry: 16 for a page command (R214), 128 for an ingest segment (R267), 32 otherwise (R281, R331). -/
def listEntryBytes (t : Nat) : Nat := if t = tyPageCmd then 16 else if t = tyIngest then 128 else 32

/-- A range lies inside one window of the tenant with both `READ` and `WRITE` (R364). -/
def State.hostReadWrite (s : State) (tenant a n : Nat) : Bool :=
  (List.range 256).any (fun w =>
    s.flag Fld.hwinEnable w && s.flag Fld.hwinLock w && s.fld Fld.hwinTenant w == tenant && s.flag Fld.hwinRead w &&
      s.flag Fld.hwinWrite w && within a n (s.fld Fld.hwinBase w) (s.fld Fld.hwinSize w))

/-- A range meets the image range of a loaded or retiring board of the tenant (R80). -/
def State.meetsBoard (s : State) (tenant a n : Nat) : Bool :=
  s.boards.any (fun e => e.1 / 256 == tenant && (match e.2 with
    | some b => overlaps a n b.dest b.destBytes
    | none => false))

/-- Step 4 of R366 (R363, R364). -/
def State.descPlaceOk (s : State) (fn : Nat) (d : List Byte) : Bool :=
  let t := descType d
  if t = tyLoad then
    s.ownRange fn (leAt d 0x20 8) (leAt d 0x28 8) && !s.meetsBoard fn (leAt d 0x20 8) (leAt d 0x28 8)
  else if t = tyIngest then s.ownRange fn (descList d) (listEntryBytes t * descCount d)
  else if typeList t then
    s.hostReadWrite fn (descList d) (listEntryBytes t * descCount d) &&
      (descHbytes d == 0 || s.hostReadWrite fn (descHbuf d) (descHbytes d))
  else true

/-- The cause that steps 1 to 4 of R366 give, if any; a NOP is checked like the other types (log 195, DEDUCED). -/
def State.descCause (s : State) (fn : Nat) (d : List Byte) : Option Nat :=
  let t := descType d
  if !typeListed t || (descDev d && !(t == tyLaunch || t == tyLoad)) then some causeLayout
  else if !descReservedOk d then some causeReserved
  else if !descRangeOk d then some causeLayout
  else if !s.descPlaceOk fn d then some causeRegion
  else none

/-! ## Event 3 -/

/-- The next item of a ring before event 3 (R370). -/
def State.nextOfRing (s : State) (fn ring : Nat) : Option Item :=
  s.items.find? (fun i => i.fn == fn && i.ring == ring && i.phase == .fetched)

/-- A fence is passed: no item of the ring with a lower submission count is still in flight (R370). Items are numbered as they are fetched. -/
def State.fencePassed (s : State) (i : Item) : Bool :=
  s.items.all (fun j => !(j.fn == i.fn && j.ring == i.ring) || i.id ≤ j.id)

/-- The context is fenced (R381, R399). -/
def State.fenced (s : State) (ctx : Nat) : Bool := s.flag Fld.tenantCtlFenced ctx

/-- An item passes event 3 (R29, R88, R374). -/
def State.pass3 (s : State) (id : Nat) (ph : Phase) : State :=
  s.requeue id (fun i => { i with phase := ph, since := some s.tally })

/-- Event 3 of the next item of a ring whose type meets `ty`: an item of a fenced context ends with `ABORTED_TENANT_FENCED` (R381), one that
fails steps 1-4 of R366 with its cause; otherwise `k` gives what the type does. `ready` holds the item back while an earlier one of its function must take
effect first (R88). Otherwise nothing changes. -/
def onEvent3 (fn ring : Nat) (ty : Nat → Bool) (ready : State → Item → List Byte → Bool) (s : State)
    (k : State → Item → List Byte → State) : Out State :=
  onUnit (fn < 64 && ring < 64) "ring" <|
  match s.nextOfRing fn ring with
  | none => .next s
  | some i =>
    match i.desc with
    | none => .next s
    | some d =>
      .next (if ty (descType d) && s.inP0 && (!descFence d || s.fencePassed i) && ready s i d then
        if s.fenced fn then ((s.pass3 i.id .passed3).addStatus i.id stFenced).endItem i.id
        else match s.descCause fn d with
          | some c => (s.pass3 i.id .passed3).reject i.id c
          | none => k (s.pass3 i.id .passed3) i d
      else s)

/-- Launches of a function that have passed event 3 and not event 4 (log 75, DEDUCED). -/
def State.unchecked (s : State) (fn : Nat) : List Item :=
  s.items.filter (fun i => i.fn == fn && i.launch.isSome && i.phase == .passed3)

/-- `NOP_DESCRIPTOR` (R361): it does nothing and completes `OK`. -/
def execNopDescriptor (fn ring : Nat) (s : State) : Out State :=
  onEvent3 fn ring (· == tyNop) (fun _ _ _ => true) s fun s i _ => s.endItem i.id

/-- `UNLISTED_DESCRIPTOR_TYPE` (R361, R366): the item ends with cause `LAYOUT`. -/
def execUnlistedDescriptorType (fn ring : Nat) (s : State) : Out State :=
  onEvent3 fn ring (fun t => !typeListed t) (fun _ _ _ => true) s fun s _ _ => s

/-- A reference on a table generation is given back; one that is not current retires the moment its count is 0 (R282). -/
def State.releaseGen (s : State) (slot gen : Nat) : State :=
  let t := Tab.get ⟨none, none, 0⟩ s.tables slot
  let drop (g : TableGen) : TableGen := { g with refs := g.refs - 1 }
  let isCur := (t.current.map (·.gen)) == some gen
  let isPrev := (t.previous.map (·.gen)) == some gen
  if isCur then
    ({ s with tables := Tab.set ⟨none, none, 0⟩ s.tables slot { t with current := t.current.map drop } }).give 5 (2 * slot) 1
  else if isPrev then
    let p := t.previous.map drop
    ({ s with tables := Tab.set ⟨none, none, 0⟩ s.tables slot { t with previous := if (p.map (fun (g : TableGen) => g.refs)) == some 0 then none else p } }).give
      5 (2 * slot + 1) 1
  else s

/-- The loadable slots that a board references, each once, with the generation that it holds (R81, R283). -/
def Board.gens (b : Board) : List (Nat × Nat) := ((b.tablerefs.filter (·.loadable)).map (fun r => (r.slot, r.gen))).eraseDups

/-- A board leaves its handle: its table references and write protection go, and its residency ends (R87, R177). -/
def State.releaseBoard (s : State) (tenant handle : Nat) : State :=
  match s.board tenant handle with
  | none => s
  | some b =>
    let s := b.gens.foldl (fun s r => s.releaseGen r.1 r.2) s
    (s.setBoard tenant handle none).endResidencyOf tenant (some handle)

/-- A retire whose board's references have reached zero ends `OK` (R87). -/
def State.retireComplete (s : State) (tenant handle : Nat) : State :=
  match s.board tenant handle with
  | some b =>
    match b.retiring with
    | some id => if b.refs = 0 then (s.releaseBoard tenant handle).endItem id else s
    | none => s
  | none => s

/-- `RETIRE` (R87, R88): the handle becomes retiring at event 3, after every launch of the function that named it and passed event 3 before has been
checked. An empty or retiring handle is cause `HANDLE`. -/
def execRetire (fn ring : Nat) (s : State) : Out State :=
  onEvent3 fn ring (· == tyRetire)
    (fun s i d => (s.unchecked i.fn).all (fun j => (j.launch.map (·.handle)) != some (descHandle d))) s fun s i d =>
    let h := descHandle d
    match s.board fn h with
    | none => s.reject i.id causeHandle
    | some b =>
      if b.retiring.isSome then s.reject i.id causeHandle
      else (s.setBoard fn h (some { b with retiring := some i.id })).retireComplete fn h

end Sys2Proof.Machine
end

