-- ==== Sys2Proof/Machine/Launch.lean ====
section
/-! DEFINITION. Launches from event 3 to their first issue step (R29, R45, R46, R57, R74-R78, R82, R83, R89, R90, R101, R176, R216, R285, R325, R328, R333, R371). -/

namespace Sys2Proof.Machine

/-! ## The grant checks, at load and at launch -/

/-- A placed footprint lies inside a tile rectangle. -/
def Grant.covers (g : Grant) (row col rows cols : Nat) : Bool :=
  0 < rows && 0 < cols && within row rows g.row0 g.rows && within col cols g.col0 g.cols

/-- The rows in service (R56). -/
def State.rowsInService (s : State) : Nat :=
  match s.fld Fld.coreModeTiles 0 with
  | 0 => 16
  | 1 => 15
  | _ => 0

/-- The tiles in service carry a board of `count` tiles whose footprint starts at `row` (R55, R56). A device with no logical channel is out of service (R263). -/
def State.inService (s : State) (count row rows : Nat) : Bool :=
  s.fld Fld.memTopChannels 0 != 0 && count ≤ 16 * s.rowsInService && row + rows ≤ s.rowsInService

/-- A remote window that the grant gives and the tenant has open (R72, R331). -/
def State.windowBound (s : State) (tenant w n : Nat) : Bool :=
  let g := s.grant tenant
  match Tab.get none s.windows w with
  | some x => g.winEn && g.winLo ≤ w && w ≤ g.winHi && s.fld Fld.winStatTenant w == tenant && n ≤ x.size
  | none => false

/-- A region's binding lies in the grant item for its kind (the table under R77, R195) (log 60, DEDUCED) (log 61, DEDUCED). -/
def State.bindingOk (s : State) (tenant : Nat) (r : Region) : Bool :=
  match r.kind with
  | 0 => s.ownRange tenant r.base r.bound || (r.shared && s.sharedRange tenant r.base r.bound)
  | 1 => s.ownRange tenant r.base r.bound
  | 2 => s.ownRange tenant r.base r.bound && (s.poolAt tenant r.base r.bound).isSome
  | 3 =>
    let w := r.base % 65536
    w < 256 && s.fld Fld.hwinTenant w == tenant && s.flag Fld.hwinWrite w && r.bound ≤ s.fld Fld.hwinSize w
  | _ => s.windowBound tenant (r.base % 65536) r.bound

/-- A port is granted, valid, and has a link enabled in the link mask (R304, R311) (log 62, DEDUCED). -/
def State.portGranted (s : State) (tenant p : Nat) : Bool :=
  bitOf (s.grant tenant).ports p && s.portValid p && (s.portLinks p).any s.linkMasked

/-- The ports that a variant names. -/
def Variant.ports (v : Variant) : List Nat :=
  ((v.routes.filter (fun r => r.kind != 0)).map (·.port)) ++ v.credits.map (·.port)

/-- The share of a pool, port and virtual channel (R346). -/
def Grant.share (g : Grant) (pool port vc : Nat) : Nat :=
  match g.credits.find? (fun e => e.1 == port) with
  | some (_, c, b, p1, p2) => if pool = 0 then (if vc = 0 then c else b) else if pool = 1 then p1 else p2
  | none => 0

/-- Two reservations draw on one share: pools 1 and 2 have no virtual channel. -/
def sameShare (pool port vc : Nat) (c : Nat × Nat × Nat) : Bool := c.1 == pool && c.2.1 == port && (pool != 0 || c.2.2 == vc)

/-- The sum of reservations of a variant on a share. -/
def creditSum (cs : List Credit) (pool port vc : Nat) : Nat :=
  ((cs.filter (fun c => sameShare pool port vc (c.pool, c.port, c.vc))).map (·.count)).foldl (· + ·) 0

/-- A variant's reservations fit in the tenant's shares. -/
def Grant.creditsOk (g : Grant) (cs : List Credit) : Bool := cs.all (fun c => creditSum cs c.pool c.port c.vc ≤ g.share c.pool c.port c.vc)

/-- A loadable slot is granted and holds the identity. -/
def State.slotHolds (s : State) (tenant slot id : Nat) : Bool :=
  bitOf (s.grant tenant).slots slot &&
    (match (Tab.get ⟨none, none, 0⟩ s.tables slot).current with
    | some g => g.id == id
    | none => false)

/-! ## The parameter block (R74, R76) -/

/-- Parameter word n of a list of words present. -/
def wordAt (ws : List Word32) (n : Nat) : Word32 := ws.getD n 0

/-- The set bits of a word. -/
def popcount (w : Word32) : Nat := ((List.range 32).filter (fun i => w.getLsbD i)).length

/-- A bound holds of the words (R74). -/
def Bound.holds (b : Bound) (ws : List Word32) : Bool :=
  let vals := (List.range b.words).map (fun i => wordAt ws (b.first + i))
  match b.kind with
  | 0 => vals.all (fun v => decide (b.min ≤ v) && decide (v ≤ b.max))
  | 1 => vals.all (fun v => decide (b.min.toInt ≤ v.toInt) && decide (v.toInt ≤ b.max.toInt))
  | _ => let n := (vals.map popcount).foldl (· + ·) 0; b.min.toNat ≤ n && n ≤ b.max.toNat

/-- The reads of a parameter block or image: from a host window, or from an own range of the tenant; none where the range is refused. -/
def State.tenantRead (s : State) (fn a n : Nat) (dev : Bool) : Option (List Byte × Bool) × State :=
  if dev then
    if s.ownRange fn a n then let r := s.takeFor fn a n; (some (r.1, r.2.1), r.2.2) else (none, s)
  else s.hostRead fn a n

/-- The launch of a descriptor with its parameter block read once (R76, R77); `block` is none when the block is unreadable. -/
def Launch.ofBlock (d : List Byte) (block : Option (List Byte)) : Launch :=
  let b := block.getD []
  let wc := leAt b 0x0A 2
  { handle := descHandle d, variant := leAt d 0x12 2, boardId := leAt b 0 8, paramVariant := leAt b 8 2, wordCount := wc,
    paramOk := block.isSome, reservedZero := zeroBytes b 0x0C 4 && zeroBytes b 0x18 40,
    words := (List.range (min wc ((b.length - 64) / 4))).map (fun i => BitVec.ofNat 32 (leAt b (0x40 + 4 * i) 4)),
    collSeq := leAt b 0x10 8, count := leAt d 0x20 8, serials := [], peers := [], tiles := [], held := false }

/-- The size of the parameter block a launch reads: that of the board and variant it resolves (R77). -/
def State.paramSize (s : State) (fn : Nat) (d : List Byte) : Option Nat :=
  (s.board fn (descHandle d)).bind (fun b => (b.variants[leAt d 0x12 2]?).map (·.paramSize))

/-- `LAUNCH` (R77, R362, R366): event 3: the board and variant are resolved and the parameter block is read once. A block that delivers poison is
unreadable, and the item has consumed poison (R395) (log 72, DEDUCED). -/
def execLaunch (fn ring : Nat) (s : State) : Out State :=
  s.accepting <| onEvent3 fn ring (· == tyLaunch)
    (fun s i d => descDev d || s.hostReady i.fn || (s.descCause i.fn d).isSome) s fun s i d =>
    match s.paramSize fn d with
    | none => s.modItem i.id (fun i => { i with launch := some (Launch.ofBlock d none) })
    | some n =>
      match s.tenantRead fn (leAt d 0x18 8) n (descDev d) with
      | (some (bytes, false), s) => s.modItem i.id (fun i => { i with launch := some (Launch.ofBlock d (some bytes)) })
      | (some (_, true), s) => (s.modItem i.id (fun i => { i with launch := some (Launch.ofBlock d none) })).consumed i.id true
      | (none, s) => s.modItem i.id (fun i => { i with launch := some (Launch.ofBlock d none) })

/-! ## Event 4 -/

/-- The parameter header is right (R76). -/
def Launch.headerOk (l : Launch) (b : Board) (v : Variant) : Bool :=
  l.paramOk && l.boardId == b.boardId && l.paramVariant == l.variant && l.wordCount ≤ (v.paramSize - 64) / 4 && l.reservedZero

/-- The cause of a launch that fails a check, in the order of R82, R89 and R90. -/
def State.launchCause (s : State) (fn : Nat) (l : Launch) : Option Nat :=
  match s.board fn l.handle with
  | none => some causeHandle
  | some b =>
    if b.retiring.isSome then some causeRetired
    else match b.variants[l.variant]? with
    | none => some causeVariant
    | some v =>
      if !s.inService (b.footRows * b.footCols) b.originRow b.footRows then some causeTilesInService
      else if !((s.grant fn).covers b.originRow b.originCol b.footRows b.footCols && b.regions.all (s.bindingOk fn) &&
          v.ports.all (s.portGranted fn) && (s.grant fn).creditsOk v.credits) then some causeGrantChanged
      else if !b.tablerefs.all (fun r => !r.loadable || s.slotHolds fn r.slot r.id) then some causeTable
      else if !l.headerOk b v then some causeParamHeader
      else if !v.bounds.all (fun x => x.holds l.words) then some causeParamBound
      else if s.tally + 2 ^ 34 < l.count then some causeLaunchCount
      else none

/-- The launch takes the next serial of a pool and a reader pin (R216, R400). -/
def State.takeSerial (s : State) (fn id k : Nat) : State :=
  match s.pool fn k with
  | none => s
  | some p =>
    let r := s.ctrlRead (some id) (p.ctrlBase + 0xC) 4
    let n := (r.1 + 1) % 2 ^ 32
    let s := (r.2.putNatFor fn (p.ctrlBase + 0xC) 4 n).issue 7 (4 * fn + k) 1
    s.modItem id (fun i => { i with launch := i.launch.map (fun l => { l with serials := l.serials ++ [(k, n)] }) })

/-- The peer references that the window writes of a variant name (R314, R333), as they stand (log 70, DEDUCED) (log 71, DEDUCED). -/
def State.readPeers (s : State) (fn : Nat) (v : Variant) : List (Nat × Nat × Nat × Nat) :=
  let refs := (v.tiles.flatMap (fun t => t.insns.filterMap (fun i =>
    if i.opc.toNat = opRsend && (v.routes[i.arg 0 16]?.map (·.kind)) == some 3 then some (i.arg 16 8) else none))).eraseDups
  refs.filterMap (fun r => (Tab.get none s.peerRefs (256 * fn + r)).map (fun x => (r, x.gen, x.peer, x.window)))

/-- The launches that wait at event 4. -/
def State.waiting4 (s : State) : List Nat :=
  s.order4.filter (fun id => (s.item id).any (fun i => i.phase == .passed3))

/-- An earlier list item of the function that has not taken effect yet (R88, R216, R331): page and window commands. -/
def State.listBefore (s : State) (i : Item) : Bool :=
  (s.items.takeWhile (fun j => j.id != i.id)).any (fun j =>
    j.fn == i.fn && j.list.isSome && j.phase == .running &&
      (j.desc.any (fun d => descType d == tyPageCmd || descType d == tyWindowCmd)))

/-- A launch that passes event 4 takes a board reference, a serial in every pool its board binds, and its peer references (R82, R216, R333). -/
def State.launchPasses (s : State) (i : Item) (l : Launch) : State :=
  match s.board i.fn l.handle with
  | none => s
  | some b =>
    let s := (s.modBoard i.fn l.handle (fun b => { b with refs := b.refs + 1 })).issue 4 (256 * i.fn + l.handle) 1
    let s := (s.boardPools i.fn b).foldl (fun s k => s.takeSerial i.fn i.id k) s
    let peers := (b.variants[l.variant]?).map (s.readPeers i.fn) |>.getD []
    s.modItem i.id (fun i => { i with phase := .passed4, launch := i.launch.map (fun l =>
      { l with peers := peers, tiles := List.range (b.footRows * b.footCols), held := true }) })

/-- A launch leaves the order of event 4. -/
def State.leave4 (s : State) (id : Nat) : State := { s with order4 := s.order4.erase id }

/-- `LAUNCH_CHECK` (R57, R82, R88-R90): event 4. While a change of tile mode is due a launch waits; waiting launches are checked in the order in which they
reached event 4. A launch that fails takes nothing and runs nothing. -/
def execLaunchCheck (item : Nat) (s : State) : Out State :=
  match s.item item with
  | none => .next s
  | some i =>
    match i.launch with
    | none => .next s
    | some l =>
      if i.phase ≠ .passed3 || s.listBefore i then .next s
      else
        let s := if s.order4.contains item then s else { s with order4 := s.order4 ++ [item] }
        s.accepting <| .next (if s.modeDue.isSome || s.waiting4.head? != some item then s
          else match s.launchCause i.fn l with
            | some c => (s.leave4 item).reject item c
            | none => s.launchPasses i l)

/-! ## Arming -/

/-- Credits held by the items of a tenant on a share. -/
def State.creditsHeld (s : State) (fn pool port vc : Nat) : Nat :=
  ((s.items.filter (fun i => i.fn == fn)).flatMap (fun i =>
    (i.credits.filter (fun c => sameShare pool port vc (c.1, c.2.1, c.2.2.1))).map (fun c => c.2.2.2))).foldl (· + ·) 0

/-- The audit index of a share (R400). -/
def creditIndex (fn pool port vc : Nat) : Nat := 1024 * fn + 32 * port + (if pool = 0 then vc else 0)

/-- Credits (pool, port, vc, count) of an item fit in its tenant's shares beside those held (R83, R348). -/
def State.creditsFit (s : State) (i : Item) (cs : List (Nat × Nat × Nat × Nat)) : Bool :=
  cs.all (fun c =>
    let need := ((cs.filter (fun d => sameShare c.1 c.2.1 c.2.2.1 (d.1, d.2.1, d.2.2.1))).map (fun d => d.2.2.2)).foldl (· + ·) 0
    s.creditsHeld i.fn c.1 c.2.1 c.2.2.1 + need ≤ (s.grantOf i).share c.1 c.2.1 c.2.2.1)

/-- An item takes credits, all at once. -/
def State.takeCredits (s : State) (fn id : Nat) (cs : List (Nat × Nat × Nat × Nat)) : State :=
  cs.foldl (fun s c => s.issue (c.1 + 1) (creditIndex fn c.1 c.2.1 c.2.2.1) c.2.2.2)
    (s.modItem id (fun i => { i with credits := i.credits ++ cs }))

/-- The reservations of a variant as credits. -/
def Variant.reservations (v : Variant) : List (Nat × Nat × Nat × Nat) := v.credits.map (fun c => (c.pool, c.port, c.vc, c.count))

/-- An aborted key is kept for 2^TIMEOUT counts (R328); values below 16 are treated as 16 (R336). -/
def State.collTimeout (s : State) : Nat := 2 ^ max 16 (s.fld Fld.collCtlTimeout 0)

/-- The kept aborted key of a launch. -/
def State.abortedKey (s : State) (l : Launch) : Option AbortedKey :=
  s.abortedKeys.find? (fun k => k.tag == l.key.1 && k.cseq == l.key.2 && s.tally < k.since + s.collTimeout)

/-- Whether an earlier launch of the function still waits for its credits (log 65, DEDUCED). -/
def State.creditsBefore (s : State) (i : Item) : Bool :=
  (s.order4.takeWhile (· != i.id)).any (fun id => (s.item id).any (fun j => j.fn == i.fn && j.phase == .passed4))

/-- `LAUNCH_ARM` (R83, R325, R328, R371): the launch takes all its reservations at once, in the order of event 4 (one that reserves
nothing waits for none); one that arms with a kept aborted key fails at
once. -/
def execLaunchArm (item : Nat) (s : State) : Out State :=
  match s.item item with
  | none => .next s
  | some i =>
    match i.launch, s.launchVariant i with
    | some l, some v =>
      if i.phase ≠ .passed4 || (!v.reservations.isEmpty && s.creditsBefore i) || !s.creditsFit i v.reservations then .next s
      else
        let s := (s.takeCredits i.fn item v.reservations).setPhase item .armed
        .next (match s.abortedKey l with
          | some k => ((s.leave4 item).modItem item (fun i => { i with abortChip := k.chip })).failPart item k.status
          | none => s)
    | _, _ => .next s

/-! ## The beginning of a launch -/

/-- The value part of a fixed decoding table (R279). -/
def fixedValue (t i : Nat) : Word32 :=
  match t with
  | 0 => toF32 (Fmt.e2m1.decode (i % 16))
  | 1 => toF32 (Fmt.e2m3.decode (i % 64))
  | 2 => toF32 (Fmt.e3m2.decode (i % 64))
  | 3 => toF32 (Fmt.e4m3.decode i)
  | 4 => toF32 (Fmt.e5m2.decode i)
  | 5 => toF32 (.fin (8 ≤ i % 16) (if 8 ≤ i % 16 then 16 - i % 16 else i % 16) 0)
  | 6 => toF32 (.fin (128 ≤ i) (if 128 ≤ i then 256 - i else i) 0)
  | _ => toF32 (.fin false i 0)

/-- The value part of a loadable slot's generation. -/
def State.genValues (s : State) (slot gen : Nat) : List Word32 :=
  let t := Tab.get ⟨none, none, 0⟩ s.tables slot
  match (t.current.toList ++ t.previous.toList).find? (fun g => g.gen == gen) with
  | some g => g.values
  | none => []

/-- The table store of a tile of a board (R285), by 256 r + index. -/
def State.tableStoreOf (s : State) (b : Board) : Tab Word32 :=
  (b.tablerefs.zipIdx).foldl (fun m r =>
    let vs := if r.1.loadable then s.genValues r.1.slot r.1.gen else (List.range 256).map (fixedValue r.1.slot)
    vs.zipIdx.foldl (fun m v => Tab.set 0 m (256 * r.2 + v.2) v.1) m) []

/-- What the owner's next launch keeps of the scratchpad (R176). -/
def Tile.keepResident (t : Tile) (n : Nat) : Tile :=
  { t with spad := t.spad.filter (fun e => e.1 < n), live := t.live.filter (fun e => 256 * e.1 < n),
           spadMarks := t.spadMarks.filter (fun e => 32 * e.1 < n) }

/-- A tile at the start of a launch, but for its scratchpad (R101, R140, R184, R207, R220, R285). -/
def Tile.startPart (t : Tile) (ts : TileStream) (q : Part) (store : Tab Word32) (tally : Nat) : Tile :=
  { t with vbuf := [], vbufMarks := [], masks := [], maskMarks := [], acc := [], accMarks := [], active := .zeroBlock, shadow := .zeroBlock,
           tableStore := store, tableMarks := [], angle := [], angleMark := false, locket := [], syncCount := [], syncThresh := [],
           bangles := [], shape := none, stream := ts.insns, pos := 0, loops := [], released := false, held := false, ended := false,
           ops := [], nextOp := 0, ordinal := 0, dma := [], dmaRest := ts.dma.takeWhile (fun e => e.op != 0xF), part := some q,
           lastStep := tally }

/-- The board is the resident owner of a logical tile (R176). -/
def State.owns (s : State) (t fn handle : Nat) : Bool :=
  s.flag Fld.tileResidencyValid t && s.fld Fld.tileResidencyTenant t == fn && s.fld Fld.tileResidencyHandle t == handle

/-- Residency at the start of a launch (R176-R178). -/
def State.resideAt (s : State) (t p fn handle item resident : Nat) : State :=
  if s.owns t fn handle then s.setTile p ((s.tile p).keepResident resident)
  else
    let s := s.endResidency t
    let s := s.setTile p (s.tile p).freshAll
    let s := ((s.setFlag Fld.tileResidencyValid t true).setFld Fld.tileResidencyTenant t fn).setFld Fld.tileResidencyHandle t handle
    if resident = 0 then s else s.addNote item noteFresh

/-- One board tile of a launch begins: residency, the launch-start values, and the hand-out of its DMA program (R99, R101, R176). -/
def State.beginTile (s : State) (i : Item) (l : Launch) (b : Board) (store : Tab Word32) (bt : Nat) (ts : TileStream) : State :=
  let t := b.logical bt
  match s.physOf t with
  | none => s
  | some p =>
    let s := s.resideAt t p i.fn l.handle i.id ts.resident
    let q : Part := { item := i.id, tenant := i.fn, boardTile := bt, zorli := b.zorli, privAcc := ts.privAcc, spadUse := ts.spadUse,
                      resident := ts.resident, syncUse := ts.syncUse, since := s.tally }
    (s.setTile p ((s.tile p).startPart ts q store s.tally)).handOut t p

/-- A logical tile can take a part: its physical tile runs none, no carry of it is in progress, and the under-voltage guard does not hold its region (R415). -/
def State.tileFree (s : State) (t : Nat) : Bool :=
  match s.physOf t with
  | some p => (s.tile p).part.isNone && !s.carries.any (fun c => c.logical == t) && !s.flag Fld.pwrRegionUv (islandOf p)
  | none => false

/-- An earlier launch of the function, not begun, needs one of the tiles (R371). -/
def State.tilesBefore (s : State) (i : Item) (tiles : List Nat) : Bool :=
  (s.order4.takeWhile (· != i.id)).any (fun id => (s.item id).any (fun j =>
    j.fn == i.fn && j.phase != .done && (s.launchBoard j).any (fun b => b.tiles.any tiles.contains)))

/-- `LAUNCH_BEGIN` (R45-R47, R101, R176-R178, R285, R371, R390): every tile is free and the Tally has reached C. A launch that begins after C counts as late. A launch
one of whose logical tiles no physical tile serves any more fails with `FAILED_POISON` (log 69, DEDUCED). `TALLY_LATE.COUNT` saturates (log 194, DESIGN CHOICE). -/
def execLaunchBegin (item : Nat) (s : State) : Out State :=
  match s.item item with
  | none => .next s
  | some i =>
    match i.launch, s.launchBoard i, s.launchVariant i with
    | some l, some b, some v =>
      if i.phase ≠ .armed || s.tally < l.count then .next s
      else if b.tiles.any (fun t => (s.physOf t).isNone) then .next ((s.leave4 item).failPart item stPoison)
      else if !(b.tiles.all s.tileFree) || s.tilesBefore i b.tiles then .next s
      else
        let s := (s.leave4 item).setPhase item .running
        let s := if l.count ≠ 0 && l.count < s.tally then (s.bump Fld.tallyLateCount 0 1).addNote item noteLate else s
        let store := s.tableStoreOf b
        .next ((v.tiles.zipIdx).foldl (fun s e => s.beginTile i l b store e.2 e.1) s)
    | _, _, _ => .next s

end Sys2Proof.Machine
end

