-- ==== Sys2Proof/Machine/Stop.lean ====
section
/-! DEFINITION. The stop of a context's items: events 2 and 3 of a function disable, and of a fence (R380, R381). -/

namespace Sys2Proof.Machine

/-- An item that has run nothing is marked aborted, and ends (R380, event 2) (log 74, DEDUCED). -/
def State.abortItem (s : State) (id st : Nat) : State :=
  let s := { s.leave4 id with landings := s.landings.filter (fun x => x.item != id) }
  (s.addStatus id st).endItem id

/-- One item stops (R380, events 2 and 3). A launch that runs abandons its operations and sends `ABORT`; its key is not
kept, since R380 stops it and R327 does not list it; a list stops after the entry it applied,
with a swap whose copy is due not applied (R381); an ingest item stops at its block boundary. An item that has ended keeps the status it earned (log 64, DEDUCED). -/
def State.stopItem (s : State) (st : Nat) (i : Item) : State :=
  match i.phase with
  | .done => s
  | .running => if i.launch.isSome then s.stopPart i.id st else s.abortItem i.id st
  | _ => s.abortItem i.id st

/-- No board of a context waits in retirement: its `RETIRE` is aborted (R381) (log 128, DEDUCED). -/
def State.dropRetiring (s : State) (ctx : Nat) : State :=
  { s with boards := s.boards.map (fun e => if e.1 / 256 = ctx then (e.1, e.2.map (fun (b : Board) => { b with retiring := none })) else e) }

/-- Every item of a context stops, in the order of the items. -/
def State.stopContext (s : State) (ctx st : Nat) : State :=
  (s.items.filter (fun i => i.fn == ctx)).foldl (fun (s : State) i => s.stopItem st i) (s.dropRetiring ctx)

/-- `FN_STATE.STATE` of a function: 0 DISABLED, 1 ENABLED, 2 DISABLING, 3 FENCED (R382). -/
def State.fnState (s : State) (fn : Nat) : Nat := s.fld Fld.fnStateState fn

/-- The function is enabled: its context exists (R344, R381). -/
def State.fnEnabled (s : State) (fn : Nat) : Bool := s.fnState fn == 1 || s.fnState fn == 3

/-- A function disable begins (R380, events 1 to 3), when the function is enabled. -/
def State.disable (s : State) (fn : Nat) : State :=
  if s.fnEnabled fn then (s.setFld Fld.fnStateState fn 2).stopContext fn stDisabled else s

/-- The disable of several functions. -/
def State.disableAll (s : State) (fns : List Nat) : State := fns.foldl State.disable s

end Sys2Proof.Machine
end

