-- ==== Sys2Proof/Machine/Audit.lean ====
section
/-! DEFINITION. Fences of tenant contexts (R381, R399) and the audit of the pools (R400-R404). -/

namespace Sys2Proof.Machine

/-! ## Fences -/

/-- `DRAINED` becomes 1 once every item that was in flight at the fence has ended in a record (R399). -/
def State.fenceDrained (s : State) (ctx : Nat) : State :=
  if s.fenced ctx && (Tab.get [] s.fenceItems ctx).isEmpty then s.setFlag Fld.tenantCtlDrained ctx true else s

/-- The record of an item is written or counted lost: a fence waits for it no longer. -/
def State.fenceForgets (s : State) (ctx id : Nat) : State :=
  ({ s with fenceItems := Tab.set [] s.fenceItems ctx ((Tab.get [] s.fenceItems ctx).filter (· != id)) }).fenceDrained ctx

/-- A context is fenced with a cause: 1 host driver, 2 audit violation (R381, R399). Its items stop, and its residency ends (log 125, DEDUCED) (log 126, DEDUCED). -/
def State.fence (s : State) (ctx cause : Nat) : State :=
  if s.fenced ctx then s
  else
    let s := ((s.setFlag Fld.tenantCtlFenced ctx true).setFlag Fld.tenantCtlDrained ctx false).setFld Fld.tenantCtlCause ctx cause
    let s := { s with fenceItems := Tab.set [] s.fenceItems ctx ((s.items.filter (fun (i : Item) => i.fn == ctx)).map (fun (i : Item) => i.id)) }
    let s := (s.stopContext ctx stFenced).endResidencyOf ctx none
    let s := if s.fnState ctx = 1 then s.setFld Fld.fnStateState ctx 3 else s
    s.fenceDrained ctx

/-- `TENANT_FENCE` (R381, R399, R450). -/
def execTenantFence (a : Agent) (ctx : Nat) (s : State) : Out State :=
  onUnit (a.wf && ctx < 64) "context" <|
  onAccess (.tenantFence a ctx) s (fun s => onHostPf a (0x1000208 + 0x1000 * ctx) s fun s => s.fence ctx 1)

/-- `TENANT_UNFENCE` (R399, R450): ignored while `DRAINED` is 0 (log 127, DEDUCED). -/
def execTenantUnfence (a : Agent) (ctx : Nat) (s : State) : Out State :=
  onUnit (a.wf && ctx < 64) "context" <|
  onAccess (.tenantUnfence a ctx) s (fun s => onHostPf a (0x1000208 + 0x1000 * ctx) s fun s =>
    if s.flag Fld.tenantCtlDrained ctx then
      let s := ((s.setFlag Fld.tenantCtlFenced ctx false).setFlag Fld.tenantCtlDrained ctx false).setFld Fld.tenantCtlCause ctx 0
      if s.fnState ctx = 3 then s.setFld Fld.fnStateState ctx 1 else s
    else s)

/-! ## Pools (R400) -/

/-- The index of a pool as its fields give it (log 129, DEDUCED). -/
def auditIndex (pool idx : Nat) : Nat :=
  match pool with
  | 0 => idx % 64
  | 1 => idx / 32 * 32 + idx % 2
  | 2 | 3 => idx / 32 * 32
  | 4 => idx % 16384
  | 5 => idx % 16
  | 6 | 7 | 8 | 10 => idx % 256
  | _ => idx % 4096

/-- The grant a tenant keeps while a narrowing is pending, beside the committed one (R347, R348) (log 99, DEDUCED). -/
def State.keptGrant (s : State) (ctx : Nat) : Grant :=
  match Tab.get none s.narrowing ctx with
  | some x => x.1
  | none => Grant.empty

/-- The share of a context, with what it keeps while `PENDING` is 1. -/
def State.shareOf (s : State) (ctx pool port vc : Nat) : Nat :=
  max ((s.grant ctx).share pool port vc) ((s.keptGrant ctx).share pool port vc)

/-- The tile that serves logical tile `t`; an empty one where none does. -/
def State.tileAt (s : State) (t : Nat) : Tile :=
  match s.physOf t with
  | some p => s.tile p
  | none => .empty

/-- `CAPACITY`, where the table of R400 gives one. -/
def State.auditCapacity (s : State) (pool idx : Nat) : Option Nat :=
  match pool with
  | 0 => some (s.fld Fld.fnQuotaLimit idx)
  | 1 => some (s.shareOf (idx / 1024) 0 (idx / 32 % 32) (idx % 2))
  | 2 => some (s.shareOf (idx / 1024) 1 (idx / 32 % 32) 0)
  | 3 => some (s.shareOf (idx / 1024) 2 (idx / 32 % 32) 0)
  | 6 => (s.pool (idx / 4) (idx % 4)).map (·.pages)
  | 9 => ((s.tileAt (idx / 16)).bangle (idx % 16)).map (·.size)
  | 10 => some 512
  | _ => none

/-- References on a generation of a slot, counted at their holders: loaded boards and ingest items. A block holds its own only within its decode. -/
def State.genHolders (s : State) (slot gen : Nat) : Nat :=
  s.boards.foldl (fun n e => match e.2 with
    | some b => n + (b.gens.filter (fun r => r.1 == slot && r.2 == gen)).length
    | none => n) 0 +
  (s.items.map (fun (i : Item) => (i.tables.filter (fun t => t.1 == slot && t.2 == gen)).length)).foldl (· + ·) 0

/-- `HELD`: what the holders' own records show. -/
def State.auditHeld (s : State) (pool idx : Nat) : Nat :=
  match pool with
  | 0 => (s.items.filter (fun i => i.fn == idx)).length
  | 1 => s.creditsHeld (idx / 1024) 0 (idx / 32 % 32) (idx % 2)
  | 2 => s.creditsHeld (idx / 1024) 1 (idx / 32 % 32) 0
  | 3 => s.creditsHeld (idx / 1024) 2 (idx / 32 % 32) 0
  | 4 => (s.items.filter (fun i => i.fn == idx / 256 && i.launch.any (fun l => l.held && l.handle == idx % 256))).length
  | 5 =>
    let t := Tab.get ⟨none, none, 0⟩ s.tables (idx / 2)
    match if idx % 2 = 0 then t.current else t.previous with
    | some g => s.genHolders (idx / 2) g.gen
    | none => 0
  | 6 =>
    match s.pool (idx / 4) (idx % 4) with
    | some p => ((List.range p.pages).filter (fun g => s.refs p g != 0 || s.queued p g)).length
    | none => 0
  | 7 => (s.pinSerials (idx / 4) (idx % 4)).length
  | 8 => (s.tileAt idx).syncHeld
  | 9 => (((s.tileAt (idx / 16)).bangle (idx % 16)).map (·.fill)).getD 0
  | _ => (s.tileAt idx).inFlight

/-- The count by which `FREE` lies below `CAPACITY`, kept apart from the holders' records. -/
def State.auditTaken (s : State) (pool idx : Nat) : Nat := (Tab.get (0, 0, 0) s.audit (auditKey pool idx)).2.2

/-- `FREE` of a pool index. -/
def State.auditFree (s : State) (pool idx : Nat) : Nat := ((s.auditCapacity pool idx).getD 0) - s.auditTaken pool idx

/-- `ISSUED` and `RETURNED`, modulo 2^32. -/
def State.auditIssued (s : State) (pool idx : Nat) : Nat := (Tab.get (0, 0, 0) s.audit (auditKey pool idx)).1 % 2 ^ 32
def State.auditReturned (s : State) (pool idx : Nat) : Nat := (Tab.get (0, 0, 0) s.audit (auditKey pool idx)).2.1 % 2 ^ 32

/-- Both invariants of R400 hold. -/
def State.auditOk (s : State) (pool idx : Nat) : Bool :=
  let held := s.auditHeld pool idx
  (match s.auditCapacity pool idx with
    | some c => held + s.auditFree pool idx == (if pool = 0 then max c held else c)
    | none => true) &&
  (s.auditIssued pool idx + 2 ^ 32 - s.auditReturned pool idx) % 2 ^ 32 == held % 2 ^ 32

/-- The context that owns a pool index (R404). A slot is owned by the context that it is granted to (log 130, DEDUCED). -/
def State.auditOwner (s : State) (pool idx : Nat) : Option Nat :=
  match pool with
  | 0 => some idx
  | 1 | 2 | 3 => some (idx / 1024)
  | 4 => some (idx / 256)
  | 5 => (List.range 64).find? (fun c => bitOf (s.grant c).slots (idx / 2) || bitOf (s.keptGrant c).slots (idx / 2))
  | 6 | 7 => some (idx / 4)
  | 9 => (s.tileAt (idx / 16)).part.map (·.tenant)
  | _ => (s.tileAt idx).part.map (·.tenant)

/-- A pool index is checked (R402, R404): a failure counts, is recorded, and fences the owner. -/
def State.auditCheck (s : State) (pool idx : Nat) : State :=
  if s.auditOk pool idx then s
  else
    let owner := s.auditOwner pool idx
    let s := ((s.bump Fld.auditStatViolations 0 1).setFld Fld.auditStatPool 0 pool).setFld Fld.auditStatIndex 0 idx
    let s := s.journal recAudit [pool, idx, s.auditHeld pool idx, s.auditIssued pool idx, s.auditReturned pool idx]
    match owner with
    | some ctx => s.fence ctx 2
    | none => s

/-- `AUDIT_SNAP` (R401, R402, R450): the five counts of the selected index; a pool above 10 gives zeros. -/
def execAuditSnap (a : Agent) (s : State) : Out State :=
  onUnit a.wf "agent" <|
  onAccess (.auditSnap a) s (fun s => onHostPf a 0x3008 s fun s =>
    let pool := s.fld Fld.auditCtlPool 0
    let idx := auditIndex pool (s.fld Fld.auditCtlIndex 0)
    let on := pool ≤ 10
    let put (s : State) (f : Field) (v : Nat) : State := s.setFld f 0 (if on then v else 0)
    let s' := put s Fld.auditDataCapacity ((s.auditCapacity pool idx).getD 0)
    let s' := put s' Fld.auditDataHeld (s.auditHeld pool idx)
    let s' := put s' Fld.auditDataFree (s.auditFree pool idx)
    let s' := put s' Fld.auditDataIssued (s.auditIssued pool idx)
    let s' := put s' Fld.auditDataReturned (s.auditReturned pool idx)
    if on then s'.auditCheck pool idx else s')

/-! ## The pool indices that an item used (R402) -/

/-- The pool indices that a launch or an ingest item used. -/
def State.auditsOf (s : State) (i : Item) : List (Nat × Nat) :=
  let credits := i.credits.map (fun c => (c.1 + 1, creditIndex i.fn c.1 c.2.1 c.2.2.1))
  let slots (l : List Nat) : List (Nat × Nat) := l.flatMap (fun n => [(5, 2 * n), (5, 2 * n + 1)])
  match i.launch, i.ingest with
  | some l, _ =>
    let tiles := ((s.board i.fn l.handle).map (fun (b : Board) => b.tiles)).getD []
    let refs := ((s.board i.fn l.handle).map (fun (b : Board) => b.gens.map Prod.fst)).getD []
    [(0, i.fn)] ++ credits ++ [(4, 256 * i.fn + l.handle)] ++ slots refs ++ (l.serials.flatMap (fun x => [(6, 4 * i.fn + x.1), (7, 4 * i.fn + x.1)])) ++
      (if l.held then tiles.flatMap (fun t => [(8, t), (10, t)] ++ (List.range 16).map (fun b => (9, 16 * t + b))) else [])
  | none, some r => [(0, i.fn)] ++ credits ++ slots (i.tables.map Prod.fst ++ r.blockSlots).eraseDups
  | none, none => []

end Sys2Proof.Machine
end

