-- ==== Sys2Proof/Machine/Lists.lean ====
section
/-! DEFINITION. List items (R88, R331, R364, R365): the read of an entry, its `RESULT`, and the end of the list. -/

namespace Sys2Proof.Machine

/-- An item past event 3 of the same function that came before and has not ended. -/
def State.aheadOf (s : State) (i : Item) : List Item :=
  (s.items.takeWhile (fun j => j.id != i.id)).filter (fun j => j.fn == i.fn && j.phase != .fetched && j.phase != .done)

/-- The type of an item's descriptor. -/
def Item.type (i : Item) : Nat := (i.desc.map descType).getD 0

/-- An item becomes a running list. -/
def State.startList (s : State) (id : Nat) (d : List Byte) : State :=
  s.modItem id (fun i => { i with phase := .running, list := some ⟨descList d, descCount d, 0, 0, descHbuf d, descHbytes d, none⟩ })

/-- A list item's progress changed. -/
def State.modList (s : State) (id : Nat) (f : ListRun → ListRun) : State := s.modItem id (fun i => { i with list := i.list.map f })

/-- The read of an entry (R365); an entry that delivers poison is an entry of zero bytes and the item has consumed
poison, and so is one whose read is refused, which R341 counts (log 77, DEDUCED). -/
def State.listEntry (s : State) (i : Item) (l : ListRun) : List Byte × State :=
  let n := listEntryBytes i.type
  match s.hostRead i.fn (l.addr + n * l.pos) n with
  | (some (b, false), s) => (b, s)
  | (some (_, true), s) => (List.replicate n 0, s.consumed i.id true)
  | (none, s) => (List.replicate n 0, s.outsideItem i.id)

/-- `RESULT` of the entry is written, with the fields that the command writes (offset, bytes), and the list goes on; its last entry ends
the item (R365, R375). -/
def State.listResult (s : State) (i : Item) (l : ListRun) (result : Nat) (fields : List (Nat × List Byte)) : State :=
  let s := ((1, [BitVec.ofNat 8 result]) :: fields).foldl (fun s f =>
    let r := s.hostWrite i.fn (l.addr + listEntryBytes i.type * l.pos + f.1) f.2 false
    if r.1 then r.2 else r.2.outsideItem i.id) s
  let s := if result = 0 then s else s.addNote i.id noteRefused
  let s := s.modList i.id (fun l => { l with pos := l.pos + 1, written := l.written + 1, swapping := none })
  if l.pos + 1 = l.count then s.endItem i.id else s

/-- A page or window command waits for the launches of its function that came before and are not yet checked (R88, R216, R331) (log 80, DEDUCED). -/
def Item.waitsCheck (j : Item) : Bool := j.launch.isSome && j.phase == .passed3

/-- The next entry of a running list of a type, whose `OP` is `op`; an entry whose `OP` is in no table is taken by any command of the type (log 24, DEDUCED). The
item waits for Bus Master Enable (R353) and for the items `before` that came ahead of it in its function. -/
def onEntry (ty op : Nat) (ops : List Nat) (before : Item → Bool) (item : Nat) (s : State)
    (k : State → Item → ListRun → List Byte → State) : Out State :=
  match s.item item with
  | none => .next s
  | some i =>
    match i.list with
    | none => .next s
    | some l =>
      if i.phase != .running || i.type != ty || l.count ≤ l.pos || l.swapping.isSome || !s.hostReady i.fn ||
          (s.aheadOf i).any before then .next s
      else
        let r := s.listEntry i l
        let o := leAt r.1 0 1
        .next (if o = op || !ops.contains o then k r.2 i l r.1 else s)

/-- The first refusal of a list that applies. -/
def firstRefusal (cs : List (Bool × Nat)) : Option Nat := (cs.find? (·.1)).map Prod.snd

end Sys2Proof.Machine
end

