-- ==== Sys2Proof/Machine/Image.lean ====
section
/-! DEFINITION. The board image (R63-R74) and the binding table (R78): field access, the parse into a board, and the load checks `FORMAT`, `CRC`,
`LAYOUT` and `RESERVED` of R89. -/

namespace Sys2Proof.Machine

/-! ## Fields of the image -/

/-- An image as the copy holds it. -/
abbrev Img := List Byte

/-- A field of `n` bytes. -/
def ifld (m : Img) (a n : Nat) : Nat := leAt m a n

def imgSize (m : Img) : Nat := ifld m 0x08 4
def imgTiles (m : Img) : Nat := ifld m 0x18 2
def imgRows (m : Img) : Nat := ifld m 0x1A 1
def imgCols (m : Img) : Nat := ifld m 0x1B 1
def imgMembers (m : Img) : Nat := ifld m 0x1C 2
def imgVariants (m : Img) : Nat := ifld m 0x1E 2
def imgRegions (m : Img) : Nat := ifld m 0x30 1
def imgTableRefs (m : Img) : Nat := ifld m 0x31 1

/-- Offset of variant-table entry v (R65). -/
def variantAt (m : Img) (v : Nat) : Nat := ifld m 0x28 4 + 64 * v
/-- Offset of tile-stream entry b of variant v (R67). -/
def tileAt (m : Img) (v b : Nat) : Nat := ifld m (variantAt m v + 4) 4 + 32 * b
/-- Offset of region entry i (R72). -/
def regionAt (m : Img) (i : Nat) : Nat := ifld m 0x2C 4 + 16 * i
/-- Offset of table-reference entry i (R73). -/
def tableRefAt (m : Img) (i : Nat) : Nat := ifld m 0x34 4 + 16 * i

def varRoutes (m : Img) (v : Nat) : Nat := ifld m (variantAt m v + 0x0C) 4
def varCredits (m : Img) (v : Nat) : Nat := ifld m (variantAt m v + 0x14) 2
def varBounds (m : Img) (v : Nat) : Nat := ifld m (variantAt m v + 0x16) 2
def varParam (m : Img) (v : Nat) : Nat := ifld m (variantAt m v + 0x1C) 4
def routeAt (m : Img) (v i : Nat) : Nat := ifld m (variantAt m v + 0x08) 4 + 32 * i
def creditAt (m : Img) (v i : Nat) : Nat := ifld m (variantAt m v + 0x10) 4 + 16 * i
def boundAt (m : Img) (v i : Nat) : Nat := ifld m (variantAt m v + 0x18) 4 + 16 * i

/-- The pairs (variant, board tile) of an image. -/
def imgPairs (m : Img) : List (Nat × Nat) :=
  (List.range (imgVariants m)).flatMap (fun v => (List.range (imgTiles m)).map (fun b => (v, b)))

/-! ## FORMAT and CRC -/

/-- `FORMAT` (R63). -/
def formatOk (m : Img) (destBytes : Nat) : Bool :=
  ifld m 0 4 == 0x4243564F && ifld m 4 2 == 2 && ifld m 6 2 == 0x80 && imgSize m % 64 == 0 && 128 ≤ imgSize m && imgSize m ≤ 2 ^ 28 &&
    imgSize m ≤ destBytes

/-- `CRC` (R63). -/
def imgCrcOk (m : Img) : Bool :=
  (crc32c (m.take 0x0C ++ List.replicate 4 0 ++ m.drop 0x10)).toNat == ifld m 0x0C 4

/-! ## LAYOUT (R63-R68, R72-R74) -/

/-- A structure of the image: offset, length, and its kind; kinds 1 to 3 (instruction streams, DMA programs, bound lists) may be shared by
naming the same offset (R64). -/
abbrev Extent := Nat × Nat × Nat

/-- Every structure that the header and the variant and tile-stream tables name. -/
def extents (m : Img) : List Extent :=
  [(0, 128, 0), (ifld m 0x28 4, 64 * imgVariants m, 0), (ifld m 0x2C 4, 16 * imgRegions m, 0), (ifld m 0x34 4, 16 * imgTableRefs m, 0)] ++
  (List.range (imgVariants m)).flatMap (fun v =>
    [(tileAt m v 0, 32 * imgTiles m, 0), (routeAt m v 0, 32 * varRoutes m v, 0), (creditAt m v 0, 16 * varCredits m v, 0),
     (boundAt m v 0, 16 * varBounds m v, 3)]) ++
  (imgPairs m).flatMap (fun p =>
    let t := tileAt m p.1 p.2
    [(ifld m t 4, ifld m (t + 4) 4, 1), (ifld m (t + 8) 4, 32 * ifld m (t + 0xC) 4, 2), (ifld m (t + 0x1C) 4, 8 * ifld m (t + 0x1B) 1, 0)])

/-- Two structures do not overlap, or are one shared structure of a kind that R64 lists (log 190, DEDUCED). -/
def extentsAgree (a b : Extent) : Bool := !overlaps a.1 a.2.1 b.1 b.2.1 || (a.2.2 == b.2.2 && a.2.2 != 0 && a.1 == b.1)

/-- Every pair of a list agrees. -/
def pairsAgree : List Extent → Bool
  | [] => true
  | a :: r => r.all (extentsAgree a) && pairsAgree r

/-- A header whose counts are inside their tables (R63). -/
def headerCountsOk (m : Img) : Bool :=
  1 ≤ imgTiles m && imgTiles m ≤ 256 && 1 ≤ imgRows m && imgRows m ≤ 16 && 1 ≤ imgMembers m && imgMembers m ≤ 1296 &&
    1 ≤ imgVariants m && imgVariants m ≤ 64 && imgRegions m ≤ 15 && imgTableRefs m ≤ 16

/-- A variant entry inside its table (R65). -/
def variantOk (m : Img) (v : Nat) : Bool :=
  ifld m (variantAt m v) 2 == v && varRoutes m v ≤ 65536 && varCredits m v ≤ 4096 && varBounds m v ≤ 1024 && varParam m v % 64 == 0 &&
    64 ≤ varParam m v && varParam m v ≤ 65536

/-- A bound declaration inside its table (R74). -/
def boundOk (m : Img) (a : Nat) : Bool :=
  let first := ifld m a 2
  let n := ifld m (a + 2) 2
  first ≤ 16367 && 1 ≤ n && n ≤ 16368 && first + n ≤ 16368 && ifld m (a + 4) 1 ≤ 2

/-- The race declarations of a tile-stream entry: at most 8, each with a row (R67, R68). -/
def racesOk (m : Img) (t : Nat) : Bool :=
  let n := ifld m (t + 0x1B) 1
  n ≤ 8 && (List.range n).all (fun j => 1 ≤ ifld m (ifld m (t + 0x1C) 4 + 8 * j + 4) 4)

/-- `LAYOUT`. Each clause is reached only when those before it hold, so every offset that it follows lies inside the image. -/
def layoutOk (m : Img) : Bool :=
  let size := imgSize m
  let inside (e : Extent) : Bool := e.1 % 64 == 0 && e.1 + e.2.1 ≤ size
  headerCountsOk m &&
    [(ifld m 0x28 4, 64 * imgVariants m, 0), (ifld m 0x2C 4, 16 * imgRegions m, 0), (ifld m 0x34 4, 16 * imgTableRefs m, 0)].all inside &&
    (List.range (imgVariants m)).all (variantOk m) && (extents m).all inside && pairsAgree (extents m) &&
    ifld m 0x24 4 == ((List.range (imgVariants m)).map (varParam m)).foldl max 0 &&
    (imgPairs m).all (fun p => racesOk m (tileAt m p.1 p.2)) &&
    (List.range (imgRegions m)).all (fun i => ifld m (regionAt m i) 1 ≤ 4) &&
    (List.range (imgTableRefs m)).all (fun i => ifld m (tableRefAt m i) 1 ≤ 1 && ifld m (tableRefAt m i + 1) 1 ≤ 7) &&
    (List.range (imgVariants m)).all (fun v => (List.range (varBounds m v)).all (fun i => boundOk m (boundAt m v i)))

/-! ## The parse -/

/-- The instructions of a stream. -/
def parseInsns (m : Img) (off size : Nat) : List Insn :=
  (List.range (size / 32)).map (fun i => Insn.ofBytes ((m.drop (off + 32 * i)).take 32))

/-- A DMA entry (R69). -/
def parseDma (m : Img) (a : Nat) : DmaEntry :=
  { op := ifld m a 1 % 16, engine := ifld m (a + 1) 1, region := ifld m (a + 2) 1, waits := bitOf (ifld m (a + 3) 1) 0,
    signals := bitOf (ifld m (a + 3) 1) 1, spadAddr := ifld m (a + 4) 4, memOff := ifld m (a + 8) 8, length := ifld m (a + 0x10) 4,
    waitSync := ifld m (a + 0x14) 2, signalSync := ifld m (a + 0x16) 2, indexWord := ifld m (a + 0x18) 2, tripWord := ifld m (a + 0x1A) 2,
    stride := ifld m (a + 0x1C) 4 }

/-- The offsets of the entries of a DMA program, up to and with the one that ends it (R69). -/
def dmaOffsets (m : Img) (off : Nat) : Nat → List Nat
  | 0 => []
  | n + 1 => if ifld m off 1 % 16 = 0xF then [off] else off :: dmaOffsets m (off + 32) n

/-- A DMA program without its end. -/
def parseDmaProgram (m : Img) (off n : Nat) : List DmaEntry :=
  ((dmaOffsets m off n).map (parseDma m)).filter (fun e => e.op != 0xF)

/-- A route entry (R70). -/
def parseRoute (m : Img) (a : Nat) : Route :=
  { kind := ifld m a 1, vc := ifld m (a + 1) 1, srcTile := ifld m (a + 2) 2, dstTile := ifld m (a + 4) 2, dstMember := ifld m (a + 6) 2,
    port := ifld m (a + 8) 1, orderFree := bitOf (ifld m (a + 9) 1) 0, collective := ifld m (a + 0xA) 2, creditRef := ifld m (a + 0xC) 2,
    length := ifld m (a + 0x10) 4, srcSpad := ifld m (a + 0x14) 4, dstOff := ifld m (a + 0x18) 4 }

/-- A credit reservation (R71). -/
def parseCredit (m : Img) (a : Nat) : Credit :=
  { pool := ifld m a 1, vc := ifld m (a + 1) 1, port := ifld m (a + 2) 1, collective := ifld m (a + 4) 2, count := ifld m (a + 8) 4 }

/-- A bound declaration (R74). -/
def parseBound (m : Img) (a : Nat) : Bound :=
  { first := ifld m a 2, words := ifld m (a + 2) 2, kind := ifld m (a + 4) 1, min := BitVec.ofNat 32 (ifld m (a + 8) 4),
    max := BitVec.ofNat 32 (ifld m (a + 0xC) 4) }

/-- A tile-stream entry with what it names (R67). -/
def parseTile (m : Img) (t : Nat) : TileStream :=
  { insns := parseInsns m (ifld m t 4) (ifld m (t + 4) 4), dma := parseDmaProgram m (ifld m (t + 8) 4) (ifld m (t + 0xC) 4),
    spadUse := ifld m (t + 0x10) 4, resident := ifld m (t + 0x14) 4, syncUse := ifld m (t + 0x18) 1, bangleUse := ifld m (t + 0x19) 1,
    privAcc := ifld m (t + 0x1A) 1,
    races := (List.range (ifld m (t + 0x1B) 1)).map (fun j =>
      (ifld m (ifld m (t + 0x1C) 4 + 8 * j) 4, ifld m (ifld m (t + 0x1C) 4 + 8 * j + 4) 4)) }

/-- A variant (R65). -/
def parseVariant (m : Img) (v : Nat) : Variant :=
  { paramSize := varParam m v, routes := (List.range (varRoutes m v)).map (fun i => parseRoute m (routeAt m v i)),
    credits := (List.range (varCredits m v)).map (fun i => parseCredit m (creditAt m v i)),
    bounds := (List.range (varBounds m v)).map (fun i => parseBound m (boundAt m v i)),
    tiles := (List.range (imgTiles m)).map (fun b => parseTile m (tileAt m v b)) }

/-- The board of an image and its binding table `bt` (R78). -/
def parseBoard (m : Img) (bt : List Byte) (dest destBytes : Nat) : Board :=
  { dest := dest, destBytes := destBytes, boardId := ifld m 0x10 8, zorli := bitOf (ifld m 0x20 4) 0, footRows := imgRows m,
    footCols := imgCols m, originRow := leAt bt 4 1, originCol := leAt bt 5 1, rank := leAt bt 0 2,
    chips := (List.range (imgMembers m)).map (fun r => leAt bt (0x100 + 2 * r) 2),
    regions := (List.range (imgRegions m)).map (fun i =>
      { kind := ifld m (regionAt m i) 1, shared := bitOf (ifld m (regionAt m i + 1) 1) 0, size := ifld m (regionAt m i + 8) 8,
        base := leAt bt (0x10 + 16 * i) 8, bound := leAt bt (0x18 + 16 * i) 8 }),
    tablerefs := (List.range (imgTableRefs m)).map (fun i =>
      { loadable := ifld m (tableRefAt m i) 1 == 1, slot := ifld m (tableRefAt m i + 1) 1, id := ifld m (tableRefAt m i + 4) 4, gen := 0 }),
    variants := (List.range (imgVariants m)).map (parseVariant m), refs := 0, retiring := none }

/-! ## RESERVED (R21, R64) -/

/-- The opcodes that the chapters of R95 define. -/
def opcodeKnown (o : Nat) : Bool :=
  o ≤ 0x03 || (0x10 ≤ o && o ≤ 0x14) || (0x40 ≤ o && o ≤ 0x45) || (0x48 ≤ o && o ≤ 0x51) || o == 0x58 || o == 0x60 || o == 0x61 || o == 0x68 ||
    o == 0x70 || o == 0x80 || o == 0x81 || (0x84 ≤ o && o ≤ 0x88) || (0x90 ≤ o && o ≤ 0x98) || (0xA0 ≤ o && o ≤ 0xA3) || o == 0xB0 || o == 0xB1 ||
    o == 0xC0

/-- The reserved bits of `ARGS` by opcode (R97, R105, R107, R111, R112, R143, R162, R193, R206, R220, R221, R228, R229, R238, R239, R284, R314, R321): none of an
opcode that no chapter defines, which fails its encoding check instead (R89, R95); all of NOP, END, FENCE and SWAP, to which the spec gives no fields
(log 193, DESIGN CHOICE). -/
def argsReserved (opc : Nat) : Nat :=
  let above (n : Nat) : Nat := 2 ^ 32 - 2 ^ n
  if opc = 0x02 || !opcodeKnown opc then 0
  else if opc = 0x10 then above 3
  else if opc = 0x11 || opc = 0x14 then above 24
  else if opc = 0x12 then above 26
  else if opc = 0x70 then above 31
  else if 0x40 ≤ opc && opc ≤ 0x6F || 0x96 ≤ opc && opc ≤ 0x98 || opc = 0xC0 then above 28
  else if opc = 0x80 || opc = 0x81 then above 24 + 2 ^ 7
  else if 0x84 ≤ opc && opc ≤ 0x88 then above 27
  else if opc = 0x90 || opc = 0x92 || opc = 0x93 then above 1
  else if opc = 0x91 then above 6
  else if opc = 0x94 then above 9
  else if opc = 0x95 then above 20
  else if opc = 0xA0 then above 22
  else if opc = 0xA1 then above 16
  else if opc = 0xA2 then above 20
  else if opc = 0xA3 then above 10
  else if opc = 0xB0 then above 30
  else if opc = 0xB1 then 2 ^ 19 + 2 ^ 31
  else above 0

/-- Operand `k` of an opcode has the layout of R94 where it is used (log 53, DEDUCED). -/
def opdPlain (opc k : Nat) : Bool := !((opc == 0x90 && k == 2) || (opc == 0xB1 && k != 0))

/-- The reserved bits of an instruction are zero. -/
def insnReservedOk (i : Insn) : Bool :=
  let o := i.opc.toNat
  i.flags.toNat < 8 && i.waitSync.toNat < 128 && i.signalSync.toNat < 128 && (i.args.toNat &&& argsReserved o) == 0 &&
    [(0, i.opd0), (1, i.opd1), (2, i.opd2)].all (fun e => !opdPlain o e.1 || bitsOf e.2.toNat 30 2 == 0) &&
    (o != 0xB1 || (bitsOf i.opd1.toNat 11 21 == 0 && bitsOf i.opd2.toNat 13 3 == 0 && bitsOf i.opd2.toNat 32 32 == 0))

/-- `n` bytes of the image from `a` are zero. -/
def izero (m : Img) (a n : Nat) : Bool := ((m.drop a).take n).all (· == 0)

/-- `RESERVED`: every reserved field of the image and of the binding table is zero. -/
def reservedOk (m : Img) (bt : List Byte) : Bool :=
  ifld m 0x20 4 < 2 && izero m 0x32 2 && izero m 0x38 72 && izero bt 6 10 &&
    (List.range (imgRegions m)).all (fun i => ifld m (regionAt m i + 1) 1 < 2 && izero m (regionAt m i + 2) 6) &&
    (List.range (imgTableRefs m)).all (fun i => izero m (tableRefAt m i + 2) 2 && izero m (tableRefAt m i + 8) 8) &&
    (List.range (imgVariants m)).all (fun v =>
      izero m (variantAt m v + 2) 2 && izero m (variantAt m v + 0x38) 8 &&
      (List.range (varRoutes m v)).all (fun i =>
        ifld m (routeAt m v i + 9) 1 < 2 && izero m (routeAt m v i + 0xE) 2 && izero m (routeAt m v i + 0x1C) 4) &&
      (List.range (varCredits m v)).all (fun i =>
        izero m (creditAt m v i + 3) 1 && izero m (creditAt m v i + 6) 2 && izero m (creditAt m v i + 0xC) 4) &&
      (List.range (varBounds m v)).all (fun i => izero m (boundAt m v i + 5) 3)) &&
    (imgPairs m).all (fun p =>
      let t := tileAt m p.1 p.2
      (parseInsns m (ifld m t 4) (ifld m (t + 4) 4)).all insnReservedOk &&
      (dmaOffsets m (ifld m (t + 8) 4) (ifld m (t + 0xC) 4)).all (fun a => ifld m a 1 < 16 && ifld m (a + 3) 1 < 4))

end Sys2Proof.Machine
end

