-- ==== Sys2Proof/Machine/Stream.lean ====
section
/-! DEFINITION. The checks of a tile's instruction stream and DMA program at load (R67-R75, R92-R97, R141-R145, R187-R193, R203-R211, R228-R229, R284,
R314-R321, R333, R495, R496): the causes `TILE_LIMIT`, `STREAM` and `ADDRESS` of R89 for one board tile of one variant. -/

namespace Sys2Proof.Machine

/-! ## Member ranks (R315) -/

/-- The mode index x(q). -/
def modeIndex (mode q : Nat) : Nat := if mode = 2 then q % 16 else if mode = 3 then q / 16 else q

/-- The largest mode index over the ranks below n. -/
def modeIndexMax (mode n : Nat) : Nat := if mode = 2 then min n 16 - 1 else if mode = 3 then (n - 1) / 16 else n - 1

/-- The rank that a mode gives from rank r and an offset. -/
def modeRank (mode n r off : Nat) : Nat :=
  if mode = 0 then off
  else if mode = 1 then (r + off) % n
  else if mode = 2 then 16 * (r / 16) + (r + off) % 16
  else 16 * ((r / 16 + off) % (n / 16)) + r % 16

/-- The destination member of an `RSEND`; 0xFFFF is this chip (R70). -/
def Route.member (e : Route) (mode n r : Nat) : Nat := if e.dstMember = 0xFFFF then r else modeRank mode n r e.dstMember

/-! ## What the checks see -/

/-- A board tile of a variant with what its checks look at: the regions with the pools they bind, the `SPAD_USE` of every tile. -/
structure LoadCtx where
  tile : Nat
  tiles : Nat
  members : Nat
  tablerefs : Nat
  regions : List (Region × Option Pool)
  variant : Variant
  ts : TileStream

/-- `SPAD_USE` of a board tile. -/
def LoadCtx.spadOf (c : LoadCtx) (b : Nat) : Nat := ((c.variant.tiles[b]?).map (·.spadUse)).getD 0

/-! ## Parameter words (R75) -/

/-- The values that the bounds of `KIND` 0 and 1 allow a word, as [lowest, highest]; none when no bound covers it or a value read as signed
below 0 remains. -/
def wordRange (bs : List Bound) (w : Nat) : Option (Nat × Nat) :=
  let cover := bs.filter (fun b => b.kind < 2 && b.first ≤ w && w < b.first + b.words)
  let us := cover.filter (fun b => b.kind == 0)
  let ss := cover.filter (fun b => b.kind == 1)
  let lo0 : Int := us.foldl (fun a b => max a (b.min.toNat : Int)) 0
  let hi0 : Int := us.foldl (fun a b => min a (b.max.toNat : Int)) (2 ^ 32 - 1)
  let lo1 : Int := ss.foldl (fun a b => max a b.min.toInt) (-(2 ^ 31))
  let hi1 : Int := ss.foldl (fun a b => min a b.max.toInt) (2 ^ 31 - 1)
  if cover.isEmpty then none
  else if ss.isEmpty then some (lo0.toNat, hi0.toNat)
  else if max lo1 (lo0 - 2 ^ 32) ≤ min (min hi1 (-1)) (hi0 - 2 ^ 32) then none
  else some ((max lo0 (max lo1 0)).toNat, (min hi0 hi1).toNat)

/-- The highest value a word may hold. -/
def wordMax (bs : List Bound) (w : Nat) : Option Nat := (wordRange bs w).map Prod.snd

/-- The largest parameter word of an operand that names one. -/
def wordTop : Nat := 16367

/-! ## Loops (R97) -/

/-- An enclosing loop of an instruction: its body's first and last index, its level and its largest trip count. -/
structure LoopSpan where
  first : Nat
  last : Nat
  level : Nat
  trip : Nat

/-- The largest trip count of a `LOOP`; a word without a usable bound counts as 0, and is refused on its own. -/
def maxTrip (bs : List Bound) (i : Insn) : Nat := if i.argBit 3 then (wordMax bs (i.arg 16 16)).getD 0 else i.arg 16 16

/-- Every instruction with its index and its enclosing loops, innermost first. -/
def nest (bs : List Bound) : Nat → List LoopSpan → List Insn → List (Nat × List LoopSpan × Insn)
  | _, _, [] => []
  | k, st, i :: r =>
    let st := st.filter (fun l => k ≤ l.last)
    let st' := if i.opc.toNat = opLoop then ⟨k + 1, k + i.arg 4 12, i.arg 0 3, maxTrip bs i⟩ :: st else st
    (k, st, i) :: nest bs (k + 1) st' r

/-- The stream of the tile with its loops. -/
def LoadCtx.nested (c : LoadCtx) : List (Nat × List LoopSpan × Insn) := nest c.variant.bounds 0 [] c.ts.insns

/-! ## Operand forms -/

/-- What an opcode does with an operand it uses: reads or writes scratchpad bytes, reads or writes vector-buffer bytes (with the
alignment of R141), uses its layout without an access, or holds an immediate word. -/
inductive OpdUse where
  | sp (n : Nat)
  | vec (n al : Nat)
  | plain
  | imm
  deriving DecidableEq, Repr

/-- A scale operand: used when the format carries scales (R103); BF16 ignores its value and addresses, and its encoding is still checked
(log 192, DESIGN CHOICE). -/
def scaleUse (f n : Nat) : OpdUse := if fmtScaled f then .sp n else .plain

/-- The operands that a form uses when its element count is n, the slot's pool gives H x D = hd, and the placement shape is (t, c) (R93, R105-R112, R144,
R147, R155, R159, R162, R193, R206, R209, R221-R223, R230, R236-R239, R284, R321). -/
def Insn.uses (i : Insn) (n hd t c : Nat) : List (Nat × OpdUse) :=
  let o := i.opc.toNat
  let one : OpdUse := if i.argBit 15 then .vec 4 4 else .vec (4 * n) 4
  let v := OpdUse.vec (4 * n) 4
  if o = 0x10 then [(0, .sp (32 * fmtBytes (i.arg 0 3))), (1, scaleUse (i.arg 0 3) 32)]
  else if o = 0x11 then
    let m := 4 * (i.arg 8 8 + 1)
    [(0, .sp (m * fmtBytes (i.arg 3 3))), (1, scaleUse (i.arg 3 3) m)]
  else if o = 0x12 then
    let f := i.arg 3 4
    let m := 4 * (i.arg 10 8 + 1)
    [(0, .sp (m * fmtBytes f))] ++ (if i.argBit 8 then [(1, .sp (m * fmtBytes f))] else if fmtScaled f then [(1, .sp m)] else []) ++
      (if i.argBit 9 then [(2, .sp 256)] else [])
  else if o = 0x14 then [(0, .sp ((i.arg 4 4 + 1) * 4 * (i.arg 8 8 + 1) * (if i.argBit 3 then 256 else 128)))]
  else if o = 0x40 || o = 0x41 then
    let f := i.arg 21 3
    let bytes := if fmtScaled f then ceilDiv n 32 * fmtBytes f else n * (fmtBytes f / 32)
    let sc := if fmtScaled f then [(2, OpdUse.sp (ceilDiv n 32))] else []
    if o = 0x40 then [(0, v), (1, .sp bytes)] ++ sc else [(0, .sp bytes), (1, v)] ++ sc
  else if o = 0x42 || o = 0x4E || o = 0x4F || o = 0x58 then [(0, v), (1, v)]
  else if o = 0x43 then [(1, .sp (ceilDiv n 8))]
  else if o = 0x44 then [(0, .sp (ceilDiv n 8))]
  else if o = 0x45 then [(0, v), (2, .vec 4 4)]
  else if o = 0x50 then [(1, v), (2, one)]
  else if (0x48 ≤ o && o ≤ 0x4D) || o = 0x51 then [(0, v), (1, v), (2, one)]
  else if o = 0x60 then [(0, .vec 32 8), (1, v)]
  else if o = 0x61 then [(0, v), (1, v), (2, .vec 32 8)]
  else if o = 0x68 then [(0, v), (1, v), (2, .vec 8 8)]
  else if o = 0x97 then [(0, v), (1, v), (2, .vec 16 8)]
  else if o = 0x70 then [(0, .sp (n * (if i.argBit 15 then 4 else 2))), (1, v), (2, .sp 32)]
  else if o = 0x84 then [(0, .plain)]
  else if o = 0x90 then [(0, .sp (128 * hd)), (2, .imm)]
  else if o = 0x91 then let b := 4 * (i.arg 1 5 + 1) * hd; [(1, .vec b 4), (2, .vec b 4)]
  else if o = 0x92 then [(0, .sp (128 * hd))]
  else if o = 0x94 then [(1, .sp (8 * i.arg 0 9))]
  else if o = 0x95 then
    let rows := i.arg 0 8 + 1
    let b := 4 * rows * i.ropeDim
    [(0, .vec b 4), (1, .vec b 4), (2, .vec (if i.argBit 19 then 4 else 4 * rows) 4)]
  else if o = 0x96 then [(1, .vec 4 4), (2, .vec 4 4)]
  else if o = 0x98 then [(0, v), (1, .vec (16 * n) 8), (2, .vec 16 8)]
  else if o = 0xA1 || o = 0xA2 || o = 0xA3 then
    let e := i.arg 0 8 + 1
    let area := alignUp (0x40 + 2 * e) 64 + 2 * e * c
    if o = 0xA1 then
      let w := if i.argBit 12 then 64 else 128
      [(0, .sp (64 * t)), (1, .sp ((e - 1) / 32 * t * w + (t - 1) * w + ((e - 1) % 32 + 1) * (w / 32))), (2, .sp area)]
    else if o = 0xA2 then let rb := i.arg 8 12 + 1; [(0, .sp (e * c * rb)), (1, .sp (t * rb)), (2, .sp area)]
    else [(0, .sp (128 * t)), (1, .sp (e * c * (if i.argBit 8 then 64 else 128))), (2, .sp (64 * t))]
  else if o = 0xB1 then
    let w := i.opd1.toNat
    let op := bitsOf w 7 3
    let es := if op = 1 then 4 else if op = 2 then 2 else 8
    (if op = 0 then [] else [(0, .sp (bitsOf w 32 32 / es * (if bitOf w 10 then 8 else 4)))]) ++ [(1, .imm), (2, .imm)]
  else if o = 0xC0 then
    let bits := if i.arg 25 2 = 0 then 4 else if i.arg 25 2 = 1 then 6 else 8
    [(0, v), (1, .sp (ceilDiv (n * bits) 8))] ++ (if i.argBit 27 then [(2, .sp (ceilDiv n 32))] else [])
  else []

/-- An operand of an instruction. -/
def Insn.operand (i : Insn) (k : Nat) : Word64 := if k = 0 then i.opd0 else if k = 1 then i.opd1 else i.opd2

/-- Opcodes whose element count follows R143. -/
def opcodeCounted (o : Nat) : Bool := (0x40 ≤ o && o ≤ 0x70) || (0x96 ≤ o && o ≤ 0x98) || o == 0xC0

/-- The largest element count of an opcode (R143, R206). -/
def countLimit (o : Nat) : Nat := if o = 0x98 then 64 else 8192

/-- The largest element count of an instruction, capped at its limit. -/
def maxCount (bs : List Bound) (i : Insn) : Nat :=
  if !opcodeCounted i.opc.toNat then 0
  else min (countLimit i.opc.toNat) (if i.argBit 14 then (wordMax bs (i.arg 0 14)).getD 0 else i.arg 0 14 + 1)

/-! ## The placement shape and the locket (R209, R211, R228) -/

/-- T and C of the stream's `XCFG` (log 55, DEDUCED). -/
def LoadCtx.shape (c : LoadCtx) : Nat × Nat :=
  match c.ts.insns.find? (fun i => i.opc.toNat == 0xA0) with
  | some i => (i.arg 0 11 + 1, i.arg 11 11 + 1)
  | none => (1, 1)

/-- The pool that the cache reference of an `LKLOAD` names, when its region binds one. -/
def LoadCtx.refPool (c : LoadCtx) (w : Word64) : Option Pool := (c.regions[(CacheRef.ofWord w).region]?).bind Prod.snd

/-- H x D of the pool that the slot of a locket instruction at index k is bound to: that of the last `LKLOAD` of the slot (log 56, DEDUCED). -/
def LoadCtx.slotDim (c : LoadCtx) (k : Nat) (i : Insn) : Option Nat :=
  ((c.ts.insns.take (k + 1)).reverse.find? (fun j => j.opc.toNat == 0x90 && j.arg 0 1 == i.arg 0 1)).bind
    (fun j => (c.refPool j.opd2).map (fun p => p.heads * p.dim))

/-- The order of a slot's locket instructions in a scope and the loops inside it (R211): `loaded`, and `open_` while the last was no `LKFL` (log 51, DEDUCED). -/
def locketOrder (slot : Nat) : Bool → Bool → List Insn → Bool
  | _, open_, [] => !open_
  | loaded, open_, i :: r =>
    let o := i.opc.toNat
    if 0x90 ≤ o && o ≤ 0x93 && i.arg 0 1 == slot then
      if o = 0x90 then !open_ && locketOrder slot true true r else loaded && locketOrder slot true (o != 0x93) r
    else locketOrder slot loaded open_ r

/-- R211 in the top level and in each loop body. -/
def LoadCtx.locketOk (c : LoadCtx) : Bool :=
  let scopes := c.ts.insns :: (c.ts.insns.zipIdx.filter (fun e => e.1.opc.toNat == opLoop)).map
    (fun e => (c.ts.insns.drop (e.2 + 1)).take (e.1.arg 4 12))
  scopes.all (fun l => locketOrder 0 false false l && locketOrder 1 false false l)

/-! ## The prologue and bangles (R189-R193) -/

/-- An opcode of the prologue. -/
def isPrologue (i : Insn) : Bool := i.opc.toNat == opBcfg || i.opc.toNat == opScfg

/-- The length of the prologue. -/
def LoadCtx.prologue (c : LoadCtx) : Nat := (c.ts.insns.takeWhile isPrologue).length

/-- The bangles that the prologue configures, by number. -/
def LoadCtx.bangles (c : LoadCtx) : List (Nat × Bangle) :=
  ((c.ts.insns.takeWhile isPrologue).filter (fun i => i.opc.toNat == opBcfg)).map (fun i =>
    (i.arg 0 4, { base := opdBase i.opd0, size := 256 * i.arg 12 15, prod := i.arg 4 4, cons := i.arg 8 4, head := 0, tail := 0, fill := 0 }))

/-- The bangle whose region contains an offset. -/
def LoadCtx.bangleAt (c : LoadCtx) (a : Nat) : Option Bangle :=
  (c.bangles.find? (fun b => within a 1 b.2.base b.2.size)).map Prod.snd

/-- No two regions of a list overlap. -/
def regionsApart : List (Nat × Bangle) → Bool
  | [] => true
  | a :: r => r.all (fun b => a.1 != b.1 && !overlaps a.2.base a.2.size b.2.base b.2.size) && regionsApart r

/-- The bangles are configured as R190 allows, each once. -/
def LoadCtx.banglesOk (c : LoadCtx) : Bool :=
  c.bangles.all (fun b =>
    b.1 < c.ts.bangleUse && 1 ≤ b.2.size && b.2.size ≤ 256 * spadRows && b.2.base % 256 == 0 && b.2.base + b.2.size ≤ c.ts.spadUse && b.2.prod ≤ 4 &&
      b.2.cons ≤ 4 && !(b.2.prod == b.2.cons && b.2.prod < 4)) && regionsApart c.bangles

/-- A bangle instruction names a configured bangle whose engine side it uses (R193). -/
def LoadCtx.bangleInsnOk (c : LoadCtx) (i : Insn) : Bool :=
  match c.bangles.find? (fun b => b.1 == i.arg 0 4) with
  | none => false
  | some (_, b) =>
    1 ≤ i.arg 4 23 && i.arg 4 23 ≤ b.size &&
      (if i.opc.toNat = opBwaitd || i.opc.toNat = opBpop then b.cons == 4 else b.prod == 4)

/-! ## TILE_LIMIT -/

/-- `TILE_LIMIT` of R89 (R67, R68). `PRIV_ACC` has 8 bits. -/
def LoadCtx.limitOk (c : LoadCtx) : Bool :=
  let ts := c.ts
  ts.spadUse ≤ 4 * 2 ^ 20 && ts.syncUse ≤ 128 && ts.bangleUse ≤ 16 && ts.dma.all (fun e => e.engine ≤ 3) && ts.resident ≤ ts.spadUse &&
    ts.races.all (fun r => r.1 + r.2 ≤ ceilDiv ts.spadUse 256)

/-! ## STREAM: instructions -/

/-- The terms of an operand: level and stride in bytes. -/
def opdTerms (o : Word64) : List (Nat × Int) :=
  let v := o.toNat
  (if bitOf v 28 then [(bitsOf v 22 3, 16 * stride16 (bitsOf v 32 16))] else []) ++
    (if bitOf v 29 then [(bitsOf v 25 3, 16 * stride16 (bitsOf v 48 16))] else [])

/-- An operand's base and strides are multiples of q at every iteration (log 220, DESIGN CHOICE). -/
def opdAligned (o : Word64) (q : Nat) : Bool := opdBase o % q == 0 && (opdTerms o).all (fun t => t.2 % (q : Int) == 0)

/-- An operand of a form is encoded right: an unused one is zero, its terms name enclosing loops, and a vector-buffer operand
follows R141. -/
def opdOk (ls : List LoopSpan) (us : List (Nat × OpdUse)) (i : Insn) (k : Nat) : Bool :=
  let o := i.operand k
  let levels := (opdTerms o).all (fun t => ls.any (fun l => l.level == t.1))
  match us.find? (fun u => u.1 == k) with
  | none => o == 0
  | some (_, .imm) => true
  | some (_, .vec _ al) => levels && opdBase o < 131072 && opdAligned o al
  | some _ => levels

/-- A `LOOP` (R97): body, levels, the body before `END`, and a trip word. -/
def LoadCtx.loopOk (c : LoadCtx) (k : Nat) (ls : List LoopSpan) (i : Insn) : Bool :=
  let last := k + i.arg 4 12
  1 ≤ i.arg 4 12 && last + 1 < c.ts.insns.length && ls.all (fun l => last ≤ l.last && l.level != i.arg 0 3) &&
    (!i.argBit 3 || i.arg 16 16 ≤ wordTop)

/-- An `RSEND` (R314, R315). -/
def LoadCtx.rsendOk (c : LoadCtx) (i : Insn) : Bool :=
  match c.variant.routes[i.arg 0 16]? with
  | none => false
  | some e =>
    e.srcTile == c.tile && i.arg 26 2 ≤ 2 && i.arg 28 2 ≤ 2 &&
      (match e.kind with
      | 0 => i.arg 16 8 == 0 && i.arg 24 2 == 0
      | 3 => i.arg 24 2 == 0
      | _ => i.arg 16 8 < 128) && (i.arg 24 2 < 2 || c.members % 16 == 0)

/-- An `RLAND` (R321); a combining landing's reservation is judged under `CREDIT`, but for its `LENGTH` (log 54, DEDUCED). -/
def LoadCtx.rlandOk (c : LoadCtx) (i : Insn) : Bool :=
  let w := i.opd1.toNat
  let v := i.opd2.toNat
  let op := bitsOf w 7 3
  let len := bitsOf w 32 32
  let ref := bitsOf v 16 16
  let n := i.arg 20 11 + 1
  bitsOf w 0 7 < c.ts.syncUse && op ≤ 3 && n ≤ c.members && (bitsOf v 11 2 < 2 || c.members % 16 == 0) &&
    (if op = 0 then len == 0 && ref == 0xFFFF
     else len != 0 && len % (if op = 1 then 4 else if op = 2 then 2 else 8) == 0 && ref != 0xFFFF &&
       (bitsOf v 11 2 != 0 || bitsOf v 0 11 + n ≤ c.members) &&
       (match c.variant.credits[ref]? with
       | some r => r.pool != 1 || len ≤ 256
       | none => true))

/-- The rules of an opcode on its fields. -/
def LoadCtx.fieldsOk (c : LoadCtx) (k : Nat) (ls : List LoopSpan) (i : Insn) : Bool :=
  let o := i.opc.toNat
  if o = opEnd then k + 1 == c.ts.insns.length
  else if o = opLoop then c.loopOk k ls i
  else if o = 0x10 then i.arg 0 3 ≤ 5 && opdAligned i.opd0 8
  else if o = 0x11 then i.arg 3 3 ≤ 5 && i.arg 16 8 + i.arg 8 8 ≤ 255 && opdAligned i.opd0 8
  else if o = 0x12 then
    i.arg 3 4 ≤ 7 && i.arg 18 8 + i.arg 10 8 ≤ 255 && (!i.argBit 8 || i.arg 3 4 == 5 || i.arg 3 4 == 6) && (!i.argBit 9 || opdAligned i.opd2 256)
  else if o = 0x14 then i.arg 16 8 + i.arg 8 8 ≤ 255
  else if o = 0x41 then fmtScaled (i.arg 21 3) == false || !i.argBit 19 || i.argBit 20
  else if o = 0x43 || o = 0x44 || o = 0x96 then !i.argBit 19
  else if o = 0x50 then i.arg 21 3 ≤ 5
  else if o = 0x51 then i.argBit 19
  else if o = 0x58 then i.arg 21 4 ≤ 8
  else if o = 0x70 then i.arg 16 14 ≤ 16365 && opdAligned i.opd0 (if i.argBit 15 then 4 else 2) && opdAligned i.opd2 32
  else if o = opScfg then k < c.prologue && i.arg 0 7 < c.ts.syncUse && 1 ≤ i.arg 8 16
  else if o = opSsig then i.arg 0 7 < c.ts.syncUse && 1 ≤ i.arg 8 16
  else if o = opBcfg then k < c.prologue && (opdTerms i.opd0).isEmpty
  else if opBwaitd ≤ o && o ≤ opBpop then c.bangleInsnOk i
  else if o = 0x90 then
    (match c.regions[(CacheRef.ofWord i.opd2).region]? with
    | some r => r.1.kind == 2
    | none => false) &&
      (CacheRef.ofWord i.opd2).ptw ≤ wordTop && (CacheRef.ofWord i.opd2).lenw ≤ wordTop && (CacheRef.ofWord i.opd2).idw ≤ wordTop &&
      bitsOf i.opd2.toNat 58 6 == 0
  else if o = 0x94 then 1 ≤ i.arg 0 9 && i.arg 0 9 ≤ 128
  else if o = 0x95 then i.arg 8 2 < 3 && 1 ≤ i.arg 10 8 && 2 * i.arg 10 8 ≤ i.ropeDim
  else if o = 0xA0 then ls.isEmpty && !(c.ts.insns.take k).any (fun j => 0xA0 ≤ j.opc.toNat && j.opc.toNat ≤ 0xA3)
  else if 0xA1 ≤ o && o ≤ 0xA3 then
    (c.ts.insns.take k).any (fun j => j.opc.toNat == 0xA0) && 1 ≤ i.arg 0 8 &&
      (o != 0xA1 || (i.arg 8 3 ≤ i.arg 0 8 && (i.arg 0 8 + 1) * c.shape.2 ≤ 16384 && opdAligned i.opd0 64 && opdAligned i.opd2 64))
  else if o = 0xB0 then c.rsendOk i
  else if o = 0xB1 then c.rlandOk i
  else if o = 0xC0 then !i.argBit 15 && i.arg 21 4 < c.tablerefs && i.arg 25 2 != 3
  else true

/-- The waits and signals of an instruction name objects in use (R93, R112). -/
def LoadCtx.flagsOk (c : LoadCtx) (i : Insn) : Bool :=
  let o := i.opc.toNat
  (!i.orderFree || o == opRed) && (!i.wait || i.waitObj + (if o = opRed then redSources i else 1) ≤ c.ts.syncUse) &&
    (!i.signal || i.signalObj < c.ts.syncUse)

/-- The count field of an instruction (R143). -/
def countOk (i : Insn) : Bool :=
  !opcodeCounted i.opc.toNat || (if i.argBit 14 then i.arg 0 14 ≤ wordTop else i.arg 0 14 + 1 ≤ countLimit i.opc.toNat)

/-- The operands that an instruction at index k uses, at its largest count. -/
def LoadCtx.usesAt (c : LoadCtx) (k : Nat) (i : Insn) : List (Nat × OpdUse) :=
  i.uses (maxCount c.variant.bounds i) ((c.slotDim k i).getD 0) c.shape.1 c.shape.2

/-- An instruction passes its encoding check. -/
def LoadCtx.insnOk (c : LoadCtx) (e : Nat × List LoopSpan × Insn) : Bool :=
  let i := e.2.2
  opcodeKnown i.opc.toNat && c.flagsOk i && countOk i && c.fieldsOk e.1 e.2.1 i &&
    (List.range 3).all (opdOk e.2.1 (c.usesAt e.1 i) i)

/-! ## STREAM: routes and DMA entries -/

/-- A route entry's fields (R70, R314), a virtual channel other than CLASP and BULK among them (log 191, DEDUCED) (log 209, DESIGN CHOICE). -/
def LoadCtx.routeOk (c : LoadCtx) (e : Route) : Bool :=
  e.kind ≤ 3 && e.vc ≤ 1 && e.srcTile < c.tiles && e.dstTile < c.tiles && (e.dstMember < c.members || e.dstMember == 0xFFFF) &&
    (e.collective ≤ 4094 || e.collective == 0xFFFF) && 1 ≤ e.length && e.length ≤ 2 ^ 24 && (e.vc != 0 || e.length ≤ 256) &&
    (if e.kind = 0 then e.port == 0xFF && e.dstMember == 0xFFFF else e.port ≤ 19) && (e.kind != 3 || e.dstTile == 0)

/-- The operations that a region's kind allows (R496). -/
def dmaKindOk (kind op : Nat) : Bool :=
  match kind with
  | 0 => op == 0 || op == 2
  | 2 => op == 2
  | 3 => op == 4
  | _ => op ≤ 3

/-- A page transfer's fields (R203-R205). -/
def pageEntryOk (e : DmaEntry) (p : Option Pool) : Bool :=
  e.part ≤ 5 && bitsOf e.memOff 15 17 == 0 && bitsOf e.stride 14 18 == 0 && e.indexWord ≤ wordTop && e.tripWord ≤ wordTop &&
    bitsOf e.stride 0 14 ≤ wordTop && (e.part < 4 || e.group0 == 0) &&
    (match p with
    | some p => (p.mx || (e.part != 2 && e.part != 3)) && e.length == p.partSize e.part
    | none => true)

/-- A DMA entry passes its encoding check (R69, R192, R205, R496). -/
def LoadCtx.dmaOk (c : LoadCtx) (e : DmaEntry) : Bool :=
  match c.regions[e.region]? with
  | none => false
  | some (r, p) =>
    e.op ≤ 4 && dmaKindOk r.kind e.op && 1 ≤ e.length && e.length ≤ 2 ^ 24 && (!e.waits || e.waitSync < c.ts.syncUse) &&
      (!e.signals || e.signalSync < c.ts.syncUse) &&
      (if r.kind = 2 then pageEntryOk e p
       else (e.indexWord == 0xFFFF || ((e.op == 2 || e.op == 3) && e.indexWord ≤ wordTop)) && (e.tripWord == 0xFFFF || e.tripWord ≤ wordTop)) &&
      (match c.bangleAt e.spadAddr with
      | some b => e.spadAddr == b.base && e.length ≤ b.size && ((e.engine == b.prod && e.fills) || (e.engine == b.cons && !e.fills))
      | none => true)

/-- The objects that the stream waits on. -/
def LoadCtx.streamWaits (c : LoadCtx) : List Nat :=
  (c.ts.insns.filter (·.wait)).flatMap (fun i => (List.range (if i.opc.toNat = opRed then redSources i else 1)).map (· + i.waitObj))

/-- Each object has one waiter (R187). -/
def LoadCtx.waitersOk (c : LoadCtx) : Bool :=
  let sw := c.streamWaits
  let dw := c.ts.dma.filter (·.waits)
  dw.all (fun e => !sw.contains e.waitSync && dw.all (fun f => f.waitSync != e.waitSync || f.engine == e.engine))

/-- `STREAM` of R89 for the tile. -/
def LoadCtx.streamOk (c : LoadCtx) : Bool :=
  c.ts.insns.length != 0 && (c.ts.insns.getLast?.map (fun i => i.opc.toNat)) == some opEnd && c.banglesOk && c.nested.all c.insnOk && c.locketOk &&
    c.ts.dma.all c.dmaOk && c.waitersOk

/-! ## ADDRESS (R75, R94, R141, R205, R315, R495) -/

/-- The lowest and highest effective address of an operand over its loops (log 50, DEDUCED). -/
def opdRange (ls : List LoopSpan) (o : Word64) : Int × Int :=
  let last (lv : Nat) : Int := ((ls.find? (fun l => l.level == lv)).map (fun l => ((l.trip - 1 : Nat) : Int))).getD 0
  let ts := match opdTerms o with
    | [(a, x), (b, y)] => if a = b then [(a, x + y)] else [(a, x), (b, y)]
    | l => l
  ts.foldl (fun r t => let d := t.2 * last t.1; (r.1 + min d 0, r.2 + max d 0)) ((opdBase o : Int), (opdBase o : Int))

/-- An operand stays in its range: the scratchpad range of the tile, or its vector buffer. Addresses of an operand in a bangle wrap
into its region (R191). -/
def LoadCtx.opdInside (c : LoadCtx) (ls : List LoopSpan) (i : Insn) (u : Nat × OpdUse) : Bool :=
  let o := i.operand u.1
  let r := opdRange ls o
  match u.2 with
  | .sp n => n == 0 || (c.bangleAt (opdBase o)).isSome || (decide (0 ≤ r.1) && decide (r.2 + n ≤ c.ts.spadUse))
  | .vec n _ =>
    let b : Int := opdBase o / 32768 * 32768
    n == 0 || (decide (b ≤ r.1) && decide (r.2 + n ≤ b + 32768))
  | _ => true

/-- The bounds on the words of a cache reference or page transfer keep the page and the entry in the pool (R205); `tail`: the group of L itself,
otherwise the last whole group, if it is not below `g0` (log 52, DEDUCED). -/
def pageWordsOk (bs : List Bound) (p : Pool) (ptw lenw idw row g0 : Nat) (tail : Bool) : Bool :=
  match wordMax bs ptw, wordMax bs lenw, wordMax bs idw with
  | some pt, some len, some _ =>
    let n := len / 32
    (!tail && n ≤ g0) || (let k := (if tail then n else n - 1) / p.groups; k < p.rowPages && pt + row * p.rowPages + k < p.ptEntries)
  | _, _, _ => false

/-- The words that an instruction takes as counts are bounded (R75, R97, R143). -/
def LoadCtx.countsBounded (c : LoadCtx) (i : Insn) : Bool :=
  let bs := c.variant.bounds
  let o := i.opc.toNat
  if o = opLoop && i.argBit 3 then (wordMax bs (i.arg 16 16)).any (· ≤ 65535)
  else if opcodeCounted o && i.argBit 14 then (wordMax bs (i.arg 0 14)).any (· ≤ countLimit o)
  else true

/-- The source and destination ranges of an `RSEND` over every rank (R315). -/
def LoadCtx.rsendInside (c : LoadCtx) (i : Insn) : Bool :=
  match c.variant.routes[i.arg 0 16]? with
  | none => true
  | some e =>
    let mode := i.arg 24 2
    let top (by_ : Nat) : Nat := if by_ = 0 then 0 else if by_ = 2 ∧ mode = 0 ∧ e.dstMember ≠ 0xFFFF then e.dstMember else modeIndexMax mode c.members
    e.srcSpad + e.length * (top (i.arg 26 2) + 1) ≤ c.ts.spadUse &&
      (e.kind == 3 || e.dstOff + e.length * (top (i.arg 28 2) + 1) ≤ c.spadOf e.dstTile)

/-- An instruction's addresses stay in range. -/
def LoadCtx.insnInside (c : LoadCtx) (e : Nat × List LoopSpan × Insn) : Bool :=
  let i := e.2.2
  c.countsBounded i && (c.usesAt e.1 i).all (c.opdInside e.2.1 i) && (i.opc.toNat != opRsend || c.rsendInside i) &&
    (i.opc.toNat != 0x90 ||
      (match c.refPool i.opd2 with
      | some p => let r := CacheRef.ofWord i.opd2; pageWordsOk c.variant.bounds p r.ptw r.lenw r.idw r.row 0 true
      | none => true))

/-- The scratchpad side of an entry of at most n transfers. -/
def LoadCtx.dmaSpadInside (c : LoadCtx) (e : DmaEntry) (n : Nat) : Bool :=
  n == 0 || (c.bangleAt e.spadAddr).isSome || e.spadAddr + n * e.length ≤ c.ts.spadUse

/-- The region side of an entry of at most n transfers whose indices come from parameter words: every word is bounded, and the largest offset
lies in the region. -/
def LoadCtx.gatherInside (c : LoadCtx) (e : DmaEntry) (r : Region) (n : Nat) : Bool :=
  (List.range n).all (fun k => e.indexWord + k ≤ wordTop &&
    (match wordMax c.variant.bounds (e.indexWord + k) with
    | some x => e.memOff + x * e.stride + e.length ≤ r.bound
    | none => false))

/-- A DMA entry's addresses stay in range. -/
def LoadCtx.dmaInside (c : LoadCtx) (e : DmaEntry) : Bool :=
  match c.regions[e.region]? with
  | none => true
  | some (r, p) =>
    if r.kind = 2 then
      match p with
      | none => true
      | some p =>
        pageWordsOk c.variant.bounds p e.indexWord e.tripWord (bitsOf e.stride 0 14) e.row e.group0 (4 ≤ e.part) &&
          c.dmaSpadInside e (if 4 ≤ e.part then 1 else ((wordMax c.variant.bounds e.tripWord).getD 0) / 32 - e.group0)
    else
      match (if e.tripWord = 0xFFFF then some 1 else wordMax c.variant.bounds e.tripWord) with
      | none => false
      | some n =>
        c.dmaSpadInside e n &&
          (n == 0 ||
            (if e.op = 2 || e.op = 3 then e.indexWord == 0xFFFF || c.gatherInside e r (min n 16368) && n ≤ 16368
             else e.memOff + (n - 1) * e.stride + e.length ≤ r.bound))

/-- `ADDRESS` of R89 for the tile. -/
def LoadCtx.addressOk (c : LoadCtx) : Bool := c.nested.all c.insnInside && c.ts.dma.all c.dmaInside

/-! ## CREDIT (R71, R321, R325) -/

/-- A credit reservation's fields (R71) (log 210, DESIGN CHOICE). -/
def Credit.fieldsOk (c : Credit) : Bool := c.pool ≤ 2 && c.vc ≤ 1 && c.port ≤ 19 && 1 ≤ c.count

/-- A route draws on a reservation of pool 0, and a route of kind 0 on none (R70, R325). -/
def Variant.routeCreditOk (v : Variant) (e : Route) : Bool :=
  if e.kind = 0 then e.creditRef == 0xFFFF
  else match v.credits[e.creditRef]? with
    | some c => c.pool == 0
    | none => false

/-- A combining landing draws on a reservation of pool 1 or 2 with at least n + 1 slots (R321). -/
def Variant.landingCreditOk (v : Variant) (i : Insn) : Bool :=
  i.opc.toNat != opRland || bitsOf i.opd1.toNat 7 3 == 0 ||
    (match v.credits[bitsOf i.opd2.toNat 16 16]? with
    | some c => c.pool != 0 && i.arg 20 11 + 2 ≤ c.count
    | none => false)

/-- Every use of the credits of a variant is allowed. -/
def Variant.creditUseOk (v : Variant) : Bool :=
  v.credits.all Credit.fieldsOk && v.routes.all v.routeCreditOk && v.tiles.all (fun t => t.insns.all v.landingCreditOk)

end Sys2Proof.Machine
end

