-- ==== Sys2Proof/Machine/Load.lean ====
section
/-! DEFINITION. Loading a board (R78-R81, R86, R89, R363, R365): the copy, the load checks in the order of R89, and the board that results. -/

namespace Sys2Proof.Machine

/-! ## The reads of a load (R363) -/

/-- A read from the source that `DEV_ADDR` selects, byte by byte with the marks; none where it is refused (log 59, DEDUCED). -/
def State.sourceRead (s : State) (fn a n : Nat) (dev : Bool) : Option (List (Byte × Bool)) × State :=
  if dev then
    if s.ownRange fn a n then let r := (s.bursts fn a n).memRead a n; (some r.1, r.2) else (none, s)
  else
    match s.hostRead fn a n with
    | (some r, s') => (some (r.1.zipIdx.map (fun e => (e.1, Tab.get false s.hostPoison ((a + e.2) / 64)))), s')
    | (none, s') => (none, s')

/-- The marks of a copy by the codewords of its destination: a marked write of a part poisons the whole codeword (R392). -/
def codewordMarks : List (Byte × Bool) → Nat → List (Byte × Bool)
  | _, 0 => []
  | bs, n + 1 =>
    let c := bs.take 64
    (if c.any Prod.snd then c.map (fun _ => (0, true)) else c) ++ codewordMarks (bs.drop 64) n

/-! ## The checks -/

/-- `FOOTPRINT` (R63, R66, R78). -/
def State.footprintOk (s : State) (fn : Nat) (b : Board) (tiles : Nat) : Bool :=
  tiles == b.footRows * b.footCols && [1, 2, 4, 8, 16].contains b.footCols && b.originCol % b.footCols == 0 &&
    (s.grant fn).covers b.originRow b.originCol b.footRows b.footCols

/-- The regions of a board with the pools that they bind. -/
def State.regionPools (s : State) (fn : Nat) (b : Board) : List (Region × Option Pool) :=
  b.regions.map (fun r => (r, if r.kind = 2 then (s.poolAt fn r.base r.bound).map Prod.snd else none))

/-- The contexts of every board tile of every variant. -/
def State.loadCtxs (s : State) (fn : Nat) (b : Board) : List LoadCtx :=
  let rs := s.regionPools fn b
  b.variants.flatMap (fun v => v.tiles.zipIdx.map (fun e =>
    { tile := e.2, tiles := b.footRows * b.footCols, members := b.chips.length, tablerefs := b.tablerefs.length, regions := rs, variant := v,
      ts := e.1 }))

/-- The window writes of a board tile name peer references that are set to the destination's chip (R333). -/
def State.peersOk (s : State) (fn : Nat) (b : Board) (c : LoadCtx) : Bool :=
  c.ts.insns.all (fun i => i.opc.toNat != opRsend ||
    (match c.variant.routes[i.arg 0 16]? with
    | some e =>
      e.kind != 3 ||
        (match Tab.get none s.peerRefs (256 * fn + i.arg 16 8) with
        | some p => some p.peer == b.chips[e.member 0 c.members b.rank]?
        | none => false)
    | none => true))

/-- `REGION` (R72, R77, R78, R333). -/
def State.regionsOk (s : State) (fn : Nat) (b : Board) (cs : List LoadCtx) : Bool :=
  b.regions.all (fun r => r.size ≤ r.bound && s.bindingOk fn r) && cs.all (s.peersOk fn b)

/-- `MEMBERS` (R78); `n`: the binding table's `MEMBER_COUNT`. -/
def State.membersOk (s : State) (b : Board) (n : Nat) : Bool :=
  n == b.chips.length && b.rank < b.chips.length && b.chips[b.rank]? == some s.chipId

/-- The instruction streams have a size that R92 allows. -/
def streamSizesOk (m : Img) : Bool :=
  (imgPairs m).all (fun p => let n := ifld m (tileAt m p.1 p.2 + 4) 4; n != 0 && n % 32 == 0)

/-- The cause that the checks on the copy give, in the order of R89. -/
def State.loadCause (s : State) (fn : Nat) (m : Img) (bt : List Byte) (destBytes : Nat) (b : Board) : Option Nat :=
  if !formatOk m destBytes then some causeFormat
  else if !imgCrcOk m then some causeCrc
  else if !layoutOk m then some causeLayout
  else if !reservedOk m bt then some causeReserved
  else if !s.footprintOk fn b (imgTiles m) then some causeFootprint
  else if !s.inService (imgTiles m) b.originRow b.footRows then some causeTilesInService
  else
    let cs := s.loadCtxs fn b
    if !cs.all LoadCtx.limitOk then some causeTileLimit
    else if !(streamSizesOk m && cs.all (fun c => c.variant.routes.all c.routeOk) && cs.all LoadCtx.streamOk) then some causeStream
    else if !s.regionsOk fn b cs then some causeRegion
    else if !cs.all LoadCtx.addressOk then some causeAddress
    else if !b.variants.all (fun v => v.creditUseOk && (s.grant fn).creditsOk v.credits) then some causeCredit
    else if !b.variants.all (fun v => v.ports.all (s.portGranted fn)) then some causeLink
    else if !s.membersOk b (leAt bt 2 2) then some causeMembers
    else if !b.tablerefs.all (fun r => !r.loadable || s.slotHolds fn r.slot r.id) then some causeTable
    else none

/-! ## The load -/

/-- The current generation of a slot. -/
def State.currentGen (s : State) (slot : Nat) : Option TableGen := (Tab.get ⟨none, none, 0⟩ s.tables slot).current

/-- A board with the current generation in each of its loadable references. -/
def State.withGens (s : State) (b : Board) : Board :=
  { b with tablerefs := b.tablerefs.map (fun r => if r.loadable then { r with gen := ((s.currentGen r.slot).map (fun (g : TableGen) => g.gen)).getD 0 } else r) }

/-- One reference on the current generation of each loadable slot that a board names (R81, R283). -/
def State.takeTables (s : State) (b : Board) : State :=
  b.gens.foldl (fun (s : State) r =>
    let t := Tab.get ⟨none, none, 0⟩ s.tables r.1
    match t.current with
    | some g => ({ s with tables := Tab.set ⟨none, none, 0⟩ s.tables r.1 { t with current := some { g with refs := g.refs + 1 } } }).issue 5 (2 * r.1) 1
    | none => s) s

/-- The board is loaded in its handle, protected from now on (R80, R81, R400). -/
def State.install (s : State) (fn handle : Nat) (b : Board) : State :=
  let b := s.withGens b
  ((s.takeTables b).setBoard fn handle (some b)).auditFresh 4 (256 * fn + handle)

/-- The copy and its checks (R78, R79, R363). A refused read ends the load with `REGION`; the part of the image that does not fit in the
destination range is not copied (log 58, DEDUCED). -/
def State.loadCopy (s : State) (fn id : Nat) (d : List Byte) : State :=
  let a := leAt d 0x18 8
  let dest := leAt d 0x20 8
  let room := leAt d 0x28 8
  let dev := descDev d
  match s.sourceRead fn a 128 dev with
  | (none, s) => s.reject id causeRegion
  | (some hd, s) =>
    match s.sourceRead fn a (leAt (hd.map Prod.fst) 8 4) dev with
    | (none, s) => s.reject id causeRegion
    | (some img, s) =>
      let copy := codewordMarks (img.take room) (ceilDiv (min img.length room) 64)
      let m := copy.map Prod.fst
      let m := if m.length < 128 then hd.map Prod.fst else m
      let s := (s.storeMarked fn dest copy).consumed id ((hd ++ img).any Prod.snd)
      match s.sourceRead fn (leAt d 0x30 8) (0x100 + 2 * imgMembers m) dev with
      | (none, s) => s.reject id causeRegion
      | (some bind, s) =>
        let s := s.consumed id (bind.any Prod.snd)
        let bt := bind.map Prod.fst
        if !formatOk m room then s.reject id causeFormat
        else if !imgCrcOk m then s.reject id causeCrc
        else if !layoutOk m then s.reject id causeLayout
        else
          let b := parseBoard m bt dest room
          match s.loadCause fn m bt room b with
          | some c => s.reject id c
          | none => (s.install fn (descHandle d) b).endItem id

/-- `LOAD` (R78, R79, R86, R89): an occupied handle is refused before anything is copied (log 57, DEDUCED). -/
def execLoad (fn ring : Nat) (s : State) : Out State :=
  s.accepting <| onEvent3 fn ring (· == tyLoad)
    (fun s i d => descDev d || s.hostReady i.fn || (s.descCause i.fn d).isSome || (s.board i.fn (descHandle d)).isSome) s fun s i d =>
    if (s.board i.fn (descHandle d)).isSome then s.reject i.id causeHandle
    else s.loadCopy i.fn i.id d

end Sys2Proof.Machine
end

