-- ==== Sys2Proof/Machine/Pages.lean ====
section
/-! DEFINITION. Page commands (R195-R199, R214-R219): `MAP`, `REF`, `UNREF`, `SWAP_OUT` and its copy, `SWAP_IN`, `OPEN`, `CLOSE`. -/

namespace Sys2Proof.Machine

/-! ## Entries (R214) -/

def pgMap : Nat := 0x01
def pgRef : Nat := 0x02
def pgUnref : Nat := 0x03
def pgSwapOut : Nat := 0x04
def pgSwapIn : Nat := 0x05
def pgOpen : Nat := 0x10
def pgClose : Nat := 0x11

/-- The commands of R215. -/
def pageOps : List Nat := [pgMap, pgRef, pgUnref, pgSwapOut, pgSwapIn, pgOpen, pgClose]

/-- A page command as its entry gives it. -/
structure PageCmd where
  op : Nat
  pool : Nat
  page : Nat
  addr : Nat
  clean : Bool

/-- The fields of an entry; `clean`: the reserved ones are zero, in `PAGE` too for the commands that use it (R214, R215). -/
def PageCmd.ofEntry (b : List Byte) : PageCmd :=
  { op := leAt b 0 1, pool := leAt b 2 1, page := leAt b 4 3, addr := leAt b 8 8, clean := leAt b 3 1 == 0 && (leAt b 0 1 == pgOpen || leAt b 0 1 == pgClose || leAt b 7 1 == 0) }

/-- The part of refusal 0x04 that every command shares. -/
def PageCmd.bad (c : PageCmd) : Bool := !pageOps.contains c.op || 3 < c.pool || !c.clean

/-- A refused entry changes nothing and counts (R215) (log 218, DESIGN CHOICE). -/
def State.pageRefused (s : State) (i : Item) (l : ListRun) (code : Nat) : State :=
  (s.bump Fld.kvStatCmdrefused i.fn 1).listResult i l code []

/-- What a page command waits for: unchecked launches and page lists ahead of it (R216). -/
def Item.beforePages (j : Item) : Bool := j.waitsCheck || (j.list.isSome && j.type == tyPageCmd)

/-- What a page command reads of the control area before its preconditions are judged, counted (R249): the state of its page, or for `CLOSE` that of
every page and the ring's counts. -/
def State.pageSee (s : State) (item : Nat) (p : Pool) (c : PageCmd) : State :=
  if c.op = pgClose then ((s.ctrlRead (some item) (p.stateAddr 0) (4 * p.pages)).2.ctrlRead (some item) (p.ctrlBase + 4) 8).2
  else (s.ctrlRead (some item) (p.stateAddr c.page) 4).2

/-- A page command of the next entry. `needs` gives the refusals after 0x04 and 0x02 of a command on a page of an open pool. -/
def onPage (op item : Nat) (s : State) (needs : State → Item → ListRun → PageCmd → Pool → List (Bool × Nat))
    (k : State → Item → ListRun → PageCmd → Pool → State) : Out State :=
  onEntry tyPageCmd op pageOps Item.beforePages item s fun s i l b =>
    let c := PageCmd.ofEntry b
    if c.bad then s.pageRefused i l 0x04
    else match s.pool i.fn c.pool with
      | none => s.pageRefused i l 0x02
      | some p =>
        if op != pgClose && p.pages ≤ c.page then s.pageRefused i l 0x02
        else
          let v := s.pageSee i.id p c
          match firstRefusal (needs v i l c p) with
          | some code => v.pageRefused i l code
          | none => k v i l c p

/-- `PAGE_CMD` (R214, R364): the list begins. -/
def execPageCmd (fn ring : Nat) (s : State) : Out State :=
  onEvent3 fn ring (· == tyPageCmd) (fun _ _ _ => true) s fun s i d => s.startList i.id d

/-! ## References -/

/-- A page is free to be given out: `REFS` = 0 and `QUEUED` = 0. -/
def State.pageFree (s : State) (p : Pool) (page : Nat) : Bool := s.refs p page == 0 && !s.queued p page

/-- `MAP`. -/
def execMap (item : Nat) (s : State) : Out State :=
  s.accepting <| onPage pgMap item s (fun s _ _ c p => [(!s.pageFree p c.page, 0x01)]) fun s i l c p =>
    (s.firstRef i.fn c.pool p c.page).listResult i l 0 []

/-- `REF`. -/
def execRef (item : Nat) (s : State) : Out State :=
  s.accepting <| onPage pgRef item s (fun s _ _ c p => [(s.refs p c.page < 1 || 131071 ≤ s.refs p c.page, 0x01)]) fun s i l c p =>
    (s.setPage i.fn p c.page (s.refs p c.page + 1) (s.queued p c.page)).listResult i l 0 []

/-- `UNREF` (R216). -/
def execUnref (item : Nat) (s : State) : Out State :=
  s.accepting <| onPage pgUnref item s (fun s _ _ c p => [(s.refs p c.page < 1, 0x01)]) fun s i l c p =>
    (s.unref i.fn i.id c.pool p c.page).listResult i l 0 []

/-! ## Swaps (R216, R219) -/

/-- The spans of a page's footprint, as page offsets (R199). -/
def Pool.spans (p : Pool) : List (Nat × Nat) := if p.mx then [(0, 65536), (0x10000, 34816)] else [(0, 65536)]

/-- A swap's range lies outside the item's host buffer. -/
def swapOutside (l : ListRun) (c : PageCmd) (p : Pool) : Bool := l.hbytes < c.addr + p.footprint

/-- `SWAP_OUT` takes effect: the pins held now must end before the copy. -/
def execSwapOut (item : Nat) (s : State) : Out State :=
  s.accepting <| onPage pgSwapOut item s (fun s _ l c p => [(swapOutside l c p, 0x03), (s.refs p c.page < 1, 0x01)]) fun s i _ c _ =>
    let pins := (s.items.filter (fun j => j.fn == i.fn && j.launch.any (fun x => x.serials.any (fun y => y.1 == c.pool)))).map (·.id)
    s.modList i.id (fun l => { l with swapping := some ⟨false, c.pool, c.page, c.addr, pins, none⟩ })

/-- The copy goes on behind codeword n of the footprint, or is complete (R219). -/
def State.swapNext (s : State) (i : Item) (p : Pool) (w : Swap) (n : Nat) (done : State → State) : State :=
  if 64 * (n + 1) < p.footprint then s.modList i.id (fun l => { l with swapping := some { w with copied := some (n + 1) } }) else done s

/-- Codeword n of the footprint goes to the host buffer (R219); behind the last, the entry acts as `UNREF`. -/
def State.swapOutLine (s : State) (i : Item) (l : ListRun) (p : Pool) (w : Swap) (n : Nat) : State :=
  let r := s.takeFor i.fn (p.pageAddr w.page (64 * n)) 64
  let h := (r.2.2.consumed i.id r.2.1).hostWrite i.fn (l.hbuf + w.off + 64 * n) r.1 r.2.1
  (if h.1 then h.2 else h.2.outsideItem i.id).swapNext i p w n
    (fun s => (s.unref i.fn i.id w.pool p w.page).listResult i l 0 [])

/-- Codeword n of the footprint comes from the host buffer (R219); a read that yields nothing delivers zeros (R341). Behind the last, the page has its
first reference. -/
def State.swapInLine (s : State) (i : Item) (l : ListRun) (p : Pool) (w : Swap) (n : Nat) : State :=
  let r := (s.bursts i.fn (p.pageAddr w.page (64 * n)) 64).hostRead i.fn (l.hbuf + w.off + 64 * n) 64
  let v := match r.1 with
    | some (b, m) => (r.2.consumed i.id m).memWriteMarked (p.pageAddr w.page (64 * n)) (b.map (fun x => (x, m)))
    | none => (r.2.outsideItem i.id).memWrite (p.pageAddr w.page (64 * n)) zeros64
  v.swapNext i p w n (fun s => (s.firstRef i.fn w.pool p w.page).listResult i l 0 [])

/-- The swap of a running list, with its item, list and pool. -/
def State.swapOf (s : State) (item : Nat) : Option (Item × ListRun × Swap × Pool) :=
  (s.item item).bind (fun i => i.list.bind (fun l => l.swapping.bind (fun w => (s.pool i.fn w.pool).map (fun p => (i, l, w, p)))))

/-- `SWAP_OUT_COPY` (R216, R219): once the pins that the command waited for have ended, the precondition is checked again and the copy begins; each
further command copies one codeword (log 181, DESIGN CHOICE). -/
def execSwapOutCopy (item : Nat) (s : State) : Out State :=
  s.accepting <| match s.swapOf item with
  | none => .next s
  | some (i, l, w, p) =>
    if i.phase != .running || w.inward || !s.hostReady i.fn then .next s
    else match w.copied with
      | some n => .next (s.swapOutLine i l p w n)
      | none =>
        let r := s.ctrlRead (some i.id) (p.stateAddr w.page) 4
        .next (if w.pins.any (fun j => (s.item j).isSome) then s
          else if bitsOf r.1 0 17 < 1 then r.2.pageRefused i l 0x01
          else if !s.hostPermits i.fn (l.hbuf + w.off) p.footprint true then
            (((r.2.bump Fld.hostErrOutside i.fn 1).outsideItem i.id).unref i.fn i.id w.pool p w.page).listResult i l 0 []
          else r.2.swapOutLine i l p w 0)

/-- `SWAP_IN` (R219): the entry takes effect and its copy begins; each further command copies one codeword (log 181, DESIGN CHOICE). A refused host
read delivers zeros (R341). -/
def execSwapIn (item : Nat) (s : State) : Out State :=
  s.accepting <| match s.swapOf item with
  | some (i, l, w, p) => whenever (i.phase == .running && w.inward && s.hostReady i.fn) s (s.swapInLine i l p w (w.copied.getD 0))
  | none =>
    onPage pgSwapIn item s (fun s _ l c p => [(swapOutside l c p, 0x03), (!s.pageFree p c.page, 0x01)]) fun s i l c p =>
      if !s.hostPermits i.fn (l.hbuf + c.addr) p.footprint false then
        let v := p.spans.foldl (fun (v : State) g => v.storeFor i.fn (p.pageAddr c.page g.1) (List.replicate g.2 0))
          ((s.bump Fld.hostErrOutside i.fn 1).outsideItem i.id)
        (v.firstRef i.fn c.pool p c.page).listResult i l 0 []
      else s.swapInLine i l p ⟨true, c.pool, c.page, c.addr, [], some 0⟩ 0

/-! ## Opening and closing (R195-R198) -/

/-- The pool record (R196). -/
def Pool.ofRecord (b : List Byte) : Pool :=
  { dataBase := leAt b 0 8, sideBase := leAt b 8 8, ctrlBase := leAt b 0x10 8, ptBase := leAt b 0x18 8, pages := leAt b 0x20 4,
    ptEntries := leAt b 0x24 4, fmt := leAt b 0x28 1, heads := leAt b 0x29 1, tokens := leAt b 0x2A 2, dim := leAt b 0x2C 2,
    rowPages := leAt b 0x2E 2 }

/-- The four areas of a pool: three for `FMT` 2 (R197, R199). -/
def Pool.areas (p : Pool) : List (Nat × Nat) :=
  [(p.dataBase, 65536 * p.pages), (p.ctrlBase, p.ctrlBytes), (p.ptBase, 8 * p.ptEntries)] ++ (if p.mx then [(p.sideBase, 34816 * p.pages)] else [])

/-- No two spans of a list overlap. -/
def spansApart : List (Nat × Nat) → Bool
  | [] => true
  | a :: r => r.all (fun b => !overlaps a.1 a.2 b.1 b.2) && spansApart r

/-- A record is valid (R196, R197) under a grant. -/
def Grant.recordOk (g : Grant) (b : List Byte) (p : Pool) : Bool :=
  p.dataBase % 65536 == 0 && (p.fmt == 2 || p.sideBase % 2048 == 0) && p.ctrlBase % 64 == 0 && p.ptBase % 64 == 0 && 1 ≤ p.pages &&
    p.pages ≤ 2 ^ 24 && 1 ≤ p.ptEntries && p.ptEntries ≤ 2 ^ 28 && p.fmt ≤ 2 && [1, 2, 4, 8, 16, 32, 64, 128].contains p.heads &&
    [64, 128, 256].contains p.dim && 1 ≤ p.rowPages && zeroBytes b 0x30 16 && p.heads * p.dim ≤ 256 &&
    (if p.mx then [128, 256, 512].contains p.tokens && p.heads * p.tokens * p.dim == 32768
     else [64, 128, 256].contains p.tokens && p.heads * p.tokens * p.dim == 16384) &&
    p.areas.all (fun a => g.own a.1 a.2) && spansApart p.areas

/-- `OPEN`: the control area is zeroed and the pool opens. -/
def execOpenPool (item : Nat) (s : State) : Out State :=
  s.accepting <| onEntry tyPageCmd pgOpen pageOps Item.beforePages item s fun s i l b =>
    let c := PageCmd.ofEntry b
    if c.bad || !(s.grantOf i).own c.addr 64 then s.pageRefused i l 0x04
    else
      let r := s.takeFor i.fn c.addr 64
      let s := r.2.2.consumed i.id r.2.1
      let p := Pool.ofRecord r.1
      if !(s.grantOf i).recordOk r.1 p then s.pageRefused i l 0x04
      else if (s.pool i.fn c.pool).isSome then s.pageRefused i l 0x05
      else
        let s := s.storeFor i.fn p.ctrlBase (List.replicate p.ctrlBytes 0)
        let s := ((s.setPool i.fn c.pool (some p)).auditFresh 6 (4 * i.fn + c.pool)).auditFresh 7 (4 * i.fn + c.pool)
        s.listResult i l 0 []

/-- A pool is busy: a board binds it, a page is referenced, or the release ring is not empty (R215). -/
def State.poolBusy (s : State) (tenant k : Nat) (p : Pool) : Bool :=
  s.boards.any (fun e => e.1 / 256 == tenant && (match e.2 with
    | some b => (s.boardPools tenant b).contains k
    | none => false)) ||
    (List.range p.pages).any (fun g => s.refs p g != 0) || s.memNat (p.ctrlBase + 4) 4 != s.memNat (p.ctrlBase + 8) 4

/-- `CLOSE`. -/
def execClosePool (item : Nat) (s : State) : Out State :=
  s.accepting <| onPage pgClose item s (fun s i _ c p => [(s.poolBusy i.fn c.pool p, 0x05)]) fun s i l c _ => (s.setPool i.fn c.pool none).listResult i l 0 []

end Sys2Proof.Machine
end

