-- ==== Sys2Proof/Machine/Ingest.lean ====
section
/-! DEFINITION. Ingest items, decoding tables and inboxes (R266-R278, R280-R283, R286-R291). -/

namespace Sys2Proof.Machine

/-! ## Segments (R267, R268) -/

/-- A segment from its 128 bytes. -/
def Segment.ofBytes (b : List Byte) : Segment :=
  let fl := leAt b 3 1
  { layout := leAt b 0 1 == 1, srcFmt := leAt b 1 1, dstFmt := leAt b 2 1, transpose := bitOf fl 0, forward := bitOf fl 1, follow := bitOf fl 2,
    blocks := leAt b 4 4, src := leAt b 8 8, srcBytes := leAt b 0x10 8, dst := leAt b 0x18 8, outBytes := leAt b 0x20 8, dstScale := leAt b 0x28 8,
    work := leAt b 0x30 8, kb := leAt b 0x38 2, nb := leAt b 0x3A 2, tag := leAt b 0x3C 4, statusOut := leAt b 0x40 8, fwdPort := leAt b 0x48 1,
    tables := leAt b 0x49 1, fwdInbox := leAt b 0x4A 1, fwdGen := leAt b 0x4C 2, fwdOff := leAt b 0x50 8 }

/-- Reserved bits of a segment are zero. -/
def segReservedOk (b : List Byte) : Bool := leAt b 3 1 < 8 && leAt b 0x4B 1 == 0 && leAt b 0x4E 2 == 0 && zeroBytes b 0x58 40

/-- The segment has a scale destination. -/
def Segment.scaled (g : Segment) : Bool := g.layout && g.dstFmt < 5

/-- Bytes that the segment writes at `DST`. -/
def Segment.dstBytes (g : Segment) : Nat := if g.layout then 32 * fmtBytes g.dstFmt * g.kb * g.nb else g.outBytes

/-- The ranges of a segment other than its staging range. -/
def Segment.written (g : Segment) : List (Nat × Nat) :=
  [(g.dst, g.dstBytes)] ++ (if g.scaled then [(g.dstScale, 32 * g.kb * g.nb)] else []) ++ (if g.layout then [(g.work, g.outBytes)] else []) ++
    (if g.statusOut = 0 then [] else [(g.statusOut, 4 * g.blocks)])

/-- The fields lie in the table of R267; `tr` is the byte `TRANSFORM`. -/
def Segment.fieldsOk (g : Segment) (tr : Nat) : Bool :=
  tr < 2 && 1 ≤ g.blocks && g.blocks ≤ 2 ^ 24 && g.src % 32 == 0 && g.srcBytes % 32 == 0 && g.dst % 64 == 0 && g.statusOut % 64 == 0 &&
    g.fwdOff % 32 == 0 && g.fwdInbox ≤ 7 && (if g.forward then g.fwdPort ≤ 19 else g.fwdPort == 0) &&
    (if g.layout then
      (g.srcFmt == 5 || g.srcFmt == 6) && g.dstFmt ≤ 5 && 1 ≤ g.kb && 1 ≤ g.nb && g.work % 64 == 0 &&
        g.outBytes == 32 * g.kb * (32 * g.nb) * (if g.srcFmt = 5 then 2 else 4)
    else g.srcFmt == 0 && g.dstFmt == 0 && g.kb == 0 && g.nb == 0 && g.work == 0) &&
    (if g.scaled then g.dstScale % 64 == 0 else g.dstScale == 0)

/-- The open inbox of a tenant that contains an address: its number and what it holds. -/
def State.inboxAt (s : State) (tenant a : Nat) : Option (Nat × Inbox) :=
  (List.range 8).findSome? (fun n => (Tab.get none s.inboxes n).bind (fun x =>
    if s.fld Fld.inboxStatTenant n = tenant && within a 1 x.base x.size then some (n, x) else none))

/-- `FOLLOW` is 1 exactly when `SRC` lies in an open inbox of the tenant, which then holds the staging range. -/
def State.followOk (s : State) (tenant : Nat) (g : Segment) : Bool :=
  match s.inboxAt tenant g.src with
  | some (_, x) => g.follow && within g.src g.srcBytes x.base x.size
  | none => !g.follow

/-- A range lies in the tenant's own memory; the physical function may also name its shared ranges. -/
def State.ingestRange (s : State) (fn a n : Nat) : Bool := s.ownRange fn a n || (fn == 0 && s.sharedRange fn a n)

/-- A range meets an open inbox other than `except`. -/
def State.meetsInbox (s : State) (a n : Nat) (except : Option Nat) : Bool :=
  s.inboxes.any (fun e => some e.1 != except && (match e.2 with
    | some x => overlaps a n x.base x.size
    | none => false))

/-- `REGION` of R268 for one segment. -/
def State.segRegionOk (s : State) (fn : Nat) (g : Segment) : Bool :=
  let clear (r : Nat × Nat) (ex : Option Nat) : Bool :=
    s.ingestRange fn r.1 r.2 && (s.protects r.1 r.2).isNone && !s.meetsInbox r.1 r.2 ex
  clear (g.src, g.srcBytes) (if g.follow then (s.inboxAt fn g.src).map Prod.fst else none) && g.written.all (fun r => clear r none)

/-- The cause that R268 gives a list of segments, with their bytes (log 78, DEDUCED). -/
def State.ingestCause (s : State) (fn : Nat) (gs : List (List Byte × Segment)) : Option Nat :=
  if !gs.all (fun e => segReservedOk e.1) then some causeReserved
  else if !gs.all (fun e => e.2.fieldsOk (leAt e.1 0 1) && spansApart ((e.2.src, e.2.srcBytes) :: e.2.written) && s.followOk fn e.2) then
    some causeLayout
  else if !gs.all (fun e => s.segRegionOk fn e.2) then some causeRegion
  else if !gs.all (fun e => !e.2.forward || s.portGranted fn e.2.fwdPort) then some causeLink
  else if !gs.all (fun e => (List.range 8).all (fun n => !bitOf e.2.tables n || bitOf (s.grant fn).slots n)) then some causeTable
  else none

/-- The slot of a table number. -/
def State.slotState (s : State) (n : Nat) : TableSlot := Tab.get ⟨none, none, 0⟩ s.tables n

/-- A slot replaced. -/
def State.setSlotState (s : State) (n : Nat) (t : TableSlot) : State := { s with tables := Tab.set ⟨none, none, 0⟩ s.tables n t }

/-- A reference of an item on the current generation of each slot of a mask (R269). -/
def State.takeSlots (s : State) (id mask : Nat) : State :=
  (List.range 8).foldl (fun s n =>
    if !bitOf mask n then s
    else match (s.slotState n).current with
      | some g =>
        ((s.setSlotState n { s.slotState n with current := some { g with refs := g.refs + 1 } }).issue 5 (2 * n) 1).modItem id
          (fun i => { i with tables := i.tables ++ [(n, g.gen)] })
      | none => s) s

/-- The union of the segments' `TABLES`. -/
def tablesMask (gs : List Segment) : Nat := gs.foldl (fun m g => m ||| g.tables) 0

/-- A run at its start. -/
def State.ingestRun (s : State) (fn : Nat) (gs : List Segment) : IngestRun :=
  { segs := gs, follows := gs.map (fun g => if g.follow then (s.inboxAt fn g.src).map (fun x => (x.1, x.2.base, none)) else none), engine := none,
    seg := 0, block := 0, at_ := (gs.map (·.src)).headD 0, outSum := 0, lost := false, overrun := false, gone := false, results := [],
    forwarded := gs.map (fun _ => 0), unanswered := 0, stopForward := false, firstBad := none, blockSlots := [] }

/-- `INGEST` (R266-R269): event 3: the list is read once and checked, and the item takes its table references. It waits for inbox commands of its
function that came before (R289). -/
def execIngest (fn ring : Nat) (s : State) : Out State :=
  s.accepting <| onEvent3 fn ring (· == tyIngest)
    (fun s i _ => !s.items.any (fun j => j.fn == i.fn && j.list.isSome && j.type == tyIngestCmd && j.phase == .running)) s fun s i d =>
    let n := descCount d
    let r := s.takeFor fn (descList d) (128 * n)
    let s := r.2.2.consumed i.id r.2.1
    let gs := (List.range n).map (fun k => let b := (r.1.drop (128 * k)).take 128; (b, Segment.ofBytes b))
    match s.ingestCause fn gs with
    | some c => s.reject i.id c
    | none =>
      let segs := gs.map Prod.snd
      (s.modItem i.id (fun i => { i with phase := .passed4, ingest := some (s.ingestRun fn segs) })).takeSlots i.id (tablesMask segs)

/-- The item that runs on an ingest engine. -/
def State.engineBusy (s : State) (e : Nat) : Bool :=
  s.items.any (fun i => i.phase == .running && (i.ingest.bind (·.engine)) == some e)

/-- The credits of an ingest item: 16 BULK transmit credits on each distinct forwarding port (R269). -/
def IngestRun.credits (r : IngestRun) : List (Nat × Nat × Nat × Nat) :=
  (((r.segs.filter (·.forward)).map (·.fwdPort)).eraseDups).map (fun p => (0, p, 1, 16))

/-- `INGEST_ARM` (R269): the item takes its credits all at once and starts on an idle engine. -/
def execIngestArm (item engine : Nat) (s : State) : Out State :=
  onUnit (engine < 4) "engine" <|
  match s.item item with
  | none => .next s
  | some i =>
    match i.ingest with
    | none => .next s
    | some r =>
      whenever (i.phase == .passed4 && !s.engineBusy engine && s.creditsFit i r.credits) s
        ((s.takeCredits i.fn item r.credits).modItem item (fun i => { i with phase := .running, ingest := some { r with engine := some engine } }))

/-! ## Blocks (R271-R276) -/

/-- Ingest results (R276). -/
def resOk : Nat := 0
def resPoison : Nat := 1
def resBadHeader : Nat := 2
def resRetired : Nat := 3
def resOverrun : Nat := 4
def resUnderrun : Nat := 5
def resNotReached : Nat := 6
def resUnreachable : Nat := 7
def resHeld : Nat := 8

/-- The item status of a result. -/
def resStatus (c : Nat) : Option Nat :=
  if c = resPoison || c = resBadHeader then some stPoison
  else if c = resRetired then some stTableRetired
  else if c = resOverrun then some stOverrun
  else if c = resUnderrun then some stUnderrun
  else if c = resUnreachable then some stUnreachable
  else none

/-- The symbols of each code length from 1 to 15, in ascending order: the canonical code of RFC 1951, 3.2.2 (R273). -/
def codebook (lens : List Nat) : List (List Nat) :=
  (List.range 15).map (fun n => (lens.zipIdx.filter (fun e => e.1 == n + 1)).map Prod.snd)

/-- One symbol: the code so far and the first code of the length, over the lengths still to try. -/
def prefixSym : List (List Nat) → Nat → Nat → List Bool → Option (Nat × List Bool)
  | [], _, _, _ => none
  | _ :: _, _, _, [] => none
  | ss :: r, code, first, b :: bits =>
    let c := 2 * code + (if b then 1 else 0)
    if first ≤ c ∧ c < first + ss.length then (ss[c - first]?).map (fun x => (x, bits)) else prefixSym r c (2 * (first + ss.length)) bits

/-- `n` symbols of a prefix code; none when the bits run out. -/
def prefixDecode (book : List (List Nat)) : Nat → List Bool → Option (List Byte × List Bool)
  | 0, bits => some ([], bits)
  | n + 1, bits =>
    match prefixSym book 0 0 bits with
    | none => none
    | some (x, rest) => (prefixDecode book n rest).map (fun r => (BitVec.ofNat 8 x :: r.1, r.2))

/-- The bits of a payload, from bit 0 of byte 0 upwards. -/
def payloadBits (p : List Byte) : List Bool := p.flatMap (fun b => (List.range 8).map b.getLsbD)

/-- The header fields of a block. -/
structure BlockHeader where
  magic : Nat
  codec : Nat
  table : Nat
  tableId : Nat
  gen : Nat
  res : Nat
  tag : Nat
  index : Nat
  comp : Nat
  out : Nat
  crc : Nat

/-- The fields of 32 bytes. -/
def BlockHeader.ofBytes (b : List Byte) : BlockHeader :=
  { magic := leAt b 0 2, codec := leAt b 2 1, table := leAt b 3 1, tableId := leAt b 4 4, gen := leAt b 8 2, res := leAt b 0xA 2,
    tag := leAt b 0xC 4, index := leAt b 0x10 4, comp := leAt b 0x14 4, out := leAt b 0x18 4, crc := leAt b 0x1C 4 }

/-- `LOADABLE`. -/
def BlockHeader.loadable (h : BlockHeader) : Bool := bitOf h.table 3

/-- The header keeps the table of R271. -/
def BlockHeader.fieldsOk (h : BlockHeader) : Bool :=
  h.magic == 0x4B57 && h.codec ≤ 1 && h.table < 16 && (if h.loadable then 1 ≤ h.gen else h.tableId == 0 && h.gen == 0) && h.res == 0 &&
    h.comp ≤ 122880 && 1 ≤ h.out && h.out ≤ 65536

/-- The generation that a block on a loadable table names, when the slot is granted and holds it with its identity (R283). -/
def State.blockGen (s : State) (i : Item) (h : BlockHeader) : Option TableGen :=
  let t := s.slotState (h.table % 8)
  if bitOf (s.grantOf i).slots (h.table % 8) then
    (t.current.toList ++ t.previous.toList).find? (fun g => g.gen == h.gen && g.id == h.tableId)
  else none

/-- A block on a loadable table takes a reference on the generation that it names when its decode begins, and gives it back at its end (R283, R400). -/
def State.blockRef (s : State) (i : Item) (h : BlockHeader) : State :=
  match if h.loadable then s.blockGen i h else none with
  | none => s
  | some g =>
    let idx := 2 * (h.table % 8) + (if ((s.slotState (h.table % 8)).current.map (·.gen)) == some g.gen then 0 else 1)
    (s.issue 5 idx 1).give 5 idx 1

/-- The slot that a block's decode used, for the audit of its item (R402). -/
def IngestRun.noteSlot (r : IngestRun) (h : BlockHeader) : IngestRun :=
  if h.loadable && !r.blockSlots.contains (h.table % 8) then { r with blockSlots := r.blockSlots ++ [h.table % 8] } else r

/-- The decoded bytes of a payload, or the result of an overrun or underrun (R273, R274). A fixed table decodes to the payload (R279). -/
def decodePayload (h : BlockHeader) (g : Option TableGen) (p : List Byte) : Nat × List Byte :=
  match g, h.codec with
  | some g, 1 =>
    match prefixDecode (codebook g.lens) h.out (payloadBits p) with
    | none => (resUnderrun, [])
    | some (bytes, rest) => if 8 ≤ rest.length || rest.any id then (resOverrun, []) else (resOk, bytes)
  | _, _ => if h.out < p.length then (resOverrun, []) else if p.length < h.out then (resUnderrun, []) else (resOk, p)

/-- What the decode of one block gives: its result, the generation used, its bytes, its `OUT_SIZE` when its header is good, the start of
the next block, a bad header, an end beyond `OUT_BYTES`. -/
structure BlockOut where
  code : Nat
  gen : Nat
  bytes : List Byte
  size : Nat
  nextAt : Nat
  bad : Bool
  beyond : Bool

/-- One block whose header and payload have been read (R272-R276). `hd` is empty when the header does not lie in the staging range. -/
def State.decodeBlock (s : State) (i : Item) (r : IngestRun) (g : Segment) (hd pl : List Byte) (poison : Bool) : BlockOut :=
  let h := BlockHeader.ofBytes hd
  let good := hd.length == 32 && h.fieldsOk && h.index == r.block && h.tag == g.tag && r.at_ + 32 + h.comp ≤ g.src + g.srcBytes &&
    (crc32c (hd.take 0x1C ++ List.replicate 4 0 ++ pl)).toNat == h.crc
  let gen := if h.loadable then s.blockGen i h else none
  let beyond := g.outBytes < r.outSum + h.out
  let d := decodePayload h gen pl
  let code :=
    if poison then resPoison
    else if !good then resBadHeader
    else if h.loadable && gen.isNone then resRetired
    else if d.1 = resOverrun || beyond then resOverrun
    else if d.1 = resUnderrun || (r.block + 1 == g.blocks && r.outSum + h.out < g.outBytes) then resUnderrun
    else resOk
  { code := code, gen := if code = resPoison || code = resBadHeader then 0 else (gen.map (fun x => x.gen)).getD 0,
    bytes := if code = resOk then d.2 else [], size := if good then h.out else 0, nextAt := alignUp (r.at_ + 32 + h.comp) 32,
    bad := !good, beyond := good && beyond }

/-! ## Staging -/

/-- The device address below which the staging bytes of segment k have arrived; none: all of them. -/
def State.arrivedTo (s : State) (r : IngestRun) (k : Nat) : Option Nat :=
  match (r.follows[k]?).join with
  | none => none
  | some (n, base, some v) => let _ := n; some (base + v)
  | some (n, base, none) => some (base + s.fld Fld.inboxStatReceived n)

/-- The inbox that segment k follows is closed or broken (R289). -/
def State.sourceGone (s : State) (r : IngestRun) (k : Nat) : Bool :=
  match (r.follows[k]?).join with
  | none => false
  | some (_, _, some _) => true
  | some (n, _, none) => s.flag Fld.inboxStatBroken n

/-- Bytes up to address `e` of segment k have arrived. -/
def State.hasArrived (s : State) (r : IngestRun) (k e : Nat) : Bool :=
  match s.arrivedTo r k with
  | none => true
  | some a => e ≤ a

/-! ## The end of segments and items -/

/-- The result word of a block. -/
def resWord (code gen : Nat) : Nat := code + 256 * gen

/-- Everything an item writes has been written: its segments are done, and its forwarded bytes are answered or given up (R269). -/
def State.ingestDone (s : State) (r : IngestRun) : Bool :=
  r.segs.length ≤ r.seg && r.unanswered == 0 &&
    (r.stopForward || (r.segs.zip r.forwarded).zipIdx.all (fun e =>
      !e.1.1.forward || e.1.1.srcBytes ≤ e.1.2 || (s.sourceGone r e.2 && (s.arrivedTo r e.2).any (fun a => a ≤ e.1.1.src + e.1.2))))

/-- The run of an item replaced; a finished run ends the item. -/
def State.setRun (s : State) (id : Nat) (r : IngestRun) : State :=
  let s := s.modItem id (fun i => { i with ingest := some r })
  if s.ingestDone r then s.endItem id else s

/-- The run at the start of its next segment. -/
def IngestRun.nextSeg (r : IngestRun) : IngestRun :=
  { r with seg := r.seg + 1, block := 0, at_ := ((r.segs[r.seg + 1]?).map (·.src)).getD 0, outSum := 0, lost := false, overrun := false, gone := false,
           results := [] }

/-- A block gets its result: the counters, the item status, the first bad block; `COPY` writes the result word at once. -/
def State.blockResult (s : State) (i : Item) (r : IngestRun) (g : Segment) (code gen : Nat) : State × IngestRun :=
  let s := match resStatus code with
    | some st => (s.addStatus i.id st).bump Fld.ingestStatBlocksFailed i.fn 1
    | none => if code = resOk && !g.layout then s.bump Fld.ingestStatBlocksOk i.fn 1 else s
  let s := if g.layout || g.statusOut = 0 then s else s.putNatFor i.fn (g.statusOut + 4 * r.block) 4 (resWord code gen)
  (s, { r with results := r.results ++ [resWord code gen], block := r.block + 1,
               firstBad := if r.firstBad.isNone && (resStatus code).isSome then some (r.seg, r.block) else r.firstBad })

/-- After a block: a `COPY` segment whose blocks are all done gives way to the next. -/
def State.afterBlock (s : State) (i : Item) (g : Segment) (r : IngestRun) : State :=
  s.setRun i.id (if g.layout || r.block < g.blocks then r else r.nextSeg)

/-- `INGEST_BLOCK_DECODE` (R271-R276, R283, R288, R289): the next block of the current segment. A block of a following segment waits until it has
arrived; one that never will is `UNREACHABLE`. -/
def execIngestBlockDecode (item : Nat) (s : State) : Out State :=
  s.accepting <| match s.item item with
  | none => .next s
  | some i =>
    match i.ingest, i.ingest.bind (fun r => r.segs[r.seg]?) with
    | some r, some g =>
      if i.phase != .running || g.blocks ≤ r.block then .next s
      else
        let quick (code : Nat) (r : IngestRun) : Out State :=
          let x := s.blockResult i r g code 0
          .next (x.1.afterBlock i g x.2)
        if r.gone then quick resUnreachable r
        else if r.lost then quick resNotReached r
        else if r.overrun then quick resOverrun r
        else
          let inside := r.at_ + 32 ≤ g.src + g.srcBytes
          if inside && !s.hasArrived r r.seg (r.at_ + 32) then
            if s.sourceGone r r.seg then quick resUnreachable { r with gone := true } else .next s
          else
            let hd := if inside then s.takeFor i.fn r.at_ 32 else ([], false, s)
            let comp := if inside then leAt hd.1 0x14 4 else 0
            let n := min comp (g.src + g.srcBytes - (r.at_ + 32))
            if inside && !s.hasArrived r r.seg (r.at_ + 32 + n) then
              if s.sourceGone r r.seg then quick resUnreachable { r with gone := true } else .next s
            else
              let pl := if inside then hd.2.2.takeFor i.fn (r.at_ + 32) n else ([], false, s)
              let s := pl.2.2
              let o := s.decodeBlock i r g hd.1 pl.1 (hd.2.1 || pl.2.1)
              let s := s.blockRef i (BlockHeader.ofBytes hd.1)
              let out := (if g.layout then g.work else g.dst) + r.outSum
              let s := if o.code = resOk then s.storeFor i.fn out o.bytes else s
              let x := s.blockResult i (r.noteSlot (BlockHeader.ofBytes hd.1)) g o.code o.gen
              .next (x.1.afterBlock i g
                { x.2 with at_ := o.nextAt, outSum := r.outSum + o.size, lost := o.bad, overrun := o.beyond })
    | _, _ => .next s

/-! ## LAYOUT (R277, R278) -/

/-- Address of source element (k, n). -/
def Segment.elem (g : Segment) (k n : Nat) : Nat :=
  g.work + (if g.srcFmt = 5 then 2 else 4) * (if g.transpose then n * (32 * g.kb) + k else k * (32 * g.nb) + n)

/-- The value of source element (k, n), with its mark; the read counts. -/
def State.layoutElem (s : State) (fn : Nat) (g : Segment) (k n : Nat) : (W34 × Bool) × State :=
  let w := if g.srcFmt = 5 then 2 else 4
  let r := s.takeFor fn (g.elem k n) w
  ((toW34 ((if g.srcFmt = 5 then Fmt.bf16 else Fmt.fp32).decode (leNat r.1)), r.2.1), r.2.2)

/-- The 32 elements of column c of block (kb, nb). -/
def State.layoutRead (s : State) (fn : Nat) (g : Segment) (kb nb c : Nat) : List (W34 × Bool) × State :=
  (List.range 32).foldl (fun acc k => let r := acc.2.layoutElem fn g (32 * kb + k) (32 * nb + c); (acc.1 ++ [r.1], r.2)) ([], s)

/-- Marked bytes written for a context. -/
def State.layoutPut (s : State) (fn a : Nat) (bytes : List Byte) (m : Bool) : State :=
  s.storeMarked fn a (bytes.map (fun b => (b, m)))

/-- Column c of block (kb, nb) written: its elements and, for an MX format, its scale. -/
def State.layoutColumn (s : State) (item fn : Nat) (g : Segment) (kb nb c : Nat) : State :=
  let x := s.layoutRead fn g kb nb c
  let m := x.1.any Prod.snd
  let d := drainRow g.dstFmt false (x.1.map Prod.fst)
  let blk := kb * g.nb + nb
  let s := (x.2.consumed item m).bump Fld.ingestStatSats fn d.2.2.sats
  let s := s.layoutPut fn (g.dst + 32 * fmtBytes g.dstFmt * blk + fmtBytes g.dstFmt * c) d.1 m
  if g.scaled then s.layoutPut fn (g.dstScale + 32 * blk + c) d.2.1 m else s

/-- Every column of a segment. -/
def State.layoutAll (s : State) (item fn : Nat) (g : Segment) : State :=
  (List.range (g.kb * g.nb * 32)).foldl (fun s x => s.layoutColumn item fn g (x / 32 / g.nb) (x / 32 % g.nb) (x % 32)) s

/-- The result words of a `LAYOUT` segment: `OK` becomes `HELD` when a block failed. -/
def finalWords (ws : List Nat) : List Nat :=
  if ws.all (fun w => w % 256 == resOk) then ws else ws.map (fun w => if w % 256 = resOk then w + resHeld else w)

/-- `LAYOUT_WRITE` (R277, R278): every block of the segment has been decoded; the segment writes its blocks and scales only when all of them are
`OK`. Its result words are written now, since `HELD` depends on every block. -/
def execLayoutWrite (item : Nat) (s : State) : Out State :=
  s.accepting <| match s.item item with
  | none => .next s
  | some i =>
    match i.ingest, i.ingest.bind (fun r => r.segs[r.seg]?) with
    | some r, some g =>
      if i.phase != .running || !g.layout || r.block < g.blocks then .next s
      else
        let ws := finalWords r.results
        let ok := ws.all (fun w => w % 256 == resOk)
        let s := if ok then (s.layoutAll item i.fn g).bump Fld.ingestStatBlocksOk i.fn g.blocks else s
        let s := if g.statusOut = 0 then s else s.storeFor i.fn g.statusOut (ws.flatMap (leBytes 4))
        .next (s.setRun item r.nextSeg)
    | _, _ => .next s

/-! ## Forwarding (R287, R288) -/

/-- The chip reached over a port: the peer of its lowest up link, else of its lowest link in training. -/
def State.portPeer (s : State) (p : Nat) : Option Nat :=
  match s.portUp p ++ (s.portLinks p).filter (fun l => s.linkState l == 3) with
  | [] => none
  | l :: _ => some (s.fld Fld.linkStatPeerChip l)

/-- Forwarded writes of an item that hold a transmit credit on a port: their first hop has not acknowledged them (R303). -/
def State.onFirstHop (s : State) (item p : Nat) : Nat :=
  ((s.portLinks p).flatMap (fun l =>
    (s.link l).onHop.filter (fun q =>
      q.src == s.chipId && q.stage ≤ 1 && q.kind == .inboxWrite && q.aux.head? == some item))).length

/-- The next segment of a run with bytes to forward now: its number, the segment, the offset and the length of the next piece. -/
def State.forwardNext (s : State) (r : IngestRun) : Option (Nat × Segment × Nat × Nat) :=
  ((r.segs.zip r.forwarded).zipIdx.findSome? (fun e =>
    let g := e.1.1
    let off := e.1.2
    if !g.forward || g.srcBytes ≤ off || r.seg < e.2 || (s.sourceGone r e.2 && (s.arrivedTo r e.2).any (fun a => a ≤ g.src + off)) then none
    else
      let have_ := match s.arrivedTo r e.2 with
        | none => g.srcBytes - off
        | some a => min (g.srcBytes - off) (a - (g.src + off))
      some (e.2, g, off, min have_ 992)))

/-- An item stops forwarding (R287). -/
def State.stopForward (s : State) (id : Nat) : State :=
  match s.item id with
  | none => s
  | some i =>
    match i.ingest with
    | none => s
    | some r => if i.phase != .running then s else (s.addStatus id stUnreachable).setRun id { r with stopForward := true, unanswered := 0 }

/-- A forwarded write has been answered. -/
def State.forwardAnswered (s : State) (id : Nat) : State :=
  match s.item id with
  | none => s
  | some i =>
    match i.ingest with
    | none => s
    | some r => if i.phase != .running then s else s.setRun id { r with unanswered := r.unanswered - 1 }

/-- A port over which bytes of a run have gone that are not all answered is unreachable (R287). -/
def State.forwardLost (s : State) (r : IngestRun) : Bool :=
  r.unanswered != 0 && (r.segs.zip r.forwarded).any (fun e => e.1.forward && e.2 != 0 && s.portUnreachable e.1.fwdPort)

/-- The bytes at the start of a range whose marks agree: one packet bears one mark (R287, R300). -/
def State.sameMark (s : State) (a n : Nat) : Nat :=
  let bs := (s.memRead a n).1
  (bs.takeWhile (fun b => b.2 == (bs.headD (0, false)).2)).length

/-- `INGEST_FORWARD` (R287, R288): the next piece of a staging range, of bytes that are all marked or all clean, goes to the peer inbox on BULK. `aux` carries the item, the inbox, the
generation and the offset (log 20, DESIGN CHOICE). -/
def execIngestForward (item : Nat) (s : State) : Out State :=
  s.accepting <| match s.item item with
  | none => .next s
  | some i =>
    match i.ingest with
    | none => .next s
    | some r =>
      if i.phase != .running || r.stopForward then .next s
      else match s.forwardNext r with
        | none => .next (if s.forwardLost r then s.stopForward item else s.setRun item r)
        | some (k, g, off, n) =>
          if s.portUnreachable g.fwdPort then .next (s.stopForward item)
          else match s.portPeer g.fwdPort with
            | none => .next s
            | some c =>
              if n = 0 || 16 ≤ s.onFirstHop item g.fwdPort then .next (s.setRun item r)
              else
                let n := s.sameMark (g.src + off) n
                let d := s.takeFor i.fn (g.src + off) n
                let s := d.2.2.consumed item d.2.1
                let p := Packet.make c s.chipId .bulk i.fn k .inboxWrite 0 0 0 [item, g.fwdInbox, g.fwdGen, g.fwdOff + off] d.1 d.2.1
                let x := s.inject p (some g.fwdPort)
                if x.2 then .next (x.1.stopForward item)
                else .next (x.1.setRun item { r with forwarded := listSet r.forwarded k (off + n), unanswered := r.unanswered + 1 })

/-! ## Inboxes (R286, R289) -/

/-- Spans with one more, merged. -/
def addSpan (spans : List (Nat × Nat)) (a n : Nat) : List (Nat × Nat) :=
  let near (g : Nat × Nat) : Bool := g.1 ≤ a + n && a ≤ g.1 + g.2
  let hit := spans.filter near
  let lo := hit.foldl (fun x g => min x g.1) a
  let hi := hit.foldl (fun x g => max x (g.1 + g.2)) (a + n)
  if n = 0 then spans else (spans.filter (fun g => !near g)) ++ [(lo, hi - lo)]

/-- `RECEIVED`: the bytes covered from offset 0. -/
def coveredFrom (spans : List (Nat × Nat)) : Nat :=
  match spans.find? (fun g => g.1 == 0) with
  | some g => g.2
  | none => 0

/-- Bytes of an inbox are written: `RECEIVED` follows. -/
def State.inboxWritten (s : State) (n a len : Nat) : State :=
  match Tab.get none s.inboxes n with
  | none => s
  | some x =>
    let sp := addSpan x.written a len
    ({ s with inboxes := Tab.set none s.inboxes n (some { x with written := sp }) }).setFld Fld.inboxStatReceived n (coveredFrom sp)

/-- The reason a forwarded write is rejected, if any (R287, R289, R320): the inbox is not open or broken, its generation differs, the write ends
beyond it, or it does not come from its source port. -/
def State.inboxReject (s : State) (link n gen off len : Nat) : Option Nat :=
  match Tab.get none s.inboxes n with
  | none => some 1
  | some x =>
    if s.flag Fld.inboxStatBroken n then some 1
    else if s.fld Fld.inboxStatGen n != gen then some 2
    else if x.size < off + len then some 3
    else if s.portOf link != some x.port then some 4
    else none

/-- The first packet delivered here that meets a condition, and the queue without it. -/
def takeFirst (q : List (Nat × Packet)) (f : Packet → Bool) : Option ((Nat × Packet) × List (Nat × Packet)) :=
  match q.find? (fun e => f e.2) with
  | none => none
  | some e => some (e, q.erase e)

/-- A reply to a forwarded write: it names the sender's item as the write did (log 81, DEDUCED). -/
def State.replyInbox (s : State) (req : Packet) (type reason : Nat) : State :=
  s.send (Packet.make req.src s.chipId .response req.tenant req.flow .reply req.t14.toNat req.t18.toNat req.t1c.toNat (PktKind.num req.kind :: req.aux)
    (replyPayload type reason 0) false)

/-- `INBOX_WRITE_RECEIVE` (R286, R287): the next forwarded write that has been delivered here is accepted, or rejected with nothing
written; it wakes the device (R425) (log 79, DEDUCED). -/
def execInboxWriteReceive (s : State) : Out State :=
  match takeFirst s.inbound (fun p => p.kind == .inboxWrite) with
  | none => .next s
  | some (e, rest) =>
    s.accepting <| onAwake s fun s =>
    let s := { s with inbound := rest }
    let p := e.2
    let n := p.aux.getD 1 8
    let off := p.aux.getD 3 0
    match s.inboxReject e.1 n (p.aux.getD 2 0) off p.payload.length with
    | some why => s.replyInbox p 4 why
    | none =>
      let base := ((Tab.get none s.inboxes n).map (·.base)).getD 0
      ((s.protectedWrite baseContext (base + off) p.payload p.poison).inboxWritten n off p.payload.length).replyInbox p 1 0

/-- Inboxes whose source port is unreachable break (R289). -/
def State.breakInboxes (s : State) : State :=
  (List.range 8).foldl (fun s n =>
    match Tab.get none s.inboxes n with
    | some x => if x.port < 20 && s.portUnreachable x.port then s.setFlag Fld.inboxStatBroken n true else s
    | none => s) s

/-- Inboxes opened on CXL.mem break when the CXL link goes down (R289). -/
def State.breakCxlInboxes (s : State) : State :=
  (List.range 8).foldl (fun s n =>
    match Tab.get none s.inboxes n with
    | some x => if x.port = 255 then s.setFlag Fld.inboxStatBroken n true else s
    | none => s) s

/-! ## Table and inbox commands (R281, R282) -/

def icLoad : Nat := 0x01
def icDrop : Nat := 0x02
def icOpen : Nat := 0x10
def icClose : Nat := 0x11

/-- The commands of R281. -/
def ingestOps : List Nat := [icLoad, icDrop, icOpen, icClose]

/-- A table or inbox command as its entry gives it. -/
structure IngestCmd where
  op : Nat
  index : Nat
  port : Nat
  addr : Nat
  size : Nat
  clean : Bool

/-- The fields of an entry. -/
def IngestCmd.ofEntry (b : List Byte) : IngestCmd :=
  { op := leAt b 0 1, index := leAt b 2 1, port := leAt b 3 1, addr := leAt b 8 8, size := leAt b 0x10 8,
    clean := zeroBytes b 4 4 && zeroBytes b 0x18 8 }

/-- Refusal 0x04 (R281). -/
def Grant.ingestCmdBad (g : Grant) (c : IngestCmd) : Bool :=
  !ingestOps.contains c.op || 7 < c.index || !c.clean ||
    (if c.op = icOpen then
      !(c.port ≤ 19 || c.port == 0xFF) || c.addr % 64 != 0 || c.size % 64 != 0 || 2 ^ 36 < c.size || !g.own c.addr c.size
    else c.port != 0 || c.size != 0 || (if c.op = icLoad then c.addr % 64 != 0 || !g.own c.addr 1344 else c.addr != 0))

/-- `INGEST_CMD` (R281): the list begins. -/
def execIngestCmd (fn ring : Nat) (s : State) : Out State :=
  onEvent3 fn ring (· == tyIngestCmd) (fun _ _ _ => true) s fun s i d => s.startList i.id d

/-- A table or inbox command of the next entry: `granted` and the further refusals follow 0x04. -/
def onIngestCmd (op item : Nat) (s : State) (needs : State → Item → IngestCmd → List (Bool × Nat))
    (k : State → Item → ListRun → IngestCmd → State) : Out State :=
  onEntry tyIngestCmd op ingestOps (fun j => j.list.isSome && j.type == tyIngestCmd) item s fun s i l b =>
    let c := IngestCmd.ofEntry b
    if (s.grantOf i).ingestCmdBad c then s.listResult i l 0x04 []
    else match firstRefusal (needs s i c) with
      | some code => s.listResult i l code []
      | none => k s i l c

/-- A loadable slot is granted to an item's tenant. -/
def State.slotGranted (s : State) (i : Item) (n : Nat) : Bool := bitOf (s.grantOf i).slots n

/-- An image is valid (R280): every field, and a complete code. -/
def tableImageOk (b : List Byte) : Bool :=
  let lens := (List.range 256).map (fun k => leAt b (0x20 + k) 1)
  let used := lens.filter (· != 0)
  leAt b 0 4 == 0x4C425454 && leAt b 4 4 != 0 && zeroBytes b 8 24 && zeroBytes b 0x524 28 && lens.all (· ≤ 15) && 2 ≤ used.length &&
    (used.map (fun n => 2 ^ (15 - n))).foldl (· + ·) 0 == 2 ^ 15 && (crc32c (b.take 0x520)).toNat == leAt b 0x520 4

/-- The current generation of a slot becomes the previous one, and retires at once when nothing refers to it; its audit counts move
with it (R282, R400). -/
def State.demote (s : State) (n : Nat) : State :=
  let t := s.slotState n
  let old : Option TableGen := if (t.current.map (fun (g : TableGen) => g.refs)) == some 0 then none else t.current
  let c := Tab.get (0, 0, 0) s.audit (auditKey 5 (2 * n))
  let s := s.setSlotState n { t with current := none, previous := old }
  { s with audit := Tab.set (0, 0, 0) (Tab.set (0, 0, 0) s.audit (auditKey 5 (2 * n + 1)) (if old.isSome then c else (0, 0, 0))) (auditKey 5 (2 * n)) (0, 0, 0) }

/-- A slot has a previous generation that is still referenced. -/
def State.previousHeld (s : State) (n : Nat) : Bool := ((s.slotState n).previous).any (fun g => g.refs != 0)

/-- `TABLE_LOAD` (R280-R282): the image is read, checked and installed as the current generation. -/
def execTableLoad (item : Nat) (s : State) : Out State :=
  s.accepting <| onIngestCmd icLoad item s (fun s i c => [(!s.slotGranted i c.index, 0x01), (s.previousHeld c.index, 0x03)]) fun s i l c =>
    let r := s.takeFor i.fn c.addr 1344
    let s := r.2.2.consumed i.id r.2.1
    if r.2.1 || !tableImageOk r.1 then s.listResult i l 0x02 []
    else
      let s := s.demote c.index
      let t := s.slotState c.index
      let gen := t.lastGen % 65535 + 1
      let g : TableGen := { gen := gen, refs := 0, id := leAt r.1 4 4, lens := (List.range 256).map (fun k => leAt r.1 (0x20 + k) 1),
                            values := (List.range 256).map (fun k => BitVec.ofNat 32 (leAt r.1 (0x120 + 4 * k) 4)) }
      (s.setSlotState c.index { t with current := some g, lastGen := gen }).listResult i l 0 []

/-- `DROP` (R282): a current generation that nothing refers to retires, and any previous one stays. -/
def execDrop (item : Nat) (s : State) : Out State :=
  onIngestCmd icDrop item s
    (fun s i c => [(!s.slotGranted i c.index, 0x01),
                   (((s.slotState c.index).current).any (fun g => g.refs != 0) && (s.slotState c.index).previous.isSome, 0x03)]) fun s i l c =>
    let t := s.slotState c.index
    let s := match t.current with
      | none => s
      | some g => if g.refs = 0 then (s.setSlotState c.index { t with current := none }).auditFresh 5 (2 * c.index) else s.demote c.index
    s.listResult i l 0 []

/-- `INBOX_OPEN` (R286). -/
def execInboxOpen (item : Nat) (s : State) : Out State :=
  onIngestCmd icOpen item s
    (fun s i c => [(!bitOf (s.grantOf i).inboxes c.index || (c.port != 0xFF && !bitOf (s.grantOf i).ports c.port), 0x01),
                   ((Tab.get none s.inboxes c.index).isSome, 0x05)]) fun s i l c =>
    let n := c.index
    let s := { s with inboxes := Tab.set none s.inboxes n (some { base := c.addr, size := c.size, port := c.port, written := [] }) }
    let s := (s.setFld Fld.inboxStatGen n (s.fld Fld.inboxStatGen n % 65535 + 1)).setFld Fld.inboxStatReceived n 0
    let s := ((s.setFlag Fld.inboxStatOpen n true).setFlag Fld.inboxStatBroken n false).setFld Fld.inboxStatTenant n i.fn
    s.listResult i l 0 []

/-- A run whose segments on inbox n keep what had arrived when it closed. -/
def IngestRun.closed (r : IngestRun) (n v : Nat) : IngestRun :=
  { r with follows := r.follows.map (fun f => match f with
    | some (m, b, none) => if m = n then some (m, b, some v) else f
    | _ => f) }

/-- An inbox closes: running segments that follow it keep what had arrived (R289). -/
def State.closeInbox (s : State) (n : Nat) : State :=
  let v := s.fld Fld.inboxStatReceived n
  let s := { s with inboxes := Tab.set none s.inboxes n none,
                    items := s.items.map (fun (i : Item) => { i with ingest := i.ingest.map (fun (r : IngestRun) => IngestRun.closed r n v) }) }
  (s.setFlag Fld.inboxStatOpen n false).setFlag Fld.inboxStatBroken n false

/-- `INBOX_CLOSE` (R289). -/
def execInboxClose (item : Nat) (s : State) : Out State :=
  onIngestCmd icClose item s
    (fun s i c => [(!bitOf (s.grantOf i).inboxes c.index, 0x01), ((Tab.get none s.inboxes c.index).isNone, 0x05)]) fun s i l c =>
    (s.closeInbox c.index).listResult i l 0 []

end Sys2Proof.Machine
end

