-- ==== Sys2Proof/Machine/Completion.lean ====
section
/-! DEFINITION. Completion records (R372-R379), what an item gives back when it ends (R400), and MSI-X messages (R351, R352). -/

namespace Sys2Proof.Machine

/-! ## MSI-X (R351) -/

/-- A vector of a function. -/
def State.vec (s : State) (fn v : Nat) : Vec := Tab.get Vec.reset s.fns.vectors (2048 * fn + v)

/-- A vector replaced. -/
def State.setVec (s : State) (fn v : Nat) (x : Vec) : State :=
  { s with fns := { s.fns with vectors := Tab.set Vec.reset s.fns.vectors (2048 * fn + v) x } }

/-- A message of the vector is held. -/
def State.vecHeld (s : State) (fn v : Nat) : Bool :=
  (s.vec fn v).masked || Tab.get false s.fns.msixMask fn || !Tab.get false s.fns.msixEnable fn || !s.hostReady fn

/-- The vector's message is sent and its count returns to zero, or its pending bit is set while it is held. One that a link that is down cannot carry is lost and
counts (R353). -/
def State.sendVec (s : State) (fn v : Nat) : State :=
  let x := s.vec fn v
  if s.vecHeld fn v then s.setVec fn v { x with pbit := true }
  else if !s.fns.linkUp then (s.setVec fn v { x with count := 0, pbit := false }).bump Fld.hostErrLost fn 1
  else { s.setVec fn v { x with count := 0, pbit := false } with outs := { s.outs with messages := s.outs.messages ++ [(fn, v)] } }

/-- `MSIX_MOD.COUNT`; 0 is treated as 1. -/
def State.vecCount (s : State) (fn v : Nat) : Nat := max 1 (s.fld Fld.msixModCount (2048 * fn + v))

/-- The pending count has reached `COUNT`. -/
def State.vecReached (s : State) (fn v : Nat) : State :=
  if (s.vec fn v).count != 0 && s.vecCount fn v ≤ (s.vec fn v).count then s.sendVec fn v else s

/-- A record adds one to its vector's pending count. -/
def State.vecAdd (s : State) (fn v : Nat) : State :=
  let x := s.vec fn v
  (s.setVec fn v { x with count := x.count + 1, since := if x.count = 0 then s.tally else x.since }).vecReached fn v

/-- `MSIX_TIMER_EXPIRY` (R351): `TIME_US` µs after the count left zero; 0 is no timer. -/
def execMsixTimerExpiry (fn vector : Nat) (s : State) : Out State :=
  onUnit (fn < 64 && vector < 2048) "vector" <|
  let x := s.vec fn vector
  let t := s.fld Fld.msixModTimeUs (2048 * fn + vector)
  whenever (x.count != 0 && t != 0 && x.since + 1000 * t ≤ s.tally && s.fnState fn != 0) s (s.sendVec fn vector)

/-- The vectors of a function that are not at their reset value. -/
def State.vectorsOf (s : State) (fn : Nat) : List Nat := (s.fns.vectors.filter (fun e => e.1 / 2048 == fn)).map (fun e => e.1 % 2048)

/-- Messages held with their pending bit go once nothing holds them. -/
def State.flushHeld (s : State) (fn : Nat) : State :=
  (s.vectorsOf fn).foldl (fun (s : State) v => if (s.vec fn v).pbit && !s.vecHeld fn v then s.sendVec fn v else s) s

/-- `MSIX_UNMASK` (R351): a vector's mask or the function's mask is cleared, or its MSI-X Enable set; the held messages go. Vector v: some v; the function's
mask and enable: none. -/
def execMsixUnmask (fn : Nat) (what : Option Nat) (s : State) : Out State :=
  onUnit (fn < 64 && what.all (fun v => v < 2048)) "vector" <|
  .next ((match what with
    | some v => s.setVec fn v { s.vec fn v with masked := false }
    | none => { s with fns := { s.fns with msixMask := Tab.set false s.fns.msixMask fn false,
                                           msixEnable := Tab.set false s.fns.msixEnable fn true } }).flushHeld fn)

/-! ## The record (R374-R379) -/

/-- The statuses in the order of R378; 0x60 stands twice, for a cause other than `RUNTIME_BOUND` and for `RUNTIME_BOUND`. -/
def Item.statusCode (i : Item) : Nat :=
  let has (c : Nat) : Bool := i.statuses.contains c
  let rb := i.cause == causeRuntimeBound
  ([(has stDisabled, stDisabled), (has stFenced, stFenced), (has stRejected && !rb, stRejected), (has stPoison, stPoison),
    (has stUnreachable, stUnreachable), (has stCollFailed, stCollFailed), (has stOverrun, stOverrun), (has stUnderrun, stUnderrun),
    (has stTableRetired, stTableRetired), (has stRejected, stRejected), (has stStaleWindow, stStaleWindow), (has stPreempted, stPreempted),
    (has stReplayed, stReplayed)].find? (·.1)).elim 0 Prod.snd

/-- `CONDITIONS` (R379). -/
def Item.conditions (i : Item) : Nat :=
  ([stPoison, stReplayed, stDisabled, stFenced, stStaleWindow, stOverrun, stUnderrun, stTableRetired, stUnreachable, stCollFailed, stPreempted,
    stRejected].zipIdx.map (fun e => if i.statuses.contains e.1 then 2 ^ e.2 else 0)).foldl (· + ·) 0

/-- `DETAIL` (R376). -/
def Item.detail (i : Item) : Nat :=
  let t := i.type
  if t = tyLaunch then (match i.abortChip with
    | some c => c % 2048 + 32768
    | none => 0)
  else if t = tyIngest then (match i.ingest.bind (fun (r : IngestRun) => r.firstBad) with
    | some b => b.1 + 256 * b.2
    | none => 0xFFFFFFFF)
  else if typeList t then ((i.list.map (fun (l : ListRun) => l.written)).getD 0)
  else 0

/-- The entries of a completion ring (R355). -/
def State.cqEntries (s : State) (r : Nat) : Nat := 2 ^ (6 + s.fld Fld.ringCfgCqSize r)

/-- The 32 bytes of an item's record, with record count n (R374). -/
def Item.record (i : Item) (duration n entries : Nat) : List Byte :=
  let st := i.statusCode
  leBytes 8 ((i.desc.map descUser).getD 0) ++ leBytes 4 i.submit ++ leBytes 1 st ++ leBytes 1 (if st = stRejected then i.cause else 0) ++
    leBytes 1 i.type ++ leBytes 1 0 ++ leBytes 2 i.conditions ++ leBytes 2 i.notes ++ leBytes 4 i.detail ++ leBytes 4 duration ++ leBytes 3 0 ++
    leBytes 1 (if n / entries % 2 = 0 then 1 else 0)

/-- `DURATION`, and the state after it: a free value for an item that never passed event 3 (log 22, DEDUCED). -/
def State.durationOf (s : State) (i : Item) : Nat × State :=
  match i.since with
  | some c => (min (s.tally - c) 0xFFFFFFFF, s)
  | none => (Config.duration s.draws % 2 ^ 32, { s with draws := s.draws + 1 })

/-! ## What an item gives back -/

/-- An item's credits, references and pins return (R83, R87, R216, R269, R282, R400). -/
def State.giveBack (s : State) (i : Item) : State :=
  let s := i.credits.foldl (fun (s : State) c => s.give (c.1 + 1) (creditIndex i.fn c.1 c.2.1 c.2.2.1) c.2.2.2) s
  let s := i.tables.foldl (fun (s : State) t => s.releaseGen t.1 t.2) s
  match i.launch with
  | none => s
  | some l =>
    let s := l.serials.foldl (fun (s : State) x => (s.give 7 (4 * i.fn + x.1) 1).release i.fn x.1) s
    if l.held then
      ((s.modBoard i.fn l.handle (fun b => { b with refs := b.refs - 1 })).give 4 (256 * i.fn + l.handle) 1).retireComplete i.fn l.handle
    else s

/-- The items in flight of a ring pair. -/
def State.ringItems (s : State) (fn ring : Nat) : List Item := s.items.filter (fun i => i.fn == fn && i.ring == ring)

/-- A ring pair that is draining becomes inactive when none of its items is left (R358). -/
def State.drainRing (s : State) (fn ring : Nat) : State :=
  let r := 64 * fn + ring
  if s.flag Fld.ringCfgActive r && !s.flag Fld.ringCfgEnable r && (s.ringItems fn ring).isEmpty then s.setFlag Fld.ringCfgActive r false else s

/-- A narrowing ends when the last of the items it waits for has its record (R348). -/
def State.narrowForgets (s : State) (ctx id : Nat) : State :=
  match Tab.get none s.narrowing ctx with
  | none => s
  | some (g, ids) =>
    let rest := ids.filter (· != id)
    if rest.isEmpty then ({ s with narrowing := Tab.set none s.narrowing ctx none }).setFlag Fld.grantCtlPending ctx false
    else { s with narrowing := Tab.set none s.narrowing ctx (some (g, rest)) }

/-- An item leaves the device: its record is written or counted lost (R368). -/
def State.leave (s : State) (i : Item) : State :=
  let audits := s.auditsOf i
  let s := { s.leave4 i.id with items := s.items.filter (fun j => j.id != i.id), transfers := s.transfers.filter (fun x => x.item != i.id),
                                landings := s.landings.filter (fun x => x.item != i.id) }
  let s := ((s.give 0 i.fn 1).giveBack i).drainRing i.fn i.ring
  let s := ((s.narrowForgets i.fn i.id).fenceForgets i.fn i.id).stir
  audits.foldl (fun (s : State) a => s.auditCheck a.1 a.2) s

/-- The next item of its ring whose record is due (R372). -/
def State.recordDue (s : State) (i : Item) : Bool :=
  ((s.items.find? (fun j => j.fn == i.fn && j.ring == i.ring && j.phase == .done)).map (fun (j : Item) => j.id)) == some i.id

/-- `COMPLETION_RECORD_WRITE` (R29, R341, R351, R353, R372-R380, R402): the record is written, or counted lost when the link is down, when no window permits
it, or when a disable ends with Bus Master Enable clear; while that bit is clear and nothing is disabled, it waits. -/
def execCompletionRecordWrite (item : Nat) (s : State) : Out State :=
  match s.item item with
  | none => .next s
  | some i =>
    let disabling := s.fnState i.fn == 2
    s.accepting <| whenever (s.recordDue i && (s.hostReady i.fn || disabling)) s <|
    let r := 64 * i.fn + i.ring
    let n := s.fld Fld.ringCfgCqTail r
    let d := s.durationOf i
    let a := s.fld Fld.ringCfgCqBase r + 32 * (n % s.cqEntries r)
    let bytes := i.record d.1 n (s.cqEntries r)
    if !s.hostReady i.fn || !s.fns.linkUp then ((d.2.bump Fld.hostErrLost i.fn 1).leave i)
    else
      let w := d.2.hostWrite i.fn a bytes false
      if !w.1 then ((w.2.bump Fld.hostErrLost i.fn 1).leave i)
      else
        let st := i.statusCode
        let s := if st = stDisabled || st = stFenced then w.2.bump Fld.fnStateAborted i.fn 1 else w.2
        ((s.addFld Fld.ringCfgCqTail r 1).vecAdd i.fn (s.fld Fld.ringCfgVector r)).leave i

end Sys2Proof.Machine
end

