-- ==== Sys2Proof/Machine/Rings.lean ====
section
/-! DEFINITION. Ring pairs (R349, R350, R355-R358, R367-R369, R373): fetching, doorbells, enabling, draining, quotas; and the lock point (R493). -/

namespace Sys2Proof.Machine

/-! ## Rings -/

/-- The instance number of a ring pair's registers. -/
def ringKey (fn ring : Nat) : Nat := 64 * fn + ring

/-- The latest doorbell counts of a ring pair. -/
def State.ring (s : State) (fn ring : Nat) : RingRun := Tab.get ⟨0, 0⟩ s.fns.rings (ringKey fn ring)

/-- The doorbell counts replaced. -/
def State.setRing (s : State) (fn ring : Nat) (x : RingRun) : State :=
  { s with fns := { s.fns with rings := Tab.set ⟨0, 0⟩ s.fns.rings (ringKey fn ring) x } }

/-- The entries of a submission ring (R355). -/
def State.sqEntries (s : State) (r : Nat) : Nat := 2 ^ (6 + s.fld Fld.ringCfgSqSize r)

/-- The ring pair is enabled: doorbells are taken and descriptors fetched (R356, R358). -/
def State.ringOn (s : State) (fn ring : Nat) : Bool :=
  s.flag Fld.ringCfgActive (ringKey fn ring) && s.flag Fld.ringCfgEnable (ringKey fn ring)

/-- `a` less `b`, modulo 2^32. -/
def diff32 (a b : Nat) : Nat := (a + 2 ^ 32 - b % 2 ^ 32) % 2 ^ 32

/-! ## Fetching (R367-R369) -/

/-- The items of a function in flight. -/
def State.fnItems (s : State) (fn : Nat) : List Item := s.items.filter (fun i => i.fn == fn)

/-- The conditions of R368, for a function that is enabled, with Bus Master Enable set (R353). -/
def State.canFetch (s : State) (fn ring : Nat) : Bool :=
  let r := ringKey fn ring
  s.fnEnabled fn && s.hostReady fn && s.ringOn fn ring && diff32 (s.ring fn ring).sqTail (s.fld Fld.ringCfgSqHead r) != 0 &&
    (s.ringItems fn ring).length + diff32 (s.fld Fld.ringCfgCqTail r) (s.ring fn ring).cqHead < s.cqEntries r &&
    (s.fnItems fn).length < s.fld Fld.fnQuotaLimit fn && s.items.length < 16384

/-- The function whose turn it is (R369). -/
def State.turnFn (s : State) : Option Nat :=
  ((List.range 64).map (fun k => (s.fns.lastServed + 1 + k) % 64)).find? (fun f => (List.range 64).any (s.canFetch f))

/-- The ring pair of a function whose turn it is. -/
def State.turnRing (s : State) (fn : Nat) : Option Nat :=
  ((List.range 64).map (fun k => (Tab.get 63 s.fns.lastRing fn + 1 + k) % 64)).find? (s.canFetch fn)

/-- A new item. -/
def Item.new (id fn ring submit : Nat) (desc : Option (List Byte)) : Item :=
  { id := id, fn := fn, ring := ring, submit := submit, desc := desc, phase := .fetched, statuses := [], cause := 0, notes := 0, abortChip := none,
    since := none, launch := none, list := none, ingest := none, credits := [], tables := [] }

/-- One descriptor is fetched (R355, R367, R368). Poison or an error completion ends its item with `FAILED_POISON`; a read that no window permits gives zeros
(R341) (log 76, DEDUCED). An item of a fenced context also ends with `ABORTED_TENANT_FENCED` (R378, R381). -/
def State.fetchOne (s : State) (fn ring : Nat) : State :=
  let r := ringKey fn ring
  let k := s.fld Fld.ringCfgSqHead r
  let id := s.nextItem
  let read := s.hostRead fn (s.fld Fld.ringCfgSqBase r + 64 * (k % s.sqEntries r)) 64
  let add (s : State) (d : Option (List Byte)) : State := { s with items := s.items ++ [Item.new id fn ring k d] }
  let s := (({ read.2 with nextItem := id + 1 }).issue 0 fn 1).addFld Fld.ringCfgSqHead r 1
  match read.1 with
  | some (bytes, false) => add s (some bytes)
  | some (_, true) =>
    let s := (add s none).addStatus id stPoison
    (if s.fenced fn then s.addStatus id stFenced else s).endItem id
  | none => (add s (some (List.replicate 64 0))).outsideItem id

/-- Up to `n` consecutive descriptors of a ring. -/
def State.fetchRun (fn ring : Nat) : Nat → State → State
  | 0, s => s
  | n + 1, s => if s.canFetch fn ring then State.fetchRun fn ring n (s.fetchOne fn ring) else s

/-- `DESCRIPTOR_FETCH` (R367-R369): it is the turn of the function and of its ring, which fetches up to 4 descriptors. -/
def execDescriptorFetch (fn ring : Nat) (s : State) : Out State :=
  onUnit (fn < 64 && ring < 64) "ring" <|
  whenever (s.inP0 && s.turnFn == some fn && s.turnRing fn == some ring) s <|
  let s := State.fetchRun fn ring 4 s
  { s with fns := { s.fns with lastServed := fn, lastRing := Tab.set 63 s.fns.lastRing fn ring } }

/-! ## Doorbells (R349, R350) -/

/-- A doorbell write: it wakes the device; of a function that is not enabled it is discarded; what `f` refuses is ignored and counts. -/
def State.doorbell (fn ring : Nat) (f : State → Option RingRun) (s : State) : State :=
  if !s.fnEnabled fn then s
  else if !s.ringOn fn ring then s.bump Fld.hostErrDoorbell fn 1
  else match f s with
    | some x => s.setRing fn ring x
    | none => s.bump Fld.hostErrDoorbell fn 1

/-- What a write of `SQ_TAIL` makes of the counts. -/
def State.newTail (fn ring v : Nat) (s : State) : Option RingRun :=
  if s.sqEntries (ringKey fn ring) < diff32 v (s.fld Fld.ringCfgSqHead (ringKey fn ring)) then none else some { s.ring fn ring with sqTail := v }

/-- What a write of `CQ_HEAD` makes of the counts. -/
def State.newHead (fn ring v : Nat) (s : State) : Option RingRun :=
  if diff32 (s.fld Fld.ringCfgCqTail (ringKey fn ring)) (s.ring fn ring).cqHead < diff32 v (s.ring fn ring).cqHead then none
  else some { s.ring fn ring with cqHead := v }

/-- `SQ_TAIL_WRITE` (R349, R350, R425). -/
def execSqTailWrite (fn ring : Nat) (value : Word32) (s : State) : Out State :=
  onUnit (fn < 64 && ring < 64) "ring" <| onAccess (.sqTailWrite fn ring value) s (State.doorbell fn ring (State.newTail fn ring value.toNat))

/-- `CQ_HEAD_WRITE` (R349, R350, R425). -/
def execCqHeadWrite (fn ring : Nat) (value : Word32) (s : State) : Out State :=
  onUnit (fn < 64 && ring < 64) "ring" <| onAccess (.cqHeadWrite fn ring value) s (State.doorbell fn ring (State.newHead fn ring value.toNat))

/-! ## The lock point (R493) -/

/-- The lock point is reached. The role of a machine leader is then fixed: it is its own reference, so it is aligned with itself (log 25, DEDUCED). -/
def State.reachLock (s : State) : State :=
  if s.locked then s
  else
    let s := s.setFlag Fld.setupStatLocked 0 true
    if s.tallyLeader then ((s.setFlag Fld.tallyStatLocked 0 true).setFlag Fld.tallyStatAligned 0 true).setFld Fld.tallyStatErrNs 0 0 else s

/-- `SETUP_LOCK` (R491-R494): a write of 1 to `SETUP_CTL.LOCK`, by the physical function's host driver or the MGC; Loupe's is discarded (log 91, DEDUCED). -/
def execSetupLock (a : Agent) (s : State) : Out State :=
  onUnit a.wf "agent" <|
  onAccess (.setupLock a) s (fun s => match a with
    | .hostPf | .mgc => if s.agentActs a then s.reachLock else s
    | .hostVf _ => s
    | .loupe => s.boundDiscard .loupe 0x8)

/-! ## Enabling and draining (R357, R358) -/

/-- The checks of R357, in order; the number of the first that fails, or 0 (log 86, DEDUCED). -/
def State.ringCheck (s : State) (fn ring : Nat) : Nat :=
  let r := ringKey fn ring
  let sq := s.fld Fld.ringCfgSqBase r
  let cq := s.fld Fld.ringCfgCqBase r
  let sqn := 64 * s.sqEntries r
  let cqn := 32 * s.cqEntries r
  if 10 < s.fld Fld.ringCfgSqSize r || 10 < s.fld Fld.ringCfgCqSize r then 1
  else if sq % min 4096 sqn != 0 || cq % min 4096 cqn != 0 then 2
  else if !s.hostPermits fn sq sqn false then 3
  else if !s.hostPermits fn cq cqn true then 4
  else if overlaps sq sqn cq cqn then 5
  else if !s.fnEnabled fn then 6
  else if fn != 0 && s.fld Fld.secStatLc 0 == 2 && 2 ≤ s.fld Fld.secStatLevel 0 then 7
  else 0

/-- `RING_ENABLE` (R356, R357, R460, R493): a write of 1 to `ENABLE`. While the pair is active it changes nothing (log 88, DEDUCED). -/
def execRingEnable (fn ring : Nat) (s : State) : Out State :=
  onUnit (fn < 64 && ring < 64) "ring" <|
  onAccess (.ringEnable fn ring) s fun s =>
    let r := ringKey fn ring
    if s.flag Fld.ringCfgActive r then s
    else
      let e := s.ringCheck fn ring
      let s := s.setFld Fld.ringCfgCfgErr r e
      if e = 0 then
        let s := (((s.setFlag Fld.ringCfgEnable r true).setFlag Fld.ringCfgActive r true).setFld Fld.ringCfgSqHead r 0).setFld Fld.ringCfgCqTail r 0
        (s.setRing fn ring ⟨0, 0⟩).reachLock
      else s.setFlag Fld.ringCfgEnable r false

/-- `RING_DISABLE` (R358): fetching stops, and the pair is inactive once its items have their records. -/
def execRingDisable (fn ring : Nat) (s : State) : Out State :=
  onUnit (fn < 64 && ring < 64) "ring" <| onAccess (.ringDisable fn ring) s fun s => (s.setFlag Fld.ringCfgEnable (ringKey fn ring) false).drainRing fn ring

/-! ## Quotas (R373) -/

/-- The sum of `LIMIT` over the other contexts. -/
def State.otherQuotas (s : State) (ctx : Nat) : Nat :=
  (((List.range 64).filter (· != ctx)).map (s.fld Fld.fnQuotaLimit)).foldl (· + ·) 0

/-- `FN_QUOTA_WRITE` (R373, R450). -/
def execFnQuotaWrite (a : Agent) (ctx : Nat) (value : BitVec 15) (s : State) : Out State :=
  onUnit (a.wf && ctx < 64) "context" <|
  onAccess (.fnQuotaWrite a ctx value) s (fun s => onHostPf a (0x1000200 + 0x1000 * ctx) s fun s =>
    if 16384 < s.otherQuotas ctx + value.toNat then s.setFlag Fld.fnQuotaRefused ctx true
    else (s.setFld Fld.fnQuotaLimit ctx value.toNat).setFlag Fld.fnQuotaRefused ctx false)

end Sys2Proof.Machine
end

