-- ==== Sys2Proof/Machine/Transfers.lean ====
section
/-! DEFINITION. The sending side of transfers (R303, R314-R319, R325, R333): chunks, their transmit credits, and the failure of a transfer. -/

namespace Sys2Proof.Machine

/-- A transfer by its number. -/
def State.transfer (s : State) (id : Nat) : Option Transfer := s.transfers.find? (fun x => x.id == id)

/-- A transfer changed. -/
def State.modTransfer (s : State) (id : Nat) (f : Transfer → Transfer) : State :=
  { s with transfers := s.transfers.map (fun x => if x.id = id then f x else x) }

/-- The bytes of chunk c of a transfer: offset and length (R316). -/
def Transfer.chunkSpan (x : Transfer) (c : Nat) : Nat × Nat := (992 * c, min 992 (x.route.length - 992 * c))

/-- The first TRAFFIC word (R316, R333). -/
def Transfer.t14 (x : Transfer) (tag : Nat) : Nat := if x.route.kind = 3 then x.window + 65536 * x.wgen else tag

/-- The second TRAFFIC word of chunk c. -/
def Transfer.t18 (x : Transfer) (cseq c : Nat) : Nat :=
  if x.route.kind = 3 then x.dst + 992 * c
  else cseq + 2 ^ 24 * x.step + (if c + 1 = x.chunks then 2 ^ 31 else 0)

/-- The third TRAFFIC word of chunk c. -/
def Transfer.t1c (x : Transfer) (rank c : Nat) : Nat :=
  if x.route.kind = 3 then x.boardTile + (if c + 1 = x.chunks then 256 else 0)
  else x.route.collective % 4096 + 4096 * rank + 2 ^ 23 * x.route.dstTile + (if x.route.orderFree then 2 ^ 31 else 0)

/-- What a chunk says beyond its TRAFFIC bytes, for the receiver to place it as its entry fixes (R315, R322; log 20, DESIGN CHOICE), and for this chip to know its own: the
transfer, its kind, its length, the destination offset of the chunk, the item and the reservation. -/
def Transfer.aux (x : Transfer) (c : Nat) : List Nat :=
  [x.id, x.route.kind, x.route.length, x.dst + 992 * c, x.item, x.route.creditRef]

/-- Chunk c of a transfer as a packet (R316, R333). -/
def Transfer.packet (x : Transfer) (chip tenant tag cseq rank c : Nat) (bytes : List Byte) (poison : Bool) : Packet :=
  let win := x.route.kind = 3
  Packet.make x.dstChip chip (VC.ofCode x.route.vc) tenant ((if win then 32768 else 0) + c) (if win then .window else .chunk)
    (x.t14 tag) (x.t18 cseq c) (x.t1c rank c) (x.aux c) bytes poison

/-- Transmit credits of a reservation of an item that are out (R303, R325). -/
def State.creditsOut (s : State) (item ref : Nat) : Nat :=
  ((List.range 20).flatMap (fun l => (s.link l).onHop.filter (fun q =>
    q.ownFirstHop s.chipId && (q.kind == .chunk || q.kind == .window) && q.aux.getD 4 0 == item && q.aux.getD 5 0 == ref))).length

/-- A transfer may send a chunk now: it uses no link, or its reservation has a credit left (R325). -/
def State.creditFree (s : State) (x : Transfer) : Bool :=
  x.dstChip == s.chipId ||
    (match (s.item x.item).bind s.launchVariant with
    | some v => (match v.credits[x.route.creditRef]? with
      | some r => s.creditsOut x.item x.route.creditRef < r.count
      | none => false)
    | none => false)

/-- Chunk c leaves this chip: it is read from the scratchpad (R318), and marked when the transfer reads any marked unit (R329, R392). A chunk dropped here fails the
launch part (R327). -/
def State.sendChunk (s : State) (id c : Nat) : State :=
  match s.transfer id with
  | none => s
  | some x =>
    match s.physOf x.tile, s.item x.item with
    | some p, some i =>
      match i.launch, s.launchBoard i with
      | some l, some b =>
        let g := x.chunkSpan c
        let segs := [(x.src + g.1, g.2)]
        let tl := s.tile p
        let mark := tl.markedSegs [(x.src, x.route.length)]
        let s := (s.consumed x.item mark).tileEvent p evRow (rowsOf (x.src + g.1) g.2).length
        let k := x.packet s.chipId i.fn l.key.1 l.key.2 b.rank c (tl.readSegs segs) mark
        let r := s.inject k (if x.route.kind = 0 then none else some x.route.port)
        if r.2 then r.1.failPart x.item stUnreachable
        else r.1.modTransfer id (fun x => { x with since := some (x.since.getD s.tally) })
      | _, _ => s
    | _, _ => s

/-- Chunks of a transfer leave while it may send (R325): those to be sent again first. -/
def State.pump : Nat → Nat → State → State
  | 0, _, s => s
  | n + 1, id, s =>
    match s.transfer id with
    | none => s
    | some x =>
      let live := match s.physOf x.tile with
        | some p => s.tileLive x.tile p
        | none => false
      if !live || !s.creditFree x then s
      else match x.resend with
        | c :: r => State.pump n id ((s.modTransfer id (fun x => { x with resend := r })).sendChunk id c)
        | [] =>
          if x.nextChunk < x.chunks then
            State.pump n id ((s.modTransfer id (fun x => { x with nextChunk := x.nextChunk + 1 })).sendChunk id x.nextChunk)
          else s

/-- A transfer sends what it may. -/
def State.pumpOne (s : State) (id : Nat) : State :=
  match s.transfer id with
  | some x => s.pump (x.resend.length + x.chunks) id
  | none => s

/-- Every transfer of an item sends what it may, in the order of issue. -/
def State.pumpItem (s : State) (item : Nat) : State :=
  ((s.transfers.filter (fun x => x.item == item)).map (·.id)).foldl State.pumpOne s

/-- An operation in flight by its number. -/
def Tile.op (t : Tile) (id : Nat) : Option Op := t.ops.find? (fun x => x.id == id)

/-- The tile that serves an operation can complete it now: it is live, and the signals fit (R185). -/
def State.opRoom (s : State) (t op : Nat) : Bool :=
  match s.physOf t with
  | none => false
  | some p => s.tileLive t p && (match (s.tile p).op op with
    | some x => (s.tile p).signalRoom x.insn
    | none => true)

/-- The `RSEND` of a transfer completes, and signals (R319). -/
def State.endTransfer (s : State) (x : Transfer) : State :=
  let s := { s with transfers := s.transfers.filter (fun y => y.id != x.id) }
  match s.physOf x.tile with
  | none => s
  | some p => match (s.tile p).op x.op with
    | some o => s.completeOp x.tile p o
    | none => s

/-- A packet of this chip's own traffic is returned to it as unreachable (R310, R287, R327). -/
def State.returned (s : State) (kind : PktKind) (aux : List Nat) : State :=
  match kind with
  | .chunk | .window =>
    match s.transfer (aux.getD 0 0) with
    | some x => s.failPart x.item stUnreachable
    | none => s
  | .notice => s.bump Fld.linkRouteNoticeLost 0 1
  | .inboxWrite => s.stopForward (aux.getD 0 0)
  | .reply | .timing | .laneSwitch | .repairReq | .repairResp => s

end Sys2Proof.Machine
end

