-- ==== Sys2Proof/Machine/Collectives.lean ====
section
/-! DEFINITION. Collectives (R314-R330, R335): `RSEND`, `RLAND`, the receipt of chunks, combining, replies, and the ways in which a launch part
fails. -/

namespace Sys2Proof.Machine

/-! ## RSEND (R314, R315, R319, R333) -/

/-- The member, source offset and destination offset of an `RSEND` of a route entry on rank r of n (R315) (log 63, DEDUCED). -/
def rsendPlace (i : Insn) (e : Route) (n r : Nat) : Nat × Nat × Nat :=
  let mode := i.arg 24 2
  let m := e.member mode n r
  let pick (by_ : Nat) : Nat := if by_ = 0 then 0 else if by_ = 1 then modeIndex mode r else modeIndex mode m
  (m, e.srcSpad + e.length * pick (i.arg 26 2), e.dstOff + e.length * pick (i.arg 28 2))

/-- The transfer that an `RSEND` issues. A peer reference is used as read at event 4; one that was not set there has generation 0 (R333). -/
def State.newTransfer (s : State) (t op : Nat) (i : Insn) (e : Route) (item : Item) (l : Launch) (b : Board) (q : Part) : Transfer :=
  let w := rsendPlace i e b.chips.length b.rank
  let peer := (l.peers.find? (fun x => x.1 == i.arg 16 8)).map Prod.snd
  let home := b.chips.getD w.1 s.chipId
  { id := s.nextTransfer, item := item.id, tile := t, op := op, route := e, step := i.arg 16 7,
    dstChip := if e.kind = 0 then s.chipId else if e.kind = 3 then (peer.map (fun x => x.2.1)).getD home else home,
    src := w.2.1, dst := w.2.2, window := (peer.map (fun x => x.2.2)).getD 0, wgen := (peer.map (fun x => x.1)).getD 0,
    boardTile := q.boardTile, chunks := ceilDiv e.length 992, nextChunk := 0, resend := [], naks := [], backoff := [], since := none }

/-- `RSEND` (R314-R319, R325, R330): it issues in one step, reads its source range until it completes, and its chunks leave as credits allow. -/
def execRsend (t : Nat) (s : State) : Out State :=
  onInsn t opRsend s fun p tl i =>
    match tl.part, s.partItem tl with
    | some q, some item =>
      match item.launch, s.launchBoard item, (s.launchVariant item).bind (fun v => v.routes[i.arg 0 16]?) with
      | some l, some b, some e =>
        let x := s.newTransfer t tl.nextOp i e item l b q
        let reads := [(x.src, e.length)]
        if !tl.clearOf reads [] then s
        else
          let s := s.issueOp t p (tl.mkOp i 0 reads [] 1 0)
          ({ s with transfers := s.transfers ++ [x], nextTransfer := s.nextTransfer + 1 }).pumpOne x.id
      | _, _, _ => s
    | _, _ => s

/-! ## Landings (R321-R324) -/

/-- The `OP` of an `RLAND`. -/
def Insn.landOp (i : Insn) : Nat := bitsOf i.opd1.toNat 7 3
/-- The `LENGTH` of each contribution. -/
def Insn.landLength (i : Insn) : Nat := bitsOf i.opd1.toNat 32 32
/-- Bytes of an element of a landing. -/
def Insn.landElem (i : Insn) : Nat := if i.landOp = 1 then 4 else if i.landOp = 2 then 2 else 8
/-- Bytes of a delivered element: a W34 word or FP32. -/
def Insn.landOut (i : Insn) : Nat := if bitOf i.opd1.toNat 10 then 8 else 4
/-- Chunk indices of a contribution. -/
def Insn.landChunks (i : Insn) : Nat := ceilDiv i.landLength 992
/-- `CREDIT_REF` of a combining landing. -/
def Insn.landRef (i : Insn) : Nat := bitsOf i.opd2.toNat 16 16
/-- The delivery spans of a combining landing at an operand. -/
def Insn.landSegs (i : Insn) (o : Opnd) : List (Nat × Nat) :=
  if i.landOp = 0 then [] else o.segs 0 (i.landLength / i.landElem * i.landOut)

/-- The source ranks of a combining landing on rank r of n members, ascending (R323). -/
def Insn.landRanks (i : Insn) (n r : Nat) : List Nat :=
  let mode := bitsOf i.opd2.toNat 11 2
  let off := bitsOf i.opd2.toNat 0 11
  let rs := (List.range (i.arg 20 11 + 1)).map (fun k => modeRank mode n r (off + k))
  (List.range n).filter rs.contains

/-- An empty landing. -/
def Landing.new (item coll step tile : Nat) : Landing :=
  { item := item, coll := coll, step := step, tile := tile, posts := [], held := [], accs := [], accSats := [], accPoison := [], combined := [], ready := [],
    seen := [], lasts := [], acked := [], counted := 0, firstAt := [] }

/-- The landing of a key is `l`'s. -/
def Landing.at_ (l : Landing) (item coll step tile : Nat) : Bool := l.item == item && l.coll == coll && l.step == step && l.tile == tile

/-- The landing of a key, empty when nothing has come or been posted. -/
def State.landing (s : State) (item coll step tile : Nat) : Landing :=
  (s.landings.find? (fun l => l.at_ item coll step tile)).getD (Landing.new item coll step tile)

/-- A landing replaced. -/
def State.setLanding (s : State) (l : Landing) : State :=
  if s.landings.any (fun x => x.at_ l.item l.coll l.step l.tile) then
    { s with landings := s.landings.map (fun x => if x.at_ l.item l.coll l.step l.tile then l else x) }
  else { s with landings := s.landings ++ [l] }

/-- The `RLAND` of a key in a stream that issues next: the first at or behind position `pos`, else the first. A contribution that arrives before it issues
is matched by it (R324). -/
def TileStream.rland (ts : TileStream) (coll step pos : Nat) : Option Insn :=
  let hit (i : Insn) : Bool := i.opc.toNat == opRland && i.arg 0 12 == coll && i.arg 12 7 == step
  match (ts.insns.drop pos).find? hit with
  | some i => some i
  | none => ts.insns.find? hit

/-- The instruction of a landing: that of its oldest post, else the one that issues next. -/
def State.landingInsn (s : State) (l : Landing) : Option Insn :=
  let posted := match l.posts, s.physOf l.tile with
    | x :: _, some p => ((s.tile p).op x.1).map (fun (o : Op) => o.insn)
    | _, _ => none
  match posted with
  | some i => some i
  | none =>
    let pos := match s.physOf l.tile with
      | some p => if (s.tile p).itemId = some l.item then (s.tile p).pos else 0
      | none => 0
    match s.item l.item with
    | some i =>
      match s.launchBoard i, s.launchVariant i with
      | some b, some v =>
        (v.tiles.zipIdx.find? (fun (e : TileStream × Nat) => b.logical e.2 == l.tile)).bind (fun (e : TileStream × Nat) => e.1.rland l.coll l.step pos)
      | _, _ => none
    | none => none

/-- The source ranks of a landing of an item. -/
def State.ranksOf (s : State) (item : Nat) (i : Insn) : List Nat :=
  match (s.item item).bind s.launchBoard with
  | some b => i.landRanks b.chips.length b.rank
  | none => []

/-! ## Completion of a landing (R322, R323, R335) -/

/-- The value of an element of a contribution as W34 (R323). -/
def landValue (op code : Nat) : W34 :=
  if op = 1 then toW34 (Fmt.fp32.decode code) else if op = 2 then toW34 (Fmt.bf16.decode code) else BitVec.ofNat 34 (code % 2 ^ 34)

/-- The elements of a chunk. -/
def Insn.landValues (i : Insn) (bytes : List Byte) : List W34 :=
  (List.range (bytes.length / i.landElem)).map (fun k => landValue i.landOp (leAt bytes (i.landElem * k) i.landElem))

/-- A delivered element and whether it saturated: in the conversion to FP32, or for a W34 word in its last addition (R122, R125, R168, R323). -/
def Insn.landDeliver (i : Insn) (w : W34) (last : Bool) : List Byte × Bool :=
  if i.landOut = 8 then (leBytes 8 w.toNat, last)
  else let r := Fmt.fp32.encode (ofW34 w); (leBytes 4 r.1, r.2)

/-- One chunk index of a combining landing is written at the delivery operand; its row accesses may meet transfers and arrivals that are pending (R52, R323, R329). -/
def State.deliverIndex (s : State) (p : Nat) (l : Landing) (x : Op) (c : Nat) : State :=
  let i := x.insn
  let es := ((Tab.get [] l.accs c).zip (Tab.get [] l.accSats c)).map (fun e => i.landDeliver e.1 e.2)
  let tl := s.tile p
  let k := 992 * c / i.landElem * i.landOut
  let rows := spanRows ((x.opnd tl 0).segs k (es.length * i.landOut))
  let s := (s.race l.tile tl.part (rows.filter (fun r => s.meetsIncoming l.tile tl r true)).length).tileEvent p evRow rows.length
  (s.setTile p (tl.swrite (x.opnd tl 0) k (es.flatMap Prod.fst) (l.accPoison.contains c))).bump Fld.tileVstatSats l.tile
    (es.filter (·.2)).length

/-- The spread of a landing's first chunks counts when it exceeds `STRAG_US` (R335) (log 84, DEDUCED). -/
def State.straggler (s : State) (tenant : Nat) (firsts : List (Nat × Nat × Nat)) : State :=
  match firsts with
  | [] => s
  | f :: _ =>
    let lo := firsts.foldl (fun a e => min a e.2.2) f.2.2
    let last := firsts.foldl (fun (a : Nat × Nat × Nat) e => if a.2.2 < e.2.2 then e else a) f
    let spread := last.2.2 - lo
    let us := spread / 1000
    let s := s.setFld Fld.collStragWorstUs tenant (max (s.fld Fld.collStragWorstUs tenant) (min us 65535))
    if 1000 * s.fld Fld.collCtlStragUs 0 < spread then (s.bump Fld.collStragCount tenant 1).setFld Fld.collStragRank tenant last.1 else s

/-- The contributions that the oldest post of a landing takes; none while some are missing (R322, R323). -/
def State.landingTakes (s : State) (l : Landing) (i : Insn) : Option (List (Nat × Nat)) :=
  let waiting := l.acked.drop l.counted
  if i.landOp = 0 then (if i.arg 20 11 + 1 ≤ waiting.length then some (waiting.take (i.arg 20 11 + 1)) else none)
  else if (List.range i.landChunks).all l.ready.contains then some (waiting.take (s.ranksOf l.item i).length)
  else none

/-- The landing complete: what it took is gone (R324). -/
def Landing.finished (l : Landing) (i : Insn) (took : List (Nat × Nat)) : Landing :=
  let l := { l with posts := l.posts.drop 1, counted := l.counted + took.length,
                    firstAt := l.firstAt.filter (fun e => !took.contains (e.1, e.2.1)) }
  if i.landOp = 0 then l else { l with held := [], accs := [], accSats := [], accPoison := [], combined := [], ready := [], seen := [], lasts := [] }

/-- The signals of a landing that completes fit: `SYNC`, and the instruction's own. -/
def Tile.landRoom (t : Tile) (i : Insn) : Bool :=
  let y := bitsOf i.opd1.toNat 0 7
  t.signalFits y 1 && (t.signalled y 1).signalRoom i

/-- Landings of a key complete in the order in which they were posted: each delivers, signals `SYNC` and completes (R322, R323). -/
def State.settleLanding : Nat → Nat → Nat → Nat → Nat → State → State
  | 0, _, _, _, _, s => s
  | n + 1, item, coll, step, t, s =>
    let l := s.landing item coll step t
    match l.posts, s.physOf t with
    | x :: _, some p =>
      match (s.tile p).op x.1 with
      | none => s
      | some o =>
        match s.landingTakes l o.insn with
        | none => s
        | some took =>
          if !s.tileLive t p || !(s.tile p).landRoom o.insn then s
          else
            let tenant := ((s.tile p).part.map (·.tenant)).getD 0
            let s := if o.insn.arg 20 11 = 0 then s else s.straggler tenant (l.firstAt.filter (fun e => took.contains (e.1, e.2.1)))
            let s := if o.insn.landOp = 0 then s else (List.range o.insn.landChunks).foldl (fun s c => s.deliverIndex p l o c) s
            let s := s.setLanding (l.finished o.insn took)
            let s := (s.signal t p (bitsOf o.insn.opd1.toNat 0 7) 1).completeOp t p o
            State.settleLanding n item coll step t s
    | _, _ => s

/-- The landings of a key complete as far as they can. -/
def State.settle (s : State) (item coll step t : Nat) : State :=
  s.settleLanding (s.landing item coll step t).posts.length item coll step t

/-- A chunk that a combining landing cannot take: of another kind or length, of a rank that is no source, or of no index of it (R324). -/
def State.chunkWrong (s : State) (item : Nat) (i : Insn) (kind length rank chunk : Nat) : Bool :=
  kind == 0 || length != i.landLength || !(s.ranksOf item i).contains rank || i.landChunks ≤ chunk

/-- A landing has been posted: what its slots already hold is judged by it (R324), and it completes when it can. -/
def State.postLanding (s : State) (l : Landing) (i : Insn) : State :=
  if i.landOp != 0 && l.held.any (fun h => s.chunkWrong l.item i h.kind h.length h.srcRank h.chunk) then s.failPart l.item stCollFailed
  else s.settle l.item l.coll l.step l.tile

/-- `RLAND` (R321, R322): it posts a landing, which stays in flight until it is complete; a combining landing writes its delivery range. -/
def execRland (t : Nat) (s : State) : Out State :=
  onInsn t opRland s fun p tl i =>
    match tl.part with
    | none => s
    | some q =>
      let writes := i.landSegs (tl.opnd i.opd0)
      if !tl.clearOf [] writes then s
      else
        let l := s.landing q.item (i.arg 0 12) (i.arg 12 7) t
        let s := s.setLanding { l with posts := l.posts ++ [(tl.nextOp, s.tally)] }
        (s.issueOp t p (tl.mkOp i 0 [] writes 1 0)).postLanding l i

/-! ## Chunks (R316-R318, R322-R324) -/

/-- The fields of a chunk of `KIND` 0-2 (R316), with those of log 20, DESIGN CHOICE: the sender's transfer, its kind, its length and the chunk's offset. -/
structure ChunkFields where
  tag : Nat
  cseq : Nat
  step : Nat
  last : Bool
  coll : Nat
  rank : Nat
  dstTile : Nat
  orderFree : Bool
  chunk : Nat
  xfer : Nat
  kind : Nat
  length : Nat
  off : Nat

/-- The fields of a packet. -/
def ChunkFields.of (p : Packet) : ChunkFields :=
  let a := p.t18.toNat
  let b := p.t1c.toNat
  { tag := p.t14.toNat, cseq := bitsOf a 0 24, step := bitsOf a 24 7, last := bitOf a 31, coll := bitsOf b 0 12, rank := bitsOf b 12 11,
    dstTile := bitsOf b 23 8, orderFree := bitOf b 31, chunk := p.flow % 32768, xfer := p.aux.getD 0 0, kind := p.aux.getD 1 0,
    length := p.aux.getD 2 0, off := p.aux.getD 3 0 }

/-- The launch armed or running here with a launch key (R317). -/
def State.launchOf (s : State) (tag cseq : Nat) : Option Item :=
  s.items.find? (fun i => (i.phase == .armed || i.phase == .running) && (i.launch.map Launch.key) == some (tag, cseq))

/-- The kept aborted key of a chunk (R328). -/
def State.keptKey (s : State) (tag cseq : Nat) : Option AbortedKey :=
  s.abortedKeys.find? (fun k => k.tag == tag && k.cseq == cseq && s.tally < k.since + s.collTimeout)

/-- A chunk is noted as received; the Bool says that its transfer is now held whole (R319). -/
def Landing.note (l : Landing) (f : ChunkFields) (tally : Nat) : Landing × Bool :=
  let l := { l with
    seen := if l.seen.contains (f.rank, f.xfer, f.chunk) then l.seen else (f.rank, f.xfer, f.chunk) :: l.seen,
    lasts := if f.last then (f.rank, f.xfer, f.chunk) :: l.lasts else l.lasts,
    firstAt := if l.firstAt.any (fun e => e.1 == f.rank && e.2.1 == f.xfer) then l.firstAt else l.firstAt ++ [(f.rank, f.xfer, tally)] }
  match l.lasts.find? (fun e => e.1 == f.rank && e.2.1 == f.xfer) with
  | some e => (l, (List.range (e.2.2 + 1)).all (fun c => l.seen.contains (f.rank, f.xfer, c)))
  | none => (l, false)

/-- The transfer of a chunk is acknowledged: `CHUNK` is its chunk count (R319, R320). -/
def State.acknowledgeTransfer (s : State) (p : Packet) (l : Landing) (f : ChunkFields) : State :=
  let n := ((l.seen.filter (fun e => e.1 == f.rank && e.2.1 == f.xfer)).length)
  (s.setLanding { l with acked := l.acked ++ [(f.rank, f.xfer)],
                         seen := if l.accs.isEmpty && l.held.isEmpty then l.seen.filter (fun e => !(e.1 == f.rank && e.2.1 == f.xfer)) else l.seen,
                         lasts := l.lasts.filter (fun e => !(e.1 == f.rank && e.2.1 == f.xfer)) }).reply p 1 0 n

/-- One row of a chunk of a copy: it is written at the place its entry fixes, and its mark with it (R182, R183, R322, R329). `evs`: what its landing signals. -/
def State.copyRow (s : State) (t p : Nat) (k : Packet) (off : Nat) (g : Nat × Nat) (evs : List Nat) : State :=
  let tl := s.tile p
  let s := (s.race t tl.part (if tl.meetsEngine (g.1 / 256) true evs then 1 else 0)).tileEvent p evRow 1
  s.setTile p (((s.tile p).writeAt g.1 ((k.payload.drop (g.1 - off)).take g.2)).markSegs [g] k.poison)

/-- Slots in use of a reservation of an item: chunks held, and accumulators of indices not yet delivered (R324) (log 182, DEDUCED). -/
def State.slotsUsed (s : State) (item ref : Nat) : Nat :=
  (s.landings.filter (fun l => l.item == item && (s.landingInsn l).any (fun i => i.landOp != 0 && i.landRef == ref))).foldl (fun n l =>
    n + l.held.length + l.accs.length) 0

/-- Slots that finishing the chunk indices below `c` of every landing on a reservation may take (R324): one for each contribution still to
come, and one for an accumulator not yet begun. -/
def State.slotsNeeded (s : State) (item ref c : Nat) : Nat :=
  s.landings.foldl (fun n l =>
    match s.landingInsn l with
    | some i =>
      if l.item = item && i.landOp != 0 && i.landRef = ref then
        let ranks := (s.ranksOf item i).length
        ((List.range (min c i.landChunks)).filter (fun j => !l.ready.contains j)).foldl (fun n j =>
          n + (ranks - (l.seen.filter (fun e => e.2.2 == j)).length) + (if l.accs.any (fun a => a.1 == j) then 0 else 1)) n
      else n
    | none => n) 0

/-- The chunk is accepted: a slot is free, and enough remain (R324). -/
def State.slotFree (s : State) (i : Item) (ref c : Nat) : Bool :=
  match (s.launchVariant i).bind (fun v => v.credits[ref]?) with
  | some r => s.slotsUsed i.id ref + 1 + s.slotsNeeded i.id ref c ≤ r.count
  | none => false

/-- A counter of a link advanced: every launch that runs and names the link in its ports has `TDCC` in its notes (R53, R54, R375). -/
def State.linkTdcc (s : State) (k : Nat) : State :=
  (s.items.filter (fun i => i.phase == .running && (s.launchVariant i).any (fun v => v.ports.any (fun p => (s.portLinks p).contains k)))).foldl
    (fun (s : State) i => s.addNote i.id noteTdcc) (s.bump Fld.linkTdccFreeord k 1)

/-- A held chunk is combined (R323): it is added into its index's accumulator, and its slot is released. An order-free one that goes ahead of a lower-ranked
source counts on its link. -/
def State.combine (s : State) (l : Landing) (i : Insn) (h : HeldChunk) : State :=
  let ranks := s.ranksOf l.item i
  let vs := i.landValues h.bytes
  let old := Tab.get [] l.accs h.chunk
  let sums := if old.isEmpty then vs.map (w34AddSat 0) else (old.zip vs).map (fun e => w34AddSat e.1 e.2)
  let combined := (h.srcRank, h.chunk) :: l.combined
  let ahead := ranks.any (fun q => q < h.srcRank && !l.combined.contains (q, h.chunk))
  let s := s.setLanding { l with
    held := l.held.erase h, accs := Tab.set [] l.accs h.chunk (sums.map Prod.fst), accSats := Tab.set [] l.accSats h.chunk (sums.map Prod.snd), combined := combined,
    accPoison := if h.poison && !l.accPoison.contains h.chunk then h.chunk :: l.accPoison else l.accPoison,
    ready := if ranks.all (fun q => combined.contains (q, h.chunk)) then h.chunk :: l.ready else l.ready }
  if h.orderFree && ahead then
    let link := if h.link < 20 then some h.link
      else (((s.item l.item).bind s.launchVariant).bind (fun v => v.credits[i.landRef]?)).bind (fun r => (s.portLinks r.port).head?)
    match link with
    | some k => (s.linkTdcc k).addNote l.item noteTdcc
    | none => s
  else s

/-- A chunk for a combining landing (R323, R324); one that comes before the landing is posted is held unjudged. -/
def State.combineChunk (s : State) (i : Item) (l : Landing) (land : Insn) (link : Nat) (p : Packet) (f : ChunkFields) : State :=
  if l.acked.contains (f.rank, f.xfer) || l.seen.any (fun e => e.1 == f.rank && e.2.2 == f.chunk) then s
  else if !l.posts.isEmpty && s.chunkWrong i.id land f.kind f.length f.rank f.chunk then s.failPart i.id stCollFailed
  else if !(s.setLanding l).slotFree i land.landRef f.chunk then s.reply p 3 0 f.chunk
  else
    let s := s.consumed i.id p.poison
    let h : HeldChunk := ⟨f.rank, f.chunk, p.payload, p.poison, f.orderFree, link, f.kind, f.length⟩
    let n := l.note f s.tally
    let l := { n.1 with held := n.1.held ++ [h] }
    let s := s.setLanding l
    let s := if n.2 then s.acknowledgeTransfer p l f else s
    let l := s.landing l.item l.coll l.step l.tile
    let s := if f.orderFree && !l.posts.isEmpty then s.combine l land h else s
    s.settle l.item l.coll l.step l.tile

/-- A chunk of a copy has been written: it is noted, and its landing may complete (R319, R322). -/
def State.copyWritten (s : State) (i : Item) (l : Landing) (gone : Bool) (p : Packet) (f : ChunkFields) : State :=
  let n := l.note f s.tally
  let s := s.setLanding n.1
  if !n.2 then s
  else
    let s := s.acknowledgeTransfer p n.1 f
    if gone then s.failPart i.id stCollFailed else s.settle l.item l.coll l.step l.tile

/-- A chunk of a copy landing, or of a transfer that no landing of the stream expects (R322), of which `rows` rows have been written: the next row is written, and the
last one ends the chunk. A tile whose part has not begun refuses it with `BUSY`; one whose part has ended can post no landing any more. -/
def State.copyReceive (s : State) (i : Item) (l : Landing) (bt link rows : Nat) (p : Packet) (f : ChunkFields) (evs : List Nat) : State :=
  if l.acked.contains (f.rank, f.xfer) then s
  else if i.phase != .running then s.reply p 3 0 f.chunk
  else
    let s := s.consumed i.id p.poison
    match s.physOf l.tile with
    | none => s.copyWritten i l (!(i.launch.any (fun x => x.tiles.contains bt))) p f
    | some q =>
      if (s.tile q).itemId != some i.id then s.copyWritten i l (!(i.launch.any (fun x => x.tiles.contains bt))) p f
      else
        let gs := rowPieces (f.off, p.payload.length)
        let v := match gs[rows]? with
          | some g => s.copyRow l.tile q p f.off g evs
          | none => s
        if rows + 1 < gs.length then { v with arriving := v.arriving ++ [⟨l.tile, link, p, f.off, rows + 1, evs⟩] }
        else v.copyWritten i l false p f

/-- A chunk whose launch is armed here (R317). -/
def State.chunkFor (s : State) (i : Item) (b : Board) (link rows : Nat) (p : Packet) (f : ChunkFields) : State :=
  if b.chips[f.rank]? != some p.src || b.footRows * b.footCols ≤ f.dstTile then s.bump Fld.collStatForeign i.fn 1
  else
    let l := s.landing i.id f.coll f.step (b.logical f.dstTile)
    match s.landingInsn l with
    | some land => if land.landOp = 0 then s.copyReceive i l f.dstTile link rows p f land.landSignals else s.combineChunk i l land link p f
    | none => s.copyReceive i l f.dstTile link rows p f []

/-- The logical tile that a chunk is for, when its launch is armed here. -/
def State.chunkTile (s : State) (p : Packet) : Option Nat :=
  let f := ChunkFields.of p
  ((s.launchOf f.tag f.cseq).bind s.launchBoard).map (fun b => b.logical f.dstTile)

/-- A tile can take a row of a chunk: traffic for a tile in a carry waits by handshake (R387). -/
def State.tileTakes (s : State) (t : Nat) : Bool :=
  match s.physOf t with
  | some q => s.tileLive t q
  | none => true

/-- A chunk can be taken: its tile takes it, and no other is being written there. -/
def State.chunkReady (s : State) (p : Packet) : Bool :=
  match s.chunkTile p with
  | some t => s.tileTakes t && !s.arriving.any (fun a => a.tile == t)
  | none => true

/-- A chunk, or the next row of one, takes effect (R317, R318, R320-R324, R328, R329). -/
def State.chunkCome (s : State) (link rows : Nat) (p : Packet) : State :=
  let f := ChunkFields.of p
  match s.launchOf f.tag f.cseq with
  | some i => (match s.launchBoard i with
    | some b => s.chunkFor i b link rows p f
    | none => s)
  | none => (match s.keptKey f.tag f.cseq with
    | some k => s.reply p 5 k.status 0
    | none => s.reply p 3 0 f.chunk)

/-- `CHUNK_RECEIVE` (R172, R182, R317, R318, R320-R324, R328, R329, R425): the next row of a chunk that is being written, else the first chunk delivered here that can be
taken. In P1 and P2 it wakes the device, and is answered `BUSY` meanwhile. -/
def execChunkReceive (s : State) : Out State :=
  match s.arriving.find? (fun a => s.tileTakes a.tile) with
  | some a => .next (State.chunkCome { s with arriving := s.arriving.erase a } a.link a.rows a.packet)
  | none =>
    match takeFirst s.inbound (fun p => p.kind == .chunk && s.chunkReady p) with
    | none => .next s
    | some (e, rest) =>
      let s := ({ s with inbound := rest }).startWake
      let p := e.2
      let f := ChunkFields.of p
      let fn := (s.launchOf f.tag f.cseq).map (fun (i : Item) => i.fn)
      let s := if e.1 < 20 then s.event (fn.getD baseContext) evFlit noRegion p.flits else s
      .next (if !p.crcOk then (s.bump Fld.collStatNaks (fn.getD p.tenant) 1).reply p 2 0 f.chunk else s.chunkCome e.1 0 p)

/-- `LANDING_COMBINE` (R323, R324, R329): a held chunk of a posted landing is combined once every lower-ranked source's chunk of its index is, or at
any moment when its `ORDER_FREE` bit is 1; the landing completes when it can. -/
def execLandingCombine (t op srcRank chunk : Nat) (s : State) : Out State :=
  onTile t s fun _ tl =>
    match tl.op op, s.landings.find? (fun l => l.tile == t && (l.posts.map Prod.fst).head? == some op) with
    | some x, some l =>
      let ranks := s.ranksOf l.item x.insn
      let due (h : HeldChunk) : Bool := h.srcRank == srcRank && h.chunk == chunk &&
        (h.orderFree || ranks.all (fun q => srcRank ≤ q || l.combined.contains (q, chunk)))
      .next ((match l.held.find? due with
        | some h => s.combine l x.insn h
        | none => s).settle l.item l.coll l.step t)
    | _, _ => .next s

/-! ## Replies (R318-R320, R327, R328, R334) -/

/-- The packet is a reply of a type. -/
def isReply (p : Packet) (type : Nat) : Bool := p.kind == .reply && leAt p.payload 0 1 == type

/-- `CHUNK` of a reply. -/
def replyChunk (p : Packet) : Nat := leAt p.payload 4 4

/-- A transfer of this chip sent the chunk with a header's TRAFFIC and FLOW to a peer (R316, R320, R333). -/
def State.sentChunk (s : State) (peer flow t14 t18 t1c : Nat) (x : Transfer) : Bool :=
  let c := flow % 32768
  x.dstChip == peer && (32768 ≤ flow) == (x.route.kind == 3) && c < x.nextChunk &&
    (match (s.item x.item).bind (fun i => i.launch.bind (fun l => (s.launchBoard i).map (fun b => (l.key, b.rank)))) with
    | some (k, rank) => x.t14 k.1 == t14 && x.t18 k.2 c % 2 ^ 32 == t18 && x.t1c rank c == t1c
    | none => false)

/-- The transfer that a reply or a notice names: it sent the chunk that the header describes, and it is the one that the chunk's own fields number, when
they do (R320, R310) (log 20, DESIGN CHOICE). -/
def State.transferOf (s : State) (peer flow t14 t18 t1c : Nat) (id : Option Nat) : Option Transfer :=
  s.transfers.find? (fun x => s.sentChunk peer flow t14 t18 t1c x && id.all (fun n => x.id == n))

/-- The transfer that a reply answers. -/
def State.answered (s : State) (p : Packet) : Option Transfer := s.transferOf p.src p.flow p.t14.toNat p.t18.toNat p.t1c.toNat p.aux[1]?

/-- A reply answers a forwarded inbox write (R287), and not a chunk. -/
def isForwardReply (p : Packet) : Bool := p.aux.getD 0 0 == PktKind.num .inboxWrite

/-- The reply can be acted on: the `RSEND` that it completes can complete now. -/
def State.answerReady (s : State) (p : Packet) : Bool :=
  match s.answered p with
  | some x => s.opRoom x.tile x.op
  | none => true

/-- `ACK` (R319): the `RSEND` completes and signals. An answer to a forwarded inbox write counts down (R287). -/
def execAck (s : State) : Out State :=
  match takeFirst s.inbound (fun p => isReply p 1 && (isForwardReply p || s.answerReady p)) with
  | none => .next s
  | some (e, rest) =>
    let s := { s with inbound := rest }
    .next (if isForwardReply e.2 then s.forwardAnswered (e.2.aux.getD 1 0)
      else match s.answered e.2 with
        | some x => s.endTransfer x
        | none => s)

/-- `COLL_CTL.NAK_LIMIT`; 0 is treated as 1 (R336). -/
def State.nakLimit (s : State) : Nat := max 1 (s.fld Fld.collCtlNakLimit 0)

/-- A chunk is to be sent again. -/
def State.resendChunk (s : State) (id c : Nat) : State := (s.modTransfer id (fun x => { x with resend := x.resend ++ [c] })).pumpOne id

/-- `NAK` (R318, R327): the chunk is sent again, or the transfer fails at `NAK_LIMIT`. -/
def execNak (s : State) : Out State :=
  match takeFirst s.inbound (fun p => isReply p 2) with
  | none => .next s
  | some (e, rest) =>
    let s := { s with inbound := rest }
    .next (match s.answered e.2 with
      | none => s
      | some x =>
        let c := replyChunk e.2
        let n := Tab.get 0 x.naks c + 1
        let s := s.modTransfer x.id (fun x => { x with naks := Tab.set 0 x.naks c n })
        if s.nakLimit ≤ n then s.failPart x.item stCollFailed else s.resendChunk x.id c)

/-- `BUSY` (R320): the reply counts, and the chunk is sent again `BACKOFF` µs later. -/
def execBusy (s : State) : Out State :=
  match takeFirst s.inbound (fun p => isReply p 3) with
  | none => .next s
  | some (e, rest) =>
    let s := ({ s with inbound := rest }).bump Fld.collStatBusy e.2.tenant 1
    .next (match s.answered e.2 with
      | none => s
      | some x =>
        let c := replyChunk e.2
        let due := s.tally + 1000 * max 1 (s.fld Fld.collCtlBackoff 0)
        s.modTransfer x.id (fun x => { x with naks := Tab.set 0 x.naks c 0, backoff := x.backoff ++ [(c, due)] }))

/-- `CHUNK_BACKOFF_EXPIRY` (R320): a refused chunk is sent again. -/
def execChunkBackoffExpiry (transfer chunk : Nat) (s : State) : Out State :=
  match s.transfer transfer with
  | none => .next s
  | some x =>
    match x.backoff.find? (fun b => b.1 == chunk && b.2 ≤ s.tally) with
    | none => .next s
    | some b => .next ((s.modTransfer transfer (fun x => { x with backoff := x.backoff.erase b })).resendChunk transfer chunk)

/-- `REJECT` (R334, R287): each rejected chunk counts, the `RSEND` completes, and the item will carry `REJECTED_STALE_WINDOW` (log 167, DEDUCED). -/
def execReject (s : State) : Out State :=
  match takeFirst s.inbound (fun p => isReply p 4 && (isForwardReply p || s.answerReady p)) with
  | none => .next s
  | some (e, rest) =>
    let s := { s with inbound := rest }
    .next (if isForwardReply e.2 then (s.addStatus (e.2.aux.getD 1 0) stStaleWindow).forwardAnswered (e.2.aux.getD 1 0)
      else
        let v := s.bump Fld.collStatRejects e.2.tenant 1
        match v.answered e.2 with
        | some x => (v.addStatus x.item stStaleWindow).endTransfer x
        | none => v)

/-- `ABORT` (R327, R328): the launch part with the key fails. A key with no launch armed here is kept, so that a launch that arms with it fails at once. -/
def execAbort (s : State) : Out State :=
  match takeFirst s.inbound (fun p => isReply p 5) with
  | none => .next s
  | some (e, rest) =>
    let s := { s with inbound := rest }
    let tag := e.2.t14.toNat
    let cseq := e.2.t18.toNat % 2 ^ 24
    .next (match s.launchOf tag cseq with
      | some i => (s.modItem i.id (fun i => { i with abortChip := some e.2.src })).failPart i.id stCollFailed
      | none =>
        if (s.keptKey tag cseq).isSome then s
        else
          let key : AbortedKey := ⟨tag, cseq, stCollFailed, s.tally, some e.2.src⟩
          { s with abortedKeys := (s.abortedKeys ++ [key]).drop (s.abortedKeys.length + 1 - 64) })

/-- `UNREACHABLE_NOTICE_RECEIVE` (R310, R327, R287): the traffic whose packet was dropped fails. -/
def execUnreachableNoticeReceive (s : State) : Out State :=
  match takeFirst s.inbound (fun p => p.kind == .notice) with
  | none => .next s
  | some (e, rest) =>
    let s := { s with inbound := rest }
    let h := e.2.payload
    let kind := e.2.aux.getD 0 9
    .next (if kind = 4 then s.stopForward (e.2.aux.getD 1 0)
      else if kind ≤ 1 then
        (match s.transferOf (leAt h 0 2 % 2048) (leAt h 0xC 2) (leAt h 0x14 4) (leAt h 0x18 4) (leAt h 0x1C 4) e.2.aux[1]? with
        | some x => s.failPart x.item stUnreachable
        | none => s)
      else s)

/-! ## Timeouts (R327, R328) -/

/-- `COLLECTIVE_TIMEOUT` (R327): a transfer of the item that is not acknowledged, or a landing that is not complete, in time. -/
def execCollectiveTimeout (item : Nat) (s : State) : Out State :=
  let late (c : Nat) : Bool := c + s.collTimeout ≤ s.tally
  whenever (s.transfers.any (fun x => x.item == item && x.since.any late) || s.landings.any (fun l => l.item == item && l.posts.any (fun x => late x.2))) s
    (s.failPart item stCollFailed)

/-- `ABORTED_KEY_EXPIRY` (R328). -/
def execAbortedKeyExpiry (s : State) : Out State :=
  .next { s with abortedKeys := s.abortedKeys.filter (fun k => s.tally < k.since + s.collTimeout) }

end Sys2Proof.Machine
end

