-- ==== Sys2Proof/Machine/Windows.lean ====
section
/-! DEFINITION. Remote windows (R331-R334): the window commands and the receipt of window chunks. -/

namespace Sys2Proof.Machine

/-! ## Window chunks (R333, R334) -/

/-- The reason for which a window chunk is rejected, if any (R320, R334) (log 82, DEDUCED). -/
def State.windowReject (s : State) (w gen src off len : Nat) : Option Nat :=
  match Tab.get none s.windows w with
  | none => some 1
  | some x =>
    if s.fld Fld.winStatGen w != gen then some 2
    else if x.size < off + len then some 3
    else if src < x.peerLo || x.peerHi < src then some 4
    else none

/-- The record of a window write on its way in: the chunks of one transfer of one sender (R319) (log 20, DESIGN CHOICE). -/
def State.windowIn (s : State) (src w gen bt xfer start : Nat) : WindowIn :=
  let k : WindowIn := { src := src, window := w, wgen := gen, boardTile := bt, xfer := xfer, start := start, seen := [], last := none }
  (s.windowIns.find? (fun x => { x with seen := [], last := none } == k)).getD k

/-- A record removed. -/
def State.dropWindowIn (s : State) (r : WindowIn) : State :=
  { s with windowIns := s.windowIns.filter (fun (x : WindowIn) => { x with seen := [], last := none } != { r with seen := [], last := none }) }

/-- A record replaced. -/
def State.setWindowIn (s : State) (r : WindowIn) : State := let s := s.dropWindowIn r; { s with windowIns := s.windowIns ++ [r] }

/-- The tenant of a window, while it is open; otherwise the one the packet names. -/
def State.windowTenant (s : State) (w tenant : Nat) : Nat :=
  if s.flag Fld.winStatOpen w then s.fld Fld.winStatTenant w else tenant

/-- A window chunk that passed its checks is written (R80, R329, R334); its transfer is acknowledged when it is held whole (R319). -/
def State.windowAccept (s : State) (p : Packet) (w gen bt off c : Nat) (last : Bool) : State :=
  let base := ((Tab.get none s.windows w).map (·.base)).getD 0
  let s := (s.protectedWrite (s.windowTenant w p.tenant) (base + off) p.payload p.poison).addFld Fld.winStatArrived w p.payload.length
  let r := s.windowIn p.src w gen bt (p.aux.getD 0 0) ((off + 2 ^ 32 - 992 * c) % 2 ^ 32)
  let r := { r with seen := if r.seen.contains c then r.seen else c :: r.seen, last := if last then some c else r.last }
  match r.last with
  | some k =>
    if (List.range (k + 1)).all r.seen.contains then (s.dropWindowIn r).reply p 1 0 (k + 1) else s.setWindowIn r
  | none => s.setWindowIn r

/-- `WINDOW_CHUNK_RECEIVE` (R318, R334, R425): the first window chunk delivered here; it wakes the device. -/
def execWindowChunkReceive (s : State) : Out State :=
  match takeFirst s.inbound (fun p => p.kind == .window) with
  | none => .next s
  | some (e, rest) =>
    s.accepting <| onAwake s fun s =>
    let s := { s with inbound := rest }
    let p := e.2
    let w := bitsOf p.t14.toNat 0 10
    let gen := bitsOf p.t14.toNat 16 16
    let off := p.t18.toNat
    let bt := bitsOf p.t1c.toNat 0 8
    let c := p.flow % 32768
    if !p.crcOk then (s.bump Fld.collStatNaks (s.windowTenant w p.tenant) 1).reply p 2 0 c
    else match s.windowReject w gen p.src off p.payload.length with
      | some why =>
        ((s.bump Fld.winStatRejected w 1).dropWindowIn (s.windowIn p.src w gen bt (p.aux.getD 0 0) ((off + 2 ^ 32 - 992 * c) % 2 ^ 32))).reply p 4 why 0
      | none => s.windowAccept p w gen bt off c (bitOf p.t1c.toNat 8)

/-! ## Window commands (R331, R332) -/

def wcOpen : Nat := 0x01
def wcClose : Nat := 0x02
def wcRefSet : Nat := 0x10
def wcRefClear : Nat := 0x11

/-- The commands of R331. -/
def windowOps : List Nat := [wcOpen, wcClose, wcRefSet, wcRefClear]

/-- A window command as its entry gives it. -/
structure WindowCmd where
  op : Nat
  index : Nat
  gen : Nat
  peer : Nat
  addr : Nat
  size : Nat
  peerLo : Nat
  peerHi : Nat
  clean : Bool

/-- The fields of an entry. -/
def WindowCmd.ofEntry (b : List Byte) : WindowCmd :=
  { op := leAt b 0 1, index := leAt b 2 2, gen := leAt b 4 2, peer := leAt b 6 2, addr := leAt b 8 8, size := leAt b 0x10 4,
    peerLo := leAt b 0x14 2, peerHi := leAt b 0x16 2, clean := zeroBytes b 0x18 8 }

/-- Refusal 0x03 (R331). -/
def WindowCmd.bad (c : WindowCmd) : Bool :=
  !windowOps.contains c.op || !c.clean || (c.op != wcOpen && c.size != 0) || (c.op != wcRefSet && c.peer != 0) ||
    (if c.op = wcOpen then 1023 < c.index || c.addr % 64 != 0 || c.size % 64 != 0 || c.size = 0
     else if c.op = wcClose then 1023 < c.index
     else if c.op = wcRefSet then 255 < c.index || 2047 < c.peer || 1023 < c.addr
     else 255 < c.index)

/-- `WINDOW_CMD` (R331): the list begins. -/
def execWindowCmd (fn ring : Nat) (s : State) : Out State :=
  onEvent3 fn ring (· == tyWindowCmd) (fun _ _ _ => true) s fun s i d => s.startList i.id d

/-- What a window command waits for: unchecked launches and window lists ahead of it (R88, R331). -/
def Item.beforeWindows (j : Item) : Bool := j.waitsCheck || (j.list.isSome && j.type == tyWindowCmd)

/-- A window command of the next entry: the further refusals follow 0x03. -/
def onWindow (op item : Nat) (s : State) (needs : State → Item → WindowCmd → List (Bool × Nat))
    (k : State → Item → ListRun → WindowCmd → State) : Out State :=
  onEntry tyWindowCmd op windowOps Item.beforeWindows item s fun s i l b =>
    let c := WindowCmd.ofEntry b
    if c.bad then s.listResult i l 0x03 []
    else match firstRefusal (needs s i c) with
      | some code => s.listResult i l code []
      | none => k s i l c

/-- A window is granted to an item's tenant. -/
def State.windowGranted (s : State) (i : Item) (w : Nat) : Bool :=
  let g := s.grantOf i
  g.winEn && g.winLo ≤ w && w ≤ g.winHi

/-- The window is open. -/
def State.windowOpen (s : State) (w : Nat) : Bool := (Tab.get none s.windows w).isSome

/-- `WOPEN` (R332): the generation goes from 1 to 65,535 and wraps past 0. -/
def execWopen (item : Nat) (s : State) : Out State :=
  onWindow wcOpen item s
    (fun s i c => [(!s.windowGranted i c.index || !(s.grantOf i).own c.addr c.size, 0x01), (s.windowOpen c.index, 0x04)]) fun s i l c =>
    let w := c.index
    let gen := s.fld Fld.winStatGen w % 65535 + 1
    let s := { s with windows := Tab.set none s.windows w (some { base := c.addr, size := c.size, peerLo := c.peerLo, peerHi := c.peerHi }) }
    let s := ((s.setFld Fld.winStatGen w gen).setFlag Fld.winStatOpen w true).setFld Fld.winStatTenant w i.fn
    (s.setFld Fld.winStatArrived w 0).listResult i l 0 [(4, leBytes 2 gen)]

/-- A loaded board binds the window as a kind-4 region (R72, R332). -/
def State.windowBusy (s : State) (w : Nat) : Bool :=
  s.boards.any (fun e => match e.2 with
    | some b => b.regions.any (fun r => r.kind == 4 && r.base % 65536 == w)
    | none => false)

/-- A window closes: it accepts no write any more. -/
def State.closeWindow (s : State) (w : Nat) : State :=
  { s with windows := Tab.set none s.windows w none,
           windowIns := s.windowIns.filter (fun x => x.window != w) }.setFlag Fld.winStatOpen w false

/-- `WCLOSE` (R332). Every accepted write is visible at once (log 83, DEDUCED). -/
def execWclose (item : Nat) (s : State) : Out State :=
  onWindow wcClose item s
    (fun s i c => [(s.windowOpen c.index && s.fld Fld.winStatTenant c.index != i.fn || !s.windowOpen c.index && !s.windowGranted i c.index, 0x01),
                   (!s.windowOpen c.index, 0x04), (s.windowBusy c.index, 0x02)]) fun s i l c =>
    (s.closeWindow c.index).listResult i l 0 []

/-- A peer reference set or cleared. -/
def State.setPeerRef (s : State) (fn n : Nat) (r : Option PeerRef) : State :=
  { s with peerRefs := Tab.set none s.peerRefs (256 * fn + n) r }

/-- `WREF_SET` (R332). -/
def execWrefSet (item : Nat) (s : State) : Out State :=
  onWindow wcRefSet item s (fun _ _ _ => []) fun s i l c =>
    (s.setPeerRef i.fn c.index (some { gen := c.gen, peer := c.peer, window := c.addr })).listResult i l 0 []

/-- `WREF_CLEAR` (R332). -/
def execWrefClear (item : Nat) (s : State) : Out State :=
  onWindow wcRefClear item s (fun _ _ _ => []) fun s i l c => (s.setPeerRef i.fn c.index none).listResult i l 0 []

end Sys2Proof.Machine
end

