-- ==== Sys2Proof/Machine/Host.lean ====
section
/-! DEFINITION. Host attachment (R338-R348, R351-R353, R380): host windows, the CXL.mem window, grants, function enables, resets, and the end of a
function disable. -/

namespace Sys2Proof.Machine

/-! ## Host windows (R339, R340) -/

/-- `HWIN_SET_LOCK` (R339, R450): the fields that the access carries take effect, and the window locks; a locked window does not change (log 94, DEDUCED). -/
def execHwinSetLock (a : Agent) (w : Nat) (value : BitVec 113) (s : State) : Out State :=
  onUnit (a.wf && w < 256) "window" <|
  onAccess (.hwinSetLock a w value) s (fun s => onHostPf a (0x1400000 + 16 * w) s fun s =>
    if s.flag Fld.hwinLock w then s
    else
      let v := value.toNat
      let s := ((s.setFld Fld.hwinBase w v).setFld Fld.hwinSize w (v / 2 ^ 64)).setFld Fld.hwinTenant w (v / 2 ^ 104)
      let s := ((s.setFld Fld.hwinRead w (v / 2 ^ 110)).setFld Fld.hwinWrite w (v / 2 ^ 111)).setFld Fld.hwinEnable w (v / 2 ^ 112)
      s.setFlag Fld.hwinLock w true)

/-! ## The CXL.mem window (R342, R343) -/

/-- GiB in the window: `SEGS`, at most 64. -/
def State.segs (s : State) : Nat := min 64 (s.fld Fld.cxmCtlSegs 0)

/-- The device address of a window offset. -/
def State.segAddr (s : State) (o : Nat) : Nat := 65536 * s.fld Fld.cxmSegDbase (o / 2 ^ 30) + o % 2 ^ 30

/-- The address range lies inside the grant of the segment's tenant: an own range, or for tenant 0 also a shared range. -/
def State.segGranted (s : State) (o n : Nat) : Bool :=
  let t := s.fld Fld.cxmSegTenant (o / 2 ^ 30)
  s.ownRange t (s.segAddr o) n || (t == 0 && s.sharedRange 0 (s.segAddr o) n)

/-- A request is served: the segment is enabled (and, for a write, permits it), and the address lies in the grant or at or above `MEM_TOP`, where R252
answers it (log 96, DEDUCED). -/
def State.segServes (s : State) (o n : Nat) (write : Bool) : Bool :=
  s.flag Fld.cxmSegEnable (o / 2 ^ 30) && (!write || s.flag Fld.cxmSegWrite (o / 2 ^ 30)) && (s.memTop ≤ s.segAddr o || s.segGranted o n)

/-- The whole access lies in the window, over a link that is up (log 97, DEDUCED). -/
def State.inWindow (s : State) (o n : Nat) : Bool := s.fns.linkUp && n != 0 && o + n ≤ s.segs * 2 ^ 30

/-- One request of a read, which lies in one 64-byte line: bytes and mark. -/
def State.cxlReadLine (s : State) (o n : Nat) : List Byte × Bool × State :=
  if s.segServes o n false then s.takeFor baseContext (s.segAddr o) n
  else (List.replicate n 0, false, s.bump Fld.cxmErrZeroreads 0 1)

/-- An access over CXL.mem has come through the HDM decoder: the host has programmed it with the size of the window (R342). No row of the table programs it (log 206, DESIGN CHOICE,
DESIGN CHOICE). -/
def State.decoderUsed (s : State) : State := { s with fns := { s.fns with hdm := some (s.fld Fld.cxmCtlSegs 0) } }

/-- A read over CXL.mem: each 64-byte line that the access touches is one request. -/
def State.cxlRead (s : State) (offset len : Nat) : State :=
  let s := s.decoderUsed.event baseContext evCxl noRegion (cwSplit offset len).length
  let r := (cwSplit offset len).foldl (fun (acc : List Byte × Bool × State) p =>
    let x := acc.2.2.cxlReadLine (p.1 + p.2.1) p.2.2
    (acc.1 ++ x.1, acc.2.1 || x.2.1, x.2.2)) ([], false, s)
  { r.2.2 with outs := { r.2.2.outs with cxlData := r.1, cxlPoison := r.2.1 } }

/-- `CXL_MEM_READ` (R252, R342, R343, R425). -/
def execCxlMemRead (offset len : Nat) (s : State) : Out State :=
  if !s.inWindow offset len then .next s
  else s.accepting <| onAccess (.cxlMemRead offset len) s fun s => s.cxlRead offset len

/-- A write that lands in an inbox opened on CXL.mem counts in its `RECEIVED` (R286). -/
def State.inboxSees (s : State) (a n : Nat) : State :=
  (List.range 8).foldl (fun s k =>
    match Tab.get none s.inboxes k with
    | some x =>
      if x.port = 255 && !s.flag Fld.inboxStatBroken k && overlaps a n x.base x.size then
        s.inboxWritten k (max a x.base - x.base) (min (a + n) (x.base + x.size) - max a x.base)
      else s
    | none => s) s

/-- One request of a write, which lies in one 64-byte line. A write that R80, R252 or R263 discards never becomes visible, and counts in no inbox. -/
def State.cxlWriteLine (s : State) (o : Nat) (bytes : List Byte) (poison : Bool) : State :=
  if !s.segServes o bytes.length true then s.bump Fld.cxmErrDropped 0 1
  else
    let a := s.segAddr o
    let v := s.protectedWrite baseContext a bytes poison
    if (s.protects a bytes.length).isNone && s.holds a then v.inboxSees a bytes.length else v

/-- A write over CXL.mem, line by line. -/
def State.cxlWrite (s : State) (offset : Nat) (bytes : List Byte) (poison : Bool) : State :=
  (cwSplit offset bytes.length).foldl (fun (s : State) p =>
    s.cxlWriteLine (p.1 + p.2.1) ((bytes.drop (p.1 + p.2.1 - offset)).take p.2.2) poison)
    (s.decoderUsed.event baseContext evCxl noRegion (cwSplit offset bytes.length).length)

/-- `CXL_MEM_WRITE` (R80, R252, R286, R337, R342, R343, R425): a host write, or a peer's, with its poison. -/
def execCxlMemWrite (offset : Nat) (bytes : List Byte) (poison : Bool) (s : State) : Out State :=
  if !s.inWindow offset bytes.length then .next s
  else s.accepting <| onAccess (.cxlMemWrite offset bytes poison) s fun s => s.cxlWrite offset bytes poison

/-! ## Grants (R346-R348) -/

/-- The staged grant of a context. -/
def State.staged (s : State) (t : Nat) : Grant :=
  { row0 := s.fld Fld.grantTilesRow0 t, col0 := s.fld Fld.grantTilesCol0 t, rows := s.fld Fld.grantTilesRows t, cols := s.fld Fld.grantTilesCols t,
    mem := ((List.range 8).filter (fun k => s.flag Fld.grantMemValid (8 * t + k))).map (fun k =>
      (k, s.fld Fld.grantMemBase (8 * t + k), s.fld Fld.grantMemSize (8 * t + k), s.flag Fld.grantMemShared (8 * t + k))),
    ports := s.fld Fld.grantResPorts t, slots := s.fld Fld.grantResSlots t, inboxes := s.fld Fld.grantResInboxes t,
    winLo := s.fld Fld.grantResWinLo t, winHi := s.fld Fld.grantResWinHi t, winEn := s.flag Fld.grantResWinEn t,
    credits := ((List.range 20).map (fun p => (p, s.fld Fld.grantCreditClaspTx (20 * t + p), s.fld Fld.grantCreditBulkTx (20 * t + p),
      s.fld Fld.grantCreditPool1 (20 * t + p), s.fld Fld.grantCreditPool2 (20 * t + p)))).filter (fun e => e.2 != (0, 0, 0, 0)) }

/-- The grant gives tiles. -/
def Grant.hasTiles (g : Grant) : Bool := g.rows != 0 && g.cols != 0

/-- Two rectangles meet. -/
def Grant.tilesMeet (g h : Grant) : Bool :=
  g.hasTiles && h.hasTiles && overlaps g.row0 g.rows h.row0 h.rows && overlaps g.col0 g.cols h.col0 h.cols

/-- The own and the shared ranges of a grant: (base, size). -/
def Grant.owns (g : Grant) : List (Nat × Nat) := (g.mem.filter (fun e => !e.2.2.2)).map (fun e => (e.2.1, e.2.2.1))
def Grant.shares (g : Grant) : List (Nat × Nat) := (g.mem.filter (fun e => e.2.2.2)).map (fun e => (e.2.1, e.2.2.1))

/-- The windows `WIN_LO` to `WIN_HI` of two grants meet. -/
def Grant.windowsMeet (g h : Grant) : Bool :=
  g.winEn && h.winEn && g.winLo ≤ g.winHi && h.winLo ≤ h.winHi && g.winLo ≤ h.winHi && h.winLo ≤ g.winHi

/-- Two masks have a bit in common. -/
def masksMeet (a b : Nat) : Bool := a &&& b != 0

/-- The other tenants' grants, with what each keeps while its narrowing is pending. -/
def State.otherGrants (s : State) (t : Nat) : List Grant :=
  ((List.range 64).filter (· != t)).flatMap (fun u => [s.grant u, s.keptGrant u])

/-- The capacity of a port's pool (R303, R325): pool 0 CLASP and BULK, pools 1 and 2. -/
def State.portCapacity (s : State) (p pool vc : Nat) : Nat :=
  let n := if s.portValid p then (s.portLinks p).length else 0
  n * (if pool = 0 then (if vc = 0 then 32 else 160) else if pool = 1 then 64 else 128)

/-- Rule 5 of R347: on every port and pool the shares of all tenants fit. -/
def State.sharesFit (s : State) (t : Nat) (g : Grant) : Bool :=
  (List.range 20).all (fun p => [(0, 0), (0, 1), (1, 0), (2, 0)].all (fun x =>
    let others := (((List.range 64).filter (· != t)).map (fun u => s.shareOf u x.1 p x.2)).foldl (· + ·) 0
    others + g.share x.1 p x.2 ≤ s.portCapacity p x.1 x.2))

/-- The first rule of R347 that a staged grant breaks, or 0. A reserved field cannot be non-zero (R20), so rule 7 is never broken (log 98, DEDUCED). -/
def State.grantCause (s : State) (t : Nat) (g : Grant) : Nat :=
  let others := s.otherGrants t
  if (Tab.get none s.narrowing t).isSome then 8
  else if g.hasTiles && (s.rowsInService < g.row0 + g.rows || 16 < g.col0 + g.cols || others.any g.tilesMeet) then 1
  else if g.mem.any (fun e => e.2.1 % 65536 != 0 || e.2.2.1 % 65536 != 0 || s.memTop < e.2.1 + e.2.2.1) then 2
  else if !spansApart g.owns || g.owns.any (fun a => others.any (fun h => h.owns.any (fun b => overlaps a.1 a.2 b.1 b.2))) then 3
  else if !g.shares.isEmpty && (t == 0 || g.shares.any (fun a => !((s.grant 0).own a.1 a.2 || (s.keptGrant 0).own a.1 a.2))) then 4
  else if !s.sharesFit t g then 5
  else if others.any (fun h => masksMeet g.slots h.slots || masksMeet g.inboxes h.inboxes || g.windowsMeet h) then 6
  else 0

/-- Every item of `old` is in `g` in full. -/
def Grant.includes (g old : Grant) : Bool :=
  (!old.hasTiles || (within old.row0 old.rows g.row0 g.rows && within old.col0 old.cols g.col0 g.cols)) &&
  old.owns.all (fun a => g.own a.1 a.2) && old.shares.all (fun a => g.shares.any (fun b => within a.1 a.2 b.1 b.2)) &&
  old.ports &&& g.ports == old.ports && old.slots &&& g.slots == old.slots && old.inboxes &&& g.inboxes == old.inboxes &&
  (!(old.winEn && old.winLo ≤ old.winHi) || (g.winEn && g.winLo ≤ old.winLo && old.winHi ≤ g.winHi)) &&
  old.credits.all (fun e => e.2.1 ≤ g.share 0 e.1 0 && e.2.2.1 ≤ g.share 0 e.1 1 && e.2.2.2.1 ≤ g.share 1 e.1 0 && e.2.2.2.2 ≤ g.share 2 e.1 0)

/-- The items of a tenant that have passed their check: event 4 for a launch, event 3 for any other (R348). -/
def State.checkedItems (s : State) (t : Nat) : List Nat :=
  (s.items.filter (fun i => i.fn == t && i.since.isSome && (i.phase != .passed3 || i.launch.isNone))).map (·.id)

/-- The committed grant of a context replaced. -/
def State.setGrant (s : State) (t : Nat) (g : Grant) : State := { s with grants := Tab.set Grant.empty s.grants t g }

/-- `GRANT_COMMIT` (R346-R348, R450): the staged grant is checked and committed; a narrowing stays pending while items checked under the old grant run. -/
def execGrantCommit (a : Agent) (ctx : Nat) (s : State) : Out State :=
  onUnit (a.wf && ctx < 64) "context" <|
  onAccess (.grantCommit a ctx) s (fun s => onHostPf a (0x10001F8 + 0x1000 * ctx) s fun s =>
    let g := s.staged ctx
    let c := s.grantCause ctx g
    if c ≠ 0 then (s.setFlag Fld.grantCtlRefused ctx true).setFld Fld.grantCtlCause ctx c
    else
      let old := s.grant ctx
      let ids := s.checkedItems ctx
      let s := (s.setGrant ctx g).setFlag Fld.grantCtlRefused ctx false
      if Grant.includes g old || ids.isEmpty then s
      else ({ s with narrowing := Tab.set none s.narrowing ctx (some (old, ids)) }).setFlag Fld.grantCtlPending ctx true)

/-! ## Functions (R344) -/

/-- The condition of R344 under which a function's context exists; in RETURNED no virtual function is enabled (R460). -/
def State.shouldEnable (s : State) (fn : Nat) : Bool :=
  s.fns.memSpace && s.fns.linkUp && (fn == 0 || (s.fns.vfEnable && fn ≤ s.fns.numVfs && s.fld Fld.secStatLc 0 != 3))

/-- A disabled function whose condition holds is enabled (R344); a context whose fence lasts reads `FENCED` (R381). -/
def State.enableFn (s : State) (fn : Nat) : State :=
  if s.fnState fn = 0 && s.shouldEnable fn then s.setFld Fld.fnStateState fn (if s.fenced fn then 3 else 1) else s

/-- Every function whose condition holds is enabled. -/
def State.enableAll (s : State) : State := (List.range 64).foldl State.enableFn s

/-- Functions whose condition has gone are disabled: the virtual ones first. -/
def State.disableGone (s : State) : State :=
  (((List.range 63).map (· + 1)) ++ [0]).foldl (fun s f => if s.shouldEnable f then s else s.disable f) s

/-- `NUMVFS_WRITE` (R344): ignored above `TotalVFs` and while VF Enable is set. -/
def execNumvfsWrite (value : Nat) (s : State) : Out State :=
  whenever (value ≤ totalVfs && !s.fns.vfEnable) s ({ s with fns := { s.fns with numVfs := value } }).disableGone

/-- `VF_ENABLE_SET` (R344). -/
def execVfEnableSet (s : State) : Out State := .next ({ s with fns := { s.fns with vfEnable := true } }).enableAll

/-- `VF_ENABLE_CLEAR` (R344). -/
def execVfEnableClear (s : State) : Out State := .next ({ s with fns := { s.fns with vfEnable := false } }).disableGone

/-- `MEMORY_SPACE_ENABLE_SET` (R344). -/
def execMemorySpaceEnableSet (s : State) : Out State := .next ({ s with fns := { s.fns with memSpace := true } }).enableAll

/-- `MEMORY_SPACE_ENABLE_CLEAR` (R344, R353). -/
def execMemorySpaceEnableClear (s : State) : Out State := .next ({ s with fns := { s.fns with memSpace := false } }).disableGone

/-- `BUS_MASTER_ENABLE_CLEAR` (R353): host requests and messages of the function wait. -/
def execBusMasterEnableClear (fn : Nat) (s : State) : Out State :=
  onUnit (fn < 64) "function" <| .next { s with fns := { s.fns with busMaster := Tab.set false s.fns.busMaster fn false } }

/-- `BUS_MASTER_ENABLE_SET` (R351, R353): what waited proceeds; held messages go. -/
def execBusMasterEnableSet (fn : Nat) (s : State) : Out State :=
  onUnit (fn < 64) "function" <| .next (({ s with fns := { s.fns with busMaster := Tab.set false s.fns.busMaster fn true } }).flushHeld fn)

/-! ## Resets (R353) -/

/-- The fields of a register's instances that meet a condition return to their Reset column. -/
def State.clearReg (s : State) (r : Reg) (p : Nat → Bool) : State :=
  { s with regs := s.regs.filter (fun e => !(e.1 / 1024 % 128 == r.ctorIdx && p (e.1 / 131072))) }

/-- The registers of a function page that have one instance for each function. -/
def pageRegs : List Reg := [.fnState, .hostErr, .boardFault, .kvFault, .kvStat, .ingestStat, .collStat, .collStrag, .energyTenant]

/-- The configuration space, function page and MSI-X state of a function return to reset (log 106, DEDUCED). -/
def State.resetPage (s : State) (fn : Nat) : State :=
  let s := pageRegs.foldl (fun (s : State) r => s.clearReg r (· == fn)) s
  let s := (s.clearReg .ringCfg (fun i => i / 64 == fn)).clearReg .msixMod (fun i => i / 2048 == fn)
  { s with fns := { s.fns with
      busMaster := Tab.set false s.fns.busMaster fn false, msixEnable := Tab.set false s.fns.msixEnable fn false,
      msixMask := Tab.set false s.fns.msixMask fn false, vectors := Tab.clear s.fns.vectors (2048 * fn) 2048,
      rings := Tab.clear s.fns.rings (64 * fn) 64 } }

/-- The registers of a grant block, and those of the host attachment, that a reset of the physical function returns to reset. -/
def attachRegs : List Reg :=
  [.grantTiles, .grantMem, .grantRes, .grantCredit, .grantCtl, .fnQuota, .tenantCtl, .hwin, .cxmCtl, .cxmSeg]

/-- The end of a function-level reset of the physical function: every grant block, `HWIN`, `CXM_CTL` and `CXM_SEG` at reset (log 104, DEDUCED). -/
def State.resetAttach (s : State) : State :=
  let s := attachRegs.foldl (fun (s : State) r => s.clearReg r (fun _ => true)) s
  { s with grants := [], narrowing := [], fenceItems := [], fns := { s.fns with pfReset := false } }

/-- Some function's disable is in progress. -/
def State.anyDisabling (s : State) : Bool := (List.range 64).any (fun f => s.fnState f == 2)

/-- A reset of the physical function that no disable holds up any more takes place. -/
def State.settleReset (s : State) : State := if s.fns.pfReset && !s.anyDisabling then s.resetAttach else s

/-- A function-level reset of a function that exists: it is disabled, or its page is reset at once when it is disabled already (log 103, DEDUCED). -/
def State.flr (s : State) (fn : Nat) : State :=
  let s := s.disable fn
  if s.fnState fn = 2 then { s with fns := { s.fns with flr := Tab.set false s.fns.flr fn true } } else s.resetPage fn

/-- `FLR_VF` (R344, R353, R425): of a virtual function that exists. -/
def execFlrVf (n : Nat) (s : State) : Out State :=
  onUnit (1 ≤ n && n < 64) "function" <|
  if !(s.fns.vfEnable && n ≤ s.fns.numVfs) then .next s else onAccess (.flrVf n) s fun s => s.flr n

/-- A function-level reset of the physical function: every virtual function and then the physical one is disabled and reset, the SR-IOV capability and the
command bits with them; the grants and the host attachment follow (R353) (log 100, PRESUMED). -/
def State.flrAll (s : State) : State :=
  let s := (((List.range 63).map (· + 1)) ++ [0]).foldl State.flr s
  ({ s with fns := { s.fns with numVfs := 0, vfEnable := false, memSpace := false, pfReset := true } }).settleReset

/-- `FLR_PF` (R353, R425). -/
def execFlrPf (s : State) : Out State := onAccess .flrPf s State.flrAll

/-- The IDE keys are erased (R443). -/
def State.eraseIde (s : State) : State := { s with sec := { s.sec with ideKeys := [] } }

/-- A CXL Reset (R353, R443): as a function-level reset of the physical function, with the HDM decoder and the IDE keys; the device keeps no other CXL.cache or CXL.mem
state. -/
def State.cxlResetAll (s : State) : State :=
  let s := s.flrAll.eraseIde
  { s with fns := { s.fns with hdm := none } }

/-- `CXL_RESET` (R353). -/
def execCxlReset (s : State) : Out State := onAccess .cxlReset s State.cxlResetAll

/-- A physical channel holds zeros with `POISON` = 0. -/
def State.clearChan (s : State) (c : Nat) : State :=
  { s with mem := Mem.zero s.mem (chanBytes * c) chanBytes, memPoison := Tab.clear s.memPoison (chanCodewords * c) chanCodewords,
           memDamage := Tab.clear s.memDamage (chanCodewords * c) chanCodewords }

/-- Every address of a logical channel is written with zeros and `POISON` = 0: on its channel and on the target of its migration; a poison fill has nothing left to
fill; a fenced slot drops the writes. -/
def State.clearSlot (s : State) (l : Nat) : State :=
  if !s.flag Fld.memChmapBacked l then s
  else if s.flag Fld.memChmapFenced l then s.bump Fld.memErrDropped 0 chanCodewords
  else match s.boundChan l with
    | none => s
    | some c =>
      let s := s.clearChan c
      let s := match s.mirrorOf l with
        | some sp => s.clearChan sp
        | none => s
      match s.fillOf l with
      | some (sp, _) => ({ s with chans := { s.chans with late := s.chans.late.filter (fun w => w.lchan != l) } }).fillDone l sp
      | none => s

/-- Every device address below `MEM_TOP` is written as zeros with `POISON` = 0 (R353). No page of a pool is referenced or queued any more (log 105, DEDUCED). -/
def State.clearMemory (s : State) : State :=
  let s := (List.range 256).foldl State.clearSlot s
  (List.range 256).foldl (fun (s : State) i => s.auditFresh 6 i) s

/-- `CXL_RESET_MEM_CLEAR` (R353). -/
def execCxlResetMemClear (s : State) : Out State := onAccess .cxlResetMemClear s fun s => s.cxlResetAll.clearMemory

/-- The CXL link is down: every function is disabled, its records and messages are lost, inboxes on CXL.mem break, and the IDE keys are erased (R289, R353,
R443). The host sets the functions up again after link-up (log 101, DEDUCED). -/
def State.cxlDown (s : State) : State :=
  let s := (({ s with fns := { s.fns with linkUp := false, trained := none, hdm := none } }).disableGone).breakCxlInboxes.eraseIde
  { s with fns := { s.fns with numVfs := 0, vfEnable := false, memSpace := false } }

/-- `CXL_LINK_DOWN` (R353). -/
def execCxlLinkDown (s : State) : Out State := whenever s.fns.linkUp s s.cxlDown

/-! ## The end of a disable (R380, events 5 to 7) -/

/-- Event 5: each vector with a pending count sends its message; one that is held is dropped (R351), and one that a link that is down cannot carry is lost
with a count (R353) (log 102, DEDUCED). -/
def State.lastMessages (s : State) (fn : Nat) : State :=
  (s.vectorsOf fn).foldl (fun (s : State) v =>
    let x := s.vec fn v
    if x.count = 0 then s
    else if s.vecHeld fn v then s.setVec fn v { x with count := 0, pbit := false }
    else s.sendVec fn v) s

/-- The handles of a context that hold a board. -/
def State.handlesOf (s : State) (fn : Nat) : List Nat := (s.boards.filter (fun e => e.1 / 256 == fn)).map (fun e => e.1 % 256)

/-- The boards of a context are released, each with its audit (R353). -/
def State.releaseBoards (s : State) (fn : Nat) : State :=
  (s.handlesOf fn).foldl (fun (s : State) h => (s.releaseBoard fn h).auditCheck 4 (boardKey fn h)) s

/-- The pools of a context are released: their counts are checked, and end with the pool. -/
def State.releasePools (s : State) (fn : Nat) : State :=
  (List.range 4).foldl (fun (s : State) k =>
    if (s.pool fn k).isNone then s
    else
      let i := 4 * fn + k
      ((((s.auditCheck 6 i).auditCheck 7 i).setPool fn k none).auditFresh 6 i).auditFresh 7 i) s

/-- Remote windows, peer references and inboxes of a context are released. -/
def State.releaseRemote (s : State) (fn : Nat) : State :=
  let s := (List.range 1024).foldl (fun (s : State) w =>
    if s.flag Fld.winStatOpen w && s.fld Fld.winStatTenant w == fn then s.closeWindow w else s) s
  let s := (List.range 8).foldl (fun (s : State) n =>
    if s.flag Fld.inboxStatOpen n && s.fld Fld.inboxStatTenant n == fn then s.closeInbox n else s) s
  { s with peerRefs := Tab.clear s.peerRefs (256 * fn) 256 }

/-- `LOCK` clears on the host windows of a function (R340). -/
def State.unlockWindows (s : State) (fn : Nat) : State :=
  (List.range 256).foldl (fun (s : State) w => if s.fld Fld.hwinTenant w = fn then s.setFlag Fld.hwinLock w false else s) s

/-- Event 6: everything a context holds is released (R353, R380). -/
def State.releaseContext (s : State) (fn : Nat) : State :=
  (((s.releaseBoards fn).releasePools fn).releaseRemote fn).unlockWindows fn |>.endResidencyOf fn none

/-- Event 7: every ring pair is inactive. -/
def State.stopRings (s : State) (fn : Nat) : State :=
  let s := (List.range 64).foldl (fun (s : State) k =>
    (s.setFlag Fld.ringCfgActive (ringKey fn k) false).setFlag Fld.ringCfgEnable (ringKey fn k) false) s
  { s with fns := { s.fns with rings := Tab.clear s.fns.rings (64 * fn) 64 } }

/-- Event 7: the function is disabled; a function-level reset returns its page to reset. -/
def State.fnDown (s : State) (fn : Nat) : State :=
  let s := (s.stopRings fn).setFld Fld.fnStateState fn 0
  if Tab.get false s.fns.flr fn then
    { s.resetPage fn with fns := { (s.resetPage fn).fns with flr := Tab.set false s.fns.flr fn false } }
  else s

/-- `FUNCTION_DISABLE_COMPLETE` (R340, R344, R353, R380, R381): every item of the function has its record or has lost it; held messages go, the context is
released, and the function becomes `DISABLED`. A function whose enabling condition holds is enabled again. -/
def execFunctionDisableComplete (fn : Nat) (s : State) : Out State :=
  onUnit (fn < 64) "function" <|
  whenever (s.fnState fn == 2 && (s.fnItems fn).isEmpty) s
    (((((s.lastMessages fn).releaseContext fn).fnDown fn).settleReset).enableAll)

end Sys2Proof.Machine
end

