-- ==== Sys2Proof/Machine/Fec.lean ====
section
/-! DEFINITION. What a link sends on its lanes (R294): the 5,140 data bits of a codeword, the Reed-Solomon code RS(544, 514) over 10-bit symbols, and the
symbols of each active lane. -/

namespace Sys2Proof.Machine

/-- A product by x in GF(2^10), whose polynomial is that of IEEE 802.3 clause 119, x^10 + x^3 + 1 (log 207, PRESUMED). -/
def rsDouble (a : Nat) : Nat := if a < 512 then 2 * a else Nat.xor (2 * a - 1024) 9

/-- A product in GF(2^10): n bits of b, the lowest first. -/
def rsMulBits : Nat → Nat → Nat → Nat
  | 0, _, _ => 0
  | n + 1, a, b => Nat.xor (if b % 2 = 1 then a else 0) (rsMulBits n (rsDouble a) (b / 2))

/-- A product in GF(2^10). -/
def rsMul (a b : Nat) : Nat := rsMulBits 10 a b

/-- A polynomial, highest coefficient first, times (x + r). -/
def polyTimes (p : List Nat) (r : Nat) : List Nat := List.zipWith Nat.xor (p ++ [0]) (0 :: p.map (rsMul r))

/-- The product of (x + r), (x + 2r) ... over n powers of the primitive element: the generator of the code from r = 1, n = 30. -/
def rsGenerator : Nat → Nat → List Nat → List Nat
  | 0, _, p => p
  | n + 1, r, p => rsGenerator n (rsDouble r) (polyTimes p r)

/-- One data symbol into the 30 parity symbols: the remainder's register shifts. -/
def rsShift (g : List Nat) (par : List Nat) (m : Nat) : List Nat :=
  let f := Nat.xor m (par.headD 0)
  List.zipWith Nat.xor (par.drop 1 ++ [0]) (g.map (rsMul f))

/-- The 30 parity symbols of 514 data symbols. -/
def rsParity (data : List Nat) : List Nat := data.foldl (rsShift ((rsGenerator 30 1 [1]).drop 1)) (List.replicate 30 0)

/-- The link header of a codeword (R294): `SEQ`, `ACK`, `ACKV` and `NAK`. -/
def SentCodeword.header (c : SentCodeword) : Nat :=
  c.seq % 512 + 512 * (c.ack % 512) + (if c.ackv then 2 ^ 18 else 0) + (if c.nak then 2 ^ 19 else 0)

/-- The 5,140 data bits of a codeword (R294): the link header, then the flits, the lowest bit first (log 208, DESIGN CHOICE). -/
def SentCodeword.data (c : SentCodeword) : Nat := c.header + 2 ^ 20 * leNat (c.flits.flatMap (fun f => f.bytes))

/-- The 544 symbols of a codeword (R294): 514 of data and 30 of parity. -/
def SentCodeword.symbols (c : SentCodeword) : List Nat :=
  let d := (List.range 514).map (fun i => bitsOf c.data (10 * i) 10)
  d ++ rsParity d

/-- The 136 symbols that the active lane at position n carries (R294): symbol i travels at position i mod 4. -/
def SentCodeword.laneSymbols (c : SentCodeword) (n : Nat) : List Nat :=
  (List.range 136).map (fun i => c.symbols.getD (4 * i + n) 0)

end Sys2Proof.Machine
end

