-- ==== Sys2Proof/Machine/Links.lean ====
section
/-! DEFINITION. Galral links (R292-R313): codewords and retry, retraining, lane sparing, bring-up, sending, receiving and forwarding packets, and
the writes of `LINK_MASK`, `LINK_RT`, `LINK_PORT` and `LINK_TOPO`. -/

namespace Sys2Proof.Machine

/-! ## Lanes (R292, R297) -/

/-- The state of lane n of a link: 0 active, 1 spare, 2 failed, 3 not trained (R313). -/
def State.lane (s : State) (l n : Nat) : Nat := bitsOf (s.fld Fld.linkStatLanes l) (2 * n) 2

/-- A lane's state set. -/
def State.setLane (s : State) (l n v : Nat) : State :=
  s.setFld Fld.linkStatLanes l (s.fld Fld.linkStatLanes l - 4 ^ n * s.lane l n + 4 ^ n * (v % 4))

/-- The lanes of a link in a state, ascending. -/
def State.lanesIn (s : State) (l v : Nat) : List Nat := (List.range 5).filter (fun n => s.lane l n == v)

/-- A lane fails once more, and the change is recorded in the journal store (R297, R406, R446). -/
def State.failLane (s : State) (l n : Nat) : State :=
  let f := Tab.get 0 s.assay.laneFails (5 * l + n) + 1
  ({ s with assay := { s.assay with laneFails := Tab.set 0 s.assay.laneFails (5 * l + n) f } }.setLane l n 2).journal recLane [5 * l + n, 2, f]

/-- The spare takes the place of an active lane (R297), and the Tally calibrates the link anew (R41). -/
def State.switchLane (s : State) (l n spare : Nat) : State :=
  let s := (((s.failLane l n).setLane l spare 0).journal recLane [5 * l + spare, 0, Tab.get 0 s.assay.laneFails (5 * l + spare)]).bump
    Fld.linkErrSwitches l 1
  s.setLink l { s.link l with calibrations := (s.link l).calibrations + 1 }

/-! ## Going down, coming up -/

/-- A queued packet that cannot leave (R310): it is returned at its origin, and dropped with a notice elsewhere, where the buffer it held is free. -/
def State.lost (s : State) (e : Nat × Packet) : State :=
  if e.1 = 20 || (e.1 = 21 && e.2.ownFirstHop s.chipId) then s.returned e.2.kind e.2.aux else (s.oweCredit e.1 e.2).dropForward e.2

/-- A packet of a lost link leaves over its port's other links that are up (R307), an `MGMT` packet only when one of the 4 places of that link's queue is free: it
waits otherwise (R301). With no up link left it follows R310. -/
def State.reroute (s : State) (port : Option Nat) (e : Nat × Packet) : State :=
  match port with
  | none => s.lost e
  | some q =>
    if (s.portUp q).isEmpty then s.lost e
    else match s.portLink q e.2 with
      | some l => if e.2.vc == .mgmt && s.mgmtFull l then { s with mgmtLeft := s.mgmtLeft ++ [(q, e.1, e.2)] } else s.enqueue l e.1 e.2
      | none => s

/-- The packets of lost links that wait for room in a queue try again (R301, R307). -/
def State.retryLeft (s : State) : State :=
  s.mgmtLeft.foldl (fun s e => s.reroute (some e.1) e.2) { s with mgmtLeft := [] }

/-- A link goes down (4) or is disabled (0): every packet it has not seen acknowledged leaves over the port's remaining links (R296, R307, R312); inboxes that
lose their source break (R289). -/
def State.stopLink (s : State) (l st : Nat) : State :=
  let k := s.link l
  let port := s.portOf l
  let s := (s.setLink l { Link.empty with arrived := k.arrived }).setFld Fld.linkStatState l st
  let s := (k.unacked.map (fun p => (21, p)) ++ k.queue).foldl (fun (s : State) e => s.reroute port e) s.retryLeft
  s.breakInboxes

/-- Start-up event 8 is past: the links have power (R479) (log 124, DEDUCED). -/
def State.linksPowered (s : State) : Bool := s.mainGood && 8 ≤ s.fld Fld.setupStatPhase 0

/-- An eligible link that is disabled begins its bring-up (R299, event 1). -/
def State.startBringup (s : State) (l : Nat) : State :=
  if s.linkEligible l && s.linksPowered && s.linkState l == 0 then
    (s.setLink l { s.link l with event := 1, failedRetrains := 0 }).setFld Fld.linkStatState l 1
  else s

/-- A link whose mask bit was cleared is disabled (R312); a bit that has been set again starts its bring-up. -/
def State.disableLink (s : State) (l : Nat) : State := (s.stopLink l 0).startBringup l

/-- The flits that a link has still to send of a packet that it has begun to send: none at a packet boundary (R301, R312). -/
def Link.unfinished (k : Link) : Nat :=
  match k.tx.findIdx? (fun f => f.last.isSome) with
  | none => 0
  | some i => match (k.tx[i]?).bind (fun f => f.last) with
    | some p => if i + 1 < p.flits then i + 1 else 0
    | none => 0

/-- The mask bit of a link is cleared (R312): the link stops at a packet boundary; packets chosen that it has not begun to send follow R307. -/
def State.maskOff (s : State) (l : Nat) : State :=
  if s.linkState l = 2 && (s.link l).unfinished != 0 then s.setLink l { s.link l with closing := true } else s.stopLink l 0

/-- A link goes back to event 1 of R299 (R492). -/
def State.restartLink (s : State) (l : Nat) : State :=
  (s.setLink l { s.link l with event := 1, failedRetrains := 0, switch := none }).setFld Fld.linkStatState l 1

/-- The link enters `UP` (R299, event 6): its credits are those of R302, and the replay buffer's contents are sent again first (R296). -/
def State.linkUp (s : State) (l : Nat) : State :=
  let k := s.link l
  let s := s.setLink l { k with event := 6, failedRetrains := 0, discarding := false, nakDue := false, missed := 0, nakedAt := none, nakRun := 0, recent := [], switch := none,
                                resend := k.replay.head?.map Prod.fst, used := [], owed := [] }
  (s.setFld Fld.linkStatState l 2).setFlag Fld.linkStatMismatch l false

/-- A training attempt fails (R296, R299): it did not fail R305 (R313), and after 3 in a row the link goes down; until then a link that retrains starts another
retrain, which counts in `RETRAINS` (R313). -/
def State.attemptFails (s : State) (l : Nat) : State :=
  let k := s.link l
  let s := (s.setLink l { k with event := 1, failedRetrains := k.failedRetrains + 1 }).setFlag Fld.linkStatMismatch l false
  if 3 ≤ k.failedRetrains + 1 then s.stopLink l 4
  else if s.linkState l = 3 then s.bump Fld.linkErrRetrains l 1
  else s

/-- A lane qualifies (R293): its bit error ratio before FEC is 10^-5 or lower. -/
def laneQualifies (m : Nat × Nat) : Bool := 0 < m.2 && m.1 * 100000 ≤ m.2

/-- The lanes that qualify and that have not failed (R299, event 3). -/
def State.goodLanes (s : State) (l : Nat) (tr : Training) : List Nat :=
  (List.range 5).filter (fun n => laneQualifies (tr.measured.getD n (0, 0)) && s.lane l n != 2)

/-- Event 3 of R299: the 4 lowest good lanes become active, a fifth the spare. -/
def State.chooseLanes (s : State) (l : Nat) (good : List Nat) : State :=
  (List.range 5).foldl (fun s n =>
    if s.lane l n = 2 then s
    else if (good.take 4).contains n then s.setLane l n 0
    else s.setLane l n (if good.contains n then 1 else 3)) s

/-- The peer is consistent (R305): every up link of the port reaches the same chip, over links of the same class. -/
def State.peerConsistent (s : State) (l : Nat) (peer : PeerIdentity) : Bool :=
  globalLink peer.link == globalLink l && peer.link < 20 &&
    (match s.portOf l with
    | some p => ((s.portUp p).filter (· != l)).all (fun m => s.fld Fld.linkStatPeerChip m == peer.chip % 2048)
    | none => false)

/-- What this chip tells the peer of a link at event 5 of R299. -/
def State.identity (s : State) (l : Nat) : PeerIdentity :=
  { chip := s.chipId, link := l, port := match s.portOf l with
      | some p => s.fld Fld.linkPortLinks p
      | none => 0 }

/-- Events 5 and 6 of R299: the identities are exchanged; the link enters `UP`, or goes down with `MISMATCH` (R305). -/
def State.exchange (s : State) (l : Nat) (peer : PeerIdentity) : State :=
  let s := s.setLink l { s.link l with told := some (s.identity l), peerPort := peer.port }
  let s := (s.setFld Fld.linkStatPeerChip l peer.chip).setFld Fld.linkStatPeerLink l peer.link
  if s.peerConsistent l peer then s.linkUp l
  else (s.setFlag Fld.linkStatMismatch l true).stopLink l 4

/-- Event 4 of R299: FEC locks, and a skew of up to 20 ns is removed. -/
def trainingLocks (tr : Training) : Bool := tr.fecLocks && tr.skewNs ≤ 20

/-- `LINK_BRINGUP` (R298, R299, event 1). -/
def execLinkBringup (l : Nat) (s : State) : Out State := onUnit (l < 20) "link" <| .next (s.startBringup l)

/-- `LINK_SIGNAL_DETECT` (R293, R299, events 2-4): with fewer than 4 good lanes the attempt fails; until FEC locks, with a skew of at most 20 ns, event 4 does not take
place (log 117, DEDUCED). -/
def execLinkSignalDetect (l : Nat) (tr : Training) (s : State) : Out State :=
  onUnit (l < 20 && tr.measured.length = 5) "link" <|
  whenever (s.linkState l == 1 && (s.link l).event == 1) s <|
  let good := s.goodLanes l tr
  if good.length < 4 then s.attemptFails l
  else
    let s := s.chooseLanes l good
    if trainingLocks tr then s.setLink l { s.link l with event := 4 } else s

/-- `LINK_IDENTITY_EXCHANGE` (R299, R302, R305) (log 118, DEDUCED). -/
def execLinkIdentityExchange (l : Nat) (peer : PeerIdentity) (s : State) : Out State :=
  onUnit (l < 20) "link" <|
  whenever (s.linkState l == 1 && (s.link l).event == 4) s (s.exchange l peer)

/-! ## Retraining (R296) -/

/-- The link retrains: it stops sending and keeps its replay buffer. One that was to stop at a packet's end stops (R312). -/
def State.retrain (s : State) (l : Nat) : State :=
  if (s.link l).closing then s.disableLink l
  else ((s.setLink l { s.link l with event := 1, nakedAt := none, nakRun := 0 }).bump Fld.linkErrRetrains l 1).setFld Fld.linkStatState l 3

/-- `LINK_CTL.RETRY_LIMIT`; 0 is treated as 1 (R313). -/
def State.retryLimit (s : State) : Nat := max 1 (s.fld Fld.linkCtlRetryLimit 0)

/-- `LINK_RETRAIN` (R296): one codeword has been NAKed `RETRY_LIMIT` times in a row. A lock loss with no spare retrains in `LANE_LOCK_LOSS`. -/
def execLinkRetrain (l : Nat) (s : State) : Out State :=
  onUnit (l < 20) "link" <|
  whenever (s.linkState l == 2 && s.retryLimit ≤ (s.link l).nakRun) s (s.retrain l)

/-- `LINK_RETRAIN_COMPLETE` (R296, R299, R305): events 2 to 6 have run again, or the attempt has failed. -/
def execLinkRetrainComplete (l : Nat) (tr : Training) (peer : Option PeerIdentity) (s : State) : Out State :=
  onUnit (l < 20 && tr.measured.length = 5) "link" <|
  whenever (s.linkState l == 3) s <|
  let good := s.goodLanes l tr
  match peer with
  | some x => if good.length < 4 || !trainingLocks tr then s.attemptFails l else (s.chooseLanes l good).exchange l x
  | none => s.attemptFails l

/-! ## Codewords received (R294, R295) -/

/-- The number of the codeword that an `ACK` field names: the latest sent with that sequence number. -/
def Link.ackNumber (k : Link) (ack : Nat) : Option Nat :=
  let d := ((k.sent - 1) % 512 + 512 - ack % 512) % 512
  if k.sent = 0 || k.sent ≤ d then none else some (k.sent - 1 - d)

/-- The packets of a link whose last codeword is at or below an acknowledged number. -/
def Link.acked (k : Link) (n : Nat) : List Packet := (k.replay.filter (fun e => e.1 ≤ n)).flatMap (fun e => flitPackets e.2.flits)

/-- Codewords up to number n are acknowledged: they leave the replay buffer, and the transmit credits of this chip's packets return (R295, R303). -/
def State.acknowledge (s : State) (l n : Nat) : State :=
  let k := s.link l
  let items := ((k.acked n).filter (fun p => p.ownFirstHop s.chipId && (p.kind == .chunk || p.kind == .window))).map (fun p => p.aux.getD 4 0)
  let s := s.setLink l { k with replay := k.replay.filter (fun e => n < e.1) }
  items.eraseDups.foldl State.pumpItem s

/-- A `NAK` that asks for resending from codeword n (R295, R296). -/
def State.nakFrom (s : State) (l n : Nat) : State :=
  let k := s.link l
  s.setLink l { k with nakedAt := some n, nakRun := if k.nakedAt = some n then k.nakRun + 1 else 1,
                       resend := (k.replay.find? (fun e => n ≤ e.1)).map Prod.fst }

/-- The header of a codeword that decoded: `ACK`, `ACKV` and `NAK` (R294) (log 114, DEDUCED). -/
def State.linkHeader (s : State) (l : Nat) (cw : Codeword) : State :=
  let named := if cw.ackv then (s.link l).ackNumber cw.ack else none
  let s := match named with
    | some n => s.acknowledge l n
    | none => s
  if cw.nak then s.nakFrom l (match named with
    | some n => n + 1
    | none => 0)
  else s

/-- The symbols received wrong on the 4 active lanes. -/
def Codeword.wrongSymbols (cw : Codeword) : Nat := (cw.wrong.take 4).foldl (· + ·) 0

/-- RS(544, 514) decodes the codeword (R294): it corrects up to 15 wrong symbols, and of more it may take the codeword for another. -/
def Codeword.decodes (cw : Codeword) : Bool := Codeword.wrongSymbols cw ≤ 15 || cw.miscorrects.isSome

/-- The symbols corrected on each active lane position: none when the codeword does not decode. -/
def Codeword.corrected (cw : Codeword) : List Nat :=
  if Codeword.wrongSymbols cw ≤ 15 then cw.wrong else cw.miscorrects.getD []

/-- The corrected symbols of a codeword, by position of its active lane (R294, R297). -/
def State.countSymbols (s : State) (l : Nat) (corrected : List Nat) : State :=
  let per := (s.lanesIn l 0).zip corrected
  let s := per.foldl (fun s e => s.bump Fld.linkLaneCorr (5 * l + e.1) e.2) s
  let k := s.link l
  s.setLink l { k with recent := (k.recent.filter (fun e => s.tally < e.1 + 1000000)) ++
    (per.filter (fun e => e.2 != 0)).map (fun e => (s.tally, e.1, e.2)) }

/-- The codeword is bad (R295). -/
def Codeword.bad (cw : Codeword) : Bool := !Codeword.decodes cw || cw.packets.any (fun p => !p.crcOk)

/-- The packet buffers per stage class of a link (R302). -/
def VC.buffers : VC → Nat
  | .clasp => 32 | .bulk => 160 | .response => 64 | .mgmt => 16

/-- The key of a virtual channel and a stage class in `Link.used`. -/
def bufferKey (vc : VC) (stage : Nat) : Nat := 8 * vc.code + stage

/-- This chip's packet buffers of a link in use: by packets received, and by packets that wait in another link's queue to be passed on (R302). -/
def State.buffersUsed (s : State) (l : Nat) (vc : VC) (stage : Nat) : Nat :=
  let here (p : Packet) : Bool := p.vc == vc && p.stage == stage
  ((s.link l).arrived.filter here).length +
    ((List.range 20).map (fun m => ((s.link m).queue.filter (fun e => e.1 == l && here e.2)).length)).foldl (· + ·) 0 +
    (s.mgmtLeft.filter (fun e => e.2.1 == l && here e.2.2)).length

/-- The packets of a codeword find buffers (R302). -/
def State.buffersFor (s : State) (l : Nat) (ps : List Packet) : Bool :=
  ps.all (fun p => s.buffersUsed l p.vc p.stage + (ps.filter (fun q => q.vc == p.vc && q.stage == p.stage)).length ≤ VC.buffers p.vc)

/-- Buffers of the neighbour that a codeword hands back are free (R302). -/
def Link.handBack (k : Link) (credits : List (VC × Nat)) : Link :=
  credits.foldl (fun k c => { k with used := Tab.set 0 k.used (bufferKey c.1 c.2) (Tab.get 0 k.used (bufferKey c.1 c.2) - 1) }) k

/-- A good codeword that is not the next in order is discarded (R295). One that has come before, by its `SEQ` within the 256 of the replay buffer, asks for
nothing; a later one shows that codewords are missing, and the first of them makes a `NAK` due. While the resent copy does not come, the `NAK` is due again every 256
codewords (log 112, DESIGN CHOICE). -/
def Link.outOfOrder (k : Link) (seq : Nat) : Link :=
  let ahead := (seq % 512 + 512 - k.expect % 512) % 512 < 255
  if !k.discarding && !ahead then k
  else if !k.discarding || 256 ≤ k.missed + 1 then { k with discarding := true, nakDue := true, missed := 0 }
  else { k with missed := k.missed + 1 }

/-- `LINK_CODEWORD_RECEIVE` (R294-R297, R302): a bad codeword counts, and it and every later one are discarded until the resent copy arrives; a good one
in order delivers its packets and returns credits. Each bad codeword, the first one that shows a gap, and one whose packets find no buffer are answered by a `NAK` in the
next codeword sent, and the `NAK` is repeated while the resent copy does not come (log 112, DESIGN CHOICE). -/
def execLinkCodewordReceive (l : Nat) (cw : Codeword) (s : State) : Out State :=
  onUnit (l < 20 && cw.wf) "link" <|
  whenever (s.linkState l == 2) s <|
  let s := s.countSymbols l (Codeword.corrected cw)
  if Codeword.bad cw then
    let s := s.bump Fld.linkErrUncorr l 1
    s.setLink l { s.link l with discarding := true, nakDue := true, missed := 0 }
  else
    let s := s.linkHeader l cw
    let k := s.link l
    if cw.seq % 512 = k.expect % 512 then
      if s.buffersFor l cw.packets then
        s.setLink l ({ k with expect := k.expect + 1, discarding := false, arrived := k.arrived ++ cw.packets }.handBack cw.credits)
      else s.setLink l { k with discarding := true, nakDue := true, missed := 0 }
    else s.setLink l (k.outOfOrder cw.seq)

/-! ## Lane sparing (R297) -/

/-- The symbols corrected on a lane within the last 1 ms (log 115, DEDUCED). -/
def State.windowSymbols (s : State) (l n : Nat) : Nat :=
  (((s.link l).recent.filter (fun e => e.2.1 == n && s.tally < e.1 + 1000000)).map (fun e => e.2.2)).foldl (· + ·) 0

/-- `LANE_SWITCH_REQUEST` (R297): an active lane whose corrected symbols exceed `SYM_THRESH` is to be replaced by the spare; the request names the `SEQ` of a codeword
16 ahead, and waits while the `MGMT` queue is full. -/
def execLaneSwitchRequest (l lane : Nat) (s : State) : Out State :=
  onUnit (l < 20 && lane < 5) "lane" <|
  let k := s.link l
  whenever (s.linkState l == 2 && s.lane l lane == 0 && s.flag Fld.linkCtlAutoSpare 0 && k.switch.isNone && !(s.lanesIn l 1).isEmpty &&
      s.fld Fld.linkCtlSymThresh 0 < s.windowSymbols l lane && !s.mgmtFull l) s <|
  let seq := (k.sent + 16) % 512
  let s := s.setLink l { k with switch := some ⟨lane, seq, false⟩ }
  s.enqueue l 20 (Packet.make (s.fld Fld.linkStatPeerChip l) s.chipId .mgmt 0 0 .laneSwitch 0 0 0 [lane, seq] [] false)

/-- `LANE_SWITCH_REQUEST_RECEIVE` (R297): the peer's request is taken; when both ends have asked, that of the chip with the lower identifier
is. -/
def execLaneSwitchRequestReceive (l : Nat) (s : State) : Out State :=
  onUnit (l < 20) "link" <|
  match s.inbound.find? (fun e => e.1 == l && e.2.kind == .laneSwitch) with
  | none => .next s
  | some e =>
    let s := { s with inbound := s.inbound.erase e }
    let k := s.link l
    let mine := match k.switch with
      | some w => !w.byPeer && s.chipId < s.fld Fld.linkStatPeerChip l
      | none => false
    .next (if s.linkState l != 2 || mine then s
      else s.setLink l { k with switch := some ⟨e.2.aux.getD 0 0 % 5, e.2.aux.getD 1 0, true⟩ })

/-- The agreed codeword has come: in the numbering of the codewords of the end that asked (log 116, DEDUCED). -/
def Link.switchReached (k : Link) (w : LaneSwitchAt) : Bool :=
  ((if w.byPeer then k.expect else k.sent) % 512 + 512 - w.seq % 512) % 512 < 256

/-- `LANE_SWITCH` (R297): from the agreed codeword on the spare takes the place of the lane, which fails. -/
def execLaneSwitch (l : Nat) (s : State) : Out State :=
  onUnit (l < 20) "link" <|
  match (s.link l).switch with
  | none => .next s
  | some w =>
    whenever (s.linkState l == 2 && (s.link l).switchReached w) s <|
    let s := s.setLink l { s.link l with switch := none }
    match s.lanesIn l 1 with
    | sp :: _ => if s.lane l w.lane = 0 then s.switchLane l w.lane sp else s
    | [] => s

/-- `LANE_LOCK_LOSS` (R296, R297): an active lane that loses lock is replaced at once whatever `AUTO_SPARE` holds; with no spare the link
retrains. -/
def execLaneLockLoss (l lane : Nat) (s : State) : Out State :=
  onUnit (l < 20 && lane < 5) "lane" <|
  whenever (s.linkState l == 2 && s.lane l lane == 0) s <|
  match s.lanesIn l 1 with
  | sp :: _ => s.switchLane l lane sp
  | [] => s.retrain l

/-- `SPARE_LANE_STOPS_QUALIFYING` (R293, R297): the idle spare becomes failed. -/
def execSpareLaneStopsQualifying (l : Nat) (s : State) : Out State :=
  onUnit (l < 20) "link" <|
  .next (if s.linkState l = 2 then (match s.lanesIn l 1 with
    | sp :: _ => s.failLane l sp
    | [] => s) else s)

/-! ## Sending (R301-R307) -/

/-- The stage at which a queued packet arrives at its next hop: one more, unless a lost link of the port had sent it already. -/
def stageAfter (e : Nat × Packet) : Nat := if e.1 = 21 then e.2.stage else e.2.stage + 1

/-- The neighbour has a buffer free for the packet (R302). -/
def Link.hasBuffer (k : Link) (e : Nat × Packet) : Bool := Tab.get 0 k.used (bufferKey e.2.vc (stageAfter e)) < VC.buffers e.2.vc

/-- The packets of a virtual channel that may go next: the first of each source, when it has a buffer. -/
def Link.heads (k : Link) (vc : VC) : List (Nat × Packet) :=
  (List.range 22).filterMap (fun src =>
    match k.queue.find? (fun e => e.1 == src && e.2.vc == vc) with
    | some e => if k.hasBuffer e then some e else none
    | none => none)

/-- The virtual channel that goes next (R301) (log 122, DEDUCED). -/
def Link.nextVc (k : Link) : Option VC :=
  let has (v : VC) : Bool := !(k.heads v).isEmpty
  if has .mgmt then some .mgmt
  else if 4 ≤ k.run && has .bulk then some .bulk
  else if has .clasp then some .clasp
  else if has .response && has .bulk then some (if k.bulkTurn then .bulk else .response)
  else if has .response then some .response
  else if has .bulk then some .bulk
  else none

/-- The packet that a virtual channel sends next: the sources take turns (R301). -/
def Link.nextOf (k : Link) (vc : VC) : Option (Nat × Packet) :=
  let last := Tab.get 21 k.lastSource (VC.code vc)
  ((List.range 22).map (fun i => (last + 1 + i) % 22)).findSome? (fun src => (k.heads vc).find? (fun e => e.1 == src))

/-- The packet that goes next (R301). -/
def Link.chosen (k : Link) : Option (Nat × Packet) := k.nextVc.bind k.nextOf

/-- The chosen packet's flits join those to be sent: `PSEQ` is that of the port and virtual channel, `STAGE` counts the hop, the neighbour's buffer is in use (R302), and the
buffer here that a forwarded packet held is free. -/
def State.takePacket (s : State) (l port : Nat) (e : Nat × Packet) : State :=
  let k := s.link l
  let key := 4 * port + VC.code e.2.vc
  let fresh := e.1 != 21
  let n := Tab.get 0 s.pseqs key
  let p : Packet := if fresh then { e.2 with pseq := n, stage := stageAfter e } else e.2
  let bulkWaits := !(k.heads .bulk).isEmpty
  let run := match p.vc with
    | .mgmt => k.run
    | .bulk => 0
    | _ => if bulkWaits then k.run + 1 else 0
  let turn := match p.vc with
    | .response => true
    | .bulk => false
    | _ => k.bulkTurn
  let b := bufferKey e.2.vc (stageAfter e)
  let s := if fresh then { s with pseqs := Tab.set 0 s.pseqs key ((n + 1) % 2 ^ 24) } else s
  let s := s.setLink l { k with queue := k.queue.erase e, tx := k.tx ++ p.flitList, used := Tab.set 0 k.used b (Tab.get 0 k.used b + 1), run := run, bulkTurn := turn,
                                lastSource := Tab.set 21 k.lastSource (VC.code p.vc) e.1 }
  let s := (s.oweCredit e.1 e.2).event (if p.src = s.chipId && p.forItem then p.tenant else baseContext) evFlit noRegion p.flits
  if p.vc == .mgmt then s.retryLeft else s

/-- A codeword leaves (R294): number n with its flits, and the header that this end has to send now. -/
def Link.send (k : Link) (n : Nat) (flits : List Flit) (credits : List (VC × Nat)) : Link :=
  { k with nakDue := false, out := some { seq := n % 512, ack := (k.expect + 511) % 512, ackv := 0 < k.expect, nak := k.nakDue, flits := flits, credits := credits } }

/-- The next codeword of the stream (R294, R300): the first 10 flits to be sent, idle flits where there are fewer. It stays in the replay buffer until it is
acknowledged. With 256 codewords there the stream goes on with codewords of idle flits that take no number: they bear the `SEQ` of the last one acknowledged and carry
`ACK` and `NAK` (R293-R295) (log 186, DESIGN CHOICE). -/
def State.newCodeword (s : State) (l : Nat) : State :=
  let k := s.link l
  if k.replay.length < 256 then
    let flits := k.tx.take 10 ++ (List.range (10 - k.tx.length)).map (fun i => idleFlit l k.sent (k.tx.length + i))
    let v := k.send k.sent flits k.owed
    s.setLink l { v with sent := k.sent + 1, tx := k.tx.drop 10, owed := [], replay := k.replay ++ v.out.toList.map (fun c => (k.sent, c)) }
  else s.setLink l (k.send (k.sent + 255) ((List.range 10).map (idleFlit l k.sent)) [])

/-- A codeword of the replay buffer is sent again (R295), and counts in `RETRIES` (R313). -/
def State.resendCodeword (s : State) (l n : Nat) : State :=
  let k := s.link l
  match k.replay.find? (fun e => n ≤ e.1) with
  | none => s.setLink l { k with resend := none }
  | some e =>
    let v := k.send e.1 e.2.flits e.2.credits
    (s.setLink l { v with resend := (k.replay.find? (fun x => e.1 < x.1)).map Prod.fst }).bump Fld.linkErrRetries l 1

/-- A link whose mask bit was cleared sends the rest of the packet begun and stops (R312). -/
def State.closeStream (s : State) (l : Nat) : State :=
  let v := s.newCodeword l
  if (v.link l).unfinished = 0 then v.disableLink l else v

/-- The symbols that lane n of a link carries of the codeword sent last (R294): none on the spare and on failed lanes. -/
def State.laneSymbols (s : State) (l n : Nat) : List Nat :=
  match (s.lanesIn l 0).findIdx? (· == n), (s.link l).out with
  | some i, some c => c.laneSymbols i
  | _, _ => []

/-- One step of the stream that an up link sends: a codeword to be sent again; else, at a packet boundary, the next packet; and a codeword once its 10 flits are there, or
nothing is left to send (log 186, DESIGN CHOICE). -/
def State.linkStream (s : State) (l : Nat) : State :=
  let k := s.link l
  match k.resend with
  | some n => s.resendCodeword l n
  | none =>
    if k.closing then s.closeStream l
    else if 10 ≤ k.tx.length then s.newCodeword l
    else match k.chosen, s.portOf l with
      | some e, some port =>
        let v := s.takePacket l port e
        if 10 ≤ (v.link l).tx.length then v.newCodeword l else v
      | _, _ => s.newCodeword l

/-- `LINK_PACKET_SEND` (R294-R296, R300-R307): the next packet goes at a packet boundary, in the stream of codewords that an up link sends. -/
def execLinkPacketSend (l : Nat) (s : State) : Out State :=
  onUnit (l < 20) "link" <| whenever (s.linkState l == 2) s (s.linkStream l)

/-! ## Receiving and forwarding (R307-R310) -/

/-- A packet for another chip: it is queued on the port that the routing table gives and keeps its buffer here until it is passed on, or it is dropped. -/
def State.forward (s : State) (l : Nat) (p : Packet) : State :=
  match (s.lookup p).bind (fun q => s.portLink q p) with
  | some m => s.enqueue m l p
  | none => (s.oweCredit l p).dropForward p

/-- A packet that arrives for forwarding on MGMT waits while its link's queue is full (R301). -/
def State.forwardWaits (s : State) (p : Packet) : Bool :=
  p.vc == .mgmt && p.dst != s.chipId &&
    (match (s.lookup p).bind (fun q => s.portLink q p) with
    | some m => s.mgmtFull m
    | none => false)

/-- `PACKET_RECEIVE` (R307, R308, R310): the next packet received in order that need not wait is a duplicate, is delivered here, is forwarded or is
dropped. A buffer is free once its packet is delivered, discarded or passed on (R302). The flits of a chunk for this chip are charged in
`CHUNK_RECEIVE` (R427). -/
def execPacketReceive (l : Nat) (s : State) : Out State :=
  onUnit (l < 20) "link" <|
  match (s.link l).arrived.find? (fun p => !s.forwardWaits p), s.portOf l with
  | some p, some port =>
    let s := s.setLink l { s.link l with arrived := (s.link l).arrived.erase p }
    let s := if p.kind == .chunk && p.dst = s.chipId then s else s.event baseContext evFlit noRegion p.flits
    let key := 4 * port + VC.code p.vc
    let old := Tab.get [] s.deliveredSeqs key
    .next (if old.contains p.pseq then (s.oweCredit l p).bump Fld.linkRouteDups 0 1
      else
        let s := { s with deliveredSeqs := Tab.set [] s.deliveredSeqs key ((p.pseq :: old).take 4096) }
        if p.dst = s.chipId then { s.oweCredit l p with inbound := s.inbound ++ [(l, p)] } else s.forward l p)
  | _, _ => .next s

/-! ## Writes of the shared link configuration (R309, R312, R492) -/

/-- `LINK_MASK_WRITE` (R309, R311, R312): cleared bits disable their links, set bits start their bring-up. -/
def execLinkMaskWrite (a : Agent) (value : Word32) (s : State) : Out State :=
  onUnit a.wf "agent" <|
  onAccess (.linkMaskWrite a value) s (fun s => onHostPf a 0x6000 s fun s =>
    let old := s.fld Fld.linkMaskEnable 0
    let s := s.setFld Fld.linkMaskEnable 0 value.toNat
    (List.range 20).foldl (fun s l =>
      if bitOf old l && !bitOf value.toNat l then s.maskOff l
      else if !bitOf old l && bitOf value.toNat l then s.startBringup l
      else s) s)

/-- `LINK_RT_WRITE` (R308, R309): reserved bits stay zero (R20) (log 121, DEDUCED). -/
def execLinkRtWrite (a : Agent) (chip : Nat) (value : BitVec 16) (s : State) : Out State :=
  onUnit (a.wf && chip < 2048) "chip" <|
  onAccess (.linkRtWrite a chip value) s (fun s => onHostPf a (0xA000 + 4 * chip) s fun s => s.setFld Fld.linkRtEntry chip (value.toNat % 4096))

/-- A link after a change of port membership (R298, R304, R492) (log 120, DEDUCED). -/
def State.rejoin (s : State) (l : Nat) : State :=
  if s.linkEligible l then (if s.linkState l = 0 then s.startBringup l else s.restartLink l)
  else if s.linkState l = 0 then s else s.stopLink l 0

/-- `LINK_PORT_WRITE` (R304, R309, R492): before the lock point. -/
def execLinkPortWrite (a : Agent) (port : Nat) (value : BitVec 20) (s : State) : Out State :=
  onUnit (a.wf && port < 20) "port" <|
  onAccess (.linkPortWrite a port value) s (fun s => onHostPf a (0x6100 + 8 * port) s fun s =>
    if s.locked then s
    else
      let before := (List.range 20).map s.portOf
      let s := s.setFld Fld.linkPortLinks port value.toNat
      ((List.range 20).filter (fun l => before.getD l none != s.portOf l)).foldl State.rejoin s)

/-- `LINK_TOPO_WRITE` (R12, R309, R492): before the lock point. -/
def execLinkTopoWrite (a : Agent) (value : BitVec 11) (s : State) : Out State :=
  onUnit a.wf "agent" <|
  onAccess (.linkTopoWrite a value) s (fun s => onHostPf a 0x6010 s fun s =>
    if s.locked || s.chipId = value.toNat then s
    else
      let s := s.setFld Fld.linkTopoChip 0 value.toNat
      (List.range 20).foldl (fun s l => if s.linkState l = 0 then s else s.restartLink l) s)

end Sys2Proof.Machine
end

