-- ==== Sys2Proof/Machine/Reliability.lean ====
section
/-! DEFINITION. Carries and substitutions (R387-R390), the repair of shared weights (R396-R398), and Assay (R405-R407). -/

namespace Sys2Proof.Machine

/-! ## Carries (R387-R390) -/

/-- The carry of a logical tile. -/
def State.carryOf (s : State) (t : Nat) : Option Carry := s.carries.find? (fun c => c.logical == t)

/-- The carry is over. -/
def State.dropCarry (s : State) (t : Nat) : State := { s with carries := s.carries.filter (fun c => c.logical != t) }

/-- The storage of a tile as it arrives at the spare: its state moves; what the spare's own cells have needed stays (R387, R393, R394). -/
def Tile.carriedTo (old spare : Tile) (tally : Nat) : Tile :=
  { old with rowSpare := spare.rowSpare, rowCorr := spare.rowCorr, wordCorr := spare.wordCorr, lastStep := tally }

/-- The old physical tile after its substitution (R387, R393, R406, R407): `QUARANTINE`; `FAILED` for a bank out of spare rows or at three tile
faults; `SPARE`, to be tested next, after a rotation. -/
def State.retireTile (s : State) (p : Nat) (c : Carry) : State :=
  let st := if c.rotation then 1 else if c.rowsOut || 3 ≤ s.fld Fld.tilePhysFences p then 4 else 2
  let s := (s.setFld Fld.tilePhysState p st).setTile p { (s.tile p).blank with halted := false, rowCorr := (s.tile p).rowCorr, wordCorr := (s.tile p).wordCorr }
  if c.rotation then { s with assay := { s.assay with next := s.assay.next ++ [.tile p] } } else s

/-- The binding of a logical tile has moved: `SUBST` counts, and the journal records both tiles (log 137, DEDUCED). -/
def State.substituted (s : State) (t old sp : Nat) : State :=
  let s := (s.bump Fld.tileRasSubst t 1).dropCarry t
  (s.journal recTile (s.tileRecord old)).journal recTile (s.tileRecord sp)

/-- A reissued `RSEND` sends every chunk again; its receiver discards what it holds (R324, R387). -/
def State.resendFrom (s : State) (t : Nat) : State :=
  let ids := (s.transfers.filter (fun x => x.tile == t)).map (·.id)
  let s := { s with transfers := s.transfers.map (fun x => if x.tile = t then { x with nextChunk := 0, resend := [], backoff := [] } else x) }
  ids.foldl State.pumpOne s

/-- The launch whose part runs on a tile ends, when its control state was lost; otherwise it goes on with `OK_REPLAYED` (R388, R389, R394). -/
def State.replayed (s : State) (p : Nat) (ctlLost : Bool) : State :=
  match (s.tile p).itemId with
  | none => s
  | some id => if ctlLost then s.failPart id stPoison else s.addStatus id stReplayed

/-- The issue steps of the operations that a spare reissues count again (R387, R427). -/
def State.replaySteps (s : State) (p : Nat) : State :=
  (s.tile p).ops.foldl (fun s x => s.tileEvent p x.insn.evClass x.occupancy) s

/-- The copy of a tile's scratchpad reads every row of the old tile and writes every row of the spare (R387), charged to the base (R427). -/
def State.carryRows (s : State) (p sp : Nat) : State :=
  (s.event baseContext evRow (islandOf p) spadRows).event baseContext evRow (islandOf sp) spadRows

/-- A carry can finish: neither tile lies in a region that the under-voltage guard holds (R415). -/
def State.carryFree (s : State) (p sp : Nat) : Bool := !s.flag Fld.pwrRegionUv (islandOf p) && !s.flag Fld.pwrRegionUv (islandOf sp)

/-- `CARRY_COMPLETE` (R387, R388, R389, R393, R394, R406): events 2 to 5. The words that the copy finds wrong count, and the units of uncorrectable ones arrive
poisoned; lost control state fails the launch part. The spare serves the logical tile and reissues what had issued and not completed; the
old tile leaves service. -/
def execCarryComplete (t : Nat) (words : List WordErr) (s : State) : Out State :=
  onUnit (t < 256) "tile" <|
  match s.carryOf t, s.physOf t with
  | some c, some p =>
    whenever (s.carryFree p c.spare) s <|
    let ws := words.filter (fun w => w.unit ≤ controlUnit)
    let s := ((s.carryRows p c.spare).countWords t ws).replayed p (c.ctlLost || ws.any (fun w => w.control && w.double))
    let tl := ((s.tile p).carriedTo (s.tile c.spare) s.tally).markUnits ((ws.filter (fun w => w.double && !w.control)).map (·.unit))
    let s := (s.setTile c.spare tl).retireTile p c
    let s := ((s.setFld Fld.tilePhysState c.spare 0).setFld Fld.tilePhysLogical c.spare t).setFlag Fld.tileArrayStrand t
      (s.flag Fld.tilePhysArrayFenced c.spare)
    (((s.substituted t p c.spare).resendFrom t).replaySteps c.spare).modeCheck.stir
  | _, _ => .next s

/-- `CARRY_TIMEOUT` (R177, R328, R389): the storage of the faulty tile has not answered for 2^16 counts, so the state is lost; storage that
the under-voltage guard holds takes no write until it lets go (R415). The launch part
fails, and the spare serves the logical tile with every row fresh and no residency (log 164, DEDUCED). -/
def execCarryTimeout (t : Nat) (s : State) : Out State :=
  onUnit (t < 256) "tile" <|
  match s.carryOf t, s.physOf t with
  | some c, some p =>
    if s.tally < c.since + 65536 || !s.carryFree p c.spare then .next s
    else
      let s := (match (s.tile p).itemId with
        | some id => s.failPart id stPoison
        | none => s)
      .next ((((s.endResidency t).retireTile p c).bindTile t c.spare).substituted t p c.spare).modeCheck.stir
  | _, _ => .next s

/-- A substitution with a carry, with no fault, of a logical tile on which no launch runs (R390, R407). -/
def State.startCarry (s : State) (t sp : Nat) (rotation : Bool) : State :=
  let s := s.stopAssayOf sp
  s.addCarry { logical := t, spare := sp, since := s.tally, ctlLost := false, rowsOut := false, rotation := rotation }

/-- A served logical tile on which no launch runs, and no carry. -/
def State.restingOn (s : State) (t : Nat) : Option Nat :=
  match s.physOf t with
  | some p => if (s.tile p).part.isNone && (s.carryOf t).isNone then some p else none
  | none => none

/-- `STRAND_SUBSTITUTION` (R390): a tile whose array is fenced is substituted once a spare exists and no launch runs on it. -/
def execStrandSubstitution (t : Nat) (s : State) : Out State :=
  onUnit (t < 256) "tile" <|
  match s.restingOn t, s.pickSpare with
  | some p, some sp => whenever (s.flag Fld.tilePhysArrayFenced p) s (s.startCarry t sp false)
  | _, _ => .next s

/-! ## Repairs (R396-R398) -/

/-- The next entry at or above a number that covers a granule. -/
def State.repairEntry (s : State) (g from_ : Nat) : Option Nat :=
  (List.range 16).find? (fun i => from_ ≤ i && s.repairCovered g i)

/-- An attempt got no usable data: the next entry is tried, or the repair has failed. -/
def State.attemptOver (s : State) (g i : Nat) : State :=
  match s.repairEntry g (i + 1) with
  | some _ => s.modRepair g (fun r => { r with untried := i + 1, waiting := none, got := [], late := [] })
  | none => s.endRepair g Fld.repairStatFailed

/-- The address of the copy of a granule: host physical or peer device address. -/
def State.copyAddr (s : State) (i g : Nat) : Nat :=
  let src := s.fld Fld.repairSrcSrc i
  (if s.fld Fld.repairSrcKind i = 0 then src else src % 2 ^ 40) + (g - s.fld Fld.repairSrcBase i)

/-- The request to a peer: its device address, the granule, and the entry (log 20, DESIGN CHOICE). -/
def State.repairPacket (s : State) (i g : Nat) : Packet :=
  Packet.make (bitsOf (s.fld Fld.repairSrcSrc i) 40 11) s.chipId .mgmt 0 0 .repairReq 0 0 0 [s.copyAddr i g, g, i] [] false

/-- The attempt on an entry begins. -/
def State.attempt (s : State) (g i : Nat) : State :=
  s.modRepair g (fun r => { r with waiting := some i, since := s.tally, got := [], late := [] })

/-- `REPAIR_START` (R301, R339, R341, R397): the first repair with nothing outstanding asks its next covering entry. A host copy is checked as an access of
context 0; a request to a peer waits while the link's MGMT queue is full. -/
def execRepairStart (s : State) : Out State :=
  match s.repairs.find? (fun r => r.waiting.isNone) with
  | none => .next s
  | some r =>
    match s.repairEntry r.granule r.untried with
    | none => .next (s.endRepair r.granule Fld.repairStatFailed)
    | some i =>
      if s.fld Fld.repairSrcKind i = 0 then
        .next (if s.hostPermits 0 (s.copyAddr i r.granule) 4096 false then s.attempt r.granule i
          else (s.bump Fld.hostErrOutside 0 1).attemptOver r.granule i)
      else
        let port := bitsOf (s.fld Fld.repairSrcSrc i) 51 5
        let p := s.repairPacket i r.granule
        if (if s.portUnreachable port then none else s.portLink port p).any s.mgmtFull then .next s
        else .next ((s.attempt r.granule i).inject p (some port)).1

/-- The fields of a repair answer: granule, entry, offset of the part, and whether the data can be used (log 20, DESIGN CHOICE) (log 131, DEDUCED). -/
def State.answerOf (s : State) (p : Packet) : Option Repair :=
  s.repairs.find? (fun r => r.granule == p.aux.getD 0 0 && r.waiting == some (p.aux.getD 1 0))

/-- A peer's answer. -/
def State.takeAnswer (s : State) (p : Packet) : State :=
  match s.answerOf p with
  | none => s
  | some r =>
    if p.aux.getD 3 0 = 0 || p.poison then s.attemptOver r.granule (p.aux.getD 1 0)
    else s.repairPart r.granule (p.aux.getD 2 0) p.payload

/-- A repair whose host copy can be read now. -/
def State.hostRepair (s : State) : Option (Repair × Nat) :=
  s.repairs.findSome? (fun r => match r.waiting with
    | some i => if s.fld Fld.repairSrcKind i = 0 && r.got.length < 8 && s.hostReady 0 && s.fns.linkUp &&
        s.hostPermits 0 (s.copyAddr i r.granule) 4096 false && !s.hostMarked (s.copyAddr i r.granule) 4096 then some (r, i) else none
    | none => none)

/-- The parts of a granule as the host's copy gives them. -/
def State.repairHost (s : State) (r : Repair) (i : Nat) : State :=
  let bytes := Mem.readRange s.host (s.copyAddr i r.granule) 4096
  (List.range 8).foldl (fun (s : State) k => s.repairPart r.granule (512 * k) ((bytes.drop (512 * k)).take 512)) (s.event baseContext evCxl noRegion 64)

/-- `REPAIR_RESPONSE` (R397, R398): the data of a copy arrives: a peer's answer, or the host's. Codewords that a poison fill has not passed wait for it. -/
def execRepairResponse (s : State) : Out State :=
  s.accepting <| match s.inbound.find? (fun e => e.2.kind == .repairResp) with
  | some e => .next (({ s with inbound := s.inbound.erase e }).takeAnswer e.2)
  | none =>
    match s.hostRepair with
    | some (r, i) => .next (s.repairHost r i)
    | none => .next s

/-- A range lies in one enabled entry of `KIND` 2. -/
def State.serves (s : State) (a n : Nat) : Bool :=
  (List.range 16).any (fun i => s.flag Fld.repairSrcEnable i && s.fld Fld.repairSrcKind i == 2 &&
    within a n (s.fld Fld.repairSrcBase i) (s.fld Fld.repairSrcSize i))

/-- The answer to a request: eight parts of 512 bytes on RESPONSE (log 20, DESIGN CHOICE), zeros marked unavailable when there is no data. -/
def State.answer (s : State) (q : Packet) (bytes : List Byte) (ok : Bool) : State :=
  (List.range 8).foldl (fun (s : State) k =>
    s.send (Packet.make q.src s.chipId .response 0 0 .repairResp 0 0 0 [q.aux.getD 1 0, q.aux.getD 2 0, 512 * k, if ok then 1 else 0]
      (if ok then (bytes.drop (512 * k)).take 512 else List.replicate 512 0) false)) s

/-- `REPAIR_PEER_REQUEST` (R397, R425): this chip answers from a range that a serve entry covers, with zeros marked unavailable when its own copy is poisoned or
no entry covers the range. -/
def execRepairPeerRequest (s : State) : Out State :=
  match s.inbound.find? (fun e => e.2.kind == .repairReq) with
  | none => .next s
  | some e => s.accepting <| onAwake s fun s =>
    let s := { s with inbound := s.inbound.erase e }
    let a := e.2.aux.getD 0 0
    if !s.serves a 4096 then s.answer e.2 [] false
    else
      let r := s.takeFor baseContext a 4096
      r.2.2.answer e.2 r.1 (!r.2.1)

/-- `REPAIR_ATTEMPT_TIMEOUT` (R397, R398): 5 ms without usable data. Data that has arrived and waits for a poison fill is usable. -/
def execRepairAttemptTimeout (s : State) : Out State :=
  match s.repairs.find? (fun r => r.waiting.isSome && r.got.length < 8 && r.since + 5000000 ≤ s.tally) with
  | none => .next s
  | some r => .next (s.attemptOver r.granule (r.waiting.getD 0))

/-! ## Assay (R405-R407) -/

/-- The period between tests of one unit in counts: `PERIOD` hours, 0 treated as 1 (R408). -/
def State.assayPeriod (s : State) : Nat := max 1 (s.fld Fld.assayCtlPeriod 0) * 3600 * 1000000000

/-- The key of a unit's last test. -/
def assayKey : AssayUnit → Nat
  | .tile p => p
  | .lane g => 1000 + g
  | .channel c => 2000 + c

/-- A moment kept as 1 + count lies a period back, or there is none (log 135, DEDUCED). -/
def State.periodDue (s : State) (last : Nat) : Bool := last == 0 || last - 1 + s.assayPeriod ≤ s.tally

/-- A unit's test is due. -/
def State.testDue (s : State) (u : AssayUnit) : Bool := s.periodDue (Tab.get 0 s.assay.lastTest (assayKey u))

/-- Assay runs: in P0 and P1, and not on a part whose life cycle has it off (R405). -/
def State.assayRuns (s : State) : Bool := s.fld Fld.pwrStatState 0 < 2 && !s.flag Fld.secStatNoAssay 0

/-- The state of a unit (R405): `TILE_PHYS.STATE`, the lane's state, `MEM_CHSTAT.STATE`. -/
def State.unitState (s : State) : AssayUnit → Nat
  | .tile p => s.fld Fld.tilePhysState p
  | .lane g => s.lane (g / 5) (g % 5)
  | .channel c => s.fld Fld.memChstatState c

/-- The unit holds no work, and may be tested: a tile in `SPARE` that no carry has taken or in `QUARANTINE`, a spare or failed lane of an up link, an
idle spare channel or an unbound one that is retired or failed (R405). -/
def State.testable (s : State) (u : AssayUnit) : Bool :=
  match u with
  | .tile p => (s.unitState u == 1 && !s.carries.any (fun c => c.spare == p)) || s.unitState u == 2
  | .lane g => s.linkState (g / 5) == 2 && (s.unitState u == 1 || s.unitState u == 2)
  | .channel c => (s.slotOf c).isNone && (s.unitState u == 1 || s.unitState u == 3 || s.unitState u == 4)

/-- The unit is failed without a test: it has failed three times, or left service twice (R406). -/
def State.wornOut (s : State) : AssayUnit → Bool
  | .tile p => s.fld Fld.tilePhysState p == 2 && 3 ≤ s.fld Fld.tilePhysFences p
  | .lane g => 3 ≤ Tab.get 0 s.assay.laneFails g
  | .channel c => 2 ≤ Tab.get 0 s.chans.departures c

/-- The enable bit and the `BUSY` code of a unit's kind (R408). -/
def State.assayEnabled (s : State) : AssayUnit → Bool
  | .tile _ => s.flag Fld.assayCtlTileEn 0
  | .lane _ => s.flag Fld.assayCtlLaneEn 0
  | .channel _ => s.flag Fld.assayCtlChanEn 0
def assayBusy : AssayUnit → Nat
  | .tile _ => 1
  | .lane _ => 2
  | .channel _ => 3

/-- The unit is failed. -/
def State.failUnit (s : State) (u : AssayUnit) : State :=
  match u with
  | .tile p => let s := s.setFld Fld.tilePhysState p 4; s.journal recTile (s.tileRecord p)
  | .lane _ => s
  | .channel c => if s.fld Fld.memChstatState c = 4 then s else (s.setFld Fld.memChstatState c 4).journal recChannel [c, 4, 0x3F]

/-- The unit that Assay tests next after a rotation took it out of service (R407). -/
def State.assayNext (s : State) : Option AssayUnit := s.assay.next.find? (fun u => s.assayEnabled u && s.testable u)

/-- The test of a unit may start now: it is the one that comes next, or none comes next and it is due, or a quarantined tile (R405, R407). -/
def State.testTurn (s : State) (u : AssayUnit) : Bool :=
  match s.assayNext with
  | some v => u == v
  | none => s.testDue u || (s.unitState u == 2 && assayBusy u == 1)

/-- `ASSAY_TEST_START` (R405-R407). -/
def execAssayTestStart (u : AssayUnit) (s : State) : Out State :=
  onUnit u.wf "unit" <|
  whenever (s.assayRuns && s.assay.unit.isNone && s.assayEnabled u && s.testable u && s.testTurn u) s <|
  let s := { s with assay := { s.assay with next := s.assay.next.filter (· != u) } }
  if s.wornOut u then s.failUnit u
  else
    let s' := { s with assay := { s.assay with unit := some (u, s.unitState u) } }.setFld Fld.assayStatBusy 0 (assayBusy u)
    match u with
    | .tile p => let s' := s'.setFld Fld.tilePhysState p 3; s'.journal recTile (s'.tileRecord p)
    | .lane _ | .channel _ => s'

/-- A lane's test has ended: a failed lane that passes becomes spare; a lane that fails stays or becomes failed (log 133, DEDUCED). -/
def State.laneTested (s : State) (g : Nat) (passed : Bool) : State :=
  let l := g / 5
  let n := g % 5
  if !passed then s.failLane l n
  else if s.lane l n = 2 then (s.setLane l n 1).journal recLane [g, 1, Tab.get 0 s.assay.laneFails g]
  else s

/-- A physical tile's test has ended: `SPARE` with `ARRAY_FENCED` cleared, or `FAILED`. Its storage holds nothing. -/
def State.tileTested (s : State) (p : Nat) (passed : Bool) : State :=
  let s := (s.setFld Fld.tilePhysState p (if passed then 1 else 4)).bump Fld.tilePhysAssayRuns p 1
  let s := if passed then s.setFlag Fld.tilePhysArrayFenced p false else s
  let s := s.setTile p (s.tile p).blank
  (s.journal recTile (s.tileRecord p)).modeCheck

/-- A channel's test has ended: `SPARE_IDLE` or `FAILED` (log 109, DEDUCED). -/
def State.chanTested (s : State) (c : Nat) (passed : Bool) : State :=
  let s := (s.clearChan c).setFld Fld.memChstatState c (if passed then 1 else 4)
  let s := { s with chans := { s.chans with ceAtTest := Tab.set 0 s.chans.ceAtTest c (s.fld Fld.memChstatCe c) } }
  (s.journal recChannel [c, if passed then 1 else 4, 0x3F]).passEnd

/-- A test ends with nothing under test. -/
def State.assayIdle (s : State) : State :=
  { s with assay := { s.assay with unit := none } }.setFld Fld.assayStatBusy 0 0

/-- The unit lies in a region that the under-voltage guard holds, so no test ends there (R415). -/
def State.unitHeld (s : State) : AssayUnit → Bool
  | .tile p => s.flag Fld.pwrRegionUv (islandOf p)
  | .lane _ | .channel _ => false

/-- `ASSAY_TEST_COMPLETE` (R405): the unit passed or failed. A lane or channel that was taken into service meanwhile is no longer under test (log 136, DEDUCED). -/
def execAssayTestComplete (passed : Bool) (s : State) : Out State :=
  match s.assay.unit with
  | none => .next s
  | some (u, prior) =>
    let s1 := s.assayIdle
    let gone := match u with
      | .tile _ => false
      | .lane _ | .channel _ => s.unitState u != prior
    if s.unitHeld u then .next s
    else if gone then .next s1
    else
      let s2 := s1.bump (if passed then Fld.assayStatPass else Fld.assayStatFail) 0 1
      let s3 := { s2 with assay := { s2.assay with lastTest := Tab.set 0 s2.assay.lastTest (assayKey u) (s2.tally + 1) } }
      .next (match u with
        | .tile p => s3.tileTested p passed
        | .lane g => s3.laneTested g passed
        | .channel c => s3.chanTested c passed)

/-- `CE` of a channel since its last test. -/
def State.ceSince (s : State) (c : Nat) : Nat := s.fld Fld.memChstatCe c - Tab.get 0 s.chans.ceAtTest c

/-- The channels of a stack that serve a slot and may be rotated. -/
def State.rotatable (s : State) (stack : Nat) : List Nat :=
  ((List.range 34).map (34 * stack + ·)).filter (fun c => s.fld Fld.memChstatState c == 0 &&
    (match s.slotOf c with
    | some l => !s.flag Fld.memChmapFenced l
    | none => false))

/-- The channel of a list with the highest `CE` since its last test; the lowest-numbered of equals. -/
def State.worstChan (s : State) (cs : List Nat) : Option Nat :=
  cs.foldl (fun best c => match best with
    | none => some c
    | some b => if s.ceSince b < s.ceSince c then some c else some b) none

/-- A stack with an idle spare requests the migration of its worst channel (R260, R407). -/
def State.rotateStack (s : State) (stack : Nat) : State :=
  if (s.idleSpare stack).isNone then s
  else match s.worstChan (s.rotatable stack) with
    | none => s
    | some c => if s.chans.requested.contains c then s else { s with chans := { s.chans with requested := s.chans.requested ++ [c] } }

/-- A spare that passed a test within the period. -/
def State.freshSpare (s : State) : Option Nat :=
  (s.physIn 1).find? (fun p => !s.carries.any (fun c => c.spare == p) && !s.testDue (.tile p))

/-- The logical tile whose turn it is: the next in ascending index that a physical tile serves. -/
def State.rotateNext (s : State) : Option Nat :=
  ((List.range 256).map (fun k => (s.assay.nextTile + k) % 256)).find? (fun t => (s.physOf t).isSome)

/-- `ASSAY_ROTATION` (R387, R407): once per period, with `ROTATE` = 1. It waits for the moment at which no launch runs on the tile (log 134, DEDUCED). -/
def execAssayRotation (s : State) : Out State :=
  if !(s.assayRuns && s.flag Fld.assayCtlRotate 0 && s.periodDue s.assay.lastRotation) then .next s
  else
    let done (s : State) : State :=
      let s := (List.range 8).foldl State.rotateStack s
      { s with assay := { s.assay with lastRotation := s.tally + 1 } }
    match s.rotateNext, s.freshSpare with
    | some t, some sp =>
      if (s.restingOn t).isNone then .next s
      else
        let s := { s with assay := { s.assay with nextTile := (t + 1) % 256 } }
        .next (done (s.startCarry t sp true))
    | _, _ => .next (done s)

end Sys2Proof.Machine
end

