-- ==== Sys2Proof/Machine/Sha.lean ====
section
/-! DEFINITION. SHA-384 (FIPS 180-4), which Signet's measurement registers and image checks use (R433, R439). -/

namespace Sys2Proof.Machine

/-- The 80 round constants. -/
def shaK : List Word64 :=
  [0x428A2F98D728AE22, 0x7137449123EF65CD, 0xB5C0FBCFEC4D3B2F, 0xE9B5DBA58189DBBC,
   0x3956C25BF348B538, 0x59F111F1B605D019, 0x923F82A4AF194F9B, 0xAB1C5ED5DA6D8118,
   0xD807AA98A3030242, 0x12835B0145706FBE, 0x243185BE4EE4B28C, 0x550C7DC3D5FFB4E2,
   0x72BE5D74F27B896F, 0x80DEB1FE3B1696B1, 0x9BDC06A725C71235, 0xC19BF174CF692694,
   0xE49B69C19EF14AD2, 0xEFBE4786384F25E3, 0x0FC19DC68B8CD5B5, 0x240CA1CC77AC9C65] ++
  [0x2DE92C6F592B0275, 0x4A7484AA6EA6E483, 0x5CB0A9DCBD41FBD4, 0x76F988DA831153B5,
   0x983E5152EE66DFAB, 0xA831C66D2DB43210, 0xB00327C898FB213F, 0xBF597FC7BEEF0EE4,
   0xC6E00BF33DA88FC2, 0xD5A79147930AA725, 0x06CA6351E003826F, 0x142929670A0E6E70,
   0x27B70A8546D22FFC, 0x2E1B21385C26C926, 0x4D2C6DFC5AC42AED, 0x53380D139D95B3DF,
   0x650A73548BAF63DE, 0x766A0ABB3C77B2A8, 0x81C2C92E47EDAEE6, 0x92722C851482353B] ++
  [0xA2BFE8A14CF10364, 0xA81A664BBC423001, 0xC24B8B70D0F89791, 0xC76C51A30654BE30,
   0xD192E819D6EF5218, 0xD69906245565A910, 0xF40E35855771202A, 0x106AA07032BBD1B8,
   0x19A4C116B8D2D0C8, 0x1E376C085141AB53, 0x2748774CDF8EEB99, 0x34B0BCB5E19B48A8,
   0x391C0CB3C5C95A63, 0x4ED8AA4AE3418ACB, 0x5B9CCA4F7763E373, 0x682E6FF3D6B2B8A3,
   0x748F82EE5DEFB2FC, 0x78A5636F43172F60, 0x84C87814A1F0AB72, 0x8CC702081A6439EC] ++
  [0x90BEFFFA23631E28, 0xA4506CEBDE82BDE9, 0xBEF9A3F7B2C67915, 0xC67178F2E372532B,
   0xCA273ECEEA26619C, 0xD186B8C721C0C207, 0xEADA7DD6CDE0EB1E, 0xF57D4F7FEE6ED178,
   0x06F067AA72176FBA, 0x0A637DC5A2C898A6, 0x113F9804BEF90DAE, 0x1B710B35131C471B,
   0x28DB77F523047D84, 0x32CAAB7B40C72493, 0x3C9EBE0A15C9BEBC, 0x431D67C49C100D4C,
   0x4CC5D4BECB3E42B6, 0x597F299CFC657E2A, 0x5FCB6FAB3AD6FAEC, 0x6C44198C4A475817]

/-- The initial hash value of SHA-384. -/
def shaInit : List Word64 :=
  [0xCBBB9D5DC1059ED8, 0x629A292A367CD507, 0x9159015A3070DD17, 0x152FECD8F70E5939,
   0x67332667FFC00B31, 0x8EB44A8768581511, 0xDB0C2E0D64F98FA7, 0x47B5481DBEFA4FA4]

/-- A right rotation. -/
def ror (x : Word64) (n : Nat) : Word64 := x.rotateRight n

def shaS0 (x : Word64) : Word64 := ror x 28 ^^^ ror x 34 ^^^ ror x 39
def shaS1 (x : Word64) : Word64 := ror x 14 ^^^ ror x 18 ^^^ ror x 41
def shaW0 (x : Word64) : Word64 := ror x 1 ^^^ ror x 8 ^^^ (x >>> 7)
def shaW1 (x : Word64) : Word64 := ror x 19 ^^^ ror x 61 ^^^ (x >>> 6)

/-- The message schedule: `n` more words after the last sixteen, oldest first. -/
def shaSchedule : Nat → List Word64 → List Word64
  | 0, _ => []
  | n + 1, w =>
    let x := shaW1 (w.getD 14 0) + w.getD 9 0 + shaW0 (w.getD 1 0) + w.getD 0 0
    x :: shaSchedule n (w.drop 1 ++ [x])

/-- One round over the working variables a to h. -/
def shaRound (v : List Word64) (kw : Word64 × Word64) : List Word64 :=
  match v with
  | [a, b, c, d, e, f, g, h] =>
    let t1 := h + shaS1 e + ((e &&& f) ^^^ (~~~e &&& g)) + kw.1 + kw.2
    let t2 := shaS0 a + ((a &&& b) ^^^ (a &&& c) ^^^ (b &&& c))
    [t1 + t2, a, b, c, d + t1, e, f, g]
  | _ => v

/-- One block of 128 bytes. -/
def shaBlock (h : List Word64) (block : List Byte) : List Word64 :=
  let w := (List.range 16).map (fun i => BitVec.ofNat 64 (leNat ((block.drop (8 * i)).take 8).reverse))
  let v := (shaK.zip (w ++ shaSchedule 64 w)).foldl shaRound h
  List.zipWith (· + ·) h v

/-- The padded message: a one bit, zeros, and the length in bits as 16 big-endian bytes. -/
def shaPad (bs : List Byte) : List Byte :=
  let z := (239 - bs.length % 128) % 128
  bs ++ [0x80] ++ List.replicate z 0 ++ (leBytes 16 (8 * bs.length)).reverse

/-- The blocks of a message, at most `n`. -/
def shaBlocks : Nat → List Word64 → List Byte → List Word64
  | 0, h, _ => h
  | n + 1, h, bs => if bs.isEmpty then h else shaBlocks n (shaBlock h (bs.take 128)) (bs.drop 128)

/-- SHA-384 of bytes: 48 bytes. -/
def sha384 (bs : List Byte) : List Byte :=
  let p := shaPad bs
  ((shaBlocks (p.length / 128) shaInit p).take 6).flatMap (fun w => (leBytes 8 w.toNat).reverse)

end Sys2Proof.Machine
end

