-- ==== Sys2Proof/Machine/Security.lean ====
section
/-! DEFINITION. Signet and the MGC (R430-R453): images and the boot chain, measurements, the journal store, and the watchdog of the MGC. -/

namespace Sys2Proof.Machine

/-! ## Measurements (R439) -/

/-- Measurement register n. -/
def State.measured (s : State) (n : Nat) : List Byte := leBytes 48 (s.fld Fld.measValue n)

/-- Measurement register n is extended with 48 bytes (log 153, DEDUCED). -/
def State.extendMeas (s : State) (n : Nat) (v : List Byte) : State := s.setFld Fld.measValue n (leNat (sha384 (s.measured n ++ v)))

/-- The firmware writes 4 bytes of a value that extends measurement register n, 5 to 7; with the last of the 48 the register is extended (R439, R450)
(log 200, DESIGN CHOICE). -/
def State.measurePart (s : State) (n b v : Nat) : State :=
  if n < 5 then s
  else
    let old := Tab.get 0 s.sec.measIn n
    let new := old - old / 2 ^ (8 * b) % 2 ^ 32 * 2 ^ (8 * b) + v % 2 ^ 32 * 2 ^ (8 * b)
    let keep (x : Nat) (s : State) : State := { s with sec := { s.sec with measIn := Tab.set 0 s.sec.measIn n x } }
    if b = 44 then (keep 0 s).extendMeas n (leBytes 48 new) else keep new s

/-- A change of the life cycle or of the debug level is measured (R439, R453, R457). -/
def State.measureChange (s : State) : State :=
  s.extendMeas 3 (sha384 (Config.securityChange (s.fld Fld.secStatLc 0) (s.fld Fld.secStatLevel 0)))

/-- The life cycle becomes `lc`, and the change is measured. -/
def State.setLc (s : State) (lc : Nat) : State :=
  if s.fld Fld.secStatLc 0 = lc then s else (s.setFld Fld.secStatLc 0 lc).measureChange

/-! ## Records (R444, R446) -/

/-- The payload of a record: a multiple of 8 bytes, at most 4,000 (log 8, DEDUCED). -/
def recPayload (type : Nat) (args : List Nat) : List Byte :=
  let b := (Config.recordPayload type args).take 4000
  b ++ List.replicate (alignUp b.length 8 - b.length) 0

/-- The bytes of a record that its CRC and its MAC cover. -/
def JRec.body (r : JRec) : List Byte :=
  let p := recPayload r.type r.args
  leBytes 2 0x4A52 ++ leBytes 2 r.type ++ leBytes 2 p.length ++ leBytes 2 0 ++ leBytes 8 r.seq ++ leBytes 8 r.tally ++ p

/-- The first n of some bytes, followed by zeros up to n. -/
def fitBytes (n : Nat) (bs : List Byte) : List Byte := bs.take n ++ List.replicate (n - bs.length) 0

/-- The MAC of a record over its body and its CRC: 16 bytes. -/
def macOf (bs : List Byte) : List Byte := fitBytes 16 (Config.recordMac bs)

/-- The bytes of a record. -/
def JRec.bytes (r : JRec) : List Byte :=
  let b := r.body ++ leBytes 4 (crc32c r.body).toNat
  b ++ macOf b

/-- What the flash holds of a record up to the next 64-byte boundary: its bytes, or what was written of them, and 0xFF. -/
def JRec.stored (r : JRec) : List Byte :=
  let b := r.torn.getD r.bytes
  b ++ List.replicate (alignUp b.length 64 - b.length) 0xFF

/-- The space a record takes in a half. -/
def JRec.space (r : JRec) : Nat := r.stored.length

/-! ## The log of a half (R431, R445) -/

/-- The `MAGIC`, `CRC` and `MAC` of stored bytes match (R445). -/
def recordOk (bs : List Byte) : Bool :=
  let n := leAt bs 4 2
  leAt bs 0 2 == 0x4A52 && n ≤ 4000 && leAt bs (0x18 + n) 4 == (crc32c (bs.take (0x18 + n))).toNat &&
    (bs.drop (0x1C + n)).take 16 == macOf (bs.take (0x1C + n))

/-- The record matches: one that was written wholly does, since Signet made its `CRC` and `MAC`. -/
def JRec.intact (r : JRec) : Bool := r.torn.isNone || recordOk r.stored

/-- The valid records of a half after one with the given `SEQ`; the first record's `SEQ` is its `GENESIS` value. The log ends at the first record that is not
valid (R445). -/
def validAfter : Option Nat → List JRec → List JRec
  | _, [] => []
  | prev, r :: rest =>
    let next := match prev with
      | none => r.args.getD 1 0
      | some n => n + 1
    if r.intact && r.seq == next then r :: validAfter (some r.seq) rest else []

/-- The records of a half as the flash holds them. -/
def Security.half (c : Security) (h : Nat) : List JRec := if h = 0 then c.half0 else c.half1

/-- The records of a half replaced. -/
def Security.setHalf (c : Security) (h : Nat) (l : List JRec) : Security :=
  if h = 0 then { c with half0 := l } else { c with half1 := l }

/-- The log of a half: its valid records. -/
def Security.log (c : Security) (h : Nat) : List JRec := validAfter none (c.half h)

/-- The log of a half ends torn: the first word of what follows is not 0xFFFF. -/
def Security.logTorn (c : Security) (h : Nat) : Bool :=
  ((c.half h).drop (c.log h).length).head?.any (fun r => leAt r.stored 0 2 != 0xFFFF)

/-! ## The two halves (R431, R448, R449) -/

/-- The generation of a half, and its snapshot point, from its `GENESIS` record; 0 in an erased half. -/
def Security.gen (c : Security) (h : Nat) : Nat := ((c.log h).head?.map (fun r => r.args.getD 0 0)).getD 0
def Security.point (c : Security) (h : Nat) : Nat := ((c.log h).head?.map (fun r => r.args.getD 1 0)).getD 0

/-- The records of a log after its `SEAL`; none without one. -/
def sealedTail : List JRec → Option (List JRec)
  | [] => none
  | r :: rest => if r.type = recSeal then some rest else sealedTail rest

/-- The records of half `old` past the snapshot point of half `new` that `new` does not hold yet; none before `SEAL` (R448). -/
def Security.toCopy (c : Security) (old new : Nat) : Option (List JRec) :=
  (sealedTail (c.log new)).map (fun tail => ((c.log old).filter (fun r => c.point new < r.seq)).drop tail.length)

/-- The active half (R448, R449): that with the larger generation once it is sealed and holds every record past its snapshot point. -/
def Security.active (c : Security) : Nat :=
  let n := if c.gen 0 < c.gen 1 then 1 else 0
  if c.gen (1 - n) = 0 || c.toCopy (1 - n) n == some [] then n else 1 - n

def State.activeHalf (s : State) : Nat := s.sec.active

/-- The log of the active half. -/
def State.log (s : State) : List JRec := s.sec.log s.activeHalf

/-- `SEQ` of the latest record. -/
def State.logSeq (s : State) : Nat := (s.log.getLast?.map (fun r => r.seq)).getD 0

/-- Bytes of the active half that are still erased: a half is 64 MiB. -/
def State.logFree (s : State) : Nat := 0x4000000 - ((s.sec.half s.activeHalf).map JRec.space).foldl (· + ·) 0

/-- Records after one with `SEQ` `n`, numbered in order. -/
def numbered (n : Nat) (l : List (Nat × List Nat × Nat)) : List JRec :=
  l.zipIdx.map (fun e => { type := e.1.1, args := e.1.2.1, seq := n + 1 + e.2, tally := e.1.2.2, torn := none })

/-- The `GENESIS` record of a generation with its snapshot point, which is its `SEQ`. -/
def genesis (gen point tally : Nat) : JRec := { type := recGenesis, args := [gen, point], seq := point, tally := tally, torn := none }

/-- The log that a record is written behind: an erased one begins with `GENESIS` and `SEAL` of generation 1 (log 148, DEDUCED). -/
def State.logBegun (s : State) : List JRec :=
  if s.log.isEmpty then genesis 1 0 s.tally :: numbered 0 [(recSeal, [], s.tally)] else s.log

/-- The active half with the record of a change behind its log. What a torn record left there is passed over (log 151, DEDUCED). -/
def State.withRecord (s : State) (e : Nat × List Nat × Nat) : List JRec :=
  let l := s.logBegun
  l ++ numbered ((l.getLast?.map (fun r => r.seq)).getD 0) [e]

/-- `JOURNAL_RECORD_WRITE` (R444, R446, R447): the record of the oldest change that is not durable is written. -/
def execJournalRecordWrite (s : State) : Out State :=
  match s.sec.changes with
  | [] => .next s
  | e :: rest =>
    whenever s.awake s <|
    let s := { s with sec := { s.sec.setHalf s.activeHalf (s.withRecord e) with changes := rest } }
    if e.1 = recTrip then { s with pins := { s.pins with tripRecorded := true } } else s

/-- `VAUX` is lost with `n` bytes of the oldest change's record in the flash (R478). -/
def State.tearRecord (s : State) (n : Nat) : State :=
  match s.sec.changes with
  | [] => s
  | e :: _ =>
    if n = 0 then s
    else
      let l := s.withRecord e
      { s with sec := s.sec.setHalf s.activeHalf (l.dropLast ++ l.getLast?.toList.map (fun r =>
          if n < r.bytes.length then { r with torn := some (r.bytes.take n) } else r)) }

/-- The unit that a record concerns: what its latest record supersedes. -/
def JRec.unit (r : JRec) : Nat × List Nat :=
  if r.type = recRowSpare then (r.type, r.args.take 3)
  else if r.type = recTileMode || r.type = recCalib || r.type = recDebugSession then (r.type, [])
  else (r.type, r.args.take 1)

/-- A snapshot carries no record of this type (R448). -/
def transient (type : Nat) : Bool :=
  type == recTrip || type == recAudit || type == recBound || type == recGenesis || type == recSeal

/-- The record says what the factory state says (R482). -/
def JRec.factory (r : JRec) : Bool :=
  let a := r.args
  if r.type = recTile then
    (if a.getD 0 0 < 256 then a.drop 1 == [0, a.getD 0 0, 0, 0, 0] else a.getD 1 0 == 1 && a.drop 3 == [0, 0, 0])
  else if r.type = recChannel then
    (if a.getD 0 0 % 34 < 32 then a.drop 1 == [0, a.getD 0 0 % 34] else a.getD 1 0 == 1)
  else if r.type = recTileMode then a.getD 0 0 == 0
  else if r.type = recDebugSession then a.getD 0 0 == 0
  else if r.type = recMapout then a.getD 1 0 == 0
  else false

/-- The latest record of each unit that differs from the factory state, in the order of the log. -/
def snapshot : List JRec → List (Nat × List Nat)
  | [] => []
  | r :: rest =>
    if transient r.type || r.factory || rest.any (fun q => q.unit == r.unit) then snapshot rest
    else (r.type, r.args) :: snapshot rest

/-- What follows `GENESIS` in half `new`: the snapshot of half `old` up to the snapshot point, and `SEAL` (R448). -/
def State.snapshotTail (s : State) (old new : Nat) : List JRec :=
  let snap := snapshot ((s.sec.log old).filter (fun r => r.seq ≤ s.sec.point new))
  numbered (s.sec.point new) ((snap ++ [(recSeal, [])]).map (fun (e : Nat × List Nat) => (e.1, e.2, s.tally)))

/-- The copies of records that half `new` does not hold yet, behind its log. -/
def State.copyTail (s : State) (old new : Nat) : List JRec :=
  let l := s.sec.log new
  numbered ((l.getLast?.map (fun r => r.seq)).getD 0) (((s.sec.toCopy old new).getD []).map (fun r => (r.type, r.args, r.tally)))

/-- `JOURNAL_COMPACTION` (R448), a step at a time: with less than 8 MiB free the other half is erased and takes `GENESIS` (steps 1 and 2); then the snapshot and
`SEAL` (step 3); then the records made meanwhile, with which it becomes active (steps 4 and 5); then the old half is erased (log 149, DEDUCED). -/
def execJournalCompaction (s : State) : Out State :=
  let h := s.activeHalf
  let o := 1 - h
  let on := s.flag Fld.journalStatCompacting 0
  whenever (s.awake && (on || s.logFree < 0x800000)) s <|
  if !on then
    ({ s with sec := s.sec.setHalf o [genesis (s.sec.gen h + 1) s.logSeq s.tally] }).setFlag Fld.journalStatCompacting 0 true
  else if s.sec.gen o < s.sec.gen h then ({ s with sec := s.sec.setHalf o [] }).setFlag Fld.journalStatCompacting 0 false
  else if (sealedTail (s.sec.log o)).isNone then { s with sec := s.sec.setHalf o (s.sec.log o ++ s.snapshotTail h o) }
  else { s with sec := s.sec.setHalf o (s.sec.log o ++ s.copyTail h o) }

/-- At start-up the half that is not used is erased (R449). -/
def State.dropOldHalf (s : State) : State := { s with sec := s.sec.setHalf (1 - s.activeHalf) [] }

/-! ## Images (R433, R434) -/

/-- The slot size of a kind (R431). -/
def slotSize (kind : Nat) : Nat := if kind = 1 then 0x400000 else if kind = 2 then 0x2000000 else 0xC00000

end Sys2Proof.Machine

namespace Sys2Proof

open Machine

/-- `SVN` and `VERSION` of an image. -/
def Image.svn (i : Image) : Nat := leAt i.signed 0x0C 4
def Image.version (i : Image) : Nat := leAt i.signed 0x08 4

/-- A field of zeros. -/
def zeroAt (bs : List Byte) (a n : Nat) : Bool := leAt bs a n == 0

/-- The key material of a header or a token that begins at `a`: `RSA_N`, `RSA_E` and `SLH_PK` (R433, R455). -/
def rsaKeyAt (bs : List Byte) (a : Nat) : List Byte := (bs.drop a).take 388
def slhKeyAt (bs : List Byte) (a : Nat) : List Byte := (bs.drop (a + 400)).take 48

/-- Step 1 of R434: the header's fixed fields, the size, and the reserved fields. -/
def Image.formOk (i : Image) (kind : Nat) : Bool :=
  i.signed.length == 0x240 && i.rsaSig.length == 384 && i.slhSig.length == 16224 && leAt i.signed 0 4 == 0x5746564F && leAt i.signed 4 2 == 1 &&
    leAt i.signed 6 1 == kind && leAt i.signed 0x10 4 == i.payload.length && i.payload.length + 0x4400 ≤ slotSize kind &&
    zeroAt i.signed 0x14 12 && zeroAt i.signed 0x1D4 12 && zeroAt i.signed 0x210 48 && i.tail.length == 224 && i.tail.all (· == 0)

/-- The bytes of an image in its slot. -/
def Image.bytes (i : Image) : List Byte := i.signed ++ i.rsaSig ++ i.slhSig ++ i.tail ++ i.payload

end Sys2Proof

namespace Sys2Proof.Machine

/-- Key material matches root key k: it hashes to what the ROM holds, and the key is not revoked (R432-R434). -/
def State.keyOk (s : State) (k : Nat) (material : List Byte) : Bool :=
  sha384 material == Config.rootKeyHash k && k < 4 && !bitOf s.sec.revoked k

/-- The SVN floor of a kind. -/
def State.floorOf (s : State) (kind : Nat) : Nat := Tab.get 0 s.sec.floors kind

/-- Both signatures of some bytes verify under the key material at `a` in them. -/
def rsaOk (signed : List Byte) (a : Nat) (sig : List Byte) : Bool := Config.rsaVerifies (rsaKeyAt signed a) signed sig
def slhOk (signed : List Byte) (a : Nat) (sig : List Byte) : Bool := Config.slhVerifies (slhKeyAt signed a) signed sig

/-- An image is valid for a kind (R434). -/
def State.valid (s : State) (kind : Nat) (i : Image) : Bool :=
  i.formOk kind && s.keyOk (leAt i.signed 7 1) (rsaKeyAt i.signed 0x50 ++ slhKeyAt i.signed 0x50) &&
    sha384 i.payload == (i.signed.drop 0x20).take 48 && rsaOk i.signed 0x50 i.rsaSig && slhOk i.signed 0x50 i.slhSig && s.floorOf kind ≤ i.svn

/-- The image in a slot. -/
def State.slotImage (s : State) (kind slot : Nat) : Option Image := Tab.get none s.sec.slots (2 * kind + slot)

/-- An image written to a slot. -/
def State.putSlot (s : State) (kind slot : Nat) (i : Image) : State :=
  { s with sec := { s.sec with slots := Tab.set none s.sec.slots (2 * kind + slot) (some i) } }

/-- The slot that the latest `SLOT_ACTIVE` record of a kind names, a change that is not durable yet included. -/
def State.namedSlot (s : State) (kind : Nat) : Option Nat :=
  let recs := (s.log.map (fun r => (r.type, r.args))) ++ s.sec.changes.map (fun (c : Nat × List Nat × Nat) => (c.1, c.2.1))
  ((recs.filter (fun r => r.1 == recSlotActive && r.2.getD 0 0 == kind)).getLast?).map (fun r => r.2.getD 1 0 % 2)

/-- The first choice of a kind (R435): the slot that the record names; otherwise the larger `VERSION`, A on a tie. -/
def State.firstChoice (s : State) (kind : Nat) : Nat :=
  match s.namedSlot kind with
  | some k => k
  | none =>
    match s.slotImage kind 0, s.slotImage kind 1 with
    | some a, some b => if a.version < b.version then 1 else 0
    | none, some _ => 1
    | _, none => 0

/-- The image that Signet takes for a kind: the first choice if it is valid, failing that the second. -/
def State.chosen (s : State) (kind : Nat) : Option Image :=
  let f := s.firstChoice kind
  match s.slotImage kind f with
  | some i => if s.valid kind i then some i else (s.slotImage kind (1 - f)).filter (s.valid kind)
  | none => (s.slotImage kind (1 - f)).filter (s.valid kind)

/-- The image runs: its signed part is measured into MEAS(kind - 1), and its `SVN` is kept. -/
def State.runImage (s : State) (kind : Nat) (i : Image) : State :=
  let s := s.extendMeas (kind - 1) (sha384 i.signed)
  { s with sec := { s.sec with running := Tab.set 0 s.sec.running kind i.svn } }

/-! ## The identity keys (R440) -/

/-- The public part of the keys: `RSA_N`, `RSA_E` and `SLH_PK`, laid out as in R433. -/
def DeviceKeys.material (k : DeviceKeys) : List Byte := k.rsaN ++ leBytes 4 65537 ++ k.slhPk

/-- Signet has generated the identity keys. -/
def Security.identityKeys (c : Security) : Bool := c.deviceKeys.isSome

/-- The public part of the identity keys; empty without them. -/
def State.keyMaterial (s : State) : List Byte := (s.sec.deviceKeys.map DeviceKeys.material).getD []

/-- The identity hash. -/
def State.identityHash (s : State) : List Byte := sha384 s.keyMaterial

/-- In FACTORY, Signet generates the keys when there are none. -/
def State.makeKeys (s : State) : State :=
  if s.fld Fld.secStatLc 0 = 0 && s.sec.deviceKeys.isNone then
    let part (k : Nat) : List Byte := Config.deviceKey s.draws k
    { s with draws := s.draws + 1,
             sec := { s.sec with deviceKeys := some ⟨fitBytes 384 (part 0), fitBytes 48 (part 1), part 2, part 3⟩ } }
  else s

/-! ## The flash (R431) -/

/-- Byte k of some bytes that lie in an erased area. -/
def inErased (bs : List Byte) (k : Nat) : Byte := bs.getD k 0xFF

/-- The identity area: helper data, wrapped keys, certificates (log 196, DEDUCED). -/
def State.identityBytes (s : State) : List Byte :=
  if s.sec.identityArea then Config.pufHelper ++ (s.sec.deviceKeys.map (fun k => k.wrapped ++ k.certificates)).getD [] else []

/-- The slots of a kind begin here. -/
def slotBase (kind : Nat) : Nat := if kind = 1 then 0x100000 else if kind = 2 then 0x900000 else 0x4900000

/-- A byte of the image slots of a kind, by its offset from their begin. -/
def State.slotByte (s : State) (kind k : Nat) : Byte :=
  match s.slotImage kind (k / slotSize kind) with
  | some i => inErased i.bytes (k % slotSize kind)
  | none => 0xFF

/-- A byte of a log half. -/
def State.halfByte (s : State) (h k : Nat) : Byte := inErased ((s.sec.half h).flatMap JRec.stored) k

/-- The byte at a flash offset. -/
def State.flashByte (s : State) (a : Nat) : Byte :=
  if a < 0x100000 then inErased s.identityBytes a
  else if a < 0x900000 then s.slotByte 1 (a - 0x100000)
  else if a < 0x4900000 then s.slotByte 2 (a - 0x900000)
  else if a < 0x6100000 then s.slotByte 3 (a - 0x4900000)
  else if a < 0xE100000 then s.halfByte ((a - 0x6100000) / 0x4000000) ((a - 0x6100000) % 0x4000000)
  else 0xFF

/-! ## The boot chain (R435, R436, R440) -/

/-- The life cycle that the one-time-programmable bits give, and FIELD_DEBUG while a session is open (R453). -/
def State.otpLc (s : State) : Nat := if s.sec.otpReturned then 3 else if s.sec.otpField then (if s.sec.session.isSome then 2 else 1) else 0

/-- Signet reads the one-time-programmable array (R435, event 2). -/
def State.readOtp (s : State) : State := s.setFld Fld.secStatLc 0 s.otpLc

/-- Recovery: the MGC runs no image. -/
def State.recover (s : State) : State :=
  ({ s with sec := { s.sec with mgcRuns := false } }).setFlag Fld.secStatRecovery 0 true

/-- A new challenge (R456; log 6, DEDUCED). -/
def State.newChallenge (s : State) : State :=
  ({ s with draws := s.draws + 1 }).setFld Fld.dbgChallengeValue 0 (Config.challenge s.draws).toNat

/-- Verified code written to the instruction and data SRAM of the MGC, 4 MiB (R430, R437) (log 197, DEDUCED). -/
def State.loadSram (s : State) (code : List Byte) : State :=
  { s with sec := { s.sec with sram := Mem.writeRange [] 0 (code.take 0x400000) } }

/-- Events 5 and 6: the management firmware runs, then the Assay image is measured. -/
def State.bootFirmware (s : State) : State :=
  match s.chosen 2 with
  | none => s.recover
  | some fw =>
    let s := s.runImage 2 fw
    let s := match s.chosen 3 with
      | some i => (s.runImage 3 i).setFlag Fld.secStatNoAssay 0 false
      | none => s.setFlag Fld.secStatNoAssay 0 true
    (({ s with sec := { s.sec with mgcRuns := true, firmware := fw.payload } }).loadSram fw.payload).setFld Fld.setupStatPhase 0 2

/-- Events 1 to 4 of the chain: with the PUF reconstructed, the life cycle is set, the identity keys are made in FACTORY when there are none, and the loader is
verified, measured and copied to MGC SRAM. -/
def State.boot (s : State) : State :=
  let s := (s.setFlag Fld.secStatRecovery 0 false).readOtp.makeKeys.dropOldHalf
  match s.chosen 1 with
  | none => s.recover
  | some ld => ((s.runImage 1 ld).loadSram ld.payload).bootFirmware

/-- `BOOT_CHAIN` (R435, R436, R440, R479, event 2): after the management domain has left reset. When reconstruction of the PUF fails 16 times in a row, or its
helper data have been erased, the keys are unavailable and the device is in recovery (log 198, DEDUCED). -/
def execBootChain (failures : Nat) (s : State) : Out State :=
  whenever (s.awake && s.fld Fld.setupStatPhase 0 == 1 && !s.flag Fld.secStatRecovery 0) s <|
  if failures < 16 && s.sec.identityArea then s.boot else s.readOtp.recover

/-- The MGC runs its firmware, and the probe does not hold it: requests over MCTP and SPDM are answered (R430, R452, R454) (log 162, DEDUCED). -/
def State.mgcServes (s : State) : Bool := s.sec.mgcRuns && !s.sec.mgcHalted

/-- `RECOVERY_IMAGE_WRITE` (R436): in recovery a valid image is written to the slot that the command names, and the boot chain restarts. -/
def execRecoveryImageWrite (kind slot : Nat) (img : Image) (s : State) : Out State :=
  onUnit (1 ≤ kind && kind ≤ 3 && slot < 2) "slot" <|
  whenever (s.flag Fld.secStatRecovery 0 && s.valid kind img) s <|
  (s.putSlot kind slot img).setFlag Fld.secStatRecovery 0 false

/-- `FIRMWARE_UPDATE` (R437): a valid image is written to the slot that is not first choice, and a `SLOT_ACTIVE` record names that slot. -/
def execFirmwareUpdate (kind : Nat) (img : Image) (s : State) : Out State :=
  onUnit (1 ≤ kind && kind ≤ 3) "slot" <|
  whenever (s.mgcServes && s.valid kind img) s <|
  let k := 1 - s.firstChoice kind
  (s.putSlot kind k img).journal recSlotActive [kind, k]

/-- `SVN_COMMIT` (R438): the floor of a kind rises to the `SVN` of the running image, when both slots hold images at or above it. -/
def execSvnCommit (kind : Nat) (s : State) : Out State :=
  onUnit (1 ≤ kind && kind ≤ 3) "kind" <|
  let v := min 64 (Tab.get 0 s.sec.running kind)
  let holds (k : Nat) : Bool := (s.slotImage kind k).any (fun i => v ≤ i.svn)
  whenever (s.mgcServes && holds 0 && holds 1 && s.floorOf kind < v) s
    { s with sec := { s.sec with floors := Tab.set 0 s.sec.floors kind v } }

/-- `MGC_WATCHDOG_EXPIRY` (R452): Signet restarts the MGC from the verified firmware. Everything else carries on. -/
def execMgcWatchdogExpiry (s : State) : Out State :=
  whenever s.sec.mgcRuns s ((s.loadSram s.sec.firmware).bump Fld.secStatMgcRestarts 0 1)

/-- The IDE keys of the two streams are installed (R443): through the CXL link, and outside P3, whose entry erases them. -/
def State.installIde (s : State) : State :=
  if s.fns.linkUp && s.fld Fld.pwrStatState 0 != 3 then
    { s with draws := s.draws + 1, sec := { s.sec with ideKeys := [Config.ideKey (2 * s.draws), Config.ideKey (2 * s.draws + 1)] } }
  else s

/-- `SPDM_KEY_EXCHANGE` (R443): the responder signs the transcript with the RSA identity key; a secured session is set up, and IDE keys are derived and
installed (log 199, DEDUCED). -/
def execSpdmKeyExchange (transcript : List Byte) (s : State) : Out State :=
  whenever (s.mgcServes && s.sec.identityKeys) s
    ({ s with sec := { s.sec with spdm := s.sec.spdm + 1 },
              outs := { s.outs with auth := fitBytes 384 (Config.spdmSignature s.keyMaterial transcript) } }).installIde

end Sys2Proof.Machine
end

