-- ==== Sys2Proof/Machine/Session.lean ====
section
/-! DEFINITION. Debug levels, tokens and sessions (R453-R461), with the erases of R458. -/

namespace Sys2Proof.Machine

/-! ## Erases (R458) -/

/-- Every physical tile's storage changed. -/
def State.mapTiles (s : State) (f : Tile → Tile) : State := s.tiles.foldl (fun (s : State) e => s.setTile e.1 (f e.2)) s

/-- Every scratchpad row is fresh; vector buffers, locket, accumulators and table store hold zero. -/
def Tile.erased (t : Tile) : Tile :=
  { t with spad := [], live := [], spadMarks := [], vbuf := [], vbufMarks := [], locket := [], acc := [], accMarks := [], tableStore := [],
           tableMarks := [] }

/-- The debug erase: a CXL Reset with Mem Clear, with every tile's storage erased. Every context is released by the disables that it begins. -/
def State.debugErase (s : State) : State := s.flrAll.eraseIde.clearMemory.mapTiles Tile.erased

/-- The return erase: the identity area goes as well. -/
def State.returnErase (s : State) : State :=
  let s := s.debugErase
  { s with sec := { s.sec with identityArea := false, deviceKeys := none } }

/-! ## Levels (R457, R459, R460) -/

/-- The level in force. -/
def State.level (s : State) : Nat := s.fld Fld.secStatLevel 0

/-- Nothing is halted any more: the level in force no longer grants it (log 28, DESIGN CHOICE). -/
def State.releaseHalts (s : State) : State :=
  let s := s.mapTiles (fun t => { t with halted := false })
  { s with sec := { s.sec with mgcHalted := false } }

/-- The level in force changes, and the change is measured. -/
def State.setLevel (s : State) (l : Nat) : State :=
  if s.level = l then s
  else
    let s := (s.setFld Fld.secStatLevel 0 l).measureChange
    let s := if 0 < l then { s with sec := { s.sec with aboveL0 := true } } else s
    if l < 2 then s.releaseHalts else s

/-- A token or level request is refused with a cause (R456, R457). -/
def State.refuseDebug (s : State) (cause : Nat) : State := (s.bump Fld.dbgStatRefused 0 1).setFld Fld.dbgStatCause 0 cause

/-- A session ends (R461): erased when it held L2 or L3, back to L0 and `FIELD_LOCKED`, with a closing record. -/
def State.endSession (s : State) : State :=
  match s.sec.session with
  | none => s
  | some x =>
    let s := if x.heldHigh then s.debugErase else s
    let s := (s.setLevel 0).setFld Fld.secStatGranted 0 0
    let s := ({ s with sec := { s.sec with session := none } }).setLc 1
    s.journal recDebugSession [0, x.granted, x.idHash]

end Sys2Proof.Machine

namespace Sys2Proof

open Machine

/-! ## Tokens (R455, R456) -/

/-! The fields of a token. -/
def Token.action (t : Token) : Nat := leAt t.signed 0x06 1
def Token.level (t : Token) : Nat := leAt t.signed 0x07 1
def Token.keyIndex (t : Token) : Nat := leAt t.signed 0x08 1
def Token.idHash (t : Token) : Nat := leAt t.signed 0x10 48
def Token.challenge (t : Token) : Nat := leAt t.signed 0x40 32
def Token.duration (t : Token) : Nat := leAt t.signed 0x60 8

/-- `MAGIC`, `VERSION`, the sizes and the reserved fields. -/
def Token.wellFormed (t : Token) : Bool :=
  t.signed.length == 0x2C0 && t.rsaSig.length == 384 && t.slhSig.length == 16224 && leAt t.signed 0 4 == 0x4B54564F && leAt t.signed 4 2 == 1 &&
    zeroAt t.signed 0x09 7 && zeroAt t.signed 0x68 152 && zeroAt t.signed 0x284 12

end Sys2Proof

namespace Sys2Proof.Machine

/-- Cause 1: the format, `ACTION`, `LEVEL` and `DURATION`. -/
def tokenForm (t : Token) (action : Nat) : Bool :=
  t.wellFormed && t.action == action &&
    (if action = 1 then 1 ≤ t.level && t.level ≤ 3 && 1 ≤ t.duration && t.duration ≤ 2 ^ 42 else t.level == 0 && t.duration == 0)

/-- The life cycle that an action needs (cause 7). -/
def actionLc (action : Nat) : Nat := if action = 3 then 0 else 1

/-- Consent (cause 8). -/
def State.consents (s : State) (t : Token) (action : Nat) : Bool :=
  match action with
  | 1 => t.level ≤ s.fld Fld.dbgConsentLevel 0
  | 2 => s.flag Fld.dbgConsentReturnOk 0
  | _ => true

/-- The first check of R456 that a token fails, or 0. Without identity keys the device has no identity hash. -/
def State.tokenCause (s : State) (t : Token) (action : Nat) : Nat :=
  if !tokenForm t action then 1
  else if !s.keyOk t.keyIndex (rsaKeyAt t.signed 0x100 ++ slhKeyAt t.signed 0x100) then 2
  else if !rsaOk t.signed 0x100 t.rsaSig then 3
  else if !slhOk t.signed 0x100 t.slhSig then 4
  else if !(s.sec.identityKeys && t.idHash == leNat s.identityHash) then 5
  else if t.challenge != s.fld Fld.dbgChallengeValue 0 then 6
  else if s.fld Fld.secStatLc 0 != actionLc action then 7
  else if !s.consents t action then 8
  else 0

/-- A token is presented: refused with its cause, or accepted with an effect. A new challenge is drawn either way. -/
def State.present (s : State) (t : Token) (action : Nat) (accept : State → State) : State :=
  let c := s.tokenCause t action
  (if c ≠ 0 then s.refuseDebug c else accept (s.bump Fld.dbgStatAccepted 0 1)).newChallenge

/-- A session opens (R457) at L0. -/
def State.openSession (s : State) (t : Token) : State :=
  let s := s.setLevel 0
  let s := ({ s with sec := { s.sec with session := some ⟨t.level, t.idHash, s.tally, t.duration, false⟩ } }).setLc 2
  (s.setFld Fld.secStatGranted 0 t.level).journal recDebugSession [1, t.level, t.idHash]

/-- `TOKEN_DEBUG` (R453, R456, R457): in P3 the session ends at once (R459). -/
def execTokenDebug (t : Token) (s : State) : Out State :=
  whenever s.awake s (s.present t 1 fun s =>
    let s := s.openSession t
    if s.fld Fld.pwrStatState 0 = 3 then s.endSession else s)

/-- `TOKEN_RETURN` (R453, R456, R458). -/
def execTokenReturn (t : Token) (s : State) : Out State :=
  whenever s.awake s (s.present t 2 fun s =>
    let s := s.returnErase
    ({ s with sec := { s.sec with otpReturned := true } }).setLc 3)

/-- `TOKEN_LOCK` (R453, R456): FACTORY is left. A level that FIELD_LOCKED does not open is in force no longer (log 29, DESIGN CHOICE). -/
def execTokenLock (t : Token) (s : State) : Out State :=
  whenever s.awake s (s.present t 3 fun s => (({ s with sec := { s.sec with otpField := true } }).setLc 1).setLevel 0)

/-! ## Level requests and the end of a session -/

/-- The matrix of R459 opens a level. -/
def State.mayEnter (s : State) (l : Nat) : Bool :=
  match s.fld Fld.secStatLc 0 with
  | 0 | 3 => l ≤ 3
  | 1 => l == 1 && 1 ≤ s.fld Fld.dbgConsentLevel 0
  | _ => l ≤ s.fld Fld.secStatGranted 0 && (l < 2 || s.fld Fld.pwrStatState 0 != 3)

/-- A level is entered: in FIELD_DEBUG, L2 and L3 erase first (R459). -/
def State.enterLevel (s : State) (l : Nat) : State :=
  if s.fld Fld.secStatLc 0 = 2 && 2 ≤ l then
    let s := s.debugErase
    ({ s with sec := { s.sec with session := s.sec.session.map (fun (x : Session) => { x with heldHigh := true }) } }).setLevel l
  else s.setLevel l

/-- `DEBUG_LEVEL_RAISE` (R457, R459, R460): a request for a level above the one in force. An entry that erases wakes the device first. -/
def execDebugLevelRaise (level : Nat) (s : State) : Out State :=
  onUnit (level < 4) "level" <|
  if !(s.awake && s.level < level) then .next s
  else if !s.mayEnter level then .next (s.refuseDebug 9)
  else if s.fld Fld.secStatLc 0 = 2 && 2 ≤ level then onAccess (.debugLevelRaise level) s (fun s => s.enterLevel level)
  else .next (s.enterLevel level)

/-- `DEBUG_LEVEL_LOWER` (R457, R461): in FIELD_DEBUG only to L0, which ends the session. -/
def execDebugLevelLower (level : Nat) (s : State) : Out State :=
  onUnit (level < 4) "level" <|
  if !(s.awake && level < s.level) then .next s
  else if s.fld Fld.secStatLc 0 = 2 then .next (if level = 0 then s.endSession else s.refuseDebug 9)
  else .next (s.setLevel level)

/-- `DEBUG_SESSION_EXPIRY` (R461): `DURATION` counts after acceptance. -/
def execDebugSessionExpiry (s : State) : Out State :=
  match s.sec.session with
  | none => .next s
  | some x => whenever (x.since + x.duration ≤ s.tally) s s.endSession

end Sys2Proof.Machine
end

