-- ==== Sys2Proof/Machine/Power.lean ====
section
/-! DEFINITION. Power, temperature and energy (R413-R429): sensors, thermal loops, the package ceiling, the under-voltage guard, the power states with
their wakes, the loss of the main power, the hard trip, and energy attribution. -/

namespace Sys2Proof.Machine

/-! ## Sensors (R416) -/

/-- The code of a temperature in °C (R429). -/
def tempCode (c : Nat) : Nat := (c + 40) * 8

/-- The latest reading of a sensor. -/
def State.sensor (s : State) (n : Nat) : Nat := s.fld Fld.pwrSensorTemp n

/-- The sensors of a region: its physical column, its bridge sensor, and the controller blocks of islands 0 and 15 (R37, R416). -/
def regionSensors (r : Nat) : List Nat :=
  (List.range 17).map (fun k => 16 * k + r) ++ [272 + r] ++
    (if r = 0 then (List.range 16).map (288 + ·) else if r = 15 then (List.range 16).map (304 + ·) else [])

/-- The highest of some readings. -/
def State.hottest (s : State) (ns : List Nat) : Nat := (ns.map s.sensor).foldl max 0

/-- The edge temperature: L-die and stack sensors (log 138, DEDUCED). -/
def State.edgeTemp (s : State) : Nat := s.hottest ((List.range 64).map (320 + ·))

/-- The hottest base die. -/
def State.stackTemp (s : State) : Nat := s.hottest ((List.range 24).map (320 + ·))

/-- A sensor read. -/
def State.readSensor (s : State) (n v : Nat) : State :=
  (s.setFld Fld.pwrSensorTemp n v).setFld Fld.pwrSensorMax n (max v (s.fld Fld.pwrSensorMax n))

/-- `SENSOR_READ` (R416, R420): the 384 readings; region temperatures follow; once every sensor reads below 95 °C, start-up may clear a trip latch. -/
def execSensorRead (readings : List (BitVec 12)) (s : State) : Out State :=
  onUnit (readings.length = 384) "sensor" <|
  whenever s.awake s <|
  let s := readings.zipIdx.foldl (fun (s : State) e => s.readSensor e.2 e.1.toNat) s
  let s := (List.range 16).foldl (fun (s : State) r => s.setFld Fld.pwrRegionTemp r (s.hottest (regionSensors r))) s
  if readings.all (fun r => r.toNat < tempCode 95) then { s with pins := { s.pins with stillHot := false } } else s

/-! ## The thermal loops (R417, R418) -/

/-- `THERM_LIMIT` and `STACK_LIMIT` as they are applied. -/
def State.thermLimit (s : State) : Nat := min 105 (max 70 (s.fld Fld.pwrCfgThermLimit 0))
def State.stackLimit (s : State) : Nat := min 95 (max 70 (s.fld Fld.pwrCfgStackLimit 0))

/-- Every region is held lowered. -/
def State.groupHot (s : State) : Bool := tempCode s.thermLimit ≤ s.edgeTemp || tempCode s.stackLimit ≤ s.stackTemp

/-- One period of a region's loop. -/
def State.thermalStep (s : State) (r : Nat) : State :=
  let th := s.thermalPoint r
  let t := s.fld Fld.pwrRegionTemp r
  let th' := if s.groupHot || tempCode s.thermLimit ≤ t then max 550 (th - 5)
    else if t ≤ tempCode (s.thermLimit - 2) then min s.vset (th + 5)
    else th
  { s with power := { s.power with thermal := Tab.set 720 s.power.thermal r th' } }

/-- The core regions have power: in P0, P1 and P2, with the regulators on. -/
def State.coreOn (s : State) : Bool := s.pins.regulators && s.fld Fld.pwrStatState 0 < 3

/-- `THERMAL_LOOP_TICK` (R413, R417, R418): every 100 µs. -/
def execThermalLoopTick (s : State) : Out State :=
  whenever s.coreOn s ((List.range 16).foldl State.thermalStep s).applyPoints

/-! ## Package power (R421, R422) -/

/-- The grade's maximum (R1); without a grade, the larger one (log 30, DESIGN CHOICE). -/
def State.gradeMax (s : State) : Nat := if s.fld Fld.mgcDevidGrade 0 = 2 then 1200 else 1500

/-- `LIMIT_W` as it is applied. -/
def State.limitW (s : State) : Nat := min s.gradeMax (max 300 (s.fld Fld.pwrCfgLimitW 0))

/-- Samples of the sustained window: 1 µs each. -/
def State.windowSamples (s : State) : Nat := 1000 * max 1 (s.fld Fld.pwrCfgWindowMs 0)

/-- The sum and the number of the newest samples. -/
def State.newest (s : State) (n : Nat) : Nat × Nat := ((s.power.samples.take n).foldl (· + ·) 0, (s.power.samples.take n).length)

/-- `POWER_SAMPLE` (R421): the power drawn from `VIN` in this microsecond. `PKG_W` is the short average in whole watts (log 139, DEDUCED). -/
def execPowerSample (watts : Nat) (s : State) : Out State :=
  whenever s.awake s <|
  let s := { s with power := { s.power with samples := (watts :: s.power.samples).take (max 100 s.windowSamples) } }
  let a := s.newest 100
  s.setFld Fld.pwrStatPkgW 0 (min 65535 (a.1 / a.2))

/-- An average (sum, count) exceeds a limit given in tenths of a watt. -/
def avgAbove (a : Nat × Nat) (limit10 : Nat) : Bool := limit10 * a.2 < 10 * a.1

/-- An average lies below 95 % of a limit given in tenths of a watt. -/
def avgBelow (a : Nat × Nat) (limit10 : Nat) : Bool := 1000 * a.1 < 95 * limit10 * a.2 || a.2 = 0

/-- The ceiling as a tick leaves it: `fast` is the period of 10 µs. -/
def State.ceilingAfter (s : State) (fast : Bool) : Nat :=
  let sust := s.newest s.windowSamples
  let short := s.newest 100
  let l := 10 * s.limitW
  let ls := 12 * s.limitW
  let c := s.power.ceiling
  if fast then (if avgAbove short ls then max 550 (c - 20) else c)
  else if avgAbove sust l then max 550 (c - 5)
  else if avgBelow sust l && avgBelow short ls then min s.vset (c + 5)
  else c

/-- `POWER_CEILING_TICK` (R413, R421, R422). -/
def execPowerCeilingTick (fast : Bool) (s : State) : Out State :=
  whenever s.coreOn s ({ s with power := { s.power with ceiling := s.ceilingAfter fast } }).applyPoints

/-! ## The under-voltage guard (R415) -/

/-- `UV_GUARD_ENTRY`. -/
def execUvGuardEntry (region : Nat) (s : State) : Out State :=
  onUnit (region < 16) "region" <|
  whenever (s.coreOn && !s.flag Fld.pwrRegionUv region) s ((s.setFlag Fld.pwrRegionUv region true).bump Fld.pwrRegionUvEvents region 1)

/-- `UV_GUARD_EXIT`: what waited for a held controller block follows. -/
def execUvGuardExit (region : Nat) (s : State) : Out State :=
  onUnit (region < 16) "region" <| .next ((s.setFlag Fld.pwrRegionUv region false).lateWrites.lateRepairs)

/-! ## P0, P1 and P2 (R423-R425) -/

/-- `TARGET` as it is applied. -/
def State.target (s : State) : Nat := min 2 (s.fld Fld.pwrCtlTarget 0)

/-- `IDLE_US` in counts. -/
def State.idleCounts (s : State) : Nat := 1000 * max 1 (s.fld Fld.pwrCtlIdleUs 0)

/-- A running Assay test stops, and its unit keeps the state it had before; the journal records a tile's (R409, R424). -/
def State.stopAssay (s : State) : State :=
  match s.assay.unit with
  | none => s
  | some (u, prior) =>
    let s := s.assayIdle
    match u with
    | .tile p => let s := s.setFld Fld.tilePhysState p prior; s.journal recTile (s.tileRecord p)
    | .lane _ | .channel _ => s

/-- The rate monitors stop (R36): `RATE` reads 0, and `MIN` keeps the lowest rate measured (log 184, DESIGN CHOICE). -/
def State.stopRates (s : State) : State := (List.range 16).foldl (fun (s : State) r => s.setFld Fld.coreRateRate r 0) s

/-- `P1_ENTRY` (R424): not busy for `IDLE_US`. -/
def execP1Entry (s : State) : Out State :=
  match s.power.idleFrom with
  | none => .next s
  | some f =>
    whenever (1 ≤ s.target && s.inP0 && !s.busy && f + s.idleCounts ≤ s.tally) s
      ({ s with power := { s.power with p1From := some s.tally } }.setFld Fld.pwrStatState 0 1).applyPoints

/-- `P2_ENTRY` (R36, R405, R423, R424): in P1 for a further 10 × `IDLE_US`, not busy throughout. -/
def execP2Entry (s : State) : Out State :=
  match s.power.p1From with
  | none => .next s
  | some f =>
    whenever (s.target == 2 && s.fld Fld.pwrStatState 0 == 1 && !s.flag Fld.pwrStatWaking 0 && !s.busy && f + 10 * s.idleCounts ≤ s.tally) s
      (((s.stopAssay.setFld Fld.pwrStatState 0 2).bump Fld.pwrStatP2Entries 0 1).stopRates).applyPoints

/-- `WAKE` (R414, R425, event 1). -/
def execWake (s : State) : Out State := .next s.startWake

/-! ## Loss of the main power (R353, R423, R477) -/

/-- The record of an item cannot reach the host: it is lost, and the item leaves the device (log 147, DEDUCED). -/
def State.loseItem (s : State) (id : Nat) : State :=
  match s.item id with
  | none => s
  | some i => (s.bump Fld.hostErrLost i.fn 1).leave i

/-- Every function is disabled as on link down, with its records lost, and its context released. -/
def State.loseFunctions (s : State) : State :=
  let s := s.cxlDown
  let s := (s.items.map (fun i => i.id)).foldl State.loseItem s
  ((List.range 64).foldl (fun (s : State) f => if s.fnState f = 2 then ((s.lastMessages f).releaseContext f).fnDown f else s) s).settleReset

/-- Every transmitter is idle: no link is up. -/
def State.stopLinks (s : State) : State := (List.range 20).foldl (fun (s : State) l => if s.linkState l = 0 then s else s.stopLink l 0) s

/-- What the C-die, the stacks and the traffic held is gone: memory content, scratchpads, residency, migrations, fills, carries and repairs. -/
def State.loseContent (s : State) : State :=
  let s := s.stopAssay.mapTiles Tile.blank
  let s := (List.range 256).foldl State.endResidency s
  { s with mem := [], memPoison := [], memDamage := [], inbound := [], transfers := [], landings := [], arriving := [], abortedKeys := [], windowIns := [], order4 := [], carries := [],
           repairs := [], links := [],
           chans := { s.chans with migrations := [], fills := [], requested := [], scrubPos := [], scrubDone := [], late := [], queues := [], narrowRun := [] } }

/-- The main power is off: regulators, stack switches and transmitters are off, and `PRSNT_N` is released. -/
def State.mainOff (s : State) : State :=
  let s := (s.loseFunctions.stopLinks.loseContent.stopRates).setFlag Fld.setupStatReady 0 false
  { s with waiting := [], pins := { s.pins with regulators := false, switches := 0, prsntLow := false, cxlReceivers := false } }

/-! ## P3 (R423, R426, R461) -/

/-- P3 is entered: a debug session ends, and everything but the management domain is off. Leaving P3 starts at event 4 of R479 (log 158, DEDUCED). -/
def State.enterP3 (s : State) : State :=
  let s := s.endSession.mainOff
  let s := { s with power := { s.power with idleFrom := none, p1From := none } }
  ((s.setFld Fld.pwrStatState 0 3).setFlag Fld.pwrStatWaking 0 false).setFld Fld.setupStatPhase 0 (min 3 (s.fld Fld.setupStatPhase 0))

/-- P3 may be entered: every virtual function is disabled, and the physical function has no ring pair active and no item in flight (R426). -/
def State.mayPowerOff (s : State) : Bool :=
  s.fld Fld.pwrStatState 0 != 3 && ((List.range 63).map (· + 1)).all (fun f => s.fnState f == 0) &&
    (List.range 64).all (fun k => !s.flag Fld.ringCfgActive k) && s.items.isEmpty

/-- `PWR_CTL_OFF` (R425, R426): a write of 1 to `PWR_CTL.OFF`, by the physical function's host driver or the MGC. A write wakes the device first. -/
def execPwrCtlOff (a : Agent) (s : State) : Out State :=
  onUnit a.wf "agent" <|
  match a with
  | .hostPf | .mgc => if s.fld Fld.pwrStatState 0 = 3 || !s.agentActs a then .next s else onAccess (.pwrCtlOff a) s (fun s => if s.mayPowerOff then s.enterP3 else s)
  | .hostVf _ | .loupe => .next s

/-- `MCTP_OFF` (R426). -/
def execMctpOff (s : State) : Out State := whenever (s.mgcServes && s.mayPowerOff) s s.enterP3

/-- P3 is left, unless the device has tripped: start-up runs from event 4 (R426, R481). -/
def State.leaveP3 (s : State) : State :=
  if s.fld Fld.pwrStatState 0 = 3 && s.pins.tripLatch.isNone && !s.flag Fld.pwrStatTripped 0 then
    ((s.setFld Fld.pwrStatState 0 0).setFlag Fld.setupStatFromP3 0 true).setFld Fld.setupStatPhase 0 3
  else s

/-- `MCTP_WAKE` (R426). -/
def execMctpWake (s : State) : Out State := whenever s.mgcServes s s.leaveP3

/-- `WAKE_N_ASSERT` (R426, R478): the level of `WAKE_N`; low wakes the device from P3 once `PG_MAIN` is high. -/
def execWakeNAssert (low : Bool) (s : State) : Out State :=
  let s := { s with pins := { s.pins with wakeN := !low } }
  .next (if low && s.mainGood then s.leaveP3 else s)

/-- `HARD_TRIP` (R419, R420): a comparator fires. The trip is latched, the power is off, and the MGC records the trip with the sensor's reading (log 144, DEDUCED) (log 145, DEDUCED). -/
def execHardTrip (sensor : Nat) (s : State) : Out State :=
  onUnit (sensor < 384) "sensor" <|
  whenever s.pins.vaux s <|
  let first := s.pins.tripLatch.getD sensor
  let s := { s with pins := { s.pins with tripLatch := some first, stillHot := true } }
  let s := (s.setFlag Fld.pwrStatTripped 0 true).setFld Fld.pwrStatTripSensor 0 first
  let s := if s.awake then s.enterP3 else s
  if s.sec.mgcRuns then s.journal recTrip [sensor, s.sensor sensor] else s

/-! ## Energy (R427, R428) -/

/-- The coefficient of an event class: that of the latest `CALIB` record, or the design coefficient (R427, R482). -/
def State.coefficient (s : State) (class_ : Nat) : Nat := s.power.coeffs.getD class_ (Config.designCoefficient class_)

/-- What a region's supply and temperature scale its events by: the square of the set-point, and the leakage model (R427); events of the L-die have no region
(log 188, DESIGN CHOICE). -/
def State.supplyFactor (s : State) (region : Nat) : Nat :=
  if region < 16 then s.fld Fld.pwrRegionSetpoint region ^ 2 * Config.leakage (s.fld Fld.pwrRegionTemp region) else 1

/-- The modelled energy of the interval that is charged to a context, or to the base (64). -/
def State.modelledEnergy (s : State) (ctx : Nat) : Nat :=
  ((List.range 32).flatMap (fun c => (List.range 17).map (fun r =>
    Tab.get 0 s.power.activity (activityKey ctx c r) * s.coefficient c * s.supplyFactor r))).foldl (· + ·) 0

/-- The static events of the interval are complete: those of occupied tiles, of the tiles that no launch occupies, 17 to a region, and the fixed draw (R427). -/
def State.staticEvents (s : State) : State :=
  let elapsed := s.tally - s.power.rescaledAt
  let s := (List.range 272).foldl State.staticEvent s
  let s := (List.range 16).foldl (fun (s : State) r =>
    s.event baseContext evStatic r (17 * elapsed - ((List.range 64).map (fun c => Tab.get 0 s.power.activity (activityKey c evStatic r))).foldl (· + ·) 0)) s
  s.event baseContext evFixed noRegion elapsed

/-- A new interval begins (R428). -/
def State.newInterval (s : State) : State := { s with power := { s.power with activity := [], rescaledAt := s.tally } }

/-- `ENERGY_RESCALE` (R427, R428): every 10 ms the modelled charges of the interval are scaled to the energy measured at `VIN`; what the contexts are not charged
goes to the base. -/
def execEnergyRescale (measuredUj : Nat) (s : State) : Out State :=
  whenever s.awake s <|
  let v := s.staticEvents
  let total := ((List.range 65).map v.modelledEnergy).foldl (· + ·) 0
  let tenants := (List.range 64).map (fun c => (c, if total = 0 then 0 else measuredUj * v.modelledEnergy c / total))
  let spent := (tenants.map Prod.snd).foldl (· + ·) 0
  let v := tenants.foldl (fun (s : State) e => s.bump Fld.energyTenantUj e.1 e.2) v.newInterval
  (v.bump Fld.energyBaseUj 0 (measuredUj - spent)).bump Fld.energyTotalUj 0 measuredUj

end Sys2Proof.Machine
end

