-- ==== Sys2Proof/Machine/Startup.lean ====
section
/-! DEFINITION. Cold reset, power-up and start-up (R467-R487): the reset of the device, the replay of the journal with the settling of tiles, channels and
grants, the ramp, training and initialisation of memory, and the port; the rails and resets of R476 to R478. -/

namespace Sys2Proof.Machine

/-! ## Cold reset (R478) -/

/-- What cold reset keeps of Signet: the flash and the one-time-programmable array. Changes that are not durable are absent (R447) (log 150, DEDUCED). -/
def Security.kept (c : Security) : Security :=
  { State.reset.sec with slots := c.slots, otpField := c.otpField, otpReturned := c.otpReturned, revoked := c.revoked, floors := c.floors,
                         identityArea := c.identityArea, deviceKeys := c.deviceKeys, half0 := c.half0, half1 := c.half1 }

/-- What cold reset keeps of the pins: the levels that the board drives, and with `VAUX` held the trip latch and the TAP (R470, R473). -/
def Pins.kept (p : Pins) (vauxLost : Bool) : Pins :=
  { State.reset.pins with
      vaux := p.vaux && !vauxLost, pgMain := p.pgMain, railFault := p.railFault, perstN := p.perstN, wakeN := p.wakeN, testMode := p.testMode && !vauxLost,
      tripLatch := if vauxLost then none else p.tripLatch, tripRecorded := !vauxLost && p.tripRecorded,
      stillHot := !vauxLost && p.stillHot, ir := if vauxLost then 0x01 else p.ir, boundary := if vauxLost then State.reset.pins.boundary else p.boundary }

/-- The device in cold reset (R18, R19, R469, R473, R478): everything at reset, but for what the flash, the board and the host hold; `TRIPPED` shows the
latch. -/
def State.cold (s : State) (vauxLost : Bool) : State :=
  let s' : State := { State.reset with
    pending := s.pending, draws := s.draws, host := s.host, hostPoison := s.hostPoison, sec := s.sec.kept, pins := s.pins.kept vauxLost, outs := s.outs }
  match s'.pins.tripLatch with
  | some n => (s'.setFlag Fld.pwrStatTripped 0 true).setFld Fld.pwrStatTripSensor 0 n
  | none => s'

/-- `COLD_RESET` (R477, R478): `POR_N` falls, or `VAUX` drops below 1.62 V, with so many bytes written of the record in progress. -/
def execColdReset (vauxLost : Bool) (written : Nat) (s : State) : Out State :=
  .next ((if vauxLost then s.tearRecord written else s).cold vauxLost)

/-- `TEST_MODE_ASSERT` (R469): the device holds itself in cold reset (log 156, DEDUCED). -/
def execTestModeAssert (s : State) : Out State :=
  let v := s.cold (!s.pins.vaux)
  .next { v with pins := { v.pins with testMode := true, porHigh := s.pins.porHigh } }

/-- `POR_RELEASE` (R469, R476, R479, event 1): the management domain leaves reset, the straps are sampled, and the Tally counts from zero. With `PG_MAIN` high the
board-test window opens (R472). Signet shows the life cycle that it holds, and the first challenge is drawn (R453, R456) (log 201, DEDUCED). -/
def execPorRelease (strap : Nat) (s : State) : Out State :=
  onUnit (strap < 4) "strap" <|
  whenever (!s.pins.porN && !s.pins.testMode) s <|
  let s := { s with tally := 0, pins := { s.pins with vaux := true, porN := true, porHigh := true, smbAddr := 0x60 + strap, window := s.mainGood } }
  (s.setFld Fld.setupStatPhase 0 1).readOtp.newChallenge

/-- `TRIP_RECORD` (R420, R479, event 3): once every sensor reads below 95 °C, the trip is recorded unless the journal holds it, and the latch is cleared. A device that
is in P3 has no start-up under way: it leaves P3 through a cold reset only. -/
def execTripRecord (s : State) : Out State :=
  match s.pins.tripLatch with
  | none => .next s
  | some n =>
    whenever (s.awake && s.fld Fld.pwrStatState 0 != 3 && s.fld Fld.setupStatPhase 0 == 2 && !s.pins.stillHot) s <|
    let s := if s.pins.tripRecorded then s else s.journal recTrip [n, s.sensor n]
    let s := { s with pins := { s.pins with tripLatch := none, tripRecorded := false } }
    ((s.setFlag Fld.pwrStatTripped 0 false).setFld Fld.pwrStatTripSensor 0 0).setFld Fld.setupStatPhase 0 3

/-! ## Replay (R482) -/

/-- A physical tile's registers. -/
def State.putPhys (s : State) (p st logical : Nat) (fenced : Bool) (fences runs : Nat) : State :=
  ((((s.setFld Fld.tilePhysState p st).setFld Fld.tilePhysLogical p logical).setFlag Fld.tilePhysArrayFenced p fenced).setFld Fld.tilePhysFences p
    fences).setFld Fld.tilePhysAssayRuns p runs

/-- The factory state of a physical tile. -/
def State.factoryTile (s : State) (p : Nat) : State :=
  (s.putPhys p (if p < 256 then 0 else 1) (if p < 256 then p else 0) false 0 0).setTile p { s.tile p with rowSpare := [] }

/-- The factory state of a physical channel. -/
def State.factoryChan (s : State) (c : Nat) : State :=
  let i := c % 34
  if i < 32 then (s.setFld Fld.memChstatState c 0).setFld Fld.memChmapChannel (8 * i + c / 34) i else s.setFld Fld.memChstatState c 1

/-- The factory state of the device: no row spared, every lane untested (log 152, DEDUCED). -/
def State.factory (s : State) : State :=
  let s := (List.range 272).foldl State.factoryTile s
  let s := (List.range 272).foldl State.factoryChan s
  let s := (List.range 20).foldl (fun (s : State) l => s.setFld Fld.linkStatLanes l 0x3FF) s
  { s with assay := { s.assay with laneFails := [] }, chans := { s.chans with departures := [] } }.setFld Fld.coreModeTiles 0 0

/-- A channel record: the state, and the slot to which the channel is bound. A channel that leaves service departs (R406). -/
def State.replayChannel (s : State) (c st slot : Nat) : State :=
  let s := if s.fld Fld.memChstatState c = 0 && (st = 3 || st = 4) then s.departs c else s
  let s := match s.slotOf c with
    | some l => s.setFld Fld.memChmapChannel l 0x3F
    | none => s
  let s := s.setFld Fld.memChstatState c st
  if slot < 32 then s.setFld Fld.memChmapChannel (8 * slot + c / 34) (c % 34) else s

/-- A record applied (R446). A slot mapped out is unbound; one bound again is bound by the `CHANNEL` record beside it (log 152, DEDUCED). -/
def State.applyRec (s : State) (r : JRec) : State :=
  let a (k : Nat) : Nat := r.args.getD k 0
  if r.type = recTile then s.putPhys (a 0) (a 1) (a 2) (a 3 != 0) (a 4) (a 5)
  else if r.type = recRowSpare then
    s.setTile (a 0) { s.tile (a 0) with rowSpare := Tab.set 0 (s.tile (a 0)).rowSpare (64 * a 2 + a 1) (a 3 + 1) }
  else if r.type = recChannel then s.replayChannel (a 0) (a 1) (a 2)
  else if r.type = recLane then
    { s with assay := { s.assay with laneFails := Tab.set 0 s.assay.laneFails (a 0) (a 2) } }.setLane (a 0 / 5) (a 0 % 5) (a 1)
  else if r.type = recMapout then (if a 1 = 1 then s.setFld Fld.memChmapChannel (a 0) 0x3F else s)
  else if r.type = recTileMode then s.setFld Fld.coreModeTiles 0 (a 0)
  else s

/-- A record replayed: it extends MEAS4 (R439). -/
def State.replayRec (s : State) (r : JRec) : State := (s.applyRec r).extendMeas 4 (sha384 r.bytes)

/-- The latest `CALIB` record: `LIMIT_W`, the grade and the energy coefficients, those of the 32 event classes in order, and the sensor offsets, by sensor (log 188, DESIGN CHOICE). `LIMIT_W` is a set-up field, which P3 leaves as it was (R481, R493). -/
def State.calibrate (s : State) (log : List JRec) : State :=
  let fromP3 := s.flag Fld.setupStatFromP3 0
  match (log.filter (fun r => r.type == recCalib)).getLast? with
  | some r =>
    let s := (s.setFlag Fld.setupStatNoCalib 0 false).setFld Fld.mgcDevidGrade 0 (r.args.getD 1 0)
    let s := { s with power := { s.power with coeffs := (r.args.drop 2).take 32, offsets := (r.args.drop 34).take 384 } }
    if fromP3 then s else s.setFld Fld.pwrCfgLimitW 0 (r.args.getD 0 0)
  | none =>
    let s := (s.setFlag Fld.setupStatNoCalib 0 true).setFld Fld.mgcDevidGrade 0 0
    let s := { s with power := { s.power with coeffs := [], offsets := [] } }
    if fromP3 then s else s.setFld Fld.pwrCfgLimitW 0 300

/-! ## Settling tiles (R483) -/

/-- A correction counts (R484, R487). -/
def State.corrected (s : State) : State := s.bump Fld.setupStatCorrections 0 1

/-- A replayed tile's state changed, with its record. -/
def State.fixTile (s : State) (p st logical : Nat) : State :=
  let s := (s.setFld Fld.tilePhysState p st).setFld Fld.tilePhysLogical p logical
  (s.journal recTile (s.tileRecord p)).corrected

/-- The physical tiles that claim a logical tile. -/
def State.claimants (s : State) (t : Nat) : List Nat :=
  (List.range 272).filter (fun p => s.fld Fld.tilePhysState p == 0 && s.fld Fld.tilePhysLogical p == t)

/-- Where the latest `TILE` record of a tile stands in a log; 0 without one. -/
def lastTileRec (log : List JRec) (p : Nat) : Nat :=
  (log.zipIdx.filter (fun e => e.1.type == recTile && e.1.args.getD 0 0 == p)).foldl (fun _ e => e.2 + 1) 0

/-- Of several claimants the one whose record is latest keeps the logical tile. -/
def keeper (log : List JRec) (ps : List Nat) : Option Nat :=
  ps.foldl (fun best p => match best with
    | none => some p
    | some b => if lastTileRec log b < lastTileRec log p then some p else some b) none

/-- Step 1: a tile replayed as `ASSAY` is quarantined. -/
def State.settleAssay (s : State) : State :=
  (s.physIn 3).foldl (fun (s : State) p => s.fixTile p 2 (s.fld Fld.tilePhysLogical p)) s

/-- Step 2: the mode that the healthy tiles carry; in reduced mode the tiles that serve logical tiles 240-255 become spares (log 157, DEDUCED). -/
def State.settleMode (s : State) : State :=
  let m := modeFor s.healthy
  let s := if s.fld Fld.coreModeTiles 0 = m then s else ((s.setFld Fld.coreModeTiles 0 m).journal recTileMode [m]).corrected
  if m = 1 then
    ((List.range 272).filter (fun p => s.fld Fld.tilePhysState p == 0 && 240 ≤ s.fld Fld.tilePhysLogical p)).foldl
      (fun (s : State) p => s.fixTile p 1 (s.fld Fld.tilePhysLogical p)) s
  else s

/-- Step 3: of several claimants one keeps a logical tile; the others are quarantined. -/
def State.settleClaims (log : List JRec) (s : State) (t : Nat) : State :=
  let ps := s.claimants t
  (ps.filter (fun p => some p != keeper log ps)).foldl (fun (s : State) p => s.fixTile p 2 t) s

/-- Step 4: a tile with its array fenced hands its logical tile to a spare, or stays on the strand. -/
def State.settleFenced (s : State) (t : Nat) : State :=
  match s.physOf t with
  | none => s
  | some p =>
    if !s.flag Fld.tilePhysArrayFenced p then s
    else match (s.physIn 1).head? with
      | some sp => (s.fixTile p 2 t).fixTile sp 0 t
      | none => s

/-- Step 5: a logical tile of the mode that no tile serves takes a spare. -/
def State.settleServe (s : State) (t : Nat) : State :=
  if (s.physOf t).isSome then s
  else match (s.physIn 1).head? with
    | some sp => s.fixTile sp 0 t
    | none => s

/-- `TILE_ARRAY.STRAND` of a logical tile. -/
def State.settleStrand (s : State) (t : Nat) : State :=
  s.setFlag Fld.tileArrayStrand t (match s.physOf t with
    | some p => s.flag Fld.tilePhysArrayFenced p
    | none => false)

/-- The tiles settled. -/
def State.settleTiles (s : State) (log : List JRec) : State :=
  let s := s.settleAssay.settleMode
  let ts := List.range (16 * s.rowsInService)
  let s := (List.range 256).foldl (State.settleClaims log) s
  let s := (List.range 256).foldl State.settleFenced s
  let s := ts.foldl State.settleServe s
  (List.range 256).foldl State.settleStrand s

/-! ## Settling channels (R251, R484) -/

/-- A slot whose channel is failed or retired, or that is unbound, takes the lowest idle spare of its stack, or is left unbound: mapped out. -/
def State.settleSlot (s : State) (l : Nat) : State :=
  let bad := match s.boundChan l with
    | none => true
    | some c => s.fld Fld.memChstatState c == 3 || s.fld Fld.memChstatState c == 4
  if !bad then s
  else
    let was := s.boundChan l
    match s.idleSpare (l % 8) with
    | some sp =>
      let s := (s.setFld Fld.memChmapChannel l (sp % 34)).setFld Fld.memChstatState sp 0
      let s := s.journal recChannel [sp, 0, l / 8]
      (if was.isNone then s.journal recMapout [l, 0] else s).corrected
    | none => if was.isNone then s else ((s.setFld Fld.memChmapChannel l 0x3F).journal recMapout [l, 1]).corrected

/-- K, Λ and `MEM_TOP` from the bound slots. A slot still bound to a failed channel stays fenced, and its map-out due, until a start-up unbinds it (R252, R263). -/
def State.setTop (s : State) : State :=
  let failed (l : Nat) : Bool := (s.boundChan l).any (fun c => s.fld Fld.memChstatState c == 4)
  let k := ((List.range 256).filter (fun l => (s.boundChan l).isSome)).length
  let v := (List.range 256).foldl (fun (v : State) l => (v.setFlag Fld.memChmapBacked l (s.boundChan l).isSome).setFlag Fld.memChmapFenced l (failed l)) s
  ((v.setFld Fld.memTopAddr 0 (k * chanBytes)).setFld Fld.memTopChannels 0 k).setFlag Fld.memTopMapoutDue 0 ((List.range 256).any failed)

/-- The channels settled. -/
def State.settleChannels (s : State) : State :=
  let s := ((List.range 272).filter (fun c => s.fld Fld.memChstatState c == 2)).foldl
    (fun (s : State) c => ((s.setFld Fld.memChstatState c 1).journal recChannel [c, 1, 0x3F]).corrected) s
  ((List.range 256).foldl State.settleSlot s).setTop

/-! ## Grants at the end of event 5 (R487) -/

/-- A committed range that reaches at or above `MEM_TOP` is no longer valid. -/
def State.dropRange (t : Nat) (s : State) (e : Nat × Nat × Nat × Bool) : State :=
  if e.2.1 + e.2.2.1 ≤ s.memTop then s
  else
    let g := s.grant t
    ((s.setGrant t { g with mem := g.mem.filter (· != e) }).setFlag Fld.grantMemValid (8 * t + e.1) false).corrected

/-- A committed rectangle that reaches outside the rows in service is gone. -/
def State.dropRect (s : State) (t : Nat) : State :=
  let g := s.grant t
  if !g.hasTiles || g.row0 + g.rows ≤ s.rowsInService then s
  else (((s.setGrant t { g with rows := 0, cols := 0 }).setFld Fld.grantTilesRows t 0).setFld Fld.grantTilesCols t 0).corrected

/-- The committed grants of a context fit the new start. -/
def State.fitGrant (s : State) (t : Nat) : State := ((s.grant t).mem.foldl (State.dropRange t) s).dropRect t

/-- `JOURNAL_REPLAY` (R445, R479, events 4 and 5, R482-R484, R487): the active log is replayed over the factory state and settled. It follows the trip record, and
runs once no change waits for its record. A change of tile mode that was due is settled with the tiles. -/
def execJournalReplay (s : State) : Out State :=
  let ph := s.fld Fld.setupStatPhase 0
  whenever (s.awake && s.sec.mgcRuns && s.fld Fld.pwrStatState 0 != 3 && s.sec.changes.isEmpty &&
      ((ph == 2 && s.pins.tripLatch.isNone) || ph == 3)) s <|
  let log := s.log
  let s := if s.sec.logTorn s.activeHalf then s.bump Fld.journalStatTorn 0 1 else s
  let s := (s.setFld Fld.setupStatCorrections 0 0).factory
  let s := (log.foldl State.replayRec { s with modeDue := none, sec := { s.sec with journalRead := true } }).calibrate log
  let s := ((s.settleTiles log).settleChannels)
  ((List.range 64).foldl State.fitGrant s).setFld Fld.setupStatPhase 0 5

/-! ## Rails and memory (R467, R476-R479) -/

/-- `PG_MAIN_RISE` (R472, R476, R478, R481): the board-test window opens with both pins high. A device in P3 stays there, unless `WAKE_N` is low (log 154, DEDUCED). -/
def execPgMainRise (s : State) : Out State :=
  whenever (!s.pins.pgMain) s <|
  let s := { s with pins := { s.pins with pgMain := true, railFault := false, window := s.pins.porN } }
  if s.awake && !s.pins.wakeN then s.leaveP3 else s

/-- The main power is gone (R477): start-up returns to wait at event 6. -/
def State.mainLost (s : State) : State :=
  let s := { s with pins := { s.pins with window := false } }
  if s.awake && s.fld Fld.pwrStatState 0 != 3 then s.mainOff.setFld Fld.setupStatPhase 0 (min 5 (s.fld Fld.setupStatPhase 0)) else s

/-- `PG_MAIN_FALL` (R467, R477, R478, R481). Behind a rail fault it has no further effect. -/
def execPgMainFall (s : State) : Out State :=
  whenever s.pins.pgMain s <|
  let v : State := { s with pins := { s.pins with pgMain := false, railFault := false } }
  if s.pins.railFault then v else v.mainLost

/-- `RAIL_FAULT` (R477): acts as `PG_MAIN` falling, which stays high. -/
def execRailFault (s : State) : Out State :=
  whenever (s.mainGood && s.awake) s (State.mainLost { s with pins := { s.pins with railFault := true } })

/-- The start-up has completed event n and the main power is good. -/
def State.atPhase (s : State) (n : Nat) : Bool :=
  s.awake && s.mainGood && s.fld Fld.pwrStatState 0 != 3 && s.fld Fld.setupStatPhase 0 == n

/-- `REGULATOR_RAMP` (R413, R467, R479, event 6). -/
def execRegulatorRamp (s : State) : Out State :=
  whenever (s.atPhase 5) s <|
  let s := { s with pins := { s.pins with regulators := true, switches := 3 } }
  let s := (List.range 16).foldl (fun (s : State) r => s.setFlag Fld.pwrRegionUv r false) s
  s.applyPoints.setFld Fld.setupStatPhase 0 6

/-- A channel that is trained fails: it is fenced off, and its slot is settled again (R479, R484). -/
def State.trainFail (s : State) (c : Nat) : State :=
  let slot := s.slotOf c
  if slot.isNone && s.fld Fld.memChstatState c != 1 then s
  else
    let s := (s.setFld Fld.memChstatState c 4).journal recChannel [c, 4, (slot.map (· / 8)).getD 0x3F]
    match slot with
    | some l => s.settleSlot l
    | none => s

/-- `MEMORY_TRAINING` (R479, event 7): every bound channel and every idle spare is trained; `failed` lists those that fail. -/
def execMemoryTraining (failed : List Nat) (s : State) : Out State :=
  onUnit (failed.all (· < 272)) "channel" <|
  whenever (s.atPhase 6) s ((failed.foldl State.trainFail s).setTop.setFld Fld.setupStatPhase 0 7)

/-- A debug session that a cold reset left open in the journal is closed (R461). -/
def State.closeOldSession (s : State) : State :=
  match (s.log.filter (fun r => r.type == recDebugSession)).getLast? with
  | some r => if r.args.getD 0 0 = 1 && s.sec.session.isNone then s.journal recDebugSession [0, r.args.getD 1 0, r.args.getD 2 0] else s
  | none => s

/-- Everything at its launch-start value, and nothing held by any tenant (R485). -/
def State.initAll (s : State) : State :=
  let s := (s.mapTiles Tile.blank)
  let s := (List.range 256).foldl (fun (s : State) t =>
    ((s.setFlag Fld.tileResidencyValid t false).setFld Fld.tileResidencyHandle t 0).setFld Fld.tileResidencyTenant t 0) s
  { s with mem := [], memPoison := [], memDamage := [], boards := [], pools := [], windows := [], peerRefs := [], inboxes := [], tables := [], windowIns := [],
           chans := { s.chans with migrations := [], fills := [], requested := [], scrubPos := [], scrubDone := [], late := [], queues := [], narrowRun := [] } }

/-- `MEMORY_INIT` (R461, R479, events 8 and 9, R485): memory reads as zeros; an open debug session is closed; links whose mask bit is 1 begin bring-up. -/
def execMemoryInit (s : State) : Out State :=
  whenever (s.atPhase 7) s <|
  let s := s.initAll.closeOldSession.setFld Fld.setupStatPhase 0 9
  (List.range 20).foldl (fun (s : State) l => if s.linkMasked l then s.startBringup l else s) s

/-! ## The port (R478-R480) -/

/-- The port trains: the CXL link is up, at one of the rates and widths of R337 (log 206, DESIGN CHOICE). -/
def State.portUpNow (s : State) : State :=
  let n := Config.portTraining s.draws % 9
  ({ s with draws := s.draws + 1, fns := { s.fns with linkUp := true, trained := some (linkRates.getD (n / 3) 128, linkWidths.getD (n % 3) 16) } }).enableAll

/-- `PORT_READY` (R473, R476, R479, event 10, R480): memory is initialised and `PERST_N` is high. A port whose link has gone down trains again (log 155, DEDUCED). -/
def execPortReady (s : State) : Out State :=
  whenever ((s.atPhase 9 || s.atPhase 10) && s.pins.perstN && !s.fns.linkUp) s <|
  let s := { s with pins := { s.pins with prsntLow := true, cxlReceivers := true } }
  ((s.setFlag Fld.setupStatReady 0 true).setFld Fld.setupStatPhase 0 10).portUpNow

/-- `PERST_N_FALL` (R478): the port goes down, and every function is disabled as on link down; the rest carries on. -/
def execPerstNFall (s : State) : Out State :=
  whenever s.pins.perstN s <|
  let s := { s with pins := { s.pins with perstN := false } }
  if s.fns.linkUp then s.cxlDown else s

/-- A boundary-scan instruction that drives pins is in the instruction register. -/
def scanDriving (ir : BitVec 8) : Bool := 3 ≤ ir.toNat && ir.toNat ≤ 7

/-- `PERST_N_RISE` (R472, R476, R478): the board-test window closes, and an instruction that drives pins gives way to BYPASS; a ready port trains again. -/
def execPerstNRise (s : State) : Out State :=
  whenever (!s.pins.perstN) s <|
  let ir := if s.pins.window && scanDriving s.pins.ir then 0xFF else s.pins.ir
  let s := { s with pins := { s.pins with perstN := true, window := false, ir := ir } }
  if s.flag Fld.setupStatReady 0 && !s.fns.linkUp then s.portUpNow else s

/-- `ALERT_CAUSE_READ` (R479): the host reads the cause of a pending alert over SMBus, and `ALERT_N` is released. -/
def execAlertCauseRead (s : State) : Out State := whenever s.awake s { s with pins := { s.pins with alerts := [] } }

end Sys2Proof.Machine
end

