-- ==== Sys2Proof/Machine/Tap.lean ====
section
/-! DEFINITION. Boundary scan through Loupe's TAP (R470-R472), and the state of the pin groups (R473). -/

namespace Sys2Proof.Machine

/-! ## The boundary register (R468, R469, R471) -/

/-- The sideband balls with a cell. -/
inductive Sideband where
  | porN
  | pgMain
  | perstN
  | prsntN
  | wakeN
  | thermtripN
  | alertN
  | smbScl
  | smbSda
  | smbAddr (k : Nat)
  deriving DecidableEq, Repr

/-- The balls with a cell: the lane balls of global Galral lane g and of CXL lane j, P or N, transmit or receive, with IEEE 1149.6 cells; the sideband balls,
with IEEE 1149.1 cells; the four reference-clock balls, with observe-only cells. The Loupe balls, `TEST_MODE` and the sense balls have none. -/
inductive Ball where
  | galral (g : Nat) (rx neg : Bool)
  | cxl (j : Nat) (rx neg : Bool)
  | side (b : Sideband)
  | refclk (k : Nat)
  deriving DecidableEq, Repr

/-- The four balls of a lane. -/
def laneBalls (f : Bool → Bool → Ball) : List Ball := [f false false, f false true, f true false, f true true]

/-- The boundary register, one cell for each ball, from `TDO` (log 202, DESIGN CHOICE). -/
def boundaryCells : List Ball :=
  (List.range 100).flatMap (fun g => laneBalls (Ball.galral g)) ++ (List.range 16).flatMap (fun j => laneBalls (Ball.cxl j)) ++
  [Sideband.porN, .pgMain, .perstN, .prsntN, .wakeN, .thermtripN, .alertN, .smbScl, .smbSda, .smbAddr 0, .smbAddr 1].map Ball.side ++
  (List.range 4).map Ball.refclk

/-- Bits shifted through a register from `TDI`: the first one in goes furthest. -/
def shiftedIn (reg bits : List Bool) : List Bool := (reg ++ bits).drop bits.length

/-! ## Instructions (R470) -/

/-- The instructions of the TAP. -/
inductive TapInsn where
  | idcode
  | samplePreload
  | extest
  | extestPulse
  | extestTrain
  | clamp
  | highz
  | debug (k : Nat)
  | bypass
  deriving DecidableEq, Repr

/-- The instruction that a value of the instruction register selects; any other value acts as BYPASS. -/
def tapInsn (ir : BitVec 8) : TapInsn :=
  let n := ir.toNat
  if n = 0x01 then .idcode else if n = 0x02 then .samplePreload else if n = 0x03 then .extest else if n = 0x04 then .extestPulse
  else if n = 0x05 then .extestTrain else if n = 0x06 then .clamp else if n = 0x07 then .highz
  else if 0x40 ≤ n && n ≤ 0x7F then .debug (n - 0x40) else .bypass

/-- The instruction acts only inside the board-test window, and as BYPASS outside it (R472). -/
def TapInsn.windowed : TapInsn → Bool
  | .extest | .extestPulse | .extestTrain | .clamp | .highz => true
  | .idcode | .samplePreload | .debug _ | .bypass => false

/-- The instruction in force. -/
def State.tapNow (s : State) : TapInsn :=
  let i := tapInsn s.pins.ir
  if i.windowed && !s.pins.window then .bypass else i

/-! ## Pin states (R473) -/

/-- The conditions of R473. -/
inductive PinCondition where
  | unpowered
  | auxOnly
  | coldReset
  | starting
  | running
  | p3
  deriving DecidableEq, Repr

/-- The condition that the pins are in. In P3 the level of `PG_MAIN` has no further effect (R478). -/
def State.pinCondition (s : State) : PinCondition :=
  if !s.pins.vaux then .unpowered
  else if !s.pins.porN then .coldReset
  else if s.fld Fld.pwrStatState 0 = 3 then .p3
  else if !s.mainGood then .auxOnly
  else if s.flag Fld.setupStatReady 0 && s.pins.perstN then .running
  else .starting

/-- The boundary register drives the outputs: EXTEST, EXTEST_PULSE, EXTEST_TRAIN or CLAMP is in force (R472). -/
def State.scanDrives (s : State) : Bool :=
  match s.tapNow with
  | .extest | .extestPulse | .extestTrain | .clamp => true
  | .idcode | .samplePreload | .highz | .debug _ | .bypass => false

/-- HIGHZ is in force (R472). -/
def State.scanHighz (s : State) : Bool := s.tapNow == .highz

/-- The frequencies in Hz, least and greatest, at which the lane transmitters may toggle under EXTEST_PULSE and EXTEST_TRAIN with `TCK` at `tck` Hz; none under another
instruction (R471). -/
def State.laneTestRate (s : State) (tck : Nat) : Option (Nat × Nat) :=
  match s.tapNow with
  | .extestPulse | .extestTrain => some (if tck < 1000000 then (1000000, 10000000) else (tck, tck))
  | .idcode | .samplePreload | .extest | .clamp | .highz | .debug _ | .bypass => none

/-- The main power serves the lanes. -/
def State.lanesPowered (s : State) : Bool := s.pinCondition == .starting || s.pinCondition == .running

/-- The boundary register drives a ball while it drives the outputs: a lane ball that transmits, in the condition Starting (R473), and a sideband ball that is an output.
Inputs, receive balls and observe-only cells are driven by nothing here (R469, R471, R472). -/
def State.scanned (s : State) (b : Ball) : Bool :=
  s.scanDrives && (match b with
    | .galral _ rx _ | .cxl _ rx _ => !rx && s.pinCondition == .starting
    | .side .prsntN | .side .thermtripN | .side .alertN | .side .smbScl | .side .smbSda => true
    | .side .porN | .side .pgMain | .side .perstN | .side .wakeN | .side (.smbAddr _) | .refclk _ => false)

/-- The level that the boundary register drives on a ball. -/
def State.scanLevel (s : State) (b : Ball) : Option Bool := if s.scanned b then (boundaryCells.zip s.pins.boundary).lookup b else none

/-- The Galral transmitter of a lane is driven (R292, R311, R473): by the boundary register, or by its link while that trains, is up or retrains and the lane has not
failed (log 124, DEDUCED). -/
def State.galralDriven (s : State) (l lane : Nat) : Bool :=
  s.scanned (.galral (5 * l + lane) false false) ||
    (!s.scanHighz && s.lanesPowered && s.linkMasked l && 1 ≤ s.linkState l && s.linkState l ≤ 3 && s.lane l lane != 2)

/-- The Galral receivers of a link are terminated: its mask bit is 1 in Running, and in Starting, where R473 has no termination, only while the link runs on (log 124, DEDUCED). -/
def State.galralTerminated (s : State) (l : Nat) : Bool :=
  s.linkMasked l && (s.pinCondition == .running || (s.pinCondition == .starting && 1 ≤ s.linkState l && s.linkState l ≤ 3))

/-- The Galral receive balls have boundary-scan receivers (R472, R473). -/
def State.scanReceivers (s : State) : Bool :=
  s.pinCondition == .starting && (s.tapNow == .extest || s.tapNow == .extestPulse || s.tapNow == .extestTrain)

/-- The CXL transmitters are driven: by the boundary register, or by the running port. -/
def State.cxlDriven (s : State) : Bool := s.scanned (.cxl 0 false false) || (!s.scanHighz && s.pinCondition == .running)

/-- The CXL receivers are terminated. -/
def State.cxlTerminated (s : State) : Bool := s.pinCondition == .running && s.pins.cxlReceivers

/-- An open-drain output is driven low: by the boundary register while that drives it, never under HIGHZ, and otherwise as the device drives it (R472). -/
def State.drivenLow (s : State) (b : Sideband) (own : Bool) : Bool :=
  if s.scanned (.side b) then s.scanLevel (.side b) == some false else own && !s.scanHighz

/-- `PRSNT_N` is driven low. -/
def State.prsntDriven (s : State) : Bool := s.drivenLow .prsntN (s.lanesPowered && s.pins.prsntLow)

/-- `THERMTRIP_N` is driven low: while the trip latch holds (R473) (log 146, DEDUCED). -/
def State.thermtripDriven (s : State) : Bool :=
  s.drivenLow .thermtripN (s.pinCondition != .unpowered && s.pinCondition != .running && s.pins.tripLatch.isSome)

/-- `ALERT_N` is driven low. -/
def State.alertDriven (s : State) : Bool :=
  s.drivenLow .alertN (s.pinCondition != .unpowered && s.pinCondition != .coldReset && !s.pins.alerts.isEmpty)

/-- SMBus is served, by balls that the boundary register does not hold. -/
def State.smbServed (s : State) : Bool :=
  s.pinCondition != .unpowered && s.pinCondition != .coldReset && !s.scanDrives && !s.scanHighz

/-! ## Captures (R471) -/

/-- A level on a ball that the state holds: the inputs of R476, what the device drives low, and the straps that it has sampled. -/
def State.sideLevel (s : State) : Sideband → Option Bool
  | .porN => some s.pins.porHigh
  | .pgMain => some s.pins.pgMain
  | .perstN => some s.pins.perstN
  | .wakeN => some s.pins.wakeN
  | .prsntN => if s.prsntDriven then some false else none
  | .thermtripN => if s.thermtripDriven then some false else none
  | .alertN => if s.alertDriven then some false else none
  | .smbAddr k => if s.pins.porN then some (bitOf s.pins.smbAddr k) else none
  | .smbScl | .smbSda => none

/-- What a cell captures: the level on its ball, which the board gives where the state does not hold it (log 12, DEDUCED). -/
def State.captureOf (s : State) (k : Nat) : Ball → Bool
  | .side b => (s.sideLevel b).getD (Config.boardCapture s.draws k)
  | .galral _ _ _ | .cxl _ _ _ | .refclk _ => Config.boardCapture s.draws k

/-- What the boundary register captures. -/
def State.captured (s : State) : List Bool := boundaryCells.zipIdx.map (fun e => s.captureOf e.2 e.1)

/-- The TAP runs from `VAUX`: an instruction is loaded into its instruction register, and its data register captures `dr`. -/
def State.tap (s : State) (ir : BitVec 8) (dr : List Bool) : State :=
  { s with pins := { s.pins with ir := ir }, outs := { s.outs with dr := dr } }

/-- IDCODE of stepping B0 (R470). -/
def idcodeB0 : Nat := 0x10768A47

/-- The boundary register captures. -/
def State.capture (s : State) (ir : BitVec 8) : State := ({ s with draws := s.draws + 1 }).tap ir s.captured

/-- An instruction that drives the lanes from the boundary register: inside the board-test window it captures, outside it acts as BYPASS (R472). -/
def State.scanTest (s : State) (ir : BitVec 8) : State := if s.pins.window then s.capture ir else s.tap ir [false]

/-- `IDCODE` (R470): the identification register, least significant bit first. -/
def execIdcode (s : State) : Out State :=
  whenever s.pins.vaux s (s.tap 0x01 ((List.range 32).map (bitOf idcodeB0)))

/-- `SAMPLE_PRELOAD` (R470, R471): the register samples the pins, and the bits are shifted in behind. -/
def execSamplePreload (preload : List Bool) (s : State) : Out State :=
  whenever s.pins.vaux s <|
  let u := s.capture 0x02
  { u with pins := { u.pins with boundary := shiftedIn s.captured preload } }

/-- `EXTEST` (R472). -/
def execExtest (s : State) : Out State := whenever s.pins.vaux s (s.scanTest 0x03)

/-- `EXTEST_PULSE` (R471, R472). -/
def execExtestPulse (s : State) : Out State := whenever s.pins.vaux s (s.scanTest 0x04)

/-- `EXTEST_TRAIN` (R471, R472). -/
def execExtestTrain (s : State) : Out State := whenever s.pins.vaux s (s.scanTest 0x05)

/-- `CLAMP` (R472): the one-bit bypass register lies between `TDI` and `TDO`; inside the window the boundary register drives the pins. -/
def execClamp (s : State) : Out State := whenever s.pins.vaux s (s.tap 0x06 [false])

/-- `HIGHZ` (R472): as `CLAMP`, but inside the window the outputs are at high impedance. -/
def execHighz (s : State) : Out State := whenever s.pins.vaux s (s.tap 0x07 [false])

/-- `BYPASS` (R470): 0xFF, or a value that names no instruction. The command with a value that names another instruction loads 0xFF (log 203, DESIGN CHOICE). -/
def execBypass (ir : BitVec 8) (s : State) : Out State :=
  whenever s.pins.vaux s (s.tap (if tapInsn ir = .bypass then ir else 0xFF) [false])

/-- `TAP_RESET` (R470): the instruction register holds IDCODE. -/
def execTapReset (s : State) : Out State :=
  whenever s.pins.vaux s { s with pins := { s.pins with ir := 0x01 } }

end Sys2Proof.Machine
end

