-- ==== Sys2Proof/Machine/Registers.lean ====
section
/-! DEFINITION. Register access (R18, R20, R345, R356, R486-R494): where a register lies, what a read returns, and what a write does for each
agent. -/

namespace Sys2Proof.Machine

/-! ## Where a register lies (R345, R486, R488, R489) -/

/-- A register, its instance, and a byte offset inside it. -/
abbrev Place := Reg × Nat × Nat

/-- The block of a table that holds an offset: register, number within the block, byte. -/
def findRow : List RegRow → Nat → Option Place
  | [], _ => none
  | (base, stride, reg, n, size) :: r, o =>
    if base ≤ o && (o - base) / stride < n && (o - base) % stride < size then some (reg, (o - base) / stride, (o - base) % stride)
    else findRow r o

/-- A logical tile's block; a tile outside the tiles in service has no register. -/
def State.locateTile (s : State) (t o : Nat) : Option Place :=
  if 16 * s.rowsInService ≤ t then none
  else (findRow tileRows o).map (fun x => (x.1, if x.1 = .tileHist then 32 * t + x.2.1 else t, x.2.2))

/-- Grant block t, with the mirror of the counters of context t. -/
def locateGrant (t o : Nat) : Option Place :=
  if 0x900 ≤ o && o < 0x948 then (findRow counterRows (o + 0x1000)).map (fun x => (x.1, t, x.2.2))
  else (findRow grantRows o).map (fun x =>
    (x.1, if x.1 = .grantMem then 8 * t + x.2.1 else if x.1 = .grantCredit then 20 * t + x.2.1 else t, x.2.2))

/-- The function page of context fn. -/
def locatePage (fn o : Nat) : Option Place :=
  if o < 0x200 then some (.doorbell, 64 * fn + o / 8, o % 8)
  else if 0x10000 ≤ o && o < 0x18000 then some (.msixTable, 2048 * fn + (o - 0x10000) / 16, o % 16)
  else if 0x18000 ≤ o && o < 0x18100 then some (.msixPba, fn, o - 0x18000)
  else match findRow pageRows o with
    | some (.ringCfg, k, b) => some (.ringCfg, 64 * fn + k, b)
    | some (.msixMod, v, b) => some (.msixMod, 2048 * fn + v, b)
    | some (r, _, b) => some (r, fn, b)
    | none => (findRow counterRows o).map (fun x => (x.1, fn, x.2.2))

/-- BAR0 of the physical function (log 85, DEDUCED) (log 89, DEDUCED). -/
def State.locate (s : State) (o : Nat) : Option Place :=
  if o < 0x400000 then findRow bar0Rows o
  else if o < 0x500000 then s.locateTile ((o - 0x400000) / 0x1000) (o % 0x1000)
  else if 0x1000000 ≤ o && o < 0x1040000 then locateGrant ((o - 0x1000000) / 0x1000) (o % 0x1000)
  else if 0x1400000 ≤ o && o < 0x1401000 then some (.hwin, (o - 0x1400000) / 16, o % 16)
  else if 0x1401000 ≤ o && o < 0x1402000 then
    findRow [(0x1401000, 8, .cxmCtl, 1, 4), (0x1401008, 8, .cxmSeg, 64, 8), (0x1401208, 8, .cxmErr, 1, 8)] o
  else if 0x2000000 ≤ o && o < 0x2020000 then locatePage 0 (o - 0x2000000)
  else none

/-! ## Fields that the device computes -/

/-- The journal has been replayed: fields that it loads no longer read zero (R19). -/
def State.journalLoaded (s : State) : Bool := s.sec.journalRead

/-- Spare rows left in the bank that has fewest, over the tiles in service (R411) (log 93, DEDUCED). -/
def State.rowsMin (s : State) : Nat :=
  ((s.physIn 0).map (fun p => 4 - ((List.range 64).map (s.tile p).bankSpares).foldl max 0)).foldl min 4

/-- `TABLE_SLOT` (R291): generation, references (saturated) and identifier of a generation that may be absent. -/
def genField (g : Option TableGen) (f : TableGen → Nat) : Nat := (g.map f).getD 0

/-- `SPARE_STAT` (R411). -/
def State.spareField (s : State) (f : Field) : Nat :=
  if f = Fld.spareStatTilesSpare then (s.physIn 1).length
  else if f = Fld.spareStatTilesQuar then (s.physIn 2).length + (s.physIn 3).length
  else if f = Fld.spareStatTilesFailed then (s.physIn 4).length
  else if f = Fld.spareStatChSpare then ((List.range 272).filter (fun c => s.fld Fld.memChstatState c == 1)).length
  else if f = Fld.spareStatLanesSpare then ((List.range 20).filter (fun l => (List.range 5).any (fun n => s.lane l n == 1))).length
  else if s.journalLoaded then s.rowsMin else 0

/-- The ROM has not yet read the one-time-programmable array since cold reset (R19, R435, event 2): the boot chain has not run (log 201, DEDUCED). -/
def State.lifeUnread (s : State) : Bool := s.fld Fld.setupStatPhase 0 < 2 && !s.flag Fld.secStatRecovery 0

/-- A field as it reads: WO fields read as zero (R18); some RO fields show what the device holds elsewhere. -/
def State.readFld (s : State) (f : Field) (i : Nat) : Nat :=
  if f.acc = .wo then 0
  else match f.reg with
    | .tallyStat => if f = Fld.tallyStatHoldover then (if s.holdover then 1 else 0) else s.fld f i
    | .tileSeq => if f = Fld.tileSeqInflight then min 1023 (s.tileAt i).inFlight else s.fld f i
    | .tableSlot =>
      let x := Tab.get ⟨none, none, 0⟩ s.tables i
      if f = Fld.tableSlotCurGen then genField x.current (fun g => g.gen)
      else if f = Fld.tableSlotPrevGen then genField x.previous (fun g => g.gen)
      else if f = Fld.tableSlotCurRefs then min 0xFFFF (genField x.current (fun g => g.refs))
      else if f = Fld.tableSlotPrevRefs then min 0xFFFF (genField x.previous (fun g => g.refs))
      else if f = Fld.tableSlotCurId then genField x.current (fun g => g.id)
      else genField x.previous (fun g => g.id)
    | .linkPort =>
      if f = Fld.linkPortBad then (if s.portValid i then 0 else 1)
      else if f = Fld.linkPortUp then (if (s.portUp i).isEmpty then 0 else 1)
      else if f = Fld.linkPortUpCount then min 15 (s.portUp i).length
      else if f = Fld.linkPortPeer then (match s.portUp i with
        | l :: _ => s.fld Fld.linkStatPeerChip l
        | [] => 0)
      else s.fld f i
    | .memChmap =>
      if f = Fld.memChmapMigrating then (if (s.mirrorOf i).isSome then 1 else 0)
      else if f = Fld.memChmapFilling then (if (s.fillOf i).isSome then 1 else 0)
      else s.fld f i
    | .spareStat => s.spareField f
    | .secStat => if f = Fld.secStatLc && s.lifeUnread then 0 else s.fld f i
    | .journalStat =>
      if f = Fld.journalStatActive then (if s.journalLoaded then s.activeHalf else 0)
      else if f = Fld.journalStatFreeKib then (if s.journalLoaded then s.logFree / 1024 else 0)
      else if f = Fld.journalStatSeq then (if s.journalLoaded then s.logSeq else 0)
      else s.fld f i
    | .ringCfg => if f = Fld.ringCfgInflight then (s.ringItems (i / 64) (i % 64)).length else s.fld f i
    | .fnQuota => if f = Fld.fnQuotaInflight then (s.fnItems i).length else s.fld f i
    | _ => s.fld f i

/-! ## Reads (R18, R20, R486) -/

/-- The bits of a register, with its reserved bits zero. -/
def State.readReg (s : State) (r : Reg) (i : Nat) : Nat := r.fields.foldl (fun n f => n + 2 ^ f.lo * s.readFld f i) 0

/-- An MSI-X table entry: address, data, mask (R351). -/
def Vec.entry (x : Vec) : Nat := x.addr % 2 ^ 64 + 2 ^ 64 * (x.data % 2 ^ 32) + 2 ^ 96 * (if x.masked then 1 else 0)

/-- The 4 bytes at a place. -/
def State.readWord (s : State) (x : Place) : Nat :=
  let v := match x.1 with
    | .tallyNow => s.tally % 2 ^ 64
    | .doorbell => 0
    | .msixTable => (Tab.get Vec.reset s.fns.vectors x.2.1).entry
    | .msixPba => ((List.range 2048).map (fun k => if (s.vec x.2.1 k).pbit then 2 ^ k else 0)).foldl (· + ·) 0
    | r => s.readReg r x.2.1
  v / 2 ^ (8 * x.2.2) % 2 ^ 32

/-- The access has 4 or 8 bytes and is naturally aligned (R486). -/
def aligned48 (o size : Nat) : Bool := (size == 4 || size == 8) && o % size == 0

/-- A read through a map of offsets to places; whatever holds no register, and an access of another form, reads zero. -/
def State.readThrough (s : State) (map : Nat → Option Place) (o size : Nat) : Nat :=
  if !aligned48 o size then 0
  else
    let w (k : Nat) : Nat := ((map (o + k)).map s.readWord).getD 0
    if size = 4 then w 0 else w 0 + 2 ^ 32 * w 4

/-- BAR0 of a virtual function is its function page (R345). -/
def locateVf (n o : Nat) : Option Place := if o < 0x20000 then locatePage n o else none

/-- The place that an agent's offset names: a virtual function's page exists while the function does (R344, R345). -/
def State.placeOf (s : State) (a : Agent) (o : Nat) : Option Place :=
  match a with
  | .hostVf n => if s.fns.vfEnable && n ≤ s.fns.numVfs then locateVf n o else none
  | .hostPf | .mgc | .loupe => s.locate o

/-- A read of a register by an agent, through BAR0 of its function (R345, R486). -/
def State.registerRead (s : State) (a : Agent) (o size : Nat) : Nat := s.readThrough (s.placeOf a) o size

/-! ## Who may write (R309, R450, R451, R492) -/

/-- Registers that only the physical function's host driver writes (R309, R346, R450, R462). -/
def hostOnly : Reg → Bool
  | .hwin | .cxmCtl | .cxmSeg | .grantTiles | .grantMem | .grantRes | .grantCredit | .grantCtl | .fnQuota | .tenantCtl | .repairSrc | .auditCtl
  | .linkMask | .linkPort | .linkTopo | .linkRt | .dbgConsent => true
  | _ => false

/-- Registers of the set-up fields (R492), and the register of the lock. -/
def setUp : Reg → Bool
  | .setupCtl | .coreStallCtl | .tallyCtl | .linkTopo | .linkPort | .linkCtl | .memScrub | .memSpareCtl | .collCtl | .assayCtl | .pwrCfg => true
  | _ => false

/-- A register of a function page, its doorbells and MSI-X state included. -/
def pageReg : Reg → Bool
  | .ringCfg | .fnState | .hostErr | .boardFault | .kvFault | .kvStat | .ingestStat | .collStat | .collStrag | .energyTenant | .msixMod | .doorbell
  | .msixTable | .msixPba => true
  | _ => false

/-- The agent may write the register; firmware reaches no function page, and a probe writes no register (R450, R454). -/
def mayWrite (a : Agent) (r : Reg) : Bool :=
  match a with
  | .hostPf => true
  | .hostVf _ => pageReg r
  | .mgc => !hostOnly r && !pageReg r
  | .loupe => false

/-- The offset lies in a grant block, all of which only the host driver writes, the counters at its end included (R450, R489). -/
def inGrantBlock (o : Nat) : Bool := 0x1000000 ≤ o && o < 0x1040000

/-- A write of the agent to a register at an offset is discarded with a count (R451). -/
def discards (a : Agent) (o : Nat) (r : Reg) : Bool :=
  match a with
  | .hostPf | .hostVf _ => false
  | .mgc => hostOnly r || inGrantBlock o
  | .loupe => hostOnly r || setUp r || inGrantBlock o

/-! ## Plain writes (R18, R20) -/

/-- A field may be written now: RW and W1C always, RWL until the lock point. -/
def State.writable (s : State) (f : Field) : Bool :=
  match f.acc with
  | .rw | .w1c => true
  | .rwl => !s.locked
  | .ro | .wo => false

/-- The value of a field after the 4 bytes at byte `b` of its register are written with `v`. -/
def mergeFld (f : Field) (old b v : Nat) : Nat :=
  let lo := 8 * b
  let full := old * 2 ^ f.lo
  let new := full / 2 ^ (lo + 32) * 2 ^ (lo + 32) + v % 2 ^ 32 * 2 ^ lo + full % 2 ^ lo
  new / 2 ^ f.lo % 2 ^ f.width

/-- The value of a field after a write: a W1C field loses the bits written as 1. -/
def State.writtenFld (s : State) (f : Field) (i b v : Nat) : Nat :=
  if f.acc = .w1c then
    let ones := mergeFld f 0 b v
    s.fld f i - (s.fld f i &&& ones)
  else mergeFld f (s.fld f i) b v

/-- The fields of a register written with 4 bytes. -/
def State.writeFields (s : State) (fs : List Field) (i b v : Nat) : State :=
  fs.foldl (fun (s : State) f => s.setFld f i (s.writtenFld f i b v)) s

/-- A plain write: the writable fields take their bits, and every other bit is ignored. -/
def State.writePlain (s : State) (r : Reg) (i b v : Nat) : State := s.writeFields (r.fields.filter s.writable) i b v

/-! ## Writes with a further effect -/

/-- The state that an operation with a row of its own answers. -/
def State.via (s : State) (o : Out State) : State :=
  match o with
  | .next t => t
  | .fault _ | .refused _ => s

/-- `HWIN` (R339, R340): a window that is locked ignores the write; `SET_LOCK` locks it after its fields have taken effect. -/
def State.writeHwin (s : State) (w b v : Nat) : State :=
  if s.flag Fld.hwinLock w then s
  else
    let s := s.writeFields [Fld.hwinBase, Fld.hwinSize, Fld.hwinTenant, Fld.hwinRead, Fld.hwinWrite, Fld.hwinEnable] w b v
    if b = 12 && bitOf v 18 then s.setFlag Fld.hwinLock w true else s

/-- `RING_CFG` (R356-R358): `ENABLE` requests enabling or starts the drain; the other fields are written only while the pair is inactive. -/
def State.writeRing (s : State) (i b v : Nat) : State :=
  let plain := Reg.ringCfg.fields.filter (fun f => s.writable f && f != Fld.ringCfgEnable)
  let s := if s.flag Fld.ringCfgActive i then s else s.writeFields plain i b v
  if b ≠ 16 then s
  else if bitOf v 19 then s.via (execRingEnable (i / 64) (i % 64) s)
  else s.via (execRingDisable (i / 64) (i % 64) s)

/-- An MSI-X table entry (R351): clearing the mask lets held messages go. -/
def State.writeVec (s : State) (i b v : Nat) : State :=
  let fn := i / 2048
  let x := s.vec fn (i % 2048)
  let lo := x.addr % 2 ^ 32
  let x' : Vec := if b = 0 then { x with addr := x.addr - lo + v } else if b = 4 then { x with addr := lo + 2 ^ 32 * v }
    else if b = 8 then { x with data := v } else { x with masked := bitOf v 0 }
  (s.setVec fn (i % 2048) x').flushHeld fn

/-- `TENANT_CTL` (R399): `FENCE`, then `UNFENCE`. -/
def State.writeTenant (s : State) (ctx v : Nat) : State :=
  let s := if bitOf v 0 then s.via (execTenantFence .hostPf ctx s) else s
  if bitOf v 1 then s.via (execTenantUnfence .hostPf ctx s) else s

/-- A doorbell (R349, R350). -/
def State.writeDoorbell (s : State) (i b v : Nat) : State :=
  if b = 0 then s.via (execSqTailWrite (i / 64) (i % 64) (BitVec.ofNat 32 v) s) else s.via (execCqHeadWrite (i / 64) (i % 64) (BitVec.ofNat 32 v) s)

/-- `TILE_SEQ.PEAK` is never below `INFLIGHT` (R100), also right after a write (log 189, DEDUCED). -/
def State.peakSince (s : State) (t : Nat) : State :=
  match s.physOf t with
  | some p => s.peak t p
  | none => s

/-- The 4 bytes at a place written with `v` by an agent that may write them (log 92, DEDUCED). -/
def State.writeWord (s : State) (a : Agent) (x : Place) (v : Nat) : State :=
  let i := x.2.1
  let b := x.2.2
  match x.1 with
  | .doorbell => s.writeDoorbell i b v
  | .msixTable => s.writeVec i b v
  | .tileSeq => (s.writePlain .tileSeq i b v).peakSince i
  | .msixMod => (s.writePlain .msixMod i b v).vecReached (i / 2048) (i % 2048)
  | .ringCfg => s.writeRing i b v
  | .hwin => s.writeHwin i b v
  | .setupCtl => if bitOf v 0 then s.via (execSetupLock a s) else s
  | .pwrCtl =>
    let s := s.writePlain .pwrCtl i b v
    if bitOf v 18 then s.via (execPwrCtlOff a s) else s
  | .pwrCfg =>
    let s := s.writePlain .pwrCfg i b v
    if s.coreOn then s.applyPoints else s
  | .linkMask => s.via (execLinkMaskWrite a (BitVec.ofNat 32 v) s)
  | .linkRt => s.via (execLinkRtWrite a i (BitVec.ofNat 16 v) s)
  | .linkPort => if b = 0 then s.via (execLinkPortWrite a i (BitVec.ofNat 20 v) s) else s
  | .linkTopo => s.via (execLinkTopoWrite a (BitVec.ofNat 11 v) s)
  | .fnQuota => s.via (execFnQuotaWrite a i (BitVec.ofNat 15 v) s)
  | .grantCtl => if bitOf v 0 then s.via (execGrantCommit a i s) else s
  | .tenantCtl => s.writeTenant i v
  | .auditCtl =>
    let s := s.writePlain .auditCtl i b v
    if bitOf v 31 then s.via (execAuditSnap a s) else s
  | .meas => if a = .mgc then s.measurePart i b v else s
  | r => s.writePlain r i b v

/-! ## `REGISTER_WRITE` -/

/-- An access of 4 bytes. -/
def State.writeAt (s : State) (a : Agent) (o v : Nat) : State :=
  match s.placeOf a o with
  | some x => if mayWrite a x.1 then s.writeWord a x v else s
  | none => s

/-- The access reaches a register that discards it with a count. -/
def State.writeDiscarded (s : State) (a : Agent) (o size : Nat) : Bool :=
  let hits (k : Nat) : Bool := (s.placeOf a (o + k)).any (fun x => discards a (o + k) x.1)
  hits 0 || (size == 8 && hits 4)

/-- An access of 4 or 8 bytes, naturally aligned: the lower 4 bytes first. An access that R450 or R309 discards changes nothing but `SEC_BOUND`. -/
def State.writeAccess (s : State) (a : Agent) (o size v : Nat) : State :=
  if s.writeDiscarded a o size then s.boundDiscard a o
  else
    let s' := s.writeAt a o (v % 2 ^ 32)
    if size = 8 then s'.writeAt a (o + 4) (v / 2 ^ 32) else s'

/-- A doorbell write of other than 4 or 8 bytes, or not 4-byte aligned, counts while the function is enabled (R350) (log 87, DEDUCED). -/
def State.badDoorbell (s : State) (a : Agent) (o : Nat) : State :=
  match s.placeOf a o with
  | some (.doorbell, i, _) => if mayWrite a .doorbell && s.fnEnabled (i / 64) then s.bump Fld.hostErrDoorbell (i / 64) 1 else s
  | _ => s

/-- The access is served in P1 and P2 as it is: an MSI-X table access (R425). -/
def State.servedAsleep (s : State) (a : Agent) (o : Nat) : Bool :=
  match s.placeOf a o with
  | some (.msixTable, _, _) => true
  | _ => false

/-- `REGISTER_WRITE` (R430, R454, R18, R20, R345, R350, R356, R425, R450, R486, R489, R492-R494) (log 18, DESIGN CHOICE). In P3 a write
that R450 or R309 discards counts all the same (R451). -/
def execRegisterWrite (a : Agent) (offset size : Nat) (value : Word64) (s : State) : Out State :=
  onUnit a.wf "agent" <|
  let f (s : State) : State :=
    if aligned48 offset size then s.writeAccess a offset size value.toNat
    else if offset % 4 != 0 || (size != 4 && size != 8) then s.badDoorbell a offset else s
  if !s.agentActs a then .next s
  else if s.fld Fld.pwrStatState 0 = 3 && aligned48 offset size && s.writeDiscarded a offset size then .next (s.boundDiscard a offset)
  else if s.servedAsleep a offset then .next (f s) else onAccess (.registerWrite a offset size value) s f

end Sys2Proof.Machine
end

