-- ==== Sys2Proof/Machine/Attestation.lean ====
section
/-! DEFINITION. Attestation reports (R441, R442). -/

namespace Sys2Proof.Machine

/-- `DEBUG`: the level in force, and whether a level above L0 has held since cold reset. -/
def State.debugByte (s : State) : Nat := s.level % 4 + (if s.sec.aboveL0 then 128 else 0)

/-- Bytes 0x000 to 0x3FF of a report. -/
def State.reportHead (s : State) (nonce : List Byte) : List Byte :=
  leBytes 4 0x5441564F ++ leBytes 2 1 ++ leBytes 2 0 ++ leBytes 4 17632 ++ leBytes 4 0 ++ fitBytes 32 nonce ++
  leBytes 4 (s.readReg .mgcDevid 0) ++ leBytes 2 s.chipId ++ leBytes 1 (s.fld Fld.secStatLc 0) ++ leBytes 1 s.debugByte ++ leBytes 8 s.tally ++
  s.identityHash ++ [1, 2, 3].flatMap (fun k => leBytes 4 (Tab.get 0 s.sec.running k)) ++ leBytes 4 0 ++
  [1, 2, 3].flatMap (fun k => leBytes 4 (s.floorOf k)) ++ leBytes 1 s.sec.revoked ++ leBytes 3 0 ++ leBytes 8 s.logSeq ++
  leBytes 1 (s.fld Fld.coreModeTiles 0) ++ leBytes 7 0 ++ leBytes 8 (s.readReg .spareStat 0) ++ leBytes 24 0 ++
  (List.range 8).flatMap s.measured ++ leBytes 448 0

/-- A report: both signatures cover bytes 0x000 to 0x3FF (log 7, DEDUCED). -/
def State.attest (s : State) (nonce : List Byte) : List Byte :=
  let h := s.reportHead nonce
  let sig := Config.reportSignature s.keyMaterial h
  h ++ fitBytes 384 sig.1 ++ fitBytes 16224 sig.2

/-- `ATTESTATION_REQUEST` (R430, R441, R442): over MCTP, or inside a secured SPDM session. In RETURNED, and without identity keys, there is no report. -/
def execAttestationRequest (nonce : List Byte) (overSpdm : Bool) (s : State) : Out State :=
  whenever (s.awake && s.mgcServes && (!overSpdm || 0 < s.sec.spdm)) s
    { s with outs := { s.outs with report := if s.fld Fld.secStatLc 0 = 3 || !s.sec.identityKeys then [] else s.attest nonce } }

end Sys2Proof.Machine
end

