-- ==== Sys2Proof/Machine/Expert.lean ====
section
/-! DEFINITION. Expert routing (R227-R246): the placement shape, ranking, the greedy walk and its repair, gate weights, the placement area and
the routing records, gather and combine. `TLOOK` (R284). -/

namespace Sys2Proof.Machine

/-- `XCFG` (R228): the tile's placement shape T, C. -/
def execXcfg (t : Nat) (s : State) : Out State :=
  onInsn t 0xA0 s fun p tl i =>
    if tl.signalRoom i then s.issueInstant t p i (fun tl => { tl with shape := some (i.arg 0 11 + 1, i.arg 11 11 + 1) }) else s

/-- T of the placement shape. -/
def Tile.tokens (t : Tile) : Nat := (t.shape.map Prod.fst).getD 0
/-- C of the placement shape. -/
def Tile.capacity (t : Tile) : Nat := (t.shape.map Prod.snd).getD 0

/-- Offset of the slot table in a placement area (R236). -/
def slotTable (e : Nat) : Nat := alignUp (0x40 + 2 * e) 64

/-! ## Ranking (R231) -/

/-- Score a ranks above score b: descending, NaN below every other. -/
def scoreAbove (a b : Val) : Bool := if b == .nan then a != .nan else Val.lt b a

/-- Insertion into a ranking kept in descending score; an equal score goes behind, so ties stay in ascending index. -/
def rankInsert (x : Nat × Val) : List (Nat × Val) → List (Nat × Val)
  | [] => [x]
  | y :: r => if scoreAbove x.2 y.2 then x :: y :: r else y :: rankInsert x r

/-- The ranking of the experts by a token's scores. -/
def ranking (scores : List Val) : List Nat :=
  (((List.range scores.length).zip scores).foldl (fun acc x => rankInsert x acc) []).map Prod.fst

/-! ## Placement (R232, R233) -/

/-- A held slot: expert, slot, token, and how the choice was placed. -/
structure Held where
  expert : Nat
  slot : Nat
  token : Nat
  repaired : Bool
  moved : Bool
  deriving DecidableEq, Repr

/-- A placement in progress: the held slots, the blocked choices in (round, token) order, the counts of R236. -/
structure Placing where
  held : List Held
  blocked : List Nat
  repaired : Nat
  moves : Nat
  deriving DecidableEq, Repr

/-- A token uses an expert. -/
def Placing.uses (p : Placing) (t e : Nat) : Bool := p.held.any (fun h => h.token == t && h.expert == e)
/-- The slots of an expert held. -/
def Placing.fill (p : Placing) (e : Nat) : Nat := (p.held.filter (fun h => h.expert == e)).length
/-- An expert has room. -/
def Placing.room (p : Placing) (c e : Nat) : Bool := p.fill e < c
/-- The lowest free slot of an expert. -/
def Placing.freeSlot (p : Placing) (c e : Nat) : Nat :=
  ((List.range c).find? (fun k => !p.held.any (fun h => h.expert == e && h.slot == k))).getD 0
/-- A choice placed. -/
def Placing.put (p : Placing) (c t e : Nat) (rep mov : Bool) : Placing :=
  { p with held := p.held ++ [⟨e, p.freeSlot c e, t, rep, mov⟩] }

/-- One choice of the greedy walk (R232). -/
def Placing.walk (p : Placing) (c t : Nat) (rank : List Nat) : Placing :=
  if p.blocked.contains t then { p with blocked := p.blocked ++ [t] }
  else match rank.find? (fun e => !p.uses t e && p.room c e) with
    | some e => p.put c t e false false
    | none => { p with blocked := p.blocked ++ [t] }

/-- One blocked choice of the repair (R233) (log 46, DEDUCED). -/
def Placing.repair (p : Placing) (c t : Nat) (rank : List Nat) : Placing :=
  match rank.find? (fun e => p.room c e), rank.find? (fun e => !p.uses t e && p.room c e) with
  | none, _ => p
  | some _, some e => { p.put c t e true false with repaired := p.repaired + 1 }
  | some f, none =>
    match rank.find? (fun e => !p.uses t e) with
    | none => p
    | some y =>
      let cands := p.held.filter (fun h => h.expert == y && !p.uses h.token f)
      match cands.foldl (fun (acc : Option Held) h => match acc with
          | some g => if g.slot < h.slot then some h else acc
          | none => some h) none with
      | none => p
      | some h =>
        let p1 := { p with held := p.held.filter (· != h) }
        let p2 := p1.put c h.token f false true
        { p2 with held := p2.held ++ [⟨y, h.slot, t, true, false⟩], repaired := p.repaired + 1, moves := p.moves + 1 }

/-- The placement of live tokens with their rankings: k rounds, then the repair. -/
def place (c k : Nat) (toks : List (Nat × List Nat)) : Placing :=
  let p := (List.range k).foldl (fun p _ => toks.foldl (fun p t => p.walk c t.1 t.2) p) (⟨[], [], 0, 0⟩ : Placing)
  p.blocked.foldl (fun q t => match toks.find? (fun x => x.1 == t) with
    | some x => q.repair c t x.2
    | none => q) p

/-! ## Scores and weights (R230, R235) -/

/-- The pieces of an operand that the scores of a token take: one for each block of 32 experts, as (offset, length). -/
def scorePieces (tokens w e t : Nat) : List (Nat × Nat) :=
  (List.range (ceilDiv e 32)).map (fun b => (b * tokens * w + t * w, min 32 (e - 32 * b) * (w / 32)))

/-- The spans of pieces of an operand. -/
def Opnd.pieces (o : Opnd) (ps : List (Nat × Nat)) : List (Nat × Nat) := ps.flatMap (fun g => o.segs g.1 g.2)

/-- The scratchpad offset of the score of token t for expert e from `OPD1`; `w` bytes per row of 32. -/
def scoreOff (tokens w t e : Nat) : Nat := e / 32 * tokens * w + t * w + e % 32 * (w / 32)

/-- FP32 code of a score. -/
def scoreCode (bf : Bool) (v : Nat) : Word32 := if bf then BitVec.ofNat 32 (65536 * v) else BitVec.ofNat 32 v

/-- The gate weights of a token: (expert, weight), and the saturations of its exponentials and weights (R168, R235). -/
def gateWeights (gate : Bool) (scores : List Word32) (experts : List Nat) : List (Nat × Word32) × Nat :=
  if experts.isEmpty then ([], 0)
  else
    let need := if gate then experts else List.range scores.length
    let xs := need.map (fun e => (e, expw (scores.getD e 0)))
    let sum := xs.foldl (fun a x => w34Add a x.2.1) (0 : W34)
    let sv := ofW34 sum
    let ws := experts.map (fun e =>
      let x := ((xs.find? (fun y => y.1 == e)).map (fun y => y.2.1)).getD 0
      (e, if sv.isZero then (0, false) else divRound .fp32 (ofW34 x) sv))
    (ws.map (fun w => (w.1, BitVec.ofNat 32 w.2.1)),
     (xs.filter (fun x => x.2.2)).length + (ws.filter (fun w => w.2.2)).length)

/-- Experts in ascending order. -/
def sortNat : List Nat → List Nat
  | [] => []
  | x :: r => let l := sortNat r; (l.filter (· < x)) ++ x :: l.filter (fun y => !(y < x))

/-- A token's routing record (R237). -/
def routingRecord (k : Nat) (rank : List Nat) (held : List Held) (ws : List (Nat × Word32)) : List Byte :=
  let top := rank.take k
  let es := sortNat (held.map (·.expert))
  let ents := es.filterMap (fun e => held.find? (fun h => h.expert == e))
  let exp := (List.range 8).flatMap (fun j => leBytes 2 (match ents[j]? with
    | some h => h.expert
    | none => 0xFFFF))
  let slt := (List.range 8).flatMap (fun j => leBytes 2 (match ents[j]? with
    | some h => h.slot % 4096 + (if top.contains h.expert then 0 else 0x1000) + (if h.repaired then 0x2000 else 0) +
        (if h.moved then 0x4000 else 0)
    | none => 0))
  let wts := (List.range 8).flatMap (fun j => leBytes 4 (match ents[j]? with
    | some h => (((ws.find? (fun w => w.1 == h.expert)).map Prod.snd).getD 0).toNat
    | none => 0))
  exp ++ slt ++ wts

/-- What `XPLACE` computes: records, area, and the counts `OUTSIDE`, `UNPLACED`, saturations. -/
structure PlaceOut where
  records : List Byte
  area : List Byte
  outside : Nat
  unplaced : Nat
  sats : Nat
  deriving DecidableEq, Repr

/-- The placement of T tokens; `scores t` are the codes of a live token (R229-R237). -/
def placeAll (tokens cap e k : Nat) (gate : Bool) (live : List Nat) (scores : Nat → List Word32) : PlaceOut :=
  let toks := live.map (fun t => (t, ranking ((scores t).map ofF32)))
  let p := place cap k toks
  let per := toks.map (fun t =>
    let held := p.held.filter (fun h => h.token == t.1)
    (t.1, t.2, held, gateWeights gate (scores t.1) (sortNat (held.map (·.expert)))))
  let outside := (per.map (fun x => (x.2.2.1.filter (fun h => !(x.2.1.take k).contains h.expert)).length)).foldl (· + ·) 0
  let choices := live.length * k
  let placed := p.held.length
  let empty := routingRecord k [] [] []
  let head := [live.length, choices, placed, outside, p.repaired, p.moves, choices - placed,
    (per.filter (fun x => x.2.2.1.isEmpty)).length].flatMap (leBytes 4)
  { records := (List.range tokens).flatMap (fun t => match per.find? (fun x => x.1 == t) with
      | some x => routingRecord k x.2.1 x.2.2.1 x.2.2.2.1
      | none => empty),
    area := head ++ List.replicate 32 (0 : Byte) ++ (List.range e).flatMap (fun x => leBytes 2 (p.fill x)) ++
      List.replicate (slotTable e - 0x40 - 2 * e) (0 : Byte) ++
      (List.range e).flatMap (fun x => (List.range cap).flatMap (fun c =>
        leBytes 2 (match p.held.find? (fun h => h.expert == x && h.slot == c) with
          | some h => h.token
          | none => 0xFFFF))),
    outside := outside, unplaced := choices - placed,
    sats := (per.map (fun x => x.2.2.2.2)).foldl (· + ·) 0 }

/-- `XPLACE` (R229-R237, R244-R246) (log 219, DESIGN CHOICE). -/
def execXplace (t : Nat) (chk : Check) (s : State) : Out State :=
  onStore t chk s fun chk s =>
  onInsn t 0xA1 s fun p tl i =>
    let e := i.arg 0 8 + 1
    let k := i.arg 8 3 + 1
    let bf := i.argBit 12
    let w := if bf then 64 else 128
    let tk := tl.tokens
    let c := tl.capacity
    let o1 := tl.opnd i.opd1
    let m := tl.maskReg (i.arg 13 3)
    let live := (List.range tk).filter m.getLsbD
    let scores (x : Nat) : List Word32 := (List.range e).map (fun y => scoreCode bf (leNat (tl.sread o1 (scoreOff tk w x y) (w / 32))))
    let r := placeAll tk c e k (i.argBit 11) live scores
    let o0 := tl.opnd i.opd0
    let o2 := tl.opnd i.opd2
    let writes := o0.segs 0 r.records.length ++ o2.segs 0 r.area.length
    let pieces := live.flatMap (scorePieces tk w e)
    let x : Effect :=
      { tile := (tl.sput o0 0 r.records).sput o2 0 r.area, reads := o1.pieces pieces, writes := writes, rangeR := some (o1.range pieces),
        extra := Tab.get false tl.maskMarks (i.arg 13 3), sats := r.sats,
        occ := tk * ceilDiv e 64 + 8 * k * ceilDiv tk 16 + ceilDiv (e * c) 128 + 32, lat := 16 }
    let s' := s.runEffect t p tl i chk x
    if !chk.failed && x.clear tl then
      (s'.bump Fld.tileXstatOutside t r.outside).bump Fld.tileXstatUnplaced t r.unplaced
    else s'

/-- Uses suppressed under R84 when an instruction ran (R240). -/
def State.suppressed (s : State) (tl : Tile) (n : Nat) : State :=
  match tl.part with
  | some q => if n = 0 then s else
      (s.bump Fld.boardFaultRunbound q.tenant n).modItem q.item (fun y => { (y.addStatus stRejected) with cause := causeRuntimeBound })
  | none => s

/-- `XGATHER` (R238, R240) (log 219, DESIGN CHOICE). -/
def execXgather (t : Nat) (chk : Check) (s : State) : Out State :=
  onStore t chk s fun chk s =>
  onInsn t 0xA2 s fun p tl i =>
    let e := i.arg 0 8 + 1
    let rb := i.arg 8 12 + 1
    let n := e * tl.capacity
    let o0 := tl.opnd i.opd0
    let o1 := tl.opnd i.opd1
    let o2 := tl.opnd i.opd2
    let slot (k : Nat) : Nat := leNat (tl.sread o2 (slotTable e + 2 * k) 2)
    let good (k : Nat) : Bool := slot k == 0xFFFF || slot k < tl.tokens
    let ks := List.range n
    let tile := (ks.filter good).foldl (fun t' k =>
      t'.sput o0 (k * rb) (if slot k = 0xFFFF then List.replicate rb 0 else tl.sread o1 (slot k * rb) rb)) tl
    let from_ := (ks.filter (fun k => slot k < tl.tokens)).map (fun k => (slot k * rb, rb))
    let into := (ks.filter good).map (fun k => (k * rb, rb))
    let x : Effect :=
      { tile := tile, reads := o2.segs (slotTable e) (2 * n) ++ o1.pieces from_, writes := o0.pieces into,
        rangeR := some (o2.segs (slotTable e) (2 * n) ++ o1.range from_), rangeW := some (o0.range into),
        occ := n * ceilDiv rb 256 + ceilDiv (n * rb) 256, lat := 4 }
    let s' := s.runEffect t p tl i chk x
    if !chk.failed && x.clear tl then s'.suppressed tl (ks.filter (fun k => !good k)).length else s'

/-- The entries of a routing record up to the first empty one: (expert, slot, weight), each with whether its use is good (R240) (log 45, DEDUCED). -/
def recordEntries (e c : Nat) (rec_ : List Byte) : Nat → Nat → Int → List (Bool × Nat × Nat × Word32)
  | 0, _, _ => []
  | f + 1, j, prev =>
    let x := leAt rec_ (2 * j) 2
    if x = 0xFFFF then []
    else
      let slot := leAt rec_ (0x10 + 2 * j) 2 % 4096
      (decide (x < e) && decide (slot < c) && decide (prev < (x : Int)), x, slot, BitVec.ofNat 32 (leAt rec_ (0x20 + 4 * j) 4)) ::
        recordEntries e c rec_ f (j + 1) x

/-- One token of `XCOMBINE`: the sum of its entries over a column, from a start value. -/
def combineCol (start : W34) (terms : List (Word32 × Val)) : W34 :=
  terms.foldl (fun acc x => w34Add acc (toW34 (Val.mul (ofF32 x.1) x.2))) start

/-- `XCOMBINE` (R239, R240) (log 219, DESIGN CHOICE). -/
def execXcombine (t : Nat) (chk : Check) (s : State) : Out State :=
  onStore t chk s fun chk s =>
  onInsn t 0xA3 s fun p tl i =>
    let e := i.arg 0 8 + 1
    let yf := if i.argBit 8 then 5 else 6
    let w := fmtBytes yf
    let acc := i.argBit 9
    let o0 := tl.opnd i.opd0
    let o1 := tl.opnd i.opd1
    let o2 := tl.opnd i.opd2
    let c := tl.capacity
    let toks := List.range tl.tokens
    let ents (x : Nat) : List (Bool × Nat × Nat × Word32) := recordEntries e c (tl.sread o2 (64 * x) 64) 8 0 (-1)
    let good (x : Nat) : List (Nat × Word32) := ((ents x).filter (fun y => y.1)).map (fun y => (y.2.1 * c + y.2.2.1, y.2.2.2))
    let yrow (k : Nat) : List Val := (rowCodes (tl.sread o1 (k * w) w) yf).map (Fmt.ofCode yf).decode
    let outRow (x : Nat) : List (Word32 × Bool) :=
      let rows := (good x).map (fun g => (g.2, yrow g.1))
      (List.range 32).map (fun n =>
        let start : W34 := if acc then toW34 (ofF32 (BitVec.ofNat 32 (leNat (tl.sread o0 (128 * x + 4 * n) 4)))) else 0
        f32Sat (ofW34 (combineCol start (rows.map (fun r => (r.1, r.2.getD n .zero))))))
    let written := toks.filter (fun x => !acc || !(good x).isEmpty)
    let res := written.map (fun x => (x, outRow x))
    let tile := res.foldl (fun t' r => t'.sput o0 (128 * r.1) (r.2.flatMap (fun v => leBytes 4 v.1.toNat))) tl
    let yp := toks.flatMap (fun x => (good x).map (fun g => (g.1 * w, w)))
    let op := written.map (fun x => (128 * x, 128))
    let ap := if acc then op else []
    let x : Effect :=
      { tile := tile, reads := o2.segs 0 (64 * tl.tokens) ++ o1.pieces yp ++ o0.pieces ap, writes := o0.pieces op,
        rangeR := some (o2.segs 0 (64 * tl.tokens) ++ o1.range yp ++ o0.range ap), rangeW := some (o0.range op),
        sats := (res.map (fun r => (r.2.filter Prod.snd).length)).foldl (· + ·) 0, occ := ceilDiv (tl.tokens * 9) 2, lat := 8 }
    let s' := s.runEffect t p tl i chk x
    if !chk.failed && x.clear tl then
      s'.suppressed tl ((toks.map (fun x => ((ents x).filter (fun y => !y.1)).length)).foldl (· + ·) 0)
    else s'

/-! ## TLOOK (R284, R285) -/

/-- `TLOOK`: the values of the table store under packed indices. -/
def execTlook (t : Nat) (chk : Check) (s : State) : Out State :=
  onStore t chk s fun chk s =>
  pathInsn t 0xC0 chk s fun tl i =>
    let n := s.vcount tl i
    if n = 0 then tl.idle else
    let r := i.arg 21 4
    let bits := 4 + 2 * i.arg 25 2
    let o1 := tl.opnd i.opd1
    let o2 := tl.opnd i.opd2
    let nb := ceilDiv (n * bits) 8
    let idx := leNat (tl.sread o1 0 nb)
    let sc := i.argBit 27
    let scales := if sc then (tl.sread o2 0 (ceilDiv n 32)).map BitVec.toNat else []
    let rs := (List.range n).map (fun k =>
      let w := Tab.get 0 tl.tableStore (256 * r + bitsOf idx (bits * k) bits)
      if sc then f32Sat (scaled (ofF32 w) (scales.getD (k / 32) 127)) else (quiet w, false))
    let reads := o1.segs 0 nb ++ (if sc then o2.segs 0 (ceilDiv n 32) else [])
    let e := tl.laneEffect i (tl.actives i n) rs [] [] 4
    { e with reads := reads, extra := e.extra || Tab.get false tl.tableMarks r, occ := moveSteps n reads }

end Sys2Proof.Machine
end

