-- ==== Sys2Proof/Machine/Debug.lean ====
section
/-! DEFINITION. Loupe's debug grants (R454, R459, R460): halt, single step and resume, and the debug data registers. -/

namespace Sys2Proof.Machine

/-! ## Levels and power states -/

/-- An access goes through one of the debug opcodes of the TAP (R470; log 32, DEDUCED). -/
def State.debugTap (s : State) : State :=
  { s with draws := s.draws + 1, pins := { s.pins with ir := BitVec.ofNat 8 (0x40 + Config.debugOpcode s.draws % 64) } }

/-- The access is refused. -/
def State.refuseLoupe (s : State) : State := { s with outs := { s.outs with loupeRefused := true } }

/-- The access is served. -/
def State.serveLoupe (s : State) : State := { s with outs := { s.outs with loupeRefused := false } }

/-- A read is served with its data. -/
def State.giveLoupe (s : State) (v : Word64) : State := { s with outs := { s.outs with loupe := v, loupeRefused := false } }

/-- What an access needs (R459): nothing but the L-die, the C-die, or a step or a memory access. -/
inductive DebugNeed where
  | ldie
  | cdie
  | step
  deriving DecidableEq, Repr

/-- The access wakes the device first. -/
def DebugNeed.wakes : DebugNeed → Nat → Bool
  | .ldie, _ => false
  | .cdie, st => st == 2
  | .step, st => st == 1 || st == 2

/-- A grant of level `l` for the command `c` (R454, R459): refused below it and, in P3, unless `inP3`; an access that needs the wake of R425 waits for it and is served
then (log 160, DEDUCED). -/
def grant (c : Instr) (l : Nat) (need : DebugNeed) (inP3 : Bool) (s : State) (k : State → State) : Out State :=
  if !s.awake then .next s
  else
    let st := s.fld Fld.pwrStatState 0
    let s := s.debugTap
    .next (if s.level < l || (st == 3 && !inP3) then s.refuseLoupe else if need.wakes st then s.await c else k s)

/-! ## Halt, single step, resume -/

/-- The physical tile that serves a logical tile, changed. -/
def State.onServing (s : State) (t : Nat) (f : Tile → Tile) : State :=
  match s.physOf t with
  | some p => s.setTile p (f (s.tile p))
  | none => s

/-- The MGC held or released by the probe. -/
def State.holdMgc (s : State) (b : Bool) : State := { s with sec := { s.sec with mgcHalted := b } }

/-- A target held or released by the command `c`. In P3 only a halt of the MGC is served. -/
def holdTarget (c : Instr) (x : HaltTarget) (b : Bool) (s : State) : Out State :=
  match x with
  | .tile t => grant c 2 .cdie false s (fun s => (s.onServing t (fun tl => { tl with halted := b })).serveLoupe)
  | .mgc => grant c 2 .ldie b s (fun s => (s.holdMgc b).serveLoupe)

/-- `DEBUG_HALT` (R454, R459). -/
def execDebugHalt (x : HaltTarget) (s : State) : Out State := onUnit x.wf "tile" <| holdTarget (.debugHalt x) x true s

/-- `DEBUG_RESUME` (R454, R459). -/
def execDebugResume (x : HaltTarget) (s : State) : Out State := onUnit x.wf "tile" <| holdTarget (.debugResume x) x false s

/-- The command that issues an instruction, by its opcode (R94). -/
def issueOf (opc t : Nat) : List (Nat × (State → Out State)) → Option (State → Out State)
  | [] => none
  | (o, k) :: r => if o = opc then some k else issueOf opc t r

/-- The instructions of the tile's sequencer and of the facet array. -/
def coreIssues (t : Nat) : List (Nat × (State → Out State)) :=
  [(opNop, execNop t), (opEnd, execEndStream t), (opLoop, execLoop t), (opFence, execFence t), (opLdb, execLdb t .pass), (opMma, execMma t),
   (opDrain, execDrain t), (opSwap, execSwap t), (opRed, execRed t), (opScfg, execScfg t), (opSsig, execSsig t), (opBcfg, execBcfg t),
   (opBwaitd, execBwaitd t), (opBwaits, execBwaits t), (opBpush, execBpush t), (opBpop, execBpop t), (opRsend, execRsend t), (opRland, execRland t)]

/-- The vector and special-function instructions. -/
def vectorIssues (t : Nat) : List (Nat × (State → Out State)) :=
  [(0x40, execVld t .pass), (0x41, execVst t .pass), (0x42, execVmov t .pass), (0x43, execVmld t .pass), (0x44, execVmst t .pass),
   (0x45, execViota t .pass), (0x48, execVadd t .pass), (0x49, execVsub t .pass), (0x4A, execVmul t .pass), (0x4B, execVfma t .pass),
   (0x4C, execVmax t .pass), (0x4D, execVmin t .pass), (0x4E, execVneg t .pass), (0x4F, execVabs t .pass), (0x50, execVcmp t .pass),
   (0x51, execVsel t .pass), (0x58, execVsf t .pass), (0x60, execVrstat t .pass), (0x61, execVrmsn t .pass), (0x68, execVsmx t .pass),
   (0x70, execVupd t .pass)]

/-- The attention, expert and table instructions. -/
def unitIssues (t : Nat) : List (Nat × (State → Out State)) :=
  [(0x90, execLkload t .pass), (0x91, execLkput t .pass), (0x92, execLkrd t .pass), (0x93, execLkfl t .pass), (0x94, execRopet t .pass),
   (0x95, execRope t .pass), (0x96, execAmask t .pass), (0x97, execApsmx t .pass), (0x98, execAmerge t .pass), (0xA0, execXcfg t),
   (0xA1, execXplace t .pass), (0xA2, execXgather t .pass), (0xA3, execXcombine t .pass), (0xC0, execTlook t .pass)]

/-- The next instruction of a tile issues, if it may. -/
def State.issueNext (s : State) (t : Nat) : State :=
  match (s.tileAt t).next with
  | none => s
  | some i => match issueOf i.opc.toNat t (coreIssues t ++ vectorIssues t ++ unitIssues t) with
    | some k => s.via (k s)
    | none => s

/-- A single step of a halted tile: it is let go for the issue of its next instruction, and is halted again (log 33, DESIGN CHOICE). -/
def State.singleStep (s : State) (t : Nat) : State :=
  if (s.tileAt t).halted then
    ((s.onServing t (fun tl => { tl with halted := false })).issueNext t).onServing t (fun tl => { tl with halted := true })
  else s

/-- A single step of a target. -/
def debugStep (x : HaltTarget) (s : State) : Out State :=
  match x with
  | .tile t => grant (.debugSingleStep x) 2 .step false s (fun s => (s.singleStep t).serveLoupe)
  | .mgc => grant (.debugSingleStep x) 2 .ldie false s (fun s => s.serveLoupe)

/-- `DEBUG_SINGLE_STEP` (R454, R459). The firmware of the MGC is not modelled, so its step changes nothing here (log 33, DESIGN CHOICE). -/
def execDebugSingleStep (x : HaltTarget) (s : State) : Out State := onUnit x.wf "tile" <| s.accepting <| debugStep x s

/-! ## The debug data registers (R454) -/

/-- Field k of a bangle: 0 `BASE`, 1 `SIZE`, 2 producer, 3 consumer, 4 head, 5 tail, 6 fill. -/
def Bangle.field (g : Bangle) : Nat → Nat
  | 0 => g.base
  | 1 => g.size
  | 2 => g.prod
  | 3 => g.cons
  | 4 => g.head
  | 5 => g.tail
  | 6 => g.fill
  | _ => 0

/-- Field k of a bangle written. -/
def Bangle.setField (g : Bangle) (k v : Nat) : Bangle :=
  match k with
  | 0 => { g with base := v }
  | 1 => { g with size := v }
  | 2 => { g with prod := v }
  | 3 => { g with cons := v }
  | 4 => { g with head := v }
  | 5 => { g with tail := v }
  | 6 => { g with fill := v }
  | _ => g

/-- Field k of an active loop: 0 level, 1 start, 2 body, 3 trip count, 4 iteration. -/
def LoopFrame.field (f : LoopFrame) : Nat → Nat
  | 0 => f.level
  | 1 => f.start
  | 2 => f.body
  | 3 => f.trip
  | 4 => f.iter
  | _ => 0

/-- Field k of an active loop written. -/
def LoopFrame.setField (f : LoopFrame) (k v : Nat) : LoopFrame :=
  match k with
  | 0 => { f with level := v }
  | 1 => { f with start := v }
  | 2 => { f with body := v }
  | 3 => { f with trip := v }
  | 4 => { f with iter := v }
  | _ => f

/-- Field k of a DMA engine: 0 started, 1 its wait is satisfied, 2 the next transfer, 3 the data of the transfer under way is marked, 4 the entries left, 5 the rows that
the transfer under way has still to move. -/
def Dma.field (d : Dma) : Nat → Nat
  | 0 => d.started.toNat
  | 1 => d.released.toNat
  | 2 => d.transfer
  | 3 => ((d.moving.map (·.mark)).getD false).toNat
  | 4 => d.entries.length
  | 5 => ((d.moving.map (fun m => m.rows.length)).getD 0)
  | _ => 0

/-- Field k of a DMA engine written: to field 4 or 5 a smaller number drops what comes first. -/
def Dma.setField (d : Dma) (k v : Nat) : Dma :=
  match k with
  | 0 => { d with started := v != 0 }
  | 1 => { d with released := v != 0 }
  | 2 => { d with transfer := v }
  | 3 => { d with moving := d.moving.map (fun m => { m with mark := v != 0 }) }
  | 4 => { d with entries := d.entries.drop (d.entries.length - v) }
  | 5 => { d with moving := d.moving.map (fun m => { m with rows := m.rows.drop (m.rows.length - v) }) }
  | _ => d

/-- A list of small numbers as a mask. -/
def numMask (l : List Nat) : Nat := (l.eraseDups.map (fun n => 2 ^ n)).foldl (· + ·) 0

/-- The numbers below 16 of a mask, ascending. -/
def maskNums (v : Nat) : List Nat := (List.range 16).filter (bitOf v)

/-- Field k of an operation in flight: 0 its number, 1-3 the effective addresses, 4 the element count, 5 the ordinal, 6 the next row group, 7 one more than the source being
added, 8 and 9 the sources added and ready as masks, 10 `SWAP` has taken place, 11 done, 12 marked, 13 and 14 the steps it takes, 15 its opcode. -/
def Op.field (x : Op) : Nat → Nat
  | 0 => x.id
  | 1 => x.ea0
  | 2 => x.ea1
  | 3 => x.ea2
  | 4 => x.count
  | 5 => x.ordinal
  | 6 => x.group
  | 7 => (x.source.map (· + 1)).getD 0
  | 8 => numMask x.added
  | 9 => numMask x.ready
  | 10 => x.swapped.toNat
  | 11 => x.done.toNat
  | 12 => x.marked.toNat
  | 13 => x.occupancy
  | 14 => x.latency
  | 15 => x.insn.opc.toNat
  | _ => 0

/-- Field k of an operation in flight written. -/
def Op.setField (x : Op) (k v : Nat) : Op :=
  match k with
  | 0 => { x with id := v }
  | 1 => { x with ea0 := v }
  | 2 => { x with ea1 := v }
  | 3 => { x with ea2 := v }
  | 4 => { x with count := v }
  | 5 => { x with ordinal := v }
  | 6 => { x with group := v }
  | 7 => { x with source := if v = 0 then none else some (v - 1) }
  | 8 => { x with added := maskNums v }
  | 9 => { x with ready := maskNums v }
  | 10 => { x with swapped := v != 0 }
  | 11 => { x with done := v != 0 }
  | 12 => { x with marked := v != 0 }
  | 13 => { x with occupancy := v }
  | 14 => { x with latency := v }
  | 15 => { x with insn := { x.insn with opc := BitVec.ofNat 8 v } }
  | _ => x

/-- Field k of a locket slot: 0 bound, 1-5 the cache reference (`PTW`, `LENW`, region, row, `IDW`), 6 the first token, 7 the fill, 8 the first column to flush, 9 a flush is
pending, 10 appends are dropped. -/
def Slot.field (x : Slot) : Nat → Nat
  | 0 => x.bound.isSome.toNat
  | 1 => ((x.bound.map (·.ptw)).getD 0)
  | 2 => ((x.bound.map (·.lenw)).getD 0)
  | 3 => ((x.bound.map (·.region)).getD 0)
  | 4 => ((x.bound.map (·.row)).getD 0)
  | 5 => ((x.bound.map (·.idw)).getD 0)
  | 6 => x.lbase
  | 7 => x.fill
  | 8 => x.from_
  | 9 => x.pendingFlush.toNat
  | 10 => x.dead.toNat
  | _ => 0

/-- Field k of a locket slot written; binding a slot that is not bound gives it a reference of zeros. -/
def Slot.setField (x : Slot) (k v : Nat) : Slot :=
  match k with
  | 0 => { x with bound := if v = 0 then none else some (x.bound.getD ⟨0, 0, 0, 0, 0⟩) }
  | 1 => { x with bound := x.bound.map (fun c => { c with ptw := v }) }
  | 2 => { x with bound := x.bound.map (fun c => { c with lenw := v }) }
  | 3 => { x with bound := x.bound.map (fun c => { c with region := v }) }
  | 4 => { x with bound := x.bound.map (fun c => { c with row := v }) }
  | 5 => { x with bound := x.bound.map (fun c => { c with idw := v }) }
  | 6 => { x with lbase := v }
  | 7 => { x with fill := v }
  | 8 => { x with from_ := v }
  | 9 => { x with pendingFlush := v != 0 }
  | 10 => { x with dead := v != 0 }
  | _ => x

/-- A word of a tile's state: which store (0 vector buffers by 8 bytes, 1 accumulators, 2 mask registers by 64 bits, 3 table store, 4 sync counts, 5 sync
thresholds, 6 and 7 codes and 8 and 9 scales of the active and the shadow bank, 10 angle table, 11 and 12 bytes of the locket slots, 13 the position
of the sequencer, 14 the configured bangles by 8 bangle + field, 15 the active loops, innermost first, by 8 loop + field, 16 the placement shape T and C, 17
whether the next instruction's wait is satisfied, whether issue is held, whether `END` has issued, 18 the DMA engines by 8 engine + field, 19 the operations in flight,
oldest first, by 16 operation + field, 20 the locket slots by 16 slot + field, 21 the formats of the active and the shadow bank, 22 the rows that are not fresh) and the
number within it; 23-30 the poison marks: of scratchpad units, of vector-buffer units, of mask registers, of row groups by 256 accumulator + group, of table-store entries, of
the units of the two locket slots, and of the active bank, the shadow bank and the angle table (log 34, DESIGN CHOICE). Another number reads zero. -/
def Tile.debugWord (t : Tile) (which k : Nat) : Word64 :=
  let num (n : Nat) : Word64 := BitVec.ofNat 64 n
  match which with
  | 0 => num (Mem.readNat t.vbuf (8 * (k % 16384)) 8)
  | 1 => (Tab.get 0 t.acc k).setWidth 64
  | 2 => ((Tab.get (BitVec.allOnes 8192) t.masks (k / 128)) >>> (64 * (k % 128))).setWidth 64
  | 3 => (Tab.get 0 t.tableStore k).setWidth 64
  | 4 => num (Tab.get 0 t.syncCount k)
  | 5 => num (Tab.get 1 t.syncThresh k)
  | 6 => num (Tab.get 0 t.active.elems k)
  | 7 => num (Tab.get 0 t.shadow.elems k)
  | 8 => num (Tab.get 0x7F t.active.scales k)
  | 9 => num (Tab.get 0x7F t.shadow.scales k)
  | 10 => (Tab.get 0 t.angle k).setWidth 64
  | 11 => (Mem.read (Tab.get Slot.empty t.locket 0).image k).setWidth 64
  | 12 => (Mem.read (Tab.get Slot.empty t.locket 1).image k).setWidth 64
  | 13 => num t.pos
  | 14 => num (((Tab.get none t.bangles (k / 8)).map (fun g => g.field (k % 8))).getD 0)
  | 15 => num (((t.loops[k / 8]?).map (fun f => f.field (k % 8))).getD 0)
  | 16 => num ((t.shape.map (fun x => if k = 0 then x.1 else x.2)).getD 0)
  | 17 => num (if k = 0 then t.released else if k = 1 then t.held else t.ended).toNat
  | 18 => num ((Tab.get Dma.idle t.dma (k / 8)).field (k % 8))
  | 19 => num (((t.ops[k / 16]?).map (fun x => x.field (k % 16))).getD 0)
  | 20 => num ((Tab.get Slot.empty t.locket (k / 16)).field (k % 16))
  | 21 => num (if k = 0 then t.active.fmt else t.shadow.fmt)
  | 22 => num (Tab.get false t.live k).toNat
  | 23 => num (Tab.get false t.spadMarks k).toNat
  | 24 => num (Tab.get false t.vbufMarks k).toNat
  | 25 => num (Tab.get false t.maskMarks k).toNat
  | 26 => num (Tab.get false t.accMarks k).toNat
  | 27 => num (Tab.get false t.tableMarks k).toNat
  | 28 => num (Tab.get false (Tab.get Slot.empty t.locket 0).marks k).toNat
  | 29 => num (Tab.get false (Tab.get Slot.empty t.locket 1).marks k).toNat
  | 30 => num (if k = 0 then t.active.mark else if k = 1 then t.shadow.mark else t.angleMark).toNat
  | _ => 0

/-- A locket slot changed. -/
def Tile.modSlot (t : Tile) (n : Nat) (f : Slot → Slot) : Tile := { t with locket := Tab.modify Slot.empty t.locket n f }

/-- A mask register's 64 bits written. -/
def Tile.pokeMask (t : Tile) (m k : Nat) (v : Word64) : Tile :=
  let old := Tab.get (BitVec.allOnes 8192) t.masks m
  let hole := (BitVec.allOnes 64).setWidth 8192 <<< (64 * k)
  { t with masks := Tab.set (BitVec.allOnes 8192) t.masks m ((old &&& ~~~hole) ||| (v.setWidth 8192 <<< (64 * k))) }

/-- A word of a tile's state written, numbered as in `Tile.debugWord`; numbers outside a store write nothing. -/
def Tile.debugPoke (t : Tile) (which k : Nat) (v : Word64) : Tile :=
  match which with
  | 0 => if k < 16384 then { t with vbuf := Mem.writeNat t.vbuf (8 * k) 8 v.toNat } else t
  | 1 => if k < 262144 then { t with acc := Tab.set 0 t.acc k (v.setWidth 34) } else t
  | 2 => if k < 1024 then t.pokeMask (k / 128) (k % 128) v else t
  | 3 => if k < 4096 then { t with tableStore := Tab.set 0 t.tableStore k (v.setWidth 32) } else t
  | 4 => if k < 128 then { t with syncCount := Tab.set 0 t.syncCount k (v.toNat % 2 ^ 32) } else t
  | 5 => if k < 128 then { t with syncThresh := Tab.set 1 t.syncThresh k (v.toNat % 65536) } else t
  | 6 => if k < 1024 then { t with active := { t.active with elems := Tab.set 0 t.active.elems k (v.toNat % 65536) } } else t
  | 7 => if k < 1024 then { t with shadow := { t.shadow with elems := Tab.set 0 t.shadow.elems k (v.toNat % 65536) } } else t
  | 8 => if k < 32 then { t with active := { t.active with scales := Tab.set 0x7F t.active.scales k (v.toNat % 256) } } else t
  | 9 => if k < 32 then { t with shadow := { t.shadow with scales := Tab.set 0x7F t.shadow.scales k (v.toNat % 256) } } else t
  | 10 => if k < 128 then { t with angle := Tab.set 0 t.angle k (v.setWidth 48) } else t
  | 11 => t.modSlot 0 (fun x => { x with image := Mem.write x.image k (v.setWidth 8) })
  | 12 => t.modSlot 1 (fun x => { x with image := Mem.write x.image k (v.setWidth 8) })
  | 13 => { t with pos := v.toNat }
  | 14 => { t with bangles := Tab.set none t.bangles (k / 8) ((Tab.get none t.bangles (k / 8)).map (fun g => g.setField (k % 8) v.toNat)) }
  | 15 => { t with loops := t.loops.modify (k / 8) (fun f => f.setField (k % 8) v.toNat) }
  | 16 => { t with shape := t.shape.map (fun x => if k = 0 then (v.toNat, x.2) else (x.1, v.toNat)) }
  | 17 => if k = 0 then { t with released := v != 0 } else if k = 1 then { t with held := v != 0 } else { t with ended := v != 0 }
  | 18 => if k < 32 then { t with dma := Tab.modify Dma.idle t.dma (k / 8) (fun d => d.setField (k % 8) v.toNat) } else t
  | 19 => { t with ops := t.ops.modify (k / 16) (fun x => x.setField (k % 16) v.toNat) }
  | 20 => if k < 32 then t.modSlot (k / 16) (fun x => x.setField (k % 16) v.toNat) else t
  | 21 => if k = 0 then { t with active := { t.active with fmt := v.toNat } } else { t with shadow := { t.shadow with fmt := v.toNat } }
  | 22 => if k < 16384 then { t with live := Tab.set false t.live k (v != 0) } else t
  | 23 => if k < 131072 then { t with spadMarks := Tab.set false t.spadMarks k (v != 0) } else t
  | 24 => if k < 4096 then { t with vbufMarks := Tab.set false t.vbufMarks k (v != 0) } else t
  | 25 => if k < 8 then { t with maskMarks := Tab.set false t.maskMarks k (v != 0) } else t
  | 26 => if k < 2048 then { t with accMarks := Tab.set false t.accMarks k (v != 0) } else t
  | 27 => if k < 4096 then { t with tableMarks := Tab.set false t.tableMarks k (v != 0) } else t
  | 28 => t.modSlot 0 (fun x => { x with marks := Tab.set false x.marks k (v != 0) })
  | 29 => t.modSlot 1 (fun x => { x with marks := Tab.set false x.marks k (v != 0) })
  | 30 => if k = 0 then { t with active := { t.active with mark := v != 0 } } else if k = 1 then { t with shadow := { t.shadow with mark := v != 0 } }
    else { t with angleMark := v != 0 }
  | _ => t

/-- The content of a trace, a scratch SRAM word or a chain that the spec does not give (log 11, DEDUCED). -/
def State.giveFree (s : State) (unit : Nat) : State := ({ s with draws := s.draws + 1 }).giveLoupe (Config.debugData unit s.draws)

/-- A write that Loupe makes to a register: discarded with a count where R450, R309 or R492 says so, and refused otherwise (log 90, DEDUCED). -/
def State.loupeWrites (s : State) (o size : Nat) : State :=
  if aligned48 o size && s.writeDiscarded .loupe o size then (s.boundDiscard .loupe o).refuseLoupe else s.refuseLoupe

/-- One byte of device memory. -/
def State.loupeMem (s : State) (a : Nat) : State :=
  let r := s.takeFor baseContext a 1
  r.2.2.giveLoupe ((r.1.getD 0 0).setWidth 64)

/-- A register whose offset lies in the tile blocks is on the C-die (log 161, DEDUCED). -/
def regNeed (o : Nat) : DebugNeed := if 0x400000 ≤ o && o < 0x500000 then .cdie else .ldie

/-- An access to the debug data registers. The scan segment of Signet reads as zeros. -/
def loupeAccess (acc : LoupeAccess) (s : State) : Out State :=
  let c : Instr := .loupeDebugAccess acc
  match acc with
  | .readSecStat => grant c 0 .ldie true s (fun s => s.giveLoupe (BitVec.ofNat 64 (s.readReg .secStat 0)))
  | .readChallenge w => grant c 0 .ldie true s (fun s => s.giveLoupe (BitVec.ofNat 64 (s.fld Fld.dbgChallengeValue 0 / 2 ^ (64 * w))))
  | .readRegister fn o size =>
    let need := if fn = 0 then regNeed o else .ldie
    grant c 1 need (need == .ldie) s (fun s => s.giveLoupe (BitVec.ofNat 64 (s.readThrough (if fn = 0 then s.locate else locateVf fn) o size)))
  | .writeRegister o size _ => grant c 0 .ldie true s (fun s => s.loupeWrites o size)
  | .readTrace t => grant c 1 .cdie false s (fun s => s.giveFree t)
  | .readSpad t a => grant c 2 .cdie false s (fun s => s.giveLoupe (if a < 4194304 then (Mem.read (s.tileAt t).spad a).setWidth 64 else 0))
  | .writeSpad t a v =>
    grant c 2 .cdie false s (fun s => (if a < 4194304 then s.onServing t (fun tl => tl.writeRow (a / 256) [(a % 256, v)]) else s).serveLoupe)
  | .readMem a => grant c 2 .step false s (fun s => s.loupeMem a)
  | .writeMem a v => grant c 2 .step false s (fun s => (s.storeFor baseContext a [v]).serveLoupe)
  | .readTileState t w k => grant c 2 .cdie false s (fun s => s.giveLoupe ((s.tileAt t).debugWord w k))
  | .writeTileState t w k v => grant c 2 .cdie false s (fun s => (s.onServing t (fun tl => tl.debugPoke w k v)).serveLoupe)
  | .readSram a => grant c 2 .ldie false s (fun s => s.giveLoupe ((Mem.read s.sec.sram a).setWidth 64))
  | .writeSram a v =>
    grant c 2 .ldie false s (fun s => { s with sec := { s.sec with sram := Mem.write s.sec.sram a v } }.serveLoupe)
  | .scan chain =>
    if chain = 2 then grant c 3 .ldie true s (fun s => s.giveLoupe 0)
    else grant c 3 (if chain = 1 then .ldie else .cdie) (chain == 1) s (fun s => s.giveFree (1000 + chain))

/-- `LOUPE_DEBUG_ACCESS` (R451, R454, R459, R460). -/
def execLoupeDebugAccess (acc : LoupeAccess) (s : State) : Out State := onUnit acc.wf "tile" <| s.accepting <| loupeAccess acc s

end Sys2Proof.Machine
end

