-- ==== Sys2Proof/Machine/Wake.lean ====
section
/-! DEFINITION. The end of a wake from P1 and P2 (R425): the accesses that waited are served in their order. -/

namespace Sys2Proof.Machine

/-- An access that waited is served. -/
def State.serve (s : State) (c : Instr) : State :=
  s.via (match c with
  | .sqTailWrite fn ring value => execSqTailWrite fn ring value s
  | .cqHeadWrite fn ring value => execCqHeadWrite fn ring value s
  | .ringEnable fn ring => execRingEnable fn ring s
  | .ringDisable fn ring => execRingDisable fn ring s
  | .fnQuotaWrite a ctx value => execFnQuotaWrite a ctx value s
  | .setupLock a => execSetupLock a s
  | .registerWrite a offset size value => execRegisterWrite a offset size value s
  | .pwrCtlOff a => execPwrCtlOff a s
  | .auditSnap a => execAuditSnap a s
  | .tenantFence a ctx => execTenantFence a ctx s
  | .tenantUnfence a ctx => execTenantUnfence a ctx s
  | .grantCommit a ctx => execGrantCommit a ctx s
  | .hwinSetLock a w value => execHwinSetLock a w value s
  | .cxlMemRead offset len => .next (if s.inWindow offset len then s.cxlRead offset len else s)
  | .cxlMemWrite offset bytes poison => .next (if s.inWindow offset bytes.length then s.cxlWrite offset bytes poison else s)
  | .flrVf n => execFlrVf n s
  | .flrPf => execFlrPf s
  | .cxlReset => execCxlReset s
  | .cxlResetMemClear => execCxlResetMemClear s
  | .linkMaskWrite a value => execLinkMaskWrite a value s
  | .linkRtWrite a chip value => execLinkRtWrite a chip value s
  | .linkPortWrite a port value => execLinkPortWrite a port value s
  | .linkTopoWrite a value => execLinkTopoWrite a value s
  | .debugLevelRaise level => execDebugLevelRaise level s
  | .loupeDebugAccess acc => loupeAccess acc s
  | .debugSingleStep x => debugStep x s
  | .debugHalt x => execDebugHalt x s
  | .debugResume x => execDebugResume x s
  | _ => .next s)

/-- An access that waited is served; one whose requests to device memory cannot all be served yet goes on waiting (R254, R262, R415). -/
def State.serveWaiting (s : State) (c : Instr) : State :=
  let v := s.serve c
  if s.waitingRequests < v.waitingRequests then { s with waiting := s.waiting ++ [c] } else v

/-- `WAKE_COMPLETE` (R425, events 2 and 3): the device is in P0, and what waited proceeds. What could not be served then is served by a further command
(log 204, DESIGN CHOICE). -/
def execWakeComplete (s : State) : Out State :=
  let again (s : State) : State := s.waiting.foldl State.serveWaiting { s with waiting := [] }
  if s.flag Fld.pwrStatWaking 0 then
    let v : State := { s with power := { s.power with idleFrom := none, p1From := none } }
    .next (again (((v.setFlag Fld.pwrStatWaking 0 false).setFld Fld.pwrStatState 0 0).applyPoints))
  else whenever s.inP0 s (again s)

end Sys2Proof.Machine
end

