-- ==== Sys2Proof/Machine/Dispatch.lean ====
section
/-! DEFINITION. One arm per command: the meaning of each, or its refusal by name. -/

namespace Sys2Proof.Machine

/-- The effect of a command on everything but the queue. -/
def exec (i : Instr) (s : State) : Host.Outcome State Fault Refusal :=
  match i with
  | .tallyTick => Sys2Proof.Machine.execTallyTick s
  | .coreRateUpdate region steps => Sys2Proof.Machine.execCoreRateUpdate region steps s
  | .stallWatchdogExpiry t => Sys2Proof.Machine.execStallWatchdogExpiry t s
  | .timingFrameSend => Sys2Proof.Machine.execTimingFrameSend s
  | .timingFrameReceive offset errNs => Sys2Proof.Machine.execTimingFrameReceive offset errNs s
  | .launchBegin item => Sys2Proof.Machine.execLaunchBegin item s
  | .tileModeChange => Sys2Proof.Machine.execTileModeChange s
  | .launch fn ring => Sys2Proof.Machine.execLaunch fn ring s
  | .launchCheck item => Sys2Proof.Machine.execLaunchCheck item s
  | .launchArm item => Sys2Proof.Machine.execLaunchArm item s
  | .load fn ring => Sys2Proof.Machine.execLoad fn ring s
  | .retire fn ring => Sys2Proof.Machine.execRetire fn ring s
  | .nop t => Sys2Proof.Machine.execNop t s
  | .endStream t => Sys2Proof.Machine.execEndStream t s
  | .loop t => Sys2Proof.Machine.execLoop t s
  | .fence t => Sys2Proof.Machine.execFence t s
  | .ldb t chk => Sys2Proof.Machine.execLdb t chk s
  | .mma t => Sys2Proof.Machine.execMma t s
  | .drain t => Sys2Proof.Machine.execDrain t s
  | .swap t => Sys2Proof.Machine.execSwap t s
  | .swapExchange t => Sys2Proof.Machine.execSwapExchange t s
  | .red t => Sys2Proof.Machine.execRed t s
  | .redSourceAdd t src => Sys2Proof.Machine.execRedSourceAdd t src s
  | .rowGroupCommit t path chk store => Sys2Proof.Machine.execRowGroupCommit t path chk store s
  | .instructionComplete t op => Sys2Proof.Machine.execInstructionComplete t op s
  | .waitSatisfied t w => Sys2Proof.Machine.execWaitSatisfied t w s
  | .dmaEntryStart t e => Sys2Proof.Machine.execDmaEntryStart t e s
  | .dmaTransfer t e chk => Sys2Proof.Machine.execDmaTransfer t e chk s
  | .dmaEntryFinish t e => Sys2Proof.Machine.execDmaEntryFinish t e s
  | .tilePartEnd t => Sys2Proof.Machine.execTilePartEnd t s
  | .vld t chk => Sys2Proof.Machine.execVld t chk s
  | .vst t chk => Sys2Proof.Machine.execVst t chk s
  | .vmov t chk => Sys2Proof.Machine.execVmov t chk s
  | .vmld t chk => Sys2Proof.Machine.execVmld t chk s
  | .vmst t chk => Sys2Proof.Machine.execVmst t chk s
  | .viota t chk => Sys2Proof.Machine.execViota t chk s
  | .vadd t chk => Sys2Proof.Machine.execVadd t chk s
  | .vsub t chk => Sys2Proof.Machine.execVsub t chk s
  | .vmul t chk => Sys2Proof.Machine.execVmul t chk s
  | .vfma t chk => Sys2Proof.Machine.execVfma t chk s
  | .vmax t chk => Sys2Proof.Machine.execVmax t chk s
  | .vmin t chk => Sys2Proof.Machine.execVmin t chk s
  | .vneg t chk => Sys2Proof.Machine.execVneg t chk s
  | .vabs t chk => Sys2Proof.Machine.execVabs t chk s
  | .vcmp t chk => Sys2Proof.Machine.execVcmp t chk s
  | .vsel t chk => Sys2Proof.Machine.execVsel t chk s
  | .vsf t chk => Sys2Proof.Machine.execVsf t chk s
  | .vrstat t chk => Sys2Proof.Machine.execVrstat t chk s
  | .vrmsn t chk => Sys2Proof.Machine.execVrmsn t chk s
  | .vsmx t chk => Sys2Proof.Machine.execVsmx t chk s
  | .vupd t chk => Sys2Proof.Machine.execVupd t chk s
  | .scratchpadRowAccess t bank reqs fault => Sys2Proof.Machine.execScratchpadRowAccess t bank reqs fault s
  | .scfg t => Sys2Proof.Machine.execScfg t s
  | .ssig t => Sys2Proof.Machine.execSsig t s
  | .ssigTakeEffect t => Sys2Proof.Machine.execSsigTakeEffect t s
  | .bcfg t => Sys2Proof.Machine.execBcfg t s
  | .bwaitd t => Sys2Proof.Machine.execBwaitd t s
  | .bwaits t => Sys2Proof.Machine.execBwaits t s
  | .bangleWaitSatisfied t => Sys2Proof.Machine.execBangleWaitSatisfied t s
  | .bpush t => Sys2Proof.Machine.execBpush t s
  | .bpushTakeEffect t => Sys2Proof.Machine.execBpushTakeEffect t s
  | .bpop t => Sys2Proof.Machine.execBpop t s
  | .bpopTakeEffect t => Sys2Proof.Machine.execBpopTakeEffect t s
  | .lkload t chk => Sys2Proof.Machine.execLkload t chk s
  | .lkput t chk => Sys2Proof.Machine.execLkput t chk s
  | .lkrd t chk => Sys2Proof.Machine.execLkrd t chk s
  | .lkfl t chk => Sys2Proof.Machine.execLkfl t chk s
  | .ropet t chk => Sys2Proof.Machine.execRopet t chk s
  | .rope t chk => Sys2Proof.Machine.execRope t chk s
  | .amask t chk => Sys2Proof.Machine.execAmask t chk s
  | .apsmx t chk => Sys2Proof.Machine.execApsmx t chk s
  | .amerge t chk => Sys2Proof.Machine.execAmerge t chk s
  | .pageCmd fn ring => Sys2Proof.Machine.execPageCmd fn ring s
  | .map item => Sys2Proof.Machine.execMap item s
  | .ref item => Sys2Proof.Machine.execRef item s
  | .unref item => Sys2Proof.Machine.execUnref item s
  | .swapOut item => Sys2Proof.Machine.execSwapOut item s
  | .swapOutCopy item => Sys2Proof.Machine.execSwapOutCopy item s
  | .swapIn item => Sys2Proof.Machine.execSwapIn item s
  | .openPool item => Sys2Proof.Machine.execOpenPool item s
  | .closePool item => Sys2Proof.Machine.execClosePool item s
  | .xcfg t => Sys2Proof.Machine.execXcfg t s
  | .xplace t chk => Sys2Proof.Machine.execXplace t chk s
  | .xgather t chk => Sys2Proof.Machine.execXgather t chk s
  | .xcombine t chk => Sys2Proof.Machine.execXcombine t chk s
  | .memCodewordRead addr len strike burstFails waits => Sys2Proof.Machine.execMemCodewordRead addr len strike burstFails waits s
  | .memCodewordWrite addr bytes part strike burstFails waits => Sys2Proof.Machine.execMemCodewordWrite addr bytes part strike burstFails waits s
  | .scrubRead chan strike burstFails => Sys2Proof.Machine.execScrubRead chan strike burstFails s
  | .migrationStart lchan => Sys2Proof.Machine.execMigrationStart lchan s
  | .migrationCopyStep lchan strike oldFails spareFails => Sys2Proof.Machine.execMigrationCopyStep lchan strike oldFails spareFails s
  | .poisonFillStep lchan burstFails => Sys2Proof.Machine.execPoisonFillStep lchan burstFails s
  | .ingest fn ring => Sys2Proof.Machine.execIngest fn ring s
  | .ingestArm item engine => Sys2Proof.Machine.execIngestArm item engine s
  | .ingestBlockDecode item => Sys2Proof.Machine.execIngestBlockDecode item s
  | .layoutWrite item => Sys2Proof.Machine.execLayoutWrite item s
  | .ingestForward item => Sys2Proof.Machine.execIngestForward item s
  | .inboxWriteReceive => Sys2Proof.Machine.execInboxWriteReceive s
  | .ingestCmd fn ring => Sys2Proof.Machine.execIngestCmd fn ring s
  | .tableLoad item => Sys2Proof.Machine.execTableLoad item s
  | .drop item => Sys2Proof.Machine.execDrop item s
  | .inboxOpen item => Sys2Proof.Machine.execInboxOpen item s
  | .inboxClose item => Sys2Proof.Machine.execInboxClose item s
  | .tlook t chk => Sys2Proof.Machine.execTlook t chk s
  | .linkCodewordReceive l cw => Sys2Proof.Machine.execLinkCodewordReceive l cw s
  | .linkRetrain l => Sys2Proof.Machine.execLinkRetrain l s
  | .linkRetrainComplete l tr peer => Sys2Proof.Machine.execLinkRetrainComplete l tr peer s
  | .laneSwitchRequest l lane => Sys2Proof.Machine.execLaneSwitchRequest l lane s
  | .laneSwitchRequestReceive l => Sys2Proof.Machine.execLaneSwitchRequestReceive l s
  | .laneSwitch l => Sys2Proof.Machine.execLaneSwitch l s
  | .laneLockLoss l lane => Sys2Proof.Machine.execLaneLockLoss l lane s
  | .linkBringup l => Sys2Proof.Machine.execLinkBringup l s
  | .linkSignalDetect l tr => Sys2Proof.Machine.execLinkSignalDetect l tr s
  | .linkIdentityExchange l peer => Sys2Proof.Machine.execLinkIdentityExchange l peer s
  | .linkPacketSend l => Sys2Proof.Machine.execLinkPacketSend l s
  | .packetReceive l => Sys2Proof.Machine.execPacketReceive l s
  | .linkMaskWrite a value => Sys2Proof.Machine.execLinkMaskWrite a value s
  | .linkRtWrite a chip value => Sys2Proof.Machine.execLinkRtWrite a chip value s
  | .linkPortWrite a port value => Sys2Proof.Machine.execLinkPortWrite a port value s
  | .linkTopoWrite a value => Sys2Proof.Machine.execLinkTopoWrite a value s
  | .rsend t => Sys2Proof.Machine.execRsend t s
  | .rland t => Sys2Proof.Machine.execRland t s
  | .chunkReceive => Sys2Proof.Machine.execChunkReceive s
  | .landingCombine t op srcRank chunk => Sys2Proof.Machine.execLandingCombine t op srcRank chunk s
  | .ack => Sys2Proof.Machine.execAck s
  | .nak => Sys2Proof.Machine.execNak s
  | .busy => Sys2Proof.Machine.execBusy s
  | .chunkBackoffExpiry transfer chunk => Sys2Proof.Machine.execChunkBackoffExpiry transfer chunk s
  | .reject => Sys2Proof.Machine.execReject s
  | .abort => Sys2Proof.Machine.execAbort s
  | .unreachableNoticeReceive => Sys2Proof.Machine.execUnreachableNoticeReceive s
  | .collectiveTimeout item => Sys2Proof.Machine.execCollectiveTimeout item s
  | .abortedKeyExpiry => Sys2Proof.Machine.execAbortedKeyExpiry s
  | .windowChunkReceive => Sys2Proof.Machine.execWindowChunkReceive s
  | .windowCmd fn ring => Sys2Proof.Machine.execWindowCmd fn ring s
  | .wopen item => Sys2Proof.Machine.execWopen item s
  | .wclose item => Sys2Proof.Machine.execWclose item s
  | .wrefSet item => Sys2Proof.Machine.execWrefSet item s
  | .wrefClear item => Sys2Proof.Machine.execWrefClear item s
  | .descriptorFetch fn ring => Sys2Proof.Machine.execDescriptorFetch fn ring s
  | .nopDescriptor fn ring => Sys2Proof.Machine.execNopDescriptor fn ring s
  | .completionRecordWrite item => Sys2Proof.Machine.execCompletionRecordWrite item s
  | .msixTimerExpiry fn vector => Sys2Proof.Machine.execMsixTimerExpiry fn vector s
  | .sqTailWrite fn ring value => Sys2Proof.Machine.execSqTailWrite fn ring value s
  | .cqHeadWrite fn ring value => Sys2Proof.Machine.execCqHeadWrite fn ring value s
  | .ringEnable fn ring => Sys2Proof.Machine.execRingEnable fn ring s
  | .ringDisable fn ring => Sys2Proof.Machine.execRingDisable fn ring s
  | .fnQuotaWrite a ctx value => Sys2Proof.Machine.execFnQuotaWrite a ctx value s
  | .hwinSetLock a w value => Sys2Proof.Machine.execHwinSetLock a w value s
  | .cxlMemRead offset len => Sys2Proof.Machine.execCxlMemRead offset len s
  | .cxlMemWrite offset bytes poison => Sys2Proof.Machine.execCxlMemWrite offset bytes poison s
  | .grantCommit a ctx => Sys2Proof.Machine.execGrantCommit a ctx s
  | .numvfsWrite value => Sys2Proof.Machine.execNumvfsWrite value s
  | .vfEnableSet => Sys2Proof.Machine.execVfEnableSet s
  | .vfEnableClear => Sys2Proof.Machine.execVfEnableClear s
  | .memorySpaceEnableSet => Sys2Proof.Machine.execMemorySpaceEnableSet s
  | .memorySpaceEnableClear => Sys2Proof.Machine.execMemorySpaceEnableClear s
  | .busMasterEnableClear fn => Sys2Proof.Machine.execBusMasterEnableClear fn s
  | .busMasterEnableSet fn => Sys2Proof.Machine.execBusMasterEnableSet fn s
  | .flrVf n => Sys2Proof.Machine.execFlrVf n s
  | .flrPf => Sys2Proof.Machine.execFlrPf s
  | .cxlReset => Sys2Proof.Machine.execCxlReset s
  | .cxlResetMemClear => Sys2Proof.Machine.execCxlResetMemClear s
  | .cxlLinkDown => Sys2Proof.Machine.execCxlLinkDown s
  | .functionDisableComplete fn => Sys2Proof.Machine.execFunctionDisableComplete fn s
  | .carryComplete t words => Sys2Proof.Machine.execCarryComplete t words s
  | .carryTimeout t => Sys2Proof.Machine.execCarryTimeout t s
  | .strandSubstitution t => Sys2Proof.Machine.execStrandSubstitution t s
  | .repairStart => Sys2Proof.Machine.execRepairStart s
  | .repairPeerRequest => Sys2Proof.Machine.execRepairPeerRequest s
  | .repairResponse => Sys2Proof.Machine.execRepairResponse s
  | .repairAttemptTimeout => Sys2Proof.Machine.execRepairAttemptTimeout s
  | .tenantFence a ctx => Sys2Proof.Machine.execTenantFence a ctx s
  | .tenantUnfence a ctx => Sys2Proof.Machine.execTenantUnfence a ctx s
  | .auditSnap a => Sys2Proof.Machine.execAuditSnap a s
  | .assayTestStart u => Sys2Proof.Machine.execAssayTestStart u s
  | .assayTestComplete passed => Sys2Proof.Machine.execAssayTestComplete passed s
  | .assayRotation => Sys2Proof.Machine.execAssayRotation s
  | .sensorRead readings => Sys2Proof.Machine.execSensorRead readings s
  | .thermalLoopTick => Sys2Proof.Machine.execThermalLoopTick s
  | .powerSample watts => Sys2Proof.Machine.execPowerSample watts s
  | .powerCeilingTick fast => Sys2Proof.Machine.execPowerCeilingTick fast s
  | .hardTrip sensor => Sys2Proof.Machine.execHardTrip sensor s
  | .uvGuardEntry region => Sys2Proof.Machine.execUvGuardEntry region s
  | .uvGuardExit region => Sys2Proof.Machine.execUvGuardExit region s
  | .p1Entry => Sys2Proof.Machine.execP1Entry s
  | .p2Entry => Sys2Proof.Machine.execP2Entry s
  | .wake => Sys2Proof.Machine.execWake s
  | .wakeComplete => Sys2Proof.Machine.execWakeComplete s
  | .pwrCtlOff a => Sys2Proof.Machine.execPwrCtlOff a s
  | .mctpOff => Sys2Proof.Machine.execMctpOff s
  | .mctpWake => Sys2Proof.Machine.execMctpWake s
  | .wakeNAssert low => Sys2Proof.Machine.execWakeNAssert low s
  | .energyRescale measuredUj => Sys2Proof.Machine.execEnergyRescale measuredUj s
  | .bootChain failures => Sys2Proof.Machine.execBootChain failures s
  | .recoveryImageWrite kind slot img => Sys2Proof.Machine.execRecoveryImageWrite kind slot img s
  | .firmwareUpdate kind img => Sys2Proof.Machine.execFirmwareUpdate kind img s
  | .svnCommit kind => Sys2Proof.Machine.execSvnCommit kind s
  | .attestationRequest nonce overSpdm => Sys2Proof.Machine.execAttestationRequest nonce overSpdm s
  | .spdmKeyExchange transcript => Sys2Proof.Machine.execSpdmKeyExchange transcript s
  | .journalRecordWrite => Sys2Proof.Machine.execJournalRecordWrite s
  | .journalCompaction => Sys2Proof.Machine.execJournalCompaction s
  | .mgcWatchdogExpiry => Sys2Proof.Machine.execMgcWatchdogExpiry s
  | .tokenDebug tok => Sys2Proof.Machine.execTokenDebug tok s
  | .tokenReturn tok => Sys2Proof.Machine.execTokenReturn tok s
  | .tokenLock tok => Sys2Proof.Machine.execTokenLock tok s
  | .debugLevelRaise level => Sys2Proof.Machine.execDebugLevelRaise level s
  | .debugLevelLower level => Sys2Proof.Machine.execDebugLevelLower level s
  | .debugSessionExpiry => Sys2Proof.Machine.execDebugSessionExpiry s
  | .debugHalt x => Sys2Proof.Machine.execDebugHalt x s
  | .debugSingleStep x => Sys2Proof.Machine.execDebugSingleStep x s
  | .debugResume x => Sys2Proof.Machine.execDebugResume x s
  | .loupeDebugAccess acc => Sys2Proof.Machine.execLoupeDebugAccess acc s
  | .idcode => Sys2Proof.Machine.execIdcode s
  | .samplePreload preload => Sys2Proof.Machine.execSamplePreload preload s
  | .extest => Sys2Proof.Machine.execExtest s
  | .extestPulse => Sys2Proof.Machine.execExtestPulse s
  | .extestTrain => Sys2Proof.Machine.execExtestTrain s
  | .clamp => Sys2Proof.Machine.execClamp s
  | .highz => Sys2Proof.Machine.execHighz s
  | .bypass ir => Sys2Proof.Machine.execBypass ir s
  | .tapReset => Sys2Proof.Machine.execTapReset s
  | .coldReset vauxLost written => Sys2Proof.Machine.execColdReset vauxLost written s
  | .porRelease strap => Sys2Proof.Machine.execPorRelease strap s
  | .tripRecord => Sys2Proof.Machine.execTripRecord s
  | .journalReplay => Sys2Proof.Machine.execJournalReplay s
  | .pgMainRise => Sys2Proof.Machine.execPgMainRise s
  | .regulatorRamp => Sys2Proof.Machine.execRegulatorRamp s
  | .memoryTraining failed => Sys2Proof.Machine.execMemoryTraining failed s
  | .memoryInit => Sys2Proof.Machine.execMemoryInit s
  | .portReady => Sys2Proof.Machine.execPortReady s
  | .pgMainFall => Sys2Proof.Machine.execPgMainFall s
  | .railFault => Sys2Proof.Machine.execRailFault s
  | .perstNFall => Sys2Proof.Machine.execPerstNFall s
  | .perstNRise => Sys2Proof.Machine.execPerstNRise s
  | .testModeAssert => Sys2Proof.Machine.execTestModeAssert s
  | .setupLock a => Sys2Proof.Machine.execSetupLock a s
  | .registerWrite a offset size value => Sys2Proof.Machine.execRegisterWrite a offset size value s
  | .unlistedDescriptorType fn ring => Sys2Proof.Machine.execUnlistedDescriptorType fn ring s
  | .msixUnmask fn what => Sys2Proof.Machine.execMsixUnmask fn what s
  | .spareLaneStopsQualifying l => Sys2Proof.Machine.execSpareLaneStopsQualifying l s
  | .alertCauseRead => Sys2Proof.Machine.execAlertCauseRead s

end Sys2Proof.Machine
end

