-- ==== Sys2Proof/Safety.lean ====
section
/-! DEFINITION. What counts as a safe run, and when a command finds what it acts on, in the terms the statements use. -/

namespace Sys2Proof.Machine

/-- Keys rise strictly. -/
def Tab.sorted {α : Type} (t : Tab α) : Bool := decide (List.Pairwise (fun (a b : Nat × α) => a.1 < b.1) t)

/-- A locket slot in canonical form. -/
def Slot.canonical (x : Slot) : Bool := Memory.wf x.image && Tab.sorted x.marks

/-- A tile's storage in canonical form: its byte memories, and the tables of its accumulators, masks, angle table, sync objects, locket slots,
table store and marks. -/
def Tile.canonical (t : Tile) : Bool :=
  Memory.wf t.spad && Memory.wf t.vbuf && Tab.sorted t.spadMarks && Tab.sorted t.vbufMarks && Tab.sorted t.masks && Tab.sorted t.maskMarks &&
    Tab.sorted t.acc && Tab.sorted t.accMarks && Tab.sorted t.tableStore && Tab.sorted t.tableMarks && Tab.sorted t.angle &&
    Tab.sorted t.syncCount && Tab.sorted t.syncThresh && Tab.sorted t.locket && t.locket.all (fun e => Slot.canonical e.2)

/-- The block's stores are in canonical form: device memory, host memory and every tile's storage, with the keys of every table of register fields, tiles, marks,
damaged words, channel queues, links, image slots, thermal set-points, fenced items and audit counts rising. -/
def State.canonical (s : State) : Bool :=
  Memory.wf s.mem && Memory.wf s.host && Tab.sorted s.regs && Tab.sorted s.tiles && Tab.sorted s.power.thermal && Tab.sorted s.fenceItems &&
    Tab.sorted s.memPoison && Tab.sorted s.memDamage && Tab.sorted s.chans.queues && Tab.sorted s.chans.stuckCells && Tab.sorted s.chans.failedPins &&
    Tab.sorted s.links && Tab.sorted s.sec.slots && Tab.sorted s.audit && s.tiles.all (fun e => e.2.canonical)

/-- Pool 0 of the audit is conserved (R400): items bear different numbers, all given out, and for each context the items issued are those returned and those
held, which are the items in flight. -/
def State.itemsConserved (s : State) : Prop :=
  (s.items.map (·.id)).Nodup ∧ (∀ i ∈ s.items, i.id < s.nextItem ∧ i.fn < 64) ∧
    ∀ f, f < 64 → (Tab.get (0, 0, 0) s.audit (auditKey 0 f)).1 = (Tab.get (0, 0, 0) s.audit (auditKey 0 f)).2.1 + (Tab.get (0, 0, 0) s.audit (auditKey 0 f)).2.2 ∧
      (Tab.get (0, 0, 0) s.audit (auditKey 0 f)).2.2 = (s.items.filter (fun i => i.fn == f)).length

/-- Every waiting command names units that the device has. -/
def State.queueWf (s : State) : Bool := s.pending.all Instr.wf

/-- Logical tile `t` is served by physical tile `p`, which can act (R8, R387, R415, R454). -/
def State.acts (s : State) (t p : Nat) : Bool := decide (t < 256) && s.physOf t == some p && s.tileLive t p

/-- The next instruction of logical tile `t` is `i`, with opcode `opc`, and it is not held (R96). -/
def State.atInsn (s : State) (t p opc : Nat) (i : Insn) : Bool :=
  s.acts t p && (s.tile p).next == some i && i.opc.toNat == opc && (s.tile p).mayIssue i

/-- Item `i` with descriptor `d` is the next of its ring at event 3, in P0, with its fence passed (R29, R370). -/
def State.atEvent3 (s : State) (fn ring : Nat) (i : Item) (d : List Byte) : Bool :=
  decide (fn < 64) && decide (ring < 64) && s.nextOfRing fn ring == some i && i.desc == some d && s.inP0 && (!descFence d || s.fencePassed i)

/-- Such an item passes: its context is not fenced, and its descriptor meets steps 1 to 4 of R366 (R366, R381). -/
def State.passes3 (s : State) (fn ring : Nat) (i : Item) (d : List Byte) (ty : Nat) : Bool :=
  s.atEvent3 fn ring i d && !s.fenced fn && (s.descCause fn d).isNone && descType d == ty

/-- The next entry of a running list of type `ty` reads as `b`, `u` being the state after the read; its OP is `op`, and no earlier item of its function holds it
back (R88, R216, R331, R353, R365). -/
def State.atEntry (s : State) (ty op : Nat) (before : Item → Bool) (item : Nat) (i : Item) (l : ListRun) (b : List Byte) (u : State) : Prop :=
  s.item item = some i ∧ i.list = some l ∧ i.phase = .running ∧ i.type = ty ∧ l.pos < l.count ∧ l.swapping = none ∧ s.hostReady i.fn = true ∧
    (s.aheadOf i).any before = false ∧ s.listEntry i l = (b, u) ∧ leAt b 0 1 = op

/-- Every field of a register that is not listed reads as before. -/
def State.regsBut (s u : State) (rs : List Reg) : Prop :=
  ∀ (f : Field) (i : Nat), f.lo < 1024 → f.reg ∉ rs → u.fld f i = s.fld f i

/-- What an instruction of a tile leaves alone: every other tile, every register but `TILE_VSTAT`, `TILE_SEQ`, `TILE_TDCC` and those listed, and everything
that is not a tile, a register field, an item, an audit count or an activity count. -/
def State.oneTile (s u : State) (p : Nat) (rs : List Reg := []) : Prop :=
  u = { s with tiles := u.tiles, regs := u.regs, items := u.items, audit := u.audit, power := u.power } ∧
    (∀ k, k ≠ p → u.tile k = s.tile k) ∧ s.regsBut u (.tileVstat :: .tileSeq :: .tileTdcc :: rs)

/-- A counting field after `n` more events: it saturates at its largest value. -/
def State.counted (s : State) (f : Field) (i n : Nat) : Nat := if n = 0 then s.fld f i else satAdd f.width (s.fld f i) n

/-- Word `k` of a vector at a vector-buffer address. -/
def Tile.word (t : Tile) (a k : Nat) : Word32 := BitVec.ofNat 32 (Mem.readNat t.vbuf (a + 4 * k) 4)

/-- Element `k` of a vector instruction is active (R146). -/
def Tile.lane (t : Tile) (i : Insn) (k : Nat) : Bool := !i.argBit 19 || (t.maskReg (i.arg 16 3)).getLsbD k

/-- The second source at element `k`: broadcast or its own (R143). -/
def Tile.src2 (t : Tile) (i : Insn) (k : Nat) : Word32 := t.word (t.vaddr i.opd2) (if i.argBit 15 then 0 else k)

/-- The vector-buffer spans of the first source of a lane instruction, and of both (R143). -/
def State.reads1 (s : State) (t : Tile) (i : Insn) : List (Nat × Nat) := [(t.vaddr i.opd1, 4 * s.vcount t i)]
def State.reads2 (s : State) (t : Tile) (i : Insn) : List (Nat × Nat) :=
  s.reads1 t i ++ [(t.vaddr i.opd2, if i.argBit 15 then (if s.vcount t i = 0 then 0 else 4) else 4 * s.vcount t i)]

/-- The instruction reads a marked unit: its predicate register, a vector-buffer span or a scratchpad span (R391, R392). -/
def Tile.readsMark (t : Tile) (i : Insn) (n : Nat) (v r : List (Nat × Nat)) : Bool := t.predMark i n || t.vmarked v || t.markedSegs r

/-- The marks of the vector buffers after a write of the bytes `on` by an instruction that has read a marked unit or has not: marked data marks every unit it
touches, unmarked data clears every unit it writes wholly, and the other marks stay (R392). -/
def Tile.vbufMarked (t u : Tile) (m : Bool) (on : Nat → Bool) : Prop :=
  ∀ j, (m = true → (∃ x, x / 32 = j ∧ on x = true) → Tab.get false u.vbufMarks j = true) ∧
    (m = false → (∀ x, x / 32 = j → on x = true) → Tab.get false u.vbufMarks j = false) ∧
    (((∀ x, x / 32 = j → on x = false) ∨ (m = false ∧ ∃ x, x / 32 = j ∧ on x = false)) →
      Tab.get false u.vbufMarks j = Tab.get false t.vbufMarks j)

/-- Everything of a tile's data but its scratchpad and vector buffers is as before: masks, accumulators, banks, table store, angle table and locket. -/
def Tile.keeps (t u : Tile) : Prop :=
  u.masks = t.masks ∧ u.acc = t.acc ∧ u.active = t.active ∧ u.shadow = t.shadow ∧ u.tableStore = t.tableStore ∧ u.angle = t.angle ∧ u.locket = t.locket

/-- A lane instruction: from every state in which it may issue and `ok` holds, its command answers a next state in which element `k` below N of the
destination is `r k` where `on k`, +0 where not and `MZERO` is set, and its old value otherwise; the units of the destination take the mark of what was read
(`rd`: spans of the vector buffers and of the scratchpad, and the mark of any other store read); no other byte of the vector buffers and no other storage of the tile changes. -/
def laneRow (c : Nat → Check → Instr) (opc : Nat) (ok : State → Tile → Insn → Prop) (on : Tile → Insn → Nat → Bool)
    (rd : State → Tile → Insn → List (Nat × Nat) × List (Nat × Nat) × Bool) (r : State → Tile → Insn → Nat → Word32) : Prop :=
  ∀ (s : State) (t p : Nat) (i : Insn), s.canonical = true → s.atInsn t p opc i = true → ok s (s.tile p) i →
    ∃ u, exec (c t .pass) s = .next u ∧ s.oneTile u p ∧
      (∀ k, k < s.vcount (s.tile p) i → (u.tile p).word ((s.tile p).vaddr i.opd0) k =
        if on (s.tile p) i k then r s (s.tile p) i k else if i.mzero then 0 else (s.tile p).word ((s.tile p).vaddr i.opd0) k) ∧
      (∀ a, (a < (s.tile p).vaddr i.opd0 ∨ (s.tile p).vaddr i.opd0 + 4 * s.vcount (s.tile p) i ≤ a) →
        Mem.read (u.tile p).vbuf a = Mem.read (s.tile p).vbuf a) ∧
      (s.tile p).vbufMarked (u.tile p)
        ((rd s (s.tile p) i).2.2 || (s.tile p).readsMark i (s.vcount (s.tile p) i) (rd s (s.tile p) i).1 (rd s (s.tile p) i).2.1)
        (fun x => decide ((s.tile p).vaddr i.opd0 ≤ x) && decide (x < (s.tile p).vaddr i.opd0 + 4 * s.vcount (s.tile p) i) &&
          (on (s.tile p) i ((x - (s.tile p).vaddr i.opd0) / 4) || i.mzero)) ∧
      (u.tile p).spad = (s.tile p).spad ∧ (s.tile p).keeps (u.tile p)

end Sys2Proof.Machine
end

