-- ==== Sys2Proof/Certificates/Slice0/Obligations.lean ====
section
/-! DEFINITION. The statements about the block, for the provers. -/

open Sys2Proof Sys2Proof.Machine

/-- For every command c, queue rest and state s, step of s with c at the front of its queue is exec c on s with the queue's rest. On an empty queue step
answers the state unchanged: that clause is the model's choice (log 13). -/
def Obligations.StepRunsFrontCommand : Prop :=
  (∀ (c : Instr) (rest : List Instr) (s : State), step { s with pending := c :: rest } = exec c { s with pending := rest }) ∧
  (∀ s : State, s.pending = [] → step s = .next s)

/-- For every command and every state: if the command names only units that the device has (Instr.wf, by the numbers of R7 to R12, R99, R170, R267, R355
and R416), exec answers a next state; if it does not, exec stops with the fault noSuchUnit. The fault is the model's choice (log 10): the spec gives a
command that names no unit no effect. No command is ever refused. -/
def Obligations.CommandAnswersIffWellFormed : Prop :=
  ∀ (c : Instr) (s : State),
    (c.wf = true → ∃ t, exec c s = .next t) ∧ (c.wf = false → ∃ u, exec c s = .fault (.noSuchUnit u))

/-- From every state in canonical form (device memory, host memory and the byte memories of every tile: addresses strictly rising, no byte listed that
reads as an unlisted one; keys strictly rising in the tables of register fields, tiles, accumulators, masks, angle table, locket slots, table store,
marks, damaged words, channel queues, links, image slots, thermal set-points, fenced items and audit counts), whatever command is at the front of the
queue, a step that answers a next state answers one in canonical form. From every such state in which pool 0 of R400 is conserved (items bear
different numbers, and for each context the items issued are those returned and those held, which are the items in flight), a step answers such a
state; and in such a state the two invariants of R400 hold for pool 0 of every context, so that an audit of it finds nothing (R402). -/
def Obligations.StepKeepsCanonicalForm : Prop :=
  (∀ s t : State, s.canonical = true → step s = .next t → t.canonical = true) ∧
  (∀ s t : State, s.canonical = true → s.itemsConserved → step s = .next t → t.itemsConserved) ∧
  (∀ (s : State) (f : Nat), s.itemsConserved → f < 64 → s.auditOk 0 f = true ∧ s.auditCheck 0 f = s)

/-- In State.reset every field of every register instance reads its Reset column, the Tally is zero (R40), no command waits, VAUX is in tolerance with
POR_N low and PG_MAIN low, device and host memory list no byte, and the state is in canonical form. The empty memories and the erased flash are the
model's choice (logs 2, 3). -/
def Obligations.ResetStateHolds : Prop :=
  (∀ (f : Field) (i : Nat), State.reset.fld f i = f.resetAt i) ∧ State.reset.tally = 0 ∧ State.reset.pending = [] ∧
  State.reset.pins.vaux = true ∧ State.reset.pins.porN = false ∧ State.reset.pins.pgMain = false ∧
  (∀ a, Mem.read State.reset.mem a = 0) ∧ (∀ a, Mem.read State.reset.host a = 0) ∧ State.reset.canonical = true

/-- For every state in canonical form, setting a register field of an instance to v makes it read v modulo 2 to its width; every field or instance with
another key reads as before; nothing but the register fields changes; and the state stays in canonical form. -/
def Obligations.FieldReadsWhatWasSet : Prop :=
  ∀ (s : State) (f : Field) (i v : Nat), s.canonical = true →
    (s.setFld f i v).fld f i = v % 2 ^ f.width ∧
    (∀ (g : Field) (j : Nat), g.key j ≠ f.key i → (s.setFld f i v).fld g j = s.fld g j) ∧
    s.setFld f i v = { s with regs := (s.setFld f i v).regs } ∧ (s.setFld f i v).canonical = true

/-- For every byte memory in canonical form, after the bytes bs are written from address a, address a + k reads byte k of bs, every address outside the
range reads as before, and the memory is in canonical form; clearing n bytes from a makes exactly those bytes read as zero. These are the operations
by which every command writes device memory, host memory, the scratchpads and the vector buffers. -/
def Obligations.ByteReadsWhatWasStored : Prop :=
  ∀ (m : Mem) (a : Nat) (bs : List Byte) (n : Nat), Memory.wf m = true →
    (∀ k (h : k < bs.length), Mem.read (Mem.writeRange m a bs) (a + k) = bs[k]) ∧
    (∀ x, (x < a ∨ a + bs.length ≤ x) → Mem.read (Mem.writeRange m a bs) x = Mem.read m x) ∧
    Memory.wf (Mem.writeRange m a bs) = true ∧
    (∀ x, Mem.read (Mem.zero m a n) x = if a ≤ x ∧ x < a + n then 0 else Mem.read m x) ∧ Memory.wf (Mem.zero m a n) = true

/-- TALLY_TICK with VAUX in tolerance and POR_N high: exec answers a next state whose Tally is one higher; outside the Tally only the power family's idle
and clamp times, register fields and (in holdover) the model's draw counter change. In holdover ERR_NS takes the free value holdoverError (log 21),
saturated at 255, and ALIGNED clears when it exceeds the bound of R43. While the management domain is off, nothing changes. -/
def Obligations.TallyTickCountsOnce : Prop :=
  (∀ s : State, s.awake = true → s.canonical = true → ∃ u, exec .tallyTick s = .next u ∧ u.tally = s.tally + 1 ∧
    u = { s with tally := s.tally + 1, regs := u.regs, power := u.power, draws := u.draws } ∧
    (s.holdover = false → u.draws = s.draws ∧ u.fld Fld.tallyStatErrNs 0 = s.fld Fld.tallyStatErrNs 0 ∧
      u.fld Fld.tallyStatAligned 0 = s.fld Fld.tallyStatAligned 0) ∧
    (s.holdover = true → u.draws = s.draws + 1 ∧ u.fld Fld.tallyStatErrNs 0 = min 255 (Config.holdoverError s.draws) ∧
      (s.tallyBound < min 255 (Config.holdoverError s.draws) → u.flag Fld.tallyStatAligned 0 = false))) ∧
  (∀ s : State, s.awake = false → exec .tallyTick s = .next s)

/-- For every region below 16, once 1,000 Tally counts have passed and outside P2 and P3: exec answers a next state in which RATE of the region is the
step count saturated at 65,535, MIN is the smaller of that and the old MIN, no other register field changes, and nothing but register fields changes.
Before 1,000 counts, and in P2 and P3, nothing changes. -/
def Obligations.RateMonitorFollowsSteps : Prop :=
  (∀ (r n : Nat) (s : State), r < 16 → 1000 ≤ s.tally → s.fld Fld.pwrStatState 0 < 2 → s.canonical = true →
    ∃ u, exec (.coreRateUpdate r n) s = .next u ∧ u = { s with regs := u.regs } ∧ u.fld Fld.coreRateRate r = min n 65535 ∧
      u.fld Fld.coreRateMin r = min (min n 65535) (s.fld Fld.coreRateMin r) % 65536 ∧
      (∀ (g : Field) (j : Nat), g.key j ≠ Fld.coreRateRate.key r → g.key j ≠ Fld.coreRateMin.key r → u.fld g j = s.fld g j)) ∧
  (∀ (r n : Nat) (s : State), r < 16 → (s.tally < 1000 ∨ 2 ≤ s.fld Fld.pwrStatState 0) → exec (.coreRateUpdate r n) s = .next s)

/-- TIMING_FRAME_SEND on a chip that is not the machine leader, with ENABLE set, its parent link able to carry a frame and its MGMT queue not full: one
frame joins the parent link's queue and nothing else changes; otherwise nothing changes. TIMING_FRAME_RECEIVE with ENABLE set, of the parent's frame:
the frame leaves the received packets and the estimated error is loaded; before the first lock, with no launch running, a positive offset steps the
Tally forward once. A frame of another link is answered by a frame over that link. With ENABLE = 0 the frame is dropped without an answer. With no
frame that can be dealt with nothing changes. That the one forward step is taken (R42 says may) is log 23; what a frame stores and what counts as a
parent that is up are logs 110 and 111: these clauses are the model's. -/
def Obligations.TimingFramesFollowTheTree : Prop :=
  (∀ s : State, s.tallyLeader = false → s.flag Fld.tallyCtlEnable 0 = true → s.parentUp = true →
    s.mgmtFull (s.fld Fld.tallyCtlParent 0) = false →
    exec .timingFrameSend s = .next (s.setLink (s.fld Fld.tallyCtlParent 0)
      { s.link (s.fld Fld.tallyCtlParent 0) with queue := (s.link (s.fld Fld.tallyCtlParent 0)).queue ++
        [(20, s.timingFrame (s.fld Fld.linkStatPeerChip (s.fld Fld.tallyCtlParent 0)))] })) ∧
  (∀ (s : State) (l : Nat) (p : Packet) (off : Int) (e : Nat), s.firstTiming = some (l, p) → s.tallyLeader = false →
    s.flag Fld.tallyCtlEnable 0 = true → l = s.fld Fld.tallyCtlParent 0 →
    (0 < off → s.flag Fld.tallyStatLocked 0 = false → s.tallyStepped = false → s.launchRuns = false →
      exec (.timingFrameReceive off e) s =
        .next (({ s with inbound := s.inbound.erase (l, p), tally := s.tally + off.toNat, tallyStepped := true }).setTallyError e)) ∧
    ((off ≤ 0 ∨ s.flag Fld.tallyStatLocked 0 = true ∨ s.tallyStepped = true ∨ s.launchRuns = true) →
      exec (.timingFrameReceive off e) s = .next (({ s with inbound := s.inbound.erase (l, p) }).setTallyError e))) ∧
  (∀ (s : State) (l : Nat) (p : Packet) (off : Int) (e : Nat), s.firstTiming = some (l, p) → s.flag Fld.tallyCtlEnable 0 = true →
    (s.tallyLeader = true ∨ l ≠ s.fld Fld.tallyCtlParent 0) → l < 20 →
    s.mgmtFull l = false ∧ exec (.timingFrameReceive off e) s =
      .next (({ s with inbound := s.inbound.erase (l, p) }).enqueue l 20 (s.timingFrame p.src))) ∧
  (∀ (s : State) (l : Nat) (p : Packet) (off : Int) (e : Nat), s.firstTiming = some (l, p) → s.flag Fld.tallyCtlEnable 0 = false →
    exec (.timingFrameReceive off e) s = .next { s with inbound := s.inbound.erase (l, p) }) ∧
  (∀ s : State, (s.tallyLeader = true ∨ s.flag Fld.tallyCtlEnable 0 = false ∨ s.parentUp = false ∨ s.mgmtFull (s.fld Fld.tallyCtlParent 0) = true) →
    exec .timingFrameSend s = .next s) ∧
  (∀ (s : State) (off : Int) (e : Nat), s.firstTiming = none → exec (.timingFrameReceive off e) s = .next s)

/-- For a tile that is not halted and not being carried, with an operation in flight that waits for nothing, whose last step is at least 2 to the LIMIT
counts old (LIMIT below 12 is 12): with a spare that is under no test, exec answers the state with FENCES of the physical tile one higher and a carry
of the logical tile to that spare added; a mode that the tiles left healthy do not carry becomes due (R57, R390). With no spare left, the physical
tile is FAILED and holds no part, the launch that ran on it ends with FAILED_POISON, the same mode becomes due, and the residency of the logical tile
is not touched (R177 names no end of it). Before that age, nothing changes. -/
def Obligations.WatchdogSubstitutesTheTile : Prop :=
  (∀ (t p sp : Nat) (s : State), t < 256 → s.physOf t = some p → (s.tile p).halted = false → s.carries.any (fun c => c.logical == t) = false →
    (s.tile p).ops.any (s.tile p).stuck = true → (s.tile p).lastStep + 2 ^ max 12 (s.fld Fld.coreStallCtlLimit 0) ≤ s.tally →
    (s.bump Fld.tilePhysFences p 1).pickSpare = some sp → s.assay.unit = none →
    ∃ u, exec (.stallWatchdogExpiry t) s = .next u ∧
      u.carries = s.carries ++ [{ logical := t, spare := sp, since := s.tally, ctlLost := false, rowsOut := false, rotation := false }] ∧
      u = { s.bump Fld.tilePhysFences p 1 with carries := u.carries, modeDue := u.modeDue } ∧
      u.modeDue = (if u.fld Fld.coreModeTiles 0 < modeFor u.healthy then some (modeFor u.healthy) else s.modeDue)) ∧
  (∀ (t p id : Nat) (s : State) (i : Item) (l : Launch) (b : Board), t < 256 → s.canonical = true → s.physOf t = some p → (s.tile p).halted = false →
    s.carries.any (fun c => c.logical == t) = false →
    (s.tile p).ops.any (s.tile p).stuck = true → (s.tile p).lastStep + 2 ^ max 12 (s.fld Fld.coreStallCtlLimit 0) ≤ s.tally →
    (s.bump Fld.tilePhysFences p 1).pickSpare = none → (s.tile p).itemId = some id → s.item id = some i → i.launch = some l → s.launchBoard i = some b →
    i.phase ≠ .done →
    ∃ u j, exec (.stallWatchdogExpiry t) s = .next u ∧ u.carries = s.carries ∧ u.fld Fld.tilePhysState p = 4 ∧ u.physOf t ≠ some p ∧
      (u.tile p).part = none ∧ u.item id = some j ∧ j.phase = .done ∧ stPoison ∈ j.statuses ∧
      u.modeDue = (if u.fld Fld.coreModeTiles 0 < modeFor u.healthy then some (modeFor u.healthy) else s.modeDue) ∧
      u.fld Fld.tileResidencyValid t = s.fld Fld.tileResidencyValid t) ∧
  (∀ (t p : Nat) (s : State), t < 256 → s.physOf t = some p → s.tally < (s.tile p).lastStep + 2 ^ max 12 (s.fld Fld.coreStallCtlLimit 0) →
    exec (.stallWatchdogExpiry t) s = .next s)

/-- When a change of tile mode to m is due and no launch that has passed event 4 is left, exec answers the state with the change no longer due, TILES at m
and the change journalled; for m = 1 the tiles that served logical tiles 240 to 255 become spares and each logical tile below 240 that nothing serves
takes a spare, in ascending order. While such a launch is left, or no change is due, nothing changes. That a change waits for launches past event 4
only is log 66, and that the tiles are settled then as R483 does at a start is log 67: both are the model's. -/
def Obligations.TileModeChangeWaitsForLaunches : Prop :=
  (∀ (m : Nat) (s : State), s.modeDue = some m → s.items.any Item.launched = false → m ≠ 1 →
    exec .tileModeChange s = .next ((({ s with modeDue := none }).setFld Fld.coreModeTiles 0 m).journal recTileMode [m])) ∧
  (∀ s : State, s.modeDue = some 1 → s.items.any Item.launched = false →
    exec .tileModeChange s = .next ((List.range 240).foldl State.serveTile
      ((({ s with modeDue := none }).setFld Fld.coreModeTiles 0 1).journal recTileMode [1]).freeRow15)) ∧
  (∀ s : State, (s.modeDue = none ∨ s.items.any Item.launched = true) → exec .tileModeChange s = .next s)

/-- Each clause takes a tile whose next instruction has the opcode and may issue (atInsn), with room for its completion signal, and says that exec answers
the state in which the instruction issued and completed: NOP; FENCE with no operation in flight; SCFG, which sets THRESH of the object; BCFG, which
sets the bangle with HEAD, TAIL and FILL zero; BWAITD with FILL at least BYTES and BWAITS with SIZE - FILL at least BYTES; and BANGLE_WAIT_SATISFIED
for such an instruction that holds issue. FENCE with an operation in flight waits, and BWAITD or BWAITS whose condition does not hold holds issue. -/
def Obligations.InstantInstructionsComplete : Prop :=
  (∀ (s : State) (t p : Nat) (i : Insn), s.atInsn t p opNop i = true → (s.tile p).signalRoom i = true →
    exec (.nop t) s = .next (s.issueInstant t p i id)) ∧
  (∀ (s : State) (t p : Nat) (i : Insn), s.atInsn t p opFence i = true → (s.tile p).signalRoom i = true →
    ((s.tile p).ops = [] → exec (.fence t) s = .next (s.issueInstant t p i id)) ∧
    ((s.tile p).ops ≠ [] → exec (.fence t) s = .next s)) ∧
  (∀ (s : State) (t p : Nat) (i : Insn), s.atInsn t p opScfg i = true → (s.tile p).signalRoom i = true →
    exec (.scfg t) s = .next (s.issueInstant t p i
      (fun tl => { tl with syncThresh := Tab.set 1 tl.syncThresh (i.arg 0 7) (i.arg 8 16) }))) ∧
  (∀ (s : State) (t p : Nat) (i : Insn), s.atInsn t p opBcfg i = true → (s.tile p).signalRoom i = true →
    exec (.bcfg t) s = .next ((s.issueInstant t p i (fun tl => tl.setBangle (i.arg 0 4)
      { base := opdBase i.opd0, size := 256 * i.arg 12 15, prod := i.arg 4 4, cons := i.arg 8 4, head := 0, tail := 0, fill := 0 })).auditFresh 9 (16 * t + i.arg 0 4))) ∧
  (∀ (s : State) (t p : Nat) (i : Insn) (b : Bangle), s.atInsn t p opBwaitd i = true → (s.tile p).signalRoom i = true →
    (s.tile p).held = false → (s.tile p).bangle (i.arg 0 4) = some b →
    (i.arg 4 23 ≤ b.fill → exec (.bwaitd t) s = .next (s.issueInstant t p i id)) ∧
    (b.fill < i.arg 4 23 → exec (.bwaitd t) s = .next (s.setTile p { ((s.tile p).stepped s.tally) with held := true }))) ∧
  (∀ (s : State) (t p : Nat) (i : Insn) (b : Bangle), s.atInsn t p opBwaits i = true → (s.tile p).signalRoom i = true →
    (s.tile p).held = false → (s.tile p).bangle (i.arg 0 4) = some b →
    (i.arg 4 23 ≤ b.size - b.fill → exec (.bwaits t) s = .next (s.issueInstant t p i id)) ∧
    (b.size - b.fill < i.arg 4 23 → exec (.bwaits t) s = .next (s.setTile p { ((s.tile p).stepped s.tally) with held := true }))) ∧
  (∀ (s : State) (t p : Nat) (i : Insn) (b : Bangle), s.acts t p = true → (s.tile p).next = some i → (s.tile p).signalRoom i = true →
    (s.tile p).held = true → (s.tile p).bangle (i.arg 0 4) = some b →
    ((i.opc.toNat = opBwaitd ∧ i.arg 4 23 ≤ b.fill) ∨ (i.opc.toNat = opBwaits ∧ i.arg 4 23 ≤ b.size - b.fill)) →
    exec (.bangleWaitSatisfied t) s = .next (s.issueInstant t p i id))

/-- For every state in canonical form, physical tile p below 272 and tile change f. Issue and completion in one step (issueInstant) leaves tile p at f of
the tile advanced past its instruction, with COUNT of SIGNAL_SYNC one higher when SIGNAL is set; issue with an operation in flight (issueOp) leaves it
advanced with the operation appended. In both, every other tile is as before, and nothing but the tiles, the audit counts, the activity counts of R427
and (issueOp) the register fields changes. -/
def Obligations.TileIssueChangesOneTile : Prop :=
  ∀ (s : State) (t p : Nat) (i : Insn) (f : Tile → Tile) (x : Op), s.canonical = true →
    ((s.issueInstant t p i f).tile p = (if i.signal then (f ((s.tile p).advance.stepped s.tally)).signalled i.signalObj 1
      else f ((s.tile p).advance.stepped s.tally))) ∧
    (∀ q, q ≠ p → (s.issueInstant t p i f).tile q = s.tile q ∧ (s.issueOp t p x).tile q = s.tile q) ∧
    s.issueInstant t p i f = { s with tiles := (s.issueInstant t p i f).tiles, audit := (s.issueInstant t p i f).audit, power := (s.issueInstant t p i f).power } ∧
    (s.issueOp t p x).tile p = { ((s.tile p).advance.stepped s.tally) with ops := (s.tile p).ops ++ [x], nextOp := (s.tile p).nextOp + 1 } ∧
    s.issueOp t p x = { s with tiles := (s.issueOp t p x).tiles, audit := (s.issueOp t p x).audit, regs := (s.issueOp t p x).regs, power := (s.issueOp t p x).power }

/-- For a tile whose next instruction is LOOP and may issue, with room for its completion signal: with a trip count of zero the position moves past the
body; otherwise a loop frame with the level, the start, the body length and the trip count opens at iteration 0 and the position moves to the body.
For END: the stream has ended. In each case exec answers the state in which only that tile changed, one issue step is counted (R427; its event class
is log 187, the model's choice) and, with SIGNAL set, SIGNAL_SYNC has its completion signal. Without the room nothing changes. -/
def Obligations.LoopAndEndMoveTheStream : Prop :=
  (∀ (s : State) (t p : Nat) (i : Insn), s.atInsn t p opLoop i = true → (s.tile p).signalRoom i = true →
    (s.tripOf (s.tile p) i = 0 → exec (.loop t) s = .next (((s.setTile p (((s.tile p).stepped s.tally).goto ((s.tile p).pos + 1 + i.arg 4 12))).completionSignal t p i).tileEvent p 0 1)) ∧
    (s.tripOf (s.tile p) i ≠ 0 → exec (.loop t) s = .next (((s.setTile p { ((s.tile p).stepped s.tally) with
      loops := { level := i.arg 0 3, start := (s.tile p).pos + 1, body := i.arg 4 12, trip := s.tripOf (s.tile p) i, iter := 0 } :: (s.tile p).loops,
      pos := (s.tile p).pos + 1, released := false }).completionSignal t p i).tileEvent p 0 1))) ∧
  (∀ (s : State) (t p : Nat) (i : Insn), s.atInsn t p opEnd i = true → (s.tile p).signalRoom i = true →
    exec (.endStream t) s = .next (((s.setTile p { ((s.tile p).stepped s.tally) with ended := true, released := false }).completionSignal t p i).tileEvent p 0 1)) ∧
  (∀ (s : State) (t p : Nat) (i : Insn), (s.tile p).signalRoom i = false →
    (s.atInsn t p opLoop i = true → exec (.loop t) s = .next s) ∧ (s.atInsn t p opEnd i = true → exec (.endStream t) s = .next s)) ∧
  (∀ (s : State) (t p : Nat) (i : Insn), s.canonical = true →
    (s.completionSignal t p i).tile p = (if i.signal then (s.tile p).signalled i.signalObj 1 else s.tile p) ∧
    s.completionSignal t p i = { s with tiles := (s.completionSignal t p i).tiles, audit := (s.completionSignal t p i).audit } ∧
    (∀ q, q ≠ p → (s.completionSignal t p i).tile q = s.tile q))

/-- SSIG, BPUSH and BPOP that may issue: exec answers the state with the operation in flight (issueOp). SSIG_TAKE_EFFECT, with the SSIG the oldest
operation in flight and room in COUNT: N is added to the object and the operation completes. BPUSH_TAKE_EFFECT with space for BYTES: TAIL advances
modulo SIZE and FILL rises by BYTES. BPOP_TAKE_EFFECT with that much FILL: HEAD advances modulo SIZE and FILL falls by BYTES. Without the space or the
fill, nothing changes. -/
def Obligations.RequestsIssueAndTakeEffectInOrder : Prop :=
  (∀ (s : State) (t p : Nat) (i : Insn),
    (s.atInsn t p opSsig i = true → exec (.ssig t) s = .next (s.issueOp t p ((s.tile p).mkOp i 0 [] [] 1 0))) ∧
    (s.atInsn t p opBpush i = true → exec (.bpush t) s = .next (s.issueOp t p ((s.tile p).mkOp i 0 [] [] 1 0))) ∧
    (s.atInsn t p opBpop i = true → exec (.bpop t) s = .next (s.issueOp t p ((s.tile p).mkOp i 0 [] [] 1 0)))) ∧
  (∀ (s : State) (t p : Nat) (x : Op) (r : List Op), s.acts t p = true → (s.tile p).ops = x :: r → x.insn.opc.toNat = opSsig →
    (s.tile p).ssigRoom x.insn = true →
    exec (.ssigTakeEffect t) s = .next ((s.signal t p (x.insn.arg 0 7) (x.insn.arg 8 16)).completeOp t p x)) ∧
  (∀ (s : State) (t p : Nat) (x : Op) (r : List Op) (b : Bangle), s.acts t p = true → (s.tile p).ops = x :: r → x.insn.opc.toNat = opBpush →
    (s.tile p).bangle (x.insn.arg 0 4) = some b → (s.tile p).signalRoom x.insn = true →
    (x.insn.arg 4 23 ≤ b.size - b.fill → exec (.bpushTakeEffect t) s = .next (((s.setTile p ((s.tile p).setBangle (x.insn.arg 0 4)
      { b with tail := (b.tail + x.insn.arg 4 23) % b.size, fill := b.fill + x.insn.arg 4 23 })).issue 9 (16 * t + x.insn.arg 0 4) (x.insn.arg 4 23)).completeOp t p x)) ∧
    (b.size - b.fill < x.insn.arg 4 23 → exec (.bpushTakeEffect t) s = .next s)) ∧
  (∀ (s : State) (t p : Nat) (x : Op) (r : List Op) (b : Bangle), s.acts t p = true → (s.tile p).ops = x :: r → x.insn.opc.toNat = opBpop →
    (s.tile p).bangle (x.insn.arg 0 4) = some b → (s.tile p).signalRoom x.insn = true →
    (x.insn.arg 4 23 ≤ b.fill → exec (.bpopTakeEffect t) s = .next (((s.setTile p ((s.tile p).setBangle (x.insn.arg 0 4)
      { b with head := (b.head + x.insn.arg 4 23) % b.size, fill := b.fill - x.insn.arg 4 23 })).give 9 (16 * t + x.insn.arg 0 4) (x.insn.arg 4 23)).completeOp t p x)) ∧
    (b.fill < x.insn.arg 4 23 → exec (.bpopTakeEffect t) s = .next s))

/-- For the three waiters of R187: the next instruction of the stream (with WAIT, not RED), the entry at the front of a DMA engine once the prologue has
issued, and a source of the RED at the front of the stream path. When COUNT of the object is at least THRESH, exec answers the state in which COUNT
has fallen by THRESH (counted as returned) and the waiter is released. While COUNT is below THRESH, nothing changes, for each of the three. The
consumption leaves every other object of the tile, every other tile and everything but tiles and audit counts as it was. -/
def Obligations.SatisfiedWaitConsumesThreshold : Prop :=
  (∀ (s : State) (t p : Nat) (i : Insn), s.acts t p = true → (s.tile p).next = some i → i.wait = true → (s.tile p).released = false →
    i.opc.toNat ≠ opRed →
    ((s.tile p).thresh i.waitObj ≤ (s.tile p).count i.waitObj → exec (.waitSatisfied t .instr) s =
      .next ((s.consumeWait t p i.waitObj).setTile p { (s.consumeWait t p i.waitObj).tile p with released := true })) ∧
    ((s.tile p).count i.waitObj < (s.tile p).thresh i.waitObj → exec (.waitSatisfied t .instr) s = .next s)) ∧
  (∀ (s : State) (t p e : Nat) (en : DmaEntry) (r : List DmaEntry), e < 4 → s.acts t p = true →
    (Tab.get Dma.idle (s.tile p).dma e).entries = en :: r → en.waits = true → (Tab.get Dma.idle (s.tile p).dma e).released = false →
    (Tab.get Dma.idle (s.tile p).dma e).started = false → (s.tile p).prologueDone = true →
    ((s.tile p).thresh en.waitSync ≤ (s.tile p).count en.waitSync →
      exec (.waitSatisfied t (.dma e)) s = .next ((s.consumeWait t p en.waitSync).setTile p { (s.consumeWait t p en.waitSync).tile p with
        dma := Tab.set Dma.idle ((s.consumeWait t p en.waitSync).tile p).dma e { Tab.get Dma.idle (s.tile p).dma e with released := true } })) ∧
    ((s.tile p).count en.waitSync < (s.tile p).thresh en.waitSync → exec (.waitSatisfied t (.dma e)) s = .next s)) ∧
  (∀ (s : State) (t p n : Nat) (x : Op), n < 16 → s.acts t p = true → (s.tile p).streamFront = some x → x.redWaits n = true →
    ((s.tile p).thresh (x.insn.waitObj + n) ≤ (s.tile p).count (x.insn.waitObj + n) →
      exec (.waitSatisfied t (.redSource n)) s = .next ((s.consumeWait t p (x.insn.waitObj + n)).setTile p
        ((((s.consumeWait t p (x.insn.waitObj + n)).tile p).stepped (s.consumeWait t p (x.insn.waitObj + n)).tally).modOp x.id (fun y => { y with ready := n :: y.ready })))) ∧
    ((s.tile p).count (x.insn.waitObj + n) < (s.tile p).thresh (x.insn.waitObj + n) → exec (.waitSatisfied t (.redSource n)) s = .next s)) ∧
  (∀ (s : State) (t p o : Nat), s.canonical = true → t < 256 →
    ((s.consumeWait t p o).tile p).count o = (s.tile p).count o - (s.tile p).thresh o ∧
    (∀ k, k ≠ o → ((s.consumeWait t p o).tile p).count k = (s.tile p).count k) ∧
    (s.consumeWait t p o).auditReturned 8 t = (s.auditReturned 8 t + (s.tile p).thresh o) % 2 ^ 32 ∧
    s.consumeWait t p o = { s with tiles := (s.consumeWait t p o).tiles, audit := (s.consumeWait t p o).audit } ∧
    (∀ q, q ≠ p → (s.consumeWait t p o).tile q = s.tile q))

/-- For a tile whose next instruction may issue: LDB (its storage checks passed), MMA, DRAIN and RED issue as operations in flight with their read and
write ranges and occupancy when no operation in flight conflicts (R98), and change nothing while one does; MMA and RED take the next ordinal; a RED
without WAIT has every source ready; SWAP issues at once. The range of an instruction is one span for all its plain operands, and the spans of R191
beside it; that such a span counts as written when one of its operands is, is the model's reading of R98 (log 171). -/
def Obligations.EngineInstructionsIssue : Prop :=
  (∀ (s : State) (t p : Nat) (i : Insn) (el sc : List (Nat × Nat)), s.atInsn t p opLdb i = true →
    el = ((s.tile p).opnd i.opd0).segs 0 (32 * fmtBytes (i.arg 0 3)) →
    sc = (if i.arg 0 3 = 5 then [] else ((s.tile p).opnd i.opd1).segs 0 32) →
    ((s.tile p).clearOf (el ++ sc) [] = true → exec (.ldb t .pass) s =
      .next (s.issueOp t p ((s.tile p).mkOp i 0 (el ++ sc) [] (rowCount el + rowCount sc) 2))) ∧
    ((s.tile p).clearOf (el ++ sc) [] = false → exec (.ldb t .pass) s = .next s)) ∧
  (∀ (s : State) (t p : Nat) (i : Insn) (rd : List (Nat × Nat)), s.atInsn t p opMma i = true →
    rd = ((s.tile p).opnd i.opd0).segs 0 (4 * i.streamGroups * fmtBytes (i.arg 3 3)) ++
      (if i.arg 3 3 = 5 then [] else ((s.tile p).opnd i.opd1).segs 0 (4 * i.streamGroups)) →
    ((s.tile p).clearOf rd [] = true → ∃ u, u = s.issueOp t p ((s.tile p).mkOp i 0 rd []
        (mmaOccupancy i.streamGroups (i.arg 3 3) ((s.tile p).bankFor i).fmt (s.flag Fld.tileArrayStrand t)) 14) ∧
      exec (.mma t) s = .next (u.setTile p { u.tile p with ordinal := (s.tile p).ordinal + 1 })) ∧
    ((s.tile p).clearOf rd [] = false → exec (.mma t) s = .next s)) ∧
  (∀ (s : State) (t p : Nat) (i : Insn) (o : List (Nat × Nat) × List (Nat × Nat)) (r : List (Nat × Nat)), s.atInsn t p opDrain i = true →
    o = i.drainOut ((s.tile p).opnd i.opd0) ((s.tile p).opnd i.opd1) i.drainGroups →
    r = (if i.argBit 9 then ((s.tile p).opnd i.opd2).segs 0 256 else []) →
    ((s.tile p).clearOf r (o.1 ++ o.2 ++ r) = true → exec (.drain t) s =
      .next (s.issueOp t p ((s.tile p).mkOp i 0 r (o.1 ++ o.2 ++ r) (i.drainGroups * drainDepth i) 6))) ∧
    ((s.tile p).clearOf r (o.1 ++ o.2 ++ r) = false → exec (.drain t) s = .next s)) ∧
  (∀ (s : State) (t p : Nat) (i : Insn) (rd : List (Nat × Nat)), s.atInsn t p opRed i = true →
    rd = ((s.tile p).opnd i.opd0).segs 0 (redSources i * i.redBytes) →
    ((s.tile p).clearOf rd [] = true → ∃ u, u = s.issueOp t p { (s.tile p).mkOp i 0 rd []
        (redSources i * i.streamGroups * (if i.redFmt = 7 then 4 else 2)) 4 with
        ready := if i.wait then [] else List.range (redSources i) } ∧
      exec (.red t) s = .next (u.setTile p { u.tile p with ordinal := (s.tile p).ordinal + 1 })) ∧
    ((s.tile p).clearOf rd [] = false → exec (.red t) s = .next s)) ∧
  (∀ (s : State) (t p : Nat) (i : Insn), s.atInsn t p opSwap i = true →
    exec (.swap t) s = .next (s.issueOp t p ((s.tile p).mkOp i 0 [] [] 0 0)))

/-- SWAP_EXCHANGE, with a swap that has not exchanged at the front of the stream path and no earlier LDB in flight: the active and the shadow bank change
places. RED_SOURCE_ADD of a source that may be added (ready, and in ascending order unless ORDER_FREE), the accumulator free: the RED takes that
source from row group 0; a source taken ahead of a lower-indexed one adds one to FREEORD and sets NOTES.TDCC of the launch; one taken in order does
neither. That a RED adds source by source, each from its first row group, is the model's reading of R112 (log 38). -/
def Obligations.SwapAndRedSourceAdvanceTheStreamPath : Prop :=
  (∀ (s : State) (t p : Nat) (x : Op), s.acts t p = true → (s.tile p).streamFront = some x → x.insn.swaps = true → x.swapped = false →
    ((s.tile p).before x).all (fun y => y.insn.opc.toNat != opLdb) = true →
    exec (.swapExchange t) s = .next (s.setTile p
      (({ s.tile p with active := (s.tile p).shadow, shadow := (s.tile p).active }).modOp x.id
        (fun y => { y with swapped := true, done := y.insn.opc.toNat == opSwap })))) ∧
  (∀ (s : State) (t p n : Nat) (x : Op) (q : Part) (u : State), n < 16 → s.acts t p = true → (s.tile p).streamFront = some x → (s.tile p).part = some q →
    x.mayAdd n = true → (s.tile p).accFree x = true →
    u = s.setTile p (((s.tile p).stepped s.tally).modOp x.id (fun y => { y with source := some n, group := 0 })) →
    ((List.range n).all (fun m => x.added.contains m) = true → exec (.redSourceAdd t n) s = .next u) ∧
    ((List.range n).all (fun m => x.added.contains m) = false →
      exec (.redSourceAdd t n) s = .next ((u.bump Fld.tileTdccFreeord t 1).addNote q.item noteTdcc)))

/-- An MMA at the front of the stream path that may commit its row group g, its check passed and no storage error found, in a state in canonical form:
exec answers a state in which, for each of the four rows r and 32 columns n, the accumulator element of row 4(FIRST + g) + r is the sum, in W34, of
its old value (zero with ZERO) and the group value of the streamed row and column n of the active bank; every other accumulator element, the
scratchpad, the vector buffers and every other tile are as before, and only tiles, register fields, items and the activity counts change. The row
group is marked exactly when the instruction has read a marked unit (a streamed unit, the bank, or, without ZERO, a row group that it adds to), and
then the launch has consumed poison; that one marked unit marks the whole instruction is R392's. -/
def Obligations.MmaRowGroupAddsProducts : Prop :=
  ∀ (s : State) (t p : Nat) (x : Op) (q : Part), s.canonical = true → s.acts t p = true →
    (s.tile p).groupFront .stream = some x → (s.tile p).part = some q → x.insn.opc.toNat = opMma →
    ∃ u, exec (.rowGroupCommit t .stream .pass []) s = .next u ∧
      u = { s with tiles := u.tiles, regs := u.regs, items := u.items, power := u.power } ∧ (∀ k, k ≠ p → u.tile k = s.tile k) ∧
      (u.tile p).spad = (s.tile p).spad ∧ (u.tile p).vbuf = (s.tile p).vbuf ∧
      (∀ r n, r < 4 → n < 32 →
        Tab.get 0 (u.tile p).acc (accIdx x.insn.acc (4 * (x.insn.streamFirst + x.group) + r) n) =
          toW34 (Val.add (if x.insn.argBit 6 then Val.zero
              else ofW34 (Tab.get 0 (s.tile p).acc (accIdx x.insn.acc (4 * (x.insn.streamFirst + x.group) + r) n)))
            (groupValue (Fmt.ofCode (x.insn.arg 3 3)).mbits (Fmt.ofCode (s.tile p).active.fmt).mbits
              ((s.tile p).streamRow x (4 * x.group + r)).2 ((s.tile p).active.column n).2
              ((s.tile p).streamRow x (4 * x.group + r)).1 ((s.tile p).active.column n).1))
            (privWord q x.insn.acc x.ordinal (4 * (x.insn.streamFirst + x.group) + r) n)) ∧
      (∀ k, (∀ r n, r < 4 → n < 32 → k ≠ accIdx x.insn.acc (4 * (x.insn.streamFirst + x.group) + r) n) →
        Tab.get 0 (u.tile p).acc k = Tab.get 0 (s.tile p).acc k) ∧
      (∃ m : Bool, m = (x.marked || (s.tile p).markedSegs x.reads || (s.tile p).active.mark ||
          (!x.insn.argBit 6 && (s.tile p).accMarked x.insn.acc x.insn.streamFirst x.insn.streamGroups)) ∧
        Tab.get false (u.tile p).accMarks (accMarkIdx x.insn.acc (x.insn.streamFirst + x.group)) = m ∧
        (m = true → ∀ i, u.item q.item = some i → stPoison ∈ i.statuses))

/-- With no storage error found: the row group of the RED at the front of the stream path (its source taken) adds its source's four rows into 128
accumulator elements in W34, marks the row group when the instruction has read a marked unit, and changes no other element; the row group of the DRAIN
at the front of the drain path (plain operands, no statistics record, its outputs apart) writes the four converted rows, and their scales or lo parts,
and no other byte of the scratchpad, sets the accumulator rows to +0 with CLEAR and counts 128 in HEALTH. A mod-255 residue detects every error that
is not a multiple of 255: then, and on a parity error, nothing is committed: the mismatch counts in RESIDUE, or the parity error in PATH_PAR, and it
is handled by where it is located, in the facet array only for an MMA: that reading of R387 and R390 is log 169, and what a check finds is an operand
(log 166). An error that is a multiple of 255 commits as a check that passes. -/
def Obligations.RowGroupCommitsAndChecks : Prop :=
  (∀ (s : State) (t p src : Nat) (x : Op) (q : Part), s.canonical = true → s.acts t p = true → (s.tile p).groupFront .stream = some x →
    (s.tile p).part = some q → x.insn.opc.toNat = opRed → x.source = some src →
    ∃ u, exec (.rowGroupCommit t .stream .pass []) s = .next u ∧
      u = { s with tiles := u.tiles, regs := u.regs, items := u.items, power := u.power } ∧ (∀ k, k ≠ p → u.tile k = s.tile k) ∧
      (u.tile p).spad = (s.tile p).spad ∧ (u.tile p).vbuf = (s.tile p).vbuf ∧
      (∀ r n, r < 4 → n < 32 →
        Tab.get 0 (u.tile p).acc (accIdx x.insn.acc (4 * (x.insn.streamFirst + x.group) + r) n) =
          toW34 (Val.add (ofW34 (Tab.get 0 (s.tile p).acc (accIdx x.insn.acc (4 * (x.insn.streamFirst + x.group) + r) n)))
            ((Fmt.ofCode x.insn.redFmt).decode ((rowCodes ((s.tile p).sread (x.opnd (s.tile p) 0)
              (src * x.insn.redBytes + (4 * x.group + r) * fmtBytes x.insn.redFmt) (fmtBytes x.insn.redFmt)) x.insn.redFmt).getD n 0 %
              2 ^ (if x.insn.redFmt = 7 then 34 else 32))))
            (privWord q x.insn.acc x.ordinal (4 * (x.insn.streamFirst + x.group) + r) n)) ∧
      (∀ k, (∀ r n, r < 4 → n < 32 → k ≠ accIdx x.insn.acc (4 * (x.insn.streamFirst + x.group) + r) n) →
        Tab.get 0 (u.tile p).acc k = Tab.get 0 (s.tile p).acc k) ∧
      ((s.tile p).markedSegs ((x.opnd (s.tile p) 0).segs (src * x.insn.redBytes) x.insn.redBytes) = true →
        Tab.get false (u.tile p).accMarks (accMarkIdx x.insn.acc (x.insn.streamFirst + x.group)) = true)) ∧
  (∀ (s : State) (t p fmt e e1 a b : Nat) (two : Bool) (w : Nat → List W34) (x : Op) (q : Part), s.canonical = true → s.acts t p = true →
    (s.tile p).groupFront .drain = some x → (s.tile p).part = some q → x.insn.opc.toNat = opDrain → x.insn.argBit 9 = false →
    (x.opnd (s.tile p) 0).region = none → (x.opnd (s.tile p) 1).region = none →
    fmt = x.insn.arg 3 4 → e = fmtBytes fmt → e1 = (if fmtScaled fmt then 1 else e) → two = (fmtScaled fmt || x.insn.argBit 8) →
    a = (x.opnd (s.tile p) 0).ea + 4 * x.group * e → b = (x.opnd (s.tile p) 1).ea + 4 * x.group * e1 →
    (two = true → a + 4 * e ≤ b ∨ b + 4 * e1 ≤ a) →
    w = (fun r => (List.range 32).map (fun n => Tab.get 0 (s.tile p).acc (accIdx x.insn.acc (4 * (x.insn.drainFirst + x.group) + r) n))) →
    ∃ u, exec (.rowGroupCommit t .drain .pass []) s = .next u ∧
      u = { s with tiles := u.tiles, regs := u.regs, items := u.items, power := u.power } ∧ (∀ k, k ≠ p → u.tile k = s.tile k) ∧
      (u.tile p).vbuf = (s.tile p).vbuf ∧
      (∀ r, r < 4 → Mem.readRange (u.tile p).spad (a + r * e) e = (drainRow fmt (x.insn.argBit 8) (w r)).1 ∧
        (two = true → Mem.readRange (u.tile p).spad (b + r * e1) e1 = (drainRow fmt (x.insn.argBit 8) (w r)).2.1)) ∧
      (∀ k, (k < a ∨ a + 4 * e ≤ k) → (two = true → k < b ∨ b + 4 * e1 ≤ k) → Mem.read (u.tile p).spad k = Mem.read (s.tile p).spad k) ∧
      (∀ k, Tab.get 0 (u.tile p).acc k = (if x.insn.argBit 7 ∧ accIdx x.insn.acc (4 * (x.insn.drainFirst + x.group)) 0 ≤ k ∧
        k < accIdx x.insn.acc (4 * (x.insn.drainFirst + x.group)) 0 + 128 then 0 else Tab.get 0 (s.tile p).acc k)) ∧
      u.fld Fld.tileHealthCount t = s.counted Fld.tileHealthCount t 128) ∧
  (∀ (s : State) (t p : Nat) (path : Path) (x : Op) (q : Part) (err : Int), s.acts t p = true → (s.tile p).groupFront path = some x → (s.tile p).part = some q →
    (∀ a : Bool, exec (.rowGroupCommit t path (.residue err a) []) s = (if err % 255 = 0 then exec (.rowGroupCommit t path .pass []) s
      else .next (if a && x.insn.opc.toNat == opMma && !(s.bump Fld.tileRasResidue t 1).flag Fld.tileArrayStrand t && (s.bump Fld.tileRasResidue t 1).pickSpare.isNone
        then (s.bump Fld.tileRasResidue t 1).arrayFence t p else (s.bump Fld.tileRasResidue t 1).tileFault t p false false))) ∧
    exec (.rowGroupCommit t path (.parity false) []) s = .next ((s.bump Fld.tileStoreErrPathPar t 1).tileFault t p false false) ∧
    (x.insn.opc.toNat = opMma → (s.bump Fld.tileStoreErrPathPar t 1).flag Fld.tileArrayStrand t = false → (s.bump Fld.tileStoreErrPathPar t 1).pickSpare = none →
      exec (.rowGroupCommit t path (.parity true) []) s = .next ((s.bump Fld.tileStoreErrPathPar t 1).arrayFence t p)))

/-- INSTRUCTION_COMPLETE of an operation in flight whose results are written, with room for its signal, completes it; of an LDB that may load, the shadow
bank takes the block read and the operation completes, and a marked block counts as poison consumed. TILE_PART_END, with END issued and nothing in
flight and every matched transfer taken: the part ends; the launch ends with its last part, and otherwise runs on with one board tile fewer. A part
with an operation or DMA entry left does not end. -/
def Obligations.OperationsCompleteAndPartsEnd : Prop :=
  (∀ (s : State) (t p op : Nat) (x : Op), s.acts t p = true → (s.tile p).ops.find? (fun y => y.id == op) = some x →
    (s.tile p).signalRoom x.insn = true → x.insn.opc.toNat ≠ opLdb → x.done = true →
    exec (.instructionComplete t op) s = .next (s.completeOp t p x)) ∧
  (∀ (s : State) (t p op : Nat) (x : Op) (q : Part), s.acts t p = true → (s.tile p).ops.find? (fun y => y.id == op) = some x →
    (s.tile p).signalRoom x.insn = true → x.insn.opc.toNat = opLdb → (s.tile p).loadReady x = true → (s.tile p).part = some q →
    exec (.instructionComplete t op) s =
      .next ((((s.engineAccess t p (s.tile p) x.reads []).setTile p ((s.tile p).loadShadow x)).consumed q.item
        ((s.tile p).loadShadow x).shadow.mark).completeOp t p x)) ∧
  (∀ (s : State) (t p : Nat) (q : Part) (i : Item) (l : Launch) (u : State), s.acts t p = true → (s.tile p).part = some q → (s.tile p).partOver = true →
    s.landings.any (fun l => l.item == q.item && l.tile == t && l.counted < l.acked.length) = false →
    u = (s.endPart t p).modItem q.item (fun i => { i with launch := i.launch.map (fun l => { l with tiles := l.tiles.erase q.boardTile }) }) →
    u.item q.item = some i → i.phase = .running → i.launch = some l →
    (l.tiles = [] → exec (.tilePartEnd t) s = .next (u.endItem q.item)) ∧ (l.tiles ≠ [] → exec (.tilePartEnd t) s = .next u)) ∧
  (∀ (s : State) (t p : Nat), s.acts t p = true → (s.tile p).partOver = false → exec (.tilePartEnd t) s = .next s)

/-- For each instruction named, from every state in canonical form in which it may issue (its check passed): exec answers a next state in which each
active element of the destination is the FP32 result of the rule (sum, difference, product, fused product and sum with one rounding, maximum, minimum,
sign change, copy without a NaN payload (R118), index plus scalar), a predicated element is +0 with MZERO and keeps its value without; the units of
the destination are marked when a marked unit was read and cleared where they are written wholly otherwise (R392); no other byte of the vector
buffers, no other storage and no other tile changes (laneRow). That a moved NaN becomes the canonical one is the model's reading of R118 (log 173). -/
def Obligations.LaneArithmeticWritesActiveElements : Prop :=
  laneRow .vmov 0x42 (fun _ _ _ => True) Tile.lane (fun s tl i => (s.reads1 tl i, [], false)) (fun _ tl i k => quiet (tl.word (tl.vaddr i.opd1) k)) ∧
  laneRow .viota 0x45 (fun _ _ _ => True) Tile.lane (fun _ tl i => ([(tl.vaddr i.opd2, 4)], [], false)) (fun _ tl i k => (f32Sat (Val.add (.fin false k 0) (ofF32 (tl.word (tl.vaddr i.opd2) 0)))).1) ∧
  laneRow .vadd 0x48 (fun _ _ _ => True) Tile.lane (fun s tl i => (s.reads2 tl i, [], false)) (fun _ tl i k => (f32Sat (Val.add (ofF32 (tl.word (tl.vaddr i.opd1) k)) (ofF32 (tl.src2 i k)))).1) ∧
  laneRow .vsub 0x49 (fun _ _ _ => True) Tile.lane (fun s tl i => (s.reads2 tl i, [], false)) (fun _ tl i k => (f32Sat (Val.add (ofF32 (tl.word (tl.vaddr i.opd1) k)) (ofF32 (tl.src2 i k)).neg)).1) ∧
  laneRow .vmul 0x4A (fun _ _ _ => True) Tile.lane (fun s tl i => (s.reads2 tl i, [], false)) (fun _ tl i k => (f32Sat (Val.mul (ofF32 (tl.word (tl.vaddr i.opd1) k)) (ofF32 (tl.src2 i k)))).1) ∧
  laneRow .vfma 0x4B (fun _ _ _ => True) Tile.lane
    (fun s tl i => (s.reads2 tl i ++ [(tl.vaddr i.opd0, 4 * s.vcount tl i)], [], false)) (fun _ tl i k => (f32Sat (Val.add (Val.mul (ofF32 (tl.word (tl.vaddr i.opd1) k)) (ofF32 (tl.src2 i k)))
    (ofF32 (tl.word (tl.vaddr i.opd0) k)))).1) ∧
  laneRow .vmax 0x4C (fun _ _ _ => True) Tile.lane (fun s tl i => (s.reads2 tl i, [], false)) (fun _ tl i k => (vmaxOp (tl.word (tl.vaddr i.opd1) k) (tl.src2 i k)).1) ∧
  laneRow .vmin 0x4D (fun _ _ _ => True) Tile.lane (fun s tl i => (s.reads2 tl i, [], false)) (fun _ tl i k => (vminOp (tl.word (tl.vaddr i.opd1) k) (tl.src2 i k)).1) ∧
  laneRow .vneg 0x4E (fun _ _ _ => True) Tile.lane (fun s tl i => (s.reads1 tl i, [], false)) (fun _ tl i k =>
    if ofF32 (tl.word (tl.vaddr i.opd1) k) = .nan then 0x7FC00000 else tl.word (tl.vaddr i.opd1) k ^^^ 0x80000000) ∧
  laneRow .vabs 0x4F (fun _ _ _ => True) Tile.lane (fun s tl i => (s.reads1 tl i, [], false)) (fun _ tl i k =>
    if ofF32 (tl.word (tl.vaddr i.opd1) k) = .nan then 0x7FC00000 else tl.word (tl.vaddr i.opd1) k &&& 0x7FFFFFFF)

/-- As for lane arithmetic, from every state in canonical form in which the instruction may issue: VSEL writes the first source where the mask bit is 1
and the second elsewhere, with no NaN payload (R118); VSF writes the special function (native, or the Zorli's when the board asks); VRMSN writes x
divided by the root of the record's mean square plus epsilon; VLD, with no conflicting operation in flight, writes the FP32 value of each scratchpad
element, times its block's scale in the MX formats. That VSEL moves no NaN payload is log 173, and the grid on which the special functions round is
log 14 (PRESUMED): both are the model's. -/
def Obligations.LaneFunctionsWriteActiveElements : Prop :=
  laneRow .vsel 0x51 (fun _ _ _ => True) (fun _ _ _ => true) (fun s tl i => (s.reads2 tl i, [], false))
    (fun _ tl i k => quiet (if tl.lane i k then tl.word (tl.vaddr i.opd1) k else tl.src2 i k)) ∧
  laneRow .vsf 0x58 (fun _ _ _ => True) Tile.lane (fun s tl i => (s.reads1 tl i, [], false)) (fun _ tl i k =>
    if (tl.part.map (·.zorli)).getD false then (sfZorli (i.arg 21 4) (tl.word (tl.vaddr i.opd1) k)).1
    else (sfNative (i.arg 21 4) (tl.word (tl.vaddr i.opd1) k)).1) ∧
  laneRow .vrmsn 0x61 (fun _ _ _ => True) Tile.lane (fun s tl i => (s.reads1 tl i ++ [(tl.vaddr i.opd2 + 0x10, 12)], [], false)) (fun _ tl i k =>
    (rmsQuot (sqrtW34 (ofW34 (w34Add (tl.vw34 (tl.vaddr i.opd2 + 0x10)) (toW34 (ofF32 (tl.word (tl.vaddr i.opd2 + 0x18) 0))))))
      (ofF32 (tl.word (tl.vaddr i.opd1) k))).1) ∧
  laneRow .vld 0x40 (fun s tl i => tl.clearOf ((tl.opnd i.opd1).segs 0 (spanBytes (i.arg 21 3) (s.vcount tl i)) ++
      (if fmtScaled (i.arg 21 3) then (tl.opnd i.opd2).segs 0 (ceilDiv (s.vcount tl i) 32) else [])) [] = true) Tile.lane
    (fun s tl i => ([], (tl.opnd i.opd1).segs 0 (spanBytes (i.arg 21 3) (s.vcount tl i)) ++
      (if fmtScaled (i.arg 21 3) then (tl.opnd i.opd2).segs 0 (ceilDiv (s.vcount tl i) 32) else []), false))
    (fun s tl i k => (f32Sat (
      if fmtScaled (i.arg 21 3) then scaled ((Fmt.ofCode (i.arg 21 3)).decode ((rowCodes (tl.sread (tl.opnd i.opd1)
          (k / 32 * fmtBytes (i.arg 21 3)) (fmtBytes (i.arg 21 3))) (i.arg 21 3)).getD (k % 32) 0))
        ((tl.sread (tl.opnd i.opd2) 0 (ceilDiv (s.vcount tl i) 32)).getD (k / 32) 0).toNat
      else scaled ((Fmt.ofCode (i.arg 21 3)).decode
        (leNat (tl.sread (tl.opnd i.opd1) (k * (fmtBits (i.arg 21 3) / 8)) (fmtBits (i.arg 21 3) / 8)) %
          2 ^ (if i.arg 21 3 = 7 then 34 else fmtBits (i.arg 21 3)))) 127)).1)

/-- From every state in canonical form in which the instruction may issue with N above 0 (at most 8,192): VCMP sets bit k of MDST to the condition where
the element is active, clears it with MZERO where not, and otherwise keeps it; VMLD, with no conflicting operation in flight, sets bit k to bit k of
the scratchpad bytes. Bits at or above N, every other mask register, the buffers, the scratchpad, the accumulators, the locket and every other tile
keep their values. MDST is marked when a marked unit was read, and loses its mark when unmarked data writes all of it (R392). -/
def Obligations.MaskInstructionsWriteMaskBits : Prop :=
  (∀ (s : State) (t p : Nat) (i : Insn), s.canonical = true → s.atInsn t p 0x50 i = true →
    0 < s.vcount (s.tile p) i → s.vcount (s.tile p) i ≤ 8192 →
    ∃ u, exec (.vcmp t .pass) s = .next u ∧ s.oneTile u p ∧
      (∀ k, k < s.vcount (s.tile p) i → ((u.tile p).maskReg i.mdst).getLsbD k =
        if (s.tile p).lane i k then cmpCond (i.arg 21 3) ((s.tile p).word ((s.tile p).vaddr i.opd1) k) ((s.tile p).src2 i k)
        else if i.mzero then false else ((s.tile p).maskReg i.mdst).getLsbD k) ∧
      (∀ k, s.vcount (s.tile p) i ≤ k → ((u.tile p).maskReg i.mdst).getLsbD k = ((s.tile p).maskReg i.mdst).getLsbD k) ∧
      (∀ m, m ≠ i.mdst → (u.tile p).maskReg m = (s.tile p).maskReg m) ∧ (u.tile p).vbuf = (s.tile p).vbuf ∧ (u.tile p).spad = (s.tile p).spad ∧
      (u.tile p).acc = (s.tile p).acc ∧ (u.tile p).locket = (s.tile p).locket ∧
      ((s.tile p).readsMark i (s.vcount (s.tile p) i) (s.reads2 (s.tile p) i) [] = true → Tab.get false (u.tile p).maskMarks i.mdst = true) ∧
      ((s.tile p).readsMark i (s.vcount (s.tile p) i) (s.reads2 (s.tile p) i) [] = false → Tab.get false (u.tile p).maskMarks i.mdst =
        (if s.vcount (s.tile p) i == 8192 && (List.range 8192).all (fun k => (s.tile p).lane i k || i.mzero) then false
          else Tab.get false (s.tile p).maskMarks i.mdst))) ∧
  (∀ (s : State) (t p : Nat) (i : Insn), s.canonical = true → s.atInsn t p 0x43 i = true →
    0 < s.vcount (s.tile p) i → s.vcount (s.tile p) i ≤ 8192 →
    (s.tile p).clearOf (((s.tile p).opnd i.opd1).segs 0 (ceilDiv (s.vcount (s.tile p) i) 8)) [] = true →
    ∃ u, exec (.vmld t .pass) s = .next u ∧ s.oneTile u p ∧
      (∀ k, k < s.vcount (s.tile p) i → ((u.tile p).maskReg i.mdst).getLsbD k =
        bitOf (leNat ((s.tile p).sread ((s.tile p).opnd i.opd1) 0 (ceilDiv (s.vcount (s.tile p) i) 8))) k) ∧
      (∀ k, s.vcount (s.tile p) i ≤ k → ((u.tile p).maskReg i.mdst).getLsbD k = ((s.tile p).maskReg i.mdst).getLsbD k) ∧
      (∀ m, m ≠ i.mdst → (u.tile p).maskReg m = (s.tile p).maskReg m) ∧ (u.tile p).vbuf = (s.tile p).vbuf ∧ (u.tile p).spad = (s.tile p).spad ∧
      (u.tile p).acc = (s.tile p).acc ∧ (u.tile p).locket = (s.tile p).locket ∧
      Tab.get false (u.tile p).maskMarks i.mdst =
        (if (s.tile p).markedSegs (((s.tile p).opnd i.opd1).segs 0 (ceilDiv (s.vcount (s.tile p) i) 8)) then true
          else if s.vcount (s.tile p) i = 8192 then false else Tab.get false (s.tile p).maskMarks i.mdst))

/-- From every state in canonical form in which the instruction may issue, with no conflicting operation in flight: VST in an unscaled format leaves the
scratchpad with the converted code of each active element at its address, +0 for the others with MZERO (sputElems), inside bangles and outside; VST in
an MX format writes whole blocks, with +0 for predicated elements, and their scales; VMST writes the mask bits below N; VRSTAT writes SUM, MEAN, MSQ
and the count of the active elements; VSMX writes the softmax of the row and its flag word; VUPD writes the updated weights of the active elements and
its record. Every other tile and every other storage of the tile keeps its value, and the units that VST and VMST write take the mark of what was
read. Which of two overlapping destinations is written last is log 174, RATIO of odd sums log 175, and the grid of the exponentials log 14: these are
the model's. -/
def Obligations.VectorStoresAndRecords : Prop :=
  (∀ (s : State) (t p : Nat) (i : Insn) (w : Nat) (vs : List Val) (el : List (Option Nat)), s.canonical = true → s.atInsn t p 0x41 i = true →
    fmtScaled (i.arg 21 3) = false → 0 < s.vcount (s.tile p) i → w = fmtBits (i.arg 21 3) / 8 →
    vs = ((s.tile p).vread ((s.tile p).vaddr i.opd1) (s.vcount (s.tile p) i)).map ofF32 →
    el = List.zipWith (fun on v => if on then some ((Fmt.ofCode (i.arg 21 3)).encode v).1 else if i.mzero then some 0 else none)
      ((s.tile p).actives i (s.vcount (s.tile p) i)) vs →
    (s.tile p).clearOf [] (((s.tile p).opnd i.opd0).runRange w (el.map Option.isSome)) = true →
    ∃ u, exec (.vst t .pass) s = .next u ∧ s.oneTile u p ∧ (u.tile p).vbuf = (s.tile p).vbuf ∧ (s.tile p).keeps (u.tile p) ∧
      (u.tile p).spad = ((s.tile p).sputElems ((s.tile p).opnd i.opd0) w 0 el).spad ∧
      (u.tile p).spadMarks = ((s.tile p).markSegs (((s.tile p).opnd i.opd0).runSegs w (el.map Option.isSome))
        ((s.tile p).readsMark i (s.vcount (s.tile p) i) (s.reads1 (s.tile p) i) [])).spadMarks) ∧
  (∀ (s : State) (t p nb : Nat) (i : Insn) (vals : List Val) (rows : List (Nat × List Nat × ConvStats)) (data : List Byte), s.canonical = true →
    s.atInsn t p 0x41 i = true → fmtScaled (i.arg 21 3) = true → 0 < s.vcount (s.tile p) i → nb = ceilDiv (s.vcount (s.tile p) i) 32 →
    vals = List.zipWith (fun on v => if on then v else .zero) ((s.tile p).actives i (s.vcount (s.tile p) i))
      (((s.tile p).vread ((s.tile p).vaddr i.opd1) (s.vcount (s.tile p) i)).map ofF32) ++ List.replicate (32 * nb - s.vcount (s.tile p) i) .zero →
    rows = (blocks32 nb vals).map (mxRow (Fmt.ofCode (i.arg 21 3))) → data = rows.flatMap (fun r => rowBytes r.2.1 (i.arg 21 3)) →
    (s.tile p).clearOf [] (((s.tile p).opnd i.opd0).segs 0 data.length ++ ((s.tile p).opnd i.opd2).segs 0 nb) = true →
    ∃ u, exec (.vst t .pass) s = .next u ∧ s.oneTile u p ∧ (u.tile p).vbuf = (s.tile p).vbuf ∧ (s.tile p).keeps (u.tile p) ∧
      (u.tile p).spad = (((s.tile p).sput ((s.tile p).opnd i.opd0) 0 data).sput ((s.tile p).opnd i.opd2) 0
        (rows.map (fun r => BitVec.ofNat 8 r.1))).spad ∧
      (u.tile p).spadMarks = ((s.tile p).markSegs (((s.tile p).opnd i.opd0).segs 0 data.length ++ ((s.tile p).opnd i.opd2).segs 0 nb)
        ((s.tile p).readsMark i (s.vcount (s.tile p) i) (s.reads1 (s.tile p) i) [])).spadMarks) ∧
  (∀ (s : State) (t p : Nat) (i : Insn) (n : Nat), s.canonical = true → s.atInsn t p 0x44 i = true → n = s.vcount (s.tile p) i →
    (s.tile p).clearOf [] (((s.tile p).opnd i.opd0).segs 0 (ceilDiv n 8)) = true →
    ∃ u, exec (.vmst t .pass) s = .next u ∧ s.oneTile u p ∧ (u.tile p).vbuf = (s.tile p).vbuf ∧ (s.tile p).keeps (u.tile p) ∧
      (u.tile p).spadMarks = ((s.tile p).markSegs (((s.tile p).opnd i.opd0).segs 0 (ceilDiv n 8)) (n != 0 && Tab.get false (s.tile p).maskMarks i.mdst)).spadMarks ∧
      (u.tile p).spad = ((s.tile p).sput ((s.tile p).opnd i.opd0) 0
        (leBytes (ceilDiv n 8) (((s.tile p).maskReg i.mdst).toNat % 2 ^ n))).spad) ∧
  (∀ (s : State) (t p : Nat) (i : Insn) (d : Nat) (vs : List Val), s.canonical = true → s.atInsn t p 0x60 i = true → d = (s.tile p).vaddr i.opd0 →
    vs = activeVals ((s.tile p).actives i (s.vcount (s.tile p) i)) ((s.tile p).vread ((s.tile p).vaddr i.opd1) (s.vcount (s.tile p) i)) →
    ∃ u, exec (.vrstat t .pass) s = .next u ∧ s.oneTile u p ∧ (u.tile p).spad = (s.tile p).spad ∧ (s.tile p).keeps (u.tile p) ∧
      (u.tile p).vbuf = Mem.writeRange (Mem.writeRange (s.tile p).vbuf d (leBytes 8 (rowStats vs).1.toNat ++ leBytes 8 (rowStats vs).2.1.toNat ++
        leBytes 8 (rowStats vs).2.2.toNat)) (d + 0x1C) (leBytes 4 vs.length)) ∧
  (∀ (s : State) (t p : Nat) (i : Insn) (r : SmxOut), s.canonical = true → s.atInsn t p 0x68 i = true →
    r = softmaxRow ((s.tile p).word ((s.tile p).vaddr i.opd2) 0) ((s.tile p).actives i (s.vcount (s.tile p) i))
      ((s.tile p).vread ((s.tile p).vaddr i.opd1) (s.vcount (s.tile p) i)) →
    ∃ u, exec (.vsmx t .pass) s = .next u ∧ s.oneTile u p ∧ (u.tile p).spad = (s.tile p).spad ∧ (s.tile p).keeps (u.tile p) ∧
      (u.tile p).vbuf = Mem.writeRange ((s.tile p).vput ((s.tile p).vaddr i.opd0) r.out).vbuf ((s.tile p).vaddr i.opd2 + 4) (leBytes 4 r.flags)) ∧
  (∀ (s : State) (t p : Nat) (i : Insn), s.canonical = true → s.atInsn t p 0x70 i = true → s.vcount (s.tile p) i = 0 →
    ∃ u, exec (.vupd t .pass) s = .next u ∧ s.oneTile u p ∧ (u.tile p).spad = (s.tile p).spad ∧ (u.tile p).vbuf = (s.tile p).vbuf ∧ (s.tile p).keeps (u.tile p)) ∧
  (∀ (s : State) (t p : Nat) (i : Insn) (w fmt : Nat) (o0 o2 : Opnd) (act : List Bool) (r0 : UpdRec) (r : UpdRec × List (Option (Nat × Bool))),
    s.canonical = true → s.atInsn t p 0x70 i = true → 0 < s.vcount (s.tile p) i → w = (if i.argBit 15 then 4 else 2) →
    fmt = (if i.argBit 15 then 6 else 5) → o0 = (s.tile p).opnd i.opd0 → o2 = (s.tile p).opnd i.opd2 →
    (s.tile p).ops = [] → act = (if i.argBit 30 then (List.range (s.vcount (s.tile p) i)).map ((s.tile p).maskReg 0).getLsbD
      else List.replicate (s.vcount (s.tile p) i) true) →
    r0 = { u2 := BitVec.ofNat 34 (leNat ((s.tile p).sread o2 0 8)), w2 := BitVec.ofNat 34 (leNat ((s.tile p).sread o2 8 8)),
           count := leNat ((s.tile p).sread o2 0x14 4), sats := leNat ((s.tile p).sread o2 0x18 4), skipped := leNat ((s.tile p).sread o2 0x1C 4) } →
    r = updAll (Fmt.ofCode fmt) (s.paramWord (s.tile p) (i.arg 16 14) % 2 ^ 31) (s.paramWord (s.tile p) (i.arg 16 14 + 1))
      (((s.paramWord (s.tile p) (i.arg 16 14 + 2) : Int) + (((o0.ea : Int) - opdBase i.opd0) / w)) % (2 ^ 32 : Nat)).toNat r0
      (List.zip act (List.zip ((s.tile p).elements o0 fmt (s.vcount (s.tile p) i)) ((s.tile p).vread ((s.tile p).vaddr i.opd1) (s.vcount (s.tile p) i)))) →
    ∃ u, exec (.vupd t .pass) s = .next u ∧ s.oneTile u p ∧ (u.tile p).vbuf = (s.tile p).vbuf ∧ (s.tile p).keeps (u.tile p) ∧
      (u.tile p).spad = (((s.tile p).sputElems o0 w 0 (r.2.map (fun x => x.map Prod.fst))).sput o2 0
        (leBytes 8 r.1.u2.toNat ++ leBytes 8 r.1.w2.toNat ++ leBytes 4 (updRatio (ofW34 r.1.u2) (ofW34 r.1.w2)).toNat ++
          leBytes 4 r.1.count ++ leBytes 4 r.1.sats ++ leBytes 4 r.1.skipped)).spad)

/-- DMA_ENTRY_START of an engine whose front entry has not started, once the prologue has issued and any wait is satisfied: the entry has started at
transfer 0. DMA_TRANSFER with no error found, of a started entry with transfers left: with none under way and room in its bangle, the next transfer
begins (its memory side is found, and OP 0 and 2 read it) and its first row is taken; with one under way and several rows left, its next row is
granted, counts a contention it meets, and is written for OP 0 and 2; with one row left and a memory side that is ready, that row is taken, the
transfer takes effect, the bangle pointers move and the transfer number rises by one. DMA_TRANSFER with a parity error on its path counts it and
faults the tile, and moves nothing. DMA_ENTRY_FINISH with every transfer done and room for the signal: the entry leaves the engine, its operation
returns, its object is signalled, and waiting entries are handed out. Before its conditions hold an entry does not start. A part of a transfer that
accesses device memory has its effect once every request it makes of memory is served (State.accepted: the state before it while one waits, log 16).
One row a command, in ascending order, is the model's reading of R182 (log 17, DEDUCED). -/
def Obligations.DmaEntriesStartTransferFinish : Prop :=
  (∀ (s : State) (t p e : Nat) (en : DmaEntry) (r : List DmaEntry), e < 4 → s.acts t p = true → ((s.tile p).engine e).entries = en :: r →
    ((s.tile p).engine e).started = false → (s.tile p).prologueDone = true →
    ((en.waits = false ∨ ((s.tile p).engine e).released = true) →
      exec (.dmaEntryStart t e) s = .next (s.setTile p ((s.tile p).setEngine e { (s.tile p).engine e with started := true, transfer := 0, moving := none }))) ∧
    (en.waits = true → ((s.tile p).engine e).released = false → exec (.dmaEntryStart t e) s = .next s)) ∧
  (∀ (s : State) (t p e : Nat) (en : DmaEntry) (i : Item) (r : Region) (d : Dma), e < 4 → s.acts t p = true →
    s.dmaNow (s.tile p) e = some (en, i, r) → d = (s.tile p).engine e → d.started = true → d.transfer < dmaCount i en r →
    (d.moving = none → (s.tile p).dmaRoom en = true → exec (.dmaTransfer t e .pass) s =
      .next (s.accepted (let b := s.dmaBegin i en r d.transfer ((s.tile p).dmaSegs en d.transfer)
        b.2.dmaRow t p e (b.2.tile p) i en b.1))) ∧
    (∀ (m : Moving) (g : Nat × Nat) (gs : List (Nat × Nat)) (u : State), d.moving = some m → m.rows = g :: gs →
      u = ((s.race t (s.tile p).part ((s.tile p).dmaRaces en g)).tileEvent p evRow 1).setTile p
        ((if en.fills then (s.tile p).fillRow m g else s.tile p).setEngine e { d with moving := some (m.past (s.tile p) en g) }) →
      (gs ≠ [] → exec (.dmaTransfer t e .pass) s = .next u) ∧
      (gs = [] → s.sideReady i.fn en m.side = true → exec (.dmaTransfer t e .pass) s =
        .next (s.accepted (u.dmaEnd t p e i en (m.past (s.tile p) en g))))) ∧
    (∀ inArray : Bool, d.moving.isSome = true ∨ (s.tile p).dmaRoom en = true → exec (.dmaTransfer t e (.parity inArray)) s =
      .next (s.accepted ((s.bump Fld.tileStoreErrPathPar t 1).tileFault t p false false)))) ∧
  (∀ (s : State) (t p e : Nat) (en : DmaEntry) (i : Item) (r : Region) (u : State), e < 4 → s.acts t p = true →
    s.dmaNow (s.tile p) e = some (en, i, r) → ((s.tile p).engine e).started = true → dmaCount i en r ≤ ((s.tile p).engine e).transfer →
    u = (s.setTile p ((s.tile p).setEngine e ⟨((s.tile p).engine e).entries.drop 1, false, false, 0, none⟩)).give 10 t 1 →
    (en.signals = false → exec (.dmaEntryFinish t e) s = .next (u.handOut t p)) ∧
    (en.signals = true → (s.tile p).signalFits en.signalSync 1 = true →
      exec (.dmaEntryFinish t e) s = .next ((u.signal t p en.signalSync 1).handOut t p)))

/-- On a tile that runs a part of a launch, for a bank below 64, with nothing found by the code and no mesh failure: a lone write request stores its
enabled bytes in its row and is the grant; a lone read changes only the bank's last grant (each is an activity event of the tile); two requests to
different rows, with no race, add one to BANKWAIT, and the one granted is the first requester after the last grant in rotation. An uncorrectable word
in the row counts in SP_UE, its unit is marked and the row goes to the bank's next spare row; with all four spare rows of the bank taken it is a tile
fault. A mesh flit that fails counts in PATH_PAR for each time, on a tile with no request waiting too; one that fails 16 times in a row is a fault of
the sending tile. Where the rotation starts (log 41) and that a row already on a spare row moves to the next one with its count of corrections from
zero again (log 170) are the model's. -/
def Obligations.BankGrantsOneRowAccess : Prop :=
  (∀ (s u : State) (t p b : Nat) (g : RowReq) (bytes : List (Nat × Byte)), s.acts t p = true → (s.tile p).part.isSome = true → b < 64 → g.wf = true → bankOf g.row = b →
    g.write = some bytes → bytes ≠ [] → s.raceAt t (s.tile p) [] g = false →
    u = (s.tileEvent p evRow 1).setTile p { s.tile p with lastGrant := Tab.set 8 (s.tile p).lastGrant b g.requester } →
    exec (.scratchpadRowAccess t b [g] ⟨[], 0, 0⟩) s = .next (u.setTile p ((u.tile p).writeRow g.row bytes))) ∧
  (∀ (s : State) (t p b : Nat) (g : RowReq), s.acts t p = true → (s.tile p).part.isSome = true → b < 64 → g.wf = true → bankOf g.row = b →
    g.write = none → s.raceAt t (s.tile p) [] g = false →
    exec (.scratchpadRowAccess t b [g] ⟨[], 0, 0⟩) s = .next ((s.tileEvent p evRow 1).setTile p
      { s.tile p with lastGrant := Tab.set 8 (s.tile p).lastGrant b g.requester })) ∧
  (∀ (s : State) (t p b : Nat) (g h : RowReq), s.acts t p = true → (s.tile p).part.isSome = true → b < 64 → g.wf = true → h.wf = true → bankOf g.row = b →
    bankOf h.row = b → g.row ≠ h.row → g.write = none → h.write = none → s.raceAt t (s.tile p) [h] g = false →
    grantee (Tab.get 8 (s.tile p).lastGrant b) [g, h] = some g →
    exec (.scratchpadRowAccess t b [g, h] ⟨[], 0, 0⟩) s = .next (((s.bump Fld.tileSpstatBankwait t 1).tileEvent p evRow 1).setTile p
      { s.tile p with lastGrant := Tab.set 8 (s.tile p).lastGrant b g.requester })) ∧
  (∀ (s u v : State) (t p b w : Nat) (g : RowReq), s.acts t p = true → (s.tile p).part.isSome = true → b < 64 → g.wf = true → bankOf g.row = b →
    g.write = none → s.raceAt t (s.tile p) [] g = false → w < 32 →
    u = (s.tileEvent p evRow 1).setTile p { s.tile p with lastGrant := Tab.set 8 (s.tile p).lastGrant b g.requester } →
    v = (u.bump Fld.tileRasSpUe t 1).setTile p ((u.tile p).markUnit (8 * g.row + w / 4)) →
    ((v.tile p).bankSpares b < 4 → exec (.scratchpadRowAccess t b [g] ⟨[(w, true)], 0, 0⟩) s =
      .next ((v.setTile p { v.tile p with
        rowSpare := Tab.set 0 (v.tile p).rowSpare g.row ((v.tile p).bankSpares b + 1), rowCorr := Tab.set 0 (v.tile p).rowCorr g.row 0 }).journal recRowSpare [p, b, g.row / 64, (v.tile p).bankSpares b])) ∧
    (4 ≤ (v.tile p).bankSpares b → exec (.scratchpadRowAccess t b [g] ⟨[(w, true)], 0, 0⟩) s = .next (v.tileFault t p false true))) ∧
  (∀ (s : State) (t p b m f : Nat), s.acts t p = true → b < 64 →
    (m < 16 → exec (.scratchpadRowAccess t b [] ⟨[], m, f⟩) s = .next (s.bump Fld.tileStoreErrPathPar t m)) ∧
    (∀ q : Nat, 16 ≤ m → s.physOf f = some q → exec (.scratchpadRowAccess t b [] ⟨[], m, f⟩) s =
      .next ((s.bump Fld.tileStoreErrPathPar t m).tileFault f q false false))) ∧
  (∀ (last : Nat) (reqs : List RowReq) (g : RowReq), grantee last reqs = some g →
    g ∈ reqs ∧ ∀ q ∈ reqs, q.requester < 9 → g.requester < 9 → (g.requester + 8 - last % 9) % 9 ≤ (q.requester + 8 - last % 9) % 9)

/-- For a tile whose launch binds the pool of the reference, in a state in canonical form, the check passed, no conflicting operation and no LKFL that it
waits for in flight: LKLOAD leaves the slot bound, with FILL the length modulo 32, LBASE the rest, and the image read from the scratchpad with the
columns from FILL on at +0; LKPUT of tokens that fit in the 32 columns leaves the image with each token's BF16 keys and values in its column, FILL
higher by the count, and a flush pending; LKRD stores the image; LKFL of a slot with nothing pending stores nothing. The other slot, the vector
buffers and every other tile keep their values (LKPUT, LKLOAD: the scratchpad too). What LKLOAD, LKPUT and LKRD write is marked when a unit they read
is (R392). LKFL has its effect once every request it makes of memory is served (R257, log 16: State.accepted); that a mask suppresses no flush is log
215. -/
def Obligations.LocketInstructionsActOnTheSlot : Prop :=
  (∀ (s : State) (t p : Nat) (i : Insn) (it : Item) (q : Nat × Pool) (len n : Nat) (o : Opnd), s.canonical = true →
    s.atInsn t p 0x90 i = true → (s.tile p).locketHeld i = false → s.partItem (s.tile p) = some it → s.refPool it (CacheRef.ofWord i.opd2) = some q →
    len = it.word (CacheRef.ofWord i.opd2).lenw → n = imageBytes q.2 → o = (s.tile p).opnd i.opd0 → (s.tile p).clearOf (o.segs 0 n) [] = true →
    ∃ u, exec (.lkload t .pass) s = .next u ∧ s.oneTile u p ∧ (u.tile p).spad = (s.tile p).spad ∧ (u.tile p).vbuf = (s.tile p).vbuf ∧
      (∀ k, k ≠ i.arg 0 1 → (u.tile p).slot k = (s.tile p).slot k) ∧
      (u.tile p).masks = (s.tile p).masks ∧ (u.tile p).acc = (s.tile p).acc ∧ (u.tile p).slot (i.arg 0 1) = ({
        bound := some (CacheRef.ofWord i.opd2)
        image := ((List.range (32 - len % 32)).flatMap (fun r => tokenSpans (q.2.heads * q.2.dim) (len % 32 + r))).foldl
          (fun m g => Mem.zero m g.1 g.2) (Mem.writeRange [] 0 ((s.tile p).sread o 0 n))
        marks := markSpan [] 0 n ((s.tile p).markedSegs (o.segs 0 n)), lbase := len - len % 32, fill := len % 32, from_ := len % 32, pendingFlush := false, dead := false } : Slot)) ∧
  (∀ (s : State) (t p cnt : Nat) (i : Insn) (it : Item) (c : CacheRef) (q : Nat × Pool) (x : Slot), s.canonical = true →
    s.atInsn t p 0x91 i = true → (s.tile p).locketHeld i = false → s.partItem (s.tile p) = some it → x = (s.tile p).slot (i.arg 0 1) → x.bound = some c → s.refPool it c = some q →
    cnt = i.arg 1 5 + 1 → x.dead = false → cnt ≤ 32 - x.fill →
    ∃ u, exec (.lkput t .pass) s = .next u ∧ s.oneTile u p ∧ (u.tile p).spad = (s.tile p).spad ∧ (u.tile p).vbuf = (s.tile p).vbuf ∧
      (∀ k, k ≠ i.arg 0 1 → (u.tile p).slot k = (s.tile p).slot k) ∧
      (u.tile p).masks = (s.tile p).masks ∧ (u.tile p).acc = (s.tile p).acc ∧ (u.tile p).slot (i.arg 0 1) = { x with
        fill := x.fill + cnt
        pendingFlush := true
        marks := ((List.range cnt).flatMap (fun k => tokenSpans (q.2.heads * q.2.dim) (x.fill + k))).foldl (fun m g => markSpan m g.1 g.2
          ((s.tile p).vmarked [((s.tile p).vaddr i.opd1, 4 * cnt * (q.2.heads * q.2.dim)), ((s.tile p).vaddr i.opd2, 4 * cnt * (q.2.heads * q.2.dim))])) x.marks
        image := (List.range cnt).foldl (fun m k => (putToken q.2 m (x.fill + k) k
          (fun e => (s.tile p).word ((s.tile p).vaddr i.opd1) e) (fun e => (s.tile p).word ((s.tile p).vaddr i.opd2) e)).1) x.image }) ∧
  (∀ (s : State) (t p n : Nat) (i : Insn) (it : Item) (c : CacheRef) (q : Nat × Pool) (o : Opnd), s.canonical = true →
    s.atInsn t p 0x92 i = true → (s.tile p).locketHeld i = false → s.partItem (s.tile p) = some it → ((s.tile p).slot (i.arg 0 1)).bound = some c → s.refPool it c = some q →
    n = imageBytes q.2 → o = (s.tile p).opnd i.opd0 → (s.tile p).clearOf [] (o.segs 0 n) = true →
    ∃ u, exec (.lkrd t .pass) s = .next u ∧ s.oneTile u p ∧ (u.tile p).vbuf = (s.tile p).vbuf ∧ (s.tile p).keeps (u.tile p) ∧
      (u.tile p).spadMarks = ((s.tile p).markSegs (o.segs 0 n) (((s.tile p).slot (i.arg 0 1)).marked n)).spadMarks ∧
      (u.tile p).spad = ((s.tile p).sput o 0 (Mem.readRange ((s.tile p).slot (i.arg 0 1)).image 0 n)).spad) ∧
  (∀ (s : State) (t p : Nat) (i : Insn) (it : Item) (c : CacheRef) (q : Nat × Pool) (x : Slot) (v : State), s.atInsn t p 0x93 i = true → (s.tile p).locketHeld i = false →
    s.partItem (s.tile p) = some it → x = (s.tile p).slot (i.arg 0 1) → x.bound = some c → s.refPool it c = some q →
    v = (if x.pendingFlush then s.flush t p (i.arg 0 1) it q x else s) →
    exec (.lkfl t .pass) s = .next (s.accepted (v.runEffect t p (v.tile p) i .pass
      { tile := v.tile p, occ := 2, lat := if x.fill = 32 then q.2.heads * q.2.dim else 0 })))

/-- From every state in canonical form in which the instruction may issue, its check passed: ROPET, with no conflicting operation in flight, sets entry k
of the angle table below N to the low 48 bits of the 8-byte entry and keeps the others; ROPE leaves the vector buffers with the rotated rows at the
destination; AMASK, N from 1 to 8,192, sets bit k of MDST exactly when p0 + k is below lambda; APSMX writes the softmax of the chunk, its flags and
its sum; AMERGE writes, for each active chunk, its sum divided by the sum of all active chunks added in ascending index (+0 or nothing for the
others), and its record. The other stores of the tile (Tile.keeps: masks, accumulators, banks, table, angles, locket, but for the one written) and
every other tile keep their values; what is written takes the mark of what was read (R392). Of these the model's: positions that wrap (log 44), bits
[63:48] of an angle entry (log 216), AMERGE's record with no chunk active (log 47), the write order of APSMX (log 174) and the exponentials' grid (log
14). -/
def Obligations.RotaryCodesAndAttentionMasks : Prop :=
  (∀ (s : State) (t p : Nat) (i : Insn), s.canonical = true → s.atInsn t p 0x94 i = true →
    (s.tile p).clearOf (((s.tile p).opnd i.opd1).segs 0 (8 * i.arg 0 9)) [] = true →
    ∃ u, exec (.ropet t .pass) s = .next u ∧ s.oneTile u p ∧ (u.tile p).spad = (s.tile p).spad ∧ (u.tile p).vbuf = (s.tile p).vbuf ∧
      (s.tile p).keeps { u.tile p with angle := (s.tile p).angle } ∧
      (let m := (s.tile p).markedSegs (((s.tile p).opnd i.opd1).segs 0 (8 * i.arg 0 9));
        (u.tile p).angleMark = if m || i.arg 0 9 == 128 then m else (s.tile p).angleMark) ∧
      (∀ k, Tab.get 0 (u.tile p).angle k = if k < i.arg 0 9 then BitVec.ofNat 48 (leNat ((s.tile p).sread ((s.tile p).opnd i.opd1) (8 * k) 6))
        else Tab.get 0 (s.tile p).angle k)) ∧
  (∀ (s : State) (t p : Nat) (i : Insn) (pos : Nat → Nat), s.canonical = true → s.atInsn t p 0x95 i = true →
    (∀ m, pos m = if i.argBit 19 then (Mem.readNat (s.tile p).vbuf ((s.tile p).vaddr i.opd2) 4 + m) % 2 ^ 32
      else Mem.readNat (s.tile p).vbuf ((s.tile p).vaddr i.opd2 + 4 * m) 4) →
    ∃ u, exec (.rope t .pass) s = .next u ∧ s.oneTile u p ∧ (u.tile p).spad = (s.tile p).spad ∧ (s.tile p).keeps (u.tile p) ∧
      (u.tile p).vbufMarks = markSpan (s.tile p).vbufMarks ((s.tile p).vaddr i.opd0) (4 * i.ropeDim * (i.arg 0 8 + 1)) ((s.tile p).angleMark ||
        (s.tile p).vmarked [((s.tile p).vaddr i.opd1, 4 * i.ropeDim * (i.arg 0 8 + 1)), ((s.tile p).vaddr i.opd2, if i.argBit 19 then 4 else 4 * (i.arg 0 8 + 1))]) ∧
      (u.tile p).vbuf = ((s.tile p).vput ((s.tile p).vaddr i.opd0) (((List.range (i.arg 0 8 + 1)).flatMap (fun m =>
        ropeRow i.ropeDim (i.arg 10 8) (i.argBit 18) ((List.range (i.arg 10 8)).map (fun k => rotation (pos m) (Tab.get 0 (s.tile p).angle k)))
          ((s.tile p).vread ((s.tile p).vaddr i.opd1 + 4 * i.ropeDim * m) i.ropeDim))).map (fun r => some r.1))).vbuf) ∧
  (∀ (s : State) (t p : Nat) (i : Insn), s.canonical = true → s.atInsn t p 0x96 i = true →
    0 < s.vcount (s.tile p) i → s.vcount (s.tile p) i ≤ 8192 →
    ∃ u, exec (.amask t .pass) s = .next u ∧ s.oneTile u p ∧ (u.tile p).spad = (s.tile p).spad ∧ (u.tile p).vbuf = (s.tile p).vbuf ∧
      (∀ k, k < s.vcount (s.tile p) i → ((u.tile p).maskReg i.mdst).getLsbD k =
        decide (Mem.readNat (s.tile p).vbuf ((s.tile p).vaddr i.opd1) 4 + k < Mem.readNat (s.tile p).vbuf ((s.tile p).vaddr i.opd2) 4)) ∧
      (∀ k, s.vcount (s.tile p) i ≤ k → ((u.tile p).maskReg i.mdst).getLsbD k = ((s.tile p).maskReg i.mdst).getLsbD k) ∧
      (∀ m, m ≠ i.mdst → (u.tile p).maskReg m = (s.tile p).maskReg m) ∧ (s.tile p).keeps { u.tile p with masks := (s.tile p).masks } ∧
      Tab.get false (u.tile p).maskMarks i.mdst = if (s.tile p).vmarked [((s.tile p).vaddr i.opd1, 4), ((s.tile p).vaddr i.opd2, 4)] then true
        else if s.vcount (s.tile p) i = 8192 then false else Tab.get false (s.tile p).maskMarks i.mdst) ∧
  (∀ (s : State) (t p : Nat) (i : Insn) (r : SmxOut), s.canonical = true → s.atInsn t p 0x97 i = true →
    r = softmaxRow ((s.tile p).word ((s.tile p).vaddr i.opd2) 0) ((s.tile p).actives i (s.vcount (s.tile p) i))
      ((s.tile p).vread ((s.tile p).vaddr i.opd1) (s.vcount (s.tile p) i)) →
    ∃ u, exec (.apsmx t .pass) s = .next u ∧ s.oneTile u p ∧ (u.tile p).spad = (s.tile p).spad ∧ (s.tile p).keeps (u.tile p) ∧
      (let m := (s.tile p).readsMark i (s.vcount (s.tile p) i) (s.reads1 (s.tile p) i ++ [((s.tile p).vaddr i.opd2, 4)]) [];
        (u.tile p).vbufMarks = markSpan (markSpan (s.tile p).vbufMarks ((s.tile p).vaddr i.opd0) (4 * s.vcount (s.tile p) i) m) ((s.tile p).vaddr i.opd2 + 4) 12 m) ∧
      (u.tile p).vbuf = Mem.writeRange (Mem.writeRange ((s.tile p).vput ((s.tile p).vaddr i.opd0) r.out).vbuf ((s.tile p).vaddr i.opd2 + 4) (leBytes 4 r.flags))
        ((s.tile p).vaddr i.opd2 + 8) (leBytes 8 r.sum.toNat)) ∧
  (∀ (s : State) (t p n a d c0 : Nat) (i : Insn) (act : List Bool) (recs on : List (W34 × Nat)) (sum : W34), s.canonical = true → s.atInsn t p 0x98 i = true →
    n = s.vcount (s.tile p) i → a = (s.tile p).vaddr i.opd1 → d = (s.tile p).vaddr i.opd0 → c0 = (s.tile p).vaddr i.opd2 → act = (s.tile p).actives i n →
    recs = (List.range n).map (fun c => ((s.tile p).vw34 (a + 16 * c + 8), Mem.readNat (s.tile p).vbuf (a + 16 * c + 4) 4)) →
    on = (List.zip act recs).filterMap (fun x => if x.1 then some x.2 else none) → sum = (on.map Prod.fst).foldl w34Add 0 →
    (d + 4 * n ≤ c0 + 4 ∨ c0 + 16 ≤ d) →
    ∃ u, exec (.amerge t .pass) s = .next u ∧ s.oneTile u p ∧ (u.tile p).spad = (s.tile p).spad ∧ (s.tile p).keeps (u.tile p) ∧
      (∀ c, c < n → (u.tile p).word d c =
        if (s.tile p).lane i c then (if (ofW34 sum).isZero then 0 else
          BitVec.ofNat 32 (divRound .fp32 (ofW34 ((s.tile p).vw34 (a + 16 * c + 8))) (ofW34 sum)).1)
        else if i.mzero then 0 else (s.tile p).word d c) ∧
      Mem.readNat (u.tile p).vbuf (c0 + 8) 8 = sum.toNat ∧
      Mem.readNat (u.tile p).vbuf (c0 + 4) 4 = (if on.all (fun r => bitOf r.2 0) then 1 else 0) + (if !on.isEmpty && (ofW34 sum).isZero then 2 else 0) +
        (if on.any (fun r => bitOf r.2 2) then 4 else 0) + (if (ofW34 sum).isFin then 0 else 8) ∧
      (∀ x, (x < d ∨ d + 4 * n ≤ x) → (x < c0 + 4 ∨ c0 + 16 ≤ x) → Mem.read (u.tile p).vbuf x = Mem.read (s.tile p).vbuf x) ∧
      (∀ x, c0 + 4 ≤ x → x < c0 + 16 → (s.tile p).readsMark i n [(a, 16 * n)] [] = true → Tab.get false (u.tile p).vbufMarks (x / 32) = true) ∧
      (∀ c, c < n → ((s.tile p).lane i c || i.mzero) = true → (s.tile p).readsMark i n [(a, 16 * n)] [] = true →
        Tab.get false (u.tile p).vbufMarks ((d + 4 * c) / 32) = true))

/-- For every capacity c, number of choices k and list of live tokens with their rankings, the placement that XPLACE computes (the greedy walk of k rounds
and the repair of the blocked choices) holds at most c slots of each expert, every held slot is below c, no two held choices share an expert and a
slot, and no token holds two slots of one expert. -/
def Obligations.PlacementRespectsCapacity : Prop :=
  ∀ (c k : Nat) (toks : List (Nat × List Nat)),
    (∀ e, (place c k toks).fill e ≤ c) ∧ (∀ h ∈ (place c k toks).held, h.slot < c) ∧
    ((place c k toks).held.map (fun h => (h.expert, h.slot))).Nodup ∧ ((place c k toks).held.map (fun h => (h.token, h.expert))).Nodup

/-- From every state in canonical form in which the instruction may issue, its check passed: XCFG with room for its signal sets the placement shape to T
and C. With no operation in flight: XPLACE leaves the scratchpad with the routing records at OPD0 and the placement area at OPD2 of the placement of
the live tokens, and adds OUTSIDE and UNPLACED to TILE_XSTAT; XGATHER, every slot empty or naming a token of the shape, copies each token's row to its
slot and zeroes the empty ones; XCOMBINE, every entry of the records good, writes for each token the sum of weight times expert row over its entries
in order, to which accumulation adds the row's old value, then leaving the rows of tokens with no entry as they are. The other stores of the tile
(Tile.keeps) and every other tile keep their values, and what is written takes the mark of what was read (R392). That the records hold MOVED without
REPAIRED for a moved token is log 46 (DEDUCED). -/
def Obligations.ExpertInstructionsPlaceGatherCombine : Prop :=
  (∀ (s : State) (t p : Nat) (i : Insn), s.atInsn t p 0xA0 i = true → (s.tile p).signalRoom i = true →
    exec (.xcfg t) s = .next (s.issueInstant t p i (fun tl => { tl with shape := some (i.arg 0 11 + 1, i.arg 11 11 + 1) }))) ∧
  (∀ (s : State) (t p e w : Nat) (i : Insn) (r : PlaceOut), s.canonical = true → s.atInsn t p 0xA1 i = true → (s.tile p).ops = [] →
    e = i.arg 0 8 + 1 → w = (if i.argBit 12 then 64 else 128) →
    r = placeAll (s.tile p).tokens (s.tile p).capacity e (i.arg 8 3 + 1) (i.argBit 11)
      ((List.range (s.tile p).tokens).filter ((s.tile p).maskReg (i.arg 13 3)).getLsbD)
      (fun x => (List.range e).map (fun y => scoreCode (i.argBit 12)
        (leNat ((s.tile p).sread ((s.tile p).opnd i.opd1) (scoreOff (s.tile p).tokens w x y) (w / 32))))) →
    ∃ u, exec (.xplace t .pass) s = .next u ∧ s.oneTile u p [.tileXstat] ∧ (u.tile p).vbuf = (s.tile p).vbuf ∧ (s.tile p).keeps (u.tile p) ∧
      (u.tile p).spad = (((s.tile p).sput ((s.tile p).opnd i.opd0) 0 r.records).sput ((s.tile p).opnd i.opd2) 0 r.area).spad ∧
      (u.tile p).spadMarks = ((s.tile p).markSegs (((s.tile p).opnd i.opd0).segs 0 r.records.length ++ ((s.tile p).opnd i.opd2).segs 0 r.area.length)
        (Tab.get false (s.tile p).maskMarks (i.arg 13 3) || (s.tile p).markedSegs (((s.tile p).opnd i.opd1).pieces
          (((List.range (s.tile p).tokens).filter ((s.tile p).maskReg (i.arg 13 3)).getLsbD).flatMap (scorePieces (s.tile p).tokens w e))))).spadMarks ∧
      u.fld Fld.tileXstatOutside t = s.counted Fld.tileXstatOutside t r.outside ∧
      u.fld Fld.tileXstatUnplaced t = s.counted Fld.tileXstatUnplaced t r.unplaced) ∧
  (∀ (s : State) (t p e rb : Nat) (i : Insn) (slot : Nat → Nat), s.canonical = true → s.atInsn t p 0xA2 i = true → (s.tile p).ops = [] →
    e = i.arg 0 8 + 1 → rb = i.arg 8 12 + 1 →
    (∀ k, slot k = leNat ((s.tile p).sread ((s.tile p).opnd i.opd2) (slotTable e + 2 * k) 2)) →
    (∀ k, k < e * (s.tile p).capacity → slot k = 0xFFFF ∨ slot k < (s.tile p).tokens) →
    ∃ u, exec (.xgather t .pass) s = .next u ∧ s.oneTile u p ∧ (u.tile p).vbuf = (s.tile p).vbuf ∧ (s.tile p).keeps (u.tile p) ∧
      (u.tile p).spadMarks = ((s.tile p).markSegs (((s.tile p).opnd i.opd0).pieces ((List.range (e * (s.tile p).capacity)).map (fun k => (k * rb, rb))))
        ((s.tile p).markedSegs (((s.tile p).opnd i.opd2).segs (slotTable e) (2 * (e * (s.tile p).capacity)) ++ ((s.tile p).opnd i.opd1).pieces
          (((List.range (e * (s.tile p).capacity)).filter (fun k => slot k < (s.tile p).tokens)).map (fun k => (slot k * rb, rb)))))).spadMarks ∧
      (u.tile p).spad = ((List.range (e * (s.tile p).capacity)).foldl (fun (tl : Tile) k => tl.sput ((s.tile p).opnd i.opd0) (k * rb)
        (if slot k = 0xFFFF then List.replicate rb 0 else (s.tile p).sread ((s.tile p).opnd i.opd1) (slot k * rb) rb)) (s.tile p)).spad) ∧
  (∀ (s : State) (t p e yf : Nat) (i : Insn) (ents : Nat → List (Bool × Nat × Nat × Word32)) (o : Opnd) (rows : List Nat), s.canonical = true → s.atInsn t p 0xA3 i = true →
    (s.tile p).ops = [] → e = i.arg 0 8 + 1 → yf = (if i.argBit 8 then 5 else 6) → o = (s.tile p).opnd i.opd0 →
    (∀ x, ents x = recordEntries e (s.tile p).capacity ((s.tile p).sread ((s.tile p).opnd i.opd2) (64 * x) 64) 8 0 (-1)) →
    (∀ x, x < (s.tile p).tokens → ∀ y ∈ ents x, y.1 = true) → rows = (List.range (s.tile p).tokens).filter (fun x => !i.argBit 9 || !(ents x).isEmpty) →
    ∃ u, exec (.xcombine t .pass) s = .next u ∧ s.oneTile u p ∧ (u.tile p).vbuf = (s.tile p).vbuf ∧ (s.tile p).keeps (u.tile p) ∧
      (u.tile p).spad = (rows.foldl (fun (tl : Tile) x => tl.sput o (128 * x)
        ((List.range 32).flatMap (fun n => leBytes 4 (f32Sat (ofW34 (combineCol
          (if i.argBit 9 then toW34 (ofF32 (BitVec.ofNat 32 (leNat ((s.tile p).sread o (128 * x + 4 * n) 4)))) else 0) ((ents x).map (fun y => (y.2.2.2,
          ((rowCodes ((s.tile p).sread ((s.tile p).opnd i.opd1) ((y.2.1 * (s.tile p).capacity + y.2.2.1) * fmtBytes yf) (fmtBytes yf)) yf).map
            (Fmt.ofCode yf).decode).getD n .zero)))))).1.toNat))) (s.tile p)).spad ∧
      (u.tile p).spadMarks = ((s.tile p).markSegs (o.pieces (rows.map (fun x => (128 * x, 128)))) ((s.tile p).markedSegs
        (((s.tile p).opnd i.opd2).segs 0 (64 * (s.tile p).tokens) ++ ((s.tile p).opnd i.opd1).pieces ((List.range (s.tile p).tokens).flatMap (fun x =>
          (ents x).map (fun y => ((y.2.1 * (s.tile p).capacity + y.2.2.1) * fmtBytes yf, fmtBytes yf)))) ++
          (if i.argBit 9 then o.pieces (rows.map (fun x => (128 * x, 128))) else [])))).spadMarks)

/-- From every state in canonical form in which a TLOOK may issue, with no conflicting operation in flight: each active element is the value of the table
store under the element's packed index of 4, 6, 8 or 10 bits: without scales a NaN in its canonical form, with them the value times the scale of its
block of 32, rounded to FP32; a predicated one is +0 with MZERO and its old value without; what is written takes the mark of the table store, the
indices and the scales (R392), and nothing else of the tile's data and no other tile changes (laneRow). That an unscaled TLOOK moves no NaN payload is
the model's reading of R118 (log 173). -/
def Obligations.TableLookupWritesValues : Prop :=
  laneRow .tlook 0xC0 (fun s tl i =>
      tl.clearOf ((tl.opnd i.opd1).segs 0 (ceilDiv (s.vcount tl i * (4 + 2 * i.arg 25 2)) 8) ++
        (if i.argBit 27 then (tl.opnd i.opd2).segs 0 (ceilDiv (s.vcount tl i) 32) else [])) [] = true) Tile.lane
    (fun s tl i => ([], (tl.opnd i.opd1).segs 0 (ceilDiv (s.vcount tl i * (4 + 2 * i.arg 25 2)) 8) ++
      (if i.argBit 27 then (tl.opnd i.opd2).segs 0 (ceilDiv (s.vcount tl i) 32) else []), s.vcount tl i != 0 && Tab.get false tl.tableMarks (i.arg 21 4)))
    (fun s tl i k =>
      let w := Tab.get 0 tl.tableStore (256 * i.arg 21 4 + bitsOf (leNat (tl.sread (tl.opnd i.opd1) 0
        (ceilDiv (s.vcount tl i * (4 + 2 * i.arg 25 2)) 8))) ((4 + 2 * i.arg 25 2) * k) (4 + 2 * i.arg 25 2))
      if i.argBit 27 then (f32Sat (scaled (ofF32 w) ((tl.sread (tl.opnd i.opd2) 0 (ceilDiv (s.vcount tl i) 32)).getD (k / 32) 0).toNat)).1 else quiet w)

/-- For the next item of a ring at event 3 (atEvent3) of a context that is not fenced, whose descriptor passes steps 1 to 4 of R366: NOP ends it; LAUNCH
whose board and variant resolve and whose parameter block is read without a mark takes its fields from the block; LAUNCH without such a board goes on
with an unreadable block; LOAD into an empty handle copies and checks the image, and into an occupied handle is rejected with cause HANDLE; a part
that reads device memory takes effect once every request it makes is served (State.accepted, log 16); RETIRE of a loaded board makes its handle
retiring, and of an empty or retiring handle is rejected with cause HANDLE; a type that R361 does not list is rejected with cause LAYOUT. In a fenced
context each of these ends the item with ABORTED_TENANT_FENCED. -/
def Obligations.ItemsPassEventThree : Prop :=
  (∀ (s : State) (fn ring : Nat) (i : Item) (d : List Byte), s.passes3 fn ring i d tyNop = true →
    exec (.nopDescriptor fn ring) s = .next ((s.pass3 i.id .passed3).endItem i.id)) ∧
  (∀ (s v : State) (fn ring n : Nat) (i : Item) (d bytes : List Byte), s.passes3 fn ring i d tyLaunch = true → (descDev d = true ∨ s.hostReady i.fn = true) →
    ((s.pass3 i.id .passed3).paramSize fn d = some n → (s.pass3 i.id .passed3).tenantRead fn (leAt d 0x18 8) n (descDev d) = (some (bytes, false), v) →
      exec (.launch fn ring) s = .next (s.accepted (v.modItem i.id (fun i => { i with launch := some (Launch.ofBlock d (some bytes)) })))) ∧
    ((s.pass3 i.id .passed3).paramSize fn d = none →
      exec (.launch fn ring) s = .next ((s.pass3 i.id .passed3).modItem i.id (fun i => { i with launch := some (Launch.ofBlock d none) })))) ∧
  (∀ (s : State) (fn ring : Nat) (i : Item) (d : List Byte), s.passes3 fn ring i d tyLoad = true → (descDev d = true ∨ s.hostReady i.fn = true) → i.fn = fn →
    (s.board fn (descHandle d) = none → exec (.load fn ring) s = .next (s.accepted ((s.pass3 i.id .passed3).loadCopy fn i.id d))) ∧
    (s.board fn (descHandle d) ≠ none → exec (.load fn ring) s = .next ((s.pass3 i.id .passed3).reject i.id causeHandle))) ∧
  (∀ (s : State) (fn ring : Nat) (i : Item) (d : List Byte), s.passes3 fn ring i d tyRetire = true →
    (s.unchecked i.fn).all (fun j => (j.launch.map (·.handle)) != some (descHandle d)) = true →
    (∀ b, s.board fn (descHandle d) = some b → b.retiring = none → exec (.retire fn ring) s =
      .next (((s.pass3 i.id .passed3).setBoard fn (descHandle d) (some { b with retiring := some i.id })).retireComplete fn (descHandle d))) ∧
    ((∀ b, s.board fn (descHandle d) = some b → b.retiring ≠ none) → exec (.retire fn ring) s = .next ((s.pass3 i.id .passed3).reject i.id causeHandle))) ∧
  (∀ (s : State) (fn ring : Nat) (i : Item) (d : List Byte), s.atEvent3 fn ring i d = true → s.fenced fn = false → typeListed (descType d) = false →
    exec (.unlistedDescriptorType fn ring) s = .next ((s.pass3 i.id .passed3).reject i.id causeLayout)) ∧
  (∀ (s u : State) (fn ring : Nat) (i : Item) (d : List Byte), s.atEvent3 fn ring i d = true → s.fenced fn = true →
    u = ((s.pass3 i.id .passed3).addStatus i.id stFenced).endItem i.id →
    (descType d = tyNop → exec (.nopDescriptor fn ring) s = .next u) ∧
    (typeListed (descType d) = false → exec (.unlistedDescriptorType fn ring) s = .next u) ∧
    (descType d = tyLaunch → descDev d = true → exec (.launch fn ring) s = .next u) ∧
    (descType d = tyLoad → descDev d = true → exec (.load fn ring) s = .next u) ∧
    (descType d = tyRetire → (s.unchecked i.fn) = [] → exec (.retire fn ring) s = .next u))

/-- LAUNCH_CHECK of a launch that passed event 3, stands first at event 4 and waits for nothing: with no cause it takes its board reference, serials and
peer references (launchPasses), otherwise it is rejected with the cause; what it does in device memory it does once its requests are served
(State.accepted, log 16). LAUNCH_ARM of a launch that passed event 4, whose reservations fit and none of whose predecessors waits: it takes its
credits and is armed; with a kept aborted key it fails at once. LAUNCH_BEGIN of an armed launch at or after its count C whose tiles are all free: it
runs, counts in TALLY_LATE (saturating, log 194) and is LATE when C was missed at its beginning (log 69), and begins on each board tile. Beginning a
board tile leaves its serving tile with the stream at position 0, every accumulator, mask, sync object, locket slot and bangle at its launch-start
value, and its part. -/
def Obligations.LaunchesAreCheckedArmedAndBegun : Prop :=
  (∀ (s v : State) (item : Nat) (i : Item) (l : Launch), s.item item = some i → i.launch = some l → i.phase = .passed3 → s.listBefore i = false →
    s.modeDue = none → v = (if s.order4.contains item then s else { s with order4 := s.order4 ++ [item] }) → v.waiting4.head? = some item →
    (v.launchCause i.fn l = none → exec (.launchCheck item) s = .next (v.accepted (v.launchPasses i l))) ∧
    (∀ c, v.launchCause i.fn l = some c → exec (.launchCheck item) s = .next ((v.leave4 item).reject item c))) ∧
  (∀ (s v : State) (item : Nat) (i : Item) (l : Launch) (x : Variant), s.item item = some i → i.launch = some l → s.launchVariant i = some x →
    i.phase = .passed4 → s.creditsBefore i = false → s.creditsFit i x.reservations = true →
    v = (s.takeCredits i.fn item x.reservations).setPhase item .armed →
    (v.abortedKey l = none → exec (.launchArm item) s = .next v) ∧
    (∀ k, v.abortedKey l = some k → exec (.launchArm item) s =
      .next (((v.leave4 item).modItem item (fun i => { i with abortChip := k.chip })).failPart item k.status))) ∧
  (∀ (s v w : State) (item : Nat) (i : Item) (l : Launch) (b : Board) (x : Variant), s.item item = some i → i.launch = some l →
    s.launchBoard i = some b → s.launchVariant i = some x → i.phase = .armed → l.count ≤ s.tally → b.tiles.all s.tileFree = true →
    s.tilesBefore i b.tiles = false → v = (s.leave4 item).setPhase item .running →
    w = (if l.count ≠ 0 ∧ l.count < s.tally then (v.bump Fld.tallyLateCount 0 1).addNote item noteLate else v) →
    exec (.launchBegin item) s = .next (x.tiles.zipIdx.foldl (fun s e => s.beginTile i l b (w.tableStoreOf b) e.2 e.1) w)) ∧
  (∀ (s : State) (i : Item) (l : Launch) (b : Board) (store : Tab Word32) (bt p : Nat) (ts : TileStream), s.canonical = true →
    s.physOf (b.logical bt) = some p → (s.beginTile i l b store bt ts).physOf (b.logical bt) = some p ∧
    (let tl := (s.beginTile i l b store bt ts).tile p
     tl.stream = ts.insns ∧ tl.pos = 0 ∧ tl.loops = [] ∧ tl.acc = [] ∧ tl.masks = [] ∧ tl.syncCount = [] ∧ tl.syncThresh = [] ∧ tl.locket = [] ∧
       tl.bangles = [] ∧ tl.active = .zeroBlock ∧ tl.shadow = .zeroBlock ∧ tl.tableStore = store ∧ (tl.part.map (·.item)) = some i.id) ∧
    (∀ q, q ≠ p → (s.beginTile i l b store bt ts).tile q = s.tile q))

/-- DESCRIPTOR_FETCH of the ring pair whose turn it is, in P0: up to four descriptors are fetched and the rotation moves past it. COMPLETION_RECORD_WRITE
of the next ended item of its ring, with Bus Master Enable set and the link up: where a window permits the write, its 32 bytes go to the entry of
CQ_TAIL, CQ_TAIL rises, the vector counts and the item leaves; where none permits it, the record counts as lost. A record has 32 bytes, and its status
is the first of R378's order that applies: disabled, fenced, rejected, poison, link unreachable, collective failed, overrun, underrun, table retired,
rejected with RUNTIME_BOUND, stale window, preempted, replayed, and OK when none does. A record of host memory that a memory request holds back is
written once it is served (State.accepted, log 16). -/
def Obligations.RecordsAreWrittenInTheRing : Prop :=
  (∀ (s : State) (fn ring : Nat), fn < 64 → ring < 64 → s.inP0 = true → s.turnFn = some fn → s.turnRing fn = some ring →
    exec (.descriptorFetch fn ring) s = .next { State.fetchRun fn ring 4 s with fns := { (State.fetchRun fn ring 4 s).fns with
      lastServed := fn, lastRing := Tab.set 63 (State.fetchRun fn ring 4 s).fns.lastRing fn ring } }) ∧
  (∀ (s : State) (fn ring : Nat) (bytes : List Byte), s.hostRead fn (s.fld Fld.ringCfgSqBase (ringKey fn ring) +
      64 * (s.fld Fld.ringCfgSqHead (ringKey fn ring) % s.sqEntries (ringKey fn ring))) 64 = (some (bytes, false), s) →
    (s.fetchOne fn ring).items = s.items ++ [Item.new s.nextItem fn ring (s.fld Fld.ringCfgSqHead (ringKey fn ring)) (some bytes)] ∧
    (s.fetchOne fn ring).nextItem = s.nextItem + 1) ∧
  (∀ (s d w : State) (item r n a dur : Nat) (ok : Bool) (i : Item) (bytes : List Byte), s.item item = some i → s.recordDue i = true → s.hostReady i.fn = true →
    s.fns.linkUp = true → r = 64 * i.fn + i.ring → n = s.fld Fld.ringCfgCqTail r → s.durationOf i = (dur, d) →
    a = s.fld Fld.ringCfgCqBase r + 32 * (n % s.cqEntries r) → bytes = i.record dur n (s.cqEntries r) → d.hostWrite i.fn a bytes false = (ok, w) →
    (ok = false → exec (.completionRecordWrite item) s = .next (s.accepted ((w.bump Fld.hostErrLost i.fn 1).leave i))) ∧
    (ok = true → i.statusCode ≠ stDisabled → i.statusCode ≠ stFenced →
      exec (.completionRecordWrite item) s = .next (s.accepted (((w.addFld Fld.ringCfgCqTail r 1).vecAdd i.fn (w.fld Fld.ringCfgVector r)).leave i))) ∧
    (ok = true → (i.statusCode = stDisabled ∨ i.statusCode = stFenced) → exec (.completionRecordWrite item) s =
      .next (s.accepted ((((w.bump Fld.fnStateAborted i.fn 1).addFld Fld.ringCfgCqTail r 1).vecAdd i.fn ((w.bump Fld.fnStateAborted i.fn 1).fld Fld.ringCfgVector r)).leave i)))) ∧
  (∀ (i : Item) (dur n entries : Nat), (i.record dur n entries).length = 32) ∧
  (∀ (i : Item) (applies : List (Bool × Nat)),
    applies = [(i.statuses.contains stDisabled, 0x10), (i.statuses.contains stFenced, 0x11), (i.statuses.contains stRejected && i.cause != causeRuntimeBound, 0x60),
      (i.statuses.contains stPoison, 0x01), (i.statuses.contains stUnreachable, 0x40), (i.statuses.contains stCollFailed, 0x41), (i.statuses.contains stOverrun, 0x30),
      (i.statuses.contains stUnderrun, 0x31), (i.statuses.contains stTableRetired, 0x32), (i.statuses.contains stRejected && i.cause == causeRuntimeBound, 0x60),
      (i.statuses.contains stStaleWindow, 0x20), (i.statuses.contains stPreempted, 0x50), (i.statuses.contains stReplayed, 0x02)] →
    (∀ (before after : List (Bool × Nat)) (st : Nat), applies = before ++ (true, st) :: after → before.all (fun x => !x.1) = true → i.statusCode = st) ∧
    (applies.all (fun x => !x.1) = true → i.statusCode = 0))

/-- PAGE_CMD at event 3 begins its list. For the next entry of a running page list (atEntry) that is well formed, on a page of an open pool: MAP of a free
page (REFS 0, not queued) gives it its first reference; REF raises REFS from 1 to 131,070 by one; UNREF of a referenced page lowers REFS; SWAP_OUT of
a referenced page inside the host buffer takes effect and waits for the reader pins held now, and SWAP_OUT_COPY, once they have ended, copies the
footprint to the host buffer, 64 bytes at a time, and drops the reference behind the last; SWAP_IN of a free page copies it from there in the same way
and gives the page its first reference; OPEN of a valid record on a closed pool zeroes the control area and opens it; CLOSE closes a pool that is not
busy. Each writes RESULT 0. A malformed entry, or an OPEN whose record is outside the grant or invalid, is refused with 0x04; a pool that is not open
or a page outside it with 0x02; a swap outside the host buffer with 0x03; the page's REFS or QUEUED against the command with 0x01; OPEN of an open
pool and CLOSE of a busy one with 0x05: pageRefused counts it and writes the code. The copy of 64 bytes a command is log 181 and the count in KV_STAT
log 218 (DESIGN CHOICE); a command takes effect once the requests it makes of device memory are served (State.accepted, log 16). -/
def Obligations.PageCommandsChangeOnePage : Prop :=
  (∀ (s : State) (fn ring : Nat) (i : Item) (d : List Byte), s.passes3 fn ring i d tyPageCmd = true →
    exec (.pageCmd fn ring) s = .next ((s.pass3 i.id .passed3).startList i.id d)) ∧
  (∀ (s u v : State) (op item : Nat) (i : Item) (l : ListRun) (b : List Byte) (c : PageCmd) (p : Pool),
    s.atEntry tyPageCmd op Item.beforePages item i l b u → c = PageCmd.ofEntry b → c.bad = false → u.pool i.fn c.pool = some p → (c.page < p.pages ∨ op = pgClose) →
    v = u.pageSee i.id p c →
    (op = pgMap → exec (.map item) s = .next (s.accepted (if v.refs p c.page = 0 ∧ v.queued p c.page = false then (v.firstRef i.fn c.pool p c.page).listResult i l 0 []
      else v.pageRefused i l 0x01))) ∧
    (op = pgRef → exec (.ref item) s = .next (s.accepted (if 1 ≤ v.refs p c.page ∧ v.refs p c.page < 131071 then
      (v.setPage i.fn p c.page (v.refs p c.page + 1) (v.queued p c.page)).listResult i l 0 [] else v.pageRefused i l 0x01))) ∧
    (op = pgUnref → exec (.unref item) s = .next (s.accepted (if 1 ≤ v.refs p c.page then (v.unref i.fn i.id c.pool p c.page).listResult i l 0 []
      else v.pageRefused i l 0x01))) ∧
    (op = pgSwapOut → c.addr + p.footprint ≤ l.hbytes → 1 ≤ v.refs p c.page → exec (.swapOut item) s = .next (s.accepted (v.modList i.id (fun l =>
      { l with swapping := some ⟨false, c.pool, c.page, c.addr,
        (v.items.filter (fun j => j.fn == i.fn && j.launch.any (fun x => x.serials.any (fun y => y.1 == c.pool)))).map (·.id), none⟩ })))) ∧
    (op = pgSwapOut → l.hbytes < c.addr + p.footprint → exec (.swapOut item) s = .next (s.accepted (v.pageRefused i l 0x03))) ∧
    (op = pgSwapOut → c.addr + p.footprint ≤ l.hbytes → v.refs p c.page = 0 → exec (.swapOut item) s = .next (s.accepted (v.pageRefused i l 0x01))) ∧
    (op = pgSwapIn → l.hbytes < c.addr + p.footprint → exec (.swapIn item) s = .next (s.accepted (v.pageRefused i l 0x03))) ∧
    (op = pgSwapIn → c.addr + p.footprint ≤ l.hbytes → (v.refs p c.page ≠ 0 ∨ v.queued p c.page = true) → exec (.swapIn item) s = .next (s.accepted (v.pageRefused i l 0x01))) ∧
    (op = pgSwapIn → c.addr + p.footprint ≤ l.hbytes → v.refs p c.page = 0 → v.queued p c.page = false → v.hostPermits i.fn (l.hbuf + c.addr) p.footprint false = true →
      exec (.swapIn item) s = .next (s.accepted (v.swapInLine i l p ⟨true, c.pool, c.page, c.addr, [], some 0⟩ 0))) ∧
    (op = pgClose → exec (.closePool item) s = .next (s.accepted (if v.poolBusy i.fn c.pool p then v.pageRefused i l 0x05
      else (v.setPool i.fn c.pool none).listResult i l 0 [])))) ∧
  (∀ (s u : State) (op code item : Nat) (i : Item) (l : ListRun) (b : List Byte) (c : PageCmd), s.atEntry tyPageCmd op Item.beforePages item i l b u → c = PageCmd.ofEntry b →
    ((c.bad = true ∧ code = 0x04) ∨ (c.bad = false ∧ code = 0x02 ∧ op ≠ pgOpen ∧
      (u.pool i.fn c.pool = none ∨ ∃ p, u.pool i.fn c.pool = some p ∧ op ≠ pgClose ∧ p.pages ≤ c.page))) →
    ∀ cmd ∈ [(pgMap, Instr.map item), (pgRef, .ref item), (pgUnref, .unref item), (pgSwapOut, .swapOut item), (pgSwapIn, .swapIn item), (pgOpen, .openPool item),
      (pgClose, .closePool item)], op = cmd.1 → exec cmd.2 s = .next (s.accepted (u.pageRefused i l code))) ∧
  (∀ (s : State) (item : Nat) (i : Item) (l : ListRun) (w : Swap) (p : Pool), s.item item = some i → i.list = some l → l.swapping = some w →
    s.pool i.fn w.pool = some p → i.phase = .running → s.hostReady i.fn = true →
    (∀ n, w.inward = true → w.copied = some n → exec (.swapIn item) s = .next (s.accepted (s.swapInLine i l p w n))) ∧
    (∀ n, w.inward = false → w.copied = some n → exec (.swapOutCopy item) s = .next (s.accepted (s.swapOutLine i l p w n))) ∧
    (∀ (v : State) (m : Nat), w.inward = false → w.copied = none → w.pins.any (fun j => (s.item j).isSome) = false →
      s.ctrlRead (some i.id) (p.stateAddr w.page) 4 = (m, v) → 1 ≤ bitsOf m 0 17 → s.hostPermits i.fn (l.hbuf + w.off) p.footprint true = true →
      exec (.swapOutCopy item) s = .next (s.accepted (v.swapOutLine i l p w 0))) ∧
    (∀ (v : State) (m : Nat), w.inward = false → w.copied = none → w.pins.any (fun j => (s.item j).isSome) = false →
      s.ctrlRead (some i.id) (p.stateAddr w.page) 4 = (m, v) → bitsOf m 0 17 = 0 → exec (.swapOutCopy item) s = .next (s.accepted (v.pageRefused i l 0x01)))) ∧
  (∀ (s h : State) (i : Item) (l : ListRun) (w : Swap) (p : Pool) (n : Nat) (bs : List Byte) (m ok : Bool) (x : State),
    (((s.bursts i.fn (p.pageAddr w.page (64 * n)) 64).hostRead i.fn (l.hbuf + w.off + 64 * n) 64 = (some (bs, m), h) →
      x = (h.consumed i.id m).memWriteMarked (p.pageAddr w.page (64 * n)) (bs.map (fun b => (b, m))) →
      s.swapInLine i l p w n = if 64 * (n + 1) < p.footprint then x.modList i.id (fun l => { l with swapping := some { w with copied := some (n + 1) } })
        else (x.firstRef i.fn w.pool p w.page).listResult i l 0 [])) ∧
    (s.takeFor i.fn (p.pageAddr w.page (64 * n)) 64 = (bs, m, h) →
      (h.consumed i.id m).hostWrite i.fn (l.hbuf + w.off + 64 * n) bs m = (ok, x) → ok = true →
      s.swapOutLine i l p w n = if 64 * (n + 1) < p.footprint then x.modList i.id (fun l => { l with swapping := some { w with copied := some (n + 1) } })
        else (x.unref i.fn i.id w.pool p w.page).listResult i l 0 [])) ∧
  (∀ (s u v w : State) (item : Nat) (i : Item) (l : ListRun) (b rec : List Byte) (m : Bool) (c : PageCmd) (p : Pool),
    s.atEntry tyPageCmd pgOpen Item.beforePages item i l b u → c = PageCmd.ofEntry b → c.bad = false →
    ((u.grantOf i).own c.addr 64 = false → exec (.openPool item) s = .next (s.accepted (u.pageRefused i l 0x04))) ∧
    ((u.grantOf i).own c.addr 64 = true → u.takeFor i.fn c.addr 64 = (rec, m, w) → v = w.consumed i.id m → p = Pool.ofRecord rec →
      ((v.grantOf i).recordOk rec p = false → exec (.openPool item) s = .next (s.accepted (v.pageRefused i l 0x04))) ∧
      ((v.grantOf i).recordOk rec p = true → v.pool i.fn c.pool ≠ none → exec (.openPool item) s = .next (s.accepted (v.pageRefused i l 0x05))) ∧
      ((v.grantOf i).recordOk rec p = true → v.pool i.fn c.pool = none → exec (.openPool item) s = .next (s.accepted
        (((((v.storeFor i.fn p.ctrlBase (List.replicate p.ctrlBytes 0)).setPool
          i.fn c.pool (some p)).auditFresh 6 (4 * i.fn + c.pool)).auditFresh 7 (4 * i.fn + c.pool)).listResult i l 0 [])))))

/-- In P0 or P1, for an address below MEM_TOP whose codeword is held by physical channel c without damage, whose engine has no other request and is not
held: a read that finds no damaged symbol answers the stored 64 bytes (a narrow one their 32-byte sector) and their mark; with one it answers the same
and counts CE and CE_WIN; with two it counts UE and UE_WIN, answers zeros with the mark, and leaves the codeword as zeros with POISON = 1; damage
whose cause persists stays in the codeword. A write of 64 bytes leaves the codeword holding them with POISON = 0; a part write with no damage merges
its bytes and keeps POISON; no other codeword changes. In a fenced slot a read answers zeros with the mark and counts POISON_READ, and a write is
dropped and counted. At or above MEM_TOP a read answers zeros without the mark, a write stores nothing, and each counts in BEYOND. A request that is
to wait joins the queue of its class, narrow or bulk, and an engine with both takes a narrow one, but a bulk one after four narrow bursts in a row
(R254). What makes requests occurs when all of them are served, and not before (State.accepted, log 16). With the stacks not active, nothing happens. -/
def Obligations.CodewordAccessesReachTheirChannel : Prop :=
  (∀ (s : State) (a c l off o n : Nat) (x : Strike) (whole : List Byte → List Byte), s.memOn = true → s.canonical = true → Damage.wf x.symbols = true →
    a % 64 = 0 → 0 < n → o + n ≤ 64 → a + o < s.memTop → s.mapAddr a = (l, off) → s.slotView l (off / 64) = .array c → s.stackHeld (l % 8) = false →
    s.queuesOf l = ([], []) → s.cellDamage c (off / 64) = [] →
    (∀ b, whole b = if n ≤ 32 ∧ o % 32 + n ≤ 32 then (b.drop (o / 32 * 32)).take 32 else b) →
    (x.symbols.length = 0 → ∃ u, exec (.memCodewordRead (a + o) n x false false) s = .next u ∧ u.outs.memData = whole (s.arrayData c (off / 64)) ∧
      u.outs.memMark = s.arrayPoison c (off / 64) ∧ u.mem = s.mem ∧ u.memPoison = s.memPoison) ∧
    (x.symbols.length = 1 → ∃ u, exec (.memCodewordRead (a + o) n x false false) s = .next u ∧ u.outs.memData = whole (s.arrayData c (off / 64)) ∧
      u.outs.memMark = s.arrayPoison c (off / 64) ∧ u.mem = s.mem ∧ (∀ k, Tab.get false u.memPoison k = Tab.get false s.memPoison k) ∧
      u.cellDamage c (off / 64) = (if x.cause = .once then [] else x.symbols) ∧
      u.fld Fld.memChstatCe c = s.counted Fld.memChstatCe c 1 ∧ u.fld Fld.memChstatCeWin c = s.counted Fld.memChstatCeWin c 1) ∧
    (x.symbols.length = 2 → s.fld Fld.memChstatUeWin c < 15 → ∃ u, exec (.memCodewordRead (a + o) n x false false) s = .next u ∧
      u.outs.memData = whole zeros64 ∧ u.outs.memMark = true ∧ u.arrayData c (off / 64) = zeros64 ∧ u.arrayPoison c (off / 64) = true ∧
      u.cellDamage c (off / 64) = (if x.cause = .once then [] else x.symbols) ∧
      u.fld Fld.memChstatUe c = s.counted Fld.memChstatUe c 1 ∧ u.fld Fld.memChstatUeWin c = s.counted Fld.memChstatUeWin c 1)) ∧
  (∀ (s : State) (a c l off o : Nat) (bytes : List Byte) (part : Bool), s.memOn = true → s.canonical = true →
    a % 64 = 0 → a + o < s.memTop → s.mapAddr a = (l, off) → s.slotView l (off / 64) = .array c → s.stackHeld (l % 8) = false →
    s.queuesOf l = ([], []) → s.cellDamage c (off / 64) = [] → s.mirrorOf l = none → s.fld Fld.memChstatUeWin c < 16 → 0 < bytes.length → o + bytes.length ≤ 64 →
    ∃ u, exec (.memCodewordWrite (a + o) bytes part ⟨[], .once⟩ false false) s = .next u ∧
      u.arrayData c (off / 64) = overlay (s.arrayData c (off / 64)) o bytes ∧
      (bytes.length = 64 → u.arrayPoison c (off / 64) = false) ∧ (bytes.length < 64 → u.arrayPoison c (off / 64) = s.arrayPoison c (off / 64)) ∧
      (∀ b, (b < chanBytes * c + 64 * (off / 64) ∨ chanBytes * c + 64 * (off / 64) + 64 ≤ b) → Mem.read u.mem b = Mem.read s.mem b)) ∧
  (∀ (s : State) (a l off o : Nat) (bytes : List Byte) (part : Bool), s.memOn = true → s.canonical = true → a % 64 = 0 → a + o < s.memTop →
    s.mapAddr a = (l, off) → s.slotView l (off / 64) = .fenced → s.stackHeld (l % 8) = false → s.queuesOf l = ([], []) → 0 < bytes.length →
    o + bytes.length ≤ 64 →
    (∃ u, exec (.memCodewordRead a 64 ⟨[], .once⟩ false false) s = .next u ∧ u.outs.memData = zeros64 ∧ u.outs.memMark = true ∧ u.mem = s.mem ∧
      u.fld Fld.memErrPoisonRead 0 = s.counted Fld.memErrPoisonRead 0 1) ∧
    (∃ u, exec (.memCodewordWrite (a + o) bytes part ⟨[], .once⟩ false false) s = .next u ∧ u.mem = s.mem ∧ u.memPoison = s.memPoison ∧
      u.memDamage = s.memDamage ∧ u.fld Fld.memErrDropped 0 = s.counted Fld.memErrDropped 0 1)) ∧
  (∀ (s v w : State) (a o : Nat) (bytes : List Byte) (part : Bool), s.memOn = true → a % 64 = 0 → s.memTop ≤ a → 0 < bytes.length → o + bytes.length ≤ 64 →
    v = (s.bursts baseContext (a + o) 1).bump Fld.memErrBeyond 0 1 → w = (s.storeBursts baseContext (a + o) bytes.length).bump Fld.memErrBeyond 0 1 →
    exec (.memCodewordRead (a + o) 64 ⟨[], .once⟩ false false) s = .next { v with outs := { v.outs with memData := zeros64, memMark := false } } ∧
    exec (.memCodewordWrite (a + o) bytes part ⟨[], .once⟩ false false) s = .next w) ∧
  (∀ (s : State) (a n : Nat) (bytes : List Byte) (part : Bool) (x : Strike) (f : Bool), s.memOn = true → a < s.memTop → s.stackHeld ((s.mapAddr a).1 % 8) = false →
    Damage.wf x.symbols = true → 0 < n → 0 < bytes.length → a % 64 + bytes.length ≤ 64 →
    exec (.memCodewordRead a n x f true) s = .next (s.joinQueue ⟨a, n, none, decide (n ≤ 32) && decide (a % 32 + n ≤ 32)⟩) ∧
    exec (.memCodewordWrite a bytes part x f true) s = .next (s.joinQueue
      ⟨a, bytes.length, some bytes, !part && (decide (bytes.length ≤ 32) && decide (a % 32 + bytes.length ≤ 32))⟩)) ∧
  (∀ (s : State) (l : Nat) (x y : MemReq) (n b : List MemReq), s.queuesOf l = (x :: n, y :: b) →
    (Tab.get 0 s.chans.narrowRun l < 4 → s.nextRequest l = some (x, s.setQueues l (n, y :: b) (Tab.get 0 s.chans.narrowRun l + 1))) ∧
    (4 ≤ Tab.get 0 s.chans.narrowRun l → s.nextRequest l = some (y, s.setQueues l (x :: n, b) 0))) ∧
  (∀ (s v : State), (v.waitingRequests ≤ s.waitingRequests → s.accepted v = v) ∧ (s.waitingRequests < v.waitingRequests → s.accepted v = s)) ∧
  (∀ (s : State) (a n : Nat) (bytes : List Byte) (x : Strike) (p f r : Bool), s.memOn = false → Damage.wf x.symbols = true →
    exec (.memCodewordRead a n x f r) s = .next s ∧ exec (.memCodewordWrite a bytes p x f r) s = .next s)

/-- With the stacks active and their controllers not held: SCRUB_READ of a channel in service, with the scrub on and the channel not done: one damaged
symbol counts in CE and CE_WIN and is corrected, two count in UE and UE_WIN and leave the codeword as zeros with POISON = 1, and the position
advances; at codeword 0 the channel's windows start again; behind the last codeword of the last channel PASSES counts and a new pass begins. Of an
idle spare: with one damaged symbol the error is counted and the spare stays idle; with two, or a burst that cannot complete, it is FAILED, which the
journal records. MIGRATION_START of a declining channel with automatic sparing, an idle spare of its stack and no migration there: the spare is bound
to a migration at codeword 0. MIGRATION_COPY_STEP with no burst failing: codeword P goes to the spare with its mark, and P rises; behind the last the
migration is complete. A burst of either channel that cannot complete fails that channel. POISON_FILL_STEP: codeword F becomes zeros with POISON = 1,
F rises, and what waited for the codeword follows; after the last codeword the fill is over and the spare is in service, with its journal record. -/
def Obligations.ScrubMigrationAndFillAdvance : Prop :=
  (∀ (s : State) (c l a cw : Nat) (x : Strike), c < 272 → Damage.wf x.symbols = true → s.canonical = true → s.flag Fld.memScrubEnable 0 = true → s.chanOn c = true →
    s.slotOf c = some l → s.scrubs c = true → s.chans.scrubDone.contains c = false → cw = Tab.get 0 s.chans.scrubPos c → a = s.unmapAddr l (64 * cw) → a < s.memTop →
    s.mapAddr a = (l, 64 * cw) → s.slotView l cw = .array c → s.cellDamage c cw = [] → x.cause = .once →
    (cw + 1 < chanCodewords → s.fld Fld.memChstatUeWin c < 15 → ∃ u, exec (.scrubRead c x false) s = .next u ∧
      u.chans.scrubPos = Tab.set 0 s.chans.scrubPos c (cw + 1) ∧ u.chans.scrubDone = s.chans.scrubDone ∧ u.fld Fld.memScrubPasses 0 = s.fld Fld.memScrubPasses 0 ∧
      u.cellDamage c cw = [] ∧
      (x.symbols.length ≤ 1 → u.arrayData c cw = s.arrayData c cw ∧ u.arrayPoison c cw = s.arrayPoison c cw ∧ u.fld Fld.memChstatUe c = s.fld Fld.memChstatUe c ∧
        u.fld Fld.memChstatCe c = s.counted Fld.memChstatCe c x.symbols.length) ∧
      (x.symbols.length = 2 → u.arrayData c cw = zeros64 ∧ u.arrayPoison c cw = true ∧ u.fld Fld.memChstatUe c = s.counted Fld.memChstatUe c 1) ∧
      (0 < cw → x.symbols.length = 1 → u.fld Fld.memChstatCeWin c = s.counted Fld.memChstatCeWin c 1) ∧
      (0 < cw → x.symbols.length = 2 → u.fld Fld.memChstatUeWin c = s.counted Fld.memChstatUeWin c 1) ∧
      (cw = 0 → x.symbols.length = 0 → u.fld Fld.memChstatCeWin c = 0 ∧ u.fld Fld.memChstatUeWin c = 0)) ∧
    (cw + 1 = chanCodewords → x.symbols = [] → (List.range 272).all (fun k => k == c || !s.scrubs k || s.chans.scrubDone.contains k) = true →
      s.fld Fld.memChstatUeWin c < 16 → ∃ u, exec (.scrubRead c x false) s = .next u ∧
      u.chans.scrubPos = Tab.set 0 s.chans.scrubPos c 0 ∧ u.chans.scrubDone = [] ∧ u.fld Fld.memScrubPasses 0 = s.counted Fld.memScrubPasses 0 1)) ∧
  (∀ (s v e d w : State) (c cw : Nat) (x : Strike) (f : Bool), c < 272 → Damage.wf x.symbols = true → s.flag Fld.memScrubEnable 0 = true → s.chanOn c = true →
    s.slotOf c = none → s.fld Fld.memChstatState c = 1 → s.chans.scrubDone = [] → cw = Tab.get 0 s.chans.scrubPos c → cw + 1 < chanCodewords → 0 < cw →
    v = s.damageCells c cw x → e = v.event baseContext evBurst noRegion (if (v.cellDamage c cw).isEmpty then 1 else 2) → d = e.decodeCw c cw →
    w = (if f = true then (e.setFld Fld.memChstatState c 4).journal recChannel [c, 4, 0x3F]
      else if e.fld Fld.memChstatUeWin c < d.fld Fld.memChstatUeWin c then (d.setFld Fld.memChstatState c 4).journal recChannel [c, 4, 0x3F] else d) →
    s.fld Fld.memChstatUeWin c = e.fld Fld.memChstatUeWin c →
    exec (.scrubRead c x f) s = .next { w with chans := { w.chans with scrubPos := Tab.set 0 w.chans.scrubPos c (cw + 1) } }) ∧
  (∀ (s : State) (l sp : Nat), l < 256 → s.idleSpare (l % 8) = some sp → s.chanOn sp = true → s.declining l = true → s.flag Fld.memSpareCtlAuto 0 = true →
    s.migrationOf (l % 8) = none → s.chans.scrubDone = [] →
    exec (.migrationStart l) s = .next { s.setFld Fld.memChstatState sp 2 with
      chans := { s.chans with migrations := Tab.set none s.chans.migrations (l % 8) (some (l, sp, 0)) } }) ∧
  (∀ (s v v2 w : State) (l sp n old : Nat) (x : Strike), l < 256 → Damage.wf x.symbols = true → s.chanOn sp = true → s.migrationOf (l % 8) = some (l, sp, n) →
    s.boundChan l = some old → v = (s.event baseContext evBurst noRegion 2).damageCells old n x →
    v2 = (v.event baseContext evBurst noRegion (if (v.cellDamage old n).isEmpty then 0 else 1)).decodeCw old n →
    w = ((v2.putArray sp n (v2.arrayData old n) (v2.arrayPoison old n)).copied l sp n).checkUeWin old →
    (n + 1 < chanCodewords → exec (.migrationCopyStep l x false false) s = .next w) ∧
    (n + 1 = chanCodewords → w.fld Fld.memChstatState old = 0 → exec (.migrationCopyStep l x false false) s = .next (w.migrationComplete l old sp)) ∧
    exec (.migrationCopyStep l x true false) s = .next (s.failHard old) ∧ exec (.migrationCopyStep l x false true) s = .next (s.failHard sp)) ∧
  (∀ (s v : State) (l sp f : Nat), l < 256 → s.chanOn sp = true → s.fillOf l = some (sp, f) →
    v = (s.event baseContext evBurst noRegion 1).putArray sp f zeros64 true →
    (f + 1 < chanCodewords → exec (.poisonFillStep l false) s = .next (((v.setFill l (some (sp, f + 1))).lateWrites).lateRepairs)) ∧
    (chanCodewords ≤ f + 1 → exec (.poisonFillStep l false) s =
      .next (((((v.setFill l none).setFld Fld.memChstatState sp 0).journal recChannel [sp, 0, l / 8]).lateWrites).lateRepairs)) ∧
    exec (.poisonFillStep l true) s = .next (s.failHard sp))

/-- For an access that lies in one 64-byte line of the CXL.mem window, over a link that is up, in P0. A read that the segment serves answers the bytes and
the mark that device memory delivers at the segment's address; one that it does not serve answers zeros and counts in ZEROREADS. A write that the
segment serves stores, with its poison, at the segment's address, or is discarded and counted in WPROT when a loaded board protects the range; one
that it does not serve is dropped and counted. In P1 or P2 the access starts a wake and waits for it. An access occurs once the requests it makes of
device memory are served (State.accepted, log 16); that it shows the HDM decoder programmed is log 206. -/
def Obligations.CxlAccessesReachTheSegment : Prop :=
  (∀ (s e : State) (o n : Nat), s.inWindow o n = true → s.inP0 = true → o % 64 + n ≤ 64 → e = s.decoderUsed.event baseContext evCxl noRegion 1 →
    (∀ bytes m v, s.segServes o n false = true → e.takeFor baseContext (s.segAddr o) n = (bytes, m, v) →
      exec (.cxlMemRead o n) s = .next (s.accepted { v with outs := { v.outs with cxlData := bytes, cxlPoison := m } })) ∧
    (s.segServes o n false = false → exec (.cxlMemRead o n) s =
      .next { e.bump Fld.cxmErrZeroreads 0 1 with outs := { s.outs with cxlData := List.replicate n 0, cxlPoison := false } })) ∧
  (∀ (s e : State) (o a : Nat) (bytes : List Byte) (m : Bool), s.inWindow o bytes.length = true → s.inP0 = true → o % 64 + bytes.length ≤ 64 →
    e = s.decoderUsed.event baseContext evCxl noRegion 1 → a = s.segAddr o →
    (s.segServes o bytes.length true = true →
      (∀ t, s.protects a bytes.length = some t → exec (.cxlMemWrite o bytes m) s = .next (e.bump Fld.boardFaultWprot t 1)) ∧
      (s.protects a bytes.length = none → exec (.cxlMemWrite o bytes m) s = .next (s.accepted
        (let v := e.storeMarked baseContext a (bytes.map (fun b => (b, m)))
         if e.holds a then v.inboxSees a bytes.length else v)))) ∧
    (s.segServes o bytes.length true = false → exec (.cxlMemWrite o bytes m) s = .next (e.bump Fld.cxmErrDropped 0 1))) ∧
  (∀ (s : State) (o n : Nat) (bytes : List Byte) (m : Bool), (s.fld Fld.pwrStatState 0 = 1 ∨ s.fld Fld.pwrStatState 0 = 2) →
    (s.inWindow o n = true → exec (.cxlMemRead o n) s = .next { s.startWake with waiting := s.waiting ++ [.cxlMemRead o n] }) ∧
    (s.inWindow o bytes.length = true → exec (.cxlMemWrite o bytes m) s = .next { s.startWake with waiting := s.waiting ++ [.cxlMemWrite o bytes m] }))

/-- INGEST at event 3 whose segments pass R268 holds their run and a reference on each table it names; a list that fails is rejected with its cause.
INGEST_ARM of such an item on an idle engine, with its credits free, takes them and runs. INGEST_BLOCK_DECODE of the next block of a segment that
follows no inbox and lies in its staging range: the block is decoded, its bytes are written at WORK or DST when its result is OK, its result counts
and is written, and the next block begins after it; a block after a bad header is NOT_REACHED. LAYOUT_WRITE of a LAYOUT segment with every block
decoded writes its columns only when every block is OK, and its result words. A raw payload decodes to itself, and a length other than OUT_SIZE is an
overrun or an underrun. What a command reads and writes in device memory it does once all its requests are served (State.accepted, log 16). -/
def Obligations.IngestItemsArmDecodeAndWrite : Prop :=
  (∀ (s v : State) (fn ring n : Nat) (i : Item) (d bytes : List Byte) (m : Bool) (gs : List (List Byte × Segment)), s.passes3 fn ring i d tyIngest = true →
    s.items.any (fun j => j.fn == i.fn && j.list.isSome && j.type == tyIngestCmd && j.phase == .running) = false → n = descCount d →
    (s.pass3 i.id .passed3).takeFor fn (descList d) (128 * n) = (bytes, m, v) →
    gs = (List.range n).map (fun k => ((bytes.drop (128 * k)).take 128, Segment.ofBytes ((bytes.drop (128 * k)).take 128))) →
    ((v.consumed i.id m).ingestCause fn gs = none → exec (.ingest fn ring) s = .next (s.accepted (((v.consumed i.id m).modItem i.id (fun y =>
      { y with phase := .passed4, ingest := some ((v.consumed i.id m).ingestRun fn (gs.map Prod.snd)) })).takeSlots i.id (tablesMask (gs.map Prod.snd))))) ∧
    (∀ c, (v.consumed i.id m).ingestCause fn gs = some c → exec (.ingest fn ring) s = .next (s.accepted ((v.consumed i.id m).reject i.id c)))) ∧
  (∀ (s : State) (item e : Nat) (i : Item) (r : IngestRun), e < 4 → s.item item = some i → i.ingest = some r → i.phase = .passed4 →
    s.engineBusy e = false → s.creditsFit i r.credits = true → exec (.ingestArm item e) s = .next ((s.takeCredits i.fn item r.credits).modItem item
      (fun i => { i with phase := .running, ingest := some { r with engine := some e } }))) ∧
  (∀ (s v w x y : State) (item n out : Nat) (i : Item) (r : IngestRun) (g : Segment) (hd pl : List Byte) (hm pm : Bool) (o : BlockOut), s.item item = some i →
    i.ingest = some r → r.segs[r.seg]? = some g → i.phase = .running → r.block < g.blocks → r.gone = false →
    (r.lost = true → exec (.ingestBlockDecode item) s =
      .next (s.accepted ((s.blockResult i r g resNotReached 0).1.afterBlock i g (s.blockResult i r g resNotReached 0).2))) ∧
    (r.lost = false → r.overrun = false → s.arrivedTo r r.seg = none → r.at_ + 32 ≤ g.src + g.srcBytes → s.takeFor i.fn r.at_ 32 = (hd, hm, v) →
      n = min (leAt hd 0x14 4) (g.src + g.srcBytes - (r.at_ + 32)) → v.takeFor i.fn (r.at_ + 32) n = (pl, pm, w) →
      o = w.decodeBlock i r g hd pl (hm || pm) → x = w.blockRef i (BlockHeader.ofBytes hd) → out = (if g.layout then g.work else g.dst) + r.outSum →
      y = (if o.code = resOk then x.storeFor i.fn out o.bytes else x) →
      exec (.ingestBlockDecode item) s = .next (s.accepted (let z := y.blockResult i (r.noteSlot (BlockHeader.ofBytes hd)) g o.code o.gen
        z.1.afterBlock i g { z.2 with at_ := o.nextAt, outSum := r.outSum + o.size, lost := o.bad, overrun := o.beyond })))) ∧
  (∀ (s v : State) (item : Nat) (i : Item) (r : IngestRun) (g : Segment), s.item item = some i → i.ingest = some r → r.segs[r.seg]? = some g →
    i.phase = .running → g.layout = true → g.blocks ≤ r.block →
    v = (if (finalWords r.results).all (fun w => w % 256 == resOk) then (s.layoutAll item i.fn g).bump Fld.ingestStatBlocksOk i.fn g.blocks else s) →
    exec (.layoutWrite item) s = .next (s.accepted ((if g.statusOut = 0 then v else
      v.storeFor i.fn g.statusOut ((finalWords r.results).flatMap (leBytes 4))).setRun item r.nextSeg))) ∧
  (∀ (h : BlockHeader) (p : List Byte), h.codec = 0 → decodePayload h none p = (if p.length = h.out then (resOk, p) else if h.out < p.length then (resOverrun, [])
    else (resUnderrun, [])))

/-- INGEST_FORWARD of a running item with a piece to forward, whose port is reachable, whose peer is known and which holds fewer than 16 credits of the
first hop: the piece, cut where its mark changes, is read, one BULK packet with the item, inbox, generation and offset goes to the port's peer, and
the bytes forwarded and the writes unanswered follow; with the port unreachable the item stops forwarding. INBOX_WRITE_RECEIVE of the first such
packet delivered here, in P0: written into the inbox at its offset, RECEIVED follows, and it is acknowledged; to an inbox that is not open it is
rejected with reason 1 and nothing is written. The layout of the packet (log 20), the answer of each write on RESPONSE (log 81) and acceptance from
the source port alone (log 79) are the model's. Both occur once the requests they make of device memory are served (State.accepted, log 16). -/
def Obligations.InboxesCarryForwardedBytes : Prop :=
  (∀ (s v w : State) (item k off room n c : Nat) (i : Item) (r : IngestRun) (g : Segment) (bytes : List Byte) (m lost : Bool), s.item item = some i → i.ingest = some r →
    i.phase = .running → r.stopForward = false → s.forwardNext r = some (k, g, off, room) → n = s.sameMark (g.src + off) room →
    (s.portUnreachable g.fwdPort = true → exec (.ingestForward item) s = .next (s.accepted (s.stopForward item))) ∧
    (s.portUnreachable g.fwdPort = false → s.portPeer g.fwdPort = some c → 0 < room → s.onFirstHop item g.fwdPort < 16 →
      s.takeFor i.fn (g.src + off) n = (bytes, m, v) →
      (v.consumed item m).inject (Packet.make c (v.consumed item m).chipId .bulk i.fn k .inboxWrite 0 0 0 [item, g.fwdInbox, g.fwdGen, g.fwdOff + off] bytes m)
        (some g.fwdPort) = (w, lost) →
      exec (.ingestForward item) s = .next (s.accepted (if lost then w.stopForward item
        else w.setRun item { r with forwarded := listSet r.forwarded k (off + n), unanswered := r.unanswered + 1 })))) ∧
  (∀ (s v : State) (l n gen off : Nat) (p : Packet) (rest : List (Nat × Packet)), s.inP0 = true →
    takeFirst s.inbound (fun p => p.kind == .inboxWrite) = some ((l, p), rest) → n = p.aux.getD 1 8 → gen = p.aux.getD 2 0 → off = p.aux.getD 3 0 →
    v = { s with inbound := rest } →
    (Tab.get none s.inboxes n = none → exec .inboxWriteReceive s = .next (s.accepted (v.replyInbox p 4 1))) ∧
    (∀ x, Tab.get none s.inboxes n = some x → s.flag Fld.inboxStatBroken n = false → s.fld Fld.inboxStatGen n = gen → off + p.payload.length ≤ x.size →
      s.portOf l = some x.port → exec .inboxWriteReceive s =
        .next (s.accepted (((v.protectedWrite baseContext (x.base + off) p.payload p.poison).inboxWritten n off p.payload.length).replyInbox p 1 0))))

/-- INGEST_CMD at event 3 begins its list. For the next entry of a running list that is well formed: TABLE_LOAD of a granted slot whose previous
generation nothing holds, from a valid unmarked image, makes the slot's current generation the previous one and installs the image as the next
generation, numbered from 1 to 65,535 in rotation; an image that is marked or not valid is refused with 0x02. DROP of a granted slot retires a current
generation with no references. INBOX_OPEN of a granted inbox that is not open opens it with the next generation and RECEIVED 0; INBOX_CLOSE closes an
open one. A slot, inbox or port that is not granted is refused with 0x01, a load over a previous generation that is held with 0x03, opening an open
inbox and closing one that is not open with 0x05. TABLE_LOAD occurs once its requests to device memory are served (State.accepted, log 16). -/
def Obligations.TableAndInboxCommandsChangeOneSlot : Prop :=
  (∀ (s : State) (fn ring : Nat) (i : Item) (d : List Byte), s.passes3 fn ring i d tyIngestCmd = true →
    exec (.ingestCmd fn ring) s = .next ((s.pass3 i.id .passed3).startList i.id d)) ∧
  (∀ (s u : State) (op item : Nat) (i : Item) (l : ListRun) (b : List Byte) (c : IngestCmd), s.atEntry tyIngestCmd op (fun j => j.list.isSome && j.type == tyIngestCmd) item i l b u →
    c = IngestCmd.ofEntry b → (u.grantOf i).ingestCmdBad c = false →
    (op = icLoad → u.slotGranted i c.index = false → exec (.tableLoad item) s = .next (s.accepted (u.listResult i l 0x01 []))) ∧
    (op = icLoad → u.slotGranted i c.index = true → u.previousHeld c.index = true → exec (.tableLoad item) s = .next (s.accepted (u.listResult i l 0x03 []))) ∧
    (op = icDrop → u.slotGranted i c.index = false → exec (.drop item) s = .next (u.listResult i l 0x01 [])) ∧
    (op = icOpen → (bitOf (u.grantOf i).inboxes c.index = false ∨ (c.port ≠ 0xFF ∧ bitOf (u.grantOf i).ports c.port = false)) →
      exec (.inboxOpen item) s = .next (u.listResult i l 0x01 [])) ∧
    (op = icOpen → bitOf (u.grantOf i).inboxes c.index = true → (c.port = 0xFF ∨ bitOf (u.grantOf i).ports c.port = true) → Tab.get none u.inboxes c.index ≠ none →
      exec (.inboxOpen item) s = .next (u.listResult i l 0x05 [])) ∧
    (op = icClose → bitOf (u.grantOf i).inboxes c.index = false → exec (.inboxClose item) s = .next (u.listResult i l 0x01 [])) ∧
    (op = icClose → bitOf (u.grantOf i).inboxes c.index = true → Tab.get none u.inboxes c.index = none → exec (.inboxClose item) s = .next (u.listResult i l 0x05 [])) ∧
    (op = icLoad → u.slotGranted i c.index = true → u.previousHeld c.index = false → ∀ (image : List Byte) (m : Bool) (v w : State),
      u.takeFor i.fn c.addr 1344 = (image, m, v) →
      ((m = true ∨ tableImageOk image = false) → exec (.tableLoad item) s = .next (s.accepted ((v.consumed i.id m).listResult i l 0x02 []))) ∧
      (m = false → tableImageOk image = true → w = (v.consumed i.id m).demote c.index →
        exec (.tableLoad item) s = .next (s.accepted ((w.setSlotState c.index { w.slotState c.index with
          current := some { gen := (w.slotState c.index).lastGen % 65535 + 1, refs := 0, id := leAt image 4 4,
                            lens := (List.range 256).map (fun k => leAt image (0x20 + k) 1),
                            values := (List.range 256).map (fun k => BitVec.ofNat 32 (leAt image (0x120 + 4 * k) 4)) },
          lastGen := (w.slotState c.index).lastGen % 65535 + 1 }).listResult i l 0 [])))) ∧
    (op = icDrop → u.slotGranted i c.index = true → ∀ g, (u.slotState c.index).current = some g → g.refs = 0 →
      exec (.drop item) s = .next (((u.setSlotState c.index { u.slotState c.index with current := none }).auditFresh 5 (2 * c.index)).listResult i l 0 [])) ∧
    (op = icOpen → u.canonical = true → bitOf (u.grantOf i).inboxes c.index = true → (c.port = 0xFF ∨ bitOf (u.grantOf i).ports c.port = true) → Tab.get none u.inboxes c.index = none →
      ∃ v, exec (.inboxOpen item) s = .next (v.listResult i l 0 []) ∧ Tab.get none v.inboxes c.index = some ⟨c.addr, c.size, c.port, []⟩ ∧
        v.fld Fld.inboxStatReceived c.index = 0 ∧ v.flag Fld.inboxStatOpen c.index = true ∧ v.flag Fld.inboxStatBroken c.index = false ∧
        u.regsBut v [.inboxStat] ∧ v = { u with inboxes := v.inboxes, regs := v.regs }) ∧
    (op = icClose → bitOf (u.grantOf i).inboxes c.index = true → Tab.get none u.inboxes c.index ≠ none →
      exec (.inboxClose item) s = .next ((u.closeInbox c.index).listResult i l 0 [])))

/-- For every state and link: the link is eligible exactly when its LINK_MASK bit is 1 and some valid port names it. -/
def Obligations.LinkIsEligibleInAValidPort : Prop :=
  ∀ (s : State) (l : Nat), s.linkEligible l = true ↔ (bitOf (s.fld Fld.linkMaskEnable 0) l = true ∧ ∃ p, p < 20 ∧ s.portValid p = true ∧ l ∈ s.portLinks p)

/-- A port is valid exactly when it names 1 to 15 links, all local or all global, none of which another port names. LINK_BRINGUP of an eligible disabled
link, past start-up event 8 (log 124), takes it to training at event 1; of a link that is not eligible it changes nothing. LINK_SIGNAL_DETECT at event
1: with four good lanes they become active, a fifth the spare, and with FEC locked and a skew of at most 20 ns event 4 has passed; with fewer the
attempt fails. LINK_IDENTITY_EXCHANGE at event 4: what this chip tells its peer and the peer's identity are kept; a consistent peer brings the link
UP, another takes it DOWN with MISMATCH. A lane qualifies at a measured bit error ratio of 10^-5 or lower. LINK_CODEWORD_RECEIVE on an UP link: a
codeword that FEC or a packet CRC rejects counts in UNCORR, is answered with a NAK in the next codeword sent, and everything is discarded until the
resent copy; a good one in order whose packets find buffers delivers them, hands back credits, and the next SEQ is expected; a good one that came
before is discarded, one from ahead too, and a NAK is due for the first such and for every 256th codeword while the resent copy does not come.
LINK_RETRAIN after RETRY_LIMIT NAKs of one codeword: RETRAIN counts and the link retrains, or stops if its mask bit was cleared; LINK_RETRAIN_COMPLETE
exchanges identities again, or the attempt fails: the next retrain counts, and after three in a row the link is DOWN. When a NAK is sent (log 112),
the buffers handed back (log 113), an attempt that does not lock (log 117) and a mismatch that acts at once (log 118) are the model's. -/
def Obligations.LinksTrainAndCarryCodewords : Prop :=
  (∀ (s : State) (p : Nat), p < 20 → (s.portValid p = true ↔ (1 ≤ (s.portLinks p).length ∧ (s.portLinks p).length ≤ 15 ∧
    ((∀ l ∈ s.portLinks p, 15 ≤ l) ∨ (∀ l ∈ s.portLinks p, l < 15)) ∧ (∀ q l, q < 20 → q ≠ p → l ∈ s.portLinks p → l ∉ s.portLinks q)))) ∧
  (∀ (s : State) (l : Nat), l < 20 →
    (s.linkEligible l = true → s.linksPowered = true → s.fld Fld.linkStatState l = 0 → exec (.linkBringup l) s =
      .next ((s.setLink l { s.link l with event := 1, failedRetrains := 0 }).setFld Fld.linkStatState l 1)) ∧
    (s.linkEligible l = false → exec (.linkBringup l) s = .next s)) ∧
  (∀ (s : State) (l : Nat) (tr : Training), l < 20 → tr.measured.length = 5 → s.linkState l = 1 → (s.link l).event = 1 →
    (4 ≤ (s.goodLanes l tr).length → exec (.linkSignalDetect l tr) s = .next
      (let v := s.chooseLanes l (s.goodLanes l tr)
       if tr.fecLocks = true ∧ tr.skewNs ≤ 20 then v.setLink l { v.link l with event := 4 } else v)) ∧
    ((s.goodLanes l tr).length < 4 → exec (.linkSignalDetect l tr) s = .next (s.attemptFails l))) ∧
  (∀ (s : State) (l : Nat) (tr : Training) (n : Nat), n ∈ s.goodLanes l tr ↔
    n < 5 ∧ s.lane l n ≠ 2 ∧ 0 < (tr.measured.getD n (0, 0)).2 ∧ (tr.measured.getD n (0, 0)).1 * 100000 ≤ (tr.measured.getD n (0, 0)).2) ∧
  (∀ (s v : State) (l : Nat) (x : PeerIdentity), l < 20 → s.linkState l = 1 → (s.link l).event = 4 →
    v = ((s.setLink l { s.link l with told := some (s.identity l), peerPort := x.port }).setFld Fld.linkStatPeerChip l x.chip).setFld Fld.linkStatPeerLink l x.link →
    exec (.linkIdentityExchange l x) s = .next (if v.peerConsistent l x then v.linkUp l else (v.setFlag Fld.linkStatMismatch l true).stopLink l 4)) ∧
  (∀ (s v b w : State) (l : Nat) (cw : Codeword), l < 20 → cw.packets.length ≤ 10 → (∀ p ∈ cw.packets, p.lenOk = true) → s.linkState l = 2 →
    v = s.countSymbols l (Codeword.corrected cw) → b = v.bump Fld.linkErrUncorr l 1 → w = v.linkHeader l cw →
    (Codeword.decodes cw = false ∨ (∃ p ∈ cw.packets, p.crc ≠ p.crcOf) → exec (.linkCodewordReceive l cw) s =
      .next (b.setLink l { b.link l with discarding := true, nakDue := true, missed := 0 })) ∧
    (Codeword.decodes cw = true → (∀ p ∈ cw.packets, p.crc = p.crcOf) →
      (cw.seq % 512 = (w.link l).expect % 512 → w.buffersFor l cw.packets = true → exec (.linkCodewordReceive l cw) s = .next (w.setLink l
        ({ w.link l with expect := (w.link l).expect + 1, discarding := false, arrived := (w.link l).arrived ++ cw.packets }.handBack cw.credits))) ∧
      (cw.seq % 512 = (w.link l).expect % 512 → w.buffersFor l cw.packets = false → exec (.linkCodewordReceive l cw) s =
        .next (w.setLink l { w.link l with discarding := true, nakDue := true, missed := 0 })) ∧
      (∀ k ahead, k = w.link l → ahead = (cw.seq % 512 + 512 - k.expect % 512) % 512 → 0 < ahead → ahead < 512 →
        (k.discarding = false → 255 ≤ ahead → exec (.linkCodewordReceive l cw) s = .next (w.setLink l k)) ∧
        ((k.discarding = false ∧ ahead < 255) ∨ (k.discarding = true ∧ 255 ≤ k.missed) → exec (.linkCodewordReceive l cw) s =
          .next (w.setLink l { k with discarding := true, nakDue := true, missed := 0 })) ∧
        (k.discarding = true → k.missed < 255 → exec (.linkCodewordReceive l cw) s = .next (w.setLink l { k with missed := k.missed + 1 }))))) ∧
  (∀ (s : State) (l : Nat), l < 20 → s.linkState l = 2 → max 1 (s.fld Fld.linkCtlRetryLimit 0) ≤ (s.link l).nakRun →
    ((s.link l).closing = false → exec (.linkRetrain l) s = .next (((s.setLink l { s.link l with event := 1, nakedAt := none, nakRun := 0 }).bump Fld.linkErrRetrains l 1).setFld
      Fld.linkStatState l 3)) ∧
    ((s.link l).closing = true → exec (.linkRetrain l) s = .next ((s.stopLink l 0).startBringup l))) ∧
  (∀ (s : State) (l : Nat) (tr : Training), l < 20 → tr.measured.length = 5 → s.linkState l = 3 →
    (∀ x, 4 ≤ (s.goodLanes l tr).length → tr.fecLocks = true → tr.skewNs ≤ 20 →
      exec (.linkRetrainComplete l tr (some x)) s = .next ((s.chooseLanes l (s.goodLanes l tr)).exchange l x)) ∧
    exec (.linkRetrainComplete l tr none) s = .next (s.attemptFails l)) ∧
  (∀ (s v : State) (l : Nat), v = (s.setLink l { s.link l with event := 1, failedRetrains := (s.link l).failedRetrains + 1 }).setFlag Fld.linkStatMismatch l false →
    ((s.link l).failedRetrains = 2 → s.attemptFails l = v.stopLink l 4) ∧
    ((s.link l).failedRetrains < 2 → v.linkState l = 3 → s.attemptFails l = v.bump Fld.linkErrRetrains l 1) ∧
    ((s.link l).failedRetrains < 2 → v.linkState l = 1 → s.attemptFails l = v))

/-- On an UP link: LANE_SWITCH_REQUEST of an active lane over its symbol threshold, with a spare and automatic sparing, agrees a codeword 16 ahead, named
by its SEQ, and queues the request; the peer's request received with no request outstanding is taken; LANE_SWITCH from the agreed codeword on puts the
spare in place of the lane, which fails; LANE_LOCK_LOSS does so at once, and with no spare the link retrains; the idle spare that stops qualifying
fails. LINK_PACKET_SEND with a codeword to resend sends it again and counts it; else it takes the head that R301 chooses, with the next PSEQ of its
port and channel and one more stage, into the flits to be sent and sends a codeword once ten flits are there; with nothing to take it sends a codeword
of what is there, filled with idle flits and kept for resending; with 256 kept it sends idle flits under the last number acknowledged; a link whose
mask bit was cleared sends the packet begun and stops. A codeword is 544 symbols of 10 bits, the first 514 its header and flits, symbol i on the
active lane at position i mod 4. PACKET_RECEIVE counts a duplicate PSEQ, delivers a packet for this chip, and forwards any other; the buffer of the
first two is free again. One command as a step of the stream (log 186), NAK and buffers (logs 112, 113), the SEQ of a switch (log 116), the channel
skipped (log 122), idle flits (log 185) and the order of the bits (log 208) are the model's. MGMT goes before every other channel, and CLASP before
RESPONSE and BULK until four have gone while BULK waits. -/
def Obligations.LanesAreSparedAndPacketsMove : Prop :=
  (∀ (s v : State) (l n : Nat), l < 20 → n < 5 → s.linkState l = 2 → s.lane l n = 0 → s.flag Fld.linkCtlAutoSpare 0 = true → (s.link l).switch = none →
    s.lanesIn l 1 ≠ [] → s.fld Fld.linkCtlSymThresh 0 < s.windowSymbols l n → s.mgmtFull l = false →
    v = s.setLink l { s.link l with switch := some ⟨n, ((s.link l).sent + 16) % 512, false⟩ } → exec (.laneSwitchRequest l n) s =
      .next (v.enqueue l 20 (Packet.make (v.fld Fld.linkStatPeerChip l) v.chipId .mgmt 0 0 .laneSwitch 0 0 0 [n, ((s.link l).sent + 16) % 512] [] false))) ∧
  (∀ (s v : State) (l : Nat) (e : Nat × Packet), l < 20 → s.linkState l = 2 → s.inbound.find? (fun e => e.1 == l && e.2.kind == .laneSwitch) = some e →
    (s.link l).switch = none → v = { s with inbound := s.inbound.erase e } →
    exec (.laneSwitchRequestReceive l) s = .next (v.setLink l { s.link l with switch := some ⟨e.2.aux.getD 0 0 % 5, e.2.aux.getD 1 0, true⟩ })) ∧
  (∀ (s v : State) (l sp : Nat) (r : List Nat) (w : LaneSwitchAt), l < 20 → s.linkState l = 2 → (s.link l).switch = some w → (s.link l).switchReached w = true →
    v = s.setLink l { s.link l with switch := none } → v.lanesIn l 1 = sp :: r → v.lane l w.lane = 0 → exec (.laneSwitch l) s = .next (v.switchLane l w.lane sp)) ∧
  (∀ (s : State) (l n : Nat), l < 20 → n < 5 → s.linkState l = 2 → s.lane l n = 0 →
    (∀ sp r, s.lanesIn l 1 = sp :: r → exec (.laneLockLoss l n) s = .next (s.switchLane l n sp)) ∧
    (s.lanesIn l 1 = [] → exec (.laneLockLoss l n) s = .next (s.retrain l))) ∧
  (∀ (s : State) (l sp : Nat) (r : List Nat), l < 20 → s.linkState l = 2 → s.lanesIn l 1 = sp :: r →
    exec (.spareLaneStopsQualifying l) s = .next (s.failLane l sp)) ∧
  (∀ (s : State) (l n : Nat) (e : Nat × SentCodeword), l < 20 → s.linkState l = 2 → (s.link l).resend = some n →
    (s.link l).replay.find? (fun e => n ≤ e.1) = some e → exec (.linkPacketSend l) s =
      .next ((s.setLink l { (s.link l).send e.1 e.2.flits e.2.credits with resend := ((s.link l).replay.find? (fun x => e.1 < x.1)).map Prod.fst }).bump
        Fld.linkErrRetries l 1)) ∧
  (∀ (s : State) (l : Nat) (fs : List Flit), l < 20 → s.linkState l = 2 → (s.link l).resend = none → (s.link l).closing = false → (10 ≤ (s.link l).tx.length ∨ (s.link l).chosen = none) →
    (s.link l).replay.length < 256 →
    fs = (s.link l).tx.take 10 ++ (List.range (10 - (s.link l).tx.length)).map (fun i => idleFlit l (s.link l).sent ((s.link l).tx.length + i)) →
    exec (.linkPacketSend l) s = .next (s.setLink l { s.link l with
      sent := (s.link l).sent + 1, tx := (s.link l).tx.drop 10, owed := [], nakDue := false
      out := some ⟨(s.link l).sent % 512, ((s.link l).expect + 511) % 512, decide (0 < (s.link l).expect), (s.link l).nakDue, fs, (s.link l).owed⟩
      replay := (s.link l).replay ++ [((s.link l).sent, ⟨(s.link l).sent % 512, ((s.link l).expect + 511) % 512, decide (0 < (s.link l).expect), (s.link l).nakDue, fs,
        (s.link l).owed⟩)] }) ∧ fs.length = 10) ∧
  (∀ (s : State) (l : Nat), l < 20 → s.linkState l = 2 → (s.link l).resend = none → (s.link l).closing = false →
    (10 ≤ (s.link l).tx.length ∨ (s.link l).chosen = none) → 256 ≤ (s.link l).replay.length → exec (.linkPacketSend l) s = .next (s.setLink l { s.link l with
      nakDue := false, out := some ⟨((s.link l).sent + 255) % 512, ((s.link l).expect + 511) % 512, decide (0 < (s.link l).expect), (s.link l).nakDue,
        (List.range 10).map (idleFlit l (s.link l).sent), []⟩ })) ∧
  (∀ (s v : State) (l : Nat), l < 20 → s.linkState l = 2 → (s.link l).resend = none → (s.link l).closing = true → v = s.newCodeword l →
    ((v.link l).unfinished = 0 → exec (.linkPacketSend l) s = .next ((v.stopLink l 0).startBringup l)) ∧
    ((v.link l).unfinished ≠ 0 → exec (.linkPacketSend l) s = .next v)) ∧
  (∀ (c : SentCodeword) (n i : Nat), i < 544 → c.symbols.length = 544 ∧ (c.laneSymbols n).length = 136 ∧ (c.laneSymbols (i % 4)).getD (i / 4) 0 = c.symbols.getD i 0 ∧
    (i < 514 → c.symbols.getD i 0 = c.data / 2 ^ (10 * i) % 2 ^ 10) ∧ c.data % 2 ^ 20 = c.header ∧ c.data / 2 ^ 20 = leNat (c.flits.flatMap (fun f => f.bytes)) ∧
    c.header = c.seq % 512 + 2 ^ 9 * (c.ack % 512) + 2 ^ 18 * (if c.ackv then 1 else 0) + 2 ^ 19 * (if c.nak then 1 else 0)) ∧
  (∀ (s v : State) (l port key : Nat) (e : Nat × Packet) (p : Packet), l < 20 → s.linkState l = 2 → (s.link l).resend = none → (s.link l).closing = false → (s.link l).tx.length < 10 →
    (s.link l).chosen = some e → s.portOf l = some port → e.1 = 20 → e.2.vc ≠ .mgmt → key = 4 * port + e.2.vc.code →
    p = { e.2 with pseq := Tab.get 0 s.pseqs key, stage := e.2.stage + 1 } → v = s.takePacket l port e →
    exec (.linkPacketSend l) s = .next (if 10 ≤ (v.link l).tx.length then v.newCodeword l else v) ∧
    v = { s with links := v.links, pseqs := v.pseqs, power := v.power } ∧ v.pseqs = Tab.set 0 s.pseqs key ((Tab.get 0 s.pseqs key + 1) % 2 ^ 24) ∧
    (Tab.sorted s.links = true → (v.link l).queue = (s.link l).queue.erase e ∧ (v.link l).tx = (s.link l).tx ++ p.flitList ∧
      (∀ m, m ≠ l → v.link m = s.link m))) ∧
  (∀ (s v w : State) (l port : Nat) (p : Packet) (old : List Nat), l < 20 → (s.link l).arrived.find? (fun p => !s.forwardWaits p) = some p →
    s.portOf l = some port → old = Tab.get [] s.deliveredSeqs (4 * port + p.vc.code) →
    v = (if p.kind = .chunk ∧ p.dst = s.chipId then s.setLink l { s.link l with arrived := (s.link l).arrived.erase p }
      else (s.setLink l { s.link l with arrived := (s.link l).arrived.erase p }).event baseContext evFlit noRegion p.flits) →
    w = { v with deliveredSeqs := Tab.set [] s.deliveredSeqs (4 * port + p.vc.code) ((p.pseq :: old).take 4096) } →
    (p.pseq ∈ old → exec (.packetReceive l) s = .next ((v.oweCredit l p).bump Fld.linkRouteDups 0 1)) ∧
    (p.pseq ∉ old → p.dst = s.chipId → exec (.packetReceive l) s = .next { w.oweCredit l p with inbound := s.inbound ++ [(l, p)] }) ∧
    (p.pseq ∉ old → p.dst ≠ s.chipId → exec (.packetReceive l) s = .next (w.forward l p))) ∧
  (∀ k : Link, (k.heads .mgmt ≠ [] → k.nextVc = some .mgmt) ∧
    (k.heads .mgmt = [] → 4 ≤ k.run → k.heads .bulk ≠ [] → k.nextVc = some .bulk) ∧
    (k.heads .mgmt = [] → (k.run < 4 ∨ k.heads .bulk = []) → k.heads .clasp ≠ [] → k.nextVc = some .clasp))

/-- For every state in canonical form and every discarded write of the MGC or Loupe at an offset: nothing changes but SEC_BOUND and the record of
discarded writes; the agent's count rises, and the last offset and agent are kept. When no BOUND record has been made, or the last is a second old,
one is made with the agent, the offset and the writes discarded since, this one included, and the count starts again; otherwise no record is made and
the count rises. LINK_MASK, LINK_RT, LINK_PORT, LINK_TOPO, FN_QUOTA, HWIN, GRANT_CTL, TENANT_CTL and AUDIT_CTL written in P0 by Loupe, or by the MGC
while it runs its firmware and no probe holds it, SETUP_CTL written by Loupe, and every REGISTER_WRITE that reaches such a register, are discarded in
this way, in P0 and in P3. -/
def Obligations.DiscardedWritesAreCountedAndRecorded : Prop :=
  (∀ (s u : State) (a : Agent) (o n : Nat), (a = .mgc ∨ a = .loupe) → s.canonical = true → u = s.boundDiscard a o → n = (if a = .loupe then 1 else 0) →
    u = { s with regs := u.regs, sec := { s.sec with changes := u.sec.changes, boundWrites := u.sec.boundWrites, boundAt := u.sec.boundAt } } ∧
    s.regsBut u [.secBound] ∧ u.fld Fld.secBoundLastAgent 0 = n ∧ u.fld Fld.secBoundLastOffset 0 = o / 4 % 2 ^ Fld.secBoundLastOffset.width ∧
    u.fld Fld.secBoundMgc 0 = s.counted Fld.secBoundMgc 0 (1 - n) ∧ u.fld Fld.secBoundLoupe 0 = s.counted Fld.secBoundLoupe 0 n ∧
    ((∀ c, s.sec.boundAt = some c → c + 1000000000 ≤ s.tally) → u.sec.changes = s.sec.changes ++ [(recBound, [n, o, s.sec.boundWrites + 1], s.tally)] ∧
      u.sec.boundWrites = 0 ∧ u.sec.boundAt = some s.tally) ∧
    (∀ c, s.sec.boundAt = some c → s.tally < c + 1000000000 → u.sec.changes = s.sec.changes ∧ u.sec.boundWrites = s.sec.boundWrites + 1 ∧
      u.sec.boundAt = some c)) ∧
  (∀ (s : State) (a : Agent), (a = .loupe ∨ (a = .mgc ∧ s.sec.mgcRuns = true ∧ s.sec.mgcHalted = false)) → s.inP0 = true →
    (∀ v, exec (.linkMaskWrite a v) s = .next (s.boundDiscard a 0x6000)) ∧
    (∀ c v, c < 2048 → exec (.linkRtWrite a c v) s = .next (s.boundDiscard a (0xA000 + 4 * c))) ∧
    (∀ p v, p < 20 → exec (.linkPortWrite a p v) s = .next (s.boundDiscard a (0x6100 + 8 * p))) ∧
    (∀ v, exec (.linkTopoWrite a v) s = .next (s.boundDiscard a 0x6010)) ∧
    (∀ c v, c < 64 → exec (.fnQuotaWrite a c v) s = .next (s.boundDiscard a (0x1000200 + 0x1000 * c))) ∧
    (∀ w v, w < 256 → exec (.hwinSetLock a w v) s = .next (s.boundDiscard a (0x1400000 + 16 * w))) ∧
    (∀ c, c < 64 → exec (.grantCommit a c) s = .next (s.boundDiscard a (0x10001F8 + 0x1000 * c)) ∧
      exec (.tenantFence a c) s = .next (s.boundDiscard a (0x1000208 + 0x1000 * c)) ∧
      exec (.tenantUnfence a c) s = .next (s.boundDiscard a (0x1000208 + 0x1000 * c))) ∧
    exec (.auditSnap a) s = .next (s.boundDiscard a 0x3008) ∧ exec (.setupLock .loupe) s = .next (s.boundDiscard .loupe 0x8) ∧
    (∀ o size v, aligned48 o size = true → s.writeDiscarded a o size = true → s.servedAsleep a o = false →
      exec (.registerWrite a o size v) s = .next (s.boundDiscard a o))) ∧
  (∀ (s : State) (a : Agent) (o size : Nat) (v : Word64), (a = .loupe ∨ (a = .mgc ∧ s.sec.mgcRuns = true ∧ s.sec.mgcHalted = false)) →
    s.fld Fld.pwrStatState 0 = 3 → aligned48 o size = true → s.writeDiscarded a o size = true →
    exec (.registerWrite a o size v) s = .next (s.boundDiscard a o))

/-- For the physical function's host driver, in P0. LINK_MASK_WRITE stores the mask, stops the links whose bits clear, one in the middle of a packet at
the packet's end, and begins the bring-up of those whose bits set; LINK_RT_WRITE stores the entry, its reserved bits zero (log 121); LINK_PORT_WRITE
and LINK_TOPO_WRITE before the lock point store the field and restart the links they touch (log 120), and after it change nothing. FN_QUOTA_WRITE
stores LIMIT unless the sum over the contexts would exceed 16,384, which sets REFUSED. HWIN_SET_LOCK of an unlocked window stores its fields and locks
it (log 94); a locked window does not change. GRANT_COMMIT of a staged grant that breaks a rule of R347 sets REFUSED and CAUSE; otherwise the grant is
committed at once, or stays pending where it narrows and checked items run (log 99). AUDIT_SNAP gives the five counts of the selected index, zeros for
a pool above 10, and checks it. A 4-byte REGISTER_WRITE of a register with no action of its own changes that register alone: fields of access RW that
the 4 bytes cover take their bits; RO and WO fields, and RWL fields after the lock point, do not change. One of LINK_MASK, LINK_RT, LINK_PORT,
LINK_TOPO or FN_QUOTA, and one that sets the commit bit of GRANT_CTL, is that command. -/
def Obligations.HostWritesTakeEffect : Prop :=
  (∀ (s : State), s.inP0 = true →
    (∀ (v : Word32), exec (.linkMaskWrite .hostPf v) s = .next ((List.range 20).foldl (fun u l =>
      if bitOf (s.fld Fld.linkMaskEnable 0) l && !bitOf v.toNat l then u.maskOff l
      else if !bitOf (s.fld Fld.linkMaskEnable 0) l && bitOf v.toNat l then u.startBringup l else u) (s.setFld Fld.linkMaskEnable 0 v.toNat))) ∧
    (∀ c (v : BitVec 16), c < 2048 → exec (.linkRtWrite .hostPf c v) s = .next (s.setFld Fld.linkRtEntry c (v.toNat % 4096))) ∧
    (∀ p (v : BitVec 20), p < 20 → (s.locked = true → exec (.linkPortWrite .hostPf p v) s = .next s) ∧
      (s.locked = false → exec (.linkPortWrite .hostPf p v) s = .next (((List.range 20).filter (fun l =>
        ((List.range 20).map s.portOf).getD l none != (s.setFld Fld.linkPortLinks p v.toNat).portOf l)).foldl State.rejoin (s.setFld Fld.linkPortLinks p v.toNat)))) ∧
    (∀ (v : BitVec 11), (s.locked = true → exec (.linkTopoWrite .hostPf v) s = .next s) ∧
      (s.locked = false → s.chipId ≠ v.toNat → exec (.linkTopoWrite .hostPf v) s = .next ((List.range 20).foldl (fun u l =>
        if u.linkState l = 0 then u else u.restartLink l) (s.setFld Fld.linkTopoChip 0 v.toNat)))) ∧
    (∀ c (v : BitVec 15), c < 64 → exec (.fnQuotaWrite .hostPf c v) s = .next (if 16384 < s.otherQuotas c + v.toNat then s.setFlag Fld.fnQuotaRefused c true
      else (s.setFld Fld.fnQuotaLimit c v.toNat).setFlag Fld.fnQuotaRefused c false)) ∧
    (∀ c, c < 64 → (s.grantCause c (s.staged c) ≠ 0 → exec (.grantCommit .hostPf c) s =
        .next ((s.setFlag Fld.grantCtlRefused c true).setFld Fld.grantCtlCause c (s.grantCause c (s.staged c)))) ∧
      (s.grantCause c (s.staged c) = 0 → (Grant.includes (s.staged c) (s.grant c) = true ∨ s.checkedItems c = []) →
        exec (.grantCommit .hostPf c) s = .next ((s.setGrant c (s.staged c)).setFlag Fld.grantCtlRefused c false)) ∧
      (s.grantCause c (s.staged c) = 0 → Grant.includes (s.staged c) (s.grant c) = false → s.checkedItems c ≠ [] →
        exec (.grantCommit .hostPf c) s = .next (({ (s.setGrant c (s.staged c)).setFlag Fld.grantCtlRefused c false with
          narrowing := Tab.set none s.narrowing c (some (s.grant c, s.checkedItems c)) } : State).setFlag Fld.grantCtlPending c true)))) ∧
  (∀ (u : State) (l : Nat), u.maskOff l = if u.linkState l = 2 ∧ (u.link l).unfinished ≠ 0 then u.setLink l { u.link l with closing := true } else u.stopLink l 0) ∧
  (∀ (s : State) (w : Nat) (v : BitVec 113), s.inP0 = true → w < 256 → s.canonical = true →
    (s.flag Fld.hwinLock w = true → exec (.hwinSetLock .hostPf w v) s = .next s) ∧
    (s.flag Fld.hwinLock w = false → ∃ u, exec (.hwinSetLock .hostPf w v) s = .next u ∧ s.regsBut u [.hwin] ∧ u = { s with regs := u.regs } ∧
      u.flag Fld.hwinLock w = true ∧ u.fld Fld.hwinBase w = v.toNat % 2 ^ 64 ∧ u.fld Fld.hwinSize w = v.toNat / 2 ^ 64 % 2 ^ 40 ∧
      u.fld Fld.hwinTenant w = v.toNat / 2 ^ 104 % 64 ∧ u.fld Fld.hwinRead w = v.toNat / 2 ^ 110 % 2 ∧ u.fld Fld.hwinWrite w = v.toNat / 2 ^ 111 % 2 ∧ u.fld Fld.hwinEnable w = v.toNat / 2 ^ 112 % 2)) ∧
  (∀ (s : State) (p i : Nat), s.inP0 = true → s.canonical = true → p = s.fld Fld.auditCtlPool 0 → i = auditIndex p (s.fld Fld.auditCtlIndex 0) →
    ∃ v, exec (.auditSnap .hostPf) s = .next (if p ≤ 10 then v.auditCheck p i else v) ∧ v = { s with regs := v.regs } ∧ s.regsBut v [.auditData] ∧
      v.fld Fld.auditDataCapacity 0 = (if p ≤ 10 then (s.auditCapacity p i).getD 0 % 2 ^ 32 else 0) ∧
      v.fld Fld.auditDataHeld 0 = (if p ≤ 10 then s.auditHeld p i % 2 ^ 32 else 0) ∧ v.fld Fld.auditDataFree 0 = (if p ≤ 10 then s.auditFree p i % 2 ^ 32 else 0) ∧
      v.fld Fld.auditDataIssued 0 = (if p ≤ 10 then s.auditIssued p i % 2 ^ 32 else 0) ∧
      v.fld Fld.auditDataReturned 0 = (if p ≤ 10 then s.auditReturned p i % 2 ^ 32 else 0)) ∧
  (∀ (s : State) (o : Nat) (v : Word64) (r : Reg) (i b : Nat), s.inP0 = true → s.canonical = true → o % 4 = 0 → s.locate o = some (r, i, b) →
    r ∉ [.doorbell, .msixTable, .tileSeq, .msixMod, .ringCfg, .hwin, .setupCtl, .pwrCtl, .pwrCfg, .linkMask, .linkRt, .linkPort, .linkTopo, .fnQuota, .grantCtl,
      .tenantCtl, .auditCtl, .meas] →
    ∃ u, exec (.registerWrite .hostPf o 4 v) s = .next u ∧ u = { s with regs := u.regs } ∧ s.regsBut u [r] ∧ (∀ f j, f ∈ r.fields → j ≠ i → u.fld f j = s.fld f j) ∧
      ∀ f, f ∈ r.fields →
        (f.acc = .rw → 8 * b ≤ f.lo → f.lo + f.width ≤ 8 * b + 32 → u.fld f i = v.toNat % 2 ^ 32 / 2 ^ (f.lo - 8 * b) % 2 ^ f.width) ∧
        ((f.acc = .ro ∨ f.acc = .wo ∨ (f.acc = .rwl ∧ s.locked = true)) → u.fld f i = s.fld f i)) ∧
  (∀ (s : State) (o : Nat) (v : Word64) (r : Reg) (i b : Nat), s.inP0 = true → o % 4 = 0 → s.locate o = some (r, i, b) →
    (r = .linkMask → exec (.registerWrite .hostPf o 4 v) s = exec (.linkMaskWrite .hostPf (v.setWidth 32)) s) ∧
    (r = .linkRt → i < 2048 → exec (.registerWrite .hostPf o 4 v) s = exec (.linkRtWrite .hostPf i (v.setWidth 16)) s) ∧
    (r = .linkPort → i < 20 → b = 0 → exec (.registerWrite .hostPf o 4 v) s = exec (.linkPortWrite .hostPf i (v.setWidth 20)) s) ∧
    (r = .linkTopo → exec (.registerWrite .hostPf o 4 v) s = exec (.linkTopoWrite .hostPf (v.setWidth 11)) s) ∧
    (r = .fnQuota → i < 64 → exec (.registerWrite .hostPf o 4 v) s = exec (.fnQuotaWrite .hostPf i (v.setWidth 15)) s) ∧
    (r = .grantCtl → i < 64 → v.toNat % 2 = 1 → exec (.registerWrite .hostPf o 4 v) s = exec (.grantCommit .hostPf i) s))

/-- RSEND that may issue, whose source range meets nothing in flight: it is in flight, its transfer joins the transfers and sends what its credits allow;
otherwise it holds. RLAND whose delivery range meets nothing in flight: it is in flight, its post joins the landing of its collective, step and tile,
and what came early is judged by it. CHUNK_RECEIVE in P0 of the first chunk delivered here whose tile can take it, its flits charged: a bad CRC is
answered with NAK and counts; a chunk whose launch runs here goes to that launch, and one for a copy is written with its mark row by row, one row a
command, before another chunk for its tile is taken (log 17); with no launch here it is answered with ABORT when its key is kept as aborted, and with
BUSY otherwise. LANDING_COMBINE of a held chunk that is due adds its elements, one W34 addition each, into the accumulator of its index, notes which
of them saturated, and releases its slot. -/
def Obligations.TransfersAndLandingsBegin : Prop :=
  (∀ (s v : State) (t p : Nat) (i : Insn) (q : Part) (item : Item) (l : Launch) (b : Board) (e : Route) (x : Transfer), s.atInsn t p opRsend i = true →
    (s.tile p).part = some q → s.partItem (s.tile p) = some item → item.launch = some l → s.launchBoard item = some b →
    (s.launchVariant item).bind (fun v => v.routes[i.arg 0 16]?) = some e → x = s.newTransfer t (s.tile p).nextOp i e item l b q →
    v = s.issueOp t p ((s.tile p).mkOp i 0 [(x.src, e.length)] [] 1 0) →
    exec (.rsend t) s = .next (if (s.tile p).clearOf [(x.src, e.length)] [] then
      ({ v with transfers := v.transfers ++ [x], nextTransfer := v.nextTransfer + 1 }).pumpOne x.id else s)) ∧
  (∀ (s : State) (t p : Nat) (i : Insn) (q : Part) (l : Landing) (writes : List (Nat × Nat)), s.atInsn t p opRland i = true → (s.tile p).part = some q →
    writes = i.landSegs ((s.tile p).opnd i.opd0) → l = s.landing q.item (i.arg 0 12) (i.arg 12 7) t →
    exec (.rland t) s = .next (if (s.tile p).clearOf [] writes then
      ((s.setLanding { l with posts := l.posts ++ [((s.tile p).nextOp, s.tally)] }).issueOp t p ((s.tile p).mkOp i 0 [] writes 1 0)).postLanding l i else s)) ∧
  (∀ (s v : State) (link : Nat) (p : Packet) (rest : List (Nat × Packet)) (f : ChunkFields), s.inP0 = true → s.arriving.find? (fun a => s.tileTakes a.tile) = none →
    takeFirst s.inbound (fun p => p.kind == .chunk && s.chunkReady p) = some ((link, p), rest) → f = ChunkFields.of p →
    v = (if link < 20 then ({ s with inbound := rest } : State).event (((s.launchOf f.tag f.cseq).map (·.fn)).getD baseContext) evFlit noRegion p.flits
      else { s with inbound := rest }) →
    (p.crc ≠ p.crcOf → exec .chunkReceive s =
      .next ((v.bump Fld.collStatNaks (((s.launchOf f.tag f.cseq).map (·.fn)).getD p.tenant) 1).reply p 2 0 f.chunk)) ∧
    (p.crc = p.crcOf → ∀ i b, s.launchOf f.tag f.cseq = some i → v.launchBoard i = some b → exec .chunkReceive s = .next (v.chunkFor i b link 0 p f)) ∧
    (p.crc = p.crcOf → s.launchOf f.tag f.cseq = none →
      (∀ k, s.keptKey f.tag f.cseq = some k → exec .chunkReceive s = .next (v.reply p 5 k.status 0)) ∧
      (s.keptKey f.tag f.cseq = none → exec .chunkReceive s = .next (v.reply p 3 0 f.chunk)))) ∧
  (∀ (s v : State) (a : Arrival) (i : Item) (b : Board) (f : ChunkFields), s.arriving.find? (fun a => s.tileTakes a.tile) = some a → f = ChunkFields.of a.packet →
    s.launchOf f.tag f.cseq = some i → s.launchBoard i = some b → v = { s with arriving := s.arriving.erase a } →
    exec .chunkReceive s = .next (v.chunkFor i b a.link a.rows a.packet f)) ∧
  (∀ (s v w : State) (i : Item) (l : Landing) (bt link rows q : Nat) (p : Packet) (f : ChunkFields) (evs : List Nat) (g : Nat × Nat),
    l.acked.contains (f.rank, f.xfer) = false → i.phase = .running → v = s.consumed i.id p.poison → v.physOf l.tile = some q → (v.tile q).itemId = some i.id →
    (rowPieces (f.off, p.payload.length))[rows]? = some g →
    w = (v.race l.tile (v.tile q).part (if (v.tile q).meetsEngine (g.1 / 256) true evs then 1 else 0)).tileEvent q evRow 1 →
    s.copyReceive i l bt link rows p f evs = (let u := w.setTile q (((w.tile q).writeAt g.1 ((p.payload.drop (g.1 - f.off)).take g.2)).markSegs [g] p.poison);
      if rows + 1 < (rowPieces (f.off, p.payload.length)).length then { u with arriving := u.arriving ++ [⟨l.tile, link, p, f.off, rows + 1, evs⟩] }
      else u.copyWritten i l false p f)) ∧
  (∀ (s : State) (t p op rank chunk : Nat) (x : Op) (l : Landing) (h : HeldChunk), s.acts t p = true → (s.tile p).op op = some x →
    s.landings.find? (fun l => l.tile == t && (l.posts.map Prod.fst).head? == some op) = some l →
    l.held.find? (fun h => h.srcRank == rank && h.chunk == chunk &&
      (h.orderFree || (s.ranksOf l.item x.insn).all (fun q => rank ≤ q || l.combined.contains (q, chunk)))) = some h →
    exec (.landingCombine t op rank chunk) s = .next ((s.combine l x.insn h).settle l.item l.coll l.step t)) ∧
  (∀ (s : State) (l : Landing) (i : Insn) (h : HeldChunk), s.landings.find? (fun x => x.at_ l.item l.coll l.step l.tile) = some l → h.orderFree = false →
    ∃ m, (s.combine l i h).landing l.item l.coll l.step l.tile = m ∧ m.held = l.held.erase h ∧ m.combined = (h.srcRank, h.chunk) :: l.combined ∧
      m.accs = Tab.set [] l.accs h.chunk (if (Tab.get [] l.accs h.chunk).isEmpty then (i.landValues h.bytes).map (fun x => w34Add 0 x)
        else ((Tab.get [] l.accs h.chunk).zip (i.landValues h.bytes)).map (fun e => w34Add e.1 e.2)))

/-- For the first reply or notice of its type delivered here. A reply answers the transfer whose chunk its fields and its number describe (log 20). ACK
ends it and completes its RSEND. NAK counts against the chunk: below NAK_LIMIT the chunk is sent again, at it the launch part fails with
FAILED_COLLECTIVE. BUSY counts, and the chunk waits BACKOFF µs; CHUNK_BACKOFF_EXPIRY then sends it again. REJECT counts at the sender (log 167), marks
the item REJECTED_STALE_WINDOW and ends the transfer. ABORT fails the launch part with its key, with the sender as the abort chip, or keeps the key
among the last 64 when no launch here has it and none is kept for the timeout. A notice of a dropped chunk fails its launch part with
FAILED_UNREACHABLE. COLLECTIVE_TIMEOUT of an item with a late transfer or landing fails its part. ABORTED_KEY_EXPIRY drops exactly the keys kept for
the timeout. -/
def Obligations.RepliesDecideTransfers : Prop :=
  (∀ (s v : State) (link : Nat) (p : Packet) (rest : List (Nat × Packet)) (x : Transfer), isForwardReply p = false → v = { s with inbound := rest } →
    v.answered p = some x →
    (takeFirst s.inbound (fun p => isReply p 1 && (isForwardReply p || s.answerReady p)) = some ((link, p), rest) → exec .ack s = .next (v.endTransfer x)) ∧
    (takeFirst s.inbound (fun p => isReply p 4 && (isForwardReply p || s.answerReady p)) = some ((link, p), rest) →
      exec .reject s = .next (((v.bump Fld.collStatRejects p.tenant 1).addStatus x.item stStaleWindow).endTransfer x)) ∧
    (takeFirst s.inbound (fun p => isReply p 2) = some ((link, p), rest) → ∀ c n w, c = replyChunk p → n = Tab.get 0 x.naks c + 1 →
      w = v.modTransfer x.id (fun x => { x with naks := Tab.set 0 x.naks c n }) →
      exec .nak s = .next (if max 1 (s.fld Fld.collCtlNakLimit 0) ≤ n then w.failPart x.item stCollFailed else w.resendChunk x.id c)) ∧
    (takeFirst s.inbound (fun p => isReply p 3) = some ((link, p), rest) → ∀ b, b = v.bump Fld.collStatBusy p.tenant 1 →
      exec .busy s = .next (b.modTransfer x.id (fun x =>
        { x with naks := Tab.set 0 x.naks (replyChunk p) 0, backoff := x.backoff ++ [(replyChunk p, s.tally + 1000 * max 1 (b.fld Fld.collCtlBackoff 0))] })))) ∧
  (∀ (s : State) (id c : Nat) (x : Transfer) (b : Nat × Nat), s.transfer id = some x → x.backoff.find? (fun b => b.1 == c && b.2 ≤ s.tally) = some b →
    exec (.chunkBackoffExpiry id c) s = .next ((s.modTransfer id (fun x => { x with backoff := x.backoff.erase b })).resendChunk id c)) ∧
  (∀ (s v : State) (link tag cseq : Nat) (p : Packet) (rest : List (Nat × Packet)), takeFirst s.inbound (fun p => isReply p 5) = some ((link, p), rest) →
    v = { s with inbound := rest } → tag = p.t14.toNat → cseq = p.t18.toNat % 2 ^ 24 →
    (∀ i, s.launchOf tag cseq = some i →
      exec .abort s = .next ((v.modItem i.id (fun i => { i with abortChip := some p.src })).failPart i.id stCollFailed)) ∧
    (s.launchOf tag cseq = none → (s.keptKey tag cseq).isSome = true → exec .abort s = .next v) ∧
    (s.launchOf tag cseq = none → s.keptKey tag cseq = none →
      exec .abort s = .next { v with abortedKeys := (s.abortedKeys ++ [AbortedKey.mk tag cseq stCollFailed s.tally (some p.src)]).drop (s.abortedKeys.length + 1 - 64) })) ∧
  (∀ (s v : State) (link : Nat) (p : Packet) (rest : List (Nat × Packet)) (x : Transfer), takeFirst s.inbound (fun p => p.kind == .notice) = some ((link, p), rest) →
    v = { s with inbound := rest } → p.aux.getD 0 9 ≤ 1 → v.transferOf (leAt p.payload 0 2 % 2048) (leAt p.payload 0xC 2) (leAt p.payload 0x14 4)
      (leAt p.payload 0x18 4) (leAt p.payload 0x1C 4) p.aux[1]? = some x → exec .unreachableNoticeReceive s = .next (v.failPart x.item stUnreachable)) ∧
  (∀ (s : State) (item : Nat), (∃ x ∈ s.transfers, x.item = item ∧ ∃ c, x.since = some c ∧ c + s.collTimeout ≤ s.tally) ∨
      (∃ l ∈ s.landings, l.item = item ∧ ∃ x ∈ l.posts, x.2 + s.collTimeout ≤ s.tally) →
    exec (.collectiveTimeout item) s = .next (s.failPart item stCollFailed)) ∧
  (∀ (s : State), ∃ u, exec .abortedKeyExpiry s = .next u ∧ u = { s with abortedKeys := u.abortedKeys } ∧
    ∀ k, k ∈ u.abortedKeys ↔ k ∈ s.abortedKeys ∧ s.tally < k.since + 2 ^ max 16 (s.fld Fld.collCtlTimeout 0))

/-- WINDOW_CMD at event 3 begins its list. For the next entry of a running list that is well formed: WOPEN of a granted window over an own range, not
open, opens it with the next generation, written to the entry, and no byte arrived; WCLOSE of the tenant's open window that no board binds closes it;
WREF_SET and WREF_CLEAR set and clear a peer reference; a window that is not granted is refused with 0x01, an open one with 0x04. WINDOW_CHUNK_RECEIVE
of the first window chunk delivered here, in P0: a bad CRC counts and is answered with NAK; a closed window, another generation, a range beyond the
window or a chip outside its peers is rejected with its reason and nothing is written; any other chunk is written once the channels accept all of it,
its bytes are counted, and its transfer, told by its sender, window, place and number (log 20), is acknowledged when every chunk to the last is held. -/
def Obligations.WindowsOpenAcceptAndClose : Prop :=
  (∀ (s : State) (fn ring : Nat) (i : Item) (d : List Byte), s.passes3 fn ring i d tyWindowCmd = true →
    exec (.windowCmd fn ring) s = .next ((s.pass3 i.id .passed3).startList i.id d)) ∧
  (∀ (s u : State) (op item gen : Nat) (i : Item) (l : ListRun) (b : List Byte) (c : WindowCmd), s.atEntry tyWindowCmd op Item.beforeWindows item i l b u →
    c = WindowCmd.ofEntry b → c.bad = false → gen = u.fld Fld.winStatGen c.index % 65535 + 1 →
    (op = wcOpen → u.windowGranted i c.index = true → (u.grantOf i).own c.addr c.size = true → u.windowOpen c.index = false → exec (.wopen item) s = .next
      ((((({ u with windows := Tab.set none u.windows c.index (some ⟨c.addr, c.size, c.peerLo, c.peerHi⟩) }).setFld Fld.winStatGen c.index gen).setFlag
        Fld.winStatOpen c.index true).setFld Fld.winStatTenant c.index i.fn).setFld Fld.winStatArrived c.index 0 |>.listResult i l 0 [(4, leBytes 2 gen)])) ∧
    (op = wcOpen → u.windowGranted i c.index = false → exec (.wopen item) s = .next (u.listResult i l 0x01 [])) ∧
    (op = wcOpen → u.windowGranted i c.index = true → (u.grantOf i).own c.addr c.size = true → u.windowOpen c.index = true →
      exec (.wopen item) s = .next (u.listResult i l 0x04 [])) ∧
    (op = wcClose → u.windowOpen c.index = true → u.fld Fld.winStatTenant c.index = i.fn → u.windowBusy c.index = false →
      exec (.wclose item) s = .next ((u.closeWindow c.index).listResult i l 0 [])) ∧
    (op = wcRefSet → exec (.wrefSet item) s = .next ((u.setPeerRef i.fn c.index (some ⟨c.gen, c.peer, c.addr⟩)).listResult i l 0 [])) ∧
    (op = wcRefClear → exec (.wrefClear item) s = .next ((u.setPeerRef i.fn c.index none).listResult i l 0 []))) ∧
  (∀ (s v : State) (link w gen off bt c : Nat) (p : Packet) (rest : List (Nat × Packet)), s.inP0 = true →
    takeFirst s.inbound (fun p => p.kind == .window) = some ((link, p), rest) → v = { s with inbound := rest } → w = p.t14.toNat % 1024 →
    gen = p.t14.toNat / 65536 % 65536 → off = p.t18.toNat → bt = p.t1c.toNat % 256 → c = p.flow % 32768 →
    (p.crc ≠ p.crcOf → exec .windowChunkReceive s = .next ((v.bump Fld.collStatNaks (v.windowTenant w p.tenant) 1).reply p 2 0 c)) ∧
    (p.crc = p.crcOf → ∀ why, v.windowReject w gen p.src off p.payload.length = some why → exec .windowChunkReceive s =
      .next (((v.bump Fld.winStatRejected w 1).dropWindowIn (v.windowIn p.src w gen bt (p.aux.getD 0 0) ((off + 2 ^ 32 - 992 * c) % 2 ^ 32))).reply p 4 why 0)) ∧
    (p.crc = p.crcOf → v.windowReject w gen p.src off p.payload.length = none →
      exec .windowChunkReceive s = .next (s.accepted (v.windowAccept p w gen bt off c (p.t1c.toNat / 256 % 2 = 1))))) ∧
  (∀ (s v : State) (p : Packet) (w gen bt off c base : Nat) (last : Bool) (x : Window) (r k : WindowIn), Tab.get none s.windows w = some x → base = x.base →
    v = (s.protectedWrite (s.windowTenant w p.tenant) (base + off) p.payload p.poison).addFld Fld.winStatArrived w p.payload.length →
    r = v.windowIn p.src w gen bt (p.aux.getD 0 0) ((off + 2 ^ 32 - 992 * c) % 2 ^ 32) →
    k = { r with seen := if r.seen.contains c then r.seen else c :: r.seen, last := if last then some c else r.last } →
    s.windowAccept p w gen bt off c last = match k.last with
      | some n => if (List.range (n + 1)).all k.seen.contains then (v.dropWindowIn k).reply p 1 0 (n + 1) else v.setWindowIn k
      | none => v.setWindowIn k) ∧
  (∀ (s : State) (w gen src off len : Nat), (s.windowReject w gen src off len = none ↔ ∃ x, Tab.get none s.windows w = some x ∧ s.fld Fld.winStatGen w = gen ∧
    off + len ≤ x.size ∧ x.peerLo ≤ src ∧ src ≤ x.peerHi) ∧ (Tab.get none s.windows w = none → s.windowReject w gen src off len = some 1))

/-- In P0. A doorbell of an enabled ring of an enabled function: SQ_TAIL within the ring's entries of the head is stored, CQ_HEAD neither behind the last
nor beyond the records written is stored, and any other value is ignored and counted once; of a ring that is not enabled it is ignored and counted; of
a function that is not enabled it is discarded uncounted. RING_ENABLE of an inactive pair that passes R357 makes it active with its counts at zero and
reaches the lock point; one that fails stores CFG_ERR. RING_DISABLE clears ENABLE, and ACTIVE when nothing is in flight. SETUP_LOCK by the host
driver, or by an MGC that runs its firmware (log 91), reaches the lock point. MSIX_TIMER_EXPIRY of a vector whose count left zero TIME_US ago sends
its message, sets its pending bit while it is held, or loses and counts it while the link is down (log 102); MSIX_UNMASK of a vector or of the
function sends the held messages once nothing holds them. -/
def Obligations.DoorbellsAndRingsFollowTheirCounts : Prop :=
  (∀ (s : State) (fn r : Nat) (v : Word32), fn < 64 → r < 64 → s.inP0 = true →
    (s.fnEnabled fn = false → exec (.sqTailWrite fn r v) s = .next s ∧ exec (.cqHeadWrite fn r v) s = .next s) ∧
    (s.fnEnabled fn = true → s.ringOn fn r = false → exec (.sqTailWrite fn r v) s = .next (s.bump Fld.hostErrDoorbell fn 1) ∧
      exec (.cqHeadWrite fn r v) s = .next (s.bump Fld.hostErrDoorbell fn 1)) ∧
    (s.fnEnabled fn = true → s.ringOn fn r = true →
      exec (.sqTailWrite fn r v) s = .next (if diff32 v.toNat (s.fld Fld.ringCfgSqHead (64 * fn + r)) ≤ s.sqEntries (64 * fn + r)
        then s.setRing fn r { s.ring fn r with sqTail := v.toNat } else s.bump Fld.hostErrDoorbell fn 1) ∧
      exec (.cqHeadWrite fn r v) s = .next (if diff32 v.toNat (s.ring fn r).cqHead ≤ diff32 (s.fld Fld.ringCfgCqTail (64 * fn + r)) (s.ring fn r).cqHead
        then s.setRing fn r { s.ring fn r with cqHead := v.toNat } else s.bump Fld.hostErrDoorbell fn 1))) ∧
  (∀ (s v : State) (fn r : Nat), fn < 64 → r < 64 → s.inP0 = true → s.flag Fld.ringCfgActive (64 * fn + r) = false →
    v = s.setFld Fld.ringCfgCfgErr (64 * fn + r) (s.ringCheck fn r) →
    (s.ringCheck fn r = 0 → exec (.ringEnable fn r) s = .next (((((((v.setFlag Fld.ringCfgEnable (64 * fn + r) true).setFlag Fld.ringCfgActive (64 * fn + r) true).setFld
      Fld.ringCfgSqHead (64 * fn + r) 0).setFld Fld.ringCfgCqTail (64 * fn + r) 0).setRing fn r ⟨0, 0⟩)).reachLock)) ∧
    (s.ringCheck fn r ≠ 0 → exec (.ringEnable fn r) s = .next (v.setFlag Fld.ringCfgEnable (64 * fn + r) false))) ∧
  (∀ (s : State) (fn r : Nat), fn < 64 → r < 64 → s.inP0 = true → s.canonical = true → ∃ u, exec (.ringDisable fn r) s = .next u ∧
    u.flag Fld.ringCfgEnable (64 * fn + r) = false ∧ u.flag Fld.ringCfgActive (64 * fn + r) = (s.flag Fld.ringCfgActive (64 * fn + r) && !(s.ringItems fn r).isEmpty) ∧
    u = { s with regs := u.regs } ∧ s.regsBut u [.ringCfg]) ∧
  (∀ (s : State), s.inP0 = true → exec (.setupLock .hostPf) s = .next s.reachLock ∧
    (s.sec.mgcRuns = true → s.sec.mgcHalted = false → exec (.setupLock .mgc) s = .next s.reachLock) ∧ (s.canonical = true → s.reachLock.locked = true)) ∧
  (∀ (s : State) (fn v : Nat), fn < 64 → v < 2048 → s.fnState fn ≠ 0 → (s.vec fn v).count ≠ 0 → s.fld Fld.msixModTimeUs (2048 * fn + v) ≠ 0 →
    (s.vec fn v).since + 1000 * s.fld Fld.msixModTimeUs (2048 * fn + v) ≤ s.tally →
    (s.vecHeld fn v = true → exec (.msixTimerExpiry fn v) s = .next (s.setVec fn v { s.vec fn v with pbit := true })) ∧
    (s.vecHeld fn v = false → s.fns.linkUp = false → exec (.msixTimerExpiry fn v) s =
      .next ((s.setVec fn v { s.vec fn v with count := 0, pbit := false }).bump Fld.hostErrLost fn 1)) ∧
    (s.vecHeld fn v = false → s.fns.linkUp = true → ∃ u, exec (.msixTimerExpiry fn v) s = .next u ∧ u.outs.messages = s.outs.messages ++ [(fn, v)] ∧ u.regs = s.regs ∧
      u.fns = { s.fns with vectors := Tab.set Vec.reset s.fns.vectors (2048 * fn + v) { s.vec fn v with count := 0, pbit := false } })) ∧
  (∀ (s : State) (fn v : Nat), fn < 64 → v < 2048 →
    exec (.msixUnmask fn (some v)) s = .next ((s.setVec fn v { s.vec fn v with masked := false }).flushHeld fn) ∧
    exec (.msixUnmask fn none) s = .next (({ s with fns :=
      { s.fns with msixMask := Tab.set false s.fns.msixMask fn false, msixEnable := Tab.set false s.fns.msixEnable fn true } } : State).flushHeld fn))

/-- NUMVFS_WRITE of at most 63 while VF Enable is clear stores the value; VF_ENABLE_SET and MEMORY_SPACE_ENABLE_SET enable every disabled function whose
condition then holds; their clears begin the disable of every function whose condition has gone: no such function is left enabled.
BUS_MASTER_ENABLE_CLEAR and SET change the one bit, and the set lets held messages go. In P0, FLR_VF of an existing virtual function leaves it not
enabled; FLR_PF leaves no function enabled, and clears the SR-IOV fields and Memory Space Enable (log 100), the grants following when the last disable
ends (log 104); CXL_RESET also erases the IDE keys and resets the HDM decoder, and with Mem Clear writes every backed address as zeros at one moment
(log 105). CXL_LINK_DOWN leaves no function enabled, clears the same enables (log 101), loses what was trained and erases the IDE keys.
FUNCTION_DISABLE_COMPLETE of a disabling function with no item left releases its context, and the function is disabled unless its enabling condition
holds again. -/
def Obligations.FunctionsAreEnabledAndDisabled : Prop :=
  (∀ (s : State) (n : Nat), n ≤ 63 → s.fns.vfEnable = false → exec (.numvfsWrite n) s = .next ({ s with fns := { s.fns with numVfs := n } }).disableGone) ∧
  exec .vfEnableSet = (fun s => .next ({ s with fns := { s.fns with vfEnable := true } }).enableAll) ∧
  exec .memorySpaceEnableSet = (fun s => .next ({ s with fns := { s.fns with memSpace := true } }).enableAll) ∧
  (∀ (s : State), s.canonical = true → ∃ u v, exec .vfEnableClear s = .next u ∧ exec .memorySpaceEnableClear s = .next v ∧
    (s.fns.linkUp = true → ∃ w, exec .cxlLinkDown s = .next w ∧ w.sec.ideKeys = [] ∧ w.fns.linkUp = false ∧ w.fns.trained = none ∧ w.fns.hdm = none ∧
      w.fns.numVfs = 0 ∧ w.fns.vfEnable = false ∧ w.fns.memSpace = false ∧ ∀ fn, fn < 64 → w.fnEnabled fn = false) ∧
    (∀ fn, 1 ≤ fn → fn < 64 → u.fnEnabled fn = false) ∧ (∀ fn, fn < 64 → v.fnEnabled fn = false)) ∧
  (∀ (s : State) (fn : Nat), s.canonical = true → fn < 64 → s.fnState fn = 0 → s.shouldEnable fn = true →
    s.enableAll.fnState fn = (if s.fenced fn then 3 else 1)) ∧
  (∀ (s : State) (fn : Nat), fn < 64 →
    exec (.busMasterEnableClear fn) s = .next { s with fns := { s.fns with busMaster := Tab.set false s.fns.busMaster fn false } } ∧
    exec (.busMasterEnableSet fn) s = .next (({ s with fns := { s.fns with busMaster := Tab.set false s.fns.busMaster fn true } }).flushHeld fn)) ∧
  (∀ (s : State) (n : Nat), s.inP0 = true →
    (1 ≤ n → n < 64 → s.fns.vfEnable = true → n ≤ s.fns.numVfs → exec (.flrVf n) s = .next (s.flr n)) ∧
    exec .flrPf s = .next s.flrAll ∧
    (∃ u, exec .cxlReset s = .next u ∧ u.sec.ideKeys = [] ∧ u.fns.hdm = none ∧ u = { s.flrAll with sec := u.sec, fns := u.fns } ∧
      u.sec = { s.flrAll.sec with ideKeys := [] } ∧ u.fns = { s.flrAll.fns with hdm := none } ∧ exec .cxlResetMemClear s = .next u.clearMemory)) ∧
  (∀ (s : State), s.canonical = true → (∀ fn, fn < 64 → (s.flr fn).fnEnabled fn = false) ∧ (∀ fn, fn < 64 → s.flrAll.fnEnabled fn = false) ∧
    s.flrAll.fns.numVfs = 0 ∧ s.flrAll.fns.vfEnable = false ∧ s.flrAll.fns.memSpace = false ∧
    ((∀ fn, fn < 64 → s.fnState fn = 0) → s.flrAll.grants = [] ∧ ∀ w, w < 256 → s.flrAll.flag Fld.hwinLock w = false)) ∧
  (∀ (s : State) (l c : Nat), s.flag Fld.memChmapBacked l = true → s.flag Fld.memChmapFenced l = false → s.boundChan l = some c → s.mirrorOf l = none → s.fillOf l = none →
    ∀ a, (chanBytes * c ≤ a → a < chanBytes * c + chanBytes → Mem.read (s.clearSlot l).mem a = 0) ∧
      ((a < chanBytes * c ∨ chanBytes * c + chanBytes ≤ a) → Memory.wf s.mem = true → Mem.read (s.clearSlot l).mem a = Mem.read s.mem a)) ∧
  (∀ (s : State) (fn : Nat), fn < 64 → s.fnState fn = 2 → s.items.all (fun i => i.fn != fn) = true →
    exec (.functionDisableComplete fn) s = .next (((((s.lastMessages fn).releaseContext fn).fnDown fn).settleReset).enableAll))

/-- CARRY_COMPLETE of a logical tile with a carry, neither tile held by the under-voltage guard: the wrong words that the copy finds count, the launch on
it replays, or fails when control state is lost, the spare takes the old tile's storage with the uncorrectable units marked and serves the logical
tile, the old tile leaves service, SUBST counts, what had been sent is sent again, and the tile mode is checked. CARRY_TIMEOUT changes nothing before
2^16 counts after the fault or while the guard holds either tile, and then the part fails, residency ends and the spare serves the tile blank.
STRAND_SUBSTITUTION of a resting tile starts a carry to a spare exactly when its array is fenced. TENANT_FENCE by the host of a fenced context changes
nothing (log 126); of a context with no item it sets FENCED and DRAINED with CAUSE 1, an enabled function becomes FENCED, and no other register but
those of residency changes. TENANT_UNFENCE changes nothing while DRAINED is 0; while it is 1 it clears FENCED, DRAINED and CAUSE (log 127), a fenced
function is enabled, and nothing else changes. -/
def Obligations.CarriesEndAndFencesDrain : Prop :=
  (∀ (s u v : State) (t p : Nat) (c : Carry) (words ws : List WordErr), t < 256 → s.carryOf t = some c → s.physOf t = some p →
    (s.carryFree p c.spare = false → exec (.carryComplete t words) s = .next s) ∧
    (s.carryFree p c.spare = true → ws = words.filter (fun w => w.unit ≤ controlUnit) →
      u = ((s.carryRows p c.spare).countWords t ws).replayed p (c.ctlLost || ws.any (fun w => w.control && w.double)) →
      v = (u.setTile c.spare (((u.tile p).carriedTo (u.tile c.spare) u.tally).markUnits ((ws.filter (fun w => w.double && !w.control)).map (·.unit)))).retireTile p c →
      exec (.carryComplete t words) s = .next ((((((v.setFld Fld.tilePhysState c.spare 0).setFld Fld.tilePhysLogical c.spare t).setFlag Fld.tileArrayStrand t
        (v.flag Fld.tilePhysArrayFenced c.spare)).substituted t p c.spare).resendFrom t).replaySteps c.spare).modeCheck.stir)) ∧
  (∀ (s u : State) (t p : Nat) (c : Carry), t < 256 → s.carryOf t = some c → s.physOf t = some p →
    (u = match (s.tile p).itemId with
      | some id => s.failPart id stPoison
      | none => s) →
    (s.tally < c.since + 65536 ∨ s.carryFree p c.spare = false → exec (.carryTimeout t) s = .next s) ∧
    (c.since + 65536 ≤ s.tally → s.carryFree p c.spare = true → exec (.carryTimeout t) s = .next ((((u.endResidency t).retireTile p c).bindTile t c.spare).substituted t p c.spare).modeCheck.stir)) ∧
  (∀ (s : State) (t p sp : Nat), t < 256 → s.restingOn t = some p → s.pickSpare = some sp →
    exec (.strandSubstitution t) s = .next (if s.flag Fld.tilePhysArrayFenced p = true then s.startCarry t sp false else s)) ∧
  (∀ (s : State) (ctx : Nat), s.inP0 = true → ctx < 64 → s.canonical = true →
    (s.fenced ctx = true → exec (.tenantFence .hostPf ctx) s = .next s) ∧
    (s.fenced ctx = false → s.items.all (fun i => i.fn != ctx) = true → ∃ u, exec (.tenantFence .hostPf ctx) s = .next u ∧ u.fenced ctx = true ∧
      u.flag Fld.tenantCtlDrained ctx = true ∧ u.fld Fld.tenantCtlCause ctx = 1 ∧ (s.fnState ctx = 1 → u.fnState ctx = 3) ∧
      s.regsBut u [.tenantCtl, .fnState, .tileResidency] ∧ u.items = s.items ∧ u.pools = s.pools ∧ u.windows = s.windows ∧ u.mem = s.mem) ∧
    (s.flag Fld.tenantCtlDrained ctx = false → exec (.tenantUnfence .hostPf ctx) s = .next s) ∧
    (s.flag Fld.tenantCtlDrained ctx = true → ∃ u, exec (.tenantUnfence .hostPf ctx) s = .next u ∧ u = { s with regs := u.regs } ∧
      u.fenced ctx = false ∧ u.flag Fld.tenantCtlDrained ctx = false ∧ u.fld Fld.tenantCtlCause ctx = 0 ∧
      u.fnState ctx = (if s.fnState ctx = 3 then 1 else s.fnState ctx) ∧ s.regsBut u [.tenantCtl, .fnState]))

/-- REPAIR_START with no covering entry left fails the repair. A host copy that context 0 may read begins its attempt at the current count; another counts
in OUTSIDE and the next entry is tried. A peer copy sends the request, unless the link's MGMT queue is full. REPAIR_PEER_REQUEST answers from a range
that a serve entry covers, marked unavailable when poisoned, and without data otherwise. REPAIR_RESPONSE takes the first answer, or reads the host
copy: a part without usable data tries the next entry, another repairs its codewords that no poison fill holds up and keeps the others; a late answer
is dropped (log 131). An answer is eight parts (log 20). REPAIR_ATTEMPT_TIMEOUT after 5 ms without all the data tries the next entry. A codeword that
decodes with POISON = 0, or lies in a fenced slot or at or above MEM_TOP, is not changed; a poisoned codeword takes the 64 bytes and its POISON
becomes 0, now or once its engine serves the write, and an answer whose requests must wait is served later. A repair whose eight parts have arrived
with none waiting leaves the queue and counts once; one of which a fenced slot holds a part counts in FAILED (log 132), the others in DONE. -/
def Obligations.RepairsRewritePoisonedCodewords : Prop :=
  (∀ (s : State) (r : Repair), s.repairs.find? (fun x => x.waiting.isNone) = some r →
    (s.repairEntry r.granule r.untried = none → exec .repairStart s = .next (s.endRepair r.granule Fld.repairStatFailed)) ∧
    (∀ i a, s.repairEntry r.granule r.untried = some i → a = s.copyAddr i r.granule → s.fld Fld.repairSrcKind i = 0 →
      exec .repairStart s = .next (if s.hostPermits 0 a 4096 false = true then
        { s with repairs := s.repairs.map (fun x => if x.granule = r.granule then { x with waiting := some i, since := s.tally, got := [], late := [] } else x) }
        else (s.bump Fld.hostErrOutside 0 1).attemptOver r.granule i)) ∧
    (∀ i port p l, s.repairEntry r.granule r.untried = some i → s.fld Fld.repairSrcKind i ≠ 0 → port = bitsOf (s.fld Fld.repairSrcSrc i) 51 5 →
      p = s.repairPacket i r.granule → s.portUnreachable port = false → s.portLink port p = some l →
      exec .repairStart s = .next (if s.mgmtFull l = true then s else ((s.attempt r.granule i).inject p (some port)).1))) ∧
  (∀ (s u : State) (e : Nat × Packet) (a : Nat), s.inP0 = true → s.inbound.find? (fun (x : Nat × Packet) => x.2.kind == .repairReq) = some e → a = e.2.aux.getD 0 0 →
    u = { s with inbound := s.inbound.erase e } →
    (u.serves a 4096 = false → exec .repairPeerRequest s = .next (u.answer e.2 [] false)) ∧
    (∀ bytes m v, u.serves a 4096 = true → u.takeFor baseContext a 4096 = (bytes, m, v) → exec .repairPeerRequest s = .next (s.accepted (v.answer e.2 bytes (!m))))) ∧
  (∀ (s : State), (∀ e, s.inbound.find? (fun (x : Nat × Packet) => x.2.kind == .repairResp) = some e →
      exec .repairResponse s = .next (s.accepted (({ s with inbound := s.inbound.erase e }).takeAnswer e.2))) ∧
    (∀ r i, s.inbound.find? (fun (x : Nat × Packet) => x.2.kind == .repairResp) = none → s.hostRepair = some (r, i) →
      exec .repairResponse s = .next (s.accepted (s.repairHost r i))) ∧
    (∀ r i, s.repairs.find? (fun x => x.waiting.isSome && decide (x.got.length < 8) && decide (x.since + 5000000 ≤ s.tally)) = some r → r.waiting = some i →
      exec .repairAttemptTimeout s = .next (s.attemptOver r.granule i)) ∧
    (∀ (p : Packet), s.answerOf p = none → s.takeAnswer p = s) ∧
    (∀ (p : Packet) (r : Repair), s.answerOf p = some r →
      ((p.aux.getD 3 0 = 0 ∨ p.poison = true) → s.takeAnswer p = s.attemptOver r.granule (p.aux.getD 1 0)) ∧
      (p.aux.getD 3 0 ≠ 0 → p.poison = false → s.takeAnswer p = s.repairPart r.granule (p.aux.getD 2 0) p.payload))) ∧
  (∀ (s : State) (a c l k : Nat) (bytes : List Byte), (l, 64 * k) = s.mapAddr a →
    (s.memTop ≤ a → s.repairCw a bytes = s) ∧
    (a < s.memTop → s.slotView l k = .array c → (s.decodeCw c k).arrayPoison c k = false → s.repairCw a bytes = s) ∧
    (a < s.memTop → s.slotView l k = .fenced → s.repairCw a bytes = s) ∧
    (a < s.memTop → s.slotView l k = .array c → (s.decodeCw c k).arrayPoison c k = true → bytes.length = 64 →
      (s.engineBusyAt a = false → s.mirrorOf l = none → s.repairCw a bytes = (s.putArray c k bytes false).checkUeWin c) ∧
      (s.engineBusyAt a = true → s.repairCw a bytes = s.joinQueue ⟨a, 64, some bytes, narrowAccess a 64⟩)) ∧
    (Memory.wf s.mem = true → Tab.sorted s.memPoison = true → bytes.length = 64 →
      (s.putArray c k bytes false).arrayPoison c k = false ∧ (s.putArray c k bytes false).arrayData c k = bytes)) ∧
  (∀ (s u : State) (g : Nat) (r : Repair), s.canonical = true → s.repairs.find? (fun r => r.granule == g) = some r → u = s.repairDone g →
    (r.got.length ≠ 8 ∨ r.late ≠ [] → u = s) ∧
    (r.got.length = 8 → r.late = [] → u.repairs = s.repairs.filter (fun r => r.granule != g) ∧ u.mem = s.mem ∧
      u.fld Fld.repairStatFailed 0 = s.counted Fld.repairStatFailed 0 (if s.granuleFenced g = true then 1 else 0) ∧
      u.fld Fld.repairStatDone 0 = s.counted Fld.repairStatDone 0 (if s.granuleFenced g = true then 0 else 1) ∧ s.regsBut u [.repairStat]))

/-- ASSAY_TEST_START of a unit that may be tested and whose turn it is, with Assay running, none under test and its kind enabled: a worn-out unit is
failed; another is put under test, BUSY shows its kind, and a tile becomes ASSAY. Under any other condition nothing changes. ASSAY_TEST_COMPLETE ends
the test and BUSY becomes 0; a tile that passes becomes SPARE with its array no longer fenced, one that does not becomes FAILED, and its storage is
blank; a channel's codewords become zeros without POISON (log 109) and it becomes idle or failed, recorded in the journal; a lane that fails has
failed once more (log 133) and is failed, a failed lane that passes is a spare, both recorded, and any other lane keeps its state; the count of passes
or failures rises, unless the lane or channel was taken into service meanwhile (log 136). ASSAY_ROTATION with ROTATE set, a period since the last, and
a fresh spare starts the carry of the next resting tile (log 134), requests the migration of each stack's worst channel, and keeps the count. -/
def Obligations.AssayTestsUnitsAndRotates : Prop :=
  (∀ (s : State) (x : AssayUnit), x.wf = true → (s.assayRuns = false ∨ s.assay.unit ≠ none ∨ s.assayEnabled x = false ∨ s.testable x = false ∨ s.testTurn x = false) →
    exec (.assayTestStart x) s = .next s) ∧
  (∀ (s : State) (x : AssayUnit), x.wf = true → s.canonical = true → s.assayRuns = true → s.assay.unit = none → s.assayEnabled x = true → s.testable x = true →
    s.testTurn x = true →
    (s.wornOut x = true → exec (.assayTestStart x) s = .next (({ s with assay := { s.assay with next := s.assay.next.filter (· != x) } }).failUnit x)) ∧
    (s.wornOut x = false → ∃ u, exec (.assayTestStart x) s = .next u ∧
      u.assay = { s.assay with unit := some (x, s.unitState x), next := s.assay.next.filter (· != x) } ∧
      u.fld Fld.assayStatBusy 0 = assayBusy x ∧ u.tiles = s.tiles ∧
      (∀ p, x = .tile p → u.fld Fld.tilePhysState p = 3) ∧ (∀ f i, f.reg ≠ .assayStat → (∀ p, x = .tile p → ¬ (f.reg = .tilePhys ∧ i = p)) →
        f.lo < 1024 → u.fld f i = s.fld f i))) ∧
  (∀ (s : State) (x : AssayUnit) (prior : Nat), (s.testTurn x = true ↔ s.assayNext = some x ∨ (s.assayNext = none ∧ (s.testDue x = true ∨ (s.unitState x = 2 ∧ assayBusy x = 1)))) ∧
    (∀ p passed, x = .tile p → s.assay.unit = some (x, prior) → s.flag Fld.pwrRegionUv (islandOf p) = true → exec (.assayTestComplete passed) s = .next s)) ∧
  (∀ (s : State) (p prior : Nat) (passed : Bool), s.canonical = true → p < 272 → s.assay.unit = some (.tile p, prior) →
    s.flag Fld.pwrRegionUv (islandOf p) = false → ∃ u, exec (.assayTestComplete passed) s = .next u ∧
    u.assay.unit = none ∧ u.fld Fld.assayStatBusy 0 = 0 ∧ u.fld Fld.tilePhysState p = (if passed then 1 else 4) ∧ u.tile p = (s.tile p).blank ∧
    u.flag Fld.tilePhysArrayFenced p = (!passed && s.flag Fld.tilePhysArrayFenced p) ∧ u.fld Fld.tilePhysAssayRuns p = s.counted Fld.tilePhysAssayRuns p 1 ∧
    u.fld Fld.assayStatPass 0 = s.counted Fld.assayStatPass 0 (if passed then 1 else 0) ∧
    u.fld Fld.assayStatFail 0 = s.counted Fld.assayStatFail 0 (if passed then 0 else 1) ∧ s.regsBut u [.assayStat, .tilePhys] ∧
    (∀ k, k ≠ p → u.tile k = s.tile k) ∧ u.mem = s.mem) ∧
  (∀ (s u : State) (x : AssayUnit) (prior : Nat) (passed : Bool), s.assay.unit = some (x, prior) → (∀ p, x ≠ .tile p) →
    (s.unitState x ≠ prior → exec (.assayTestComplete passed) s = .next s.assayIdle) ∧
    (s.unitState x = prior → (u = s.assayIdle.bump (if passed = true then Fld.assayStatPass else Fld.assayStatFail) 0 1) →
      (∀ g, x = .lane g → exec (.assayTestComplete passed) s =
        .next (({ u with assay := { u.assay with lastTest := Tab.set 0 u.assay.lastTest (1000 + g) (u.tally + 1) } }).laneTested g passed)) ∧
      (∀ c, x = .channel c → exec (.assayTestComplete passed) s =
        .next (({ u with assay := { u.assay with lastTest := Tab.set 0 u.assay.lastTest (2000 + c) (u.tally + 1) } }).chanTested c passed)))) ∧
  (∀ (s : State) (g prior : Nat) (passed : Bool), s.canonical = true → g < 100 → s.assay.unit = some (.lane g, prior) → s.unitState (.lane g) = prior →
    ∃ u, exec (.assayTestComplete passed) s = .next u ∧ u.assay.unit = none ∧ s.regsBut u [.assayStat, .linkStat] ∧
      u.fld Fld.assayStatBusy 0 = 0 ∧ u.fld Fld.assayStatPass 0 = s.counted Fld.assayStatPass 0 (if passed then 1 else 0) ∧
      u.fld Fld.assayStatFail 0 = s.counted Fld.assayStatFail 0 (if passed then 0 else 1) ∧
      (∀ l j, j < 5 → 5 * l + j ≠ g → u.lane l j = s.lane l j) ∧ (∀ f i, f.reg = .linkStat → f.lo < 1024 → f.lo ≠ Fld.linkStatLanes.lo → u.fld f i = s.fld f i) ∧
      u.lane (g / 5) (g % 5) = (if passed = false then 2 else if prior = 2 then 1 else prior) ∧
      (passed = false → Tab.get 0 u.assay.laneFails g = Tab.get 0 s.assay.laneFails g + 1 ∧
        u.sec.changes = s.sec.changes ++ [(recLane, [g, 2, Tab.get 0 s.assay.laneFails g + 1], s.tally)]) ∧
      (passed = true → u.assay.laneFails = s.assay.laneFails ∧
        u.sec.changes = s.sec.changes ++ (if prior = 2 then [(recLane, [g, 1, Tab.get 0 s.assay.laneFails g], s.tally)] else []))) ∧
  (∀ (s : State) (c prior : Nat) (passed : Bool), s.canonical = true → c < 272 → s.assay.unit = some (.channel c, prior) → s.unitState (.channel c) = prior →
    ∃ u, exec (.assayTestComplete passed) s = .next u ∧ u.assay.unit = none ∧ s.regsBut u [.assayStat, .memChstat, .memScrub] ∧
      u.fld Fld.assayStatPass 0 = s.counted Fld.assayStatPass 0 (if passed then 1 else 0) ∧
      u.fld Fld.assayStatFail 0 = s.counted Fld.assayStatFail 0 (if passed then 0 else 1) ∧ u.fld Fld.memChstatState c = (if passed then 1 else 4) ∧
      (∀ i, i ≠ c → u.fld Fld.memChstatState i = s.fld Fld.memChstatState i) ∧ u.sec.changes = s.sec.changes ++ [(recChannel, [c, if passed then 1 else 4, 0x3F], s.tally)] ∧
      (∀ a, chanBytes * c ≤ a → a < chanBytes * c + chanBytes → Mem.read u.mem a = 0) ∧ (∀ k, k < chanCodewords → u.arrayPoison c k = false) ∧
      (∀ a, (a < chanBytes * c ∨ chanBytes * c + chanBytes ≤ a) → Mem.read u.mem a = Mem.read s.mem a)) ∧
  (∀ (s : State) (t sp : Nat), s.assayRuns = true → s.flag Fld.assayCtlRotate 0 = true → s.periodDue s.assay.lastRotation = true →
    s.rotateNext = some t → s.freshSpare = some sp →
    (s.restingOn t = none → exec .assayRotation s = .next s) ∧
    (∀ p u, s.restingOn t = some p →
      u = (List.range 8).foldl State.rotateStack (({ s with assay := { s.assay with nextTile := (t + 1) % 256 } }).startCarry t sp true) →
      exec .assayRotation s = .next { u with assay := { u.assay with lastRotation := u.tally + 1 } }))

/-- SENSOR_READ of 384 readings: each TEMP is its reading, each MAX the larger, each region's TEMP the hottest of its sensors; readings all below 95 °C
let start-up clear a trip latch, and with it THERMTRIP_N (log 146). With the core regions powered, THERMAL_LOOP_TICK lowers a region's thermal set-
point by 5 mV to no less than 550 mV when it, the edge (log 138) or the stacks are at their limit, raises it by 5 mV to no more than VSET, in whole
steps (log 183), when it is 2 °C below, and keeps it otherwise; POWER_CEILING_TICK moves the ceiling by 20 mV or 5 mV; both then apply the set-points:
in P0, with no wake, each SETPOINT is the lowest of the three values, at least 550 mV and at most 850 mV. POWER_SAMPLE gives the whole watts of the
newest 100 samples, rounded down (log 139). UV_GUARD_ENTRY sets UV and counts an event, UV_GUARD_EXIT clears it, and no tile of a region with UV acts.
ENERGY_RESCALE adds the measured energy to ENERGY_TOTAL; each context gets the part of it that its modelled charges are of all modelled charges of the
interval, rounded down, the base gets the rest, and a new interval starts with no events. The events and their scaling are the model's (logs 187,
188). -/
def Obligations.SensorsLoopsAndEnergyFollowTheReadings : Prop :=
  (∀ (s : State) (l : List (BitVec 12)), l.length = 384 → s.awake = true → s.canonical = true → ∃ u, exec (.sensorRead l) s = .next u ∧
    (∀ n, n < 384 → u.fld Fld.pwrSensorTemp n = (l.getD n 0).toNat ∧ u.fld Fld.pwrSensorMax n = max (l.getD n 0).toNat (s.fld Fld.pwrSensorMax n) % 4096) ∧
    (∀ r, r < 16 → u.fld Fld.pwrRegionTemp r = u.hottest (regionSensors r) % 4096) ∧ s.regsBut u [.pwrSensor, .pwrRegion] ∧
    (∀ r, u.fld Fld.pwrRegionSetpoint r = s.fld Fld.pwrRegionSetpoint r) ∧ u = { s with regs := u.regs, pins := u.pins } ∧
    (l.all (fun r => r.toNat < 1080) = true → u.pins = { s.pins with stillHot := false }) ∧
    (l.all (fun r => r.toNat < 1080) = false → u.pins = s.pins)) ∧
  (∀ (s : State), s.coreOn = true → s.canonical = true → ∃ u, exec .thermalLoopTick s = .next u ∧ s.regsBut u [.pwrRegion] ∧
    u = { s with regs := u.regs, power := { s.power with thermal := u.power.thermal } } ∧
    (∀ r, r < 16 → u.thermalPoint r =
      if tempCode s.thermLimit ≤ s.edgeTemp ∨ tempCode s.stackLimit ≤ s.stackTemp ∨ tempCode s.thermLimit ≤ s.fld Fld.pwrRegionTemp r then max 550 (s.thermalPoint r - 5)
      else if s.fld Fld.pwrRegionTemp r ≤ tempCode (s.thermLimit - 2) then min s.vset (s.thermalPoint r + 5) else s.thermalPoint r) ∧
    (s.inP0 = true → s.flag Fld.pwrStatWaking 0 = false → ∀ r, r < 16 → u.fld Fld.pwrRegionSetpoint r = max 550 (min s.vset (min s.power.ceiling (u.thermalPoint r))) ∧
      550 ≤ u.fld Fld.pwrRegionSetpoint r ∧ u.fld Fld.pwrRegionSetpoint r ≤ 850)) ∧
  (∀ (s : State) (fast : Bool), s.coreOn = true → s.canonical = true → ∃ u, exec (.powerCeilingTick fast) s = .next u ∧ s.regsBut u [.pwrRegion] ∧
    u = { s with regs := u.regs, power := { s.power with ceiling := u.power.ceiling } } ∧ u.power.ceiling = s.ceilingAfter fast ∧
    (s.inP0 = true → s.flag Fld.pwrStatWaking 0 = false → ∀ r, r < 16 →
      u.fld Fld.pwrRegionSetpoint r = max 550 (min s.vset (min (s.ceilingAfter fast) (s.thermalPoint r))))) ∧
  (∀ (s : State) (w : Nat), s.awake = true → s.canonical = true → ∃ u, exec (.powerSample w) s = .next u ∧ s.regsBut u [.pwrStat] ∧
    u.power = { s.power with samples := (w :: s.power.samples).take (max 100 (1000 * max 1 (s.fld Fld.pwrCfgWindowMs 0))) } ∧
    u.fld Fld.pwrStatPkgW 0 = min 65535 ((((w :: s.power.samples).take 100).foldl (· + ·) 0) / ((w :: s.power.samples).take 100).length)) ∧
  (∀ (s : State) (g : Nat), g < 16 → s.canonical = true →
    (s.coreOn = true → s.flag Fld.pwrRegionUv g = false → ∃ u, exec (.uvGuardEntry g) s = .next u ∧ u.flag Fld.pwrRegionUv g = true ∧
      u.fld Fld.pwrRegionUvEvents g = s.counted Fld.pwrRegionUvEvents g 1 ∧ u = { s with regs := u.regs } ∧ ∀ t p, islandOf p = g → u.tileLive t p = false) ∧
    ((s.coreOn = false ∨ s.flag Fld.pwrRegionUv g = true) → exec (.uvGuardEntry g) s = .next s) ∧
    (∃ u, exec (.uvGuardExit g) s = .next u ∧ u.flag Fld.pwrRegionUv g = false ∧ u = { s with regs := u.regs } ∧ s.regsBut u [.pwrRegion])) ∧
  (∀ (s : State) (m : Nat), s.awake = true → s.canonical = true → ∃ (u : State) (share : Nat → Nat), exec (.energyRescale m) s = .next u ∧
    ((List.range 65).map share).sum = m ∧ (∀ c, c < 64 → u.fld Fld.energyTenantUj c = s.counted Fld.energyTenantUj c (share c)) ∧
    u.fld Fld.energyBaseUj 0 = s.counted Fld.energyBaseUj 0 (share 64) ∧ u.fld Fld.energyTotalUj 0 = s.counted Fld.energyTotalUj 0 m ∧
    (∀ c, c < 64 → share c = m * s.staticEvents.modelledEnergy c / ((List.range 65).map s.staticEvents.modelledEnergy).sum) ∧
    u.power = { s.power with activity := [], rescaledAt := s.tally } ∧ u = { s with regs := u.regs, power := u.power } ∧
    s.regsBut u [.energyTenant, .energyBase, .energyTotal])

/-- P1_ENTRY exactly with TARGET above 0, in P0, not busy for IDLE_US: STATE is 1 and every set-point at most 640 mV; otherwise nothing changes. P2_ENTRY
exactly with TARGET 2 or 3, not waking, and not busy for 10 times IDLE_US in P1: STATE is 2, the set-points are 520 mV, P2_ENTRIES counts, every RATE
is 0 and a tested tile is back in its earlier state; otherwise nothing changes. WAKE in P1 or P2 sets WAKING and ramps to the P0 set-points;
WAKE_COMPLETE then clears it, STATE is 0, and the waiting accesses are served in their order (log 31); one that memory cannot serve yet goes on
waiting (log 204). PWR_CTL_OFF by the host or by an MGC that runs, and MCTP_OFF while the MGC serves (log 162), enter P3 exactly when every virtual
function is disabled, no ring pair is active and no item is in flight; in P1 and P2 the write waits for the wake that it starts; a virtual function
and Loupe change nothing. P3 has STATE 3, PHASE at most 3 (log 158) and the regulators off. MCTP_WAKE, and WAKE_N low with the main power good, leave
P3 to event 4 of start-up, unless the device has tripped. HARD_TRIP latches the first sensor, shows the trip, enters P3, in cold reset not (log 145),
and has it recorded with the sensor's reading (log 144); THERMTRIP_N is low while the latch holds (log 146), board test and normal running apart. -/
def Obligations.PowerStatesAreEnteredAndLeft : Prop :=
  (∀ (s : State) (f : Nat), s.canonical = true → s.power.idleFrom = some f →
    ((1 ≤ s.fld Fld.pwrCtlTarget 0 ∧ s.inP0 = true ∧ s.busy = false ∧ f + 1000 * max 1 (s.fld Fld.pwrCtlIdleUs 0) ≤ s.tally) → ∃ u, exec .p1Entry s = .next u ∧
      u.fld Fld.pwrStatState 0 = 1 ∧ u.power = { s.power with p1From := some s.tally } ∧ u = { s with regs := u.regs, power := u.power } ∧
      s.regsBut u [.pwrStat, .pwrRegion] ∧
      (s.flag Fld.pwrStatWaking 0 = false → ∀ r, r < 16 → u.fld Fld.pwrRegionSetpoint r = min 640 (s.p0Point r))) ∧
    (¬ (1 ≤ s.fld Fld.pwrCtlTarget 0 ∧ s.inP0 = true ∧ s.busy = false ∧ f + 1000 * max 1 (s.fld Fld.pwrCtlIdleUs 0) ≤ s.tally) → exec .p1Entry s = .next s)) ∧
  (∀ (s : State) (f : Nat), s.canonical = true → s.power.p1From = some f →
    ((2 ≤ s.fld Fld.pwrCtlTarget 0 ∧ s.fld Fld.pwrStatState 0 = 1 ∧ s.flag Fld.pwrStatWaking 0 = false ∧ s.busy = false ∧
        f + 10 * (1000 * max 1 (s.fld Fld.pwrCtlIdleUs 0)) ≤ s.tally) → ∃ u, exec .p2Entry s = .next u ∧
      u.fld Fld.pwrStatState 0 = 2 ∧ u.fld Fld.pwrStatP2Entries 0 = s.counted Fld.pwrStatP2Entries 0 1 ∧ u.assay.unit = none ∧
      (∀ p prior, s.assay.unit = some (.tile p, prior) → prior < 8 → u.fld Fld.tilePhysState p = prior) ∧
      ∀ r, r < 16 → u.fld Fld.pwrRegionSetpoint r = 520 ∧ u.fld Fld.coreRateRate r = 0) ∧
    (¬ (2 ≤ s.fld Fld.pwrCtlTarget 0 ∧ s.fld Fld.pwrStatState 0 = 1 ∧ s.flag Fld.pwrStatWaking 0 = false ∧ s.busy = false ∧
        f + 10 * (1000 * max 1 (s.fld Fld.pwrCtlIdleUs 0)) ≤ s.tally) → exec .p2Entry s = .next s)) ∧
  (∀ (s : State), s.canonical = true →
    (s.fld Fld.pwrStatState 0 = 1 ∨ s.fld Fld.pwrStatState 0 = 2 → s.flag Fld.pwrStatWaking 0 = false → ∃ u, exec .wake s = .next u ∧
      u.flag Fld.pwrStatWaking 0 = true ∧ u.fld Fld.pwrStatState 0 = s.fld Fld.pwrStatState 0 ∧ ∀ r, r < 16 → u.fld Fld.pwrRegionSetpoint r = s.p0Point r) ∧
    (s.fld Fld.pwrStatState 0 = 0 ∨ s.fld Fld.pwrStatState 0 = 3 ∨ s.flag Fld.pwrStatWaking 0 = true → exec .wake s = .next s) ∧
    (s.flag Fld.pwrStatWaking 0 = true → ∃ u, exec .wakeComplete s = .next (s.waiting.foldl State.serveWaiting u) ∧ u.waiting = [] ∧ u.inP0 = true ∧
      u.flag Fld.pwrStatWaking 0 = false ∧ u.power.idleFrom = none ∧ u.power.p1From = none ∧ u.power.thermal = s.power.thermal ∧
      u = { s with waiting := [], regs := u.regs, power := u.power } ∧ s.regsBut u [.pwrStat, .pwrRegion] ∧
      ∀ r, r < 16 → u.fld Fld.pwrRegionSetpoint r = s.p0Point r) ∧
    (s.flag Fld.pwrStatWaking 0 = false → exec .wakeComplete s = .next (if s.inP0 = true then s.waiting.foldl State.serveWaiting { s with waiting := [] } else s)) ∧
    (∀ c, s.serveWaiting c = if s.waitingRequests < (s.serve c).waitingRequests then { s with waiting := s.waiting ++ [c] } else s.serve c) ∧
    (∀ a o n v t, exec (.registerWrite a o n v) s = .next t → s.serve (.registerWrite a o n v) = t) ∧
    (∀ f r v t, exec (.sqTailWrite f r v) s = .next t → s.serve (.sqTailWrite f r v) = t)) ∧
  (∀ (s : State), (∀ a, a = .hostPf ∨ a = .mgc → (s.fld Fld.pwrStatState 0 = 3 ∨ s.agentActs a = false → exec (.pwrCtlOff a) s = .next s) ∧
      (s.inP0 = true → s.agentActs a = true → exec (.pwrCtlOff a) s = .next (if s.mayPowerOff = true then s.enterP3 else s)) ∧
      (s.fld Fld.pwrStatState 0 = 1 ∨ s.fld Fld.pwrStatState 0 = 2 → s.agentActs a = true →
        exec (.pwrCtlOff a) s = .next { s.startWake with waiting := s.waiting ++ [.pwrCtlOff a] })) ∧
    exec (.pwrCtlOff .loupe) s = .next s ∧ (∀ v, v < 64 → 1 ≤ v → exec (.pwrCtlOff (.hostVf v)) s = .next s) ∧
    exec .mctpOff s = .next (if s.mgcServes = true ∧ s.mayPowerOff = true then s.enterP3 else s) ∧
    (s.mayPowerOff = true ↔ s.fld Fld.pwrStatState 0 ≠ 3 ∧ (∀ f, 1 ≤ f → f < 64 → s.fnState f = 0) ∧ (∀ k, k < 64 → s.flag Fld.ringCfgActive k = false) ∧ s.items = []) ∧
    s.enterP3.fld Fld.pwrStatState 0 = 3 ∧ s.enterP3.pins.regulators = false ∧ s.enterP3.pins.switches = 0 ∧ s.enterP3.pins.prsntLow = false ∧ s.enterP3.waiting = [] ∧
    (s.canonical = true → s.enterP3.fld Fld.setupStatPhase 0 = min 3 (s.fld Fld.setupStatPhase 0))) ∧
  (∀ (s : State), s.canonical = true → exec .mctpWake s = .next (if s.mgcServes = true then s.leaveP3 else s) ∧
    (∀ low, exec (.wakeNAssert low) s = .next (if low = true ∧ s.mainGood = true then { s with pins := { s.pins with wakeN := false } }.leaveP3
      else { s with pins := { s.pins with wakeN := !low } })) ∧
    (s.fld Fld.pwrStatState 0 = 3 → s.pins.tripLatch = none → s.flag Fld.pwrStatTripped 0 = false → s.leaveP3.inP0 = true ∧
      s.leaveP3.flag Fld.setupStatFromP3 0 = true ∧ s.leaveP3.fld Fld.setupStatPhase 0 = 3 ∧ s.leaveP3.tally = s.tally) ∧
    (s.fld Fld.pwrStatState 0 ≠ 3 ∨ s.pins.tripLatch ≠ none ∨ s.flag Fld.pwrStatTripped 0 = true → s.leaveP3 = s)) ∧
  (∀ (s v w : State) (n first : Nat), n < 384 → s.pins.vaux = true → first = s.pins.tripLatch.getD n →
    v = (({ s with pins := { s.pins with tripLatch := some first, stillHot := true } }).setFlag Fld.pwrStatTripped 0 true).setFld Fld.pwrStatTripSensor 0 first →
    w = (if s.awake = true then v.enterP3 else v) →
    exec (.hardTrip n) s = .next (if w.sec.mgcRuns = true then w.journal recTrip [n, w.sensor n] else w)) ∧
  (∀ (s : State), s.scanned (.side .thermtripN) = false → s.scanHighz = false → s.pins.vaux = true → s.pinCondition ≠ .running →
    (s.thermtripDriven = true ↔ s.pins.tripLatch ≠ none))

/-- An image that is chosen or written meets every step of R434. BOOT_CHAIN at PHASE 1 without a PUF (16 failures, or erased helper data: log 198),
without a valid loader or without valid firmware leaves the MGC without an image in recovery; otherwise the MGC runs the firmware, PHASE is 2, and
MEAS0 to MEAS2 are extended (byte order: log 153) and the MGC's SRAM holds the firmware from 0 (log 197); in FACTORY the identity keys are made.
RECOVERY_IMAGE_WRITE of a valid image in recovery fills the slot and restarts the chain; FIRMWARE_UPDATE fills the slot that is not first choice,
which becomes first choice; an invalid image changes nothing. SVN_COMMIT raises a floor exactly when both slots hold images at or above the running
SVN. ATTESTATION_REQUEST answers 17,632 bytes with the magic number and the nonce, or nothing in RETURNED or without keys. SPDM_KEY_EXCHANGE opens a
session, and with the CXL link up and outside P3 installs two IDE keys (log 199). JOURNAL_RECORD_WRITE appends the oldest change under the next SEQ,
to an empty log after GENESIS and SEAL (log 148). JOURNAL_COMPACTION, a step a command (log 149), with less than 8 MiB free begins the other half,
then adds the snapshot and SEAL, then what was made meanwhile, and erases the old half once the new one is active. MGC_WATCHDOG_EXPIRY restores the
MGC's code and counts a restart. Key hashes and signature checks are opaque constants: the witness of a run supposes a device that verifies one image. -/
def Obligations.OnlyVerifiedImagesRunAndTheJournalKeepsOrder : Prop :=
  (∀ (s : State) (k : Nat) (i : Image), s.chosen k = some i → s.valid k i = true) ∧
  (∀ (s : State) (k : Nat) (i : Image), s.valid k i = true ↔ i.formOk k = true ∧
    (sha384 (rsaKeyAt i.signed 0x50 ++ slhKeyAt i.signed 0x50) = Config.rootKeyHash (leAt i.signed 7 1) ∧ leAt i.signed 7 1 < 4 ∧ bitOf s.sec.revoked (leAt i.signed 7 1) = false) ∧
    sha384 i.payload = (i.signed.drop 0x20).take 48 ∧ Config.rsaVerifies (rsaKeyAt i.signed 0x50) i.signed i.rsaSig = true ∧
    Config.slhVerifies (slhKeyAt i.signed 0x50) i.signed i.slhSig = true ∧ s.floorOf k ≤ i.svn) ∧
  (∀ (s : State), s.canonical = true → s.awake = true → s.fld Fld.setupStatPhase 0 = 1 → s.flag Fld.secStatRecovery 0 = false →
    (∀ n, 16 ≤ n ∨ s.sec.identityArea = false → ∃ u, exec (.bootChain n) s = .next u ∧ u.sec = { s.sec with mgcRuns := false } ∧
      u.flag Fld.secStatRecovery 0 = true ∧ u.fld Fld.secStatLc 0 = s.otpLc ∧ u.fld Fld.setupStatPhase 0 = 1) ∧
    (∀ n, n < 16 → s.sec.identityArea = true → s.chosen 1 = none ∨ s.chosen 2 = none → ∃ u, exec (.bootChain n) s = .next u ∧ u.sec.mgcRuns = false ∧
      u.flag Fld.secStatRecovery 0 = true ∧ u.fld Fld.setupStatPhase 0 = 1) ∧
    (∀ n ld fw, n < 16 → s.sec.identityArea = true → s.chosen 1 = some ld → s.chosen 2 = some fw → ∃ u, exec (.bootChain n) s = .next u ∧ u.sec.mgcRuns = true ∧
      u.flag Fld.secStatRecovery 0 = false ∧ u.fld Fld.setupStatPhase 0 = 2 ∧ u.fld Fld.secStatLc 0 = s.otpLc ∧ u.flag Fld.secStatNoAssay 0 = (s.chosen 3).isNone ∧
      u.fld Fld.measValue 0 = leNat (sha384 (s.measured 0 ++ sha384 ld.signed)) % 2 ^ 384 ∧
      u.fld Fld.measValue 1 = leNat (sha384 (s.measured 1 ++ sha384 fw.signed)) % 2 ^ 384 ∧
      (∀ im, s.chosen 3 = some im → u.fld Fld.measValue 2 = leNat (sha384 (s.measured 2 ++ sha384 im.signed)) % 2 ^ 384) ∧
      u.sec.firmware = fw.payload ∧ u.sec.sram = Mem.writeRange [] 0 (fw.payload.take 0x400000) ∧
      (s.otpLc = 0 → u.sec.identityKeys = true) ∧ (s.otpLc ≠ 0 → u.sec.deviceKeys = s.sec.deviceKeys))) ∧
  (∀ (s : State) (k n : Nat) (i : Image), 1 ≤ k → k ≤ 3 → n < 2 →
    (s.flag Fld.secStatRecovery 0 = true → s.valid k i = true → ∃ u, exec (.recoveryImageWrite k n i) s = .next u ∧ u.slotImage k n = some i ∧
      (s.canonical = true → u.flag Fld.secStatRecovery 0 = false ∧ s.regsBut u [.secStat]) ∧ u.sec = { s.sec with slots := u.sec.slots }) ∧
    (s.flag Fld.secStatRecovery 0 = false ∨ s.valid k i = false → exec (.recoveryImageWrite k n i) s = .next s) ∧
    (s.mgcServes = true → s.valid k i = true → ∃ u, exec (.firmwareUpdate k i) s = .next u ∧ u.slotImage k (1 - s.firstChoice k) = some i ∧
      u.firstChoice k = 1 - s.firstChoice k ∧ u.regs = s.regs ∧
      (Tab.sorted s.sec.slots = true → u.slotImage k (s.firstChoice k) = s.slotImage k (s.firstChoice k))) ∧
    (s.mgcServes = false ∨ s.valid k i = false → exec (.firmwareUpdate k i) s = .next s)) ∧
  (∀ (s : State) (k v : Nat), 1 ≤ k → k ≤ 3 → v = min 64 (Tab.get 0 s.sec.running k) →
    ((s.mgcServes = true ∧ (∃ a b, s.slotImage k 0 = some a ∧ s.slotImage k 1 = some b ∧ v ≤ a.svn ∧ v ≤ b.svn) ∧ s.floorOf k < v) →
      exec (.svnCommit k) s = .next { s with sec := { s.sec with floors := Tab.set 0 s.sec.floors k v } }) ∧
    (¬ (s.mgcServes = true ∧ (∃ a b, s.slotImage k 0 = some a ∧ s.slotImage k 1 = some b ∧ v ≤ a.svn ∧ v ≤ b.svn) ∧ s.floorOf k < v) →
      exec (.svnCommit k) s = .next s)) ∧
  (∀ (s : State) (nonce : List Byte) (spdm : Bool), s.awake = true → s.mgcServes = true → (spdm = true → 0 < s.sec.spdm) → ∃ u,
    exec (.attestationRequest nonce spdm) s = .next u ∧ u = { s with outs := { s.outs with report := u.outs.report } } ∧
    (s.fld Fld.secStatLc 0 = 3 ∨ s.sec.identityKeys = false → u.outs.report = []) ∧
    (s.fld Fld.secStatLc 0 ≠ 3 → s.sec.identityKeys = true → u.outs.report = s.attest nonce ∧ u.outs.report.length = 17632 ∧
      u.outs.report.take 4 = [0x4F, 0x56, 0x41, 0x54] ∧ (nonce.length = 32 → (u.outs.report.drop 16).take 32 = nonce))) ∧
  (∀ (s : State) (script : List Byte), (s.mgcServes = true → s.sec.identityKeys = true → ∃ u, exec (.spdmKeyExchange script) s = .next u ∧
      u.sec.spdm = s.sec.spdm + 1 ∧ u.outs.auth.length = 384 ∧ u.regs = s.regs ∧
      (s.fns.linkUp = true → s.fld Fld.pwrStatState 0 ≠ 3 → ∃ a b, u.sec.ideKeys = [a, b]) ∧
      (s.fns.linkUp = false ∨ s.fld Fld.pwrStatState 0 = 3 → u.sec.ideKeys = s.sec.ideKeys)) ∧
    (s.mgcServes = false ∨ s.sec.identityKeys = false → exec (.spdmKeyExchange script) s = .next s)) ∧
  (∀ (s : State) (ty tl : Nat) (args : List Nat) (rest : List (Nat × List Nat × Nat)), s.awake = true → s.sec.changes = (ty, args, tl) :: rest → ∃ u,
    exec .journalRecordWrite s = .next u ∧ u.sec.changes = rest ∧ u.regs = s.regs ∧ (ty = recTrip → u.pins.tripRecorded = true) ∧
    u.sec.half (1 - s.activeHalf) = s.sec.half (1 - s.activeHalf) ∧
    (s.log ≠ [] → u.log = s.log ++ [⟨ty, args, s.logSeq + 1, tl, none⟩]) ∧
    (s.log = [] → u.log = [⟨recGenesis, [1, 0], 0, s.tally, none⟩, ⟨recSeal, [], 1, s.tally, none⟩, ⟨ty, args, 2, tl, none⟩])) ∧
  (∀ (s : State), s.awake = true → s.canonical = true →
    (s.flag Fld.journalStatCompacting 0 = false → s.logFree < 0x800000 → 0 < s.sec.gen s.activeHalf → ∃ u, exec .journalCompaction s = .next u ∧
      u.flag Fld.journalStatCompacting 0 = true ∧ s.regsBut u [.journalStat] ∧ u.activeHalf = s.activeHalf ∧ u.log = s.log ∧
      u.sec = s.sec.setHalf (1 - s.activeHalf) [⟨recGenesis, [s.sec.gen s.activeHalf + 1, s.logSeq], s.logSeq, s.tally, none⟩]) ∧
    (s.flag Fld.journalStatCompacting 0 = true → s.sec.gen s.activeHalf < s.sec.gen (1 - s.activeHalf) →
      (sealedTail (s.sec.log (1 - s.activeHalf)) = none → ∃ u, exec .journalCompaction s = .next u ∧ u.regs = s.regs ∧
        u.sec = s.sec.setHalf (1 - s.activeHalf) (s.sec.log (1 - s.activeHalf) ++ s.snapshotTail s.activeHalf (1 - s.activeHalf)) ∧
        (∀ g, s.sec.log (1 - s.activeHalf) = [g] → u.sec.log (1 - s.activeHalf) = g :: s.snapshotTail s.activeHalf (1 - s.activeHalf) ∧
          sealedTail (u.sec.log (1 - s.activeHalf)) = some [])) ∧
      (sealedTail (s.sec.log (1 - s.activeHalf)) ≠ none → ∃ u, exec .journalCompaction s = .next u ∧ u.regs = s.regs ∧ u.activeHalf = 1 - s.activeHalf ∧
        u.sec.log (1 - s.activeHalf) = s.sec.log (1 - s.activeHalf) ++ s.copyTail s.activeHalf (1 - s.activeHalf))) ∧
    (s.flag Fld.journalStatCompacting 0 = true → s.sec.gen (1 - s.activeHalf) < s.sec.gen s.activeHalf → ∃ u, exec .journalCompaction s = .next u ∧
      u.flag Fld.journalStatCompacting 0 = false ∧ s.regsBut u [.journalStat] ∧ u.activeHalf = s.activeHalf ∧ u.log = s.log ∧ u.sec.half (1 - s.activeHalf) = [])) ∧
  (∀ (s : State), (s.flag Fld.journalStatCompacting 0 = false → 0x800000 ≤ s.logFree → exec .journalCompaction s = .next s) ∧
    (s.sec.mgcRuns = true → exec .mgcWatchdogExpiry s =
      .next (({ s with sec := { s.sec with sram := Mem.writeRange [] 0 (s.sec.firmware.take 0x400000) } }).bump Fld.secStatMgcRestarts 0 1)) ∧
    (s.sec.mgcRuns = false → exec .mgcWatchdogExpiry s = .next s))

/-- A token whose checks fail changes nothing but REFUSED, CAUSE and the challenge; one that meets them all opens a session at L0 in FIELD_DEBUG with its
level granted (in P3 it ends at once), or erases and returns the device, or locks it, at L0 (log 29), and the challenge is drawn anew.
DEBUG_LEVEL_RAISE and LOWER that the life cycle does not open are refused with cause 9; others put the level in force, after an erase for L2 and L3 in
FIELD_DEBUG; lowering to L0 there ends the session, and DEBUG_SESSION_EXPIRY ends it after DURATION. A session's end leaves FIELD_LOCKED. Below L2 a
halt is released (log 28). Below the level that R454 names, halts, steps, resumes and accesses are refused; in P0 at the level, DEBUG_HALT and RESUME
hold and release the tile that serves the logical tile, a single step issues a halted tile's next instruction (log 33), and an access reads or writes
what it names, tile state by the model's word numbers (log 34). In P3 the MGC may be halted and no more, memory and tiles are not reached (log 160);
in P1 and P2 an access that needs the wake waits for it. That each access draws a value, and which debug opcode stands in the instruction register, is
the model's form (log 32). Key hashes and signature checks are opaque constants: the witness supposes a device that verifies the tokens. -/
def Obligations.TokensLevelsAndDebugAccessesAreGated : Prop :=
  (∀ (s : State) (t : Token) (action : Nat), s.canonical = true → s.tokenCause t action ≠ 0 → ∃ u,
    (action = 1 → exec (.tokenDebug t) s = if s.awake = true then .next u else .next s) ∧ (action = 2 → exec (.tokenReturn t) s = if s.awake = true then .next u else .next s) ∧
    (action = 3 → exec (.tokenLock t) s = if s.awake = true then .next u else .next s) ∧
    u.fld Fld.dbgStatRefused 0 = s.counted Fld.dbgStatRefused 0 1 ∧ u.fld Fld.dbgStatCause 0 = s.tokenCause t action ∧ s.regsBut u [.dbgStat, .dbgChallenge] ∧
    u = { s with regs := u.regs, draws := s.draws + 1 }) ∧
  (∀ (s : State) (t : Token) (action : Nat), action = 1 ∨ action = 2 ∨ action = 3 → (s.tokenCause t action = 0 ↔ tokenForm t action = true ∧
    (sha384 (rsaKeyAt t.signed 0x100 ++ slhKeyAt t.signed 0x100) = Config.rootKeyHash t.keyIndex ∧ t.keyIndex < 4 ∧ bitOf s.sec.revoked t.keyIndex = false) ∧
    Config.rsaVerifies (rsaKeyAt t.signed 0x100) t.signed t.rsaSig = true ∧ Config.slhVerifies (slhKeyAt t.signed 0x100) t.signed t.slhSig = true ∧
    s.sec.identityKeys = true ∧ t.idHash = leNat s.identityHash ∧ t.challenge = s.fld Fld.dbgChallengeValue 0 ∧ s.fld Fld.secStatLc 0 = (if action = 3 then 0 else 1) ∧
    (action = 1 → t.level ≤ s.fld Fld.dbgConsentLevel 0) ∧ (action = 2 → s.flag Fld.dbgConsentReturnOk 0 = true))) ∧
  (∀ (s : State) (t : Token), s.canonical = true → s.awake = true →
    (s.tokenCause t 1 = 0 → s.fld Fld.pwrStatState 0 ≠ 3 → ∃ u, exec (.tokenDebug t) s = .next u ∧ u.fld Fld.secStatLc 0 = 2 ∧
      u.sec.session = some ⟨t.level, t.idHash, s.tally, t.duration, false⟩ ∧
      u.fld Fld.secStatGranted 0 = t.level ∧ u.level = 0 ∧ u.fld Fld.dbgStatAccepted 0 = s.counted Fld.dbgStatAccepted 0 1 ∧
      u.sec.changes = s.sec.changes ++ [(recDebugSession, [1, t.level, t.idHash], s.tally)] ∧ u.mem = s.mem) ∧
    (s.tokenCause t 1 = 0 → s.fld Fld.pwrStatState 0 = 3 → ∃ u, exec (.tokenDebug t) s = .next u ∧ u.fld Fld.secStatLc 0 = 1 ∧ u.sec.session = none ∧
      u.fld Fld.secStatGranted 0 = 0 ∧ u.level = 0 ∧ u.fld Fld.dbgStatAccepted 0 = s.counted Fld.dbgStatAccepted 0 1 ∧
      u.sec.changes = s.sec.changes ++ [(recDebugSession, [1, t.level, t.idHash], s.tally), (recDebugSession, [0, t.level, t.idHash], s.tally)]) ∧
    (s.tokenCause t 2 = 0 → ∃ u, exec (.tokenReturn t) s = .next u ∧ u.sec.identityKeys = false ∧ u.sec.identityArea = false ∧ u.sec.otpReturned = true ∧ u.fld Fld.secStatLc 0 = 3) ∧
    (s.tokenCause t 3 = 0 → ∃ u, exec (.tokenLock t) s = .next u ∧ u.sec.otpField = true ∧ u.fld Fld.secStatLc 0 = 1 ∧ u.level = 0 ∧ u.sec.session = s.sec.session)) ∧
  (∀ (s : State) (l : Nat), l < 4 → s.awake = true →
    (s.level < l → s.mayEnter l = false → exec (.debugLevelRaise l) s = .next (s.refuseDebug 9)) ∧
    (s.level < l → s.mayEnter l = true → (s.fld Fld.secStatLc 0 ≠ 2 ∨ l < 2) → s.canonical = true → ∃ u, exec (.debugLevelRaise l) s = .next u ∧ u.level = l ∧ u.sec.aboveL0 = true ∧ u.mem = s.mem) ∧
    (s.level < l → s.mayEnter l = true → s.fld Fld.secStatLc 0 = 2 → 2 ≤ l → s.inP0 = true → exec (.debugLevelRaise l) s = .next (s.enterLevel l) ∧
      (s.canonical = true → (s.enterLevel l).level = l)) ∧
    (s.level < l → s.mayEnter l = true → s.fld Fld.secStatLc 0 = 2 → 2 ≤ l → s.fld Fld.pwrStatState 0 = 1 ∨ s.fld Fld.pwrStatState 0 = 2 →
      exec (.debugLevelRaise l) s = .next { s.startWake with waiting := s.waiting ++ [.debugLevelRaise l] }) ∧
    (l < s.level → s.fld Fld.secStatLc 0 = 2 → exec (.debugLevelLower l) s = .next (if l = 0 then s.endSession else s.refuseDebug 9)) ∧
    (l < s.level → s.fld Fld.secStatLc 0 ≠ 2 → s.canonical = true → ∃ u, exec (.debugLevelLower l) s = .next u ∧ u.level = l ∧ u.mem = s.mem ∧
      (l < 2 → u.sec.mgcHalted = false))) ∧
  (∀ (s : State) (x : Session), s.sec.session = some x → exec .debugSessionExpiry s = .next (if x.since + x.duration ≤ s.tally then s.endSession else s) ∧
    s.endSession.sec.session = none ∧ (s.canonical = true → s.endSession.fld Fld.secStatLc 0 = 1) ∧
    (x.heldHigh = false → s.canonical = true → s.endSession.level = 0 ∧ s.endSession.fld Fld.secStatGranted 0 = 0 ∧ s.endSession.mem = s.mem ∧
      s.endSession.sec.changes = s.sec.changes ++ [(recDebugSession, [0, x.granted, x.idHash], s.tally)])) ∧
  (∀ (s : State) (c : Instr) (x : HaltTarget) (acc : LoupeAccess), s.awake = true → x.wf = true → acc.wf = true →
    ((s.level < 2 ∧ (c = .debugHalt x ∨ c = .debugResume x ∨ c = .debugSingleStep x ∨ (∃ t a, acc = .readSpad t a ∧ c = .loupeDebugAccess acc) ∨
        (∃ a v, acc = .writeMem a v ∧ c = .loupeDebugAccess acc) ∨ (∃ t w k v, acc = .writeTileState t w k v ∧ c = .loupeDebugAccess acc) ∨ (∃ a, acc = .readSram a ∧ c = .loupeDebugAccess acc))) ∨
      (s.level < 1 ∧ ((∃ f o n, acc = .readRegister f o n ∧ c = .loupeDebugAccess acc) ∨ (∃ t, acc = .readTrace t ∧ c = .loupeDebugAccess acc))) ∨
      (s.level < 3 ∧ ∃ n, acc = .scan n ∧ c = .loupeDebugAccess acc)) →
    exec c s = .next s.debugTap.refuseLoupe) ∧
  (∀ (s : State) (t p : Nat), s.awake = true → s.inP0 = true → 2 ≤ s.level → t < 256 → s.physOf t = some p →
    (∃ u, exec (.debugHalt (.tile t)) s = .next u ∧ (u.tile p) = { s.tile p with halted := true } ∧ u.tileLive t p = false ∧ u.regs = s.regs ∧ u.outs.loupeRefused = false) ∧
    (∃ u, exec (.debugResume (.tile t)) s = .next u ∧ u.regs = s.regs ∧ u.outs.loupeRefused = false ∧
      (Tab.sorted s.tiles = true → (u.tile p) = { s.tile p with halted := false } ∧ ∀ k, k ≠ p → u.tile k = s.tile k)) ∧
    ((s.tile p).halted = false → exec (.debugSingleStep (.tile t)) s = .next s.debugTap.serveLoupe) ∧
    ((s.tile p).halted = true → ∃ u v : State, exec (.debugSingleStep (.tile t)) s = .next (s.accepted u) ∧
      v = (s.debugTap.setTile p { s.tile p with halted := false }).issueNext t ∧ u = (v.onServing t (fun tl => { tl with halted := true })).serveLoupe) ∧
    (∀ i w, (s.tile p).next = some i → (i.opc.toNat = opNop → exec (.nop t) s = .next w → s.issueNext t = w) ∧
      (i.opc.toNat = opMma → exec (.mma t) s = .next w → s.issueNext t = w) ∧ (i.opc.toNat = 0x48 → exec (.vadd t .pass) s = .next w → s.issueNext t = w)) ∧
    exec (.debugSingleStep .mgc) s = .next s.debugTap.serveLoupe ∧
    (∀ a, exec (.loupeDebugAccess (.readMem a)) s = .next (s.accepted (s.debugTap.loupeMem a))) ∧
    (∃ u, exec (.debugHalt .mgc) s = .next u ∧ u.sec = { s.sec with mgcHalted := true } ∧ u.mgcServes = false) ∧
    (∀ a, a < 4194304 → ∃ u, exec (.loupeDebugAccess (.readSpad t a)) s = .next u ∧ u.outs.loupe = (Mem.read (s.tile p).spad a).setWidth 64 ∧ u.outs.loupeRefused = false ∧
      u.tiles = s.tiles ∧ u.regs = s.regs) ∧
    (∀ w k v, ∃ u, exec (.loupeDebugAccess (.writeTileState t w k v)) s = .next u ∧ (Tab.sorted s.tiles = true → u.tile p = (s.tile p).debugPoke w k v) ∧ u.regs = s.regs)) ∧
  (∀ (s : State) (w o n : Nat), s.awake = true → w < 4 →
    (∃ u, exec (.loupeDebugAccess (.readChallenge w)) s = .next u ∧ u.outs.loupe = BitVec.ofNat 64 (s.fld Fld.dbgChallengeValue 0 / 2 ^ (64 * w)) ∧
      u.outs.loupeRefused = false ∧ u.regs = s.regs) ∧
    (1 ≤ s.level → s.inP0 = true → ∃ u, exec (.loupeDebugAccess (.readRegister 0 o n)) s = .next u ∧
      u.outs.loupe = BitVec.ofNat 64 (s.debugTap.readThrough s.debugTap.locate o n) ∧ u.outs.loupeRefused = false ∧ u.regs = s.regs)) ∧
  (∀ (s : State) (x : HaltTarget) (a : Nat), s.awake = true → 2 ≤ s.level → x.wf = true →
    (s.fld Fld.pwrStatState 0 = 3 → exec (.debugHalt .mgc) s = .next (s.debugTap.holdMgc true).serveLoupe ∧ exec (.debugResume .mgc) s = .next s.debugTap.refuseLoupe ∧
      exec (.debugSingleStep x) s = .next s.debugTap.refuseLoupe ∧ exec (.loupeDebugAccess (.readMem a)) s = .next s.debugTap.refuseLoupe) ∧
    (s.fld Fld.pwrStatState 0 = 1 ∨ s.fld Fld.pwrStatState 0 = 2 →
      exec (.loupeDebugAccess (.readMem a)) s = .next { s.debugTap.startWake with waiting := s.waiting ++ [.loupeDebugAccess (.readMem a)] } ∧
      (∀ t, x = .tile t → exec (.debugSingleStep x) s = .next { s.debugTap.startWake with waiting := s.waiting ++ [.debugSingleStep x] })))

/-- COLD_RESET and TEST_MODE_ASSERT (until VAUX is lost, log 156) put the device in reset, with the queue, the flash, the board's levels and host memory
kept; VAUX lost while a record is written leaves it torn (log 151). POR_RELEASE with TEST_MODE low counts the Tally from zero at PHASE 1, samples the
straps and reads the life cycle (log 201). TRIP_RECORD, not in P3, clears the latch once every sensor is cool. JOURNAL_REPLAY follows at PHASE 2 or 3,
once no change waits (log 151), and leaves PHASE 5; REGULATOR_RAMP, MEMORY_TRAINING, MEMORY_INIT and PORT_READY each run at their phase only, with the
main power good and not in P3, and give phases 6, 7, 9 and 10; memory then reads as zeros with no mark, and a port that trains (log 155) has a rate
and a width of R337. PG_MAIN_FALL and RAIL_FAULT turn the regulators off and return start-up to event 6 (log 158); PG_MAIN_RISE opens the board-test
window, also again (log 154). PERST_N_FALL takes the port down; PERST_N_RISE closes the window. ALERT_CAUSE_READ releases ALERT_N. IDCODE shifts out
the identification, BYPASS (any value that names no instruction, log 203), CLAMP and HIGHZ one bit; SAMPLE_PRELOAD captures 479 cells (log 202),
EXTEST and its kinds only inside the window; TAP_RESET holds IDCODE. What the board drives into the register is open (log 12). -/
def Obligations.StartUpRunsInOrderAndScanIsServed : Prop :=
  (∀ (s : State) (vl : Bool) (w : Nat), ∃ u, exec (.coldReset vl w) s = .next u ∧ u.pins.porN = false ∧ (vl = true → u.pins.vaux = false) ∧
      (vl = false → u.pins.vaux = s.pins.vaux) ∧ u.pending = s.pending ∧ u.host = s.host ∧ u.mem = [] ∧ u.items = [] ∧
      u.sec.slots = s.sec.slots ∧ u.sec.floors = s.sec.floors ∧ u.sec.deviceKeys = s.sec.deviceKeys ∧ u.sec.changes = [] ∧ u.sec.session = none ∧
      (vl = false ∨ w = 0 ∨ s.sec.changes = [] → u.sec.half0 = s.sec.half0 ∧ u.sec.half1 = s.sec.half1) ∧
      (∀ e rest, vl = true → 0 < w → s.sec.changes = e :: rest → u.sec.half (1 - s.activeHalf) = s.sec.half (1 - s.activeHalf) ∧
        ∃ r : JRec, r.type = e.1 ∧ r.args = e.2.1 ∧ r.tally = e.2.2 ∧
          u.sec.half s.activeHalf = s.logBegun ++ [if w < r.bytes.length then { r with torn := some (r.bytes.take w) } else r]) ∧
      (s.pins.tripLatch = none ∨ vl = true → u.regs = []) ∧ (vl = false → ∀ n, s.pins.tripLatch = some n → u.flag Fld.pwrStatTripped 0 = true ∧ u.pins.tripLatch = some n)) ∧
  (∀ s : State, ∃ u, exec .testModeAssert s = .next u ∧ u.pins.testMode = true ∧ u.pins.porN = false ∧ u.mem = [] ∧ ∀ n, n < 4 → exec (.porRelease n) u = .next u) ∧
  (∀ (s : State) (n : Nat), n < 4 → s.pins.porN = false → s.pins.testMode = false → s.canonical = true → ∃ u, exec (.porRelease n) s = .next u ∧ u.tally = 0 ∧ u.fld Fld.setupStatPhase 0 = 1 ∧
    u.pins = { s.pins with vaux := true, porN := true, porHigh := true, smbAddr := 0x60 + n, window := s.mainGood } ∧ u.fld Fld.secStatLc 0 = s.otpLc ∧
    u.fld Fld.dbgChallengeValue 0 = (Config.challenge s.draws).toNat ∧ u = { s with regs := u.regs, tally := 0, pins := u.pins, draws := s.draws + 1 }) ∧
  (∀ (s : State) (n : Nat), s.canonical = true → s.pins.tripLatch = some n → s.awake = true → s.fld Fld.setupStatPhase 0 = 2 →
    (s.pins.stillHot = true ∨ s.fld Fld.pwrStatState 0 = 3 → exec .tripRecord s = .next s) ∧
    (s.pins.stillHot = false → s.fld Fld.pwrStatState 0 ≠ 3 → ∃ u, exec .tripRecord s = .next u ∧ u.pins = { s.pins with tripLatch := none, tripRecorded := false } ∧ u.fld Fld.setupStatPhase 0 = 3 ∧
      u.flag Fld.pwrStatTripped 0 = false ∧ u.sec.changes = (if s.pins.tripRecorded = true then s.sec.changes else s.sec.changes ++ [(recTrip, [n, s.sensor n], s.tally)]))) ∧
  (∀ (s : State), ((s.awake = true ∧ s.sec.mgcRuns = true ∧ s.fld Fld.pwrStatState 0 ≠ 3 ∧ s.sec.changes = [] ∧
      ((s.fld Fld.setupStatPhase 0 = 2 ∧ s.pins.tripLatch = none) ∨ s.fld Fld.setupStatPhase 0 = 3)) → ∃ u, exec .journalReplay s = .next u ∧ u.fld Fld.setupStatPhase 0 = 5) ∧
    (¬ (s.awake = true ∧ s.sec.mgcRuns = true ∧ s.fld Fld.pwrStatState 0 ≠ 3 ∧ s.sec.changes = [] ∧
      ((s.fld Fld.setupStatPhase 0 = 2 ∧ s.pins.tripLatch = none) ∨ s.fld Fld.setupStatPhase 0 = 3)) → exec .journalReplay s = .next s)) ∧
  (∀ (s : State) (failed : List Nat), failed.all (fun c => c < 272) = true →
    (s.atPhase 5 = true → ∃ u, exec .regulatorRamp s = .next u ∧ u.fld Fld.setupStatPhase 0 = 6 ∧ u.pins = { s.pins with regulators := true, switches := 3 } ∧ u.mem = s.mem) ∧
    (s.atPhase 6 = true → exec (.memoryTraining failed) s = .next ((failed.foldl State.trainFail s).setTop.setFld Fld.setupStatPhase 0 7)) ∧
    (s.atPhase 7 = true → ∃ u, exec .memoryInit s = .next u ∧ u.mem = [] ∧ u.memPoison = [] ∧ u.memDamage = [] ∧ u.boards = [] ∧ u.pools = [] ∧ u.windows = [] ∧
      (s.canonical = true → u.fld Fld.setupStatPhase 0 = 9)) ∧
    (s.atPhase 9 = true → s.pins.perstN = true → s.fns.linkUp = false → ∃ u, exec .portReady s = .next u ∧ u.fns.linkUp = true ∧ u.pins.prsntLow = true ∧ u.pins.cxlReceivers = true ∧
      (∃ r w, r ∈ linkRates ∧ w ∈ linkWidths ∧ u.fns.trained = some (r, w)) ∧
      u = (((({ s with pins := u.pins }).setFlag Fld.setupStatReady 0 true).setFld Fld.setupStatPhase 0 10)).portUpNow) ∧
    (s.atPhase 5 = false → exec .regulatorRamp s = .next s) ∧ (s.atPhase 6 = false → exec (.memoryTraining failed) s = .next s) ∧
    (s.atPhase 7 = false → exec .memoryInit s = .next s) ∧ (s.atPhase 9 = false → s.atPhase 10 = false → exec .portReady s = .next s)) ∧
  (∀ (s : State), (s.pins.pgMain = false → (s.awake = false ∨ s.pins.wakeN = true) → exec .pgMainRise s =
      .next { s with pins := { s.pins with pgMain := true, railFault := false, window := s.pins.porN } }) ∧
    (∀ v : State, v = { s with pins := { s.pins with pgMain := false, railFault := false } } → s.pins.pgMain = true →
      exec .pgMainFall s = .next (if s.pins.railFault = true then v else v.mainLost)) ∧
    (s.mainGood = true → s.awake = true → exec .railFault s = .next (State.mainLost { s with pins := { s.pins with railFault := true } })) ∧
    (s.mainGood = false ∨ s.awake = false → exec .railFault s = .next s) ∧
    s.mainLost.pins.window = false ∧ s.mainLost.pins.pgMain = s.pins.pgMain ∧
    (s.awake = true → s.fld Fld.pwrStatState 0 ≠ 3 → s.mainLost.pins.regulators = false ∧ s.mainLost.pins.prsntLow = false ∧
      (s.canonical = true → s.mainLost.fld Fld.setupStatPhase 0 = min 5 (s.fld Fld.setupStatPhase 0))) ∧
    ((s.awake = false ∨ s.fld Fld.pwrStatState 0 = 3) → s.mainLost = { s with pins := { s.pins with window := false } })) ∧
  (∀ (s : State), (s.pins.perstN = true → exec .perstNFall s = .next (if s.fns.linkUp = true then ({ s with pins := { s.pins with perstN := false } }).cxlDown
      else { s with pins := { s.pins with perstN := false } })) ∧
    (s.pins.perstN = false → ∃ u, exec .perstNRise s = .next u ∧ u.pins.perstN = true ∧ u.pins.window = false ∧
      u.pins.ir = (if s.pins.window = true ∧ 3 ≤ s.pins.ir.toNat ∧ s.pins.ir.toNat ≤ 7 then 0xFF else s.pins.ir)) ∧
    (s.awake = true → exec .alertCauseRead s = .next { s with pins := { s.pins with alerts := [] } })) ∧
  (∀ (s : State) (b : List Bool), s.pins.vaux = true →
    (∃ u, exec .idcode s = .next u ∧ u = { s with pins := { s.pins with ir := 0x01 }, outs := { s.outs with dr := u.outs.dr } } ∧ u.outs.dr.length = 32 ∧
      ∀ k, k < 32 → u.outs.dr.getD k false = (0x10768A47#32).getLsbD k) ∧
    (∃ u, exec (.samplePreload b) s = .next u ∧ u.pins = { s.pins with ir := 0x02, boundary := (s.captured ++ b).drop b.length } ∧ u.outs.dr = s.captured ∧
      s.captured.length = 479 ∧ u.pins.boundary.length = 479 ∧ u.regs = s.regs ∧ u.tiles = s.tiles) ∧
    (∀ (c : Instr) (ir : BitVec 8), (c = .extest ∧ ir = 3) ∨ (c = .extestPulse ∧ ir = 4) ∨ (c = .extestTrain ∧ ir = 5) → ∃ u, exec c s = .next u ∧
      u.pins = { s.pins with ir := ir } ∧ u.outs.dr = (if s.pins.window = true then s.captured else [false]) ∧ u.regs = s.regs ∧ u.tiles = s.tiles) ∧
    (∀ (c : Instr) (ir : BitVec 8), (c = .clamp ∧ ir = 6) ∨ (c = .highz ∧ ir = 7) ∨ (c = .bypass ir ∧ (ir = 0 ∨ 8 ≤ ir.toNat ∧ ir.toNat < 0x40 ∨ 0x80 ≤ ir.toNat)) →
      exec c s = .next { s with pins := { s.pins with ir := ir }, outs := { s.outs with dr := [false] } }) ∧
    exec .tapReset s = .next { s with pins := { s.pins with ir := 0x01 } })
end

