-- ==== Sys2Proof/Laws/Tab.lean ====
section
/-! SUPPORT. Tables and byte memories: what a key reads after an update, and that every update keeps the canonical form. -/

namespace Sys2Proof.Machine

variable {α : Type}

/-! ## Sorted tables -/

theorem Tab.sorted_nil : Tab.sorted ([] : Tab α) = true := rfl

theorem Tab.sorted_cons {k : Nat} {v : α} {r : Tab α} :
    Tab.sorted ((k, v) :: r) = true ↔ (∀ e ∈ r, k < e.1) ∧ Tab.sorted r = true := by
  simp only [Tab.sorted, decide_eq_true_eq, List.pairwise_cons]

/-- A key below every listed key reads as the default. -/
theorem Tab.get_of_lt {d : α} : ∀ {t : Tab α} {k : Nat}, (∀ e ∈ t, k < e.1) → Tab.get d t k = d
  | [], _, _ => rfl
  | (k', v) :: r, k, h => by
    have h1 : k < k' := h (k', v) (by simp)
    have h2 : k' ≠ k := by omega
    simp [Tab.get, h1, h2]

/-- The key just set reads the value set. -/
theorem Tab.get_set_self [DecidableEq α] {d : α} : ∀ {t : Tab α} {k : Nat} {v : α}, Tab.sorted t = true → Tab.get d (Tab.set d t k v) k = v
  | [], k, v, _ => by by_cases hv : v = d <;> simp [Tab.set, Tab.get, hv]
  | (k', v') :: r, k, v, h => by
    obtain ⟨h1, h2⟩ := Tab.sorted_cons.1 h
    by_cases hk : k < k'
    · have hne : k' ≠ k := by omega
      by_cases hv : v = d <;> simp [Tab.set, Tab.get, hk, hv, hne]
    · by_cases he : k' = k
      · subst he
        by_cases hv : v = d
        · simp only [Tab.set, hk, hv, if_true, if_false]
          exact Tab.get_of_lt h1
        · simp [Tab.set, Tab.get, hv]
      · simp only [Tab.set, hk, he, if_false, Tab.get]
        exact Tab.get_set_self h2

/-- A value that is not the default reads back whatever the order of the keys. -/
theorem Tab.get_set_ne [DecidableEq α] {d : α} {v : α} (hv : v ≠ d) : ∀ {t : Tab α} {k : Nat}, Tab.get d (Tab.set d t k v) k = v
  | [], k => by simp [Tab.set, Tab.get, hv]
  | (k', v') :: r, k => by
    by_cases hk : k < k'
    · simp [Tab.set, Tab.get, hk, hv]
    · by_cases he : k' = k
      · subst he; simp [Tab.set, Tab.get, hv]
      · simp only [Tab.set, hk, he, if_false, Tab.get]
        exact Tab.get_set_ne hv

/-- The keys of a table after an update are among the old ones and the key set. -/
theorem Tab.mem_set [DecidableEq α] {d : α} : ∀ {t : Tab α} {k : Nat} {v : α} {e : Nat × α}, e ∈ Tab.set d t k v → e = (k, v) ∧ v ≠ d ∨ e ∈ t
  | [], k, v, e, h => by
    by_cases hv : v = d
    · simp [Tab.set, hv] at h
    · simp [Tab.set, hv] at h; exact .inl ⟨h, hv⟩
  | (k', v') :: r, k, v, e, h => by
    by_cases hk : k < k'
    · by_cases hv : v = d
      · simp only [Tab.set, hk, hv, if_true] at h; exact .inr h
      · simp only [Tab.set, hk, hv, if_true, if_false, List.mem_cons] at h ⊢
        rcases h with h | h
        · exact .inl ⟨h, hv⟩
        · exact .inr h
    · by_cases he : k' = k
      · subst he
        by_cases hv : v = d
        · simp only [Tab.set, lt_irrefl, hv, if_true, if_false] at h; exact .inr (List.mem_cons_of_mem _ h)
        · simp only [Tab.set, lt_irrefl, hv, if_true, if_false, List.mem_cons] at h ⊢
          rcases h with h | h
          · exact .inl ⟨h, hv⟩
          · exact .inr (.inr h)
      · simp only [Tab.set, hk, he, if_false, List.mem_cons] at h ⊢
        rcases h with h | h
        · exact .inr (.inl h)
        · rcases Tab.mem_set h with h | h
          · exact .inl h
          · exact .inr (.inr h)

/-- An update keeps the keys strictly rising. -/
theorem Tab.sorted_set [DecidableEq α] {d : α} : ∀ {t : Tab α} {k : Nat} {v : α}, Tab.sorted t = true → Tab.sorted (Tab.set d t k v) = true
  | [], k, v, _ => by by_cases hv : v = d <;> simp [Tab.set, hv, Tab.sorted]
  | (k', v') :: r, k, v, h => by
    obtain ⟨h1, h2⟩ := Tab.sorted_cons.1 h
    by_cases hk : k < k'
    · by_cases hv : v = d
      · simpa only [Tab.set, hk, hv, if_true] using h
      · simp only [Tab.set, hk, hv, if_true, if_false]
        refine Tab.sorted_cons.2 ⟨?_, h⟩
        intro e he
        rcases List.mem_cons.1 he with he | he
        · subst he; exact hk
        · exact lt_trans hk (h1 e he)
    · by_cases he : k' = k
      · subst he
        by_cases hv : v = d
        · simpa only [Tab.set, lt_irrefl, hv, if_true, if_false] using h2
        · simp only [Tab.set, lt_irrefl, hv, if_true, if_false]
          exact Tab.sorted_cons.2 ⟨h1, h2⟩
      · simp only [Tab.set, hk, he, if_false]
        refine Tab.sorted_cons.2 ⟨?_, Tab.sorted_set h2⟩
        intro e hm
        rcases Tab.mem_set hm with ⟨hm, _⟩ | hm
        · subst hm; show k' < k; omega
        · exact h1 e hm

/-- Another key reads as before, whatever its own default. -/
theorem Tab.get_set_other [DecidableEq α] {d c : α} : ∀ {t : Tab α} {k j : Nat} {v : α}, Tab.sorted t = true → j ≠ k →
    Tab.get c (Tab.set d t k v) j = Tab.get c t j
  | [], k, j, v, _, hj => by
    by_cases hv : v = d
    · simp [Tab.set, hv]
    · simp only [Tab.set, hv, if_false, Tab.get, Ne.symm hj]
      split <;> rfl
  | (k', v') :: r, k, j, v, h, hj => by
    obtain ⟨h1, h2⟩ := Tab.sorted_cons.1 h
    by_cases hk : k < k'
    · by_cases hv : v = d
      · simp only [Tab.set, hk, hv, if_true]
      · simp only [Tab.set, hk, hv, if_true, if_false]
        rw [Tab.get]
        simp only [Ne.symm hj, if_false]
        split
        · next hjk =>
          have h3 : k' ≠ j := by omega
          have h4 : j < k' := by omega
          simp [Tab.get, h3, h4]
        · rfl
    · by_cases he : k' = k
      · subst he
        by_cases hv : v = d
        · simp only [Tab.set, lt_irrefl, hv, if_true, if_false]
          rw [Tab.get]
          simp only [Ne.symm hj, if_false]
          split
          · next hjk => exact Tab.get_of_lt (fun e he => lt_trans hjk (h1 e he))
          · rfl
        · simp only [Tab.set, lt_irrefl, hv, if_true, if_false, Tab.get, Ne.symm hj]
      · simp only [Tab.set, hk, he, if_false, Tab.get]
        rw [Tab.get_set_other h2 hj]

/-- A sublist of a sorted table is sorted. -/
theorem Tab.sorted_filter {t : Tab α} {p : Nat × α → Bool} (h : Tab.sorted t = true) : Tab.sorted (t.filter p : Tab α) = true := by
  simp only [Tab.sorted, decide_eq_true_eq] at h ⊢
  exact h.filter p

theorem Tab.sorted_clear {t : Tab α} {a n : Nat} (h : Tab.sorted t = true) : Tab.sorted (Tab.clear t a n) = true := Tab.sorted_filter h

/-- What a key reads in a filtered table: its value where its entry is kept. -/
theorem Tab.get_filter {d : α} {p : Nat → Bool} : ∀ {t : Tab α} {k : Nat}, Tab.sorted t = true →
    Tab.get d (t.filter (fun e => p e.1) : Tab α) k = if p k then Tab.get d t k else d
  | [], k, _ => by simp [Tab.get]
  | (k', v) :: r, k, h => by
    obtain ⟨h1, h2⟩ := Tab.sorted_cons.1 h
    have ih := Tab.get_filter (d := d) (p := p) (k := k) h2
    by_cases he : k' = k
    · subst he
      by_cases hp : p k' = true
      · simp [List.filter, hp, Tab.get]
      · simp only [List.filter, hp, Bool.false_eq_true, if_false]
        exact Tab.get_of_lt (fun e hm => h1 e (List.mem_of_mem_filter hm))
    · by_cases hk : k < k'
      · have hr : Tab.get d (((k', v) :: r).filter (fun e => p e.1) : Tab α) k = d :=
          Tab.get_of_lt (fun e hm => by
            rcases List.mem_cons.1 (List.mem_of_mem_filter hm) with hm | hm
            · subst hm; exact hk
            · exact lt_trans hk (h1 e hm))
        rw [hr]
        simp [Tab.get, he, hk]
      · by_cases hp : p k' = true
        · simp only [List.filter, hp, Tab.get, he, hk, if_false]
          exact ih
        · simp only [List.filter, hp, Tab.get, he, hk, if_false]
          exact ih

/-- Cleared keys read as the default, the others as before. -/
theorem Tab.get_clear {d : α} {t : Tab α} {a n k : Nat} (h : Tab.sorted t = true) :
    Tab.get d (Tab.clear t a n) k = if k < a ∨ a + n ≤ k then Tab.get d t k else d := by
  have := Tab.get_filter (d := d) (p := fun x => decide (x < a) || decide (a + n ≤ x)) (k := k) h
  rw [Tab.clear, this]
  by_cases h1 : k < a <;> by_cases h2 : a + n ≤ k <;> simp [h1, h2]

/-! ## The canonical form -/

theorem Tab.wf_iff [DecidableEq α] {d : α} {t : Tab α} : Tab.wf d t = true ↔ Tab.sorted t = true ∧ ∀ e ∈ t, e.2 ≠ d := by
  simp [Tab.wf, Tab.sorted]

theorem Tab.wf_nil [DecidableEq α] {d : α} : Tab.wf d ([] : Tab α) = true := rfl

/-- An update keeps the canonical form. -/
theorem Tab.wf_set [DecidableEq α] {d : α} {t : Tab α} {k : Nat} {v : α} (h : Tab.wf d t = true) : Tab.wf d (Tab.set d t k v) = true := by
  obtain ⟨h1, h2⟩ := Tab.wf_iff.1 h
  refine Tab.wf_iff.2 ⟨Tab.sorted_set h1, fun e he => ?_⟩
  rcases Tab.mem_set he with ⟨he, hv⟩ | he
  · subst he; exact hv
  · exact h2 e he

theorem Tab.wf_clear [DecidableEq α] {d : α} {t : Tab α} {a n : Nat} (h : Tab.wf d t = true) : Tab.wf d (Tab.clear t a n) = true := by
  obtain ⟨h1, h2⟩ := Tab.wf_iff.1 h
  exact Tab.wf_iff.2 ⟨Tab.sorted_clear h1, fun e he => h2 e (List.mem_of_mem_filter he)⟩

/-- Tables in canonical form that read alike are the same table. -/
theorem Tab.ext_of_get [DecidableEq α] {d : α} : ∀ {t u : Tab α}, Tab.wf d t = true → Tab.wf d u = true → (∀ k, Tab.get d t k = Tab.get d u k) → t = u
  | [], [], _, _, _ => rfl
  | [], (k, v) :: r, _, hu, h => by
    have := h k
    simp only [Tab.get, if_true] at this
    exact absurd this.symm ((Tab.wf_iff.1 hu).2 (k, v) (by simp))
  | (k, v) :: r, [], ht, _, h => by
    have := h k
    simp only [Tab.get, if_true] at this
    exact absurd this ((Tab.wf_iff.1 ht).2 (k, v) (by simp))
  | (k, v) :: r, (k', v') :: r', ht, hu, h => by
    obtain ⟨hs, hd⟩ := Tab.wf_iff.1 ht
    obtain ⟨hs', hd'⟩ := Tab.wf_iff.1 hu
    obtain ⟨h1, h2⟩ := Tab.sorted_cons.1 hs
    obtain ⟨h1', h2'⟩ := Tab.sorted_cons.1 hs'
    have hkk : k = k' := by
      rcases lt_trichotomy k k' with hlt | heq | hgt
      · have := h k
        have hne : k' ≠ k := by omega
        simp only [Tab.get, if_true, hne, hlt, if_false] at this
        exact absurd this (hd (k, v) (by simp))
      · exact heq
      · have := h k'
        have hne : k ≠ k' := by omega
        simp only [Tab.get, if_true, hne, hgt, if_false] at this
        exact absurd this.symm (hd' (k', v') (by simp))
    subst hkk
    have hv : v = v' := by have := h k; simpa [Tab.get] using this
    subst hv
    have hr : r = r' := Tab.ext_of_get
      (Tab.wf_iff.2 ⟨h2, fun e he => hd e (List.mem_cons_of_mem _ he)⟩)
      (Tab.wf_iff.2 ⟨h2', fun e he => hd' e (List.mem_cons_of_mem _ he)⟩) (fun j => by
        by_cases hj : k = j
        · subst hj; rw [Tab.get_of_lt h1, Tab.get_of_lt h1']
        · have := h j
          simp only [Tab.get, hj, if_false] at this
          by_cases hl : j < k
          · rw [Tab.get_of_lt (fun e he => lt_trans hl (h1 e he)), Tab.get_of_lt (fun e he => lt_trans hl (h1' e he))]
          · simpa only [hl, if_false] using this)
    rw [hr]

/-! ## Byte memories -/

theorem Memory.sorted_of_wf {m : Mem} (h : Memory.wf m = true) : Tab.sorted m = true := (Tab.wf_iff.1 h).1

/-- One byte written keeps the canonical form. -/
theorem Memory.wf_write {m : Mem} {a : Nat} {b : Byte} (h : Memory.wf m = true) : Memory.wf (Mem.write m a b) = true := Tab.wf_set h

/-- A range written keeps the canonical form. -/
theorem Memory.wf_writeRange : ∀ {bs : List Byte} {m : Mem} {a : Nat}, Memory.wf m = true → Memory.wf (Mem.writeRange m a bs) = true
  | [], _, _, h => h
  | b :: bs, m, a, h => Memory.wf_writeRange (bs := bs) (m := Mem.write m a b) (a := a + 1) (Memory.wf_write h)

theorem Memory.wf_writeNat {m : Mem} {a n v : Nat} (h : Memory.wf m = true) : Memory.wf (Mem.writeNat m a n v) = true := Memory.wf_writeRange h

/-- A range set to zero keeps the canonical form. -/
theorem Memory.wf_zero {m : Mem} {a n : Nat} (h : Memory.wf m = true) : Memory.wf (Mem.zero m a n) = true := Tab.wf_clear h

/-- The byte just written reads back. -/
theorem Mem.read_write_self {m : Mem} {a : Nat} {b : Byte} (h : Memory.wf m = true) : Mem.read (Mem.write m a b) a = b :=
  Tab.get_set_self (Memory.sorted_of_wf h)

/-- Another byte reads as before. -/
theorem Mem.read_write_other {m : Mem} {a x : Nat} {b : Byte} (h : Memory.wf m = true) (hx : x ≠ a) : Mem.read (Mem.write m a b) x = Mem.read m x :=
  Tab.get_set_other (Memory.sorted_of_wf h) hx

theorem Memory.wf_nil : Memory.wf [] = true := rfl

/-- Numbers and their bytes: `n` bytes are `n` long. -/
@[simp] theorem leBytes_length : ∀ (n v : Nat), (leBytes n v).length = n
  | 0, _ => rfl
  | n + 1, v => by simp [leBytes, leBytes_length n]

/-- The number of the bytes of a number is that number modulo its width. -/
theorem leNat_leBytes : ∀ (n v : Nat), leNat (leBytes n v) = v % 256 ^ n
  | 0, v => by simp [leBytes, leNat, Nat.mod_one]
  | n + 1, v => by
    have h : (BitVec.ofNat 8 v).toNat = v % 256 := by simp
    rw [leBytes, leNat, leNat_leBytes n, h, pow_succ, Nat.mul_comm (256 ^ n) 256, Nat.mod_mul]

/-- A range reads as many bytes as it has. -/
@[simp] theorem Mem.readRange_length (m : Mem) (a n : Nat) : (Mem.readRange m a n).length = n := by simp [Mem.readRange]

end Sys2Proof.Machine
end

