-- ==== Sys2Proof/Laws/State.lean ====
section
/-! SUPPORT. What each update of the state leaves as it was: one lemma for each field and update; and the fields and the canonical form after the updates that
every meaning is built of. -/

namespace Sys2Proof.Machine

/-! ## `setFld` -/

@[simp] theorem State.setFld_pending (s : State) (f : Field) (i v : Nat) : (s.setFld f i v).pending = s.pending := rfl
@[simp] theorem State.setFld_waiting (s : State) (f : Field) (i v : Nat) : (s.setFld f i v).waiting = s.waiting := rfl
@[simp] theorem State.setFld_tally (s : State) (f : Field) (i v : Nat) : (s.setFld f i v).tally = s.tally := rfl
@[simp] theorem State.setFld_tallyStepped (s : State) (f : Field) (i v : Nat) : (s.setFld f i v).tallyStepped = s.tallyStepped := rfl
@[simp] theorem State.setFld_draws (s : State) (f : Field) (i v : Nat) : (s.setFld f i v).draws = s.draws := rfl
@[simp] theorem State.setFld_tiles (s : State) (f : Field) (i v : Nat) : (s.setFld f i v).tiles = s.tiles := rfl
@[simp] theorem State.setFld_modeDue (s : State) (f : Field) (i v : Nat) : (s.setFld f i v).modeDue = s.modeDue := rfl
@[simp] theorem State.setFld_mem (s : State) (f : Field) (i v : Nat) : (s.setFld f i v).mem = s.mem := rfl
@[simp] theorem State.setFld_memPoison (s : State) (f : Field) (i v : Nat) : (s.setFld f i v).memPoison = s.memPoison := rfl
@[simp] theorem State.setFld_memDamage (s : State) (f : Field) (i v : Nat) : (s.setFld f i v).memDamage = s.memDamage := rfl
@[simp] theorem State.setFld_chans (s : State) (f : Field) (i v : Nat) : (s.setFld f i v).chans = s.chans := rfl
@[simp] theorem State.setFld_host (s : State) (f : Field) (i v : Nat) : (s.setFld f i v).host = s.host := rfl
@[simp] theorem State.setFld_hostPoison (s : State) (f : Field) (i v : Nat) : (s.setFld f i v).hostPoison = s.hostPoison := rfl
@[simp] theorem State.setFld_boards (s : State) (f : Field) (i v : Nat) : (s.setFld f i v).boards = s.boards := rfl
@[simp] theorem State.setFld_pools (s : State) (f : Field) (i v : Nat) : (s.setFld f i v).pools = s.pools := rfl
@[simp] theorem State.setFld_items (s : State) (f : Field) (i v : Nat) : (s.setFld f i v).items = s.items := rfl
@[simp] theorem State.setFld_nextItem (s : State) (f : Field) (i v : Nat) : (s.setFld f i v).nextItem = s.nextItem := rfl
@[simp] theorem State.setFld_order4 (s : State) (f : Field) (i v : Nat) : (s.setFld f i v).order4 = s.order4 := rfl
@[simp] theorem State.setFld_links (s : State) (f : Field) (i v : Nat) : (s.setFld f i v).links = s.links := rfl
@[simp] theorem State.setFld_mgmtLeft (s : State) (f : Field) (i v : Nat) : (s.setFld f i v).mgmtLeft = s.mgmtLeft := rfl
@[simp] theorem State.setFld_pseqs (s : State) (f : Field) (i v : Nat) : (s.setFld f i v).pseqs = s.pseqs := rfl
@[simp] theorem State.setFld_deliveredSeqs (s : State) (f : Field) (i v : Nat) : (s.setFld f i v).deliveredSeqs = s.deliveredSeqs := rfl
@[simp] theorem State.setFld_inbound (s : State) (f : Field) (i v : Nat) : (s.setFld f i v).inbound = s.inbound := rfl
@[simp] theorem State.setFld_transfers (s : State) (f : Field) (i v : Nat) : (s.setFld f i v).transfers = s.transfers := rfl
@[simp] theorem State.setFld_nextTransfer (s : State) (f : Field) (i v : Nat) : (s.setFld f i v).nextTransfer = s.nextTransfer := rfl
@[simp] theorem State.setFld_landings (s : State) (f : Field) (i v : Nat) : (s.setFld f i v).landings = s.landings := rfl
@[simp] theorem State.setFld_arriving (s : State) (f : Field) (i v : Nat) : (s.setFld f i v).arriving = s.arriving := rfl
@[simp] theorem State.setFld_abortedKeys (s : State) (f : Field) (i v : Nat) : (s.setFld f i v).abortedKeys = s.abortedKeys := rfl
@[simp] theorem State.setFld_windows (s : State) (f : Field) (i v : Nat) : (s.setFld f i v).windows = s.windows := rfl
@[simp] theorem State.setFld_windowIns (s : State) (f : Field) (i v : Nat) : (s.setFld f i v).windowIns = s.windowIns := rfl
@[simp] theorem State.setFld_peerRefs (s : State) (f : Field) (i v : Nat) : (s.setFld f i v).peerRefs = s.peerRefs := rfl
@[simp] theorem State.setFld_tables (s : State) (f : Field) (i v : Nat) : (s.setFld f i v).tables = s.tables := rfl
@[simp] theorem State.setFld_inboxes (s : State) (f : Field) (i v : Nat) : (s.setFld f i v).inboxes = s.inboxes := rfl
@[simp] theorem State.setFld_grants (s : State) (f : Field) (i v : Nat) : (s.setFld f i v).grants = s.grants := rfl
@[simp] theorem State.setFld_narrowing (s : State) (f : Field) (i v : Nat) : (s.setFld f i v).narrowing = s.narrowing := rfl
@[simp] theorem State.setFld_fenceItems (s : State) (f : Field) (i v : Nat) : (s.setFld f i v).fenceItems = s.fenceItems := rfl
@[simp] theorem State.setFld_fns (s : State) (f : Field) (i v : Nat) : (s.setFld f i v).fns = s.fns := rfl
@[simp] theorem State.setFld_audit (s : State) (f : Field) (i v : Nat) : (s.setFld f i v).audit = s.audit := rfl
@[simp] theorem State.setFld_carries (s : State) (f : Field) (i v : Nat) : (s.setFld f i v).carries = s.carries := rfl
@[simp] theorem State.setFld_repairs (s : State) (f : Field) (i v : Nat) : (s.setFld f i v).repairs = s.repairs := rfl
@[simp] theorem State.setFld_assay (s : State) (f : Field) (i v : Nat) : (s.setFld f i v).assay = s.assay := rfl
@[simp] theorem State.setFld_power (s : State) (f : Field) (i v : Nat) : (s.setFld f i v).power = s.power := rfl
@[simp] theorem State.setFld_sec (s : State) (f : Field) (i v : Nat) : (s.setFld f i v).sec = s.sec := rfl
@[simp] theorem State.setFld_pins (s : State) (f : Field) (i v : Nat) : (s.setFld f i v).pins = s.pins := rfl
@[simp] theorem State.setFld_outs (s : State) (f : Field) (i v : Nat) : (s.setFld f i v).outs = s.outs := rfl

/-! ## `setFlag` -/

@[simp] theorem State.setFlag_pending (s : State) (f : Field) (i : Nat) (b : Bool) : (s.setFlag f i b).pending = s.pending := rfl
@[simp] theorem State.setFlag_waiting (s : State) (f : Field) (i : Nat) (b : Bool) : (s.setFlag f i b).waiting = s.waiting := rfl
@[simp] theorem State.setFlag_tally (s : State) (f : Field) (i : Nat) (b : Bool) : (s.setFlag f i b).tally = s.tally := rfl
@[simp] theorem State.setFlag_tallyStepped (s : State) (f : Field) (i : Nat) (b : Bool) : (s.setFlag f i b).tallyStepped = s.tallyStepped := rfl
@[simp] theorem State.setFlag_draws (s : State) (f : Field) (i : Nat) (b : Bool) : (s.setFlag f i b).draws = s.draws := rfl
@[simp] theorem State.setFlag_tiles (s : State) (f : Field) (i : Nat) (b : Bool) : (s.setFlag f i b).tiles = s.tiles := rfl
@[simp] theorem State.setFlag_modeDue (s : State) (f : Field) (i : Nat) (b : Bool) : (s.setFlag f i b).modeDue = s.modeDue := rfl
@[simp] theorem State.setFlag_mem (s : State) (f : Field) (i : Nat) (b : Bool) : (s.setFlag f i b).mem = s.mem := rfl
@[simp] theorem State.setFlag_memPoison (s : State) (f : Field) (i : Nat) (b : Bool) : (s.setFlag f i b).memPoison = s.memPoison := rfl
@[simp] theorem State.setFlag_memDamage (s : State) (f : Field) (i : Nat) (b : Bool) : (s.setFlag f i b).memDamage = s.memDamage := rfl
@[simp] theorem State.setFlag_chans (s : State) (f : Field) (i : Nat) (b : Bool) : (s.setFlag f i b).chans = s.chans := rfl
@[simp] theorem State.setFlag_host (s : State) (f : Field) (i : Nat) (b : Bool) : (s.setFlag f i b).host = s.host := rfl
@[simp] theorem State.setFlag_hostPoison (s : State) (f : Field) (i : Nat) (b : Bool) : (s.setFlag f i b).hostPoison = s.hostPoison := rfl
@[simp] theorem State.setFlag_boards (s : State) (f : Field) (i : Nat) (b : Bool) : (s.setFlag f i b).boards = s.boards := rfl
@[simp] theorem State.setFlag_pools (s : State) (f : Field) (i : Nat) (b : Bool) : (s.setFlag f i b).pools = s.pools := rfl
@[simp] theorem State.setFlag_items (s : State) (f : Field) (i : Nat) (b : Bool) : (s.setFlag f i b).items = s.items := rfl
@[simp] theorem State.setFlag_nextItem (s : State) (f : Field) (i : Nat) (b : Bool) : (s.setFlag f i b).nextItem = s.nextItem := rfl
@[simp] theorem State.setFlag_order4 (s : State) (f : Field) (i : Nat) (b : Bool) : (s.setFlag f i b).order4 = s.order4 := rfl
@[simp] theorem State.setFlag_links (s : State) (f : Field) (i : Nat) (b : Bool) : (s.setFlag f i b).links = s.links := rfl
@[simp] theorem State.setFlag_mgmtLeft (s : State) (f : Field) (i : Nat) (b : Bool) : (s.setFlag f i b).mgmtLeft = s.mgmtLeft := rfl
@[simp] theorem State.setFlag_pseqs (s : State) (f : Field) (i : Nat) (b : Bool) : (s.setFlag f i b).pseqs = s.pseqs := rfl
@[simp] theorem State.setFlag_deliveredSeqs (s : State) (f : Field) (i : Nat) (b : Bool) : (s.setFlag f i b).deliveredSeqs = s.deliveredSeqs := rfl
@[simp] theorem State.setFlag_inbound (s : State) (f : Field) (i : Nat) (b : Bool) : (s.setFlag f i b).inbound = s.inbound := rfl
@[simp] theorem State.setFlag_transfers (s : State) (f : Field) (i : Nat) (b : Bool) : (s.setFlag f i b).transfers = s.transfers := rfl
@[simp] theorem State.setFlag_nextTransfer (s : State) (f : Field) (i : Nat) (b : Bool) : (s.setFlag f i b).nextTransfer = s.nextTransfer := rfl
@[simp] theorem State.setFlag_landings (s : State) (f : Field) (i : Nat) (b : Bool) : (s.setFlag f i b).landings = s.landings := rfl
@[simp] theorem State.setFlag_arriving (s : State) (f : Field) (i : Nat) (b : Bool) : (s.setFlag f i b).arriving = s.arriving := rfl
@[simp] theorem State.setFlag_abortedKeys (s : State) (f : Field) (i : Nat) (b : Bool) : (s.setFlag f i b).abortedKeys = s.abortedKeys := rfl
@[simp] theorem State.setFlag_windows (s : State) (f : Field) (i : Nat) (b : Bool) : (s.setFlag f i b).windows = s.windows := rfl
@[simp] theorem State.setFlag_windowIns (s : State) (f : Field) (i : Nat) (b : Bool) : (s.setFlag f i b).windowIns = s.windowIns := rfl
@[simp] theorem State.setFlag_peerRefs (s : State) (f : Field) (i : Nat) (b : Bool) : (s.setFlag f i b).peerRefs = s.peerRefs := rfl
@[simp] theorem State.setFlag_tables (s : State) (f : Field) (i : Nat) (b : Bool) : (s.setFlag f i b).tables = s.tables := rfl
@[simp] theorem State.setFlag_inboxes (s : State) (f : Field) (i : Nat) (b : Bool) : (s.setFlag f i b).inboxes = s.inboxes := rfl
@[simp] theorem State.setFlag_grants (s : State) (f : Field) (i : Nat) (b : Bool) : (s.setFlag f i b).grants = s.grants := rfl
@[simp] theorem State.setFlag_narrowing (s : State) (f : Field) (i : Nat) (b : Bool) : (s.setFlag f i b).narrowing = s.narrowing := rfl
@[simp] theorem State.setFlag_fenceItems (s : State) (f : Field) (i : Nat) (b : Bool) : (s.setFlag f i b).fenceItems = s.fenceItems := rfl
@[simp] theorem State.setFlag_fns (s : State) (f : Field) (i : Nat) (b : Bool) : (s.setFlag f i b).fns = s.fns := rfl
@[simp] theorem State.setFlag_audit (s : State) (f : Field) (i : Nat) (b : Bool) : (s.setFlag f i b).audit = s.audit := rfl
@[simp] theorem State.setFlag_carries (s : State) (f : Field) (i : Nat) (b : Bool) : (s.setFlag f i b).carries = s.carries := rfl
@[simp] theorem State.setFlag_repairs (s : State) (f : Field) (i : Nat) (b : Bool) : (s.setFlag f i b).repairs = s.repairs := rfl
@[simp] theorem State.setFlag_assay (s : State) (f : Field) (i : Nat) (b : Bool) : (s.setFlag f i b).assay = s.assay := rfl
@[simp] theorem State.setFlag_power (s : State) (f : Field) (i : Nat) (b : Bool) : (s.setFlag f i b).power = s.power := rfl
@[simp] theorem State.setFlag_sec (s : State) (f : Field) (i : Nat) (b : Bool) : (s.setFlag f i b).sec = s.sec := rfl
@[simp] theorem State.setFlag_pins (s : State) (f : Field) (i : Nat) (b : Bool) : (s.setFlag f i b).pins = s.pins := rfl
@[simp] theorem State.setFlag_outs (s : State) (f : Field) (i : Nat) (b : Bool) : (s.setFlag f i b).outs = s.outs := rfl

/-! ## `addFld` -/

@[simp] theorem State.addFld_pending (s : State) (f : Field) (i n : Nat) : (s.addFld f i n).pending = s.pending := rfl
@[simp] theorem State.addFld_waiting (s : State) (f : Field) (i n : Nat) : (s.addFld f i n).waiting = s.waiting := rfl
@[simp] theorem State.addFld_tally (s : State) (f : Field) (i n : Nat) : (s.addFld f i n).tally = s.tally := rfl
@[simp] theorem State.addFld_tallyStepped (s : State) (f : Field) (i n : Nat) : (s.addFld f i n).tallyStepped = s.tallyStepped := rfl
@[simp] theorem State.addFld_draws (s : State) (f : Field) (i n : Nat) : (s.addFld f i n).draws = s.draws := rfl
@[simp] theorem State.addFld_tiles (s : State) (f : Field) (i n : Nat) : (s.addFld f i n).tiles = s.tiles := rfl
@[simp] theorem State.addFld_modeDue (s : State) (f : Field) (i n : Nat) : (s.addFld f i n).modeDue = s.modeDue := rfl
@[simp] theorem State.addFld_mem (s : State) (f : Field) (i n : Nat) : (s.addFld f i n).mem = s.mem := rfl
@[simp] theorem State.addFld_memPoison (s : State) (f : Field) (i n : Nat) : (s.addFld f i n).memPoison = s.memPoison := rfl
@[simp] theorem State.addFld_memDamage (s : State) (f : Field) (i n : Nat) : (s.addFld f i n).memDamage = s.memDamage := rfl
@[simp] theorem State.addFld_chans (s : State) (f : Field) (i n : Nat) : (s.addFld f i n).chans = s.chans := rfl
@[simp] theorem State.addFld_host (s : State) (f : Field) (i n : Nat) : (s.addFld f i n).host = s.host := rfl
@[simp] theorem State.addFld_hostPoison (s : State) (f : Field) (i n : Nat) : (s.addFld f i n).hostPoison = s.hostPoison := rfl
@[simp] theorem State.addFld_boards (s : State) (f : Field) (i n : Nat) : (s.addFld f i n).boards = s.boards := rfl
@[simp] theorem State.addFld_pools (s : State) (f : Field) (i n : Nat) : (s.addFld f i n).pools = s.pools := rfl
@[simp] theorem State.addFld_items (s : State) (f : Field) (i n : Nat) : (s.addFld f i n).items = s.items := rfl
@[simp] theorem State.addFld_nextItem (s : State) (f : Field) (i n : Nat) : (s.addFld f i n).nextItem = s.nextItem := rfl
@[simp] theorem State.addFld_order4 (s : State) (f : Field) (i n : Nat) : (s.addFld f i n).order4 = s.order4 := rfl
@[simp] theorem State.addFld_links (s : State) (f : Field) (i n : Nat) : (s.addFld f i n).links = s.links := rfl
@[simp] theorem State.addFld_mgmtLeft (s : State) (f : Field) (i n : Nat) : (s.addFld f i n).mgmtLeft = s.mgmtLeft := rfl
@[simp] theorem State.addFld_pseqs (s : State) (f : Field) (i n : Nat) : (s.addFld f i n).pseqs = s.pseqs := rfl
@[simp] theorem State.addFld_deliveredSeqs (s : State) (f : Field) (i n : Nat) : (s.addFld f i n).deliveredSeqs = s.deliveredSeqs := rfl
@[simp] theorem State.addFld_inbound (s : State) (f : Field) (i n : Nat) : (s.addFld f i n).inbound = s.inbound := rfl
@[simp] theorem State.addFld_transfers (s : State) (f : Field) (i n : Nat) : (s.addFld f i n).transfers = s.transfers := rfl
@[simp] theorem State.addFld_nextTransfer (s : State) (f : Field) (i n : Nat) : (s.addFld f i n).nextTransfer = s.nextTransfer := rfl
@[simp] theorem State.addFld_landings (s : State) (f : Field) (i n : Nat) : (s.addFld f i n).landings = s.landings := rfl
@[simp] theorem State.addFld_arriving (s : State) (f : Field) (i n : Nat) : (s.addFld f i n).arriving = s.arriving := rfl
@[simp] theorem State.addFld_abortedKeys (s : State) (f : Field) (i n : Nat) : (s.addFld f i n).abortedKeys = s.abortedKeys := rfl
@[simp] theorem State.addFld_windows (s : State) (f : Field) (i n : Nat) : (s.addFld f i n).windows = s.windows := rfl
@[simp] theorem State.addFld_windowIns (s : State) (f : Field) (i n : Nat) : (s.addFld f i n).windowIns = s.windowIns := rfl
@[simp] theorem State.addFld_peerRefs (s : State) (f : Field) (i n : Nat) : (s.addFld f i n).peerRefs = s.peerRefs := rfl
@[simp] theorem State.addFld_tables (s : State) (f : Field) (i n : Nat) : (s.addFld f i n).tables = s.tables := rfl
@[simp] theorem State.addFld_inboxes (s : State) (f : Field) (i n : Nat) : (s.addFld f i n).inboxes = s.inboxes := rfl
@[simp] theorem State.addFld_grants (s : State) (f : Field) (i n : Nat) : (s.addFld f i n).grants = s.grants := rfl
@[simp] theorem State.addFld_narrowing (s : State) (f : Field) (i n : Nat) : (s.addFld f i n).narrowing = s.narrowing := rfl
@[simp] theorem State.addFld_fenceItems (s : State) (f : Field) (i n : Nat) : (s.addFld f i n).fenceItems = s.fenceItems := rfl
@[simp] theorem State.addFld_fns (s : State) (f : Field) (i n : Nat) : (s.addFld f i n).fns = s.fns := rfl
@[simp] theorem State.addFld_audit (s : State) (f : Field) (i n : Nat) : (s.addFld f i n).audit = s.audit := rfl
@[simp] theorem State.addFld_carries (s : State) (f : Field) (i n : Nat) : (s.addFld f i n).carries = s.carries := rfl
@[simp] theorem State.addFld_repairs (s : State) (f : Field) (i n : Nat) : (s.addFld f i n).repairs = s.repairs := rfl
@[simp] theorem State.addFld_assay (s : State) (f : Field) (i n : Nat) : (s.addFld f i n).assay = s.assay := rfl
@[simp] theorem State.addFld_power (s : State) (f : Field) (i n : Nat) : (s.addFld f i n).power = s.power := rfl
@[simp] theorem State.addFld_sec (s : State) (f : Field) (i n : Nat) : (s.addFld f i n).sec = s.sec := rfl
@[simp] theorem State.addFld_pins (s : State) (f : Field) (i n : Nat) : (s.addFld f i n).pins = s.pins := rfl
@[simp] theorem State.addFld_outs (s : State) (f : Field) (i n : Nat) : (s.addFld f i n).outs = s.outs := rfl

/-! ## `setTile` -/

@[simp] theorem State.setTile_pending (s : State) (p : Nat) (t : Tile) : (s.setTile p t).pending = s.pending := rfl
@[simp] theorem State.setTile_waiting (s : State) (p : Nat) (t : Tile) : (s.setTile p t).waiting = s.waiting := rfl
@[simp] theorem State.setTile_tally (s : State) (p : Nat) (t : Tile) : (s.setTile p t).tally = s.tally := rfl
@[simp] theorem State.setTile_tallyStepped (s : State) (p : Nat) (t : Tile) : (s.setTile p t).tallyStepped = s.tallyStepped := rfl
@[simp] theorem State.setTile_draws (s : State) (p : Nat) (t : Tile) : (s.setTile p t).draws = s.draws := rfl
@[simp] theorem State.setTile_regs (s : State) (p : Nat) (t : Tile) : (s.setTile p t).regs = s.regs := rfl
@[simp] theorem State.setTile_modeDue (s : State) (p : Nat) (t : Tile) : (s.setTile p t).modeDue = s.modeDue := rfl
@[simp] theorem State.setTile_mem (s : State) (p : Nat) (t : Tile) : (s.setTile p t).mem = s.mem := rfl
@[simp] theorem State.setTile_memPoison (s : State) (p : Nat) (t : Tile) : (s.setTile p t).memPoison = s.memPoison := rfl
@[simp] theorem State.setTile_memDamage (s : State) (p : Nat) (t : Tile) : (s.setTile p t).memDamage = s.memDamage := rfl
@[simp] theorem State.setTile_chans (s : State) (p : Nat) (t : Tile) : (s.setTile p t).chans = s.chans := rfl
@[simp] theorem State.setTile_host (s : State) (p : Nat) (t : Tile) : (s.setTile p t).host = s.host := rfl
@[simp] theorem State.setTile_hostPoison (s : State) (p : Nat) (t : Tile) : (s.setTile p t).hostPoison = s.hostPoison := rfl
@[simp] theorem State.setTile_boards (s : State) (p : Nat) (t : Tile) : (s.setTile p t).boards = s.boards := rfl
@[simp] theorem State.setTile_pools (s : State) (p : Nat) (t : Tile) : (s.setTile p t).pools = s.pools := rfl
@[simp] theorem State.setTile_items (s : State) (p : Nat) (t : Tile) : (s.setTile p t).items = s.items := rfl
@[simp] theorem State.setTile_nextItem (s : State) (p : Nat) (t : Tile) : (s.setTile p t).nextItem = s.nextItem := rfl
@[simp] theorem State.setTile_order4 (s : State) (p : Nat) (t : Tile) : (s.setTile p t).order4 = s.order4 := rfl
@[simp] theorem State.setTile_links (s : State) (p : Nat) (t : Tile) : (s.setTile p t).links = s.links := rfl
@[simp] theorem State.setTile_mgmtLeft (s : State) (p : Nat) (t : Tile) : (s.setTile p t).mgmtLeft = s.mgmtLeft := rfl
@[simp] theorem State.setTile_pseqs (s : State) (p : Nat) (t : Tile) : (s.setTile p t).pseqs = s.pseqs := rfl
@[simp] theorem State.setTile_deliveredSeqs (s : State) (p : Nat) (t : Tile) : (s.setTile p t).deliveredSeqs = s.deliveredSeqs := rfl
@[simp] theorem State.setTile_inbound (s : State) (p : Nat) (t : Tile) : (s.setTile p t).inbound = s.inbound := rfl
@[simp] theorem State.setTile_transfers (s : State) (p : Nat) (t : Tile) : (s.setTile p t).transfers = s.transfers := rfl
@[simp] theorem State.setTile_nextTransfer (s : State) (p : Nat) (t : Tile) : (s.setTile p t).nextTransfer = s.nextTransfer := rfl
@[simp] theorem State.setTile_landings (s : State) (p : Nat) (t : Tile) : (s.setTile p t).landings = s.landings := rfl
@[simp] theorem State.setTile_arriving (s : State) (p : Nat) (t : Tile) : (s.setTile p t).arriving = s.arriving := rfl
@[simp] theorem State.setTile_abortedKeys (s : State) (p : Nat) (t : Tile) : (s.setTile p t).abortedKeys = s.abortedKeys := rfl
@[simp] theorem State.setTile_windows (s : State) (p : Nat) (t : Tile) : (s.setTile p t).windows = s.windows := rfl
@[simp] theorem State.setTile_windowIns (s : State) (p : Nat) (t : Tile) : (s.setTile p t).windowIns = s.windowIns := rfl
@[simp] theorem State.setTile_peerRefs (s : State) (p : Nat) (t : Tile) : (s.setTile p t).peerRefs = s.peerRefs := rfl
@[simp] theorem State.setTile_tables (s : State) (p : Nat) (t : Tile) : (s.setTile p t).tables = s.tables := rfl
@[simp] theorem State.setTile_inboxes (s : State) (p : Nat) (t : Tile) : (s.setTile p t).inboxes = s.inboxes := rfl
@[simp] theorem State.setTile_grants (s : State) (p : Nat) (t : Tile) : (s.setTile p t).grants = s.grants := rfl
@[simp] theorem State.setTile_narrowing (s : State) (p : Nat) (t : Tile) : (s.setTile p t).narrowing = s.narrowing := rfl
@[simp] theorem State.setTile_fenceItems (s : State) (p : Nat) (t : Tile) : (s.setTile p t).fenceItems = s.fenceItems := rfl
@[simp] theorem State.setTile_fns (s : State) (p : Nat) (t : Tile) : (s.setTile p t).fns = s.fns := rfl
@[simp] theorem State.setTile_audit (s : State) (p : Nat) (t : Tile) : (s.setTile p t).audit = s.audit := rfl
@[simp] theorem State.setTile_carries (s : State) (p : Nat) (t : Tile) : (s.setTile p t).carries = s.carries := rfl
@[simp] theorem State.setTile_repairs (s : State) (p : Nat) (t : Tile) : (s.setTile p t).repairs = s.repairs := rfl
@[simp] theorem State.setTile_assay (s : State) (p : Nat) (t : Tile) : (s.setTile p t).assay = s.assay := rfl
@[simp] theorem State.setTile_power (s : State) (p : Nat) (t : Tile) : (s.setTile p t).power = s.power := rfl
@[simp] theorem State.setTile_sec (s : State) (p : Nat) (t : Tile) : (s.setTile p t).sec = s.sec := rfl
@[simp] theorem State.setTile_pins (s : State) (p : Nat) (t : Tile) : (s.setTile p t).pins = s.pins := rfl
@[simp] theorem State.setTile_outs (s : State) (p : Nat) (t : Tile) : (s.setTile p t).outs = s.outs := rfl

/-! ## `setLink` -/

@[simp] theorem State.setLink_pending (s : State) (l : Nat) (k : Link) : (s.setLink l k).pending = s.pending := rfl
@[simp] theorem State.setLink_waiting (s : State) (l : Nat) (k : Link) : (s.setLink l k).waiting = s.waiting := rfl
@[simp] theorem State.setLink_tally (s : State) (l : Nat) (k : Link) : (s.setLink l k).tally = s.tally := rfl
@[simp] theorem State.setLink_tallyStepped (s : State) (l : Nat) (k : Link) : (s.setLink l k).tallyStepped = s.tallyStepped := rfl
@[simp] theorem State.setLink_draws (s : State) (l : Nat) (k : Link) : (s.setLink l k).draws = s.draws := rfl
@[simp] theorem State.setLink_regs (s : State) (l : Nat) (k : Link) : (s.setLink l k).regs = s.regs := rfl
@[simp] theorem State.setLink_tiles (s : State) (l : Nat) (k : Link) : (s.setLink l k).tiles = s.tiles := rfl
@[simp] theorem State.setLink_modeDue (s : State) (l : Nat) (k : Link) : (s.setLink l k).modeDue = s.modeDue := rfl
@[simp] theorem State.setLink_mem (s : State) (l : Nat) (k : Link) : (s.setLink l k).mem = s.mem := rfl
@[simp] theorem State.setLink_memPoison (s : State) (l : Nat) (k : Link) : (s.setLink l k).memPoison = s.memPoison := rfl
@[simp] theorem State.setLink_memDamage (s : State) (l : Nat) (k : Link) : (s.setLink l k).memDamage = s.memDamage := rfl
@[simp] theorem State.setLink_chans (s : State) (l : Nat) (k : Link) : (s.setLink l k).chans = s.chans := rfl
@[simp] theorem State.setLink_host (s : State) (l : Nat) (k : Link) : (s.setLink l k).host = s.host := rfl
@[simp] theorem State.setLink_hostPoison (s : State) (l : Nat) (k : Link) : (s.setLink l k).hostPoison = s.hostPoison := rfl
@[simp] theorem State.setLink_boards (s : State) (l : Nat) (k : Link) : (s.setLink l k).boards = s.boards := rfl
@[simp] theorem State.setLink_pools (s : State) (l : Nat) (k : Link) : (s.setLink l k).pools = s.pools := rfl
@[simp] theorem State.setLink_items (s : State) (l : Nat) (k : Link) : (s.setLink l k).items = s.items := rfl
@[simp] theorem State.setLink_nextItem (s : State) (l : Nat) (k : Link) : (s.setLink l k).nextItem = s.nextItem := rfl
@[simp] theorem State.setLink_order4 (s : State) (l : Nat) (k : Link) : (s.setLink l k).order4 = s.order4 := rfl
@[simp] theorem State.setLink_mgmtLeft (s : State) (l : Nat) (k : Link) : (s.setLink l k).mgmtLeft = s.mgmtLeft := rfl
@[simp] theorem State.setLink_pseqs (s : State) (l : Nat) (k : Link) : (s.setLink l k).pseqs = s.pseqs := rfl
@[simp] theorem State.setLink_deliveredSeqs (s : State) (l : Nat) (k : Link) : (s.setLink l k).deliveredSeqs = s.deliveredSeqs := rfl
@[simp] theorem State.setLink_inbound (s : State) (l : Nat) (k : Link) : (s.setLink l k).inbound = s.inbound := rfl
@[simp] theorem State.setLink_transfers (s : State) (l : Nat) (k : Link) : (s.setLink l k).transfers = s.transfers := rfl
@[simp] theorem State.setLink_nextTransfer (s : State) (l : Nat) (k : Link) : (s.setLink l k).nextTransfer = s.nextTransfer := rfl
@[simp] theorem State.setLink_landings (s : State) (l : Nat) (k : Link) : (s.setLink l k).landings = s.landings := rfl
@[simp] theorem State.setLink_arriving (s : State) (l : Nat) (k : Link) : (s.setLink l k).arriving = s.arriving := rfl
@[simp] theorem State.setLink_abortedKeys (s : State) (l : Nat) (k : Link) : (s.setLink l k).abortedKeys = s.abortedKeys := rfl
@[simp] theorem State.setLink_windows (s : State) (l : Nat) (k : Link) : (s.setLink l k).windows = s.windows := rfl
@[simp] theorem State.setLink_windowIns (s : State) (l : Nat) (k : Link) : (s.setLink l k).windowIns = s.windowIns := rfl
@[simp] theorem State.setLink_peerRefs (s : State) (l : Nat) (k : Link) : (s.setLink l k).peerRefs = s.peerRefs := rfl
@[simp] theorem State.setLink_tables (s : State) (l : Nat) (k : Link) : (s.setLink l k).tables = s.tables := rfl
@[simp] theorem State.setLink_inboxes (s : State) (l : Nat) (k : Link) : (s.setLink l k).inboxes = s.inboxes := rfl
@[simp] theorem State.setLink_grants (s : State) (l : Nat) (k : Link) : (s.setLink l k).grants = s.grants := rfl
@[simp] theorem State.setLink_narrowing (s : State) (l : Nat) (k : Link) : (s.setLink l k).narrowing = s.narrowing := rfl
@[simp] theorem State.setLink_fenceItems (s : State) (l : Nat) (k : Link) : (s.setLink l k).fenceItems = s.fenceItems := rfl
@[simp] theorem State.setLink_fns (s : State) (l : Nat) (k : Link) : (s.setLink l k).fns = s.fns := rfl
@[simp] theorem State.setLink_audit (s : State) (l : Nat) (k : Link) : (s.setLink l k).audit = s.audit := rfl
@[simp] theorem State.setLink_carries (s : State) (l : Nat) (k : Link) : (s.setLink l k).carries = s.carries := rfl
@[simp] theorem State.setLink_repairs (s : State) (l : Nat) (k : Link) : (s.setLink l k).repairs = s.repairs := rfl
@[simp] theorem State.setLink_assay (s : State) (l : Nat) (k : Link) : (s.setLink l k).assay = s.assay := rfl
@[simp] theorem State.setLink_power (s : State) (l : Nat) (k : Link) : (s.setLink l k).power = s.power := rfl
@[simp] theorem State.setLink_sec (s : State) (l : Nat) (k : Link) : (s.setLink l k).sec = s.sec := rfl
@[simp] theorem State.setLink_pins (s : State) (l : Nat) (k : Link) : (s.setLink l k).pins = s.pins := rfl
@[simp] theorem State.setLink_outs (s : State) (l : Nat) (k : Link) : (s.setLink l k).outs = s.outs := rfl

/-! ## `setGrant` -/

@[simp] theorem State.setGrant_pending (s : State) (t : Nat) (g : Grant) : (s.setGrant t g).pending = s.pending := rfl
@[simp] theorem State.setGrant_waiting (s : State) (t : Nat) (g : Grant) : (s.setGrant t g).waiting = s.waiting := rfl
@[simp] theorem State.setGrant_tally (s : State) (t : Nat) (g : Grant) : (s.setGrant t g).tally = s.tally := rfl
@[simp] theorem State.setGrant_tallyStepped (s : State) (t : Nat) (g : Grant) : (s.setGrant t g).tallyStepped = s.tallyStepped := rfl
@[simp] theorem State.setGrant_draws (s : State) (t : Nat) (g : Grant) : (s.setGrant t g).draws = s.draws := rfl
@[simp] theorem State.setGrant_regs (s : State) (t : Nat) (g : Grant) : (s.setGrant t g).regs = s.regs := rfl
@[simp] theorem State.setGrant_tiles (s : State) (t : Nat) (g : Grant) : (s.setGrant t g).tiles = s.tiles := rfl
@[simp] theorem State.setGrant_modeDue (s : State) (t : Nat) (g : Grant) : (s.setGrant t g).modeDue = s.modeDue := rfl
@[simp] theorem State.setGrant_mem (s : State) (t : Nat) (g : Grant) : (s.setGrant t g).mem = s.mem := rfl
@[simp] theorem State.setGrant_memPoison (s : State) (t : Nat) (g : Grant) : (s.setGrant t g).memPoison = s.memPoison := rfl
@[simp] theorem State.setGrant_memDamage (s : State) (t : Nat) (g : Grant) : (s.setGrant t g).memDamage = s.memDamage := rfl
@[simp] theorem State.setGrant_chans (s : State) (t : Nat) (g : Grant) : (s.setGrant t g).chans = s.chans := rfl
@[simp] theorem State.setGrant_host (s : State) (t : Nat) (g : Grant) : (s.setGrant t g).host = s.host := rfl
@[simp] theorem State.setGrant_hostPoison (s : State) (t : Nat) (g : Grant) : (s.setGrant t g).hostPoison = s.hostPoison := rfl
@[simp] theorem State.setGrant_boards (s : State) (t : Nat) (g : Grant) : (s.setGrant t g).boards = s.boards := rfl
@[simp] theorem State.setGrant_pools (s : State) (t : Nat) (g : Grant) : (s.setGrant t g).pools = s.pools := rfl
@[simp] theorem State.setGrant_items (s : State) (t : Nat) (g : Grant) : (s.setGrant t g).items = s.items := rfl
@[simp] theorem State.setGrant_nextItem (s : State) (t : Nat) (g : Grant) : (s.setGrant t g).nextItem = s.nextItem := rfl
@[simp] theorem State.setGrant_order4 (s : State) (t : Nat) (g : Grant) : (s.setGrant t g).order4 = s.order4 := rfl
@[simp] theorem State.setGrant_links (s : State) (t : Nat) (g : Grant) : (s.setGrant t g).links = s.links := rfl
@[simp] theorem State.setGrant_mgmtLeft (s : State) (t : Nat) (g : Grant) : (s.setGrant t g).mgmtLeft = s.mgmtLeft := rfl
@[simp] theorem State.setGrant_pseqs (s : State) (t : Nat) (g : Grant) : (s.setGrant t g).pseqs = s.pseqs := rfl
@[simp] theorem State.setGrant_deliveredSeqs (s : State) (t : Nat) (g : Grant) : (s.setGrant t g).deliveredSeqs = s.deliveredSeqs := rfl
@[simp] theorem State.setGrant_inbound (s : State) (t : Nat) (g : Grant) : (s.setGrant t g).inbound = s.inbound := rfl
@[simp] theorem State.setGrant_transfers (s : State) (t : Nat) (g : Grant) : (s.setGrant t g).transfers = s.transfers := rfl
@[simp] theorem State.setGrant_nextTransfer (s : State) (t : Nat) (g : Grant) : (s.setGrant t g).nextTransfer = s.nextTransfer := rfl
@[simp] theorem State.setGrant_landings (s : State) (t : Nat) (g : Grant) : (s.setGrant t g).landings = s.landings := rfl
@[simp] theorem State.setGrant_arriving (s : State) (t : Nat) (g : Grant) : (s.setGrant t g).arriving = s.arriving := rfl
@[simp] theorem State.setGrant_abortedKeys (s : State) (t : Nat) (g : Grant) : (s.setGrant t g).abortedKeys = s.abortedKeys := rfl
@[simp] theorem State.setGrant_windows (s : State) (t : Nat) (g : Grant) : (s.setGrant t g).windows = s.windows := rfl
@[simp] theorem State.setGrant_windowIns (s : State) (t : Nat) (g : Grant) : (s.setGrant t g).windowIns = s.windowIns := rfl
@[simp] theorem State.setGrant_peerRefs (s : State) (t : Nat) (g : Grant) : (s.setGrant t g).peerRefs = s.peerRefs := rfl
@[simp] theorem State.setGrant_tables (s : State) (t : Nat) (g : Grant) : (s.setGrant t g).tables = s.tables := rfl
@[simp] theorem State.setGrant_inboxes (s : State) (t : Nat) (g : Grant) : (s.setGrant t g).inboxes = s.inboxes := rfl
@[simp] theorem State.setGrant_narrowing (s : State) (t : Nat) (g : Grant) : (s.setGrant t g).narrowing = s.narrowing := rfl
@[simp] theorem State.setGrant_fenceItems (s : State) (t : Nat) (g : Grant) : (s.setGrant t g).fenceItems = s.fenceItems := rfl
@[simp] theorem State.setGrant_fns (s : State) (t : Nat) (g : Grant) : (s.setGrant t g).fns = s.fns := rfl
@[simp] theorem State.setGrant_audit (s : State) (t : Nat) (g : Grant) : (s.setGrant t g).audit = s.audit := rfl
@[simp] theorem State.setGrant_carries (s : State) (t : Nat) (g : Grant) : (s.setGrant t g).carries = s.carries := rfl
@[simp] theorem State.setGrant_repairs (s : State) (t : Nat) (g : Grant) : (s.setGrant t g).repairs = s.repairs := rfl
@[simp] theorem State.setGrant_assay (s : State) (t : Nat) (g : Grant) : (s.setGrant t g).assay = s.assay := rfl
@[simp] theorem State.setGrant_power (s : State) (t : Nat) (g : Grant) : (s.setGrant t g).power = s.power := rfl
@[simp] theorem State.setGrant_sec (s : State) (t : Nat) (g : Grant) : (s.setGrant t g).sec = s.sec := rfl
@[simp] theorem State.setGrant_pins (s : State) (t : Nat) (g : Grant) : (s.setGrant t g).pins = s.pins := rfl
@[simp] theorem State.setGrant_outs (s : State) (t : Nat) (g : Grant) : (s.setGrant t g).outs = s.outs := rfl

/-! ## `setBoard` -/

@[simp] theorem State.setBoard_pending (s : State) (tenant handle : Nat) (b : Option Board) : (s.setBoard tenant handle b).pending = s.pending := rfl
@[simp] theorem State.setBoard_waiting (s : State) (tenant handle : Nat) (b : Option Board) : (s.setBoard tenant handle b).waiting = s.waiting := rfl
@[simp] theorem State.setBoard_tally (s : State) (tenant handle : Nat) (b : Option Board) : (s.setBoard tenant handle b).tally = s.tally := rfl
@[simp] theorem State.setBoard_tallyStepped (s : State) (tenant handle : Nat) (b : Option Board) : (s.setBoard tenant handle b).tallyStepped = s.tallyStepped := rfl
@[simp] theorem State.setBoard_draws (s : State) (tenant handle : Nat) (b : Option Board) : (s.setBoard tenant handle b).draws = s.draws := rfl
@[simp] theorem State.setBoard_regs (s : State) (tenant handle : Nat) (b : Option Board) : (s.setBoard tenant handle b).regs = s.regs := rfl
@[simp] theorem State.setBoard_tiles (s : State) (tenant handle : Nat) (b : Option Board) : (s.setBoard tenant handle b).tiles = s.tiles := rfl
@[simp] theorem State.setBoard_modeDue (s : State) (tenant handle : Nat) (b : Option Board) : (s.setBoard tenant handle b).modeDue = s.modeDue := rfl
@[simp] theorem State.setBoard_mem (s : State) (tenant handle : Nat) (b : Option Board) : (s.setBoard tenant handle b).mem = s.mem := rfl
@[simp] theorem State.setBoard_memPoison (s : State) (tenant handle : Nat) (b : Option Board) : (s.setBoard tenant handle b).memPoison = s.memPoison := rfl
@[simp] theorem State.setBoard_memDamage (s : State) (tenant handle : Nat) (b : Option Board) : (s.setBoard tenant handle b).memDamage = s.memDamage := rfl
@[simp] theorem State.setBoard_chans (s : State) (tenant handle : Nat) (b : Option Board) : (s.setBoard tenant handle b).chans = s.chans := rfl
@[simp] theorem State.setBoard_host (s : State) (tenant handle : Nat) (b : Option Board) : (s.setBoard tenant handle b).host = s.host := rfl
@[simp] theorem State.setBoard_hostPoison (s : State) (tenant handle : Nat) (b : Option Board) : (s.setBoard tenant handle b).hostPoison = s.hostPoison := rfl
@[simp] theorem State.setBoard_pools (s : State) (tenant handle : Nat) (b : Option Board) : (s.setBoard tenant handle b).pools = s.pools := rfl
@[simp] theorem State.setBoard_items (s : State) (tenant handle : Nat) (b : Option Board) : (s.setBoard tenant handle b).items = s.items := rfl
@[simp] theorem State.setBoard_nextItem (s : State) (tenant handle : Nat) (b : Option Board) : (s.setBoard tenant handle b).nextItem = s.nextItem := rfl
@[simp] theorem State.setBoard_order4 (s : State) (tenant handle : Nat) (b : Option Board) : (s.setBoard tenant handle b).order4 = s.order4 := rfl
@[simp] theorem State.setBoard_links (s : State) (tenant handle : Nat) (b : Option Board) : (s.setBoard tenant handle b).links = s.links := rfl
@[simp] theorem State.setBoard_mgmtLeft (s : State) (tenant handle : Nat) (b : Option Board) : (s.setBoard tenant handle b).mgmtLeft = s.mgmtLeft := rfl
@[simp] theorem State.setBoard_pseqs (s : State) (tenant handle : Nat) (b : Option Board) : (s.setBoard tenant handle b).pseqs = s.pseqs := rfl
@[simp] theorem State.setBoard_deliveredSeqs (s : State) (tenant handle : Nat) (b : Option Board) : (s.setBoard tenant handle b).deliveredSeqs = s.deliveredSeqs := rfl
@[simp] theorem State.setBoard_inbound (s : State) (tenant handle : Nat) (b : Option Board) : (s.setBoard tenant handle b).inbound = s.inbound := rfl
@[simp] theorem State.setBoard_transfers (s : State) (tenant handle : Nat) (b : Option Board) : (s.setBoard tenant handle b).transfers = s.transfers := rfl
@[simp] theorem State.setBoard_nextTransfer (s : State) (tenant handle : Nat) (b : Option Board) : (s.setBoard tenant handle b).nextTransfer = s.nextTransfer := rfl
@[simp] theorem State.setBoard_landings (s : State) (tenant handle : Nat) (b : Option Board) : (s.setBoard tenant handle b).landings = s.landings := rfl
@[simp] theorem State.setBoard_arriving (s : State) (tenant handle : Nat) (b : Option Board) : (s.setBoard tenant handle b).arriving = s.arriving := rfl
@[simp] theorem State.setBoard_abortedKeys (s : State) (tenant handle : Nat) (b : Option Board) : (s.setBoard tenant handle b).abortedKeys = s.abortedKeys := rfl
@[simp] theorem State.setBoard_windows (s : State) (tenant handle : Nat) (b : Option Board) : (s.setBoard tenant handle b).windows = s.windows := rfl
@[simp] theorem State.setBoard_windowIns (s : State) (tenant handle : Nat) (b : Option Board) : (s.setBoard tenant handle b).windowIns = s.windowIns := rfl
@[simp] theorem State.setBoard_peerRefs (s : State) (tenant handle : Nat) (b : Option Board) : (s.setBoard tenant handle b).peerRefs = s.peerRefs := rfl
@[simp] theorem State.setBoard_tables (s : State) (tenant handle : Nat) (b : Option Board) : (s.setBoard tenant handle b).tables = s.tables := rfl
@[simp] theorem State.setBoard_inboxes (s : State) (tenant handle : Nat) (b : Option Board) : (s.setBoard tenant handle b).inboxes = s.inboxes := rfl
@[simp] theorem State.setBoard_grants (s : State) (tenant handle : Nat) (b : Option Board) : (s.setBoard tenant handle b).grants = s.grants := rfl
@[simp] theorem State.setBoard_narrowing (s : State) (tenant handle : Nat) (b : Option Board) : (s.setBoard tenant handle b).narrowing = s.narrowing := rfl
@[simp] theorem State.setBoard_fenceItems (s : State) (tenant handle : Nat) (b : Option Board) : (s.setBoard tenant handle b).fenceItems = s.fenceItems := rfl
@[simp] theorem State.setBoard_fns (s : State) (tenant handle : Nat) (b : Option Board) : (s.setBoard tenant handle b).fns = s.fns := rfl
@[simp] theorem State.setBoard_audit (s : State) (tenant handle : Nat) (b : Option Board) : (s.setBoard tenant handle b).audit = s.audit := rfl
@[simp] theorem State.setBoard_carries (s : State) (tenant handle : Nat) (b : Option Board) : (s.setBoard tenant handle b).carries = s.carries := rfl
@[simp] theorem State.setBoard_repairs (s : State) (tenant handle : Nat) (b : Option Board) : (s.setBoard tenant handle b).repairs = s.repairs := rfl
@[simp] theorem State.setBoard_assay (s : State) (tenant handle : Nat) (b : Option Board) : (s.setBoard tenant handle b).assay = s.assay := rfl
@[simp] theorem State.setBoard_power (s : State) (tenant handle : Nat) (b : Option Board) : (s.setBoard tenant handle b).power = s.power := rfl
@[simp] theorem State.setBoard_sec (s : State) (tenant handle : Nat) (b : Option Board) : (s.setBoard tenant handle b).sec = s.sec := rfl
@[simp] theorem State.setBoard_pins (s : State) (tenant handle : Nat) (b : Option Board) : (s.setBoard tenant handle b).pins = s.pins := rfl
@[simp] theorem State.setBoard_outs (s : State) (tenant handle : Nat) (b : Option Board) : (s.setBoard tenant handle b).outs = s.outs := rfl

/-! ## `setPool` -/

@[simp] theorem State.setPool_pending (s : State) (tenant k : Nat) (p : Option Pool) : (s.setPool tenant k p).pending = s.pending := rfl
@[simp] theorem State.setPool_waiting (s : State) (tenant k : Nat) (p : Option Pool) : (s.setPool tenant k p).waiting = s.waiting := rfl
@[simp] theorem State.setPool_tally (s : State) (tenant k : Nat) (p : Option Pool) : (s.setPool tenant k p).tally = s.tally := rfl
@[simp] theorem State.setPool_tallyStepped (s : State) (tenant k : Nat) (p : Option Pool) : (s.setPool tenant k p).tallyStepped = s.tallyStepped := rfl
@[simp] theorem State.setPool_draws (s : State) (tenant k : Nat) (p : Option Pool) : (s.setPool tenant k p).draws = s.draws := rfl
@[simp] theorem State.setPool_regs (s : State) (tenant k : Nat) (p : Option Pool) : (s.setPool tenant k p).regs = s.regs := rfl
@[simp] theorem State.setPool_tiles (s : State) (tenant k : Nat) (p : Option Pool) : (s.setPool tenant k p).tiles = s.tiles := rfl
@[simp] theorem State.setPool_modeDue (s : State) (tenant k : Nat) (p : Option Pool) : (s.setPool tenant k p).modeDue = s.modeDue := rfl
@[simp] theorem State.setPool_mem (s : State) (tenant k : Nat) (p : Option Pool) : (s.setPool tenant k p).mem = s.mem := rfl
@[simp] theorem State.setPool_memPoison (s : State) (tenant k : Nat) (p : Option Pool) : (s.setPool tenant k p).memPoison = s.memPoison := rfl
@[simp] theorem State.setPool_memDamage (s : State) (tenant k : Nat) (p : Option Pool) : (s.setPool tenant k p).memDamage = s.memDamage := rfl
@[simp] theorem State.setPool_chans (s : State) (tenant k : Nat) (p : Option Pool) : (s.setPool tenant k p).chans = s.chans := rfl
@[simp] theorem State.setPool_host (s : State) (tenant k : Nat) (p : Option Pool) : (s.setPool tenant k p).host = s.host := rfl
@[simp] theorem State.setPool_hostPoison (s : State) (tenant k : Nat) (p : Option Pool) : (s.setPool tenant k p).hostPoison = s.hostPoison := rfl
@[simp] theorem State.setPool_boards (s : State) (tenant k : Nat) (p : Option Pool) : (s.setPool tenant k p).boards = s.boards := rfl
@[simp] theorem State.setPool_items (s : State) (tenant k : Nat) (p : Option Pool) : (s.setPool tenant k p).items = s.items := rfl
@[simp] theorem State.setPool_nextItem (s : State) (tenant k : Nat) (p : Option Pool) : (s.setPool tenant k p).nextItem = s.nextItem := rfl
@[simp] theorem State.setPool_order4 (s : State) (tenant k : Nat) (p : Option Pool) : (s.setPool tenant k p).order4 = s.order4 := rfl
@[simp] theorem State.setPool_links (s : State) (tenant k : Nat) (p : Option Pool) : (s.setPool tenant k p).links = s.links := rfl
@[simp] theorem State.setPool_mgmtLeft (s : State) (tenant k : Nat) (p : Option Pool) : (s.setPool tenant k p).mgmtLeft = s.mgmtLeft := rfl
@[simp] theorem State.setPool_pseqs (s : State) (tenant k : Nat) (p : Option Pool) : (s.setPool tenant k p).pseqs = s.pseqs := rfl
@[simp] theorem State.setPool_deliveredSeqs (s : State) (tenant k : Nat) (p : Option Pool) : (s.setPool tenant k p).deliveredSeqs = s.deliveredSeqs := rfl
@[simp] theorem State.setPool_inbound (s : State) (tenant k : Nat) (p : Option Pool) : (s.setPool tenant k p).inbound = s.inbound := rfl
@[simp] theorem State.setPool_transfers (s : State) (tenant k : Nat) (p : Option Pool) : (s.setPool tenant k p).transfers = s.transfers := rfl
@[simp] theorem State.setPool_nextTransfer (s : State) (tenant k : Nat) (p : Option Pool) : (s.setPool tenant k p).nextTransfer = s.nextTransfer := rfl
@[simp] theorem State.setPool_landings (s : State) (tenant k : Nat) (p : Option Pool) : (s.setPool tenant k p).landings = s.landings := rfl
@[simp] theorem State.setPool_arriving (s : State) (tenant k : Nat) (p : Option Pool) : (s.setPool tenant k p).arriving = s.arriving := rfl
@[simp] theorem State.setPool_abortedKeys (s : State) (tenant k : Nat) (p : Option Pool) : (s.setPool tenant k p).abortedKeys = s.abortedKeys := rfl
@[simp] theorem State.setPool_windows (s : State) (tenant k : Nat) (p : Option Pool) : (s.setPool tenant k p).windows = s.windows := rfl
@[simp] theorem State.setPool_windowIns (s : State) (tenant k : Nat) (p : Option Pool) : (s.setPool tenant k p).windowIns = s.windowIns := rfl
@[simp] theorem State.setPool_peerRefs (s : State) (tenant k : Nat) (p : Option Pool) : (s.setPool tenant k p).peerRefs = s.peerRefs := rfl
@[simp] theorem State.setPool_tables (s : State) (tenant k : Nat) (p : Option Pool) : (s.setPool tenant k p).tables = s.tables := rfl
@[simp] theorem State.setPool_inboxes (s : State) (tenant k : Nat) (p : Option Pool) : (s.setPool tenant k p).inboxes = s.inboxes := rfl
@[simp] theorem State.setPool_grants (s : State) (tenant k : Nat) (p : Option Pool) : (s.setPool tenant k p).grants = s.grants := rfl
@[simp] theorem State.setPool_narrowing (s : State) (tenant k : Nat) (p : Option Pool) : (s.setPool tenant k p).narrowing = s.narrowing := rfl
@[simp] theorem State.setPool_fenceItems (s : State) (tenant k : Nat) (p : Option Pool) : (s.setPool tenant k p).fenceItems = s.fenceItems := rfl
@[simp] theorem State.setPool_fns (s : State) (tenant k : Nat) (p : Option Pool) : (s.setPool tenant k p).fns = s.fns := rfl
@[simp] theorem State.setPool_audit (s : State) (tenant k : Nat) (p : Option Pool) : (s.setPool tenant k p).audit = s.audit := rfl
@[simp] theorem State.setPool_carries (s : State) (tenant k : Nat) (p : Option Pool) : (s.setPool tenant k p).carries = s.carries := rfl
@[simp] theorem State.setPool_repairs (s : State) (tenant k : Nat) (p : Option Pool) : (s.setPool tenant k p).repairs = s.repairs := rfl
@[simp] theorem State.setPool_assay (s : State) (tenant k : Nat) (p : Option Pool) : (s.setPool tenant k p).assay = s.assay := rfl
@[simp] theorem State.setPool_power (s : State) (tenant k : Nat) (p : Option Pool) : (s.setPool tenant k p).power = s.power := rfl
@[simp] theorem State.setPool_sec (s : State) (tenant k : Nat) (p : Option Pool) : (s.setPool tenant k p).sec = s.sec := rfl
@[simp] theorem State.setPool_pins (s : State) (tenant k : Nat) (p : Option Pool) : (s.setPool tenant k p).pins = s.pins := rfl
@[simp] theorem State.setPool_outs (s : State) (tenant k : Nat) (p : Option Pool) : (s.setPool tenant k p).outs = s.outs := rfl

/-! ## `setSlotState` -/

@[simp] theorem State.setSlotState_pending (s : State) (n : Nat) (t : TableSlot) : (s.setSlotState n t).pending = s.pending := rfl
@[simp] theorem State.setSlotState_waiting (s : State) (n : Nat) (t : TableSlot) : (s.setSlotState n t).waiting = s.waiting := rfl
@[simp] theorem State.setSlotState_tally (s : State) (n : Nat) (t : TableSlot) : (s.setSlotState n t).tally = s.tally := rfl
@[simp] theorem State.setSlotState_tallyStepped (s : State) (n : Nat) (t : TableSlot) : (s.setSlotState n t).tallyStepped = s.tallyStepped := rfl
@[simp] theorem State.setSlotState_draws (s : State) (n : Nat) (t : TableSlot) : (s.setSlotState n t).draws = s.draws := rfl
@[simp] theorem State.setSlotState_regs (s : State) (n : Nat) (t : TableSlot) : (s.setSlotState n t).regs = s.regs := rfl
@[simp] theorem State.setSlotState_tiles (s : State) (n : Nat) (t : TableSlot) : (s.setSlotState n t).tiles = s.tiles := rfl
@[simp] theorem State.setSlotState_modeDue (s : State) (n : Nat) (t : TableSlot) : (s.setSlotState n t).modeDue = s.modeDue := rfl
@[simp] theorem State.setSlotState_mem (s : State) (n : Nat) (t : TableSlot) : (s.setSlotState n t).mem = s.mem := rfl
@[simp] theorem State.setSlotState_memPoison (s : State) (n : Nat) (t : TableSlot) : (s.setSlotState n t).memPoison = s.memPoison := rfl
@[simp] theorem State.setSlotState_memDamage (s : State) (n : Nat) (t : TableSlot) : (s.setSlotState n t).memDamage = s.memDamage := rfl
@[simp] theorem State.setSlotState_chans (s : State) (n : Nat) (t : TableSlot) : (s.setSlotState n t).chans = s.chans := rfl
@[simp] theorem State.setSlotState_host (s : State) (n : Nat) (t : TableSlot) : (s.setSlotState n t).host = s.host := rfl
@[simp] theorem State.setSlotState_hostPoison (s : State) (n : Nat) (t : TableSlot) : (s.setSlotState n t).hostPoison = s.hostPoison := rfl
@[simp] theorem State.setSlotState_boards (s : State) (n : Nat) (t : TableSlot) : (s.setSlotState n t).boards = s.boards := rfl
@[simp] theorem State.setSlotState_pools (s : State) (n : Nat) (t : TableSlot) : (s.setSlotState n t).pools = s.pools := rfl
@[simp] theorem State.setSlotState_items (s : State) (n : Nat) (t : TableSlot) : (s.setSlotState n t).items = s.items := rfl
@[simp] theorem State.setSlotState_nextItem (s : State) (n : Nat) (t : TableSlot) : (s.setSlotState n t).nextItem = s.nextItem := rfl
@[simp] theorem State.setSlotState_order4 (s : State) (n : Nat) (t : TableSlot) : (s.setSlotState n t).order4 = s.order4 := rfl
@[simp] theorem State.setSlotState_links (s : State) (n : Nat) (t : TableSlot) : (s.setSlotState n t).links = s.links := rfl
@[simp] theorem State.setSlotState_mgmtLeft (s : State) (n : Nat) (t : TableSlot) : (s.setSlotState n t).mgmtLeft = s.mgmtLeft := rfl
@[simp] theorem State.setSlotState_pseqs (s : State) (n : Nat) (t : TableSlot) : (s.setSlotState n t).pseqs = s.pseqs := rfl
@[simp] theorem State.setSlotState_deliveredSeqs (s : State) (n : Nat) (t : TableSlot) : (s.setSlotState n t).deliveredSeqs = s.deliveredSeqs := rfl
@[simp] theorem State.setSlotState_inbound (s : State) (n : Nat) (t : TableSlot) : (s.setSlotState n t).inbound = s.inbound := rfl
@[simp] theorem State.setSlotState_transfers (s : State) (n : Nat) (t : TableSlot) : (s.setSlotState n t).transfers = s.transfers := rfl
@[simp] theorem State.setSlotState_nextTransfer (s : State) (n : Nat) (t : TableSlot) : (s.setSlotState n t).nextTransfer = s.nextTransfer := rfl
@[simp] theorem State.setSlotState_landings (s : State) (n : Nat) (t : TableSlot) : (s.setSlotState n t).landings = s.landings := rfl
@[simp] theorem State.setSlotState_arriving (s : State) (n : Nat) (t : TableSlot) : (s.setSlotState n t).arriving = s.arriving := rfl
@[simp] theorem State.setSlotState_abortedKeys (s : State) (n : Nat) (t : TableSlot) : (s.setSlotState n t).abortedKeys = s.abortedKeys := rfl
@[simp] theorem State.setSlotState_windows (s : State) (n : Nat) (t : TableSlot) : (s.setSlotState n t).windows = s.windows := rfl
@[simp] theorem State.setSlotState_windowIns (s : State) (n : Nat) (t : TableSlot) : (s.setSlotState n t).windowIns = s.windowIns := rfl
@[simp] theorem State.setSlotState_peerRefs (s : State) (n : Nat) (t : TableSlot) : (s.setSlotState n t).peerRefs = s.peerRefs := rfl
@[simp] theorem State.setSlotState_inboxes (s : State) (n : Nat) (t : TableSlot) : (s.setSlotState n t).inboxes = s.inboxes := rfl
@[simp] theorem State.setSlotState_grants (s : State) (n : Nat) (t : TableSlot) : (s.setSlotState n t).grants = s.grants := rfl
@[simp] theorem State.setSlotState_narrowing (s : State) (n : Nat) (t : TableSlot) : (s.setSlotState n t).narrowing = s.narrowing := rfl
@[simp] theorem State.setSlotState_fenceItems (s : State) (n : Nat) (t : TableSlot) : (s.setSlotState n t).fenceItems = s.fenceItems := rfl
@[simp] theorem State.setSlotState_fns (s : State) (n : Nat) (t : TableSlot) : (s.setSlotState n t).fns = s.fns := rfl
@[simp] theorem State.setSlotState_audit (s : State) (n : Nat) (t : TableSlot) : (s.setSlotState n t).audit = s.audit := rfl
@[simp] theorem State.setSlotState_carries (s : State) (n : Nat) (t : TableSlot) : (s.setSlotState n t).carries = s.carries := rfl
@[simp] theorem State.setSlotState_repairs (s : State) (n : Nat) (t : TableSlot) : (s.setSlotState n t).repairs = s.repairs := rfl
@[simp] theorem State.setSlotState_assay (s : State) (n : Nat) (t : TableSlot) : (s.setSlotState n t).assay = s.assay := rfl
@[simp] theorem State.setSlotState_power (s : State) (n : Nat) (t : TableSlot) : (s.setSlotState n t).power = s.power := rfl
@[simp] theorem State.setSlotState_sec (s : State) (n : Nat) (t : TableSlot) : (s.setSlotState n t).sec = s.sec := rfl
@[simp] theorem State.setSlotState_pins (s : State) (n : Nat) (t : TableSlot) : (s.setSlotState n t).pins = s.pins := rfl
@[simp] theorem State.setSlotState_outs (s : State) (n : Nat) (t : TableSlot) : (s.setSlotState n t).outs = s.outs := rfl

/-! ## `journal` -/

@[simp] theorem State.journal_pending (s : State) (type : Nat) (args : List Nat) : (s.journal type args).pending = s.pending := rfl
@[simp] theorem State.journal_waiting (s : State) (type : Nat) (args : List Nat) : (s.journal type args).waiting = s.waiting := rfl
@[simp] theorem State.journal_tally (s : State) (type : Nat) (args : List Nat) : (s.journal type args).tally = s.tally := rfl
@[simp] theorem State.journal_tallyStepped (s : State) (type : Nat) (args : List Nat) : (s.journal type args).tallyStepped = s.tallyStepped := rfl
@[simp] theorem State.journal_draws (s : State) (type : Nat) (args : List Nat) : (s.journal type args).draws = s.draws := rfl
@[simp] theorem State.journal_regs (s : State) (type : Nat) (args : List Nat) : (s.journal type args).regs = s.regs := rfl
@[simp] theorem State.journal_tiles (s : State) (type : Nat) (args : List Nat) : (s.journal type args).tiles = s.tiles := rfl
@[simp] theorem State.journal_modeDue (s : State) (type : Nat) (args : List Nat) : (s.journal type args).modeDue = s.modeDue := rfl
@[simp] theorem State.journal_mem (s : State) (type : Nat) (args : List Nat) : (s.journal type args).mem = s.mem := rfl
@[simp] theorem State.journal_memPoison (s : State) (type : Nat) (args : List Nat) : (s.journal type args).memPoison = s.memPoison := rfl
@[simp] theorem State.journal_memDamage (s : State) (type : Nat) (args : List Nat) : (s.journal type args).memDamage = s.memDamage := rfl
@[simp] theorem State.journal_chans (s : State) (type : Nat) (args : List Nat) : (s.journal type args).chans = s.chans := rfl
@[simp] theorem State.journal_host (s : State) (type : Nat) (args : List Nat) : (s.journal type args).host = s.host := rfl
@[simp] theorem State.journal_hostPoison (s : State) (type : Nat) (args : List Nat) : (s.journal type args).hostPoison = s.hostPoison := rfl
@[simp] theorem State.journal_boards (s : State) (type : Nat) (args : List Nat) : (s.journal type args).boards = s.boards := rfl
@[simp] theorem State.journal_pools (s : State) (type : Nat) (args : List Nat) : (s.journal type args).pools = s.pools := rfl
@[simp] theorem State.journal_items (s : State) (type : Nat) (args : List Nat) : (s.journal type args).items = s.items := rfl
@[simp] theorem State.journal_nextItem (s : State) (type : Nat) (args : List Nat) : (s.journal type args).nextItem = s.nextItem := rfl
@[simp] theorem State.journal_order4 (s : State) (type : Nat) (args : List Nat) : (s.journal type args).order4 = s.order4 := rfl
@[simp] theorem State.journal_links (s : State) (type : Nat) (args : List Nat) : (s.journal type args).links = s.links := rfl
@[simp] theorem State.journal_mgmtLeft (s : State) (type : Nat) (args : List Nat) : (s.journal type args).mgmtLeft = s.mgmtLeft := rfl
@[simp] theorem State.journal_pseqs (s : State) (type : Nat) (args : List Nat) : (s.journal type args).pseqs = s.pseqs := rfl
@[simp] theorem State.journal_deliveredSeqs (s : State) (type : Nat) (args : List Nat) : (s.journal type args).deliveredSeqs = s.deliveredSeqs := rfl
@[simp] theorem State.journal_inbound (s : State) (type : Nat) (args : List Nat) : (s.journal type args).inbound = s.inbound := rfl
@[simp] theorem State.journal_transfers (s : State) (type : Nat) (args : List Nat) : (s.journal type args).transfers = s.transfers := rfl
@[simp] theorem State.journal_nextTransfer (s : State) (type : Nat) (args : List Nat) : (s.journal type args).nextTransfer = s.nextTransfer := rfl
@[simp] theorem State.journal_landings (s : State) (type : Nat) (args : List Nat) : (s.journal type args).landings = s.landings := rfl
@[simp] theorem State.journal_arriving (s : State) (type : Nat) (args : List Nat) : (s.journal type args).arriving = s.arriving := rfl
@[simp] theorem State.journal_abortedKeys (s : State) (type : Nat) (args : List Nat) : (s.journal type args).abortedKeys = s.abortedKeys := rfl
@[simp] theorem State.journal_windows (s : State) (type : Nat) (args : List Nat) : (s.journal type args).windows = s.windows := rfl
@[simp] theorem State.journal_windowIns (s : State) (type : Nat) (args : List Nat) : (s.journal type args).windowIns = s.windowIns := rfl
@[simp] theorem State.journal_peerRefs (s : State) (type : Nat) (args : List Nat) : (s.journal type args).peerRefs = s.peerRefs := rfl
@[simp] theorem State.journal_tables (s : State) (type : Nat) (args : List Nat) : (s.journal type args).tables = s.tables := rfl
@[simp] theorem State.journal_inboxes (s : State) (type : Nat) (args : List Nat) : (s.journal type args).inboxes = s.inboxes := rfl
@[simp] theorem State.journal_grants (s : State) (type : Nat) (args : List Nat) : (s.journal type args).grants = s.grants := rfl
@[simp] theorem State.journal_narrowing (s : State) (type : Nat) (args : List Nat) : (s.journal type args).narrowing = s.narrowing := rfl
@[simp] theorem State.journal_fenceItems (s : State) (type : Nat) (args : List Nat) : (s.journal type args).fenceItems = s.fenceItems := rfl
@[simp] theorem State.journal_fns (s : State) (type : Nat) (args : List Nat) : (s.journal type args).fns = s.fns := rfl
@[simp] theorem State.journal_audit (s : State) (type : Nat) (args : List Nat) : (s.journal type args).audit = s.audit := rfl
@[simp] theorem State.journal_carries (s : State) (type : Nat) (args : List Nat) : (s.journal type args).carries = s.carries := rfl
@[simp] theorem State.journal_repairs (s : State) (type : Nat) (args : List Nat) : (s.journal type args).repairs = s.repairs := rfl
@[simp] theorem State.journal_assay (s : State) (type : Nat) (args : List Nat) : (s.journal type args).assay = s.assay := rfl
@[simp] theorem State.journal_power (s : State) (type : Nat) (args : List Nat) : (s.journal type args).power = s.power := rfl
@[simp] theorem State.journal_pins (s : State) (type : Nat) (args : List Nat) : (s.journal type args).pins = s.pins := rfl
@[simp] theorem State.journal_outs (s : State) (type : Nat) (args : List Nat) : (s.journal type args).outs = s.outs := rfl

/-! ## `modItem` -/

@[simp] theorem State.modItem_pending (s : State) (id : Nat) (f : Item → Item) : (s.modItem id f).pending = s.pending := rfl
@[simp] theorem State.modItem_waiting (s : State) (id : Nat) (f : Item → Item) : (s.modItem id f).waiting = s.waiting := rfl
@[simp] theorem State.modItem_tally (s : State) (id : Nat) (f : Item → Item) : (s.modItem id f).tally = s.tally := rfl
@[simp] theorem State.modItem_tallyStepped (s : State) (id : Nat) (f : Item → Item) : (s.modItem id f).tallyStepped = s.tallyStepped := rfl
@[simp] theorem State.modItem_draws (s : State) (id : Nat) (f : Item → Item) : (s.modItem id f).draws = s.draws := rfl
@[simp] theorem State.modItem_regs (s : State) (id : Nat) (f : Item → Item) : (s.modItem id f).regs = s.regs := rfl
@[simp] theorem State.modItem_tiles (s : State) (id : Nat) (f : Item → Item) : (s.modItem id f).tiles = s.tiles := rfl
@[simp] theorem State.modItem_modeDue (s : State) (id : Nat) (f : Item → Item) : (s.modItem id f).modeDue = s.modeDue := rfl
@[simp] theorem State.modItem_mem (s : State) (id : Nat) (f : Item → Item) : (s.modItem id f).mem = s.mem := rfl
@[simp] theorem State.modItem_memPoison (s : State) (id : Nat) (f : Item → Item) : (s.modItem id f).memPoison = s.memPoison := rfl
@[simp] theorem State.modItem_memDamage (s : State) (id : Nat) (f : Item → Item) : (s.modItem id f).memDamage = s.memDamage := rfl
@[simp] theorem State.modItem_chans (s : State) (id : Nat) (f : Item → Item) : (s.modItem id f).chans = s.chans := rfl
@[simp] theorem State.modItem_host (s : State) (id : Nat) (f : Item → Item) : (s.modItem id f).host = s.host := rfl
@[simp] theorem State.modItem_hostPoison (s : State) (id : Nat) (f : Item → Item) : (s.modItem id f).hostPoison = s.hostPoison := rfl
@[simp] theorem State.modItem_boards (s : State) (id : Nat) (f : Item → Item) : (s.modItem id f).boards = s.boards := rfl
@[simp] theorem State.modItem_pools (s : State) (id : Nat) (f : Item → Item) : (s.modItem id f).pools = s.pools := rfl
@[simp] theorem State.modItem_nextItem (s : State) (id : Nat) (f : Item → Item) : (s.modItem id f).nextItem = s.nextItem := rfl
@[simp] theorem State.modItem_order4 (s : State) (id : Nat) (f : Item → Item) : (s.modItem id f).order4 = s.order4 := rfl
@[simp] theorem State.modItem_links (s : State) (id : Nat) (f : Item → Item) : (s.modItem id f).links = s.links := rfl
@[simp] theorem State.modItem_mgmtLeft (s : State) (id : Nat) (f : Item → Item) : (s.modItem id f).mgmtLeft = s.mgmtLeft := rfl
@[simp] theorem State.modItem_pseqs (s : State) (id : Nat) (f : Item → Item) : (s.modItem id f).pseqs = s.pseqs := rfl
@[simp] theorem State.modItem_deliveredSeqs (s : State) (id : Nat) (f : Item → Item) : (s.modItem id f).deliveredSeqs = s.deliveredSeqs := rfl
@[simp] theorem State.modItem_inbound (s : State) (id : Nat) (f : Item → Item) : (s.modItem id f).inbound = s.inbound := rfl
@[simp] theorem State.modItem_transfers (s : State) (id : Nat) (f : Item → Item) : (s.modItem id f).transfers = s.transfers := rfl
@[simp] theorem State.modItem_nextTransfer (s : State) (id : Nat) (f : Item → Item) : (s.modItem id f).nextTransfer = s.nextTransfer := rfl
@[simp] theorem State.modItem_landings (s : State) (id : Nat) (f : Item → Item) : (s.modItem id f).landings = s.landings := rfl
@[simp] theorem State.modItem_arriving (s : State) (id : Nat) (f : Item → Item) : (s.modItem id f).arriving = s.arriving := rfl
@[simp] theorem State.modItem_abortedKeys (s : State) (id : Nat) (f : Item → Item) : (s.modItem id f).abortedKeys = s.abortedKeys := rfl
@[simp] theorem State.modItem_windows (s : State) (id : Nat) (f : Item → Item) : (s.modItem id f).windows = s.windows := rfl
@[simp] theorem State.modItem_windowIns (s : State) (id : Nat) (f : Item → Item) : (s.modItem id f).windowIns = s.windowIns := rfl
@[simp] theorem State.modItem_peerRefs (s : State) (id : Nat) (f : Item → Item) : (s.modItem id f).peerRefs = s.peerRefs := rfl
@[simp] theorem State.modItem_tables (s : State) (id : Nat) (f : Item → Item) : (s.modItem id f).tables = s.tables := rfl
@[simp] theorem State.modItem_inboxes (s : State) (id : Nat) (f : Item → Item) : (s.modItem id f).inboxes = s.inboxes := rfl
@[simp] theorem State.modItem_grants (s : State) (id : Nat) (f : Item → Item) : (s.modItem id f).grants = s.grants := rfl
@[simp] theorem State.modItem_narrowing (s : State) (id : Nat) (f : Item → Item) : (s.modItem id f).narrowing = s.narrowing := rfl
@[simp] theorem State.modItem_fenceItems (s : State) (id : Nat) (f : Item → Item) : (s.modItem id f).fenceItems = s.fenceItems := rfl
@[simp] theorem State.modItem_fns (s : State) (id : Nat) (f : Item → Item) : (s.modItem id f).fns = s.fns := rfl
@[simp] theorem State.modItem_audit (s : State) (id : Nat) (f : Item → Item) : (s.modItem id f).audit = s.audit := rfl
@[simp] theorem State.modItem_carries (s : State) (id : Nat) (f : Item → Item) : (s.modItem id f).carries = s.carries := rfl
@[simp] theorem State.modItem_repairs (s : State) (id : Nat) (f : Item → Item) : (s.modItem id f).repairs = s.repairs := rfl
@[simp] theorem State.modItem_assay (s : State) (id : Nat) (f : Item → Item) : (s.modItem id f).assay = s.assay := rfl
@[simp] theorem State.modItem_power (s : State) (id : Nat) (f : Item → Item) : (s.modItem id f).power = s.power := rfl
@[simp] theorem State.modItem_sec (s : State) (id : Nat) (f : Item → Item) : (s.modItem id f).sec = s.sec := rfl
@[simp] theorem State.modItem_pins (s : State) (id : Nat) (f : Item → Item) : (s.modItem id f).pins = s.pins := rfl
@[simp] theorem State.modItem_outs (s : State) (id : Nat) (f : Item → Item) : (s.modItem id f).outs = s.outs := rfl

/-! ## `requeue` -/

@[simp] theorem State.requeue_pending (s : State) (id : Nat) (f : Item → Item) : (s.requeue id f).pending = s.pending := rfl
@[simp] theorem State.requeue_waiting (s : State) (id : Nat) (f : Item → Item) : (s.requeue id f).waiting = s.waiting := rfl
@[simp] theorem State.requeue_tally (s : State) (id : Nat) (f : Item → Item) : (s.requeue id f).tally = s.tally := rfl
@[simp] theorem State.requeue_tallyStepped (s : State) (id : Nat) (f : Item → Item) : (s.requeue id f).tallyStepped = s.tallyStepped := rfl
@[simp] theorem State.requeue_draws (s : State) (id : Nat) (f : Item → Item) : (s.requeue id f).draws = s.draws := rfl
@[simp] theorem State.requeue_regs (s : State) (id : Nat) (f : Item → Item) : (s.requeue id f).regs = s.regs := rfl
@[simp] theorem State.requeue_tiles (s : State) (id : Nat) (f : Item → Item) : (s.requeue id f).tiles = s.tiles := rfl
@[simp] theorem State.requeue_modeDue (s : State) (id : Nat) (f : Item → Item) : (s.requeue id f).modeDue = s.modeDue := rfl
@[simp] theorem State.requeue_mem (s : State) (id : Nat) (f : Item → Item) : (s.requeue id f).mem = s.mem := rfl
@[simp] theorem State.requeue_memPoison (s : State) (id : Nat) (f : Item → Item) : (s.requeue id f).memPoison = s.memPoison := rfl
@[simp] theorem State.requeue_memDamage (s : State) (id : Nat) (f : Item → Item) : (s.requeue id f).memDamage = s.memDamage := rfl
@[simp] theorem State.requeue_chans (s : State) (id : Nat) (f : Item → Item) : (s.requeue id f).chans = s.chans := rfl
@[simp] theorem State.requeue_host (s : State) (id : Nat) (f : Item → Item) : (s.requeue id f).host = s.host := rfl
@[simp] theorem State.requeue_hostPoison (s : State) (id : Nat) (f : Item → Item) : (s.requeue id f).hostPoison = s.hostPoison := rfl
@[simp] theorem State.requeue_boards (s : State) (id : Nat) (f : Item → Item) : (s.requeue id f).boards = s.boards := rfl
@[simp] theorem State.requeue_pools (s : State) (id : Nat) (f : Item → Item) : (s.requeue id f).pools = s.pools := rfl
@[simp] theorem State.requeue_nextItem (s : State) (id : Nat) (f : Item → Item) : (s.requeue id f).nextItem = s.nextItem := rfl
@[simp] theorem State.requeue_order4 (s : State) (id : Nat) (f : Item → Item) : (s.requeue id f).order4 = s.order4 := rfl
@[simp] theorem State.requeue_links (s : State) (id : Nat) (f : Item → Item) : (s.requeue id f).links = s.links := rfl
@[simp] theorem State.requeue_mgmtLeft (s : State) (id : Nat) (f : Item → Item) : (s.requeue id f).mgmtLeft = s.mgmtLeft := rfl
@[simp] theorem State.requeue_pseqs (s : State) (id : Nat) (f : Item → Item) : (s.requeue id f).pseqs = s.pseqs := rfl
@[simp] theorem State.requeue_deliveredSeqs (s : State) (id : Nat) (f : Item → Item) : (s.requeue id f).deliveredSeqs = s.deliveredSeqs := rfl
@[simp] theorem State.requeue_inbound (s : State) (id : Nat) (f : Item → Item) : (s.requeue id f).inbound = s.inbound := rfl
@[simp] theorem State.requeue_transfers (s : State) (id : Nat) (f : Item → Item) : (s.requeue id f).transfers = s.transfers := rfl
@[simp] theorem State.requeue_nextTransfer (s : State) (id : Nat) (f : Item → Item) : (s.requeue id f).nextTransfer = s.nextTransfer := rfl
@[simp] theorem State.requeue_landings (s : State) (id : Nat) (f : Item → Item) : (s.requeue id f).landings = s.landings := rfl
@[simp] theorem State.requeue_arriving (s : State) (id : Nat) (f : Item → Item) : (s.requeue id f).arriving = s.arriving := rfl
@[simp] theorem State.requeue_abortedKeys (s : State) (id : Nat) (f : Item → Item) : (s.requeue id f).abortedKeys = s.abortedKeys := rfl
@[simp] theorem State.requeue_windows (s : State) (id : Nat) (f : Item → Item) : (s.requeue id f).windows = s.windows := rfl
@[simp] theorem State.requeue_windowIns (s : State) (id : Nat) (f : Item → Item) : (s.requeue id f).windowIns = s.windowIns := rfl
@[simp] theorem State.requeue_peerRefs (s : State) (id : Nat) (f : Item → Item) : (s.requeue id f).peerRefs = s.peerRefs := rfl
@[simp] theorem State.requeue_tables (s : State) (id : Nat) (f : Item → Item) : (s.requeue id f).tables = s.tables := rfl
@[simp] theorem State.requeue_inboxes (s : State) (id : Nat) (f : Item → Item) : (s.requeue id f).inboxes = s.inboxes := rfl
@[simp] theorem State.requeue_grants (s : State) (id : Nat) (f : Item → Item) : (s.requeue id f).grants = s.grants := rfl
@[simp] theorem State.requeue_narrowing (s : State) (id : Nat) (f : Item → Item) : (s.requeue id f).narrowing = s.narrowing := rfl
@[simp] theorem State.requeue_fenceItems (s : State) (id : Nat) (f : Item → Item) : (s.requeue id f).fenceItems = s.fenceItems := rfl
@[simp] theorem State.requeue_fns (s : State) (id : Nat) (f : Item → Item) : (s.requeue id f).fns = s.fns := rfl
@[simp] theorem State.requeue_audit (s : State) (id : Nat) (f : Item → Item) : (s.requeue id f).audit = s.audit := rfl
@[simp] theorem State.requeue_carries (s : State) (id : Nat) (f : Item → Item) : (s.requeue id f).carries = s.carries := rfl
@[simp] theorem State.requeue_repairs (s : State) (id : Nat) (f : Item → Item) : (s.requeue id f).repairs = s.repairs := rfl
@[simp] theorem State.requeue_assay (s : State) (id : Nat) (f : Item → Item) : (s.requeue id f).assay = s.assay := rfl
@[simp] theorem State.requeue_power (s : State) (id : Nat) (f : Item → Item) : (s.requeue id f).power = s.power := rfl
@[simp] theorem State.requeue_sec (s : State) (id : Nat) (f : Item → Item) : (s.requeue id f).sec = s.sec := rfl
@[simp] theorem State.requeue_pins (s : State) (id : Nat) (f : Item → Item) : (s.requeue id f).pins = s.pins := rfl
@[simp] theorem State.requeue_outs (s : State) (id : Nat) (f : Item → Item) : (s.requeue id f).outs = s.outs := rfl

/-! ## `stir` -/

@[simp] theorem State.stir_pending (s : State) : (s.stir).pending = s.pending := rfl
@[simp] theorem State.stir_waiting (s : State) : (s.stir).waiting = s.waiting := rfl
@[simp] theorem State.stir_tally (s : State) : (s.stir).tally = s.tally := rfl
@[simp] theorem State.stir_tallyStepped (s : State) : (s.stir).tallyStepped = s.tallyStepped := rfl
@[simp] theorem State.stir_draws (s : State) : (s.stir).draws = s.draws := rfl
@[simp] theorem State.stir_regs (s : State) : (s.stir).regs = s.regs := rfl
@[simp] theorem State.stir_tiles (s : State) : (s.stir).tiles = s.tiles := rfl
@[simp] theorem State.stir_modeDue (s : State) : (s.stir).modeDue = s.modeDue := rfl
@[simp] theorem State.stir_mem (s : State) : (s.stir).mem = s.mem := rfl
@[simp] theorem State.stir_memPoison (s : State) : (s.stir).memPoison = s.memPoison := rfl
@[simp] theorem State.stir_memDamage (s : State) : (s.stir).memDamage = s.memDamage := rfl
@[simp] theorem State.stir_chans (s : State) : (s.stir).chans = s.chans := rfl
@[simp] theorem State.stir_host (s : State) : (s.stir).host = s.host := rfl
@[simp] theorem State.stir_hostPoison (s : State) : (s.stir).hostPoison = s.hostPoison := rfl
@[simp] theorem State.stir_boards (s : State) : (s.stir).boards = s.boards := rfl
@[simp] theorem State.stir_pools (s : State) : (s.stir).pools = s.pools := rfl
@[simp] theorem State.stir_items (s : State) : (s.stir).items = s.items := rfl
@[simp] theorem State.stir_nextItem (s : State) : (s.stir).nextItem = s.nextItem := rfl
@[simp] theorem State.stir_order4 (s : State) : (s.stir).order4 = s.order4 := rfl
@[simp] theorem State.stir_links (s : State) : (s.stir).links = s.links := rfl
@[simp] theorem State.stir_mgmtLeft (s : State) : (s.stir).mgmtLeft = s.mgmtLeft := rfl
@[simp] theorem State.stir_pseqs (s : State) : (s.stir).pseqs = s.pseqs := rfl
@[simp] theorem State.stir_deliveredSeqs (s : State) : (s.stir).deliveredSeqs = s.deliveredSeqs := rfl
@[simp] theorem State.stir_inbound (s : State) : (s.stir).inbound = s.inbound := rfl
@[simp] theorem State.stir_transfers (s : State) : (s.stir).transfers = s.transfers := rfl
@[simp] theorem State.stir_nextTransfer (s : State) : (s.stir).nextTransfer = s.nextTransfer := rfl
@[simp] theorem State.stir_landings (s : State) : (s.stir).landings = s.landings := rfl
@[simp] theorem State.stir_arriving (s : State) : (s.stir).arriving = s.arriving := rfl
@[simp] theorem State.stir_abortedKeys (s : State) : (s.stir).abortedKeys = s.abortedKeys := rfl
@[simp] theorem State.stir_windows (s : State) : (s.stir).windows = s.windows := rfl
@[simp] theorem State.stir_windowIns (s : State) : (s.stir).windowIns = s.windowIns := rfl
@[simp] theorem State.stir_peerRefs (s : State) : (s.stir).peerRefs = s.peerRefs := rfl
@[simp] theorem State.stir_tables (s : State) : (s.stir).tables = s.tables := rfl
@[simp] theorem State.stir_inboxes (s : State) : (s.stir).inboxes = s.inboxes := rfl
@[simp] theorem State.stir_grants (s : State) : (s.stir).grants = s.grants := rfl
@[simp] theorem State.stir_narrowing (s : State) : (s.stir).narrowing = s.narrowing := rfl
@[simp] theorem State.stir_fenceItems (s : State) : (s.stir).fenceItems = s.fenceItems := rfl
@[simp] theorem State.stir_fns (s : State) : (s.stir).fns = s.fns := rfl
@[simp] theorem State.stir_audit (s : State) : (s.stir).audit = s.audit := rfl
@[simp] theorem State.stir_carries (s : State) : (s.stir).carries = s.carries := rfl
@[simp] theorem State.stir_repairs (s : State) : (s.stir).repairs = s.repairs := rfl
@[simp] theorem State.stir_assay (s : State) : (s.stir).assay = s.assay := rfl
@[simp] theorem State.stir_sec (s : State) : (s.stir).sec = s.sec := rfl
@[simp] theorem State.stir_pins (s : State) : (s.stir).pins = s.pins := rfl
@[simp] theorem State.stir_outs (s : State) : (s.stir).outs = s.outs := rfl

/-! ## `dropCarry` -/

@[simp] theorem State.dropCarry_pending (s : State) (t : Nat) : (s.dropCarry t).pending = s.pending := rfl
@[simp] theorem State.dropCarry_waiting (s : State) (t : Nat) : (s.dropCarry t).waiting = s.waiting := rfl
@[simp] theorem State.dropCarry_tally (s : State) (t : Nat) : (s.dropCarry t).tally = s.tally := rfl
@[simp] theorem State.dropCarry_tallyStepped (s : State) (t : Nat) : (s.dropCarry t).tallyStepped = s.tallyStepped := rfl
@[simp] theorem State.dropCarry_draws (s : State) (t : Nat) : (s.dropCarry t).draws = s.draws := rfl
@[simp] theorem State.dropCarry_regs (s : State) (t : Nat) : (s.dropCarry t).regs = s.regs := rfl
@[simp] theorem State.dropCarry_tiles (s : State) (t : Nat) : (s.dropCarry t).tiles = s.tiles := rfl
@[simp] theorem State.dropCarry_modeDue (s : State) (t : Nat) : (s.dropCarry t).modeDue = s.modeDue := rfl
@[simp] theorem State.dropCarry_mem (s : State) (t : Nat) : (s.dropCarry t).mem = s.mem := rfl
@[simp] theorem State.dropCarry_memPoison (s : State) (t : Nat) : (s.dropCarry t).memPoison = s.memPoison := rfl
@[simp] theorem State.dropCarry_memDamage (s : State) (t : Nat) : (s.dropCarry t).memDamage = s.memDamage := rfl
@[simp] theorem State.dropCarry_chans (s : State) (t : Nat) : (s.dropCarry t).chans = s.chans := rfl
@[simp] theorem State.dropCarry_host (s : State) (t : Nat) : (s.dropCarry t).host = s.host := rfl
@[simp] theorem State.dropCarry_hostPoison (s : State) (t : Nat) : (s.dropCarry t).hostPoison = s.hostPoison := rfl
@[simp] theorem State.dropCarry_boards (s : State) (t : Nat) : (s.dropCarry t).boards = s.boards := rfl
@[simp] theorem State.dropCarry_pools (s : State) (t : Nat) : (s.dropCarry t).pools = s.pools := rfl
@[simp] theorem State.dropCarry_items (s : State) (t : Nat) : (s.dropCarry t).items = s.items := rfl
@[simp] theorem State.dropCarry_nextItem (s : State) (t : Nat) : (s.dropCarry t).nextItem = s.nextItem := rfl
@[simp] theorem State.dropCarry_order4 (s : State) (t : Nat) : (s.dropCarry t).order4 = s.order4 := rfl
@[simp] theorem State.dropCarry_links (s : State) (t : Nat) : (s.dropCarry t).links = s.links := rfl
@[simp] theorem State.dropCarry_mgmtLeft (s : State) (t : Nat) : (s.dropCarry t).mgmtLeft = s.mgmtLeft := rfl
@[simp] theorem State.dropCarry_pseqs (s : State) (t : Nat) : (s.dropCarry t).pseqs = s.pseqs := rfl
@[simp] theorem State.dropCarry_deliveredSeqs (s : State) (t : Nat) : (s.dropCarry t).deliveredSeqs = s.deliveredSeqs := rfl
@[simp] theorem State.dropCarry_inbound (s : State) (t : Nat) : (s.dropCarry t).inbound = s.inbound := rfl
@[simp] theorem State.dropCarry_transfers (s : State) (t : Nat) : (s.dropCarry t).transfers = s.transfers := rfl
@[simp] theorem State.dropCarry_nextTransfer (s : State) (t : Nat) : (s.dropCarry t).nextTransfer = s.nextTransfer := rfl
@[simp] theorem State.dropCarry_landings (s : State) (t : Nat) : (s.dropCarry t).landings = s.landings := rfl
@[simp] theorem State.dropCarry_arriving (s : State) (t : Nat) : (s.dropCarry t).arriving = s.arriving := rfl
@[simp] theorem State.dropCarry_abortedKeys (s : State) (t : Nat) : (s.dropCarry t).abortedKeys = s.abortedKeys := rfl
@[simp] theorem State.dropCarry_windows (s : State) (t : Nat) : (s.dropCarry t).windows = s.windows := rfl
@[simp] theorem State.dropCarry_windowIns (s : State) (t : Nat) : (s.dropCarry t).windowIns = s.windowIns := rfl
@[simp] theorem State.dropCarry_peerRefs (s : State) (t : Nat) : (s.dropCarry t).peerRefs = s.peerRefs := rfl
@[simp] theorem State.dropCarry_tables (s : State) (t : Nat) : (s.dropCarry t).tables = s.tables := rfl
@[simp] theorem State.dropCarry_inboxes (s : State) (t : Nat) : (s.dropCarry t).inboxes = s.inboxes := rfl
@[simp] theorem State.dropCarry_grants (s : State) (t : Nat) : (s.dropCarry t).grants = s.grants := rfl
@[simp] theorem State.dropCarry_narrowing (s : State) (t : Nat) : (s.dropCarry t).narrowing = s.narrowing := rfl
@[simp] theorem State.dropCarry_fenceItems (s : State) (t : Nat) : (s.dropCarry t).fenceItems = s.fenceItems := rfl
@[simp] theorem State.dropCarry_fns (s : State) (t : Nat) : (s.dropCarry t).fns = s.fns := rfl
@[simp] theorem State.dropCarry_audit (s : State) (t : Nat) : (s.dropCarry t).audit = s.audit := rfl
@[simp] theorem State.dropCarry_repairs (s : State) (t : Nat) : (s.dropCarry t).repairs = s.repairs := rfl
@[simp] theorem State.dropCarry_assay (s : State) (t : Nat) : (s.dropCarry t).assay = s.assay := rfl
@[simp] theorem State.dropCarry_power (s : State) (t : Nat) : (s.dropCarry t).power = s.power := rfl
@[simp] theorem State.dropCarry_sec (s : State) (t : Nat) : (s.dropCarry t).sec = s.sec := rfl
@[simp] theorem State.dropCarry_pins (s : State) (t : Nat) : (s.dropCarry t).pins = s.pins := rfl
@[simp] theorem State.dropCarry_outs (s : State) (t : Nat) : (s.dropCarry t).outs = s.outs := rfl

/-! ## `modRepair` -/

@[simp] theorem State.modRepair_pending (s : State) (g : Nat) (f : Repair → Repair) : (s.modRepair g f).pending = s.pending := rfl
@[simp] theorem State.modRepair_waiting (s : State) (g : Nat) (f : Repair → Repair) : (s.modRepair g f).waiting = s.waiting := rfl
@[simp] theorem State.modRepair_tally (s : State) (g : Nat) (f : Repair → Repair) : (s.modRepair g f).tally = s.tally := rfl
@[simp] theorem State.modRepair_tallyStepped (s : State) (g : Nat) (f : Repair → Repair) : (s.modRepair g f).tallyStepped = s.tallyStepped := rfl
@[simp] theorem State.modRepair_draws (s : State) (g : Nat) (f : Repair → Repair) : (s.modRepair g f).draws = s.draws := rfl
@[simp] theorem State.modRepair_regs (s : State) (g : Nat) (f : Repair → Repair) : (s.modRepair g f).regs = s.regs := rfl
@[simp] theorem State.modRepair_tiles (s : State) (g : Nat) (f : Repair → Repair) : (s.modRepair g f).tiles = s.tiles := rfl
@[simp] theorem State.modRepair_modeDue (s : State) (g : Nat) (f : Repair → Repair) : (s.modRepair g f).modeDue = s.modeDue := rfl
@[simp] theorem State.modRepair_mem (s : State) (g : Nat) (f : Repair → Repair) : (s.modRepair g f).mem = s.mem := rfl
@[simp] theorem State.modRepair_memPoison (s : State) (g : Nat) (f : Repair → Repair) : (s.modRepair g f).memPoison = s.memPoison := rfl
@[simp] theorem State.modRepair_memDamage (s : State) (g : Nat) (f : Repair → Repair) : (s.modRepair g f).memDamage = s.memDamage := rfl
@[simp] theorem State.modRepair_chans (s : State) (g : Nat) (f : Repair → Repair) : (s.modRepair g f).chans = s.chans := rfl
@[simp] theorem State.modRepair_host (s : State) (g : Nat) (f : Repair → Repair) : (s.modRepair g f).host = s.host := rfl
@[simp] theorem State.modRepair_hostPoison (s : State) (g : Nat) (f : Repair → Repair) : (s.modRepair g f).hostPoison = s.hostPoison := rfl
@[simp] theorem State.modRepair_boards (s : State) (g : Nat) (f : Repair → Repair) : (s.modRepair g f).boards = s.boards := rfl
@[simp] theorem State.modRepair_pools (s : State) (g : Nat) (f : Repair → Repair) : (s.modRepair g f).pools = s.pools := rfl
@[simp] theorem State.modRepair_items (s : State) (g : Nat) (f : Repair → Repair) : (s.modRepair g f).items = s.items := rfl
@[simp] theorem State.modRepair_nextItem (s : State) (g : Nat) (f : Repair → Repair) : (s.modRepair g f).nextItem = s.nextItem := rfl
@[simp] theorem State.modRepair_order4 (s : State) (g : Nat) (f : Repair → Repair) : (s.modRepair g f).order4 = s.order4 := rfl
@[simp] theorem State.modRepair_links (s : State) (g : Nat) (f : Repair → Repair) : (s.modRepair g f).links = s.links := rfl
@[simp] theorem State.modRepair_mgmtLeft (s : State) (g : Nat) (f : Repair → Repair) : (s.modRepair g f).mgmtLeft = s.mgmtLeft := rfl
@[simp] theorem State.modRepair_pseqs (s : State) (g : Nat) (f : Repair → Repair) : (s.modRepair g f).pseqs = s.pseqs := rfl
@[simp] theorem State.modRepair_deliveredSeqs (s : State) (g : Nat) (f : Repair → Repair) : (s.modRepair g f).deliveredSeqs = s.deliveredSeqs := rfl
@[simp] theorem State.modRepair_inbound (s : State) (g : Nat) (f : Repair → Repair) : (s.modRepair g f).inbound = s.inbound := rfl
@[simp] theorem State.modRepair_transfers (s : State) (g : Nat) (f : Repair → Repair) : (s.modRepair g f).transfers = s.transfers := rfl
@[simp] theorem State.modRepair_nextTransfer (s : State) (g : Nat) (f : Repair → Repair) : (s.modRepair g f).nextTransfer = s.nextTransfer := rfl
@[simp] theorem State.modRepair_landings (s : State) (g : Nat) (f : Repair → Repair) : (s.modRepair g f).landings = s.landings := rfl
@[simp] theorem State.modRepair_arriving (s : State) (g : Nat) (f : Repair → Repair) : (s.modRepair g f).arriving = s.arriving := rfl
@[simp] theorem State.modRepair_abortedKeys (s : State) (g : Nat) (f : Repair → Repair) : (s.modRepair g f).abortedKeys = s.abortedKeys := rfl
@[simp] theorem State.modRepair_windows (s : State) (g : Nat) (f : Repair → Repair) : (s.modRepair g f).windows = s.windows := rfl
@[simp] theorem State.modRepair_windowIns (s : State) (g : Nat) (f : Repair → Repair) : (s.modRepair g f).windowIns = s.windowIns := rfl
@[simp] theorem State.modRepair_peerRefs (s : State) (g : Nat) (f : Repair → Repair) : (s.modRepair g f).peerRefs = s.peerRefs := rfl
@[simp] theorem State.modRepair_tables (s : State) (g : Nat) (f : Repair → Repair) : (s.modRepair g f).tables = s.tables := rfl
@[simp] theorem State.modRepair_inboxes (s : State) (g : Nat) (f : Repair → Repair) : (s.modRepair g f).inboxes = s.inboxes := rfl
@[simp] theorem State.modRepair_grants (s : State) (g : Nat) (f : Repair → Repair) : (s.modRepair g f).grants = s.grants := rfl
@[simp] theorem State.modRepair_narrowing (s : State) (g : Nat) (f : Repair → Repair) : (s.modRepair g f).narrowing = s.narrowing := rfl
@[simp] theorem State.modRepair_fenceItems (s : State) (g : Nat) (f : Repair → Repair) : (s.modRepair g f).fenceItems = s.fenceItems := rfl
@[simp] theorem State.modRepair_fns (s : State) (g : Nat) (f : Repair → Repair) : (s.modRepair g f).fns = s.fns := rfl
@[simp] theorem State.modRepair_audit (s : State) (g : Nat) (f : Repair → Repair) : (s.modRepair g f).audit = s.audit := rfl
@[simp] theorem State.modRepair_carries (s : State) (g : Nat) (f : Repair → Repair) : (s.modRepair g f).carries = s.carries := rfl
@[simp] theorem State.modRepair_assay (s : State) (g : Nat) (f : Repair → Repair) : (s.modRepair g f).assay = s.assay := rfl
@[simp] theorem State.modRepair_power (s : State) (g : Nat) (f : Repair → Repair) : (s.modRepair g f).power = s.power := rfl
@[simp] theorem State.modRepair_sec (s : State) (g : Nat) (f : Repair → Repair) : (s.modRepair g f).sec = s.sec := rfl
@[simp] theorem State.modRepair_pins (s : State) (g : Nat) (f : Repair → Repair) : (s.modRepair g f).pins = s.pins := rfl
@[simp] theorem State.modRepair_outs (s : State) (g : Nat) (f : Repair → Repair) : (s.modRepair g f).outs = s.outs := rfl

/-! ## `putSlot` -/

@[simp] theorem State.putSlot_pending (s : State) (kind slot : Nat) (i : Image) : (s.putSlot kind slot i).pending = s.pending := rfl
@[simp] theorem State.putSlot_waiting (s : State) (kind slot : Nat) (i : Image) : (s.putSlot kind slot i).waiting = s.waiting := rfl
@[simp] theorem State.putSlot_tally (s : State) (kind slot : Nat) (i : Image) : (s.putSlot kind slot i).tally = s.tally := rfl
@[simp] theorem State.putSlot_tallyStepped (s : State) (kind slot : Nat) (i : Image) : (s.putSlot kind slot i).tallyStepped = s.tallyStepped := rfl
@[simp] theorem State.putSlot_draws (s : State) (kind slot : Nat) (i : Image) : (s.putSlot kind slot i).draws = s.draws := rfl
@[simp] theorem State.putSlot_regs (s : State) (kind slot : Nat) (i : Image) : (s.putSlot kind slot i).regs = s.regs := rfl
@[simp] theorem State.putSlot_tiles (s : State) (kind slot : Nat) (i : Image) : (s.putSlot kind slot i).tiles = s.tiles := rfl
@[simp] theorem State.putSlot_modeDue (s : State) (kind slot : Nat) (i : Image) : (s.putSlot kind slot i).modeDue = s.modeDue := rfl
@[simp] theorem State.putSlot_mem (s : State) (kind slot : Nat) (i : Image) : (s.putSlot kind slot i).mem = s.mem := rfl
@[simp] theorem State.putSlot_memPoison (s : State) (kind slot : Nat) (i : Image) : (s.putSlot kind slot i).memPoison = s.memPoison := rfl
@[simp] theorem State.putSlot_memDamage (s : State) (kind slot : Nat) (i : Image) : (s.putSlot kind slot i).memDamage = s.memDamage := rfl
@[simp] theorem State.putSlot_chans (s : State) (kind slot : Nat) (i : Image) : (s.putSlot kind slot i).chans = s.chans := rfl
@[simp] theorem State.putSlot_host (s : State) (kind slot : Nat) (i : Image) : (s.putSlot kind slot i).host = s.host := rfl
@[simp] theorem State.putSlot_hostPoison (s : State) (kind slot : Nat) (i : Image) : (s.putSlot kind slot i).hostPoison = s.hostPoison := rfl
@[simp] theorem State.putSlot_boards (s : State) (kind slot : Nat) (i : Image) : (s.putSlot kind slot i).boards = s.boards := rfl
@[simp] theorem State.putSlot_pools (s : State) (kind slot : Nat) (i : Image) : (s.putSlot kind slot i).pools = s.pools := rfl
@[simp] theorem State.putSlot_items (s : State) (kind slot : Nat) (i : Image) : (s.putSlot kind slot i).items = s.items := rfl
@[simp] theorem State.putSlot_nextItem (s : State) (kind slot : Nat) (i : Image) : (s.putSlot kind slot i).nextItem = s.nextItem := rfl
@[simp] theorem State.putSlot_order4 (s : State) (kind slot : Nat) (i : Image) : (s.putSlot kind slot i).order4 = s.order4 := rfl
@[simp] theorem State.putSlot_links (s : State) (kind slot : Nat) (i : Image) : (s.putSlot kind slot i).links = s.links := rfl
@[simp] theorem State.putSlot_mgmtLeft (s : State) (kind slot : Nat) (i : Image) : (s.putSlot kind slot i).mgmtLeft = s.mgmtLeft := rfl
@[simp] theorem State.putSlot_pseqs (s : State) (kind slot : Nat) (i : Image) : (s.putSlot kind slot i).pseqs = s.pseqs := rfl
@[simp] theorem State.putSlot_deliveredSeqs (s : State) (kind slot : Nat) (i : Image) : (s.putSlot kind slot i).deliveredSeqs = s.deliveredSeqs := rfl
@[simp] theorem State.putSlot_inbound (s : State) (kind slot : Nat) (i : Image) : (s.putSlot kind slot i).inbound = s.inbound := rfl
@[simp] theorem State.putSlot_transfers (s : State) (kind slot : Nat) (i : Image) : (s.putSlot kind slot i).transfers = s.transfers := rfl
@[simp] theorem State.putSlot_nextTransfer (s : State) (kind slot : Nat) (i : Image) : (s.putSlot kind slot i).nextTransfer = s.nextTransfer := rfl
@[simp] theorem State.putSlot_landings (s : State) (kind slot : Nat) (i : Image) : (s.putSlot kind slot i).landings = s.landings := rfl
@[simp] theorem State.putSlot_arriving (s : State) (kind slot : Nat) (i : Image) : (s.putSlot kind slot i).arriving = s.arriving := rfl
@[simp] theorem State.putSlot_abortedKeys (s : State) (kind slot : Nat) (i : Image) : (s.putSlot kind slot i).abortedKeys = s.abortedKeys := rfl
@[simp] theorem State.putSlot_windows (s : State) (kind slot : Nat) (i : Image) : (s.putSlot kind slot i).windows = s.windows := rfl
@[simp] theorem State.putSlot_windowIns (s : State) (kind slot : Nat) (i : Image) : (s.putSlot kind slot i).windowIns = s.windowIns := rfl
@[simp] theorem State.putSlot_peerRefs (s : State) (kind slot : Nat) (i : Image) : (s.putSlot kind slot i).peerRefs = s.peerRefs := rfl
@[simp] theorem State.putSlot_tables (s : State) (kind slot : Nat) (i : Image) : (s.putSlot kind slot i).tables = s.tables := rfl
@[simp] theorem State.putSlot_inboxes (s : State) (kind slot : Nat) (i : Image) : (s.putSlot kind slot i).inboxes = s.inboxes := rfl
@[simp] theorem State.putSlot_grants (s : State) (kind slot : Nat) (i : Image) : (s.putSlot kind slot i).grants = s.grants := rfl
@[simp] theorem State.putSlot_narrowing (s : State) (kind slot : Nat) (i : Image) : (s.putSlot kind slot i).narrowing = s.narrowing := rfl
@[simp] theorem State.putSlot_fenceItems (s : State) (kind slot : Nat) (i : Image) : (s.putSlot kind slot i).fenceItems = s.fenceItems := rfl
@[simp] theorem State.putSlot_fns (s : State) (kind slot : Nat) (i : Image) : (s.putSlot kind slot i).fns = s.fns := rfl
@[simp] theorem State.putSlot_audit (s : State) (kind slot : Nat) (i : Image) : (s.putSlot kind slot i).audit = s.audit := rfl
@[simp] theorem State.putSlot_carries (s : State) (kind slot : Nat) (i : Image) : (s.putSlot kind slot i).carries = s.carries := rfl
@[simp] theorem State.putSlot_repairs (s : State) (kind slot : Nat) (i : Image) : (s.putSlot kind slot i).repairs = s.repairs := rfl
@[simp] theorem State.putSlot_assay (s : State) (kind slot : Nat) (i : Image) : (s.putSlot kind slot i).assay = s.assay := rfl
@[simp] theorem State.putSlot_power (s : State) (kind slot : Nat) (i : Image) : (s.putSlot kind slot i).power = s.power := rfl
@[simp] theorem State.putSlot_pins (s : State) (kind slot : Nat) (i : Image) : (s.putSlot kind slot i).pins = s.pins := rfl
@[simp] theorem State.putSlot_outs (s : State) (kind slot : Nat) (i : Image) : (s.putSlot kind slot i).outs = s.outs := rfl

/-! ## `serveLoupe` -/

@[simp] theorem State.serveLoupe_pending (s : State) : (s.serveLoupe).pending = s.pending := rfl
@[simp] theorem State.serveLoupe_waiting (s : State) : (s.serveLoupe).waiting = s.waiting := rfl
@[simp] theorem State.serveLoupe_tally (s : State) : (s.serveLoupe).tally = s.tally := rfl
@[simp] theorem State.serveLoupe_tallyStepped (s : State) : (s.serveLoupe).tallyStepped = s.tallyStepped := rfl
@[simp] theorem State.serveLoupe_draws (s : State) : (s.serveLoupe).draws = s.draws := rfl
@[simp] theorem State.serveLoupe_regs (s : State) : (s.serveLoupe).regs = s.regs := rfl
@[simp] theorem State.serveLoupe_tiles (s : State) : (s.serveLoupe).tiles = s.tiles := rfl
@[simp] theorem State.serveLoupe_modeDue (s : State) : (s.serveLoupe).modeDue = s.modeDue := rfl
@[simp] theorem State.serveLoupe_mem (s : State) : (s.serveLoupe).mem = s.mem := rfl
@[simp] theorem State.serveLoupe_memPoison (s : State) : (s.serveLoupe).memPoison = s.memPoison := rfl
@[simp] theorem State.serveLoupe_memDamage (s : State) : (s.serveLoupe).memDamage = s.memDamage := rfl
@[simp] theorem State.serveLoupe_chans (s : State) : (s.serveLoupe).chans = s.chans := rfl
@[simp] theorem State.serveLoupe_host (s : State) : (s.serveLoupe).host = s.host := rfl
@[simp] theorem State.serveLoupe_hostPoison (s : State) : (s.serveLoupe).hostPoison = s.hostPoison := rfl
@[simp] theorem State.serveLoupe_boards (s : State) : (s.serveLoupe).boards = s.boards := rfl
@[simp] theorem State.serveLoupe_pools (s : State) : (s.serveLoupe).pools = s.pools := rfl
@[simp] theorem State.serveLoupe_items (s : State) : (s.serveLoupe).items = s.items := rfl
@[simp] theorem State.serveLoupe_nextItem (s : State) : (s.serveLoupe).nextItem = s.nextItem := rfl
@[simp] theorem State.serveLoupe_order4 (s : State) : (s.serveLoupe).order4 = s.order4 := rfl
@[simp] theorem State.serveLoupe_links (s : State) : (s.serveLoupe).links = s.links := rfl
@[simp] theorem State.serveLoupe_mgmtLeft (s : State) : (s.serveLoupe).mgmtLeft = s.mgmtLeft := rfl
@[simp] theorem State.serveLoupe_pseqs (s : State) : (s.serveLoupe).pseqs = s.pseqs := rfl
@[simp] theorem State.serveLoupe_deliveredSeqs (s : State) : (s.serveLoupe).deliveredSeqs = s.deliveredSeqs := rfl
@[simp] theorem State.serveLoupe_inbound (s : State) : (s.serveLoupe).inbound = s.inbound := rfl
@[simp] theorem State.serveLoupe_transfers (s : State) : (s.serveLoupe).transfers = s.transfers := rfl
@[simp] theorem State.serveLoupe_nextTransfer (s : State) : (s.serveLoupe).nextTransfer = s.nextTransfer := rfl
@[simp] theorem State.serveLoupe_landings (s : State) : (s.serveLoupe).landings = s.landings := rfl
@[simp] theorem State.serveLoupe_arriving (s : State) : (s.serveLoupe).arriving = s.arriving := rfl
@[simp] theorem State.serveLoupe_abortedKeys (s : State) : (s.serveLoupe).abortedKeys = s.abortedKeys := rfl
@[simp] theorem State.serveLoupe_windows (s : State) : (s.serveLoupe).windows = s.windows := rfl
@[simp] theorem State.serveLoupe_windowIns (s : State) : (s.serveLoupe).windowIns = s.windowIns := rfl
@[simp] theorem State.serveLoupe_peerRefs (s : State) : (s.serveLoupe).peerRefs = s.peerRefs := rfl
@[simp] theorem State.serveLoupe_tables (s : State) : (s.serveLoupe).tables = s.tables := rfl
@[simp] theorem State.serveLoupe_inboxes (s : State) : (s.serveLoupe).inboxes = s.inboxes := rfl
@[simp] theorem State.serveLoupe_grants (s : State) : (s.serveLoupe).grants = s.grants := rfl
@[simp] theorem State.serveLoupe_narrowing (s : State) : (s.serveLoupe).narrowing = s.narrowing := rfl
@[simp] theorem State.serveLoupe_fenceItems (s : State) : (s.serveLoupe).fenceItems = s.fenceItems := rfl
@[simp] theorem State.serveLoupe_fns (s : State) : (s.serveLoupe).fns = s.fns := rfl
@[simp] theorem State.serveLoupe_audit (s : State) : (s.serveLoupe).audit = s.audit := rfl
@[simp] theorem State.serveLoupe_carries (s : State) : (s.serveLoupe).carries = s.carries := rfl
@[simp] theorem State.serveLoupe_repairs (s : State) : (s.serveLoupe).repairs = s.repairs := rfl
@[simp] theorem State.serveLoupe_assay (s : State) : (s.serveLoupe).assay = s.assay := rfl
@[simp] theorem State.serveLoupe_power (s : State) : (s.serveLoupe).power = s.power := rfl
@[simp] theorem State.serveLoupe_sec (s : State) : (s.serveLoupe).sec = s.sec := rfl
@[simp] theorem State.serveLoupe_pins (s : State) : (s.serveLoupe).pins = s.pins := rfl

/-! ## `refuseLoupe` -/

@[simp] theorem State.refuseLoupe_pending (s : State) : (s.refuseLoupe).pending = s.pending := rfl
@[simp] theorem State.refuseLoupe_waiting (s : State) : (s.refuseLoupe).waiting = s.waiting := rfl
@[simp] theorem State.refuseLoupe_tally (s : State) : (s.refuseLoupe).tally = s.tally := rfl
@[simp] theorem State.refuseLoupe_tallyStepped (s : State) : (s.refuseLoupe).tallyStepped = s.tallyStepped := rfl
@[simp] theorem State.refuseLoupe_draws (s : State) : (s.refuseLoupe).draws = s.draws := rfl
@[simp] theorem State.refuseLoupe_regs (s : State) : (s.refuseLoupe).regs = s.regs := rfl
@[simp] theorem State.refuseLoupe_tiles (s : State) : (s.refuseLoupe).tiles = s.tiles := rfl
@[simp] theorem State.refuseLoupe_modeDue (s : State) : (s.refuseLoupe).modeDue = s.modeDue := rfl
@[simp] theorem State.refuseLoupe_mem (s : State) : (s.refuseLoupe).mem = s.mem := rfl
@[simp] theorem State.refuseLoupe_memPoison (s : State) : (s.refuseLoupe).memPoison = s.memPoison := rfl
@[simp] theorem State.refuseLoupe_memDamage (s : State) : (s.refuseLoupe).memDamage = s.memDamage := rfl
@[simp] theorem State.refuseLoupe_chans (s : State) : (s.refuseLoupe).chans = s.chans := rfl
@[simp] theorem State.refuseLoupe_host (s : State) : (s.refuseLoupe).host = s.host := rfl
@[simp] theorem State.refuseLoupe_hostPoison (s : State) : (s.refuseLoupe).hostPoison = s.hostPoison := rfl
@[simp] theorem State.refuseLoupe_boards (s : State) : (s.refuseLoupe).boards = s.boards := rfl
@[simp] theorem State.refuseLoupe_pools (s : State) : (s.refuseLoupe).pools = s.pools := rfl
@[simp] theorem State.refuseLoupe_items (s : State) : (s.refuseLoupe).items = s.items := rfl
@[simp] theorem State.refuseLoupe_nextItem (s : State) : (s.refuseLoupe).nextItem = s.nextItem := rfl
@[simp] theorem State.refuseLoupe_order4 (s : State) : (s.refuseLoupe).order4 = s.order4 := rfl
@[simp] theorem State.refuseLoupe_links (s : State) : (s.refuseLoupe).links = s.links := rfl
@[simp] theorem State.refuseLoupe_mgmtLeft (s : State) : (s.refuseLoupe).mgmtLeft = s.mgmtLeft := rfl
@[simp] theorem State.refuseLoupe_pseqs (s : State) : (s.refuseLoupe).pseqs = s.pseqs := rfl
@[simp] theorem State.refuseLoupe_deliveredSeqs (s : State) : (s.refuseLoupe).deliveredSeqs = s.deliveredSeqs := rfl
@[simp] theorem State.refuseLoupe_inbound (s : State) : (s.refuseLoupe).inbound = s.inbound := rfl
@[simp] theorem State.refuseLoupe_transfers (s : State) : (s.refuseLoupe).transfers = s.transfers := rfl
@[simp] theorem State.refuseLoupe_nextTransfer (s : State) : (s.refuseLoupe).nextTransfer = s.nextTransfer := rfl
@[simp] theorem State.refuseLoupe_landings (s : State) : (s.refuseLoupe).landings = s.landings := rfl
@[simp] theorem State.refuseLoupe_arriving (s : State) : (s.refuseLoupe).arriving = s.arriving := rfl
@[simp] theorem State.refuseLoupe_abortedKeys (s : State) : (s.refuseLoupe).abortedKeys = s.abortedKeys := rfl
@[simp] theorem State.refuseLoupe_windows (s : State) : (s.refuseLoupe).windows = s.windows := rfl
@[simp] theorem State.refuseLoupe_windowIns (s : State) : (s.refuseLoupe).windowIns = s.windowIns := rfl
@[simp] theorem State.refuseLoupe_peerRefs (s : State) : (s.refuseLoupe).peerRefs = s.peerRefs := rfl
@[simp] theorem State.refuseLoupe_tables (s : State) : (s.refuseLoupe).tables = s.tables := rfl
@[simp] theorem State.refuseLoupe_inboxes (s : State) : (s.refuseLoupe).inboxes = s.inboxes := rfl
@[simp] theorem State.refuseLoupe_grants (s : State) : (s.refuseLoupe).grants = s.grants := rfl
@[simp] theorem State.refuseLoupe_narrowing (s : State) : (s.refuseLoupe).narrowing = s.narrowing := rfl
@[simp] theorem State.refuseLoupe_fenceItems (s : State) : (s.refuseLoupe).fenceItems = s.fenceItems := rfl
@[simp] theorem State.refuseLoupe_fns (s : State) : (s.refuseLoupe).fns = s.fns := rfl
@[simp] theorem State.refuseLoupe_audit (s : State) : (s.refuseLoupe).audit = s.audit := rfl
@[simp] theorem State.refuseLoupe_carries (s : State) : (s.refuseLoupe).carries = s.carries := rfl
@[simp] theorem State.refuseLoupe_repairs (s : State) : (s.refuseLoupe).repairs = s.repairs := rfl
@[simp] theorem State.refuseLoupe_assay (s : State) : (s.refuseLoupe).assay = s.assay := rfl
@[simp] theorem State.refuseLoupe_power (s : State) : (s.refuseLoupe).power = s.power := rfl
@[simp] theorem State.refuseLoupe_sec (s : State) : (s.refuseLoupe).sec = s.sec := rfl
@[simp] theorem State.refuseLoupe_pins (s : State) : (s.refuseLoupe).pins = s.pins := rfl

/-! ## `giveLoupe` -/

@[simp] theorem State.giveLoupe_pending (s : State) (v : Word64) : (s.giveLoupe v).pending = s.pending := rfl
@[simp] theorem State.giveLoupe_waiting (s : State) (v : Word64) : (s.giveLoupe v).waiting = s.waiting := rfl
@[simp] theorem State.giveLoupe_tally (s : State) (v : Word64) : (s.giveLoupe v).tally = s.tally := rfl
@[simp] theorem State.giveLoupe_tallyStepped (s : State) (v : Word64) : (s.giveLoupe v).tallyStepped = s.tallyStepped := rfl
@[simp] theorem State.giveLoupe_draws (s : State) (v : Word64) : (s.giveLoupe v).draws = s.draws := rfl
@[simp] theorem State.giveLoupe_regs (s : State) (v : Word64) : (s.giveLoupe v).regs = s.regs := rfl
@[simp] theorem State.giveLoupe_tiles (s : State) (v : Word64) : (s.giveLoupe v).tiles = s.tiles := rfl
@[simp] theorem State.giveLoupe_modeDue (s : State) (v : Word64) : (s.giveLoupe v).modeDue = s.modeDue := rfl
@[simp] theorem State.giveLoupe_mem (s : State) (v : Word64) : (s.giveLoupe v).mem = s.mem := rfl
@[simp] theorem State.giveLoupe_memPoison (s : State) (v : Word64) : (s.giveLoupe v).memPoison = s.memPoison := rfl
@[simp] theorem State.giveLoupe_memDamage (s : State) (v : Word64) : (s.giveLoupe v).memDamage = s.memDamage := rfl
@[simp] theorem State.giveLoupe_chans (s : State) (v : Word64) : (s.giveLoupe v).chans = s.chans := rfl
@[simp] theorem State.giveLoupe_host (s : State) (v : Word64) : (s.giveLoupe v).host = s.host := rfl
@[simp] theorem State.giveLoupe_hostPoison (s : State) (v : Word64) : (s.giveLoupe v).hostPoison = s.hostPoison := rfl
@[simp] theorem State.giveLoupe_boards (s : State) (v : Word64) : (s.giveLoupe v).boards = s.boards := rfl
@[simp] theorem State.giveLoupe_pools (s : State) (v : Word64) : (s.giveLoupe v).pools = s.pools := rfl
@[simp] theorem State.giveLoupe_items (s : State) (v : Word64) : (s.giveLoupe v).items = s.items := rfl
@[simp] theorem State.giveLoupe_nextItem (s : State) (v : Word64) : (s.giveLoupe v).nextItem = s.nextItem := rfl
@[simp] theorem State.giveLoupe_order4 (s : State) (v : Word64) : (s.giveLoupe v).order4 = s.order4 := rfl
@[simp] theorem State.giveLoupe_links (s : State) (v : Word64) : (s.giveLoupe v).links = s.links := rfl
@[simp] theorem State.giveLoupe_mgmtLeft (s : State) (v : Word64) : (s.giveLoupe v).mgmtLeft = s.mgmtLeft := rfl
@[simp] theorem State.giveLoupe_pseqs (s : State) (v : Word64) : (s.giveLoupe v).pseqs = s.pseqs := rfl
@[simp] theorem State.giveLoupe_deliveredSeqs (s : State) (v : Word64) : (s.giveLoupe v).deliveredSeqs = s.deliveredSeqs := rfl
@[simp] theorem State.giveLoupe_inbound (s : State) (v : Word64) : (s.giveLoupe v).inbound = s.inbound := rfl
@[simp] theorem State.giveLoupe_transfers (s : State) (v : Word64) : (s.giveLoupe v).transfers = s.transfers := rfl
@[simp] theorem State.giveLoupe_nextTransfer (s : State) (v : Word64) : (s.giveLoupe v).nextTransfer = s.nextTransfer := rfl
@[simp] theorem State.giveLoupe_landings (s : State) (v : Word64) : (s.giveLoupe v).landings = s.landings := rfl
@[simp] theorem State.giveLoupe_arriving (s : State) (v : Word64) : (s.giveLoupe v).arriving = s.arriving := rfl
@[simp] theorem State.giveLoupe_abortedKeys (s : State) (v : Word64) : (s.giveLoupe v).abortedKeys = s.abortedKeys := rfl
@[simp] theorem State.giveLoupe_windows (s : State) (v : Word64) : (s.giveLoupe v).windows = s.windows := rfl
@[simp] theorem State.giveLoupe_windowIns (s : State) (v : Word64) : (s.giveLoupe v).windowIns = s.windowIns := rfl
@[simp] theorem State.giveLoupe_peerRefs (s : State) (v : Word64) : (s.giveLoupe v).peerRefs = s.peerRefs := rfl
@[simp] theorem State.giveLoupe_tables (s : State) (v : Word64) : (s.giveLoupe v).tables = s.tables := rfl
@[simp] theorem State.giveLoupe_inboxes (s : State) (v : Word64) : (s.giveLoupe v).inboxes = s.inboxes := rfl
@[simp] theorem State.giveLoupe_grants (s : State) (v : Word64) : (s.giveLoupe v).grants = s.grants := rfl
@[simp] theorem State.giveLoupe_narrowing (s : State) (v : Word64) : (s.giveLoupe v).narrowing = s.narrowing := rfl
@[simp] theorem State.giveLoupe_fenceItems (s : State) (v : Word64) : (s.giveLoupe v).fenceItems = s.fenceItems := rfl
@[simp] theorem State.giveLoupe_fns (s : State) (v : Word64) : (s.giveLoupe v).fns = s.fns := rfl
@[simp] theorem State.giveLoupe_audit (s : State) (v : Word64) : (s.giveLoupe v).audit = s.audit := rfl
@[simp] theorem State.giveLoupe_carries (s : State) (v : Word64) : (s.giveLoupe v).carries = s.carries := rfl
@[simp] theorem State.giveLoupe_repairs (s : State) (v : Word64) : (s.giveLoupe v).repairs = s.repairs := rfl
@[simp] theorem State.giveLoupe_assay (s : State) (v : Word64) : (s.giveLoupe v).assay = s.assay := rfl
@[simp] theorem State.giveLoupe_power (s : State) (v : Word64) : (s.giveLoupe v).power = s.power := rfl
@[simp] theorem State.giveLoupe_sec (s : State) (v : Word64) : (s.giveLoupe v).sec = s.sec := rfl
@[simp] theorem State.giveLoupe_pins (s : State) (v : Word64) : (s.giveLoupe v).pins = s.pins := rfl

/-! ## `debugTap` -/

@[simp] theorem State.debugTap_pending (s : State) : (s.debugTap).pending = s.pending := rfl
@[simp] theorem State.debugTap_waiting (s : State) : (s.debugTap).waiting = s.waiting := rfl
@[simp] theorem State.debugTap_tally (s : State) : (s.debugTap).tally = s.tally := rfl
@[simp] theorem State.debugTap_tallyStepped (s : State) : (s.debugTap).tallyStepped = s.tallyStepped := rfl
@[simp] theorem State.debugTap_regs (s : State) : (s.debugTap).regs = s.regs := rfl
@[simp] theorem State.debugTap_tiles (s : State) : (s.debugTap).tiles = s.tiles := rfl
@[simp] theorem State.debugTap_modeDue (s : State) : (s.debugTap).modeDue = s.modeDue := rfl
@[simp] theorem State.debugTap_mem (s : State) : (s.debugTap).mem = s.mem := rfl
@[simp] theorem State.debugTap_memPoison (s : State) : (s.debugTap).memPoison = s.memPoison := rfl
@[simp] theorem State.debugTap_memDamage (s : State) : (s.debugTap).memDamage = s.memDamage := rfl
@[simp] theorem State.debugTap_chans (s : State) : (s.debugTap).chans = s.chans := rfl
@[simp] theorem State.debugTap_host (s : State) : (s.debugTap).host = s.host := rfl
@[simp] theorem State.debugTap_hostPoison (s : State) : (s.debugTap).hostPoison = s.hostPoison := rfl
@[simp] theorem State.debugTap_boards (s : State) : (s.debugTap).boards = s.boards := rfl
@[simp] theorem State.debugTap_pools (s : State) : (s.debugTap).pools = s.pools := rfl
@[simp] theorem State.debugTap_items (s : State) : (s.debugTap).items = s.items := rfl
@[simp] theorem State.debugTap_nextItem (s : State) : (s.debugTap).nextItem = s.nextItem := rfl
@[simp] theorem State.debugTap_order4 (s : State) : (s.debugTap).order4 = s.order4 := rfl
@[simp] theorem State.debugTap_links (s : State) : (s.debugTap).links = s.links := rfl
@[simp] theorem State.debugTap_mgmtLeft (s : State) : (s.debugTap).mgmtLeft = s.mgmtLeft := rfl
@[simp] theorem State.debugTap_pseqs (s : State) : (s.debugTap).pseqs = s.pseqs := rfl
@[simp] theorem State.debugTap_deliveredSeqs (s : State) : (s.debugTap).deliveredSeqs = s.deliveredSeqs := rfl
@[simp] theorem State.debugTap_inbound (s : State) : (s.debugTap).inbound = s.inbound := rfl
@[simp] theorem State.debugTap_transfers (s : State) : (s.debugTap).transfers = s.transfers := rfl
@[simp] theorem State.debugTap_nextTransfer (s : State) : (s.debugTap).nextTransfer = s.nextTransfer := rfl
@[simp] theorem State.debugTap_landings (s : State) : (s.debugTap).landings = s.landings := rfl
@[simp] theorem State.debugTap_arriving (s : State) : (s.debugTap).arriving = s.arriving := rfl
@[simp] theorem State.debugTap_abortedKeys (s : State) : (s.debugTap).abortedKeys = s.abortedKeys := rfl
@[simp] theorem State.debugTap_windows (s : State) : (s.debugTap).windows = s.windows := rfl
@[simp] theorem State.debugTap_windowIns (s : State) : (s.debugTap).windowIns = s.windowIns := rfl
@[simp] theorem State.debugTap_peerRefs (s : State) : (s.debugTap).peerRefs = s.peerRefs := rfl
@[simp] theorem State.debugTap_tables (s : State) : (s.debugTap).tables = s.tables := rfl
@[simp] theorem State.debugTap_inboxes (s : State) : (s.debugTap).inboxes = s.inboxes := rfl
@[simp] theorem State.debugTap_grants (s : State) : (s.debugTap).grants = s.grants := rfl
@[simp] theorem State.debugTap_narrowing (s : State) : (s.debugTap).narrowing = s.narrowing := rfl
@[simp] theorem State.debugTap_fenceItems (s : State) : (s.debugTap).fenceItems = s.fenceItems := rfl
@[simp] theorem State.debugTap_fns (s : State) : (s.debugTap).fns = s.fns := rfl
@[simp] theorem State.debugTap_audit (s : State) : (s.debugTap).audit = s.audit := rfl
@[simp] theorem State.debugTap_carries (s : State) : (s.debugTap).carries = s.carries := rfl
@[simp] theorem State.debugTap_repairs (s : State) : (s.debugTap).repairs = s.repairs := rfl
@[simp] theorem State.debugTap_assay (s : State) : (s.debugTap).assay = s.assay := rfl
@[simp] theorem State.debugTap_power (s : State) : (s.debugTap).power = s.power := rfl
@[simp] theorem State.debugTap_sec (s : State) : (s.debugTap).sec = s.sec := rfl
@[simp] theorem State.debugTap_outs (s : State) : (s.debugTap).outs = s.outs := rfl

/-! ## `tap` -/

@[simp] theorem State.tap_pending (s : State) (ir : BitVec 8) (dr : List Bool) : (s.tap ir dr).pending = s.pending := rfl
@[simp] theorem State.tap_waiting (s : State) (ir : BitVec 8) (dr : List Bool) : (s.tap ir dr).waiting = s.waiting := rfl
@[simp] theorem State.tap_tally (s : State) (ir : BitVec 8) (dr : List Bool) : (s.tap ir dr).tally = s.tally := rfl
@[simp] theorem State.tap_tallyStepped (s : State) (ir : BitVec 8) (dr : List Bool) : (s.tap ir dr).tallyStepped = s.tallyStepped := rfl
@[simp] theorem State.tap_draws (s : State) (ir : BitVec 8) (dr : List Bool) : (s.tap ir dr).draws = s.draws := rfl
@[simp] theorem State.tap_regs (s : State) (ir : BitVec 8) (dr : List Bool) : (s.tap ir dr).regs = s.regs := rfl
@[simp] theorem State.tap_tiles (s : State) (ir : BitVec 8) (dr : List Bool) : (s.tap ir dr).tiles = s.tiles := rfl
@[simp] theorem State.tap_modeDue (s : State) (ir : BitVec 8) (dr : List Bool) : (s.tap ir dr).modeDue = s.modeDue := rfl
@[simp] theorem State.tap_mem (s : State) (ir : BitVec 8) (dr : List Bool) : (s.tap ir dr).mem = s.mem := rfl
@[simp] theorem State.tap_memPoison (s : State) (ir : BitVec 8) (dr : List Bool) : (s.tap ir dr).memPoison = s.memPoison := rfl
@[simp] theorem State.tap_memDamage (s : State) (ir : BitVec 8) (dr : List Bool) : (s.tap ir dr).memDamage = s.memDamage := rfl
@[simp] theorem State.tap_chans (s : State) (ir : BitVec 8) (dr : List Bool) : (s.tap ir dr).chans = s.chans := rfl
@[simp] theorem State.tap_host (s : State) (ir : BitVec 8) (dr : List Bool) : (s.tap ir dr).host = s.host := rfl
@[simp] theorem State.tap_hostPoison (s : State) (ir : BitVec 8) (dr : List Bool) : (s.tap ir dr).hostPoison = s.hostPoison := rfl
@[simp] theorem State.tap_boards (s : State) (ir : BitVec 8) (dr : List Bool) : (s.tap ir dr).boards = s.boards := rfl
@[simp] theorem State.tap_pools (s : State) (ir : BitVec 8) (dr : List Bool) : (s.tap ir dr).pools = s.pools := rfl
@[simp] theorem State.tap_items (s : State) (ir : BitVec 8) (dr : List Bool) : (s.tap ir dr).items = s.items := rfl
@[simp] theorem State.tap_nextItem (s : State) (ir : BitVec 8) (dr : List Bool) : (s.tap ir dr).nextItem = s.nextItem := rfl
@[simp] theorem State.tap_order4 (s : State) (ir : BitVec 8) (dr : List Bool) : (s.tap ir dr).order4 = s.order4 := rfl
@[simp] theorem State.tap_links (s : State) (ir : BitVec 8) (dr : List Bool) : (s.tap ir dr).links = s.links := rfl
@[simp] theorem State.tap_mgmtLeft (s : State) (ir : BitVec 8) (dr : List Bool) : (s.tap ir dr).mgmtLeft = s.mgmtLeft := rfl
@[simp] theorem State.tap_pseqs (s : State) (ir : BitVec 8) (dr : List Bool) : (s.tap ir dr).pseqs = s.pseqs := rfl
@[simp] theorem State.tap_deliveredSeqs (s : State) (ir : BitVec 8) (dr : List Bool) : (s.tap ir dr).deliveredSeqs = s.deliveredSeqs := rfl
@[simp] theorem State.tap_inbound (s : State) (ir : BitVec 8) (dr : List Bool) : (s.tap ir dr).inbound = s.inbound := rfl
@[simp] theorem State.tap_transfers (s : State) (ir : BitVec 8) (dr : List Bool) : (s.tap ir dr).transfers = s.transfers := rfl
@[simp] theorem State.tap_nextTransfer (s : State) (ir : BitVec 8) (dr : List Bool) : (s.tap ir dr).nextTransfer = s.nextTransfer := rfl
@[simp] theorem State.tap_landings (s : State) (ir : BitVec 8) (dr : List Bool) : (s.tap ir dr).landings = s.landings := rfl
@[simp] theorem State.tap_arriving (s : State) (ir : BitVec 8) (dr : List Bool) : (s.tap ir dr).arriving = s.arriving := rfl
@[simp] theorem State.tap_abortedKeys (s : State) (ir : BitVec 8) (dr : List Bool) : (s.tap ir dr).abortedKeys = s.abortedKeys := rfl
@[simp] theorem State.tap_windows (s : State) (ir : BitVec 8) (dr : List Bool) : (s.tap ir dr).windows = s.windows := rfl
@[simp] theorem State.tap_windowIns (s : State) (ir : BitVec 8) (dr : List Bool) : (s.tap ir dr).windowIns = s.windowIns := rfl
@[simp] theorem State.tap_peerRefs (s : State) (ir : BitVec 8) (dr : List Bool) : (s.tap ir dr).peerRefs = s.peerRefs := rfl
@[simp] theorem State.tap_tables (s : State) (ir : BitVec 8) (dr : List Bool) : (s.tap ir dr).tables = s.tables := rfl
@[simp] theorem State.tap_inboxes (s : State) (ir : BitVec 8) (dr : List Bool) : (s.tap ir dr).inboxes = s.inboxes := rfl
@[simp] theorem State.tap_grants (s : State) (ir : BitVec 8) (dr : List Bool) : (s.tap ir dr).grants = s.grants := rfl
@[simp] theorem State.tap_narrowing (s : State) (ir : BitVec 8) (dr : List Bool) : (s.tap ir dr).narrowing = s.narrowing := rfl
@[simp] theorem State.tap_fenceItems (s : State) (ir : BitVec 8) (dr : List Bool) : (s.tap ir dr).fenceItems = s.fenceItems := rfl
@[simp] theorem State.tap_fns (s : State) (ir : BitVec 8) (dr : List Bool) : (s.tap ir dr).fns = s.fns := rfl
@[simp] theorem State.tap_audit (s : State) (ir : BitVec 8) (dr : List Bool) : (s.tap ir dr).audit = s.audit := rfl
@[simp] theorem State.tap_carries (s : State) (ir : BitVec 8) (dr : List Bool) : (s.tap ir dr).carries = s.carries := rfl
@[simp] theorem State.tap_repairs (s : State) (ir : BitVec 8) (dr : List Bool) : (s.tap ir dr).repairs = s.repairs := rfl
@[simp] theorem State.tap_assay (s : State) (ir : BitVec 8) (dr : List Bool) : (s.tap ir dr).assay = s.assay := rfl
@[simp] theorem State.tap_power (s : State) (ir : BitVec 8) (dr : List Bool) : (s.tap ir dr).power = s.power := rfl
@[simp] theorem State.tap_sec (s : State) (ir : BitVec 8) (dr : List Bool) : (s.tap ir dr).sec = s.sec := rfl

/-! ## `eraseIde` -/

@[simp] theorem State.eraseIde_pending (s : State) : (s.eraseIde).pending = s.pending := rfl
@[simp] theorem State.eraseIde_waiting (s : State) : (s.eraseIde).waiting = s.waiting := rfl
@[simp] theorem State.eraseIde_tally (s : State) : (s.eraseIde).tally = s.tally := rfl
@[simp] theorem State.eraseIde_tallyStepped (s : State) : (s.eraseIde).tallyStepped = s.tallyStepped := rfl
@[simp] theorem State.eraseIde_draws (s : State) : (s.eraseIde).draws = s.draws := rfl
@[simp] theorem State.eraseIde_regs (s : State) : (s.eraseIde).regs = s.regs := rfl
@[simp] theorem State.eraseIde_tiles (s : State) : (s.eraseIde).tiles = s.tiles := rfl
@[simp] theorem State.eraseIde_modeDue (s : State) : (s.eraseIde).modeDue = s.modeDue := rfl
@[simp] theorem State.eraseIde_mem (s : State) : (s.eraseIde).mem = s.mem := rfl
@[simp] theorem State.eraseIde_memPoison (s : State) : (s.eraseIde).memPoison = s.memPoison := rfl
@[simp] theorem State.eraseIde_memDamage (s : State) : (s.eraseIde).memDamage = s.memDamage := rfl
@[simp] theorem State.eraseIde_chans (s : State) : (s.eraseIde).chans = s.chans := rfl
@[simp] theorem State.eraseIde_host (s : State) : (s.eraseIde).host = s.host := rfl
@[simp] theorem State.eraseIde_hostPoison (s : State) : (s.eraseIde).hostPoison = s.hostPoison := rfl
@[simp] theorem State.eraseIde_boards (s : State) : (s.eraseIde).boards = s.boards := rfl
@[simp] theorem State.eraseIde_pools (s : State) : (s.eraseIde).pools = s.pools := rfl
@[simp] theorem State.eraseIde_items (s : State) : (s.eraseIde).items = s.items := rfl
@[simp] theorem State.eraseIde_nextItem (s : State) : (s.eraseIde).nextItem = s.nextItem := rfl
@[simp] theorem State.eraseIde_order4 (s : State) : (s.eraseIde).order4 = s.order4 := rfl
@[simp] theorem State.eraseIde_links (s : State) : (s.eraseIde).links = s.links := rfl
@[simp] theorem State.eraseIde_mgmtLeft (s : State) : (s.eraseIde).mgmtLeft = s.mgmtLeft := rfl
@[simp] theorem State.eraseIde_pseqs (s : State) : (s.eraseIde).pseqs = s.pseqs := rfl
@[simp] theorem State.eraseIde_deliveredSeqs (s : State) : (s.eraseIde).deliveredSeqs = s.deliveredSeqs := rfl
@[simp] theorem State.eraseIde_inbound (s : State) : (s.eraseIde).inbound = s.inbound := rfl
@[simp] theorem State.eraseIde_transfers (s : State) : (s.eraseIde).transfers = s.transfers := rfl
@[simp] theorem State.eraseIde_nextTransfer (s : State) : (s.eraseIde).nextTransfer = s.nextTransfer := rfl
@[simp] theorem State.eraseIde_landings (s : State) : (s.eraseIde).landings = s.landings := rfl
@[simp] theorem State.eraseIde_arriving (s : State) : (s.eraseIde).arriving = s.arriving := rfl
@[simp] theorem State.eraseIde_abortedKeys (s : State) : (s.eraseIde).abortedKeys = s.abortedKeys := rfl
@[simp] theorem State.eraseIde_windows (s : State) : (s.eraseIde).windows = s.windows := rfl
@[simp] theorem State.eraseIde_windowIns (s : State) : (s.eraseIde).windowIns = s.windowIns := rfl
@[simp] theorem State.eraseIde_peerRefs (s : State) : (s.eraseIde).peerRefs = s.peerRefs := rfl
@[simp] theorem State.eraseIde_tables (s : State) : (s.eraseIde).tables = s.tables := rfl
@[simp] theorem State.eraseIde_inboxes (s : State) : (s.eraseIde).inboxes = s.inboxes := rfl
@[simp] theorem State.eraseIde_grants (s : State) : (s.eraseIde).grants = s.grants := rfl
@[simp] theorem State.eraseIde_narrowing (s : State) : (s.eraseIde).narrowing = s.narrowing := rfl
@[simp] theorem State.eraseIde_fenceItems (s : State) : (s.eraseIde).fenceItems = s.fenceItems := rfl
@[simp] theorem State.eraseIde_fns (s : State) : (s.eraseIde).fns = s.fns := rfl
@[simp] theorem State.eraseIde_audit (s : State) : (s.eraseIde).audit = s.audit := rfl
@[simp] theorem State.eraseIde_carries (s : State) : (s.eraseIde).carries = s.carries := rfl
@[simp] theorem State.eraseIde_repairs (s : State) : (s.eraseIde).repairs = s.repairs := rfl
@[simp] theorem State.eraseIde_assay (s : State) : (s.eraseIde).assay = s.assay := rfl
@[simp] theorem State.eraseIde_power (s : State) : (s.eraseIde).power = s.power := rfl
@[simp] theorem State.eraseIde_pins (s : State) : (s.eraseIde).pins = s.pins := rfl
@[simp] theorem State.eraseIde_outs (s : State) : (s.eraseIde).outs = s.outs := rfl

/-! ## `clearChan` -/

@[simp] theorem State.clearChan_pending (s : State) (c : Nat) : (s.clearChan c).pending = s.pending := rfl
@[simp] theorem State.clearChan_waiting (s : State) (c : Nat) : (s.clearChan c).waiting = s.waiting := rfl
@[simp] theorem State.clearChan_tally (s : State) (c : Nat) : (s.clearChan c).tally = s.tally := rfl
@[simp] theorem State.clearChan_tallyStepped (s : State) (c : Nat) : (s.clearChan c).tallyStepped = s.tallyStepped := rfl
@[simp] theorem State.clearChan_draws (s : State) (c : Nat) : (s.clearChan c).draws = s.draws := rfl
@[simp] theorem State.clearChan_regs (s : State) (c : Nat) : (s.clearChan c).regs = s.regs := rfl
@[simp] theorem State.clearChan_tiles (s : State) (c : Nat) : (s.clearChan c).tiles = s.tiles := rfl
@[simp] theorem State.clearChan_modeDue (s : State) (c : Nat) : (s.clearChan c).modeDue = s.modeDue := rfl
@[simp] theorem State.clearChan_chans (s : State) (c : Nat) : (s.clearChan c).chans = s.chans := rfl
@[simp] theorem State.clearChan_host (s : State) (c : Nat) : (s.clearChan c).host = s.host := rfl
@[simp] theorem State.clearChan_hostPoison (s : State) (c : Nat) : (s.clearChan c).hostPoison = s.hostPoison := rfl
@[simp] theorem State.clearChan_boards (s : State) (c : Nat) : (s.clearChan c).boards = s.boards := rfl
@[simp] theorem State.clearChan_pools (s : State) (c : Nat) : (s.clearChan c).pools = s.pools := rfl
@[simp] theorem State.clearChan_items (s : State) (c : Nat) : (s.clearChan c).items = s.items := rfl
@[simp] theorem State.clearChan_nextItem (s : State) (c : Nat) : (s.clearChan c).nextItem = s.nextItem := rfl
@[simp] theorem State.clearChan_order4 (s : State) (c : Nat) : (s.clearChan c).order4 = s.order4 := rfl
@[simp] theorem State.clearChan_links (s : State) (c : Nat) : (s.clearChan c).links = s.links := rfl
@[simp] theorem State.clearChan_mgmtLeft (s : State) (c : Nat) : (s.clearChan c).mgmtLeft = s.mgmtLeft := rfl
@[simp] theorem State.clearChan_pseqs (s : State) (c : Nat) : (s.clearChan c).pseqs = s.pseqs := rfl
@[simp] theorem State.clearChan_deliveredSeqs (s : State) (c : Nat) : (s.clearChan c).deliveredSeqs = s.deliveredSeqs := rfl
@[simp] theorem State.clearChan_inbound (s : State) (c : Nat) : (s.clearChan c).inbound = s.inbound := rfl
@[simp] theorem State.clearChan_transfers (s : State) (c : Nat) : (s.clearChan c).transfers = s.transfers := rfl
@[simp] theorem State.clearChan_nextTransfer (s : State) (c : Nat) : (s.clearChan c).nextTransfer = s.nextTransfer := rfl
@[simp] theorem State.clearChan_landings (s : State) (c : Nat) : (s.clearChan c).landings = s.landings := rfl
@[simp] theorem State.clearChan_arriving (s : State) (c : Nat) : (s.clearChan c).arriving = s.arriving := rfl
@[simp] theorem State.clearChan_abortedKeys (s : State) (c : Nat) : (s.clearChan c).abortedKeys = s.abortedKeys := rfl
@[simp] theorem State.clearChan_windows (s : State) (c : Nat) : (s.clearChan c).windows = s.windows := rfl
@[simp] theorem State.clearChan_windowIns (s : State) (c : Nat) : (s.clearChan c).windowIns = s.windowIns := rfl
@[simp] theorem State.clearChan_peerRefs (s : State) (c : Nat) : (s.clearChan c).peerRefs = s.peerRefs := rfl
@[simp] theorem State.clearChan_tables (s : State) (c : Nat) : (s.clearChan c).tables = s.tables := rfl
@[simp] theorem State.clearChan_inboxes (s : State) (c : Nat) : (s.clearChan c).inboxes = s.inboxes := rfl
@[simp] theorem State.clearChan_grants (s : State) (c : Nat) : (s.clearChan c).grants = s.grants := rfl
@[simp] theorem State.clearChan_narrowing (s : State) (c : Nat) : (s.clearChan c).narrowing = s.narrowing := rfl
@[simp] theorem State.clearChan_fenceItems (s : State) (c : Nat) : (s.clearChan c).fenceItems = s.fenceItems := rfl
@[simp] theorem State.clearChan_fns (s : State) (c : Nat) : (s.clearChan c).fns = s.fns := rfl
@[simp] theorem State.clearChan_audit (s : State) (c : Nat) : (s.clearChan c).audit = s.audit := rfl
@[simp] theorem State.clearChan_carries (s : State) (c : Nat) : (s.clearChan c).carries = s.carries := rfl
@[simp] theorem State.clearChan_repairs (s : State) (c : Nat) : (s.clearChan c).repairs = s.repairs := rfl
@[simp] theorem State.clearChan_assay (s : State) (c : Nat) : (s.clearChan c).assay = s.assay := rfl
@[simp] theorem State.clearChan_power (s : State) (c : Nat) : (s.clearChan c).power = s.power := rfl
@[simp] theorem State.clearChan_sec (s : State) (c : Nat) : (s.clearChan c).sec = s.sec := rfl
@[simp] theorem State.clearChan_pins (s : State) (c : Nat) : (s.clearChan c).pins = s.pins := rfl
@[simp] theorem State.clearChan_outs (s : State) (c : Nat) : (s.clearChan c).outs = s.outs := rfl

/-! ## `dropRetiring` -/

@[simp] theorem State.dropRetiring_pending (s : State) (ctx : Nat) : (s.dropRetiring ctx).pending = s.pending := rfl
@[simp] theorem State.dropRetiring_waiting (s : State) (ctx : Nat) : (s.dropRetiring ctx).waiting = s.waiting := rfl
@[simp] theorem State.dropRetiring_tally (s : State) (ctx : Nat) : (s.dropRetiring ctx).tally = s.tally := rfl
@[simp] theorem State.dropRetiring_tallyStepped (s : State) (ctx : Nat) : (s.dropRetiring ctx).tallyStepped = s.tallyStepped := rfl
@[simp] theorem State.dropRetiring_draws (s : State) (ctx : Nat) : (s.dropRetiring ctx).draws = s.draws := rfl
@[simp] theorem State.dropRetiring_regs (s : State) (ctx : Nat) : (s.dropRetiring ctx).regs = s.regs := rfl
@[simp] theorem State.dropRetiring_tiles (s : State) (ctx : Nat) : (s.dropRetiring ctx).tiles = s.tiles := rfl
@[simp] theorem State.dropRetiring_modeDue (s : State) (ctx : Nat) : (s.dropRetiring ctx).modeDue = s.modeDue := rfl
@[simp] theorem State.dropRetiring_mem (s : State) (ctx : Nat) : (s.dropRetiring ctx).mem = s.mem := rfl
@[simp] theorem State.dropRetiring_memPoison (s : State) (ctx : Nat) : (s.dropRetiring ctx).memPoison = s.memPoison := rfl
@[simp] theorem State.dropRetiring_memDamage (s : State) (ctx : Nat) : (s.dropRetiring ctx).memDamage = s.memDamage := rfl
@[simp] theorem State.dropRetiring_chans (s : State) (ctx : Nat) : (s.dropRetiring ctx).chans = s.chans := rfl
@[simp] theorem State.dropRetiring_host (s : State) (ctx : Nat) : (s.dropRetiring ctx).host = s.host := rfl
@[simp] theorem State.dropRetiring_hostPoison (s : State) (ctx : Nat) : (s.dropRetiring ctx).hostPoison = s.hostPoison := rfl
@[simp] theorem State.dropRetiring_pools (s : State) (ctx : Nat) : (s.dropRetiring ctx).pools = s.pools := rfl
@[simp] theorem State.dropRetiring_items (s : State) (ctx : Nat) : (s.dropRetiring ctx).items = s.items := rfl
@[simp] theorem State.dropRetiring_nextItem (s : State) (ctx : Nat) : (s.dropRetiring ctx).nextItem = s.nextItem := rfl
@[simp] theorem State.dropRetiring_order4 (s : State) (ctx : Nat) : (s.dropRetiring ctx).order4 = s.order4 := rfl
@[simp] theorem State.dropRetiring_links (s : State) (ctx : Nat) : (s.dropRetiring ctx).links = s.links := rfl
@[simp] theorem State.dropRetiring_mgmtLeft (s : State) (ctx : Nat) : (s.dropRetiring ctx).mgmtLeft = s.mgmtLeft := rfl
@[simp] theorem State.dropRetiring_pseqs (s : State) (ctx : Nat) : (s.dropRetiring ctx).pseqs = s.pseqs := rfl
@[simp] theorem State.dropRetiring_deliveredSeqs (s : State) (ctx : Nat) : (s.dropRetiring ctx).deliveredSeqs = s.deliveredSeqs := rfl
@[simp] theorem State.dropRetiring_inbound (s : State) (ctx : Nat) : (s.dropRetiring ctx).inbound = s.inbound := rfl
@[simp] theorem State.dropRetiring_transfers (s : State) (ctx : Nat) : (s.dropRetiring ctx).transfers = s.transfers := rfl
@[simp] theorem State.dropRetiring_nextTransfer (s : State) (ctx : Nat) : (s.dropRetiring ctx).nextTransfer = s.nextTransfer := rfl
@[simp] theorem State.dropRetiring_landings (s : State) (ctx : Nat) : (s.dropRetiring ctx).landings = s.landings := rfl
@[simp] theorem State.dropRetiring_arriving (s : State) (ctx : Nat) : (s.dropRetiring ctx).arriving = s.arriving := rfl
@[simp] theorem State.dropRetiring_abortedKeys (s : State) (ctx : Nat) : (s.dropRetiring ctx).abortedKeys = s.abortedKeys := rfl
@[simp] theorem State.dropRetiring_windows (s : State) (ctx : Nat) : (s.dropRetiring ctx).windows = s.windows := rfl
@[simp] theorem State.dropRetiring_windowIns (s : State) (ctx : Nat) : (s.dropRetiring ctx).windowIns = s.windowIns := rfl
@[simp] theorem State.dropRetiring_peerRefs (s : State) (ctx : Nat) : (s.dropRetiring ctx).peerRefs = s.peerRefs := rfl
@[simp] theorem State.dropRetiring_tables (s : State) (ctx : Nat) : (s.dropRetiring ctx).tables = s.tables := rfl
@[simp] theorem State.dropRetiring_inboxes (s : State) (ctx : Nat) : (s.dropRetiring ctx).inboxes = s.inboxes := rfl
@[simp] theorem State.dropRetiring_grants (s : State) (ctx : Nat) : (s.dropRetiring ctx).grants = s.grants := rfl
@[simp] theorem State.dropRetiring_narrowing (s : State) (ctx : Nat) : (s.dropRetiring ctx).narrowing = s.narrowing := rfl
@[simp] theorem State.dropRetiring_fenceItems (s : State) (ctx : Nat) : (s.dropRetiring ctx).fenceItems = s.fenceItems := rfl
@[simp] theorem State.dropRetiring_fns (s : State) (ctx : Nat) : (s.dropRetiring ctx).fns = s.fns := rfl
@[simp] theorem State.dropRetiring_audit (s : State) (ctx : Nat) : (s.dropRetiring ctx).audit = s.audit := rfl
@[simp] theorem State.dropRetiring_carries (s : State) (ctx : Nat) : (s.dropRetiring ctx).carries = s.carries := rfl
@[simp] theorem State.dropRetiring_repairs (s : State) (ctx : Nat) : (s.dropRetiring ctx).repairs = s.repairs := rfl
@[simp] theorem State.dropRetiring_assay (s : State) (ctx : Nat) : (s.dropRetiring ctx).assay = s.assay := rfl
@[simp] theorem State.dropRetiring_power (s : State) (ctx : Nat) : (s.dropRetiring ctx).power = s.power := rfl
@[simp] theorem State.dropRetiring_sec (s : State) (ctx : Nat) : (s.dropRetiring ctx).sec = s.sec := rfl
@[simp] theorem State.dropRetiring_pins (s : State) (ctx : Nat) : (s.dropRetiring ctx).pins = s.pins := rfl
@[simp] theorem State.dropRetiring_outs (s : State) (ctx : Nat) : (s.dropRetiring ctx).outs = s.outs := rfl

/-! ## `holdMgc` -/

@[simp] theorem State.holdMgc_pending (s : State) (b : Bool) : (s.holdMgc b).pending = s.pending := rfl
@[simp] theorem State.holdMgc_waiting (s : State) (b : Bool) : (s.holdMgc b).waiting = s.waiting := rfl
@[simp] theorem State.holdMgc_tally (s : State) (b : Bool) : (s.holdMgc b).tally = s.tally := rfl
@[simp] theorem State.holdMgc_tallyStepped (s : State) (b : Bool) : (s.holdMgc b).tallyStepped = s.tallyStepped := rfl
@[simp] theorem State.holdMgc_draws (s : State) (b : Bool) : (s.holdMgc b).draws = s.draws := rfl
@[simp] theorem State.holdMgc_regs (s : State) (b : Bool) : (s.holdMgc b).regs = s.regs := rfl
@[simp] theorem State.holdMgc_tiles (s : State) (b : Bool) : (s.holdMgc b).tiles = s.tiles := rfl
@[simp] theorem State.holdMgc_modeDue (s : State) (b : Bool) : (s.holdMgc b).modeDue = s.modeDue := rfl
@[simp] theorem State.holdMgc_mem (s : State) (b : Bool) : (s.holdMgc b).mem = s.mem := rfl
@[simp] theorem State.holdMgc_memPoison (s : State) (b : Bool) : (s.holdMgc b).memPoison = s.memPoison := rfl
@[simp] theorem State.holdMgc_memDamage (s : State) (b : Bool) : (s.holdMgc b).memDamage = s.memDamage := rfl
@[simp] theorem State.holdMgc_chans (s : State) (b : Bool) : (s.holdMgc b).chans = s.chans := rfl
@[simp] theorem State.holdMgc_host (s : State) (b : Bool) : (s.holdMgc b).host = s.host := rfl
@[simp] theorem State.holdMgc_hostPoison (s : State) (b : Bool) : (s.holdMgc b).hostPoison = s.hostPoison := rfl
@[simp] theorem State.holdMgc_boards (s : State) (b : Bool) : (s.holdMgc b).boards = s.boards := rfl
@[simp] theorem State.holdMgc_pools (s : State) (b : Bool) : (s.holdMgc b).pools = s.pools := rfl
@[simp] theorem State.holdMgc_items (s : State) (b : Bool) : (s.holdMgc b).items = s.items := rfl
@[simp] theorem State.holdMgc_nextItem (s : State) (b : Bool) : (s.holdMgc b).nextItem = s.nextItem := rfl
@[simp] theorem State.holdMgc_order4 (s : State) (b : Bool) : (s.holdMgc b).order4 = s.order4 := rfl
@[simp] theorem State.holdMgc_links (s : State) (b : Bool) : (s.holdMgc b).links = s.links := rfl
@[simp] theorem State.holdMgc_mgmtLeft (s : State) (b : Bool) : (s.holdMgc b).mgmtLeft = s.mgmtLeft := rfl
@[simp] theorem State.holdMgc_pseqs (s : State) (b : Bool) : (s.holdMgc b).pseqs = s.pseqs := rfl
@[simp] theorem State.holdMgc_deliveredSeqs (s : State) (b : Bool) : (s.holdMgc b).deliveredSeqs = s.deliveredSeqs := rfl
@[simp] theorem State.holdMgc_inbound (s : State) (b : Bool) : (s.holdMgc b).inbound = s.inbound := rfl
@[simp] theorem State.holdMgc_transfers (s : State) (b : Bool) : (s.holdMgc b).transfers = s.transfers := rfl
@[simp] theorem State.holdMgc_nextTransfer (s : State) (b : Bool) : (s.holdMgc b).nextTransfer = s.nextTransfer := rfl
@[simp] theorem State.holdMgc_landings (s : State) (b : Bool) : (s.holdMgc b).landings = s.landings := rfl
@[simp] theorem State.holdMgc_arriving (s : State) (b : Bool) : (s.holdMgc b).arriving = s.arriving := rfl
@[simp] theorem State.holdMgc_abortedKeys (s : State) (b : Bool) : (s.holdMgc b).abortedKeys = s.abortedKeys := rfl
@[simp] theorem State.holdMgc_windows (s : State) (b : Bool) : (s.holdMgc b).windows = s.windows := rfl
@[simp] theorem State.holdMgc_windowIns (s : State) (b : Bool) : (s.holdMgc b).windowIns = s.windowIns := rfl
@[simp] theorem State.holdMgc_peerRefs (s : State) (b : Bool) : (s.holdMgc b).peerRefs = s.peerRefs := rfl
@[simp] theorem State.holdMgc_tables (s : State) (b : Bool) : (s.holdMgc b).tables = s.tables := rfl
@[simp] theorem State.holdMgc_inboxes (s : State) (b : Bool) : (s.holdMgc b).inboxes = s.inboxes := rfl
@[simp] theorem State.holdMgc_grants (s : State) (b : Bool) : (s.holdMgc b).grants = s.grants := rfl
@[simp] theorem State.holdMgc_narrowing (s : State) (b : Bool) : (s.holdMgc b).narrowing = s.narrowing := rfl
@[simp] theorem State.holdMgc_fenceItems (s : State) (b : Bool) : (s.holdMgc b).fenceItems = s.fenceItems := rfl
@[simp] theorem State.holdMgc_fns (s : State) (b : Bool) : (s.holdMgc b).fns = s.fns := rfl
@[simp] theorem State.holdMgc_audit (s : State) (b : Bool) : (s.holdMgc b).audit = s.audit := rfl
@[simp] theorem State.holdMgc_carries (s : State) (b : Bool) : (s.holdMgc b).carries = s.carries := rfl
@[simp] theorem State.holdMgc_repairs (s : State) (b : Bool) : (s.holdMgc b).repairs = s.repairs := rfl
@[simp] theorem State.holdMgc_assay (s : State) (b : Bool) : (s.holdMgc b).assay = s.assay := rfl
@[simp] theorem State.holdMgc_power (s : State) (b : Bool) : (s.holdMgc b).power = s.power := rfl
@[simp] theorem State.holdMgc_pins (s : State) (b : Bool) : (s.holdMgc b).pins = s.pins := rfl
@[simp] theorem State.holdMgc_outs (s : State) (b : Bool) : (s.holdMgc b).outs = s.outs := rfl

/-! ## `thermalStep` -/

@[simp] theorem State.thermalStep_pending (s : State) (r : Nat) : (s.thermalStep r).pending = s.pending := rfl
@[simp] theorem State.thermalStep_waiting (s : State) (r : Nat) : (s.thermalStep r).waiting = s.waiting := rfl
@[simp] theorem State.thermalStep_tally (s : State) (r : Nat) : (s.thermalStep r).tally = s.tally := rfl
@[simp] theorem State.thermalStep_tallyStepped (s : State) (r : Nat) : (s.thermalStep r).tallyStepped = s.tallyStepped := rfl
@[simp] theorem State.thermalStep_draws (s : State) (r : Nat) : (s.thermalStep r).draws = s.draws := rfl
@[simp] theorem State.thermalStep_regs (s : State) (r : Nat) : (s.thermalStep r).regs = s.regs := rfl
@[simp] theorem State.thermalStep_tiles (s : State) (r : Nat) : (s.thermalStep r).tiles = s.tiles := rfl
@[simp] theorem State.thermalStep_modeDue (s : State) (r : Nat) : (s.thermalStep r).modeDue = s.modeDue := rfl
@[simp] theorem State.thermalStep_mem (s : State) (r : Nat) : (s.thermalStep r).mem = s.mem := rfl
@[simp] theorem State.thermalStep_memPoison (s : State) (r : Nat) : (s.thermalStep r).memPoison = s.memPoison := rfl
@[simp] theorem State.thermalStep_memDamage (s : State) (r : Nat) : (s.thermalStep r).memDamage = s.memDamage := rfl
@[simp] theorem State.thermalStep_chans (s : State) (r : Nat) : (s.thermalStep r).chans = s.chans := rfl
@[simp] theorem State.thermalStep_host (s : State) (r : Nat) : (s.thermalStep r).host = s.host := rfl
@[simp] theorem State.thermalStep_hostPoison (s : State) (r : Nat) : (s.thermalStep r).hostPoison = s.hostPoison := rfl
@[simp] theorem State.thermalStep_boards (s : State) (r : Nat) : (s.thermalStep r).boards = s.boards := rfl
@[simp] theorem State.thermalStep_pools (s : State) (r : Nat) : (s.thermalStep r).pools = s.pools := rfl
@[simp] theorem State.thermalStep_items (s : State) (r : Nat) : (s.thermalStep r).items = s.items := rfl
@[simp] theorem State.thermalStep_nextItem (s : State) (r : Nat) : (s.thermalStep r).nextItem = s.nextItem := rfl
@[simp] theorem State.thermalStep_order4 (s : State) (r : Nat) : (s.thermalStep r).order4 = s.order4 := rfl
@[simp] theorem State.thermalStep_links (s : State) (r : Nat) : (s.thermalStep r).links = s.links := rfl
@[simp] theorem State.thermalStep_mgmtLeft (s : State) (r : Nat) : (s.thermalStep r).mgmtLeft = s.mgmtLeft := rfl
@[simp] theorem State.thermalStep_pseqs (s : State) (r : Nat) : (s.thermalStep r).pseqs = s.pseqs := rfl
@[simp] theorem State.thermalStep_deliveredSeqs (s : State) (r : Nat) : (s.thermalStep r).deliveredSeqs = s.deliveredSeqs := rfl
@[simp] theorem State.thermalStep_inbound (s : State) (r : Nat) : (s.thermalStep r).inbound = s.inbound := rfl
@[simp] theorem State.thermalStep_transfers (s : State) (r : Nat) : (s.thermalStep r).transfers = s.transfers := rfl
@[simp] theorem State.thermalStep_nextTransfer (s : State) (r : Nat) : (s.thermalStep r).nextTransfer = s.nextTransfer := rfl
@[simp] theorem State.thermalStep_landings (s : State) (r : Nat) : (s.thermalStep r).landings = s.landings := rfl
@[simp] theorem State.thermalStep_arriving (s : State) (r : Nat) : (s.thermalStep r).arriving = s.arriving := rfl
@[simp] theorem State.thermalStep_abortedKeys (s : State) (r : Nat) : (s.thermalStep r).abortedKeys = s.abortedKeys := rfl
@[simp] theorem State.thermalStep_windows (s : State) (r : Nat) : (s.thermalStep r).windows = s.windows := rfl
@[simp] theorem State.thermalStep_windowIns (s : State) (r : Nat) : (s.thermalStep r).windowIns = s.windowIns := rfl
@[simp] theorem State.thermalStep_peerRefs (s : State) (r : Nat) : (s.thermalStep r).peerRefs = s.peerRefs := rfl
@[simp] theorem State.thermalStep_tables (s : State) (r : Nat) : (s.thermalStep r).tables = s.tables := rfl
@[simp] theorem State.thermalStep_inboxes (s : State) (r : Nat) : (s.thermalStep r).inboxes = s.inboxes := rfl
@[simp] theorem State.thermalStep_grants (s : State) (r : Nat) : (s.thermalStep r).grants = s.grants := rfl
@[simp] theorem State.thermalStep_narrowing (s : State) (r : Nat) : (s.thermalStep r).narrowing = s.narrowing := rfl
@[simp] theorem State.thermalStep_fenceItems (s : State) (r : Nat) : (s.thermalStep r).fenceItems = s.fenceItems := rfl
@[simp] theorem State.thermalStep_fns (s : State) (r : Nat) : (s.thermalStep r).fns = s.fns := rfl
@[simp] theorem State.thermalStep_audit (s : State) (r : Nat) : (s.thermalStep r).audit = s.audit := rfl
@[simp] theorem State.thermalStep_carries (s : State) (r : Nat) : (s.thermalStep r).carries = s.carries := rfl
@[simp] theorem State.thermalStep_repairs (s : State) (r : Nat) : (s.thermalStep r).repairs = s.repairs := rfl
@[simp] theorem State.thermalStep_assay (s : State) (r : Nat) : (s.thermalStep r).assay = s.assay := rfl
@[simp] theorem State.thermalStep_sec (s : State) (r : Nat) : (s.thermalStep r).sec = s.sec := rfl
@[simp] theorem State.thermalStep_pins (s : State) (r : Nat) : (s.thermalStep r).pins = s.pins := rfl
@[simp] theorem State.thermalStep_outs (s : State) (r : Nat) : (s.thermalStep r).outs = s.outs := rfl

/-! ## `bump` -/

@[simp] theorem State.bump_pending (s : State) (f : Field) (i n : Nat) : (s.bump f i n).pending = s.pending := by
  unfold State.bump; split <;> rfl
@[simp] theorem State.bump_waiting (s : State) (f : Field) (i n : Nat) : (s.bump f i n).waiting = s.waiting := by
  unfold State.bump; split <;> rfl
@[simp] theorem State.bump_tally (s : State) (f : Field) (i n : Nat) : (s.bump f i n).tally = s.tally := by
  unfold State.bump; split <;> rfl
@[simp] theorem State.bump_tallyStepped (s : State) (f : Field) (i n : Nat) : (s.bump f i n).tallyStepped = s.tallyStepped := by
  unfold State.bump; split <;> rfl
@[simp] theorem State.bump_draws (s : State) (f : Field) (i n : Nat) : (s.bump f i n).draws = s.draws := by
  unfold State.bump; split <;> rfl
@[simp] theorem State.bump_tiles (s : State) (f : Field) (i n : Nat) : (s.bump f i n).tiles = s.tiles := by
  unfold State.bump; split <;> rfl
@[simp] theorem State.bump_modeDue (s : State) (f : Field) (i n : Nat) : (s.bump f i n).modeDue = s.modeDue := by
  unfold State.bump; split <;> rfl
@[simp] theorem State.bump_mem (s : State) (f : Field) (i n : Nat) : (s.bump f i n).mem = s.mem := by
  unfold State.bump; split <;> rfl
@[simp] theorem State.bump_memPoison (s : State) (f : Field) (i n : Nat) : (s.bump f i n).memPoison = s.memPoison := by
  unfold State.bump; split <;> rfl
@[simp] theorem State.bump_memDamage (s : State) (f : Field) (i n : Nat) : (s.bump f i n).memDamage = s.memDamage := by
  unfold State.bump; split <;> rfl
@[simp] theorem State.bump_chans (s : State) (f : Field) (i n : Nat) : (s.bump f i n).chans = s.chans := by
  unfold State.bump; split <;> rfl
@[simp] theorem State.bump_host (s : State) (f : Field) (i n : Nat) : (s.bump f i n).host = s.host := by
  unfold State.bump; split <;> rfl
@[simp] theorem State.bump_hostPoison (s : State) (f : Field) (i n : Nat) : (s.bump f i n).hostPoison = s.hostPoison := by
  unfold State.bump; split <;> rfl
@[simp] theorem State.bump_boards (s : State) (f : Field) (i n : Nat) : (s.bump f i n).boards = s.boards := by
  unfold State.bump; split <;> rfl
@[simp] theorem State.bump_pools (s : State) (f : Field) (i n : Nat) : (s.bump f i n).pools = s.pools := by
  unfold State.bump; split <;> rfl
@[simp] theorem State.bump_items (s : State) (f : Field) (i n : Nat) : (s.bump f i n).items = s.items := by
  unfold State.bump; split <;> rfl
@[simp] theorem State.bump_nextItem (s : State) (f : Field) (i n : Nat) : (s.bump f i n).nextItem = s.nextItem := by
  unfold State.bump; split <;> rfl
@[simp] theorem State.bump_order4 (s : State) (f : Field) (i n : Nat) : (s.bump f i n).order4 = s.order4 := by
  unfold State.bump; split <;> rfl
@[simp] theorem State.bump_links (s : State) (f : Field) (i n : Nat) : (s.bump f i n).links = s.links := by
  unfold State.bump; split <;> rfl
@[simp] theorem State.bump_mgmtLeft (s : State) (f : Field) (i n : Nat) : (s.bump f i n).mgmtLeft = s.mgmtLeft := by
  unfold State.bump; split <;> rfl
@[simp] theorem State.bump_pseqs (s : State) (f : Field) (i n : Nat) : (s.bump f i n).pseqs = s.pseqs := by
  unfold State.bump; split <;> rfl
@[simp] theorem State.bump_deliveredSeqs (s : State) (f : Field) (i n : Nat) : (s.bump f i n).deliveredSeqs = s.deliveredSeqs := by
  unfold State.bump; split <;> rfl
@[simp] theorem State.bump_inbound (s : State) (f : Field) (i n : Nat) : (s.bump f i n).inbound = s.inbound := by
  unfold State.bump; split <;> rfl
@[simp] theorem State.bump_transfers (s : State) (f : Field) (i n : Nat) : (s.bump f i n).transfers = s.transfers := by
  unfold State.bump; split <;> rfl
@[simp] theorem State.bump_nextTransfer (s : State) (f : Field) (i n : Nat) : (s.bump f i n).nextTransfer = s.nextTransfer := by
  unfold State.bump; split <;> rfl
@[simp] theorem State.bump_landings (s : State) (f : Field) (i n : Nat) : (s.bump f i n).landings = s.landings := by
  unfold State.bump; split <;> rfl
@[simp] theorem State.bump_arriving (s : State) (f : Field) (i n : Nat) : (s.bump f i n).arriving = s.arriving := by
  unfold State.bump; split <;> rfl
@[simp] theorem State.bump_abortedKeys (s : State) (f : Field) (i n : Nat) : (s.bump f i n).abortedKeys = s.abortedKeys := by
  unfold State.bump; split <;> rfl
@[simp] theorem State.bump_windows (s : State) (f : Field) (i n : Nat) : (s.bump f i n).windows = s.windows := by
  unfold State.bump; split <;> rfl
@[simp] theorem State.bump_windowIns (s : State) (f : Field) (i n : Nat) : (s.bump f i n).windowIns = s.windowIns := by
  unfold State.bump; split <;> rfl
@[simp] theorem State.bump_peerRefs (s : State) (f : Field) (i n : Nat) : (s.bump f i n).peerRefs = s.peerRefs := by
  unfold State.bump; split <;> rfl
@[simp] theorem State.bump_tables (s : State) (f : Field) (i n : Nat) : (s.bump f i n).tables = s.tables := by
  unfold State.bump; split <;> rfl
@[simp] theorem State.bump_inboxes (s : State) (f : Field) (i n : Nat) : (s.bump f i n).inboxes = s.inboxes := by
  unfold State.bump; split <;> rfl
@[simp] theorem State.bump_grants (s : State) (f : Field) (i n : Nat) : (s.bump f i n).grants = s.grants := by
  unfold State.bump; split <;> rfl
@[simp] theorem State.bump_narrowing (s : State) (f : Field) (i n : Nat) : (s.bump f i n).narrowing = s.narrowing := by
  unfold State.bump; split <;> rfl
@[simp] theorem State.bump_fenceItems (s : State) (f : Field) (i n : Nat) : (s.bump f i n).fenceItems = s.fenceItems := by
  unfold State.bump; split <;> rfl
@[simp] theorem State.bump_fns (s : State) (f : Field) (i n : Nat) : (s.bump f i n).fns = s.fns := by
  unfold State.bump; split <;> rfl
@[simp] theorem State.bump_audit (s : State) (f : Field) (i n : Nat) : (s.bump f i n).audit = s.audit := by
  unfold State.bump; split <;> rfl
@[simp] theorem State.bump_carries (s : State) (f : Field) (i n : Nat) : (s.bump f i n).carries = s.carries := by
  unfold State.bump; split <;> rfl
@[simp] theorem State.bump_repairs (s : State) (f : Field) (i n : Nat) : (s.bump f i n).repairs = s.repairs := by
  unfold State.bump; split <;> rfl
@[simp] theorem State.bump_assay (s : State) (f : Field) (i n : Nat) : (s.bump f i n).assay = s.assay := by
  unfold State.bump; split <;> rfl
@[simp] theorem State.bump_power (s : State) (f : Field) (i n : Nat) : (s.bump f i n).power = s.power := by
  unfold State.bump; split <;> rfl
@[simp] theorem State.bump_sec (s : State) (f : Field) (i n : Nat) : (s.bump f i n).sec = s.sec := by
  unfold State.bump; split <;> rfl
@[simp] theorem State.bump_pins (s : State) (f : Field) (i n : Nat) : (s.bump f i n).pins = s.pins := by
  unfold State.bump; split <;> rfl
@[simp] theorem State.bump_outs (s : State) (f : Field) (i n : Nat) : (s.bump f i n).outs = s.outs := by
  unfold State.bump; split <;> rfl

/-! ## Register fields after an update -/

theorem State.setFlag_eq (s : State) (f : Field) (i : Nat) (b : Bool) : s.setFlag f i b = s.setFld f i (if b then 1 else 0) := rfl

theorem State.addFld_eq (s : State) (f : Field) (i n : Nat) : s.addFld f i n = s.setFld f i (s.fld f i + n) := rfl

/-- A field reads only the register file. -/
theorem State.fld_congr {s t : State} (h : s.regs = t.regs) (f : Field) (i : Nat) : s.fld f i = t.fld f i := by
  unfold State.fld; rw [h]

theorem State.flag_congr {s t : State} (h : s.regs = t.regs) (f : Field) (i : Nat) : s.flag f i = t.flag f i := by
  unfold State.flag; rw [State.fld_congr h]

/-- A field just set reads the value modulo its width. -/
theorem State.fld_setFld_self {s : State} (h : Tab.sorted s.regs = true) (f : Field) (i v : Nat) : (s.setFld f i v).fld f i = v % 2 ^ f.width :=
  Tab.get_set_self h

/-- A field with another key reads as before. -/
theorem State.fld_setFld_other {s : State} (h : Tab.sorted s.regs = true) {f g : Field} {i j : Nat} (hk : g.key j ≠ f.key i) (v : Nat) :
    (s.setFld f i v).fld g j = s.fld g j :=
  Tab.get_set_other h hk

/-- Keys of fields differ when the registers, the instances or the places differ. -/
theorem Field.key_inj {f g : Field} {i j : Nat} (hf : f.lo < 1024) (hg : g.lo < 1024) (h : f.key i = g.key j) : i = j ∧ f.reg = g.reg ∧ f.lo = g.lo := by
  have h1 : ∀ r : Reg, r.ctorIdx < 128 := by intro r; cases r <;> decide
  have hf1 := h1 f.reg
  have hg1 := h1 g.reg
  unfold Field.key at h
  have hi : i = j := by omega
  have hr : f.reg.ctorIdx = g.reg.ctorIdx := by omega
  refine ⟨hi, ?_, by omega⟩
  have h2 : ∀ a b : Reg, a.ctorIdx = b.ctorIdx → a = b := by
    intro a b hab
    have ha : Reg.ofNat a.ctorIdx = a := Reg.ofNat_ctorIdx a
    have hb : Reg.ofNat b.ctorIdx = b := Reg.ofNat_ctorIdx b
    rw [← ha, ← hb, hab]
  exact h2 _ _ hr

/-- An update of a field leaves every field of the other registers. -/
theorem State.setFld_regsBut {s : State} (h : Tab.sorted s.regs = true) {f : Field} (hf : f.lo < 1024) (i v : Nat) : s.regsBut (s.setFld f i v) [f.reg] := by
  intro g j hg hr
  refine State.fld_setFld_other h (fun hk => hr ?_) v
  rw [(Field.key_inj hg hf hk).2.1]
  exact List.mem_singleton.2 rfl

theorem State.regsBut_refl (s : State) (rs : List Reg) : s.regsBut s rs := fun _ _ _ _ => rfl

theorem State.regsBut_of_regs {s u : State} (h : u.regs = s.regs) (rs : List Reg) : s.regsBut u rs := fun f i _ _ => State.fld_congr h f i

theorem State.regsBut_trans {s t u : State} {rs : List Reg} (h : s.regsBut t rs) (h' : t.regsBut u rs) : s.regsBut u rs :=
  fun f i hf hr => (h' f i hf hr).trans (h f i hf hr)

theorem State.regsBut_mono {s u : State} {rs qs : List Reg} (h : s.regsBut u rs) (hs : ∀ r, r ∈ rs → r ∈ qs) : s.regsBut u qs :=
  fun f i hf hr => h f i hf (fun hm => hr (hs _ hm))

/-! ## Tiles after an update -/

theorem State.tile_congr {s t : State} (h : s.tiles = t.tiles) (p : Nat) : s.tile p = t.tile p := by
  unfold State.tile; rw [h]

theorem State.tile_setTile_self {s : State} (h : Tab.sorted s.tiles = true) (p : Nat) (t : Tile) : (s.setTile p t).tile p = t := Tab.get_set_self h

theorem State.tile_setTile_other {s : State} (h : Tab.sorted s.tiles = true) {p k : Nat} (hk : k ≠ p) (t : Tile) : (s.setTile p t).tile k = s.tile k :=
  Tab.get_set_other h hk

/-! ## The canonical form -/

theorem State.canonical_iff {s : State} : s.canonical = true ↔
    Tab.sorted s.regs = true ∧ Memory.wf s.mem = true ∧ Memory.wf s.host = true ∧ Tab.sorted s.tiles = true ∧ (∀ e ∈ s.tiles, e.2.canonical = true) ∧
    Tab.sorted s.power.thermal = true ∧ Tab.sorted s.fenceItems = true ∧ Tab.sorted s.memPoison = true ∧ Tab.sorted s.memDamage = true ∧
    Tab.sorted s.chans.queues = true ∧ Tab.sorted s.chans.stuckCells = true ∧ Tab.sorted s.chans.failedPins = true ∧ Tab.sorted s.links = true ∧
    Tab.sorted s.sec.slots = true ∧ Tab.sorted s.audit = true := by
  simp only [State.canonical, Bool.and_eq_true, List.all_eq_true]
  tauto

theorem State.canonical.regs {s : State} (h : s.canonical = true) : Tab.sorted s.regs = true := (State.canonical_iff.1 h).1
theorem State.canonical.mem {s : State} (h : s.canonical = true) : Memory.wf s.mem = true := (State.canonical_iff.1 h).2.1
theorem State.canonical.host {s : State} (h : s.canonical = true) : Memory.wf s.host = true := (State.canonical_iff.1 h).2.2.1
theorem State.canonical.tiles {s : State} (h : s.canonical = true) : Tab.sorted s.tiles = true := (State.canonical_iff.1 h).2.2.2.1
theorem State.canonical.thermal {s : State} (h : s.canonical = true) : Tab.sorted s.power.thermal = true := (State.canonical_iff.1 h).2.2.2.2.2.1
theorem State.canonical.fenceItems {s : State} (h : s.canonical = true) : Tab.sorted s.fenceItems = true := (State.canonical_iff.1 h).2.2.2.2.2.2.1
theorem State.canonical.memPoison {s : State} (h : s.canonical = true) : Tab.sorted s.memPoison = true := (State.canonical_iff.1 h).2.2.2.2.2.2.2.1
theorem State.canonical.memDamage {s : State} (h : s.canonical = true) : Tab.sorted s.memDamage = true := (State.canonical_iff.1 h).2.2.2.2.2.2.2.2.1
theorem State.canonical.links {s : State} (h : s.canonical = true) : Tab.sorted s.links = true := (State.canonical_iff.1 h).2.2.2.2.2.2.2.2.2.2.2.2.1
theorem State.canonical.slots {s : State} (h : s.canonical = true) : Tab.sorted s.sec.slots = true := (State.canonical_iff.1 h).2.2.2.2.2.2.2.2.2.2.2.2.2.1
theorem State.canonical.audit {s : State} (h : s.canonical = true) : Tab.sorted s.audit = true := (State.canonical_iff.1 h).2.2.2.2.2.2.2.2.2.2.2.2.2.2

/-- What a table reads is its default or a value listed in it. -/
theorem Tab.get_mem {α : Type} {d : α} : ∀ {t : Tab α} {k : Nat}, Tab.get d t k = d ∨ ∃ j, (j, Tab.get d t k) ∈ t
  | [], _ => .inl rfl
  | (k', v) :: r, k => by
    unfold Tab.get
    split
    · exact .inr ⟨k', by simp⟩
    · split
      · exact .inl rfl
      · rcases Tab.get_mem (d := d) (t := r) (k := k) with h | ⟨j, h⟩
        · exact .inl h
        · exact .inr ⟨j, List.mem_cons_of_mem _ h⟩

theorem Tile.canonical_empty : Tile.empty.canonical = true := by
  simp only [Tile.canonical, Tile.empty]; rfl

/-- Every tile's storage is in canonical form. -/
theorem State.canonical.tile {s : State} (h : s.canonical = true) (p : Nat) : (s.tile p).canonical = true := by
  rcases Tab.get_mem (d := Tile.empty) (t := s.tiles) (k := p) with h1 | ⟨j, h1⟩
  · have h2 : s.tile p = Tile.empty := h1
    rw [h2]; exact Tile.canonical_empty
  · exact (State.canonical_iff.1 h).2.2.2.2.1 (j, s.tile p) h1

/-- The form depends on these stores only. -/
theorem State.canonical_congr {s t : State} (h1 : t.mem = s.mem) (h2 : t.host = s.host) (h3 : t.regs = s.regs) (h4 : t.tiles = s.tiles)
    (h5 : t.power.thermal = s.power.thermal) (h6 : t.fenceItems = s.fenceItems) (h7 : t.memPoison = s.memPoison) (h8 : t.memDamage = s.memDamage)
    (h9 : t.chans = s.chans) (h10 : t.links = s.links) (h11 : t.sec.slots = s.sec.slots) (h12 : t.audit = s.audit) : t.canonical = s.canonical := by
  unfold State.canonical; rw [h1, h2, h3, h4, h5, h6, h7, h8, h9, h10, h11, h12]

theorem State.canonical_setFld {s : State} (h : s.canonical = true) (f : Field) (i v : Nat) : (s.setFld f i v).canonical = true := by
  obtain ⟨h1, h2⟩ := State.canonical_iff.1 h
  exact State.canonical_iff.2 ⟨Tab.sorted_set h1, h2⟩

theorem State.canonical_setFlag {s : State} (h : s.canonical = true) (f : Field) (i : Nat) (b : Bool) : (s.setFlag f i b).canonical = true :=
  State.canonical_setFld h f i _

theorem State.canonical_bump {s : State} (h : s.canonical = true) (f : Field) (i n : Nat) : (s.bump f i n).canonical = true := by
  unfold State.bump; split
  · exact h
  · exact State.canonical_setFld h f i _

theorem State.canonical_setTile {s : State} (h : s.canonical = true) (p : Nat) {t : Tile} (ht : t.canonical = true) : (s.setTile p t).canonical = true := by
  obtain ⟨h1, h2, h3, h4, h5, h6⟩ := State.canonical_iff.1 h
  refine State.canonical_iff.2 ⟨h1, h2, h3, Tab.sorted_set h4, fun e he => ?_, h6⟩
  rcases Tab.mem_set he with ⟨he, _⟩ | he
  · subst he; exact ht
  · exact h5 e he

theorem State.canonical_journal {s : State} (h : s.canonical = true) (ty : Nat) (args : List Nat) : (s.journal ty args).canonical = true := h

theorem State.canonical_clearChan {s : State} (h : s.canonical = true) (c : Nat) : (s.clearChan c).canonical = true := by
  obtain ⟨h1, h2, h3, h4, h5, h6, h7, h8, h9, h10⟩ := State.canonical_iff.1 h
  exact State.canonical_iff.2 ⟨h1, Memory.wf_zero h2, h3, h4, h5, h6, h7, Tab.sorted_clear h8, Tab.sorted_clear h9, h10⟩

/-- A fold of updates that keep the form keeps it. -/
theorem State.canonical_foldl {α : Type} {f : State → α → State} (hf : ∀ s a, s.canonical = true → (f s a).canonical = true) :
    ∀ (l : List α) {s : State}, s.canonical = true → (l.foldl f s).canonical = true
  | [], _, h => h
  | a :: l, s, h => State.canonical_foldl hf l (s := f s a) (hf s a h)

/-- What every update of a fold leaves alone, the fold leaves alone. -/
theorem State.foldl_same {α β : Type} {f : State → α → State} {g : State → β} (hf : ∀ s a, g (f s a) = g s) : ∀ (l : List α) (s : State), g (l.foldl f s) = g s
  | [], _ => rfl
  | a :: l, s => (State.foldl_same hf l (f s a)).trans (hf s a)


end Sys2Proof.Machine
end

