-- ==== Sys2Proof/Laws/Ops.lean ====
section
/-! SUPPORT. What each shared operation answers: when its condition holds, when it does not, and everything it can answer at all. -/

namespace Sys2Proof.Machine

/-! ## Units and conditions -/

theorem onUnit_ok {ok : Bool} {w : String} {k : Out State} (h : ok = true) : onUnit ok w k = k := by simp [onUnit, h]

theorem onUnit_bad {ok : Bool} {w : String} {k : Out State} (h : ok = false) : onUnit ok w k = .fault (.noSuchUnit w) := by simp [onUnit, h]

/-- A command that answers a next state named a unit that exists. -/
theorem onUnit_next {ok : Bool} {w : String} {k : Out State} {t : State} : onUnit ok w k = .next t ↔ ok = true ∧ k = .next t := by
  cases ok <;> simp [onUnit]

theorem whenever_pos {c : Bool} {s t : State} (h : c = true) : whenever c s t = .next t := by simp [whenever, h]

theorem whenever_neg {c : Bool} {s t : State} (h : c = false) : whenever c s t = .next s := by simp [whenever, h]

/-- An event either happens or changes nothing. -/
theorem whenever_cases {c : Bool} {s t u : State} (h : whenever c s t = .next u) : c = true ∧ u = t ∨ c = false ∧ u = s := by
  cases c <;> simp [whenever] at h <;> simp [h]

theorem onAwake_p0 {s : State} {k : State → State} (h : s.inP0 = true) : onAwake s k = .next (k s) := by simp [onAwake, h]

/-- An access outside P0 is kept, and the wake begins. -/
theorem onAccess_p0 {c : Instr} {s : State} {k : State → State} (h : s.inP0 = true) : onAccess c s k = .next (k s) := by simp [onAccess, h]
theorem onAccess_asleep {c : Instr} {s : State} {k : State → State} (h : s.inP0 = false) : onAccess c s k = .next (s.await c) := by simp [onAccess, h]

@[simp] theorem onHostPf_host (o : Nat) (s : State) (k : State → State) : onHostPf .hostPf o s k = k s := rfl

/-- Another agent's write is discarded; that of an MGC that does not run is none. -/
theorem onHostPf_other {a : Agent} (h : a ≠ .hostPf) (o : Nat) (s : State) (k : State → State) :
    onHostPf a o s k = if s.agentActs a then s.boundDiscard a o else s := by
  simp [onHostPf, h]

/-! ## Tiles and their instructions -/

theorem State.acts_iff {s : State} {t p : Nat} : s.acts t p = true ↔ t < 256 ∧ s.physOf t = some p ∧ s.tileLive t p = true := by
  simp [State.acts, and_assoc]

theorem State.atInsn_iff {s : State} {t p opc : Nat} {i : Insn} : s.atInsn t p opc i = true ↔
    s.acts t p = true ∧ (s.tile p).next = some i ∧ i.opc.toNat = opc ∧ (s.tile p).mayIssue i = true := by
  simp [State.atInsn, and_assoc]

theorem onTile_at {s : State} {t p : Nat} (h : s.acts t p = true) (k : Nat → Tile → Out State) : onTile t s k = k p (s.tile p) := by
  obtain ⟨h1, h2, h3⟩ := State.acts_iff.1 h
  simp [onTile, onUnit, h1, h2, h3]

/-- A command about a tile runs on the tile that serves it, or changes nothing. -/
theorem onTile_next {s : State} {t : Nat} {k : Nat → Tile → Out State} {u : State} (h : onTile t s k = .next u) :
    u = s ∨ ∃ p, s.acts t p = true ∧ k p (s.tile p) = .next u := by
  obtain ⟨ht, h⟩ := onUnit_next.1 h
  split at h
  · simp only [Host.Outcome.next.injEq] at h; exact .inl h.symm
  · next p hp =>
    split at h
    · next hl => exact .inr ⟨p, State.acts_iff.2 ⟨of_decide_eq_true ht, hp, hl⟩, h⟩
    · simp only [Host.Outcome.next.injEq] at h; exact .inl h.symm

theorem onInsn_at {s : State} {t p opc : Nat} {i : Insn} (h : s.atInsn t p opc i = true) (k : Nat → Tile → Insn → State) :
    onInsn t opc s k = .next (k p (s.tile p) i) := by
  obtain ⟨h1, h2, h3, h4⟩ := State.atInsn_iff.1 h
  rw [onInsn, onTile_at h1]
  simp [h2, h3, h4]

/-- A command of an instruction issues the next instruction of the tile, or changes nothing. -/
theorem onInsn_next {s : State} {t opc : Nat} {k : Nat → Tile → Insn → State} {u : State} (h : onInsn t opc s k = .next u) :
    u = s ∨ ∃ p i, s.atInsn t p opc i = true ∧ u = k p (s.tile p) i := by
  rcases onTile_next h with h | ⟨p, hp, h⟩
  · exact .inl h
  · split at h
    · simp only [Host.Outcome.next.injEq] at h; exact .inl h.symm
    · next i hi =>
      simp only [Host.Outcome.next.injEq] at h
      split at h
      · next hc =>
        obtain ⟨hc1, hc2⟩ := (Bool.and_eq_true _ _).mp hc
        exact .inr ⟨p, i, State.atInsn_iff.2 ⟨hp, hi, of_decide_eq_true hc1, hc2⟩, h.symm⟩
      · exact .inl h.symm

/-- With no error found, an instruction of the vector path runs as it is. -/
@[simp] theorem onStore_pass (t : Nat) (s : State) (k : Check → State → Out State) : onStore t .pass s k = k .pass s := by
  unfold onStore; split <;> simp_all

/-! ## Items -/

theorem State.atEvent3_iff {s : State} {fn ring : Nat} {i : Item} {d : List Byte} : s.atEvent3 fn ring i d = true ↔
    fn < 64 ∧ ring < 64 ∧ s.nextOfRing fn ring = some i ∧ i.desc = some d ∧ s.inP0 = true ∧ (descFence d = false ∨ s.fencePassed i = true) := by
  simp [State.atEvent3, and_assoc]

theorem State.passes3_iff {s : State} {fn ring : Nat} {i : Item} {d : List Byte} {ty : Nat} : s.passes3 fn ring i d ty = true ↔
    s.atEvent3 fn ring i d = true ∧ s.fenced fn = false ∧ s.descCause fn d = none ∧ descType d = ty := by
  simp [State.passes3, and_assoc]

/-- Event 3 of an item of the type. -/
theorem onEvent3_at {s : State} {fn ring : Nat} {i : Item} {d : List Byte} {ty : Nat → Bool} {ready : State → Item → List Byte → Bool}
    (h : s.atEvent3 fn ring i d = true) (ht : ty (descType d) = true) (hr : ready s i d = true) (k : State → Item → List Byte → State) :
    onEvent3 fn ring ty ready s k = .next (if s.fenced fn then ((s.pass3 i.id .passed3).addStatus i.id stFenced).endItem i.id
      else match s.descCause fn d with
        | some c => (s.pass3 i.id .passed3).reject i.id c
        | none => k (s.pass3 i.id .passed3) i d) := by
  obtain ⟨h1, h2, h3, h4, h5, h6⟩ := State.atEvent3_iff.1 h
  have h7 : (!descFence d || s.fencePassed i) = true := by rcases h6 with h6 | h6 <;> simp [h6]
  simp [onEvent3, onUnit, h1, h2, h3, h4, h5, h7, ht, hr] <;> rfl

/-- An item that passes does what its type does. -/
theorem onEvent3_passes {s : State} {fn ring ty : Nat} {i : Item} {d : List Byte} {tys : Nat → Bool} {ready : State → Item → List Byte → Bool}
    (h : s.passes3 fn ring i d ty = true) (ht : tys ty = true) (hr : ready s i d = true) (k : State → Item → List Byte → State) :
    onEvent3 fn ring tys ready s k = .next (k (s.pass3 i.id .passed3) i d) := by
  obtain ⟨h1, h2, h3, h4⟩ := State.passes3_iff.1 h
  rw [onEvent3_at h1 (by rw [h4]; exact ht) hr]
  simp [h2, h3]

/-- An entry of a list whose turn it is. -/
theorem onEntry_at {s u : State} {ty op : Nat} {ops : List Nat} {before : Item → Bool} {item : Nat} {i : Item} {l : ListRun} {b : List Byte}
    (h : s.atEntry ty op before item i l b u) (k : State → Item → ListRun → List Byte → State) : onEntry ty op ops before item s k = .next (k u i l b) := by
  obtain ⟨h1, h2, h3, h4, h5, h6, h7, h8, h9, h10⟩ := h
  have h11 : ¬ l.count ≤ l.pos := by omega
  simp [onEntry, h1, h2, h3, h4, h6, h7, h8, h9, h10, h11]

/-! ## Debug grants -/

/-- Below its level an access is refused, and changes nothing but the instruction register and the answer. -/
theorem grant_refused {c : Instr} {l : Nat} {need : DebugNeed} {p3 : Bool} {s : State} {k : State → State} (ha : s.awake = true) (hl : s.level < l) :
    grant c l need p3 s k = .next s.debugTap.refuseLoupe := by
  have : s.debugTap.level = s.level := rfl
  simp [grant, ha, this, hl]

/-- At its level, in P0, an access is served. -/
theorem grant_served {c : Instr} {l : Nat} {need : DebugNeed} {p3 : Bool} {s : State} {k : State → State} (ha : s.awake = true) (hl : l ≤ s.level)
    (hp : s.inP0 = true) : grant c l need p3 s k = .next (k s.debugTap) := by
  have h1 : s.debugTap.level = s.level := rfl
  have h2 : s.fld Fld.pwrStatState 0 = 0 := by simpa [State.inP0] using hp
  have h3 : ¬ s.level < l := by omega
  cases need <;> simp [grant, ha, h1, h2, h3, DebugNeed.wakes]

/-! ## Requests to device memory -/

/-- A command that accesses memory answers what it would, or the state before it while a request of it waits. -/
@[simp] theorem State.accepting_next (s v : State) : s.accepting (.next v) = .next (s.accepted v) := rfl

theorem State.accepted_served {s v : State} (h : v.waitingRequests ≤ s.waitingRequests) : s.accepted v = v := by
  simp [State.accepted, Nat.not_lt.2 h]

theorem State.accepted_waits {s v : State} (h : s.waitingRequests < v.waitingRequests) : s.accepted v = s := by simp [State.accepted, h]

@[simp] theorem State.accepted_self (s : State) : s.accepted s = s := by simp [State.accepted]

theorem State.accepted_cases (s v : State) : s.accepted v = v ∨ s.accepted v = s := by
  unfold State.accepted; split <;> simp

theorem State.accepting_faults {s : State} {o : Out State} {f : Fault} : s.accepting o = .fault f ↔ o = .fault f := by
  cases o <;> simp [State.accepting]

end Sys2Proof.Machine
end

