-- ==== Sys2Proof/Tests/Slice0.lean ====
section
/-! SUPPORT. Tests: ill-formed commands that `Instr.wf` refuses, a state and operands that meet the hypotheses of each statement, and small steps. -/

namespace Sys2Proof.Tests

open Sys2Proof Sys2Proof.Machine

set_option maxRecDepth 20000
set_option exponentiation.threshold 1000

def part0 : Part := { item := 7, tenant := 0, boardTile := 0, zorli := false, privAcc := 8, spadUse := 4194304, resident := 0, syncUse := 128, since := 0 }
def withTile (tl : Tile) : State := State.reset.setTile 0 tl
def running (i : Insn) : Tile := { Tile.empty with part := some part0, stream := [i] }
def insn (opc flags : Byte) (args : Word32) : Insn := ⟨opc, flags, 3, 5, args, 0, 0, 0⟩
def opOf (i : Insn) : Op := Tile.empty.mkOp i 0 [] [] 0 0

/-! ## Ill-formed commands, one for each check -/

theorem test_wf_region :
    ([.coreRateUpdate 16 0, .uvGuardEntry 16, .uvGuardExit 16] : List Instr).all (fun c => !c.wf) = true := by decide

theorem test_wf_t_1 :
    ([.stallWatchdogExpiry 256, .nop 256, .endStream 256, .loop 256,
     .fence 256, .ldb 256 .pass, .mma 256, .drain 256,
     .swap 256, .swapExchange 256, .red 256, .redSourceAdd 256 0,
     .rowGroupCommit 256 .stream .pass [], .instructionComplete 256 0, .waitSatisfied 256 .instr, .dmaEntryStart 256 0,
     .dmaTransfer 256 0 .pass, .dmaEntryFinish 256 0, .tilePartEnd 256, .vld 256 .pass,
     .vst 256 .pass, .vmov 256 .pass, .vmld 256 .pass, .vmst 256 .pass,
     .viota 256 .pass, .vadd 256 .pass, .vsub 256 .pass, .vmul 256 .pass,
     .vfma 256 .pass, .vmax 256 .pass, .vmin 256 .pass, .vneg 256 .pass,
     .vabs 256 .pass, .vcmp 256 .pass, .vsel 256 .pass, .vsf 256 .pass,
     .vrstat 256 .pass, .vrmsn 256 .pass, .vsmx 256 .pass, .vupd 256 .pass] : List Instr).all (fun c => !c.wf) = true := by decide

theorem test_wf_t_2 :
    ([.scratchpadRowAccess 256 0 [] ⟨[], 0, 0⟩, .scfg 256, .ssig 256, .ssigTakeEffect 256,
     .bcfg 256, .bwaitd 256, .bwaits 256, .bangleWaitSatisfied 256,
     .bpush 256, .bpushTakeEffect 256, .bpop 256, .bpopTakeEffect 256,
     .lkload 256 .pass, .lkput 256 .pass, .lkrd 256 .pass, .lkfl 256 .pass,
     .ropet 256 .pass, .rope 256 .pass, .amask 256 .pass, .apsmx 256 .pass,
     .amerge 256 .pass, .xcfg 256, .xplace 256 .pass, .xgather 256 .pass,
     .xcombine 256 .pass, .tlook 256 .pass, .rsend 256, .rland 256,
     .landingCombine 256 0 0 0, .carryComplete 256 [], .carryTimeout 256, .strandSubstitution 256] : List Instr).all (fun c => !c.wf) = true := by decide

theorem test_wf_fn :
    ([.launch 64 0, .load 64 0, .retire 64 0, .pageCmd 64 0,
     .ingest 64 0, .ingestCmd 64 0, .windowCmd 64 0, .descriptorFetch 64 0,
     .nopDescriptor 64 0, .msixTimerExpiry 64 0, .sqTailWrite 64 0 0, .cqHeadWrite 64 0 0,
     .ringEnable 64 0, .ringDisable 64 0, .busMasterEnableClear 64, .busMasterEnableSet 64,
     .functionDisableComplete 64, .unlistedDescriptorType 64 0, .msixUnmask 64 none] : List Instr).all (fun c => !c.wf) = true := by decide

theorem test_wf_ring :
    ([.launch 0 64, .load 0 64, .retire 0 64, .pageCmd 0 64,
     .ingest 0 64, .ingestCmd 0 64, .windowCmd 0 64, .descriptorFetch 0 64,
     .nopDescriptor 0 64, .sqTailWrite 0 64 0, .cqHeadWrite 0 64 0, .ringEnable 0 64,
     .ringDisable 0 64, .unlistedDescriptorType 0 64] : List Instr).all (fun c => !c.wf) = true := by decide

theorem test_wf_s :
    ([.redSourceAdd 0 16] : List Instr).all (fun c => !c.wf) = true := by decide

theorem test_wf_Waiter :
    ([.waitSatisfied 0 (.dma 4), .waitSatisfied 0 (.redSource 16)] : List Instr).all (fun c => !c.wf) = true := by decide

theorem test_wf_e :
    ([.dmaEntryStart 0 4, .dmaTransfer 0 4 .pass, .dmaEntryFinish 0 4] : List Instr).all (fun c => !c.wf) = true := by decide

theorem test_wf_bank :
    ([.scratchpadRowAccess 0 64 [] ⟨[], 0, 0⟩] : List Instr).all (fun c => !c.wf) = true := by decide

theorem test_wf_List_RowReq :
    ([.scratchpadRowAccess 0 0 [⟨9, 0, none⟩] ⟨[], 0, 0⟩, .scratchpadRowAccess 0 0 [⟨8, 16384, none⟩] ⟨[], 0, 0⟩, .scratchpadRowAccess 0 0 [⟨8, 0, some [(256, 0)]⟩] ⟨[], 0, 0⟩] : List Instr).all (fun c => !c.wf) = true := by decide

theorem test_wf_Strike :
    ([.memCodewordRead 0 0 ⟨[(36, 1)], .once⟩ false false, .memCodewordRead 0 0 ⟨[(0, 0)], .once⟩ false false, .memCodewordRead 0 0 ⟨[(0, 1), (0, 2)], .once⟩ false false, .memCodewordWrite 0 [] false ⟨[(36, 1)], .once⟩ false false,
     .memCodewordWrite 0 [] false ⟨[(0, 0)], .once⟩ false false, .memCodewordWrite 0 [] false ⟨[(0, 1), (0, 2)], .once⟩ false false, .scrubRead 0 ⟨[(36, 1)], .once⟩ false, .scrubRead 0 ⟨[(0, 0)], .once⟩ false,
     .scrubRead 0 ⟨[(0, 1), (0, 2)], .once⟩ false, .migrationCopyStep 0 ⟨[(36, 1)], .once⟩ false false, .migrationCopyStep 0 ⟨[(0, 0)], .once⟩ false false, .migrationCopyStep 0 ⟨[(0, 1), (0, 2)], .once⟩ false false] : List Instr).all (fun c => !c.wf) = true := by decide

theorem test_wf_chan :
    ([.scrubRead 272 ⟨[], .once⟩ false] : List Instr).all (fun c => !c.wf) = true := by decide

theorem test_wf_lchan :
    ([.migrationStart 256, .migrationCopyStep 256 ⟨[], .once⟩ false false, .poisonFillStep 256 false] : List Instr).all (fun c => !c.wf) = true := by decide

theorem test_wf_engine :
    ([.ingestArm 0 4] : List Instr).all (fun c => !c.wf) = true := by decide

theorem test_wf_l :
    ([.linkCodewordReceive 20 ⟨0, 0, false, false, [], none, [], []⟩, .linkRetrain 20, .linkRetrainComplete 20 ⟨[(0, 1), (0, 1), (0, 1), (0, 1), (0, 1)], true, 0⟩ none, .laneSwitchRequest 20 0,
     .laneSwitchRequestReceive 20, .laneSwitch 20, .laneLockLoss 20 0, .linkBringup 20,
     .linkSignalDetect 20 ⟨[(0, 1), (0, 1), (0, 1), (0, 1), (0, 1)], true, 0⟩, .linkIdentityExchange 20 ⟨0, 0, 1⟩, .linkPacketSend 20, .packetReceive 20,
     .spareLaneStopsQualifying 20] : List Instr).all (fun c => !c.wf) = true := by decide

theorem test_wf_Codeword :
    ([.linkCodewordReceive 0 ⟨0, 0, false, false, [], none, [⟨0, 0, .mgmt, 0, 0, 0, 0, 0, .timing, 0, 0, 0, [], List.replicate 97 0, false⟩], []⟩] : List Instr).all (fun c => !c.wf) = true := by decide

theorem test_wf_Training :
    ([.linkRetrainComplete 0 ⟨[(0, 1)], true, 0⟩ none, .linkSignalDetect 0 ⟨[(0, 1)], true, 0⟩] : List Instr).all (fun c => !c.wf) = true := by decide

theorem test_wf_lane :
    ([.laneSwitchRequest 0 5, .laneLockLoss 0 5] : List Instr).all (fun c => !c.wf) = true := by decide

theorem test_wf_Agent :
    ([.linkMaskWrite (.hostVf 0) 0, .linkMaskWrite (.hostVf 64) 0, .linkRtWrite (.hostVf 0) 0 0, .linkRtWrite (.hostVf 64) 0 0,
     .linkPortWrite (.hostVf 0) 0 0, .linkPortWrite (.hostVf 64) 0 0, .linkTopoWrite (.hostVf 0) 0, .linkTopoWrite (.hostVf 64) 0,
     .fnQuotaWrite (.hostVf 0) 0 0, .fnQuotaWrite (.hostVf 64) 0 0, .hwinSetLock (.hostVf 0) 0 0, .hwinSetLock (.hostVf 64) 0 0,
     .grantCommit (.hostVf 0) 0, .grantCommit (.hostVf 64) 0, .tenantFence (.hostVf 0) 0, .tenantFence (.hostVf 64) 0,
     .tenantUnfence (.hostVf 0) 0, .tenantUnfence (.hostVf 64) 0, .auditSnap (.hostVf 0), .auditSnap (.hostVf 64),
     .pwrCtlOff (.hostVf 0), .pwrCtlOff (.hostVf 64), .setupLock (.hostVf 0), .setupLock (.hostVf 64),
     .registerWrite (.hostVf 0) 0 0 0, .registerWrite (.hostVf 64) 0 0 0] : List Instr).all (fun c => !c.wf) = true := by decide

theorem test_wf_chip :
    ([.linkRtWrite .hostPf 2048 0] : List Instr).all (fun c => !c.wf) = true := by decide

theorem test_wf_port :
    ([.linkPortWrite .hostPf 20 0] : List Instr).all (fun c => !c.wf) = true := by decide

theorem test_wf_vector :
    ([.msixTimerExpiry 0 2048] : List Instr).all (fun c => !c.wf) = true := by decide

theorem test_wf_ctx :
    ([.fnQuotaWrite .hostPf 64 0, .grantCommit .hostPf 64, .tenantFence .hostPf 64, .tenantUnfence .hostPf 64] : List Instr).all (fun c => !c.wf) = true := by decide

theorem test_wf_w :
    ([.hwinSetLock .hostPf 256 0] : List Instr).all (fun c => !c.wf) = true := by decide

theorem test_wf_n :
    ([.flrVf 64, .flrVf 0] : List Instr).all (fun c => !c.wf) = true := by decide

theorem test_wf_AssayUnit :
    ([.assayTestStart (.tile 272), .assayTestStart (.lane 100), .assayTestStart (.channel 272)] : List Instr).all (fun c => !c.wf) = true := by decide

theorem test_wf_List_BitVec_12 :
    ([.sensorRead (List.replicate 383 0)] : List Instr).all (fun c => !c.wf) = true := by decide

theorem test_wf_sensor :
    ([.hardTrip 384] : List Instr).all (fun c => !c.wf) = true := by decide

theorem test_wf_kind :
    ([.recoveryImageWrite 4 0 (Image.mk [] [] [] [] []), .recoveryImageWrite 0 0 (Image.mk [] [] [] [] []), .firmwareUpdate 4 (Image.mk [] [] [] [] []), .firmwareUpdate 0 (Image.mk [] [] [] [] []),
     .svnCommit 4, .svnCommit 0] : List Instr).all (fun c => !c.wf) = true := by decide

theorem test_wf_slot :
    ([.recoveryImageWrite 1 2 (Image.mk [] [] [] [] [])] : List Instr).all (fun c => !c.wf) = true := by decide

theorem test_wf_level :
    ([.debugLevelRaise 4, .debugLevelLower 4] : List Instr).all (fun c => !c.wf) = true := by decide

theorem test_wf_HaltTarget :
    ([.debugHalt (.tile 256), .debugSingleStep (.tile 256), .debugResume (.tile 256)] : List Instr).all (fun c => !c.wf) = true := by decide

theorem test_wf_LoupeAccess :
    ([.loupeDebugAccess (.readTrace 256), .loupeDebugAccess (.readSpad 256 0), .loupeDebugAccess (.writeSpad 256 0 0), .loupeDebugAccess (.readTileState 256 0 0),
     .loupeDebugAccess (.writeTileState 256 0 0 0), .loupeDebugAccess (.readRegister 64 0 0), .loupeDebugAccess (.readChallenge 4)] : List Instr).all (fun c => !c.wf) = true := by decide

theorem test_wf_strap :
    ([.porRelease 4] : List Instr).all (fun c => !c.wf) = true := by decide

theorem test_wf_List_Nat :
    ([.memoryTraining [272]] : List Instr).all (fun c => !c.wf) = true := by decide

theorem test_wf_Option_Nat :
    ([.msixUnmask 0 (some 2048)] : List Instr).all (fun c => !c.wf) = true := by decide

/-! ## States and operands that meet the hypotheses of the statements -/

theorem witness_empty_queue : State.reset.pending = [] := rfl

theorem witness_command_wf : (Instr.hardTrip 383).wf = true ∧ (Instr.hardTrip 384).wf = false := by decide

theorem witness_step_canonical : ({ State.reset with pending := [.porRelease 3] }).canonical = true ∧
    ∃ t, step { State.reset with pending := [.porRelease 3] } = .next t := ⟨by decide, _, rfl⟩
/-- Context 3 has an item in flight, the second that it fetched. -/
def oneItem : State := { State.reset with pending := [.tallyTick], items := [Item.new 1 3 0 0 none], nextItem := 2, audit := [(3, (2, 1, 1))] }
theorem witness_items_conserved : oneItem.canonical = true ∧ oneItem.itemsConserved ∧ ∃ t, step oneItem = .next t := by
  refine ⟨by decide, ⟨by decide, by decide, fun f hf => ?_⟩, _, rfl⟩
  have h : ∀ f : Fin 64, (Tab.get (0, 0, 0) oneItem.audit (auditKey 0 f)).1 =
      (Tab.get (0, 0, 0) oneItem.audit (auditKey 0 f)).2.1 + (Tab.get (0, 0, 0) oneItem.audit (auditKey 0 f)).2.2 ∧
      (Tab.get (0, 0, 0) oneItem.audit (auditKey 0 f)).2.2 = (oneItem.items.filter (fun i => i.fn == f.val)).length := by decide
  exact h ⟨f, hf⟩

theorem witness_fields_differ : State.reset.canonical = true ∧ Fld.tileSeqPeak.key 255 ≠ Fld.tilePhysState.key 271 := by decide

theorem witness_memory_wf : Memory.wf [(0, 1), (255, 2)] = true := by decide

def awake0 : State := { State.reset with pins := { State.reset.pins with porN := true } }
theorem witness_tick_leader : awake0.awake = true ∧ awake0.canonical = true ∧ awake0.holdover = false := by decide
theorem witness_tick_holdover : (awake0.setFld Fld.tallyCtlRole 0 2).awake = true ∧ (awake0.setFld Fld.tallyCtlRole 0 2).canonical = true ∧
    (awake0.setFld Fld.tallyCtlRole 0 2).holdover = true := by decide
theorem witness_tick_off : State.reset.awake = false := by decide

theorem witness_rate : ({ State.reset with tally := 1000 }).fld Fld.pwrStatState 0 < 2 ∧ ({ State.reset with tally := 1000 }).canonical = true := by decide
theorem witness_rate_early : State.reset.tally < 1000 := by decide

def follower : State := ((State.reset.setFld Fld.tallyCtlRole 0 2).setFld Fld.tallyCtlEnable 0 1).setFld Fld.linkStatState 0 2
def frame0 : Packet := State.reset.timingFrame 0
theorem witness_frame_send : follower.tallyLeader = false ∧ follower.flag Fld.tallyCtlEnable 0 = true ∧ follower.parentUp = true ∧
    follower.mgmtFull (follower.fld Fld.tallyCtlParent 0) = false := by decide
theorem witness_frame_parent : ({ follower with inbound := [(0, frame0)] }).firstTiming = some (0, frame0) ∧
    ({ follower with inbound := [(0, frame0)] }).tallyLeader = false ∧ ({ follower with inbound := [(0, frame0)] }).flag Fld.tallyCtlEnable 0 = true ∧
    0 = ({ follower with inbound := [(0, frame0)] }).fld Fld.tallyCtlParent 0 ∧ ({ follower with inbound := [(0, frame0)] }).flag Fld.tallyStatLocked 0 = false ∧
    ({ follower with inbound := [(0, frame0)] }).tallyStepped = false ∧ ({ follower with inbound := [(0, frame0)] }).launchRuns = false := by decide
/-- The machine leader with timing frames exchanged. -/
def leader : State := { State.reset.setFld Fld.tallyCtlEnable 0 1 with inbound := [(19, frame0)] }
theorem witness_frame_leader : leader.firstTiming = some (19, frame0) ∧ leader.flag Fld.tallyCtlEnable 0 = true ∧ leader.tallyLeader = true := by decide
theorem witness_frame_disabled : ({ State.reset with inbound := [(19, frame0)] }).firstTiming = some (19, frame0) ∧
    ({ State.reset with inbound := [(19, frame0)] }).flag Fld.tallyCtlEnable 0 = false ∧ State.reset.firstTiming = none ∧ State.reset.tallyLeader = true := by decide

def stuckState : State := { (withTile { running (insn 0x11 0 0) with ops := [opOf (insn 0x11 0 0)] }).setFld Fld.tilePhysState 271 1 with
  tally := 2 ^ max 12 (State.reset.fld Fld.coreStallCtlLimit 0) }
theorem witness_watchdog : stuckState.physOf 0 = some 0 ∧ (stuckState.tile 0).halted = false ∧
    stuckState.carries.any (fun c => c.logical == 0) = false ∧ (stuckState.tile 0).ops.any (stuckState.tile 0).stuck = true ∧
    (stuckState.tile 0).lastStep + 2 ^ max 12 (stuckState.fld Fld.coreStallCtlLimit 0) ≤ stuckState.tally ∧
    (stuckState.bump Fld.tilePhysFences 0 1).pickSpare = some 271 ∧ stuckState.assay.unit = none := by decide
/-- A stuck tile that runs a launch, with no spare. -/
def lastTile : State := { withTile { running (insn 0x11 0 0) with ops := [opOf (insn 0x11 0 0)] } with
  tally := 2 ^ max 12 (State.reset.fld Fld.coreStallCtlLimit 0)
  boards := [(5, some ⟨0x10000, 4096, 1, false, 1, 1, 0, 0, 0, [0], [], [], [], 1, none⟩)]
  items := [⟨7, 0, 0, 0, none, .running, [], 0, 0, none, none, some ⟨5, 0, 1, 0, 0, true, true, [], 0, 0, [], [], [0], true⟩, none, none, [], []⟩] }
theorem witness_watchdog_no_spare : lastTile.canonical = true ∧ lastTile.physOf 0 = some 0 ∧ (lastTile.tile 0).halted = false ∧
    lastTile.carries.any (fun c => c.logical == 0) = false ∧ (lastTile.tile 0).ops.any (lastTile.tile 0).stuck = true ∧
    (lastTile.tile 0).lastStep + 2 ^ max 12 (lastTile.fld Fld.coreStallCtlLimit 0) ≤ lastTile.tally ∧
    (lastTile.bump Fld.tilePhysFences 0 1).pickSpare = none ∧ (lastTile.tile 0).itemId = some 7 ∧
    (lastTile.item 7).any (fun i => (lastTile.launchBoard i).isSome && i.phase == .running) = true := by decide
theorem witness_watchdog_early : State.reset.physOf 0 = some 0 ∧
    State.reset.tally < (State.reset.tile 0).lastStep + 2 ^ max 12 (State.reset.fld Fld.coreStallCtlLimit 0) := by decide

theorem witness_mode : ({ State.reset with modeDue := some 2 }).modeDue = some 2 ∧ ({ State.reset with modeDue := some 1 }).modeDue = some 1 ∧
    State.reset.items.any Item.launched = false ∧ State.reset.modeDue = none := by decide

/-- A bangle of 256 bytes with 100 in it. -/
def bangle0 : Bangle := ⟨0, 256, 4, 4, 0, 100, 100⟩
/-- A tile at a bangle instruction for 100 and for 101 bytes. -/
def bangled (opc : Byte) (bytes : Nat) (held : Bool) : State :=
  withTile { running (insn opc 2 (BitVec.ofNat 32 (16 * bytes))) with bangles := [(0, some bangle0)], held := held }
theorem witness_nop : (withTile (running (insn 0 2 0))).atInsn 0 0 opNop (insn 0 2 0) = true ∧ (running (insn 0 2 0)).signalRoom (insn 0 2 0) = true := by decide
theorem witness_fence : (withTile (running (insn 3 2 0))).atInsn 0 0 opFence (insn 3 2 0) = true ∧ (running (insn 3 2 0)).ops = [] ∧
    (withTile { running (insn 3 2 0) with ops := [opOf (insn 3 2 0)] }).atInsn 0 0 opFence (insn 3 2 0) = true := by decide
theorem witness_scfg : (withTile (running (insn 0x80 0 0x17F))).atInsn 0 0 opScfg (insn 0x80 0 0x17F) = true ∧
    (running (insn 0x80 0 0x17F)).signalRoom (insn 0x80 0 0x17F) = true := by decide
theorem witness_bcfg : (withTile (running (insn 0x84 0 0x144F))).atInsn 0 0 opBcfg (insn 0x84 0 0x144F) = true ∧
    (running (insn 0x84 0 0x144F)).signalRoom (insn 0x84 0 0x144F) = true := by decide
theorem witness_bwaitd : (bangled 0x85 100 false).atInsn 0 0 opBwaitd (insn 0x85 2 1600) = true ∧ (insn 0x85 2 1600).arg 4 23 ≤ bangle0.fill ∧
    ((bangled 0x85 100 false).tile 0).bangle 0 = some bangle0 ∧ ((bangled 0x85 100 false).tile 0).signalRoom (insn 0x85 2 1600) = true ∧
    (bangled 0x85 101 false).atInsn 0 0 opBwaitd (insn 0x85 2 1616) = true ∧ bangle0.fill < (insn 0x85 2 1616).arg 4 23 := by decide
theorem witness_bwaits : (bangled 0x86 156 false).atInsn 0 0 opBwaits (insn 0x86 2 2496) = true ∧ (insn 0x86 2 2496).arg 4 23 ≤ bangle0.size - bangle0.fill ∧
    (bangled 0x86 157 false).atInsn 0 0 opBwaits (insn 0x86 2 2512) = true ∧ bangle0.size - bangle0.fill < (insn 0x86 2 2512).arg 4 23 := by decide
theorem witness_bangle_wait : (bangled 0x85 100 true).acts 0 0 = true ∧ ((bangled 0x85 100 true).tile 0).next = some (insn 0x85 2 1600) ∧
    ((bangled 0x85 100 true).tile 0).held = true ∧ (insn 0x85 2 1600).opc.toNat = opBwaitd ∧ (insn 0x85 2 1600).arg 4 23 ≤ bangle0.fill ∧
    ((bangled 0x86 156 true).tile 0).next = some (insn 0x86 2 2496) ∧ (insn 0x86 2 2496).opc.toNat = opBwaits := by decide

theorem witness_issue : (withTile (running (insn 0 2 0))).canonical = true := by decide

theorem witness_loop : (withTile (running (insn 2 0 0x10))).atInsn 0 0 opLoop (insn 2 0 0x10) = true ∧
    (withTile (running (insn 2 0 0x10))).tripOf (running (insn 2 0 0x10)) (insn 2 0 0x10) = 0 ∧
    (withTile (running (insn 2 0 0xFFFF0010))).atInsn 0 0 opLoop (insn 2 0 0xFFFF0010) = true ∧
    (withTile (running (insn 2 0 0xFFFF0010))).tripOf (running (insn 2 0 0xFFFF0010)) (insn 2 0 0xFFFF0010) = 65535 := by decide
theorem witness_end : (withTile (running (insn 1 2 0))).atInsn 0 0 opEnd (insn 1 2 0) = true ∧ (running (insn 1 2 0)).signalRoom (insn 1 2 0) = true ∧
    (running (insn 2 0 0x10)).signalRoom (insn 2 0 0x10) = true := by decide
/-- A tile at an instruction whose object of completion is full. -/
def fullSignal (opc : Byte) : State := withTile { running (insn opc 2 0) with syncCount := [(5, 4294967295)] }
theorem witness_no_room : (fullSignal 2).atInsn 0 0 opLoop (insn 2 2 0) = true ∧ (fullSignal 1).atInsn 0 0 opEnd (insn 1 2 0) = true ∧
    ((fullSignal 2).tile 0).signalRoom (insn 2 2 0) = false ∧ ((fullSignal 1).tile 0).signalRoom (insn 1 2 0) = false ∧ (fullSignal 1).canonical = true := by decide

/-- A tile with one operation in flight and a bangle of 100 of 256 bytes. -/
def inFlight (i : Insn) : State := withTile { running i with ops := [opOf i], bangles := [(0, some bangle0)] }
theorem witness_requests_issue : (withTile (running (insn 0x81 0 0))).atInsn 0 0 opSsig (insn 0x81 0 0) = true ∧
    (withTile (running (insn 0x87 0 0))).atInsn 0 0 opBpush (insn 0x87 0 0) = true ∧
    (withTile (running (insn 0x88 0 0))).atInsn 0 0 opBpop (insn 0x88 0 0) = true := by decide
theorem witness_ssig_effect : (inFlight (insn 0x81 2 0xFFFF7F)).acts 0 0 = true ∧
    ((inFlight (insn 0x81 2 0xFFFF7F)).tile 0).ops = opOf (insn 0x81 2 0xFFFF7F) :: [] ∧ (insn 0x81 2 0xFFFF7F).opc.toNat = opSsig ∧
    ((inFlight (insn 0x81 2 0xFFFF7F)).tile 0).ssigRoom (insn 0x81 2 0xFFFF7F) = true := by decide
theorem witness_bpush_effect : (inFlight (insn 0x87 0 2496)).acts 0 0 = true ∧ ((inFlight (insn 0x87 0 2496)).tile 0).ops = opOf (insn 0x87 0 2496) :: [] ∧
    (insn 0x87 0 2496).opc.toNat = opBpush ∧ ((inFlight (insn 0x87 0 2496)).tile 0).bangle 0 = some bangle0 ∧
    ((inFlight (insn 0x87 0 2496)).tile 0).signalRoom (insn 0x87 0 2496) = true ∧
    (insn 0x87 0 2496).arg 4 23 = bangle0.size - bangle0.fill ∧ bangle0.size - bangle0.fill < (insn 0x87 0 2512).arg 4 23 := by decide
theorem witness_bpop_effect : (inFlight (insn 0x88 0 1600)).acts 0 0 = true ∧ ((inFlight (insn 0x88 0 1600)).tile 0).ops = opOf (insn 0x88 0 1600) :: [] ∧
    (insn 0x88 0 1600).opc.toNat = opBpop ∧ (insn 0x88 0 1600).arg 4 23 = bangle0.fill ∧ bangle0.fill < (insn 0x88 0 1616).arg 4 23 := by decide

theorem witness_wait_instr : (withTile { running (insn 0x11 1 0) with syncCount := [(3, 1)] }).acts 0 0 = true ∧
    ({ running (insn 0x11 1 0) with syncCount := [(3, 1)] }).next = some (insn 0x11 1 0) ∧ (insn 0x11 1 0).wait = true ∧ (insn 0x11 1 0).opc.toNat ≠ opRed ∧
    ({ running (insn 0x11 1 0) with syncCount := [(3, 1)] }).thresh 3 ≤ ({ running (insn 0x11 1 0) with syncCount := [(3, 1)] }).count 3 ∧
    (running (insn 0x11 1 0)).count 3 < (running (insn 0x11 1 0)).thresh 3 ∧
    (withTile { running (insn 0x11 1 0) with syncCount := [(3, 1)] }).canonical = true := by decide
/-- A DMA entry of engine 3 that waits on object 3. -/
def entry0 (op : Nat) (waits : Bool) : DmaEntry := ⟨op, 3, 0, waits, false, 0, 0, 256, 3, 5, 0, 0, 0⟩
theorem witness_wait_dma : (withTile { running (insn 0 0 0) with syncCount := [(3, 1)], dma := [(3, ⟨[entry0 0 true], false, false, 0, none⟩)] }).acts 0 0 = true ∧
    (Tab.get Dma.idle [(3, (⟨[entry0 0 true], false, false, 0, none⟩ : Dma))] 3).entries = entry0 0 true :: [] ∧ (entry0 0 true).waits = true ∧
    (running (insn 0 0 0)).prologueDone = true ∧ (entry0 0 true).waitSync = 3 ∧
    ({ running (insn 0 0 0) with syncCount := [(3, 1)] }).thresh 3 ≤ ({ running (insn 0 0 0) with syncCount := [(3, 1)] }).count 3 ∧
    (running (insn 0 0 0)).count 3 < (running (insn 0 0 0)).thresh 3 := by decide
theorem witness_wait_red : (withTile { running (insn 0x14 1 0xF0) with ops := [opOf (insn 0x14 1 0xF0)], syncCount := [(3, 1)] }).acts 0 0 = true ∧
    ({ running (insn 0x14 1 0xF0) with ops := [opOf (insn 0x14 1 0xF0)] }).streamFront = some (opOf (insn 0x14 1 0xF0)) ∧
    (opOf (insn 0x14 1 0xF0)).redWaits 0 = true ∧ (opOf (insn 0x14 5 0xF0)).redWaits 15 = true ∧
    ({ running (insn 0x14 1 0xF0) with syncCount := [(3, 1)] }).thresh 3 ≤ ({ running (insn 0x14 1 0xF0) with syncCount := [(3, 1)] }).count 3 ∧
    (running (insn 0x14 1 0xF0)).count 3 < (running (insn 0x14 1 0xF0)).thresh 3 := by decide

/-- An operation that writes the first 4,096 bytes of the scratchpad. -/
def writer0 : Op := { opOf (insn 0x12 0 0) with writes := [(0, 4096)] }
theorem witness_ldb : (withTile (running (insn 0x10 0 5))).atInsn 0 0 opLdb (insn 0x10 0 5) = true ∧ (running (insn 0x10 0 5)).clearOf [(0, 2048)] [] = true ∧
    (withTile { running (insn 0x10 0 5) with ops := [writer0] }).atInsn 0 0 opLdb (insn 0x10 0 5) = true ∧
    ({ running (insn 0x10 0 5) with ops := [writer0] }).clearOf [(0, 2048)] [] = false ∧
    ((running (insn 0x10 0 5)).opnd 0).segs 0 (32 * fmtBytes 5) = [(0, 2048)] := by decide
theorem witness_mma : (withTile (running (insn 0x11 0 0x28))).atInsn 0 0 opMma (insn 0x11 0 0x28) = true ∧
    (withTile { running (insn 0x11 0 0x28) with ops := [writer0] }).atInsn 0 0 opMma (insn 0x11 0 0x28) = true ∧
    ({ running (insn 0x11 0 0x28) with ops := [writer0] }).clearOf (((running (insn 0x11 0 0x28)).opnd 0).segs 0 (4 * fmtBytes 5)) [] = false := by decide
theorem witness_drain : (withTile (running (insn 0x12 0 0x228))).atInsn 0 0 opDrain (insn 0x12 0 0x228) = true ∧
    (running (insn 0x12 0 0x228)).clearOf [] [(0, 4096)] = true ∧ ({ running (insn 0x12 0 0x228) with ops := [writer0] }).clearOf [] [(0, 1)] = false := by decide
theorem witness_red : (withTile (running (insn 0x14 0 0xF0))).atInsn 0 0 opRed (insn 0x14 0 0xF0) = true ∧
    ({ running (insn 0x14 0 0xF0) with ops := [writer0] }).clearOf [(0, 8192)] [] = false := by decide
theorem witness_swap : (withTile (running (insn 0x13 0 0))).atInsn 0 0 opSwap (insn 0x13 0 0) = true := by decide

def red0 (flags : Byte) : Op := { opOf (insn 0x14 flags 0xF0) with ready := [0, 15] }
theorem witness_swap_exchange : (withTile { running (insn 0x13 0 0) with ops := [opOf (insn 0x13 0 0)] }).acts 0 0 = true ∧
    ({ running (insn 0x13 0 0) with ops := [opOf (insn 0x13 0 0)] }).streamFront = some (opOf (insn 0x13 0 0)) ∧ (insn 0x13 0 0).swaps = true := by decide
theorem witness_red_add : (withTile { running (insn 0x14 4 0xF0) with ops := [red0 4] }).acts 0 0 = true ∧
    ({ running (insn 0x14 4 0xF0) with ops := [red0 4] }).streamFront = some (red0 4) ∧ (red0 0).mayAdd 0 = true ∧ (red0 4).mayAdd 15 = true ∧
    ({ running (insn 0x14 4 0xF0) with ops := [red0 4] }).accFree (red0 4) = true ∧
    (List.range 0).all (fun m => (red0 0).added.contains m) = true ∧ (List.range 15).all (fun m => (red0 4).added.contains m) = false := by decide

def mma0 : Tile := { running (insn 0x11 0 0x28) with ops := [opOf (insn 0x11 0 0x28)] }
theorem witness_mma_commit : (withTile mma0).canonical = true ∧ (withTile mma0).acts 0 0 = true ∧
    mma0.groupFront .stream = some (opOf (insn 0x11 0 0x28)) ∧ mma0.part = some part0 ∧ (insn 0x11 0 0x28).opc.toNat = opMma := by decide

def redFront : Tile := { running (insn 0x14 0 0xF0) with ops := [{ red0 0 with source := some 15 }] }
def drainFront : Tile := { running (insn 0x12 0 0x28) with ops := [opOf (insn 0x12 0 0x28)] }
theorem witness_red_commit : (withTile redFront).canonical = true ∧ (withTile redFront).acts 0 0 = true ∧ redFront.groupFront .stream = some { red0 0 with source := some 15 } ∧
    redFront.part = some part0 ∧ (insn 0x14 0 0xF0).opc.toNat = opRed := by decide
theorem witness_drain_commit : (withTile drainFront).acts 0 0 = true ∧ drainFront.groupFront .drain = some (opOf (insn 0x12 0 0x28)) ∧
    drainFront.part = some part0 ∧ (insn 0x12 0 0x28).opc.toNat = opDrain ∧ (withTile drainFront).canonical = true ∧ (insn 0x12 0 0x28).argBit 9 = false ∧
    ((opOf (insn 0x12 0 0x28)).opnd drainFront 0).region = none ∧ ((opOf (insn 0x12 0 0x28)).opnd drainFront 1).region = none ∧
    fmtScaled ((insn 0x12 0 0x28).arg 3 4) = false ∧ (insn 0x12 0 0x28).argBit 8 = false := by decide
/-- A drain to MXFP4, with its scales behind the rows. -/
def drainScaled : Insn := { insn 0x12 0 0x20 with opd1 := 256 }
theorem witness_drain_scaled : (withTile { running drainScaled with ops := [opOf drainScaled] }).canonical = true ∧
    (withTile { running drainScaled with ops := [opOf drainScaled] }).acts 0 0 = true ∧
    ({ running drainScaled with ops := [opOf drainScaled] }).groupFront .drain = some (opOf drainScaled) ∧ fmtScaled (drainScaled.arg 3 4) = true ∧
    drainScaled.argBit 9 = false ∧ 0 + 4 * fmtBytes (drainScaled.arg 3 4) ≤ 256 := by decide
def withNoSpare : State := withTile mma0
theorem witness_array_fence : ((withNoSpare).bump Fld.tileStoreErrPathPar 0 1).flag Fld.tileArrayStrand 0 = false ∧
    withNoSpare.acts 0 0 = true ∧ mma0.groupFront .stream = some (opOf (insn 0x11 0 0x28)) ∧ ((withNoSpare).bump Fld.tileStoreErrPathPar 0 1).pickSpare = none := by decide

def ldbOp : Op := opOf (insn 0x10 2 5)
def ended0 : Tile := { running (insn 1 0 0) with ended := true }
def launch0 (tiles : List Nat) : Launch := ⟨0, 0, 1, 0, 0, true, true, [], 0, 0, [], [], tiles, true⟩
def item0 (phase : Phase) (launch : Option Launch) : Item := ⟨7, 0, 0, 0, none, phase, [], 0, 0, none, none, launch, none, none, [], []⟩
def endedState (tiles : List Nat) : State := { withTile ended0 with items := [item0 .running (some (launch0 tiles))] }
theorem witness_complete : (withTile { mma0 with ops := [{ opOf (insn 0x11 2 0x28) with done := true }] }).acts 0 0 = true ∧
    ({ mma0 with ops := [{ opOf (insn 0x11 2 0x28) with done := true }] }).signalRoom (insn 0x11 2 0x28) = true := by decide
theorem witness_ldb_complete : (withTile { running (insn 0x10 2 5) with ops := [ldbOp] }).acts 0 0 = true ∧
    ({ running (insn 0x10 2 5) with ops := [ldbOp] }).loadReady ldbOp = true ∧ ldbOp.insn.opc.toNat = opLdb := by decide
theorem witness_part_end : (endedState [0]).acts 0 0 = true ∧ ended0.part = some part0 ∧ ended0.partOver = true ∧ (endedState [0]).landings = [] ∧
    (({ endedState [0] with items := [item0 .running (some (launch0 []))] }).item 7) = some (item0 .running (some (launch0 []))) ∧
    (endedState [0, 1]).acts 0 0 = true ∧ mma0.partOver = false := by decide

/-- A state whose tile 0 is at a vector instruction of 16,384 elements. -/
def atVector (opc : Byte) : State := withTile (running (insn opc 0 0x3FFF))
theorem witness_lanes : ∀ opc ∈ [(0x42 : Byte), 0x45, 0x48, 0x49, 0x4A, 0x4B, 0x4C, 0x4D, 0x4E, 0x4F],
    (atVector opc).canonical = true ∧ (atVector opc).atInsn 0 0 opc.toNat (insn opc 0 0x3FFF) = true ∧
    (atVector opc).vcount ((atVector opc).tile 0) (insn opc 0 0x3FFF) = 16384 := by decide

theorem witness_lane_functions : ∀ opc ∈ [(0x51 : Byte), 0x58, 0x61], (atVector opc).canonical = true ∧
    (atVector opc).atInsn 0 0 opc.toNat (insn opc 0 0x3FFF) = true := by decide
theorem witness_vld : (withTile (running (insn 0x40 0 0xC03FFF))).canonical = true ∧ (withTile (running (insn 0x40 0 0xC03FFF))).atInsn 0 0 0x40 (insn 0x40 0 0xC03FFF) = true ∧ (insn 0x40 0 0xC03FFF).arg 21 3 = 6 ∧
    fmtScaled 6 = false ∧ (running (insn 0x40 0 0xC03FFF)).clearOf [(0, 65536)] [] = true := by decide
theorem witness_vld_scaled : (withTile (running (insn 0x40 0 0x803FFF))).canonical = true ∧ (withTile (running (insn 0x40 0 0x803FFF))).atInsn 0 0 0x40 (insn 0x40 0 0x803FFF) = true ∧
    (insn 0x40 0 0x803FFF).arg 21 3 = 4 ∧ fmtScaled 4 = true ∧ (running (insn 0x40 0 0x803FFF)).clearOf [(0, 8192), (0, 512)] [] = true := by decide

theorem witness_vcmp : (withTile (running (insn 0x50 0 0x1FFF))).canonical = true ∧ (withTile (running (insn 0x50 0 0x1FFF))).atInsn 0 0 0x50 (insn 0x50 0 0x1FFF) = true ∧
    (withTile (running (insn 0x50 0 0x1FFF))).vcount (running (insn 0x50 0 0x1FFF)) (insn 0x50 0 0x1FFF) = 8192 := by decide
theorem witness_vmld : (withTile (running (insn 0x43 0 0x1FFF))).canonical = true ∧
    (withTile (running (insn 0x43 0 0x1FFF))).vcount (running (insn 0x43 0 0x1FFF)) (insn 0x43 0 0x1FFF) = 8192 ∧ (withTile (running (insn 0x43 0 0x1FFF))).atInsn 0 0 0x43 (insn 0x43 0 0x1FFF) = true ∧
    (running (insn 0x43 0 0x1FFF)).clearOf (((running (insn 0x43 0 0x1FFF)).opnd 0).segs 0 1024) [] = true := by decide

theorem witness_vst : (withTile (running (insn 0x41 0 0xC00000))).canonical = true ∧ (withTile (running (insn 0x41 0 0xC00000))).atInsn 0 0 0x41 (insn 0x41 0 0xC00000) = true ∧
    (running (insn 0x41 0 0xC00000)).clearOf [] [(0, 4)] = true ∧ fmtScaled 6 = false := by decide
theorem witness_vst_scaled : (withTile (running (insn 0x41 0 0x88001F))).canonical = true ∧ (withTile (running (insn 0x41 0 0x88001F))).atInsn 0 0 0x41 (insn 0x41 0 0x88001F) = true ∧
    fmtScaled ((insn 0x41 0 0x88001F).arg 21 3) = true ∧ (insn 0x41 0 0x88001F).argBit 19 = true ∧ (running (insn 0x41 0 0x88001F)).clearOf [] [(0, 16), (0, 1)] = true := by decide
theorem witness_vector_records : (∀ opc ∈ [(0x44 : Byte), 0x60, 0x68, 0x70], (atVector opc).canonical = true) ∧ (atVector 0x44).atInsn 0 0 0x44 (insn 0x44 0 0x3FFF) = true ∧ (running (insn 0x44 0 0x3FFF)).clearOf [] [(0, 2048)] = true ∧
    (atVector 0x60).atInsn 0 0 0x60 (insn 0x60 0 0x3FFF) = true ∧ (atVector 0x68).atInsn 0 0 0x68 (insn 0x68 0 0x3FFF) = true := by decide
theorem witness_vupd : (withTile (running (insn 0x70 0 0x4000))).atInsn 0 0 0x70 (insn 0x70 0 0x4000) = true ∧
    (withTile (running (insn 0x70 0 0x4000))).vcount (running (insn 0x70 0 0x4000)) (insn 0x70 0 0x4000) = 0 ∧
    (atVector 0x70).atInsn 0 0 0x70 (insn 0x70 0 0x3FFF) = true ∧ (running (insn 0x70 0 0x3FFF)).ops = [] ∧ (insn 0x70 0 0x40003FFF).argBit 30 = true := by decide

/-- A state in which tile 0 runs an entry of engine 3 between the scratchpad and region 0, the transfer it has reached, and what of it is under way. -/
def dmaState (en : DmaEntry) (started : Bool) (k : Nat) (moving : Option Moving) : State :=
  let b : Board := ⟨0, 4096, 1, false, 1, 1, 0, 0, 0, [1], [⟨1, false, 4096, 0x1000000000, 4096⟩], [], [], 1, none⟩
  { withTile { running (insn 0 0 0) with dma := [(3, ⟨[en], started, false, k, moving⟩)] } with
    boards := [(0, some b)], items := [item0 .running (some (launch0 [0]))] }
def dmaItem : Item := item0 .running (some (launch0 [0]))
def dmaFill : DmaEntry := { entry0 0 false with tripWord := 0xFFFF }
def dmaStore : DmaEntry := { entry0 1 false with tripWord := 0xFFFF, signals := true }
def dmaMoving (rows : List (Nat × Nat)) : Moving := ⟨.device 0x1000000000, [(0, 256)], rows, [], false⟩
theorem witness_dma_start : (dmaState (entry0 0 true) false 0 none).acts 0 0 = true ∧
    (((dmaState (entry0 0 true) false 0 none).tile 0).engine 3).started = false ∧ (((dmaState (entry0 0 true) false 0 none).tile 0).engine 3).released = false ∧
    (((dmaState (entry0 0 true) false 0 none).tile 0).engine 3).entries = entry0 0 true :: [] ∧
    (((dmaState dmaFill false 0 none).tile 0).engine 3).entries = dmaFill :: [] ∧ dmaFill.waits = false ∧ (dmaState dmaFill false 0 none).acts 0 0 = true ∧
    ((dmaState dmaFill false 0 none).tile 0).prologueDone = true ∧ (entry0 0 true).waits = true := by decide
theorem witness_dma_begin : (dmaState dmaFill true 0 none).acts 0 0 = true ∧
    (dmaState dmaFill true 0 none).dmaNow ((dmaState dmaFill true 0 none).tile 0) 3 = some (dmaFill, dmaItem, ⟨1, false, 4096, 0x1000000000, 4096⟩) ∧
    0 < dmaCount dmaItem dmaFill ⟨1, false, 4096, 0x1000000000, 4096⟩ ∧ ((dmaState dmaFill true 0 none).tile 0).dmaRoom dmaFill = true ∧
    (((dmaState dmaFill true 0 none).tile 0).engine 3).started = true := by decide
theorem witness_dma_rows : (dmaState dmaStore true 0 (some (dmaMoving [(0, 128), (256, 128)]))).acts 0 0 = true ∧
    (dmaState dmaStore true 0 (some (dmaMoving [(0, 256)]))).dmaNow ((dmaState dmaStore true 0 (some (dmaMoving [(0, 256)]))).tile 0) 3 =
      some (dmaStore, dmaItem, ⟨1, false, 4096, 0x1000000000, 4096⟩) ∧
    (dmaState dmaStore true 0 (some (dmaMoving [(0, 256)]))).sideReady 0 dmaStore (dmaMoving [(0, 256)]).side = true ∧
    0 < dmaCount dmaItem dmaStore ⟨1, false, 4096, 0x1000000000, 4096⟩ := by decide
theorem witness_dma_finish : (dmaState dmaStore true 1 none).acts 0 0 = true ∧
    (dmaState dmaStore true 1 none).dmaNow ((dmaState dmaStore true 1 none).tile 0) 3 = some (dmaStore, dmaItem, ⟨1, false, 4096, 0x1000000000, 4096⟩) ∧
    dmaCount dmaItem dmaStore ⟨1, false, 4096, 0x1000000000, 4096⟩ ≤ 1 ∧ dmaStore.signals = true ∧
    ((dmaState dmaStore true 1 none).tile 0).signalFits dmaStore.signalSync 1 = true ∧ dmaFill.signals = false ∧
    (dmaState dmaFill true 1 none).dmaNow ((dmaState dmaFill true 1 none).tile 0) 3 = some (dmaFill, dmaItem, ⟨1, false, 4096, 0x1000000000, 4096⟩) := by decide

def rowWrite : RowReq := ⟨0, 16383, some [(255, 7)]⟩
theorem witness_row_write : (withTile (running (insn 0 0 0))).acts 0 0 = true ∧ rowWrite.wf = true ∧ bankOf rowWrite.row = 63 ∧
    ((withTile (running (insn 0 0 0))).tile 0).part.isSome = true ∧ (withTile (running (insn 0 0 0))).raceAt 0 (running (insn 0 0 0)) [] rowWrite = false := by decide
def fullBank : Tile := { running (insn 0 0 0) with rowSpare := [(63, 1), (127, 2), (191, 3), (255, 4)] }
/-- The state that an access with an uncorrectable word in word 31 of row 16383 leaves before the row is remapped. -/
def rowBad (tl : Tile) : State :=
  let u := ((withTile tl).tileEvent 0 evRow 1).setTile 0 { tl with lastGrant := Tab.set 8 tl.lastGrant 63 0 }
  (u.bump Fld.tileRasSpUe 0 1).setTile 0 ((u.tile 0).markUnit (8 * 16383 + 31 / 4))
theorem witness_row_reads : (⟨8, 16383, none⟩ : RowReq).wf = true ∧ (⟨0, 16383, none⟩ : RowReq).wf = true ∧ (⟨8, 16319, none⟩ : RowReq).wf = true ∧ bankOf 16383 = 63 ∧
    bankOf 16319 = 63 ∧ (withTile (running (insn 0 0 0))).raceAt 0 (running (insn 0 0 0)) [⟨8, 16319, none⟩] ⟨0, 16383, none⟩ = false ∧ (withTile (running (insn 0 0 0))).raceAt 0 (running (insn 0 0 0)) [] ⟨0, 16383, none⟩ = false ∧
    (withTile fullBank).raceAt 0 fullBank [] ⟨0, 16383, none⟩ = false ∧ (withTile fullBank).acts 0 0 = true ∧ fullBank.part.isSome = true ∧
    ((rowBad fullBank).tile 0).bankSpares 63 = 4 ∧ ((rowBad (running (insn 0 0 0))).tile 0).bankSpares 63 = 0 ∧
    grantee (Tab.get 8 (running (insn 0 0 0)).lastGrant 63) [⟨0, 16383, none⟩, ⟨8, 16319, none⟩] = some ⟨0, 16383, none⟩ := by decide

/-- A state in which tile 0 is at a locket instruction of slot 1, bound to pool 0 (BF16, one head of 64). -/
def locketState (opc : Byte) (args : Word32) (fill : Nat) : State :=
  let b : Board := ⟨0, 4096, 1, false, 1, 1, 0, 0, 0, [1], [⟨2, false, 4096, 0x1000000000, 4096⟩], [], [], 1, none⟩
  { withTile { running (insn opc 0 args) with locket := [(1, { Slot.empty with bound := some (CacheRef.ofWord 0), fill := fill })] } with
    boards := [(0, some b)], items := [item0 .running (some (launch0 [0]))],
    pools := [(0, some ⟨0x1000100000, 0x1000200000, 0x1000300000, 0x1000000000, 16, 512, 2, 1, 256, 64, 1⟩)] }
theorem witness_locket : ([((0x90 : Byte), (1 : Word32), 0), (0x91, 0x3F, 0), (0x91, 1, 31), (0x92, 1, 0), (0x93, 1, 0)].all fun o =>
    (locketState o.1 o.2.1 o.2.2).canonical && Tab.sorted ((locketState o.1 o.2.1 o.2.2).tile 0).locket &&
    (locketState o.1 o.2.1 o.2.2).atInsn 0 0 o.1.toNat (insn o.1 0 o.2.1) && !((locketState o.1 o.2.1 o.2.2).tile 0).locketHeld (insn o.1 0 o.2.1) && (insn o.1 0 o.2.1).arg 0 1 == 1 &&
    ((locketState o.1 o.2.1 o.2.2).partItem ((locketState o.1 o.2.1 o.2.2).tile 0)).any
      (fun it => ((locketState o.1 o.2.1 o.2.2).refPool it (CacheRef.ofWord 0)).isSome) &&
    decide ((insn o.1 0 o.2.1).arg 1 5 + 1 ≤ 32 - o.2.2) && ((locketState o.1 o.2.1 o.2.2).tile 0).clearOf [(0, 8192)] [(0, 8192)]) = true := by decide

theorem witness_rope : ([((0x94 : Byte), (0x80 : Word32)), (0x95, 0x83FF), (0x96, 0x1FFF), (0x97, 0x3FFF), (0x98, 0x3FFF)].all fun o =>
    (withTile (running (insn o.1 0 o.2))).canonical && (withTile (running (insn o.1 0 o.2))).atInsn 0 0 o.1.toNat (insn o.1 0 o.2) &&
    Tab.sorted (running (insn o.1 0 o.2)).angle && (running (insn o.1 0 o.2)).clearOf [(0, 1024)] []) = true := by decide
theorem witness_amask_count : (withTile (running (insn 0x96 0 0x1FFF))).vcount (running (insn 0x96 0 0x1FFF)) (insn 0x96 0 0x1FFF) = 8192 ∧
    (withTile (running (insn 0x98 0 0))).vcount (running (insn 0x98 0 0)) (insn 0x98 0 0) = 1 := by decide
/-- AMERGE of one chunk under M0 with its output at byte 16 and its record at byte 0. -/
theorem witness_amerge : (withTile (running { insn 0x98 0 0x80000 with opd0 := 16 })).canonical = true ∧
    (running { insn 0x98 0 0x80000 with opd0 := 16 }).vaddr 16 = 16 ∧
    (withTile (running { insn 0x98 0 0x80000 with opd0 := 16 })).atInsn 0 0 0x98 { insn 0x98 0 0x80000 with opd0 := 16 } = true ∧
    ({ insn 0x98 0 0x80000 with opd0 := 16 }).argBit 19 = true := by decide

def expertState (opc : Byte) (args : Word32) : State := withTile { running (insn opc 0 args) with shape := some (2, 1) }
theorem witness_xcfg : (withTile (running (insn 0xA0 2 0x3FFFFF))).atInsn 0 0 0xA0 (insn 0xA0 2 0x3FFFFF) = true ∧
    (running (insn 0xA0 2 0x3FFFFF)).signalRoom (insn 0xA0 2 0x3FFFFF) = true := by decide
theorem witness_experts : ([((0xA1 : Byte), (0x701 : Word32)), (0xA2, 0x101), (0xA3, 0x0FF)].all fun o =>
    (expertState o.1 o.2).canonical && (expertState o.1 o.2).atInsn 0 0 o.1.toNat (insn o.1 0 o.2) && ((expertState o.1 o.2).tile 0).ops.isEmpty) = true := by decide
/-- In an empty scratchpad both gathered slots name token 0; records of 0xFF bytes hold no entry. -/
theorem witness_gather_slots : leNat ((running (insn 0xA2 0 0x101)).sread ((running (insn 0xA2 0 0x101)).opnd 0) (slotTable 2 + 2) 2) < 2 ∧
    leNat ((running (insn 0xA2 0 0x101)).sread ((running (insn 0xA2 0 0x101)).opnd 0) (slotTable 2) 2) < 2 := by decide
def combineTile : Tile := { running (insn 0xA3 0 0x0FF) with shape := some (2, 1), spad := (List.range 128).map (fun k => (k, 255)) }
theorem witness_combine_records : (withTile combineTile).canonical = true ∧ (withTile combineTile).atInsn 0 0 0xA3 (insn 0xA3 0 0x0FF) = true ∧
    (withTile { combineTile with stream := [insn 0xA3 0 0x2FF] }).atInsn 0 0 0xA3 (insn 0xA3 0 0x2FF) = true ∧ (insn 0xA3 0 0x2FF).argBit 9 = true ∧
    recordEntries 256 1 (combineTile.sread (combineTile.opnd 0) 0 64) 8 0 (-1) = [] ∧
    recordEntries 256 1 (combineTile.sread (combineTile.opnd 0) 64 64) 8 0 (-1) = [] := by decide

theorem witness_tlook : (withTile (running (insn 0xC0 0 0x43FFF))).canonical = true ∧ (withTile (running (insn 0xC0 0 0x43FFF))).atInsn 0 0 0xC0 (insn 0xC0 0 0x43FFF) = true ∧
    (insn 0xC0 0 0x43FFF).argBit 27 = false ∧ (running (insn 0xC0 0 0x43FFF)).clearOf [(0, 8192)] [] = true ∧
    (withTile (running (insn 0xC0 0 0x8043FFF))).atInsn 0 0 0xC0 (insn 0xC0 0 0x8043FFF) = true ∧ (insn 0xC0 0 0x8043FFF).argBit 27 = true ∧
    (running (insn 0xC0 0 0x8043FFF)).clearOf [(0, 8192), (0, 512)] [] = true := by decide

/-- A descriptor of a type with DEV_ADDR and nothing else, or with handle h. -/
def desc0 (type flags h : Byte) : List Byte := [type, flags] ++ List.replicate 14 0 ++ [h] ++ List.replicate 47 0
/-- A load descriptor of a 64-byte aligned range at 0x100000. -/
def loadDesc : List Byte := [2, 2] ++ List.replicate 32 0 ++ [0x10] ++ List.replicate 6 0 ++ [0x10] ++ List.replicate 22 0
/-- A fetched item of function 0, ring 63, with a descriptor. -/
def fetched0 (d : List Byte) : Item := { Item.new 7 0 63 0 (some d) with fn := 0 }
/-- Such an item alone in flight, with a board loaded at handle 5. -/
def eventState (d : List Byte) : State :=
  { State.reset with
    items := [fetched0 d],
    boards := [(5, some ⟨0x10000, 4096, 1, false, 1, 1, 0, 0, 0, [0], [], [], [⟨64, [], [], [], []⟩], 0, none⟩)],
    grants := [(0, { Grant.empty with mem := [(0, 0, 0x1000000, false)] })] }
theorem witness_event3_nop : (eventState (desc0 0x0F 0 0)).passes3 0 63 (fetched0 (desc0 0x0F 0 0)) (desc0 0x0F 0 0) tyNop = true := by decide
theorem witness_event3_launch : (eventState (desc0 1 2 5)).passes3 0 63 (fetched0 (desc0 1 2 5)) (desc0 1 2 5) tyLaunch = true ∧
    ((eventState (desc0 1 2 5)).pass3 7 .passed3).paramSize 0 (desc0 1 2 5) = some 64 ∧
    (((eventState (desc0 1 2 5)).pass3 7 .passed3).tenantRead 0 0 64 true).1 = some (List.replicate 64 0, false) ∧
    ((eventState (desc0 1 2 6)).pass3 7 .passed3).paramSize 0 (desc0 1 2 6) = none := by decide
theorem witness_event3_load : (eventState loadDesc).passes3 0 63 (fetched0 loadDesc) loadDesc tyLoad = true ∧ (fetched0 loadDesc).fn = 0 ∧
    (eventState loadDesc).board 0 (descHandle loadDesc) = none ∧ ({ eventState loadDesc with boards := [(0, (eventState loadDesc).board 0 5)] }).passes3 0 63 (fetched0 loadDesc) loadDesc tyLoad = true := by decide
theorem witness_event3_retire : (eventState (desc0 3 0 5)).passes3 0 63 (fetched0 (desc0 3 0 5)) (desc0 3 0 5) tyRetire = true ∧
    (eventState (desc0 3 0 5)).unchecked 0 = [] ∧ ((eventState (desc0 3 0 5)).board 0 5).map (fun b => b.retiring) = some none ∧
    (eventState (desc0 3 0 6)).board 0 6 = none := by decide
theorem witness_event3_unlisted : (eventState (desc0 0xFF 0 0)).atEvent3 0 63 (fetched0 (desc0 0xFF 0 0)) (desc0 0xFF 0 0) = true ∧
    (eventState (desc0 0xFF 0 0)).fenced 0 = false ∧ typeListed (descType (desc0 0xFF 0 0)) = false ∧
    ((eventState (desc0 0xFF 0 0)).setFlag Fld.tenantCtlFenced 0 true).atEvent3 0 63 (fetched0 (desc0 0xFF 0 0)) (desc0 0xFF 0 0) = true ∧
    ((eventState (desc0 0xFF 0 0)).setFlag Fld.tenantCtlFenced 0 true).fenced 0 = true := by decide

/-- A launch of the one-tile board of handle 5, in a phase, with C. -/
def launching (ph : Phase) (count tally : Nat) (keys : List AbortedKey) : State :=
  { (eventState (desc0 1 2 5)).setFld Fld.memTopChannels 0 1 with
    items := [{ fetched0 (desc0 1 2 5) with phase := ph, launch := some { launch0 [0] with handle := 5, count := count } }],
    order4 := [7], tally := tally, abortedKeys := keys,
    grants := [(0, { Grant.empty with rows := 1, cols := 1, mem := [(0, 0, 0x1000000, false)] })] }
def launched (ph : Phase) (count : Nat) : Item := { fetched0 (desc0 1 2 5) with phase := ph, launch := some { launch0 [0] with handle := 5, count := count } }
theorem witness_launch_check : (launching .passed3 0 0 []).item 7 = some (launched .passed3 0) ∧ (launching .passed3 0 0 []).listBefore (launched .passed3 0) = false ∧
    (launching .passed3 0 0 []).waiting4.head? = some 7 ∧ (launching .passed3 0 0 []).launchCause 0 { launch0 [0] with handle := 5, boardId := 0 } = some causeParamHeader ∧
    (launching .passed3 0 0 []).launchCause 0 { launch0 [0] with handle := 5 } = none := by decide
theorem witness_launch_arm : (launching .passed4 0 0 []).item 7 = some (launched .passed4 0) ∧ (launching .passed4 0 0 []).creditsBefore (launched .passed4 0) = false ∧
    ((launching .passed4 0 0 []).launchVariant (launched .passed4 0)).isSome = true ∧
    (launching .passed4 0 0 [⟨1, 0, 0x41, 0, none⟩]).abortedKey { launch0 [0] with handle := 5 } = some ⟨1, 0, 0x41, 0, none⟩ ∧
    (launching .passed4 0 (2 ^ 63) [⟨1, 0, 0x41, 0, none⟩]).abortedKey { launch0 [0] with handle := 5 } = none := by decide
theorem witness_launch_begin : (launching .armed 9 10 []).item 7 = some (launched .armed 9) ∧
    ((launching .armed 9 10 []).launchBoard (launched .armed 9)).map (fun b => (b.tiles.all (launching .armed 9 10 []).tileFree,
      (launching .armed 9 10 []).tilesBefore (launched .armed 9) b.tiles)) = some (true, false) ∧
    ((launching .armed 9 10 []).launchVariant (launched .armed 9)).isSome = true ∧ (launching .armed 9 10 []).canonical = true := by decide

/-- Function 0 with ring 63 enabled over a window of host memory, the link up, and an item that has ended. -/
def hostState (st : List Nat) : State :=
  { ((((((State.reset.setFlag Fld.hwinEnable 0 true).setFlag Fld.hwinLock 0 true).setFlag Fld.hwinRead 0 true).setFlag Fld.hwinWrite 0 true).setFld
      Fld.hwinSize 0 0x100000).setFlag Fld.ringCfgActive 63 true).setFlag Fld.ringCfgEnable 63 true with
    fns := { State.reset.fns with memSpace := true, linkUp := true, busMaster := [(0, true)], rings := [(63, ⟨4, 0⟩)] },
    items := [{ fetched0 (desc0 0x0F 0 0) with phase := .done, statuses := st, since := some 0 }] }
def endedItem (st : List Nat) : Item := { fetched0 (desc0 0x0F 0 0) with phase := .done, statuses := st, since := some 0 }
theorem witness_record : (hostState []).item 7 = some (endedItem []) ∧ (hostState []).recordDue (endedItem []) = true ∧ (hostState []).hostReady 0 = true ∧
    ((hostState []).hostWrite 0 0 ((endedItem []).record 0 0 64) false).1 = true ∧ (endedItem []).statusCode = 0 ∧ (endedItem [stFenced]).statusCode = stFenced ∧
    ((hostState []).hostPermits 0 0x100000 32 true) = false := by decide
theorem witness_fetch_one : ((hostState []).hostRead 0 0 64).1 = some (List.replicate 64 0, false) := by decide
theorem witness_status : (endedItem [stPoison, stRejected]).statusCode = stRejected ∧
    ({ endedItem [stPoison, stRejected] with cause := causeRuntimeBound }).statusCode = stPoison ∧
    ({ endedItem [stReplayed, stPreempted, stStaleWindow, stRejected] with cause := causeRuntimeBound }).statusCode = stRejected ∧ (endedItem [stReplayed]).statusCode = stReplayed := by decide

/-- A pool of one BF16 page at 0, its control area at 0x10000 and one page-table entry at 0x30000. -/
def pool0 : Pool := ⟨0, 0, 0x10000, 0x30000, 1, 1, 2, 1, 256, 64, 1⟩
/-- A running list of function 0 whose next entry lies at host address 0. -/
def listItem (ty : Byte) (l : ListRun) : Item := { fetched0 (desc0 ty 0 0) with phase := .running, list := some l }
def run0 : ListRun := ⟨0, 2, 0, 0, 0x1000, 0x20000, none⟩
/-- A state with such a list, the pool open. -/
def listState (ty : Byte) (l : ListRun) (entry : Mem) : State :=
  { ((hostState []).setFld Fld.memTopChannels 0 256).setFld Fld.memTopAddr 0 0x1000000 with
    items := [listItem ty l], host := entry, pools := [(0, some pool0)], grants := [(0, { Grant.empty with mem := [(0, 0, 0x1000000, false)] })] }
def pageDesc : List Byte := [4] ++ List.replicate 23 0 ++ [2] ++ List.replicate 8 0 ++ [0x10] ++ List.replicate 8 0 ++ [2] ++ List.replicate 21 0
def poolRecord : List Byte := List.replicate 18 0 ++ [1] ++ List.replicate 7 0 ++ [3] ++ List.replicate 5 0 ++ [1, 0, 0, 0, 1, 0, 0, 0, 2, 1, 0, 1, 64, 0, 1, 0] ++
  List.replicate 16 0
theorem witness_page_entry : ([pgMap, pgRef, pgUnref, pgSwapOut, pgSwapIn].all fun op =>
    let s := listState 4 run0 [(0, BitVec.ofNat 8 op)]
    s.item 7 == some (listItem 4 run0) && (listItem 4 run0).type == tyPageCmd && s.hostReady 0 && !(s.aheadOf (listItem 4 run0)).any Item.beforePages &&
      (s.listEntry (listItem 4 run0) run0).1 == BitVec.ofNat 8 op :: List.replicate 15 0 &&
      !(PageCmd.ofEntry (BitVec.ofNat 8 op :: List.replicate 15 0)).bad && s.pool 0 0 == some pool0 && s.refs pool0 0 == 0 && !s.queued pool0 0) = true := by decide
theorem witness_page_cmd : ({ hostState [] with items := [fetched0 pageDesc] }).passes3 0 63 (fetched0 pageDesc) pageDesc tyPageCmd = true := by decide
theorem witness_page_refs : (((listState 4 run0 [(0, 2)]).setPage 0 pool0 0 1 false).refs pool0 0 = 1) ∧ pool0.footprint ≤ run0.hbytes ∧
    ((listState 4 run0 [(0, 5)]).pageSee 7 pool0 (PageCmd.ofEntry (5 :: List.replicate 15 0))).refs pool0 0 = 0 ∧
    ((listState 4 run0 [(0, 5)]).pageSee 7 pool0 (PageCmd.ofEntry (5 :: List.replicate 15 0))).hostPermits 0 0x1000 pool0.footprint false = true := by decide
/-- A list in the middle of a swap, behind codeword n. -/
def swapRun (inward : Bool) (n : Option Nat) : ListRun := { run0 with swapping := some ⟨inward, 0, 0, 0, [8], n⟩ }
theorem witness_page_swap : (listState 4 (swapRun true (some 1023)) []).item 7 = some (listItem 4 (swapRun true (some 1023))) ∧
    (listState 4 (swapRun true (some 1023)) []).pool 0 0 = some pool0 ∧ (listState 4 (swapRun true (some 1023)) []).hostReady 0 = true ∧
    64 * 1024 = pool0.footprint ∧ (listState 4 (swapRun false none) []).item 8 = none ∧
    bitsOf (((listState 4 (swapRun false none) []).setPage 0 pool0 0 1 false).ctrlRead (some 7) (pool0.stateAddr 0) 4).1 0 17 = 1 ∧
    ((listState 4 (swapRun false none) []).setPage 0 pool0 0 1 false).hostPermits 0 0x1000 pool0.footprint true = true ∧
    ((listState 4 (swapRun true (some 1023)) []).hostRead 0 (0x1000 + 64 * 1023) 64).1.isSome = true ∧
    ((listState 4 (swapRun false (some 0)) []).hostWrite 0 0x1000 (List.replicate 64 0) false).1 = true := by decide
theorem witness_page_open : (poolRecord.length = 64) ∧ Pool.ofRecord poolRecord = pool0 ∧
    ({ Grant.empty with mem := [(0, 0, 0x1000000, false)] }).recordOk poolRecord pool0 = true ∧
    ({ Grant.empty with mem := [(0, 0, 0x1000000, false)] }).own 0 64 = true := by decide

/-- 256 logical channels, each bound to channel 0 of its stack. -/
def memState : State := (State.reset.setFld Fld.memTopChannels 0 256).setFld Fld.memTopAddr 0 0xC000000000
theorem witness_codeword : memState.memOn = true ∧ (0xBFFFFFFFC0 : Nat) + 63 < memState.memTop ∧ memState.mapAddr 0xBFFFFFFFC0 = (255, 0xBFFFFFC0) ∧
    memState.slotView 255 50331647 = .array 238 ∧ memState.stackHeld 7 = false ∧ memState.queuesOf 255 = ([], []) ∧ memState.cellDamage 238 50331647 = [] ∧
    memState.mirrorOf 255 = none ∧ memState.canonical = true ∧ Damage.wf [(0, 1), (35, 0x8000)] = true ∧
    (memState.setFlag Fld.memChmapFenced 255 true).slotView 255 50331647 = .fenced ∧ memState.memTop ≤ 0xC000000000 ∧
    memState.fld Fld.memChstatUeWin 238 < 15 ∧ (memState.setFld Fld.pwrStatState 0 2).memOn = false ∧
    ((memState.joinQueue ⟨0xBFFFFFFFC0, 4, none, true⟩).joinQueue ⟨0xBFFFFFFFC0, 64, none, false⟩).queuesOf 255 =
      ([⟨0xBFFFFFFFC0, 4, none, true⟩], [⟨0xBFFFFFFFC0, 64, none, false⟩]) := by decide

/-- Channel 271 is an idle spare at the codeword before the last. -/
def scrubState : State :=
  { (memState.setFlag Fld.memScrubEnable 0 true).setFld Fld.memChstatState 271 1 with chans := { memState.chans with scrubPos := [(271, 50331646)] } }
theorem witness_scrub : scrubState.slotOf 271 = none ∧ scrubState.chanOn 271 = true ∧ scrubState.flag Fld.memScrubEnable 0 = true ∧ scrubState.fld Fld.memChstatState 271 = 1 ∧
    scrubState.chans.scrubDone = [] ∧ Tab.get 0 scrubState.chans.scrubPos 271 = 50331646 ∧ 50331646 + 1 < chanCodewords ∧ Damage.wf [(0, 1), (35, 2)] = true ∧
    scrubState.fld Fld.memChstatUeWin 271 = (scrubState.event baseContext evBurst noRegion 1).fld Fld.memChstatUeWin 271 := by decide
/-- Channel 243 of slot 255 at a codeword, the channels named having been read to their end. -/
def serviceScrub (cw : Nat) (done : List Nat) : State :=
  { (memState.setFlag Fld.memScrubEnable 0 true).setFld Fld.memChmapChannel 255 5 with chans := { memState.chans with scrubPos := Tab.set 0 [] 243 cw, scrubDone := done } }
theorem witness_scrub_service : ∀ cw ∈ [0, 50331646], (serviceScrub cw []).slotOf 243 = some 255 ∧ (serviceScrub cw []).scrubs 243 = true ∧ (serviceScrub cw []).canonical = true ∧
    (serviceScrub cw []).chanOn 243 = true ∧ (serviceScrub cw []).flag Fld.memScrubEnable 0 = true ∧ Tab.get 0 (serviceScrub cw []).chans.scrubPos 243 = cw ∧
    (serviceScrub cw []).unmapAddr 255 (64 * cw) < (serviceScrub cw []).memTop ∧
    (serviceScrub cw []).mapAddr ((serviceScrub cw []).unmapAddr 255 (64 * cw)) = (255, 64 * cw) ∧ (serviceScrub cw []).slotView 255 cw = .array 243 ∧
    (serviceScrub cw []).cellDamage 243 cw = [] ∧ (serviceScrub cw []).fld Fld.memChstatUeWin 243 < 15 := by decide
theorem witness_scrub_pass : Tab.get 0 (serviceScrub 50331647 ((List.range 272).erase 243)).chans.scrubPos 243 + 1 = chanCodewords ∧
    (serviceScrub 50331647 ((List.range 272).erase 243)).chans.scrubDone.contains 243 = false ∧
    (List.range 272).all (fun k => k == 243 || (serviceScrub 50331647 ((List.range 272).erase 243)).chans.scrubDone.contains k) = true ∧
    (serviceScrub 50331647 []).slotOf 243 = some 255 ∧ (serviceScrub 50331647 []).unmapAddr 255 (64 * 50331647) < memState.memTop ∧
    (serviceScrub 50331647 []).mapAddr ((serviceScrub 50331647 []).unmapAddr 255 (64 * 50331647)) = (255, 64 * 50331647) ∧
    (serviceScrub 50331647 []).slotView 255 50331647 = .array 243 := by decide
/-- Channel 238 of slot 255 is declining, and 271 is an idle spare of its stack. -/
def declineState : State := (((memState.setFld Fld.memChstatState 271 1).setFlag Fld.memSpareCtlAuto 0 true).setFld Fld.memChstatCeWin 238 65535)
theorem witness_migration : declineState.idleSpare 7 = some 271 ∧ declineState.declining 255 = true ∧ declineState.flag Fld.memSpareCtlAuto 0 = true ∧
    declineState.chanOn 271 = true ∧ declineState.migrationOf 7 = none ∧ declineState.chans.scrubDone = [] ∧ declineState.boundChan 255 = some 238 ∧
    declineState.fld Fld.memChstatState 238 = 0 ∧
    (declineState.copied 255 271 50331646).migrationOf 7 = some (255, 271, 50331647) ∧ 50331647 + 1 = chanCodewords := by decide
theorem witness_fill : (memState.setFill 255 (some (271, 50331646))).fillOf 255 = some (271, 50331646) ∧ 50331647 < chanCodewords ∧
    (memState.setFill 255 (some (271, 50331646))).chanOn 271 = true ∧ (memState.setFill 255 (some (271, 50331647))).fillOf 255 = some (271, 50331647) := by decide

/-- One segment of tenant 0 over device memory from 0. -/
def cxlState : State :=
  { (((memState.setFld Fld.cxmCtlSegs 0 1).setFlag Fld.cxmSegEnable 0 true).setFlag Fld.cxmSegWrite 0 true) with
    grants := [(0, { Grant.empty with mem := [(0, 0, 0x40000000, false)] })], fns := { State.reset.fns with linkUp := true } }
theorem witness_cxl : cxlState.inWindow 0x3FFFFFC0 64 = true ∧ cxlState.inP0 = true ∧ cxlState.segServes 0x3FFFFFC0 64 false = true ∧
    cxlState.segServes 0x3FFFFFC0 64 true = true ∧ cxlState.segAddr 0x3FFFFFC0 < cxlState.memTop ∧
    cxlState.protects (cxlState.segAddr 0x3FFFFFC0) 64 = none ∧ ({ cxlState with grants := [] }).segServes 0x3FFFFFC0 64 false = false ∧
    ({ cxlState with grants := [] }).segServes 0x3FFFFFC0 64 true = false ∧
    ({ cxlState with boards := (eventState []).boards }).segServes 0x10000 64 true = true ∧
    ({ cxlState with boards := (eventState []).boards }).protects 0x10000 64 = some 0 ∧ (cxlState.setFld Fld.pwrStatState 0 2).fld Fld.pwrStatState 0 = 2 ∧
    (cxlState.setFld Fld.pwrStatState 0 2).inWindow 0x3FFFFFC0 64 = true := by decide

/-- An ingest segment of one raw block of 32 bytes, from 0x1000 to 0x2000. -/
def seg0 (layout : Bool) : Segment := ⟨layout, 0, 0, false, false, false, 1, 0x1000, 64, 0x2000, 32, 0, 0x3000, 0, 0, 0, 0, 0, 0, 0, 0, 0⟩
def ingest0 (layout lost : Bool) (block : Nat) : IngestRun :=
  { segs := [seg0 layout], follows := [none], engine := none, seg := 0, block := block, at_ := 0x1000, outSum := 0, lost := lost, overrun := false, gone := false,
    results := [], forwarded := [0], unanswered := 0, stopForward := false, firstBad := none, blockSlots := [] }
def ingestItem (ph : Phase) (r : IngestRun) : Item := { fetched0 (desc0 5 0 0) with phase := ph, ingest := some r }
def ingestState (ph : Phase) (r : IngestRun) : State := { memState with items := [ingestItem ph r] }
/-- An ingest descriptor of one segment at device address 0. -/
def ingestDesc : List Byte := [5] ++ List.replicate 23 0 ++ [1] ++ List.replicate 39 0
/-- The bytes of such a segment, with its result words at 0x3000. -/
def segBytes : List Byte := [0, 0, 0, 0, 1, 0, 0, 0, 0, 0x10, 0, 0, 0, 0, 0, 0, 64, 0, 0, 0, 0, 0, 0, 0, 0, 0x20, 0, 0, 0, 0, 0, 0, 32] ++ List.replicate 32 0 ++ [0x30] ++ List.replicate 62 0
/-- Such an item at event 3, its list in memory or not. -/
def ingestAt (mem : List Byte) : State :=
  { ((State.reset.setFld Fld.memTopChannels 0 1).setFld Fld.memTopAddr 0 0xC0000000).memWrite 0 mem with
    items := [fetched0 ingestDesc], grants := [(0, { Grant.empty with mem := [(0, 0, 0x1000000, false)] })] }
theorem witness_ingest : (ingestAt segBytes).passes3 0 63 (fetched0 ingestDesc) ingestDesc tyIngest = true ∧ descCount ingestDesc = 1 ∧
    (let r := ((ingestAt segBytes).pass3 7 .passed3).takeFor 0 0 128
     r.1 = segBytes ∧ r.2.1 = false ∧ r.2.2.ingestCause 0 [(segBytes, Segment.ofBytes segBytes)] = none) := by decide +kernel
theorem witness_ingest_bad : (ingestAt []).passes3 0 63 (fetched0 ingestDesc) ingestDesc tyIngest = true ∧
    (let r := ((ingestAt []).pass3 7 .passed3).takeFor 0 0 128
     r.2.2.ingestCause 0 [(r.1, Segment.ofBytes r.1)] = some causeLayout) := by decide +kernel
theorem witness_ingest_arm : (ingestState .passed4 (ingest0 false false 0)).item 7 = some (ingestItem .passed4 (ingest0 false false 0)) ∧
    (ingestState .passed4 (ingest0 false false 0)).engineBusy 3 = false ∧
    (ingestState .passed4 (ingest0 false false 0)).creditsFit (ingestItem .passed4 (ingest0 false false 0)) (ingest0 false false 0).credits = true := by decide
theorem witness_ingest_block : (ingestState .running (ingest0 false true 0)).item 7 = some (ingestItem .running (ingest0 false true 0)) ∧
    (ingest0 false true 0).segs[(ingest0 false true 0).seg]? = some (seg0 false) ∧
    (ingestState .running (ingest0 false false 0)).item 7 = some (ingestItem .running (ingest0 false false 0)) ∧ (ingest0 false true 0).block < (seg0 false).blocks ∧
    (ingestState .running (ingest0 false false 0)).arrivedTo (ingest0 false false 0) 0 = none ∧
    (ingest0 false false 0).at_ + 32 ≤ (seg0 false).src + (seg0 false).srcBytes := by decide
theorem witness_layout_write : (ingestState .running (ingest0 true false 1)).item 7 = some (ingestItem .running (ingest0 true false 1)) ∧
    (seg0 true).layout = true ∧ (seg0 true).blocks ≤ (ingest0 true false 1).block := by decide

/-- A run that forwards 64 bytes through port 19, and a link up there. -/
def forward0 : IngestRun := { ingest0 false false 0 with segs := [{ seg0 false with forward := true, fwdPort := 19 }] }
def forwardState (state : Nat) : State :=
  ((ingestState .running forward0).setFld Fld.linkPortLinks 19 0x80000).setFld Fld.linkStatState 19 state
theorem witness_forward : (forwardState 2).item 7 = some (ingestItem .running forward0) ∧ ((forwardState 2).forwardNext forward0).map (fun x => (x.1, x.2.2)) = some (0, 0, 64) ∧
    (forwardState 2).portUnreachable 19 = false ∧ ((forwardState 2).portPeer 19).isSome = true ∧ (forwardState 2).onFirstHop 7 19 < 16 ∧
    (forwardState 0).portUnreachable 19 = true := by decide
/-- A forwarded write of four bytes at offset 60 of inbox 7, delivered on link 19. -/
def inboxPacket : Packet := Packet.make 0 1 .bulk 0 0 .inboxWrite 0 0 0 [7, 7, 0, 60] [1, 2, 3, 4] false
def inboxState (boxes : Tab (Option Inbox)) : State := { forwardState 2 with inbound := [(19, inboxPacket)], inboxes := boxes }
theorem witness_inbox : (takeFirst (inboxState []).inbound (fun p => p.kind == .inboxWrite)).map (fun x => x.1.1) = some 19 ∧ inboxPacket.aux.getD 1 8 = 7 ∧
    Tab.get none (inboxState []).inboxes 7 = none ∧ Tab.get none (inboxState [(7, some ⟨0x4000, 64, 19, []⟩)]).inboxes 7 = some ⟨0x4000, 64, 19, []⟩ ∧
    (inboxState []).fld Fld.inboxStatGen 7 = 0 ∧ 60 + inboxPacket.payload.length ≤ 64 ∧ (inboxState []).portOf 19 = some 19 ∧
    (inboxState []).inP0 = true ∧ (inboxState []).flag Fld.inboxStatBroken 7 = false := by decide

/-- A table image of identity 1 whose symbols 0 and 1 have codes of one bit. -/
def tableImage : List Byte := [0x54, 0x54, 0x42, 0x4C, 1] ++ List.replicate 27 0 ++ [1, 1] ++ List.replicate 1278 0 ++ [0x73, 0xD3, 0x56, 0x33] ++ List.replicate 28 0
/-- The next entry of a list of table and inbox commands, for slot or inbox 7. -/
def ingestEntry (op port size : Byte) : List Byte := [op, 0, 7, port] ++ List.replicate 12 0 ++ [size] ++ List.replicate 15 0
/-- A running list of function 0 with that entry, device memory with some bytes at 0, slots and inboxes. -/
def ingestCmdState (op port size : Byte) (mem : List Byte) (tables : Tab TableSlot) (boxes : Tab (Option Inbox)) : State :=
  { ((hostState []).setFld Fld.memTopChannels 0 1).setFld Fld.memTopAddr 0 0xC0000000 with
    items := [listItem 6 run0], host := Mem.writeRange [] 0 (ingestEntry op port size), tables := tables, inboxes := boxes,
    grants := [(0, { Grant.empty with mem := [(0, 0, 0x1000000, false)], slots := 128, inboxes := 128 })] } |>.memWrite 0 mem
/-- The entry is the next of the list, and its command is well formed. -/
def ingestEntryOk (op port size : Byte) (s : State) : Bool :=
  s.item 7 == some (listItem 6 run0) && (listItem 6 run0).type == tyIngestCmd && s.hostReady 0 && (s.aheadOf (listItem 6 run0)).isEmpty &&
    (s.listEntry (listItem 6 run0) run0).1 == ingestEntry op port size && (s.listEntry (listItem 6 run0) run0).2.canonical &&
    !(s.grantOf (listItem 6 run0)).ingestCmdBad (IngestCmd.ofEntry (ingestEntry op port size)) && (IngestCmd.ofEntry (ingestEntry op port size)).index == 7
def ingestCmdDesc : List Byte := [6] ++ List.replicate 23 0 ++ [2] ++ List.replicate 39 0
theorem witness_ingest_cmd : ({ hostState [] with items := [fetched0 ingestCmdDesc] }).passes3 0 63 (fetched0 ingestCmdDesc) ingestCmdDesc tyIngestCmd = true := by decide
theorem witness_table_load : (let s := ingestCmdState 1 0 0 tableImage [] []
    let r := (s.listEntry (listItem 6 run0) run0).2.takeFor 0 0 1344
    ingestEntryOk 1 0 0 s && s.slotGranted (listItem 6 run0) 7 && !s.previousHeld 7 && r.1 == tableImage && !r.2.1 && tableImageOk tableImage &&
      (IngestCmd.ofEntry (ingestEntry 1 0 0)).addr == 0) = true := by decide +kernel
theorem witness_table_refused : (let s := ingestCmdState 1 0 0 [] [] []
    let r := (s.listEntry (listItem 6 run0) run0).2.takeFor 0 0 1344
    ingestEntryOk 1 0 0 s && s.slotGranted (listItem 6 run0) 7 && !s.previousHeld 7 && !tableImageOk r.1 &&
      (let v := { s with grants := [(0, { Grant.empty with mem := [(0, 0, 0x1000000, false)] })] }
       ingestEntryOk 1 0 0 v && !v.slotGranted (listItem 6 run0) 7)) = true := by decide +kernel
theorem witness_drop : (let s := ingestCmdState 2 0 0 [] [(7, ⟨some ⟨1, 0, 1, [], []⟩, none, 1⟩)] []
    ingestEntryOk 2 0 0 s && s.slotGranted (listItem 6 run0) 7 && ((s.slotState 7).current.map (fun g => g.refs)) == some 0) = true := by decide +kernel
theorem witness_inbox_open : (let s := ingestCmdState 0x10 0xFF 64 [] [] []
    ingestEntryOk 0x10 0xFF 64 s && bitOf (s.grantOf (listItem 6 run0)).inboxes 7 && (Tab.get none s.inboxes 7).isNone &&
      (IngestCmd.ofEntry (ingestEntry 0x10 0xFF 64)).port == 0xFF) = true := by decide +kernel
theorem witness_one_slot_refused : (let none_ (s : State) : State := { s with grants := [(0, { Grant.empty with mem := [(0, 0, 0x1000000, false)] })] }
    let d := none_ (ingestCmdState 2 0 0 [] [] [])
    let o := none_ (ingestCmdState 0x10 0xFF 64 [] [] [])
    let c := none_ (ingestCmdState 0x11 0 0 [] [] [])
    let twice := ingestCmdState 0x10 0xFF 64 [] [] [(7, some ⟨0, 64, 255, []⟩)]
    ingestEntryOk 2 0 0 d && !d.slotGranted (listItem 6 run0) 7 && ingestEntryOk 0x10 0xFF 64 o && !bitOf (o.grantOf (listItem 6 run0)).inboxes 7 &&
      ingestEntryOk 0x11 0 0 c && !bitOf (c.grantOf (listItem 6 run0)).inboxes 7 && ingestEntryOk 0x10 0xFF 64 twice && (Tab.get none twice.inboxes 7).isSome &&
      bitOf (twice.grantOf (listItem 6 run0)).inboxes 7) = true := by decide +kernel
theorem witness_inbox_close : (let s := ingestCmdState 0x11 0 0 [] [] [(7, some ⟨0, 64, 255, []⟩)]
    ingestEntryOk 0x11 0 0 s && bitOf (s.grantOf (listItem 6 run0)).inboxes 7 && (Tab.get none s.inboxes 7).isSome) = true := by decide +kernel

/-- Every link masked on, in ports of their own, powered. -/
def linkBase : State :=
  { (State.reset.setFld Fld.linkMaskEnable 0 0xFFFFF).setFld Fld.setupStatPhase 0 10 with pins := { State.reset.pins with pgMain := true } }
theorem witness_eligible : linkBase.linkEligible 19 = true ∧ linkBase.linksPowered = true ∧ linkBase.fld Fld.linkStatState 19 = 0 ∧ linkBase.portValid 19 = true ∧
    (linkBase.setFld Fld.linkPortLinks 18 0xC0000).linkEligible 19 = false ∧ (linkBase.setFld Fld.linkPortLinks 0 0xC000).portValid 0 = false := by decide

def linkAt (st ev : Nat) : State := (linkBase.setLink 19 { Link.empty with event := ev, nakRun := 65535, failedRetrains := 2 }).setFld Fld.linkStatState 19 st
/-- Four lanes at the threshold ratio, the fifth above it; or three and two. -/
def measured0 : List (Nat × Nat) := [(0, 1), (1, 100000), (1, 100000), (1, 100000), (2, 100000)]
theorem witness_bringup : linkBase.linkEligible 19 = true ∧ linkBase.linksPowered = true ∧ linkBase.fld Fld.linkStatState 19 = 0 ∧ linkBase.portValid 19 = true ∧
    (linkBase.setFld Fld.linkPortLinks 18 0xC0000).linkEligible 19 = false ∧ (linkBase.setFld Fld.linkPortLinks 0 0xC000).portValid 0 = false := by decide
theorem witness_training : (linkAt 1 1).linkState 19 = 1 ∧ ((linkAt 1 1).link 19).event = 1 ∧
    ((linkAt 1 1).goodLanes 19 ⟨measured0, true, 20⟩).length = 4 ∧ ((linkAt 1 1).goodLanes 19 ⟨[(0, 1), (0, 1), (0, 1), (2, 100000), (0, 0)], true, 20⟩).length < 4 ∧
    (linkAt 1 4).linkState 19 = 1 ∧ ((linkAt 1 4).link 19).event = 4 ∧ ((linkAt 1 4).link 19).failedRetrains = 2 := by decide
/-- A packet of one byte for chip 1, and codewords that carry it. -/
def claspPacket : Packet := Packet.make 0 1 .bulk 0 0 .chunk 0 0 0 [] [1] false
def codeword0 (seq : Nat) (ps : List Packet) (wrong : List Nat) : Codeword := ⟨seq, 0, false, false, wrong, none, ps, []⟩
theorem witness_codeword_receive : (linkAt 2 6).linkState 19 = 2 ∧ claspPacket.crc = claspPacket.crcOf ∧ claspPacket.lenOk = true ∧
    { claspPacket with crc := claspPacket.crc + 1 }.crc ≠ claspPacket.crcOf ∧
    Codeword.decodes (codeword0 0 [claspPacket] [15, 0, 0, 0]) = true ∧ Codeword.decodes (codeword0 0 [] [15, 1, 0, 0]) = false ∧
    (let w (c : Codeword) := ((linkAt 2 6).countSymbols 19 (Codeword.corrected c)).linkHeader 19 c
     0 % 512 = ((w (codeword0 0 [claspPacket] [])).link 19).expect % 512 ∧ (w (codeword0 0 [claspPacket] [])).buffersFor 19 [claspPacket] = true ∧
     (511 % 512 + 512 - ((w (codeword0 511 [claspPacket] [])).link 19).expect % 512) % 512 = 511 ∧ (254 + 512 - ((w (codeword0 254 [] [])).link 19).expect % 512) % 512 = 254 ∧
     ((w (codeword0 254 [] [])).link 19).discarding = false) ∧
    max 1 ((linkAt 2 6).fld Fld.linkCtlRetryLimit 0) ≤ ((linkAt 2 6).link 19).nakRun ∧ (linkAt 3 1).linkState 19 = 3 ∧
    ((linkAt 3 1).goodLanes 19 ⟨measured0, true, 20⟩).length = 4 := by decide
theorem witness_codeword_no_buffer : (linkAt 2 6).linkState 19 = 2 ∧
    (let s := (linkAt 2 6).setLink 19 { (linkAt 2 6).link 19 with arrived := List.replicate 160 claspPacket }
     s.linkState 19 = 2 ∧ Codeword.decodes (codeword0 0 [claspPacket] []) = true ∧
     (let w := (s.countSymbols 19 (Codeword.corrected (codeword0 0 [claspPacket] []))).linkHeader 19 (codeword0 0 [claspPacket] [])
      0 % 512 = (w.link 19).expect % 512 ∧ w.buffersFor 19 [claspPacket] = false)) := by decide +kernel

/-- An UP link 19 whose lanes 0-3 are active and 4 the spare, with a switch agreed. -/
def laneState (sw : Option LaneSwitchAt) (recent : List (Nat × Nat × Nat)) : State :=
  (((linkBase.setLink 19 { Link.empty with event := 6, switch := sw, recent := recent }).setFld Fld.linkStatState 19 2).setFld Fld.linkStatLanes 19 0x100).setFlag
    Fld.linkCtlAutoSpare 0 true
theorem witness_lane : (laneState none [(0, 3, 0xFFFFFFFF)]).linkState 19 = 2 ∧ (laneState none [(0, 3, 0xFFFFFFFF)]).lane 19 3 = 0 ∧
    (laneState none []).lanesIn 19 1 = [4] ∧ (laneState none [(0, 3, 0xFFFFFFFF)]).fld Fld.linkCtlSymThresh 0 < (laneState none [(0, 3, 0xFFFFFFFF)]).windowSymbols 19 3 ∧
    (laneState none []).mgmtFull 19 = false ∧ ((laneState (some ⟨3, 0, true⟩) []).link 19).switch = some ⟨3, 0, true⟩ ∧
    ((laneState (some ⟨3, 0, true⟩) []).link 19).switchReached ⟨3, 0, true⟩ = true ∧ ((laneState (some ⟨3, 16, true⟩) []).link 19).switchReached ⟨3, 16, true⟩ = false ∧
    ((laneState none []).setFld Fld.linkStatLanes 19 0x300).lanesIn 19 1 = [] := by decide
def bulkPacket : Packet := Packet.make 2 0 .bulk 0 0 .chunk 0 0 0 [] [] false
def packetState : State := linkBase.setLink 19 { Link.empty with queue := [(20, bulkPacket)], arrived := [bulkPacket] } |>.setFld Fld.linkStatState 19 2
theorem witness_packet : packetState.linkState 19 = 2 ∧ (packetState.link 19).resend = none ∧ (packetState.link 19).chosen = some (20, bulkPacket) ∧
    (packetState.link 19).tx.length < 10 ∧ packetState.portOf 19 = some 19 ∧ Tab.sorted packetState.links = true ∧ (packetState.link 19).arrived = [bulkPacket] ∧
    packetState.forwardWaits bulkPacket = false ∧ bulkPacket.dst ≠ packetState.chipId ∧ (packetState.setFld Fld.linkTopoChip 0 2).chipId = bulkPacket.dst ∧
    bulkPacket.pseq ∈ Tab.get [] { packetState with deliveredSeqs := [(77, [0])] }.deliveredSeqs (4 * 19 + bulkPacket.vc.code) := by decide
theorem witness_codeword_send : (linkAt 2 6).linkState 19 = 2 ∧ ((linkAt 2 6).link 19).resend = none ∧ ((linkAt 2 6).link 19).chosen = none ∧
    ((linkAt 2 6).link 19).replay.length < 256 ∧ ((linkAt 2 6).link 19).closing = false ∧
    (let s := (linkAt 2 6).setLink 19 { (linkAt 2 6).link 19 with closing := true, replay := List.replicate 256 (7, ⟨7, 0, false, false, [], []⟩) }
     s.linkState 19 = 2 ∧ (s.link 19).closing = true ∧ (s.link 19).resend = none ∧ 256 ≤ (s.link 19).replay.length) ∧
    (let s := (linkAt 2 6).setLink 19 { (linkAt 2 6).link 19 with resend := some 7, replay := [(7, ⟨7, 0, false, false, [], []⟩)] }
     s.linkState 19 = 2 ∧ (s.link 19).resend = some 7 ∧ ((s.link 19).replay.find? (fun e => 7 ≤ e.1)).isSome = true) := by decide
theorem witness_lane_request : ({ laneState none [] with inbound := [(19, Packet.make 0 1 .mgmt 0 0 .laneSwitch 0 0 0 [3, 16] [] false)] }).inbound.find?
    (fun e => e.1 == 19 && e.2.kind == PktKind.laneSwitch) = some (19, Packet.make 0 1 .mgmt 0 0 .laneSwitch 0 0 0 [3, 16] [] false) := by decide
theorem witness_lane_switch_ask : (laneState none [(0, 3, 0xFFFFFFFF)]).linkState 19 = 2 ∧ (laneState none [(0, 3, 0xFFFFFFFF)]).lane 19 3 = 0 ∧
    (laneState none [(0, 3, 0xFFFFFFFF)]).flag Fld.linkCtlAutoSpare 0 = true ∧
    ((laneState none [(0, 3, 0xFFFFFFFF)]).link 19).switch = none ∧ (laneState none [(0, 3, 0xFFFFFFFF)]).lanesIn 19 1 = [4] ∧
    (laneState none [(0, 3, 0xFFFFFFFF)]).fld Fld.linkCtlSymThresh 0 < (laneState none [(0, 3, 0xFFFFFFFF)]).windowSymbols 19 3 ∧
    (laneState none [(0, 3, 0xFFFFFFFF)]).mgmtFull 19 = false := by decide
theorem witness_lane_switch_told : (let q := Packet.make 0 1 .mgmt 0 0 .laneSwitch 0 0 0 [3, 16] [] false
    let s := { laneState none [] with inbound := [(19, q)] }
    s.linkState 19 = 2 ∧ s.inbound.find? (fun e => e.1 == 19 && e.2.kind == PktKind.laneSwitch) = some (19, q) ∧ (s.link 19).switch = none) := by decide
theorem witness_lane_switch_made : (let s := laneState (some ⟨3, 0, true⟩) []
    let v := s.setLink 19 { s.link 19 with switch := none }
    s.linkState 19 = 2 ∧ (s.link 19).switch = some ⟨3, 0, true⟩ ∧ (s.link 19).switchReached ⟨3, 0, true⟩ = true ∧ v.lanesIn 19 1 = [4] ∧ v.lane 19 3 = 0) := by decide
theorem witness_lane_lock : (let s := laneState none []
    let u := s.setFld Fld.linkStatLanes 19 0x300
    s.linkState 19 = 2 ∧ s.lane 19 3 = 0 ∧ s.lanesIn 19 1 = [4] ∧ u.linkState 19 = 2 ∧ u.lane 19 3 = 0 ∧ u.lanesIn 19 1 = []) := by decide
theorem witness_packet_receive : (let s := packetState
    let u := s.setFld Fld.linkTopoChip 0 2
    let d := { s with deliveredSeqs := [(77, [0])] }
    [s, u, d].all (fun s => (s.link 19).arrived.find? (fun p => !s.forwardWaits p) == some bulkPacket && s.portOf 19 == some 19) = true ∧
    bulkPacket.pseq ∉ Tab.get [] s.deliveredSeqs (4 * 19 + bulkPacket.vc.code) ∧ bulkPacket.dst ≠ s.chipId ∧ bulkPacket.dst = u.chipId ∧
    bulkPacket.pseq ∉ Tab.get [] u.deliveredSeqs (4 * 19 + bulkPacket.vc.code) ∧ bulkPacket.pseq ∈ Tab.get [] d.deliveredSeqs (4 * 19 + bulkPacket.vc.code)) := by decide

theorem witness_discard : State.reset.canonical = true ∧ State.reset.inP0 = true ∧ State.reset.writeDiscarded .mgc 0x6000 4 = true ∧
    State.reset.writeDiscarded .loupe 0x8 4 = true ∧ State.reset.servedAsleep .mgc 0x6000 = false ∧ State.reset.sec.boundAt = none ∧
    ({ State.reset.sec with boundAt := some 0 }).boundAt = some 0 ∧
    (let s : State := { State.reset with sec := { State.reset.sec with mgcRuns := true } }
     s.sec.mgcRuns = true ∧ s.sec.mgcHalted = false ∧ s.inP0 = true ∧ s.writeDiscarded .mgc 0x1000900 4 = true) := by decide
theorem witness_discard_forms : (let s : State := { State.reset with sec := { State.reset.sec with mgcRuns := true, boundAt := some 0 } }
    s.canonical = true ∧ s.sec.boundAt = some 0 ∧ s.tally < 0 + 1000000000 ∧ s.inP0 = true ∧ s.sec.mgcRuns = true ∧ s.sec.mgcHalted = false ∧
    aligned48 0x6000 4 = true ∧ s.writeDiscarded .mgc 0x6000 4 = true ∧ s.servedAsleep .mgc 0x6000 = false ∧
    aligned48 0x8 4 = true ∧ s.writeDiscarded .loupe 0x8 4 = true ∧ s.servedAsleep .loupe 0x8 = false) := by decide
theorem witness_discard_asleep : (let s : State := { State.reset.setFld Fld.pwrStatState 0 3 with sec := { State.reset.sec with mgcRuns := true } }
    s.sec.mgcRuns = true ∧ s.sec.mgcHalted = false ∧ s.fld Fld.pwrStatState 0 = 3 ∧ aligned48 0x6000 4 = true ∧ s.writeDiscarded .mgc 0x6000 4 = true ∧
    s.writeDiscarded .loupe 0x6000 4 = true) := by decide

theorem witness_host_writes : State.reset.inP0 = true ∧ State.reset.canonical = true ∧ State.reset.locked = false ∧ State.reset.chipId ≠ 2047 ∧
    State.reset.grantCause 63 (State.reset.staged 63) = 0 ∧ State.reset.checkedItems 63 = [] ∧
    (State.reset.setFld Fld.grantTilesRows 63 31 |>.setFld Fld.grantTilesCols 63 1).grantCause 63
      ((State.reset.setFld Fld.grantTilesRows 63 31 |>.setFld Fld.grantTilesCols 63 1).staged 63) ≠ 0 ∧
    State.reset.flag Fld.hwinLock 255 = false ∧ (State.reset.setFlag Fld.hwinLock 255 true).flag Fld.hwinLock 255 = true ∧
    (State.reset.setFlag Fld.setupStatLocked 0 true).locked = true ∧ (State.reset.locate 0x6010).map Prod.fst = some .linkTopo ∧ Fld.tallyLateCount ∈ Reg.tallyLate.fields ∧
    Fld.coreRateMin ∈ Reg.coreRate.fields := by decide
/-- A grant of one tile, an item checked under it, and nothing staged. -/
theorem witness_grant_narrows :
    (let s : State := { State.reset with grants := [(0, { Grant.empty with rows := 1, cols := 1 })], items := [{ fetched0 (desc0 1 0 0) with phase := .running, since := some 0 }] }
     s.inP0 = true ∧ s.grantCause 0 (s.staged 0) = 0 ∧ Grant.includes (s.staged 0) (s.grant 0) = false ∧ s.checkedItems 0 ≠ []) := by decide
theorem witness_locked_writes : (let s := State.reset.setFlag Fld.setupStatLocked 0 true
    s.inP0 = true ∧ s.locked = true ∧ s.canonical = true ∧ Fld.linkTopoChip ∈ Reg.linkTopo.fields ∧ Fld.linkTopoChip.acc = .rwl) ∧
    State.reset.locked = false ∧ State.reset.locate 0x6010 = some (.linkTopo, 0, 0) ∧ Reg.linkTopo ≠ .msixTable ∧
    Fld.coreRateMin ∈ Reg.coreRate.fields ∧ Fld.pwrCtlIdleUs ∈ Reg.pwrCtl.fields ∧ Fld.pwrCtlIdleUs.acc = .rw ∧
    8 * 0 ≤ Fld.pwrCtlIdleUs.lo ∧ Fld.pwrCtlIdleUs.lo + Fld.pwrCtlIdleUs.width ≤ 8 * 0 + 32 := by decide
theorem witness_written_registers : (State.reset.locate 0x6000).map Prod.fst = some .linkMask ∧ (State.reset.locate (0xA000 + 4 * 2047)).map (fun x => (x.1, x.2.1)) = some (.linkRt, 2047) ∧
    State.reset.locate (0x6100 + 8 * 19) = some (.linkPort, 19, 0) ∧ (State.reset.locate (0x1000200 + 0x1000 * 63)).map (fun x => (x.1, x.2.1)) = some (.fnQuota, 63) ∧
    (State.reset.locate (0x10001F8 + 0x1000 * 63)).map (fun x => (x.1, x.2.1)) = some (.grantCtl, 63) ∧ (0x10001F8 + 0x1000 * 63) % 4 = 0 := by decide
/-- A register with no action of its own, with a field of access RW, and the same field in a second instance. -/
theorem witness_plain_register : State.reset.locate 264 = some (.coreRate, 1, 0) ∧ Reg.coreRate ∉ [Reg.doorbell, .msixTable, .tileSeq, .msixMod, .ringCfg, .hwin, .setupCtl, .pwrCtl, .pwrCfg, .linkMask, .linkRt, .linkPort, .linkTopo,
    .fnQuota, .grantCtl, .tenantCtl, .auditCtl, .meas] ∧ (∃ f ∈ Reg.coreRate.fields, f.acc = .rw ∧ 8 * 0 ≤ f.lo ∧ f.lo + f.width ≤ 8 * 0 + 32) ∧ State.reset.canonical = true ∧ State.reset.inP0 = true := by decide
theorem witness_window_lock : [true, false].all (fun b => let s := State.reset.setFlag Fld.hwinLock 255 b
    s.inP0 && s.canonical && s.flag Fld.hwinLock 255 == b) = true := by decide
theorem witness_grant_refused : (let s := (State.reset.setFld Fld.grantTilesRows 63 31).setFld Fld.grantTilesCols 63 1
    s.inP0 = true ∧ s.grantCause 63 (s.staged 63) ≠ 0) ∧ State.reset.inP0 = true ∧ State.reset.grantCause 63 (State.reset.staged 63) = 0 ∧ State.reset.checkedItems 63 = [] := by decide

/-- A one-tile board of chip 0 with a route to its own tile, running on tile 0 in item 7. -/
def collBoard : Board := ⟨0x10000, 4096, 1, false, 1, 1, 0, 0, 0, [0], [], [], [⟨64, [⟨0, 1, 0, 0, 0, 0, false, 0, 0, 992, 0, 4096⟩], [], [], []⟩], 1, none⟩
def collState (i : Insn) (chunks : List (Nat × Packet)) (keys : List AbortedKey) : State :=
  { withTile (running i) with boards := [(0, some collBoard)], items := [item0 .running (some (launch0 [0]))], inbound := chunks, abortedKeys := keys }
theorem witness_rsend : (collState (insn 0xB0 0 0) [] []).atInsn 0 0 opRsend (insn 0xB0 0 0) = true ∧
    ((collState (insn 0xB0 0 0) [] []).partItem (running (insn 0xB0 0 0))).isSome = true ∧
    (((collState (insn 0xB0 0 0) [] []).launchVariant (item0 .running (some (launch0 [0])))).bind (fun v => v.routes[0]?)).isSome = true ∧
    (running (insn 0xB0 0 0)).clearOf [(0, 992)] [] = true := by decide
theorem witness_rland : (collState (insn 0xB1 0 0) [] []).atInsn 0 0 opRland (insn 0xB1 0 0) = true ∧
    (running (insn 0xB1 0 0)).clearOf [] ((insn 0xB1 0 0).landSegs ((running (insn 0xB1 0 0)).opnd 0)) = true := by decide
def chunk0 (tag : Nat) : Packet := Packet.make 0 0 .bulk 0 0 .chunk tag 0x80000000 0 [0, 0, 8, 0, 7, 0] [1, 2, 3, 4, 5, 6, 7, 8] false
theorem witness_chunk : (collState (insn 0 0 0) [(20, chunk0 1)] []).inP0 = true ∧ (takeFirst (collState (insn 0 0 0) [(20, chunk0 1)] []).inbound
      (fun p => p.kind == PktKind.chunk && (collState (insn 0 0 0) [(20, chunk0 1)] []).chunkReady p)) = some ((20, chunk0 1), []) ∧
    (takeFirst (collState (insn 0 0 0) [(20, chunk0 2)] []).inbound
      (fun p => p.kind == PktKind.chunk && (collState (insn 0 0 0) [(20, chunk0 2)] []).chunkReady p)) = some ((20, chunk0 2), []) ∧
    (takeFirst (collState (insn 0 0 0) [(20, { chunk0 1 with crc := 0 })] []).inbound
      (fun p => p.kind == PktKind.chunk && (collState (insn 0 0 0) [(20, { chunk0 1 with crc := 0 })] []).chunkReady p)) = some ((20, { chunk0 1 with crc := 0 }), []) ∧
    { chunk0 1 with crc := 0 }.crc ≠ { chunk0 1 with crc := 0 }.crcOf ∧
    ((collState (insn 0 0 0) [] []).launchOf 1 0).isSome = true ∧ ((collState (insn 0 0 0) [] []).launchBoard (item0 .running (some (launch0 [0])))).isSome = true ∧
    (chunk0 1).crc = (chunk0 1).crcOf ∧ (chunk0 2).crc = (chunk0 2).crcOf ∧
    (collState (insn 0 0 0) [] []).launchOf 2 0 = none ∧ (collState (insn 0 0 0) [] [⟨2, 0, 0x41, 0, none⟩]).keptKey 2 0 = some ⟨2, 0, 0x41, 0, none⟩ ∧
    (collState (insn 0 0 0) [] []).keptKey 2 0 = none := by decide
/-- A posted landing of tile 0 with one chunk of two FP32 elements held. -/
def landing1 : Landing := { Landing.new 7 0 0 0 with posts := [(0, 0)], held := [⟨0, 0, [0, 0, 0x80, 0x3F, 0, 0, 0, 0x40], false, false, 20, 1, 8⟩] }
def landInsn : Insn := { insn 0xB1 0 0 with opd1 := 0x800000080 }
def combineState : State :=
  { collState (insn 0 0 0) [] [] with tiles := [(0, { running (insn 0 0 0) with ops := [opOf landInsn] })], landings := [landing1] }
theorem witness_combine : combineState.acts 0 0 = true ∧ landInsn.landOp = 1 ∧ landInsn.landLength = 8 ∧ (combineState.tile 0).op 0 = some (opOf landInsn) ∧
    (combineState.landings.find? (fun l => l.tile == 0 && (l.posts.map Prod.fst).head? == some 0)) = some landing1 ∧
    landing1.held.find? (fun h => h.srcRank == 0 && h.chunk == 0 && (h.orderFree ||
      (combineState.ranksOf landing1.item landInsn).all (fun q => 0 ≤ q || landing1.combined.contains (q, 0)))) =
      some ⟨0, 0, [0, 0, 0x80, 0x3F, 0, 0, 0, 0x40], false, false, 20, 1, 8⟩ ∧
    combineState.landings.find? (fun x => x.at_ landing1.item landing1.coll landing1.step landing1.tile) = some landing1 := by decide
theorem witness_rsend_all : (let i := insn 0xB0 0 0
    let s := collState i [] []
    s.atInsn 0 0 opRsend i = true ∧ (s.tile 0).part = some part0 ∧ s.partItem (s.tile 0) = some (item0 .running (some (launch0 [0]))) ∧
    s.launchBoard (item0 .running (some (launch0 [0]))) = some collBoard ∧
    (s.launchVariant (item0 .running (some (launch0 [0])))).bind (fun v => v.routes[i.arg 0 16]?) = some ⟨0, 1, 0, 0, 0, 0, false, 0, 0, 992, 0, 4096⟩) := by decide
theorem witness_rland_part : ((collState (insn 0xB1 0 0) [] []).tile 0).part = some part0 := by decide
theorem witness_chunk_kept : (let s := collState (insn 0 0 0) [(20, chunk0 2)] [⟨2, 0, 0x41, 0, none⟩]
    let u := collState (insn 0 0 0) [(20, chunk0 2)] []
    [s, u].all (fun s => s.inP0 && takeFirst s.inbound (fun p => p.kind == PktKind.chunk && s.chunkReady p) == some ((20, chunk0 2), []) && s.launchOf 2 0 == none) = true ∧
    (chunk0 2).crc = (chunk0 2).crcOf ∧ (ChunkFields.of (chunk0 2)).tag = 2 ∧ (ChunkFields.of (chunk0 2)).cseq = 0 ∧
    s.keptKey 2 0 = some ⟨2, 0, 0x41, 0, none⟩ ∧ u.keptKey 2 0 = none) := by decide
theorem witness_chunk_launch : (let s := collState (insn 0 0 0) [(20, chunk0 1)] []
    s.inP0 = true ∧ takeFirst s.inbound (fun p => p.kind == PktKind.chunk && s.chunkReady p) = some ((20, chunk0 1), []) ∧ (chunk0 1).crc = (chunk0 1).crcOf ∧
    (ChunkFields.of (chunk0 1)).tag = 1 ∧ (ChunkFields.of (chunk0 1)).cseq = 0 ∧ s.launchOf 1 0 = some (item0 .running (some (launch0 [0]))) ∧
    ({ s with inbound := [] } : State).launchBoard (item0 .running (some (launch0 [0]))) = some collBoard) := by decide
/-- A chunk for tile 0 of which one row is written and one is to come. -/
def longChunk : Packet := Packet.make 0 0 .bulk 0 0 .chunk 1 0x80000000 0 [0, 0, 512, 0, 7, 0] (List.replicate 512 1) false
def arrival0 : Arrival := ⟨0, 20, longChunk, 0, 1, []⟩
theorem witness_chunk_row : (let s := { collState (insn 0 0 0) [] [] with arriving := [arrival0] }
    let i := item0 .running (some (launch0 [0]))
    let l := Landing.new 7 0 0 0
    let v := s.consumed i.id longChunk.poison
    s.arriving.find? (fun a => s.tileTakes a.tile) = some arrival0 ∧ s.launchOf 1 0 = some i ∧ (ChunkFields.of longChunk).tag = 1 ∧ (ChunkFields.of longChunk).cseq = 0 ∧
    s.launchBoard i = some collBoard ∧ l.acked.contains (0, 0) = false ∧ i.phase = .running ∧ v.physOf 0 = some 0 ∧ (v.tile 0).itemId = some i.id ∧
    ((rowPieces ((ChunkFields.of longChunk).off, longChunk.payload.length))[1]?).isSome = true) := by decide +kernel
theorem witness_chunk_idle : (collState (insn 0 0 0) [(20, chunk0 1)] []).arriving = [] := by decide

/-- A transfer of item 7 from tile 0 to chip 1, with a chunk in backoff, and a reply of a type to it. -/
def transfer0 : Transfer := ⟨0, 7, 0, 0, ⟨1, 1, 0, 0, 1, 0, false, 0, 0, 992, 0, 0⟩, 0, 1, 0, 0, 0, 0, 0, 1, 1, [], [], [(0, 0)], some 0⟩
def replyTo (type : Nat) : Packet := Packet.make 0 1 .response 0 0 .reply 1 0x80000000 0 [] (replyPayload type 0 0) false
def replyState (p : Packet) : State :=
  { collState (insn 0 0 0) [(19, p)] [] with transfers := [transfer0], tally := 2 ^ 27 }
theorem witness_replies : ([1, 2, 3, 4, 5].all fun ty => ((takeFirst (replyState (replyTo ty)).inbound (fun p => isReply p ty && (isForwardReply p || (replyState (replyTo ty)).answerReady p))) ==
      some ((19, replyTo ty), [])) && (((replyState (replyTo ty)).answered (replyTo ty)) == some transfer0) && !isForwardReply (replyTo ty)) = true ∧
    ((replyState (replyTo 5)).launchOf 1 0).isSome = true ∧ (replyState (replyTo 5)).launchOf 2 0 = none ∧
    transfer0.backoff.find? (fun b => b.1 == 0 && b.2 ≤ 0) = some (0, 0) := by decide +kernel
def notice0 : Packet := Packet.make 0 1 .response 0 0 .notice 0 0 0 [0] ((transfer0.packet 0 0 1 0 0 0 [] false).wire) false
theorem witness_notice : ((replyState notice0).transferOf (leAt notice0.payload 0 2 % 2048) (leAt notice0.payload 0xC 2) (leAt notice0.payload 0x14 4)
      (leAt notice0.payload 0x18 4) (leAt notice0.payload 0x1C 4) notice0.aux[1]?) = some transfer0 ∧ notice0.aux.getD 0 9 ≤ 1 := by decide
theorem witness_timeout : transfer0 ∈ (replyState notice0).transfers ∧ transfer0.since = some 0 ∧ 0 + (replyState notice0).collTimeout ≤ (replyState notice0).tally := by decide +kernel
/-- An abort of a launch that this chip does not run. -/
def foreignAbort : Packet := Packet.make 0 1 .response 0 0 .reply 2 0x80000000 0 [] (replyPayload 5 0 0) false
theorem witness_abort : takeFirst (replyState (replyTo 5)).inbound (fun p => isReply p 5) = some ((19, replyTo 5), []) ∧
    (replyState (replyTo 5)).launchOf (replyTo 5).t14.toNat ((replyTo 5).t18.toNat % 2 ^ 24) = some (item0 .running (some (launch0 [0]))) ∧
    takeFirst (replyState foreignAbort).inbound (fun p => isReply p 5) = some ((19, foreignAbort), []) ∧
    (replyState foreignAbort).launchOf foreignAbort.t14.toNat (foreignAbort.t18.toNat % 2 ^ 24) = none ∧ (replyState foreignAbort).abortedKeys = [] := by decide +kernel
theorem witness_answers : ([1, 2, 3, 4].all fun ty => (({ replyState (replyTo ty) with inbound := [] } : State).answered (replyTo ty)) == some transfer0) = true := by decide +kernel
theorem witness_backoff : (replyState notice0).transfer 0 = some transfer0 ∧ transfer0.backoff.find? (fun b => b.1 == 0 && b.2 ≤ (replyState notice0).tally) = some (0, 0) := by decide +kernel
theorem witness_notice_taken : takeFirst (replyState notice0).inbound (fun p => p.kind == PktKind.notice) = some ((19, notice0), []) ∧
    (({ replyState notice0 with inbound := [] } : State).transferOf (leAt notice0.payload 0 2 % 2048) (leAt notice0.payload 0xC 2) (leAt notice0.payload 0x14 4)
      (leAt notice0.payload 0x18 4) (leAt notice0.payload 0x1C 4) notice0.aux[1]?) = some transfer0 := by decide +kernel
theorem witness_landing_timeout : (let s := { combineState with tally := 2 ^ 27 }
    landing1 ∈ s.landings ∧ landing1.item = 7 ∧ (0, 0) ∈ landing1.posts ∧ 0 + s.collTimeout ≤ s.tally) := by decide +kernel

theorem witness_window_cmd : ([wcOpen, wcClose, wcRefSet, wcRefClear].all fun op =>
    let e := BitVec.ofNat 8 op :: [0, 255, 0] ++ List.replicate 12 0 ++ [if op = wcOpen then 64 else 0] ++ List.replicate 15 0
    let s := { listState 7 run0 [(0, BitVec.ofNat 8 op), (2, 255)] with grants := [(0, { Grant.empty with mem := [(0, 0, 0x1000000, false)], winHi := 1023, winEn := true })] }
    s.item 7 == some (listItem 7 run0) && (listItem 7 run0).type == tyWindowCmd && s.hostReady 0 && (s.aheadOf (listItem 7 run0)).isEmpty &&
      (op == wcOpen || (s.listEntry (listItem 7 run0) run0).1 == e) && !(WindowCmd.ofEntry e).bad && s.windowGranted (listItem 7 run0) 255 &&
      (s.grantOf (listItem 7 run0)).own 0 64 && !s.windowOpen 255 && !s.windowBusy 255 && s.fld Fld.winStatTenant 255 == 0) = true := by decide
theorem witness_window_cmd_open : ([wcOpen, wcClose].all fun op =>
    let e := BitVec.ofNat 8 op :: [0, 255, 0] ++ List.replicate 12 0 ++ [if op = wcOpen then 64 else 0] ++ List.replicate 15 0
    let s := { listState 7 run0 ((0, BitVec.ofNat 8 op) :: (2, 255) :: (if op = wcOpen then [(16, 64)] else [])) with
      grants := [(0, { Grant.empty with mem := [(0, 0, 0x1000000, false)], winHi := 1023, winEn := true })], windows := [(255, some ⟨0, 64, 0, 0⟩)] }
    s.item 7 == some (listItem 7 run0) && s.hostReady 0 && (s.listEntry (listItem 7 run0) run0).1 == e && !(WindowCmd.ofEntry e).bad &&
      s.windowGranted (listItem 7 run0) 255 && (s.grantOf (listItem 7 run0)).own 0 64 && s.windowOpen 255 && !s.windowBusy 255 &&
      s.fld Fld.winStatTenant 255 == 0 && !({ s with grants := [] }).windowGranted (listItem 7 run0) 255) = true := by decide
def windowPacket : Packet := Packet.make 0 5 .bulk 0 32768 .window 0x100FF 0 0x100 [] [1, 2, 3, 4] false
def windowState : State :=
  { memState.setFld Fld.winStatGen 255 1 with inbound := [(19, windowPacket)], windows := [(255, some ⟨0x1000, 4, 5, 5⟩)] }
theorem witness_window_accept : Tab.get none windowState.windows 255 = some ⟨0x1000, 4, 5, 5⟩ := by decide
theorem witness_window_chunk : windowState.inP0 = true ∧ (takeFirst windowState.inbound (fun p => p.kind == PktKind.window)) = some ((19, windowPacket), []) ∧
    windowPacket.crc = windowPacket.crcOf ∧ windowState.windowReject 255 1 5 0 4 = none ∧ windowState.windowReject 255 1 5 1 4 = some 3 ∧
    windowState.windowReject 255 1 4 0 4 = some 4 ∧ windowState.windowReject 254 0 5 0 4 = some 1 ∧ windowPacket.t14.toNat % 1024 = 255 := by decide
def windowDesc : List Byte := BitVec.ofNat 8 tyWindowCmd :: ingestCmdDesc.drop 1
theorem witness_window_desc : ({ hostState [] with items := [fetched0 windowDesc] }).passes3 0 63 (fetched0 windowDesc) windowDesc tyWindowCmd = true := by decide
/-- Window chunks that fail their CRC, that come late, and that are accepted. -/
def windowCase (p : Packet) (x : Option Window) : State := { memState.setFld Fld.winStatGen 255 1 with inbound := [(19, p)], windows := Tab.set none [] 255 x }
theorem witness_window_chunks : (let bad := { windowPacket with crc := windowPacket.crc + 1 }
    (windowCase bad none).inP0 = true ∧ takeFirst (windowCase bad none).inbound (fun p => p.kind == PktKind.window) = some ((19, bad), []) ∧ bad.crc ≠ bad.crcOf ∧
    (windowCase windowPacket none).inP0 = true ∧ takeFirst (windowCase windowPacket none).inbound (fun p => p.kind == PktKind.window) = some ((19, windowPacket), []) ∧
    windowPacket.crc = windowPacket.crcOf ∧ ({ windowCase windowPacket none with inbound := [] } : State).windowReject 255 1 5 0 4 = some 1 ∧
    ({ windowCase windowPacket (some ⟨0x1000, 4, 5, 5⟩) with inbound := [] } : State).windowReject 255 1 5 0 4 = none) := by decide

/-- Function 0 enabled, ring 63 with 64 entries. -/
def ringState : State := (hostState []).setFld Fld.fnStateState 0 1
theorem witness_ring : ringState.fnEnabled 0 = true ∧ ringState.ringOn 0 63 = true ∧ ringState.inP0 = true ∧ ringState.sqEntries 63 = 64 ∧
    diff32 64 (ringState.fld Fld.ringCfgSqHead 63) = 64 ∧ ringState.fnEnabled 63 = false ∧ ringState.ringOn 0 0 = false ∧ ringState.canonical = true ∧
    ringState.flag Fld.ringCfgActive 0 = false ∧ ringState.ringCheck 0 0 ≠ 0 ∧ (ringState.setFld Fld.ringCfgCqBase 0 4096).ringCheck 0 0 = 0 := by decide
/-- A vector of one record, 1 µs ago, whose timer is 1 µs; masked or not, over a link that is up or not. -/
def msixState (held link : Bool) : State :=
  (({ ringState with tally := 1000, fns := { ringState.fns with msixEnable := [(0, true)], linkUp := link } }).setVec 0 2047 { Vec.reset with count := 1, masked := held }).setFld
    Fld.msixModTimeUs 2047 1
theorem witness_msix : (msixState true true).vecHeld 0 2047 = true ∧ (msixState false true).vecHeld 0 2047 = false ∧ (msixState false false).vecHeld 0 2047 = false ∧
    (msixState true true).fnState 0 ≠ 0 ∧ (msixState true true).fld Fld.msixModTimeUs 2047 = 1 ∧ ((msixState true true).vec 0 2047).count = 1 ∧
    ((msixState true true).vec 0 2047).since + 1000 * 1 ≤ (msixState true true).tally ∧ (msixState false true).fns.linkUp = true := by decide
theorem witness_setup_lock : ({ ringState with sec := { ringState.sec with mgcRuns := true } }).sec.mgcRuns = true ∧ ringState.sec.mgcHalted = false ∧
    ringState.locked = false := by decide
theorem witness_doorbells : (let off := ringState.setFld Fld.fnStateState 0 0
    [off, ringState].all (fun s => s.inP0) = true ∧ off.fnEnabled 0 = false ∧ ringState.fnEnabled 0 = true ∧ ringState.ringOn 0 0 = false ∧ ringState.ringOn 0 63 = true) := by decide
theorem witness_ring_enable : (let s := ringState.setFld Fld.ringCfgCqBase 0 4096
    s.inP0 = true ∧ s.flag Fld.ringCfgActive 0 = false ∧ s.ringCheck 0 0 = 0 ∧ ringState.inP0 = true ∧ ringState.flag Fld.ringCfgActive 0 = false ∧ ringState.ringCheck 0 0 ≠ 0) := by decide
theorem witness_timers : [(true, true), (false, true), (false, false)].all (fun e => let s := msixState e.1 e.2
    s.fnState 0 != 0 && (s.vec 0 2047).count != 0 && s.fld Fld.msixModTimeUs 2047 != 0 && decide ((s.vec 0 2047).since + 1000 * s.fld Fld.msixModTimeUs 2047 ≤ s.tally) &&
      s.vecHeld 0 2047 == e.1 && s.fns.linkUp == e.2) = true := by decide
theorem witness_mgc_lock : (let s := { ringState with sec := { ringState.sec with mgcRuns := true } }
    s.inP0 = true ∧ s.sec.mgcRuns = true ∧ s.sec.mgcHalted = false ∧ s.canonical = true) := by decide

theorem witness_functions : State.reset.fns.vfEnable = false ∧ State.reset.canonical = true ∧ ringState.fns.linkUp = true ∧ ringState.fnState 63 = 0 ∧
    ({ ringState with fns := { ringState.fns with vfEnable := true, numVfs := 63 } }).shouldEnable 63 = true ∧ ringState.shouldEnable 63 = false ∧
    (ringState.setFld Fld.fnStateState 63 2).fnState 63 = 2 ∧ (ringState.setFld Fld.fnStateState 63 2).items.all (fun i => i.fn != 63) = true ∧
    (let m := (memState.setFlag Fld.memChmapBacked 255 true).setFld Fld.memChmapChannel 255 33
     m.flag Fld.memChmapBacked 255 = true ∧ m.flag Fld.memChmapFenced 255 = false ∧ (m.boundChan 255).isSome = true ∧ m.mirrorOf 255 = none ∧ m.fillOf 255 = none ∧
     Memory.wf m.mem = true) ∧ ringState.inP0 = true ∧
    (let v := { ringState with fns := { ringState.fns with vfEnable := true, numVfs := 63 } }
     v.inP0 = true ∧ v.fns.vfEnable = true ∧ 63 ≤ v.fns.numVfs) ∧ (List.range 64).all (fun fn => State.reset.fnState fn == 0) = true := by decide
theorem witness_enable : (let s := { ringState with fns := { ringState.fns with vfEnable := true, numVfs := 63 } }
    s.canonical = true ∧ s.fnState 63 = 0 ∧ s.shouldEnable 63 = true ∧ s.fns.linkUp = true) := by decide
theorem witness_disable_complete : (let s := ringState.setFld Fld.fnStateState 63 2
    s.fnState 63 = 2 ∧ s.items.all (fun i => i.fn != 63) = true) := by decide

/-- Logical tile 0 is carried to physical tile 256. -/
def carryState (now : Nat) : State := { State.reset with tally := now, carries := [⟨0, 256, 0, false, false, false⟩] }
def spareState : State := (State.reset.setFld Fld.tilePhysState 271 1).setFlag Fld.tilePhysArrayFenced 0 true
theorem witness_carry : (carryState 65535).carryOf 0 = some ⟨0, 256, 0, false, false, false⟩ ∧ (carryState 65535).physOf 0 = some 0 ∧ (carryState 65535).carryFree 0 256 = true ∧
    ((carryState 65535).setFlag Fld.pwrRegionUv (islandOf 0) true).carryFree 0 256 = false ∧
    (carryState 65535).tally < 0 + 65536 ∧ 0 + 65536 ≤ (carryState 65536).tally ∧ spareState.restingOn 0 = some 0 ∧ spareState.pickSpare = some 271 := by decide +kernel
theorem witness_tenant_fence : State.reset.inP0 = true ∧ State.reset.canonical = true ∧ State.reset.fenced 63 = false ∧ State.reset.items = [] ∧
    ((State.reset.setFlag Fld.tenantCtlFenced 63 true).setFlag Fld.tenantCtlDrained 63 true).fenced 63 = true ∧
    ((State.reset.setFlag Fld.tenantCtlFenced 63 true).setFlag Fld.tenantCtlDrained 63 true).flag Fld.tenantCtlDrained 63 = true ∧
    (State.reset.setFld Fld.fnStateState 63 1).fnState 63 = 1 ∧ State.reset.flag Fld.tenantCtlDrained 63 = false := by decide
theorem witness_carry_timeout : (carryState 65536).carryOf 0 = some ⟨0, 256, 0, false, false, false⟩ ∧ (carryState 65536).physOf 0 = some 0 ∧ 0 + 65536 ≤ (carryState 65536).tally ∧
    (carryState 65536).carryFree 0 256 = true ∧
    (let u := (carryState 65535).setFlag Fld.pwrRegionUv (islandOf 0) true
     u.carryOf 0 = some ⟨0, 256, 0, false, false, false⟩ ∧ u.physOf 0 = some 0 ∧ u.carryFree 0 256 = false) := by decide +kernel
theorem witness_fences : (let f := State.reset.setFlag Fld.tenantCtlFenced 63 true
    let d := f.setFlag Fld.tenantCtlDrained 63 true
    [State.reset, f, d].all (fun s => s.inP0 && s.canonical) = true ∧ State.reset.fenced 63 = false ∧ f.fenced 63 = true ∧
    f.flag Fld.tenantCtlDrained 63 = false ∧ d.flag Fld.tenantCtlDrained 63 = true) := by decide

/-- A granule at 0 waits, covered by entry 15. -/
def repairState (kind : Nat) (waiting : Option Nat) : State :=
  { (((memState.setFlag Fld.repairSrcEnable 15 true).setFld Fld.repairSrcSize 15 4096).setFld Fld.repairSrcKind 15 kind) with
    repairs := [⟨0, 0, waiting, 0, [], []⟩], tally := 5000000 }
def repairAnswer : Packet := Packet.make 0 1 .response 0 0 .repairResp 0 0 0 [0, 15, 0, 0] [] false
def repairAsk : Packet := Packet.make 0 1 .mgmt 0 0 .repairReq 0 0 0 [0, 0, 0] [] false
theorem witness_repair_start : (repairState 0 none).repairs.find? (fun x => x.waiting.isNone) = some ⟨0, 0, none, 0, [], []⟩ ∧ (repairState 0 none).repairEntry 0 0 = some 15 ∧
    (repairState 0 none).repairEntry 0 16 = none ∧ (repairState 0 none).fld Fld.repairSrcKind 15 = 0 ∧ (repairState 1 none).fld Fld.repairSrcKind 15 ≠ 0 ∧
    ((repairState 1 none).setFld Fld.linkStatState 0 2).portUnreachable 0 = false ∧
    ((repairState 1 none).setFld Fld.linkStatState 0 2).portLink 0 ((repairState 1 none).repairPacket 15 0) = some 0 := by decide +kernel
theorem witness_repair_answers : ({ repairState 2 none with inbound := [(20, repairAsk)] } : State).inbound.find? (fun (x : Nat × Packet) => x.2.kind == .repairReq) = some (20, repairAsk) ∧
    (repairState 2 none).serves 0 4096 = true ∧ (repairState 1 none).serves 0 4096 = false ∧ (repairState 2 none).inP0 = true ∧
    ({ repairState 1 (some 15) with inbound := [(20, repairAnswer)] } : State).inbound.find? (fun (x : Nat × Packet) => x.2.kind == .repairResp) = some (20, repairAnswer) ∧
    (repairState 1 (some 15)).answerOf repairAnswer = some ⟨0, 0, some 15, 0, [], []⟩ ∧
    (repairState 1 (some 15)).repairs.find? (fun x => x.waiting.isSome && decide (x.got.length < 8) && decide (x.since + 5000000 ≤ (repairState 1 (some 15)).tally)) = some ⟨0, 0, some 15, 0, [], []⟩ ∧
    ({ ((((repairState 0 (some 15)).setFlag Fld.hwinEnable 0 true).setFlag Fld.hwinLock 0 true).setFlag Fld.hwinRead 0 true).setFld Fld.hwinSize 0 4096 with
      fns := { State.reset.fns with linkUp := true, busMaster := [(0, true)] } }).hostRepair = some (⟨0, 0, some 15, 0, [], []⟩, 15) := by decide +kernel
theorem witness_repair_codewords : memState.mapAddr 0 = (0, 64 * 0) ∧ memState.slotView 0 0 = .array 0 ∧ 0 < memState.memTop ∧
    (memState.decodeCw 0 0).arrayPoison 0 0 = false ∧ ((({ memState with memPoison := [(0, true)] } : State)).decodeCw 0 0).arrayPoison 0 0 = true ∧
    memState.engineBusyAt 0 = false ∧
    (let b := ({ memState with memPoison := [(0, true)] } : State).setFlag Fld.pwrRegionUv 0 true
     b.engineBusyAt 0 = true ∧ (b.decodeCw 0 0).arrayPoison 0 0 = true ∧ b.slotView 0 0 = .array 0) ∧
    Tab.sorted [((0 : Nat), true)] = true ∧ memState.mirrorOf 0 = none ∧ (memState.setFlag Fld.memChmapFenced 0 true).slotView 0 0 = .fenced ∧
    memState.canonical = true ∧ (repairState 1 none).granuleFenced 0 = false ∧
    ({ memState with repairs := [⟨0, 0, some 15, 0, [0, 1, 2, 3, 4, 5, 6, 7], []⟩] } : State).repairs.find? (fun r => r.granule == 0) =
      some ⟨0, 0, some 15, 0, [0, 1, 2, 3, 4, 5, 6, 7], []⟩ := by decide +kernel
theorem witness_repair_asks_peer : (let s := (repairState 1 none).setFld Fld.linkStatState 0 2
    s.repairs.find? (fun x => x.waiting.isNone) = some ⟨0, 0, none, 0, [], []⟩ ∧ s.repairEntry 0 0 = some 15 ∧ s.fld Fld.repairSrcKind 15 ≠ 0 ∧
    bitsOf (s.fld Fld.repairSrcSrc 15) 51 5 = 0 ∧ s.portUnreachable 0 = false ∧ s.portLink 0 (s.repairPacket 15 0) = some 0) := by decide +kernel
theorem witness_repair_serves : [(1, false), (2, true)].all (fun e => let s := { repairState e.1 none with inbound := [(20, repairAsk)] }
    s.inP0 && s.inbound.find? (fun x => x.2.kind == .repairReq) == some (20, repairAsk) && (({ s with inbound := s.inbound.erase (20, repairAsk) } : State).serves 0 4096) == e.2) = true := by decide +kernel
theorem witness_repair_no_source : (let s := { repairState 0 none with repairs := [⟨0, 16, none, 0, [], []⟩] }
    s.repairs.find? (fun x => x.waiting.isNone) = some ⟨0, 16, none, 0, [], []⟩ ∧ s.repairEntry 0 16 = none) := by decide +kernel
theorem witness_repair_poisoned : (let s := { memState with memPoison := [(0, true)] }
    s.mapAddr 0 = (0, 64 * 0) ∧ 0 < s.memTop ∧ s.slotView 0 0 = .array 0 ∧ (s.decodeCw 0 0).arrayPoison 0 0 = true ∧ s.mirrorOf 0 = none ∧ Memory.wf s.mem = true ∧
    Tab.sorted s.memPoison = true) := by decide +kernel

def assayState : State := (((State.reset.setFld Fld.tilePhysState 271 1).setFlag Fld.assayCtlTileEn 0 true).setFlag Fld.assayCtlRotate 0 true)
theorem witness_assay_start : assayState.assayRuns = true ∧ assayState.assay.unit = none ∧ assayState.assayEnabled (.tile 271) = true ∧ assayState.testable (.tile 271) = true ∧
    assayState.testTurn (.tile 271) = true ∧ assayState.wornOut (.tile 271) = false ∧ assayState.canonical = true ∧ (AssayUnit.tile 271).wf = true ∧
    ((assayState.setFld Fld.tilePhysState 271 2).setFld Fld.tilePhysFences 271 3).wornOut (.tile 271) = true ∧
    ((assayState.setFld Fld.tilePhysState 271 2).setFld Fld.tilePhysFences 271 3).testable (.tile 271) = true ∧ assayState.testable (.tile 0) = false ∧
    ((assayState.setFld Fld.tilePhysState 271 2).setFld Fld.tilePhysFences 271 3).testTurn (.tile 271) = true ∧
    ({ assayState with assay := { assayState.assay with next := [.tile 271] } }).assayNext = some (.tile 271) := by decide +kernel
theorem witness_assay_complete : ({ assayState with assay := { assayState.assay with unit := some (.lane 99, 3) } }).unitState (.lane 99) = 0 ∧
    ({ assayState with assay := { assayState.assay with unit := some (.lane 99, 0) } }).unitState (.lane 99) = 0 ∧
    ({ assayState with assay := { assayState.assay with unit := some (.channel 271, 0) } }).unitState (.channel 271) = 0 ∧
    ({ assayState with assay := { assayState.assay with unit := some (.tile 271, 1) } }).canonical = true ∧
    ({ assayState with assay := { assayState.assay with unit := some (.channel 271, 0) } }).canonical = true ∧
    (let l := { assayState.setLane 19 4 2 with assay := { assayState.assay with unit := some (.lane 99, 2) } }
     l.canonical = true ∧ l.assay.unit = some (.lane 99, 2) ∧ l.unitState (.lane 99) = 2) ∧
    assayState.flag Fld.pwrRegionUv (islandOf 271) = false := by decide +kernel
theorem witness_rotation : ({ assayState with assay := { assayState.assay with lastTest := [(271, 1)] } }).freshSpare = some 271 ∧ assayState.rotateNext = some 0 ∧
    assayState.periodDue assayState.assay.lastRotation = true ∧ assayState.restingOn 0 = some 0 ∧ (carryState 0).restingOn 0 = none ∧
    assayState.flag Fld.assayCtlRotate 0 = true := by decide +kernel
theorem witness_assay_worn : (let s := (assayState.setFld Fld.tilePhysState 271 2).setFld Fld.tilePhysFences 271 3
    s.canonical = true ∧ s.assayRuns = true ∧ s.assay.unit = none ∧ s.assayEnabled (.tile 271) = true ∧ s.testable (.tile 271) = true ∧ s.testTurn (.tile 271) = true ∧
    s.wornOut (.tile 271) = true) := by decide +kernel
theorem witness_assay_tile : (let s := { assayState with assay := { assayState.assay with unit := some (.tile 271, 1) } }
    s.canonical = true ∧ s.assay.unit = some (.tile 271, 1) ∧ s.flag Fld.pwrRegionUv (islandOf 271) = false ∧
    (s.setFlag Fld.pwrRegionUv (islandOf 271) true).flag Fld.pwrRegionUv (islandOf 271) = true) := by decide +kernel
/-- Tile 271 tested once, and a rotation due. -/
def rotateState (carries : List Carry) : State := { assayState with assay := { assayState.assay with lastTest := [(271, 1)] }, carries := carries }
theorem witness_rotations : (rotateState []).assayRuns = true ∧ (rotateState []).flag Fld.assayCtlRotate 0 = true ∧ (rotateState []).periodDue (rotateState []).assay.lastRotation = true ∧
    (rotateState []).rotateNext = some 0 ∧ (rotateState []).freshSpare = some 271 ∧ (rotateState []).restingOn 0 = some 0 := by decide +kernel

def coreState : State := { State.reset with pins := { State.reset.pins with regulators := true, porN := true } }
theorem witness_power_loops : coreState.coreOn = true ∧ coreState.canonical = true ∧ coreState.awake = true ∧ coreState.inP0 = true ∧ coreState.flag Fld.pwrStatWaking 0 = false ∧
    (List.replicate 384 (1079 : BitVec 12)).length = 384 ∧ (List.replicate 384 (1079 : BitVec 12)).all (fun r => r.toNat < 1080) = true ∧
    (List.replicate 384 (1080 : BitVec 12)).all (fun r => r.toNat < 1080) = false := by decide +kernel
theorem witness_uv : coreState.canonical = true ∧ coreState.coreOn = true ∧ coreState.flag Fld.pwrRegionUv 15 = false ∧ State.reset.canonical = true ∧ State.reset.coreOn = false ∧
    (coreState.setFlag Fld.pwrRegionUv 15 true).canonical = true ∧ (coreState.setFlag Fld.pwrRegionUv 15 true).flag Fld.pwrRegionUv 15 = true := by decide

/-- In a power state, idle or in P1 since count 0. -/
def powerState (target st now : Nat) : State :=
  { ((coreState.setFld Fld.pwrCtlTarget 0 target).setFld Fld.pwrCtlIdleUs 0 1).setFld Fld.pwrStatState 0 st with
    tally := now, power := { State.reset.power with idleFrom := some 0, p1From := some 0 } }
theorem witness_p1_entry : (powerState 1 0 1000).canonical = true ∧ (powerState 1 0 1000).power.idleFrom = some 0 ∧ 1 ≤ (powerState 1 0 1000).fld Fld.pwrCtlTarget 0 ∧
    (powerState 1 0 1000).inP0 = true ∧ (powerState 1 0 1000).busy = false ∧ 0 + 1000 * max 1 ((powerState 1 0 1000).fld Fld.pwrCtlIdleUs 0) ≤ (powerState 1 0 1000).tally ∧
    (powerState 1 0 1000).flag Fld.pwrStatWaking 0 = false := by decide
theorem witness_p1_entry_early : (powerState 1 0 999).canonical = true ∧ (powerState 1 0 999).power.idleFrom = some 0 ∧
    (powerState 1 0 999).tally < 0 + 1000 * max 1 ((powerState 1 0 999).fld Fld.pwrCtlIdleUs 0) := by decide
/-- A state in which P2 is entered, with a tile under test. -/
def testedState : State := { powerState 3 1 10000 with assay := { State.reset.assay with unit := some (.tile 271, 2) } }
theorem witness_p2_entry : testedState.canonical = true ∧ testedState.power.p1From = some 0 ∧ 2 ≤ testedState.fld Fld.pwrCtlTarget 0 ∧ testedState.fld Fld.pwrStatState 0 = 1 ∧
    testedState.flag Fld.pwrStatWaking 0 = false ∧ testedState.busy = false ∧ 0 + 10 * (1000 * max 1 (testedState.fld Fld.pwrCtlIdleUs 0)) ≤ testedState.tally ∧
    testedState.assay.unit = some (.tile 271, 2) := by decide
theorem witness_p2_entry_early : (powerState 1 1 10000).canonical = true ∧ (powerState 1 1 10000).power.p1From = some 0 ∧ (powerState 1 1 10000).fld Fld.pwrCtlTarget 0 < 2 := by decide
theorem witness_wake : (powerState 1 2 0).canonical = true ∧ (powerState 1 2 0).fld Fld.pwrStatState 0 = 2 ∧ (powerState 1 2 0).flag Fld.pwrStatWaking 0 = false ∧
    (powerState 1 0 0).canonical = true ∧ (powerState 1 0 0).fld Fld.pwrStatState 0 = 0 ∧ (powerState 1 0 0).flag Fld.pwrStatWaking 0 = false ∧
    ((powerState 1 1 0).setFlag Fld.pwrStatWaking 0 true).canonical = true ∧ ((powerState 1 1 0).setFlag Fld.pwrStatWaking 0 true).flag Fld.pwrStatWaking 0 = true := by decide
theorem witness_served : (∃ t, exec (.registerWrite .hostPf 0 8 0) State.reset = .next t) ∧ ∃ t, exec (.sqTailWrite 0 63 0) State.reset = .next t := ⟨⟨_, rfl⟩, ⟨_, rfl⟩⟩
theorem witness_off : (powerState 0 0 0).inP0 = true ∧ (powerState 0 0 0).agentActs .hostPf = true ∧ (powerState 0 3 0).fld Fld.pwrStatState 0 = 3 ∧
    (powerState 0 0 0).agentActs .mgc = false ∧ (powerState 0 2 0).fld Fld.pwrStatState 0 = 2 ∧ (powerState 0 2 0).agentActs .hostPf = true ∧
    ({ powerState 0 0 0 with sec := { State.reset.sec with mgcRuns := true } }).inP0 = true ∧ ({ powerState 0 0 0 with sec := { State.reset.sec with mgcRuns := true } }).agentActs .mgc = true := by decide
theorem witness_p3 : (powerState 0 3 0).canonical = true ∧ (powerState 0 3 0).fld Fld.pwrStatState 0 = 3 ∧ (powerState 0 3 0).pins.tripLatch = none ∧
    (powerState 0 3 0).flag Fld.pwrStatTripped 0 = false ∧ (powerState 0 0 0).canonical = true ∧ (powerState 0 0 0).fld Fld.pwrStatState 0 ≠ 3 := by decide
theorem witness_trip_pin : State.reset.scanned (.side .thermtripN) = false ∧ State.reset.scanHighz = false ∧ (powerState 0 3 0).scanned (.side .thermtripN) = false ∧
    (powerState 0 3 0).scanHighz = false ∧ (powerState 0 3 0).pins.vaux = true ∧ (powerState 0 3 0).pinCondition ≠ .running := by decide
theorem witness_main_good : ({ powerState 0 3 0 with pins := { (powerState 0 3 0).pins with pgMain := true } }).mainGood = true := by decide
theorem witness_wake_again : (powerState 1 0 0).flag Fld.pwrStatWaking 0 = false ∧ (powerState 1 0 0).inP0 = true := by decide
theorem witness_trip : (powerState 0 0 0).pins.vaux = true ∧ (powerState 0 0 0).awake = true ∧ (powerState 0 0 0).pins.tripLatch.getD 383 = 383 := by decide

/-- An image with an empty payload and zeros for its keys and signatures. -/
def image0 (kind : Nat) : Image :=
  { signed := leBytes 4 0x5746564F ++ leBytes 2 1 ++ leBytes 1 kind ++ leBytes 1 0 ++ leBytes 4 0 ++ leBytes 4 5 ++ leBytes 4 0 ++ List.replicate 12 0 ++ sha384 [] ++ List.replicate 496 0,
    rsaSig := List.replicate 384 0, slhSig := List.replicate 16224 0, tail := List.replicate 224 0, payload := [] }
/-- The ROM's key hashes and the two signature checks are constants of the device without a value here: one whose root key 0 is the key of zeros, and whose
signatures of these images verify. -/
def Verifies0 : Prop :=
  Config.rootKeyHash 0 = sha384 (List.replicate 436 0) ∧
    ∀ kind, Config.rsaVerifies (List.replicate 388 0) (image0 kind).signed (List.replicate 384 0) = true ∧
      Config.slhVerifies (List.replicate 48 0) (image0 kind).signed (List.replicate 16224 0) = true
def keys0 : DeviceKeys := ⟨List.replicate 384 1, List.replicate 48 2, [], []⟩
def bootState (slots : Tab (Option Image)) : State :=
  { coreState.setFld Fld.setupStatPhase 0 1 with sec := { State.reset.sec with slots := slots, mgcRuns := true, identityArea := true, deviceKeys := some keys0, running := [(2, 5)], changes := [(recTrip, [0, 0], 0)] } }
theorem image0_valid (hv : Verifies0) (s : State) (kind : Nat) (hk : kind = 1 ∨ kind = 2 ∨ kind = 3) (hr : s.sec.revoked = 0) (hf : s.floorOf kind ≤ 5) : s.valid kind (image0 kind) = true := by
  obtain ⟨h0, h1⟩ := hv
  have e1 : (image0 kind).formOk kind = true ∧ leAt (image0 kind).signed 7 1 = 0 ∧ rsaKeyAt (image0 kind).signed 0x50 = List.replicate 388 0 ∧
      slhKeyAt (image0 kind).signed 0x50 = List.replicate 48 0 ∧ sha384 (image0 kind).payload = ((image0 kind).signed.drop 0x20).take 48 ∧ (image0 kind).svn = 5 := by
    rcases hk with h | h | h <;> subst h <;> decide +kernel
  obtain ⟨e1, e2, e3, e4, e5, e6⟩ := e1
  have hb : bitOf 0 0 = false := by decide
  have e7 : (image0 kind).rsaSig = List.replicate 384 0 := rfl
  have e8 : (image0 kind).slhSig = List.replicate 16224 0 := rfl
  simp only [State.valid, State.keyOk, rsaOk, slhOk, e1, e2, e3, e4, e5, e6, e7, e8, List.replicate_append_replicate, h0, hr, hb, hf, (h1 kind).1, (h1 kind).2,
    beq_self_eq_true, decide_true, Nat.zero_lt_succ, Bool.not_false, Bool.and_true]
/-- A device in recovery, and one with an image of each kind in slot A. -/
def recoveryState : State := (bootState []).setFlag Fld.secStatRecovery 0 true
def fullSlots : State := bootState [(2, some (image0 1)), (4, some (image0 2)), (6, some (image0 3))]
theorem witness_image_writes (hv : Verifies0) : recoveryState.flag Fld.secStatRecovery 0 = true ∧ recoveryState.valid 3 (image0 3) = true ∧ recoveryState.canonical = true ∧
    (bootState []).mgcServes = true ∧ (bootState []).valid 2 (image0 2) = true ∧ Tab.sorted (bootState []).sec.slots = true :=
  ⟨by decide, image0_valid hv _ 3 (by decide) rfl (by decide), by decide, by decide, image0_valid hv _ 2 (by decide) rfl (by decide), by decide⟩
theorem witness_images (hv : Verifies0) : fullSlots.canonical = true ∧ fullSlots.awake = true ∧ fullSlots.fld Fld.setupStatPhase 0 = 1 ∧ fullSlots.flag Fld.secStatRecovery 0 = false ∧
    fullSlots.sec.identityArea = true ∧ fullSlots.otpLc = 0 ∧ fullSlots.chosen 1 = some (image0 1) ∧ fullSlots.chosen 2 = some (image0 2) ∧ fullSlots.chosen 3 = some (image0 3) := by
  have h := image0_valid hv
  have f : ∀ k, k = 1 ∨ k = 2 ∨ k = 3 → fullSlots.firstChoice k = 0 ∧ fullSlots.slotImage k 0 = some (image0 k) := by
    intro k hk; rcases hk with h | h | h <;> subst h <;> decide +kernel
  have g : ∀ k, k = 1 ∨ k = 2 ∨ k = 3 → fullSlots.valid k (image0 k) = true :=
    fun k hk => h _ k hk rfl (by rcases hk with h | h | h <;> subst h <;> decide)
  refine ⟨by decide +kernel, by decide +kernel, by decide +kernel, by decide +kernel, by decide +kernel, by decide +kernel, ?_, ?_, ?_⟩
  · simp only [State.chosen, f 1 (by decide), g 1 (by decide), if_true]
  · simp only [State.chosen, f 2 (by decide), g 2 (by decide), if_true]
  · simp only [State.chosen, f 3 (by decide), g 3 (by decide), if_true]
theorem witness_no_image : (bootState []).chosen 1 = none ∧ (bootState []).valid 3 (image0 2) = false ∧ recoveryState.valid 3 (image0 2) = false ∧
    (bootState []).flag Fld.secStatRecovery 0 = false := by decide +kernel
theorem witness_boot : (bootState []).canonical = true ∧ (bootState []).awake = true ∧ (bootState []).fld Fld.setupStatPhase 0 = 1 ∧
    (bootState []).flag Fld.secStatRecovery 0 = false ∧ (bootState []).sec.identityArea = true := by decide
theorem witness_commit : (bootState [(4, some (image0 2)), (5, some (image0 2))]).mgcServes = true ∧
    (bootState [(4, some (image0 2)), (5, some (image0 2))]).slotImage 2 0 = some (image0 2) ∧
    (bootState [(4, some (image0 2)), (5, some (image0 2))]).slotImage 2 1 = some (image0 2) ∧ (image0 2).svn = 5 ∧
    min 64 (Tab.get 0 (bootState [(4, some (image0 2)), (5, some (image0 2))]).sec.running 2) = 5 ∧
    (bootState [(4, some (image0 2)), (5, some (image0 2))]).floorOf 2 < 5 := by decide +kernel
theorem witness_report : (bootState []).awake = true ∧ (bootState []).mgcServes = true ∧ (bootState []).fld Fld.secStatLc 0 ≠ 3 ∧ (bootState []).sec.identityKeys = true ∧
    (List.replicate 32 (0 : Byte)).length = 32 ∧ ((bootState []).setFld Fld.secStatLc 0 3).awake = true ∧ ((bootState []).setFld Fld.secStatLc 0 3).mgcServes = true ∧
    ((bootState []).setFld Fld.secStatLc 0 3).fld Fld.secStatLc 0 = 3 := by decide
/-- The CXL link is up. -/
def linkedState : State := { bootState [] with fns := { State.reset.fns with linkUp := true } }
theorem witness_spdm : linkedState.mgcServes = true ∧ linkedState.sec.identityKeys = true ∧ linkedState.fns.linkUp = true ∧ linkedState.fld Fld.pwrStatState 0 ≠ 3 ∧
    (bootState []).mgcServes = true ∧ (bootState []).sec.identityKeys = true ∧ (bootState []).fns.linkUp = false := by decide
theorem space_ge (r : JRec) (h : r.torn = none) : 64 ≤ r.space := by
  have h1 : 1 ≤ r.bytes.length := by simp [JRec.bytes, JRec.body, leBytes]
  simp only [JRec.space, JRec.stored, h, Option.getD_none, List.length_append, List.length_replicate, alignUp]; omega
theorem sum_replicate (n a b : Nat) : (List.replicate n a).foldl (· + ·) b = b + n * a := by
  induction n generalizing b with
  | zero => simp
  | succ n ih => rw [List.replicate_succ, List.foldl_cons, ih, Nat.add_mul, Nat.one_mul]; omega
/-- The begin of a log, and a half that holds it. -/
def begun (gen point : Nat) : List JRec := [⟨recGenesis, [gen, point], point, 0, none⟩, ⟨recSeal, [], point + 1, 0, none⟩]
def logState (on : Bool) (h0 h1 : List JRec) : State :=
  { (bootState []).setFlag Fld.journalStatCompacting 0 on with sec := { (bootState []).sec with half0 := h0, half1 := h1 } }
/-- A half so full that a compaction is due. -/
def fullState : State := logState false (begun 1 0 ++ List.replicate 917505 ⟨recBound, [0, 0, 1], 7, 0, none⟩) []
theorem witness_compaction : fullState.awake = true ∧ fullState.canonical = true ∧ fullState.flag Fld.journalStatCompacting 0 = false ∧
    0 < fullState.sec.gen fullState.activeHalf ∧ fullState.logFree < 0x800000 := by
  have ha : fullState.activeHalf = 0 := by decide +kernel
  refine ⟨by decide, by decide, by decide, by decide +kernel, ?_⟩
  have h0 : fullState.sec.half 0 = begun 1 0 ++ List.replicate 917505 ⟨recBound, [0, 0, 1], 7, 0, none⟩ := rfl
  have h := space_ge ⟨recBound, [0, 0, 1], 7, 0, none⟩ rfl
  rw [State.logFree, ha, h0, List.map_append, List.foldl_append, List.map_replicate, sum_replicate]
  omega
/-- A compaction after its first step, after its second with a record made meanwhile, and after its third. -/
def compacting1 : State := logState true (begun 1 0) [⟨recGenesis, [2, 1], 1, 0, none⟩]
def compacting2 : State := logState true (begun 1 0 ++ [⟨recBound, [0, 0, 1], 2, 0, none⟩]) (begun 2 1)
def compacting3 : State := logState true (begun 1 0) (begun 2 1)
theorem witness_compaction_steps :
    [compacting1, compacting2, compacting3].all (fun s => s.awake && s.canonical && s.flag Fld.journalStatCompacting 0) = true ∧
    compacting1.activeHalf = 0 ∧ compacting1.sec.gen 0 < compacting1.sec.gen 1 ∧ sealedTail (compacting1.sec.log 1) = none ∧
    compacting1.sec.log 1 = [⟨recGenesis, [2, 1], 1, 0, none⟩] ∧
    compacting2.activeHalf = 0 ∧ compacting2.sec.gen 0 < compacting2.sec.gen 1 ∧ sealedTail (compacting2.sec.log 1) ≠ none ∧
    compacting3.activeHalf = 1 ∧ compacting3.sec.gen 0 < compacting3.sec.gen 1 := by decide +kernel
theorem witness_journal : (bootState []).awake = true ∧ (bootState []).sec.changes = (recTrip, [0, 0], 0) :: [] ∧ (bootState []).log = [] ∧
    (logState false (begun 1 0) []).awake = true ∧ (logState false (begun 1 0) []).sec.changes = (recTrip, [0, 0], 0) :: [] ∧ (logState false (begun 1 0) []).log ≠ [] ∧
    (bootState []).flag Fld.journalStatCompacting 0 = false ∧ 0x800000 ≤ (bootState []).logFree ∧ (bootState []).sec.mgcRuns = true := by decide +kernel

/-- A token that names the device of `tokenState`, with the challenge zero, and zeros for its keys and signatures. -/
def token0 (action : Nat) : Token :=
  { signed := leBytes 4 0x4B54564F ++ leBytes 2 1 ++ leBytes 1 action ++ leBytes 1 (if action = 1 then 2 else 0) ++ leBytes 1 3 ++ List.replicate 7 0 ++ sha384 keys0.material ++ List.replicate 32 0 ++
      leBytes 8 (if action = 1 then 2 ^ 42 else 0) ++ List.replicate 600 0, rsaSig := List.replicate 384 0, slhSig := List.replicate 16224 0 }
def tokenState (lc level : Nat) : State :=
  (((({ coreState with sec := { State.reset.sec with identityArea := true, deviceKeys := some keys0 } }).setFld Fld.secStatLc 0 lc).setFld Fld.dbgConsentLevel 0 2).setFlag Fld.dbgConsentReturnOk 0 true).setFld Fld.secStatLevel 0 level
theorem witness_debug_power : [3, 1, 2].all (fun p => let s := (tokenState 0 2).setFld Fld.pwrStatState 0 p
    s.awake && decide (2 ≤ s.level) && s.fld Fld.pwrStatState 0 == p && (HaltTarget.tile 255).wf && HaltTarget.mgc.wf) = true := by decide
/-- A ROM whose root key 3 is the key of zeros, and signatures that verify (`Verifies0`). -/
def Tokens0 : Prop :=
  Config.rootKeyHash 3 = sha384 (List.replicate 436 0) ∧
    ∀ action, Config.rsaVerifies (List.replicate 388 0) (token0 action).signed (List.replicate 384 0) = true ∧
      Config.slhVerifies (List.replicate 48 0) (token0 action).signed (List.replicate 16224 0) = true
theorem token0_checks : ∀ a ∈ [1, 2, 3], tokenForm (token0 a) a = true ∧ (token0 a).keyIndex = 3 ∧ rsaKeyAt (token0 a).signed 0x100 = List.replicate 388 0 ∧
    slhKeyAt (token0 a).signed 0x100 = List.replicate 48 0 ∧ (token0 a).challenge = 0 ∧ (token0 a).idHash = leNat (sha384 keys0.material) := by decide +kernel
theorem token0_cause (hv : Tokens0) (s : State) (a : Nat) (ha : a ∈ [1, 2, 3]) (hk : s.sec.deviceKeys = some keys0 ∧ s.sec.revoked = 0) (hl : s.fld Fld.secStatLc 0 = actionLc a)
    (hc : s.fld Fld.dbgChallengeValue 0 = 0 ∧ s.consents (token0 a) a = true) : s.tokenCause (token0 a) a = 0 := by
  obtain ⟨h0, h1⟩ := hv
  obtain ⟨e1, e2, e3, e4, e5, e6⟩ := token0_checks a ha
  have hb : bitOf 0 3 = false := by decide
  have e7 : (token0 a).rsaSig = List.replicate 384 0 := rfl
  have e8 : (token0 a).slhSig = List.replicate 16224 0 := rfl
  have e9 : s.sec.identityKeys = true ∧ leNat s.identityHash = leNat (sha384 keys0.material) := by
    simp only [Security.identityKeys, State.identityHash, State.keyMaterial, hk.1, Option.isSome_some, Option.map_some, Option.getD_some, and_self]
  simp only [State.tokenCause, State.keyOk, rsaOk, slhOk, e1, e2, e3, e4, e5, e6, e7, e8, e9.1, e9.2, hk.2, List.replicate_append_replicate, h0, hb,
    (h1 a).1, (h1 a).2, hl, hc.1, hc.2, beq_self_eq_true, Bool.not_false, Bool.and_true, Bool.not_true, bne_self_eq_false, if_false, Bool.and_self, Bool.false_eq_true]
  simp
theorem witness_tokens (hv : Tokens0) : (tokenState 1 0).canonical = true ∧ (tokenState 1 0).awake = true ∧ (tokenState 1 0).tokenCause (token0 1) 1 = 0 ∧
    (tokenState 1 0).fld Fld.pwrStatState 0 ≠ 3 ∧ (tokenState 1 0).tokenCause (token0 2) 2 = 0 ∧
    (tokenState 0 0).canonical = true ∧ (tokenState 0 0).awake = true ∧ (tokenState 0 0).tokenCause (token0 3) 3 = 0 := by
  have h := token0_cause hv
  refine ⟨by decide +kernel, by decide +kernel, h _ 1 (by decide) ⟨rfl, rfl⟩ (by decide) (by decide +kernel), by decide +kernel, h _ 2 (by decide) ⟨rfl, rfl⟩ (by decide) (by decide +kernel),
    by decide +kernel, by decide +kernel, h _ 3 (by decide) ⟨rfl, rfl⟩ (by decide) (by decide +kernel)⟩
theorem witness_token_in_p3 (hv : Tokens0) : ((tokenState 1 0).setFld Fld.pwrStatState 0 3).canonical = true ∧ ((tokenState 1 0).setFld Fld.pwrStatState 0 3).awake = true ∧
    ((tokenState 1 0).setFld Fld.pwrStatState 0 3).tokenCause (token0 1) 1 = 0 ∧ ((tokenState 1 0).setFld Fld.pwrStatState 0 3).fld Fld.pwrStatState 0 = 3 := by
  exact ⟨by decide +kernel, by decide +kernel, token0_cause hv _ 1 (by decide) ⟨rfl, rfl⟩ (by decide) (by decide +kernel), by decide +kernel⟩
theorem witness_token_refused : (tokenState 1 0).canonical = true ∧ (tokenState 1 0).tokenCause (token0 2) 1 = 1 := by decide +kernel
theorem witness_levels : (tokenState 1 0).awake = true ∧ (tokenState 1 0).canonical = true ∧ (tokenState 1 0).level < 1 ∧ (tokenState 1 0).mayEnter 1 = true ∧
    (tokenState 1 0).fld Fld.secStatLc 0 ≠ 2 ∧ (tokenState 1 0).mayEnter 2 = false ∧
    (tokenState 0 3).awake = true ∧ 0 < (tokenState 0 3).level ∧ (tokenState 0 3).fld Fld.secStatLc 0 ≠ 2 ∧ (tokenState 0 3).canonical = true ∧
    (tokenState 2 3).awake = true ∧ 0 < (tokenState 2 3).level ∧ (tokenState 2 3).fld Fld.secStatLc 0 = 2 := by decide
/-- A session with L3 granted, in a power state. -/
def granted3 (power : Nat) : State := ((tokenState 2 0).setFld Fld.secStatGranted 0 3).setFld Fld.pwrStatState 0 power
theorem witness_erasing_level : (granted3 0).awake = true ∧ (granted3 0).level < 3 ∧ (granted3 0).mayEnter 3 = true ∧ (granted3 0).fld Fld.secStatLc 0 = 2 ∧ (granted3 0).inP0 = true ∧
    (granted3 0).canonical = true ∧ (granted3 2).awake = true ∧ (granted3 2).level < 3 ∧ (granted3 2).mayEnter 3 = true ∧ (granted3 2).fld Fld.secStatLc 0 = 2 ∧
    (granted3 2).fld Fld.pwrStatState 0 = 2 := by decide
/-- A session in progress. -/
def sessionState : State := { tokenState 2 1 with sec := { (tokenState 2 1).sec with session := some ⟨2, 0, 0, 1, false⟩ } }
theorem witness_session : sessionState.sec.session = some ⟨2, 0, 0, 1, false⟩ ∧ sessionState.canonical = true ∧ sessionState.tally < 0 + 1 := by decide
theorem witness_refused : (tokenState 0 0).awake = true ∧ (tokenState 0 0).level < 1 ∧ (HaltTarget.tile 255).wf = true ∧ (LoupeAccess.readSpad 255 4194303).wf = true ∧
    (LoupeAccess.scan 0).wf = true ∧ (LoupeAccess.writeMem 0 0).wf = true ∧ (LoupeAccess.writeTileState 0 13 0 0).wf = true ∧ (LoupeAccess.readRegister 63 0 0).wf = true := by decide
/-- A tile that runs, halted or not, with the level at L2. -/
def steppedState (halted : Bool) : State := (tokenState 0 2).setTile 0 { running (insn 0x48 0 0) with halted := halted }
theorem witness_debug : [true, false].all (fun h => (steppedState h).awake && (steppedState h).inP0 && decide (2 ≤ (steppedState h).level) && (steppedState h).physOf 0 == some 0 &&
      ((steppedState h).tile 0).halted == h && ((steppedState h).tile 0).next == some (insn 0x48 0 0) && Tab.sorted (steppedState h).tiles) = true ∧
    ∃ w, exec (.vadd 0 .pass) (steppedState false) = .next w := ⟨by decide +kernel, by
      exact ⟨_, rfl⟩⟩

/-- Start-up has completed event n with the main power good. -/
def phaseState (n : Nat) : State := { coreState.setFld Fld.setupStatPhase 0 n with pins := { coreState.pins with pgMain := true, perstN := true } }
theorem witness_reset_release : State.reset.pins.porN = false ∧ State.reset.pins.testMode = false ∧ State.reset.canonical = true ∧ State.reset.pins.tripLatch = none ∧
    (phaseState 9).pins.pgMain = true ∧ (phaseState 9).awake = true ∧ (phaseState 9).fld Fld.pwrStatState 0 ≠ 3 ∧ coreState.pins.pgMain = false ∧ coreState.pins.wakeN = true ∧
    (phaseState 9).mainGood = true ∧ (phaseState 9).pins.railFault = false ∧ coreState.mainGood = false ∧ coreState.pins.perstN = false ∧ coreState.pins.vaux = true ∧ coreState.awake = true ∧ (phaseState 9).pins.perstN = true := by decide
theorem witness_startup : [271].all (fun c => c < 272) = true ∧ [5, 6, 7, 9].all (fun n => (phaseState n).atPhase n) = true ∧ (phaseState 9).fns.linkUp = false ∧
    (phaseState 9).atPhase 5 = false ∧ (phaseState 9).atPhase 6 = false ∧ (phaseState 9).atPhase 7 = false ∧ (phaseState 7).atPhase 9 = false ∧ (phaseState 7).atPhase 10 = false := by decide
/-- Power is lost while a record is written. -/
def tornState : State := { State.reset with sec := { State.reset.sec with changes := [(recTrip, [0, 0], 0)] } }
theorem witness_torn : 0 < 1 ∧ tornState.sec.changes = (recTrip, [0, 0], 0) :: [] := by decide
theorem witness_bypass : 0x80 ≤ (0xFF : BitVec 8).toNat ∧ 8 ≤ (0x3F : BitVec 8).toNat ∧ (0x3F : BitVec 8).toNat < 0x40 ∧ State.reset.pins.vaux = true := by decide
/-- The firmware runs at PHASE n, with the trip of sensor 383 latched or none. -/
def replayState (n : Nat) (latch : Option Nat) (low : Bool) : State :=
  { phaseState n with sec := { State.reset.sec with mgcRuns := true }, pins := { (phaseState n).pins with tripLatch := latch, stillHot := low } }
theorem witness_replay : [(replayState 3 (some 383) false), (replayState 2 none false)].all (fun s => s.awake && s.sec.mgcRuns && s.fld Fld.pwrStatState 0 != 3 && s.sec.changes.isEmpty &&
      ((s.fld Fld.setupStatPhase 0 == 2 && s.pins.tripLatch.isNone) || s.fld Fld.setupStatPhase 0 == 3)) = true ∧ (replayState 5 none false).fld Fld.setupStatPhase 0 = 5 := by decide
theorem witness_trip_record : [true, false].all (fun low => (replayState 2 (some 383) low).canonical && (replayState 2 (some 383) low).pins.tripLatch == some 383 &&
    (replayState 2 (some 383) low).awake && (replayState 2 (some 383) low).fld Fld.setupStatPhase 0 == 2 && (replayState 2 (some 383) low).fld Fld.pwrStatState 0 == 0 && (replayState 2 (some 383) low).pins.stillHot == low) = true := by decide

/-! ## Small steps -/

/-! Expected values: the published check values of CRC-32C and SHA-384, and the worked examples of the spec's chapters named. -/

theorem test_crc32c : crc32c [0x31, 0x32, 0x33, 0x34, 0x35, 0x36, 0x37, 0x38, 0x39] = 0xE3069283 := by decide +kernel
theorem test_sha384_abc : leNat ((sha384 [0x61, 0x62, 0x63]).take 8).reverse = 0xCB00753F45A35E8B := by decide +kernel
/-- "Numerics": two non-zero products in one E4M3 group: V = 1,801 x 2^-9, and 1,799 x 2^-9 with product 1 negated. -/
theorem test_group_value : groupValue 3 3 127 127 [Fmt.e4m3.decode 0x3F, Fmt.e4m3.decode 0x01] [Fmt.e4m3.decode 0x3F, Fmt.e4m3.decode 0x39] = .fin false 1801 (-9) := by decide
theorem test_group_value_negative :
    groupValue 3 3 127 127 [Fmt.e4m3.decode 0x3F, Fmt.e4m3.decode 0x81] [Fmt.e4m3.decode 0x3F, Fmt.e4m3.decode 0x39] = .fin false 1799 (-9) := by decide
/-- "Numerics": a drained row to MXFP8 E4M3: 62.0, 37.5, -36.0, 0.01 (here 5,243 x 2^-19) and zeros. -/
theorem test_mx_row : mxRow .e4m3 [.fin false 62 0, .fin false 75 (-1), .fin true 36 0, .fin false 5243 (-19), .zero] =
    (0x7C, [0x7E, 0x79, 0xF9, 0x1A, 0x00], ⟨1, 1, 0⟩) := by decide
/-- "Numerics": 1 + 2^-10 + 2^-20 in W34, and its BF16 pair. -/
theorem test_w34_pair : toW34 (.fin false (2 ^ 20 + 2 ^ 10 + 1) (-20)) = 0x0FF802008 ∧ convPair .bf16 (.fin false (2 ^ 20 + 2 ^ 10 + 1) (-20)) = (0x3F80, 0x3A80) := by decide
/-- "The Memory System": address 0x12_3456_7890 on a full device, and after the map-out of logical channel 37. -/
theorem test_map_full : (State.reset.setFld Fld.memTopChannels 0 256).mapAddr 0x1234567890 = (120, 0x12345690) := by decide
theorem test_map_out :
    (((List.range 256).foldl (fun (s : State) n => s.setFlag Fld.memChmapBacked n (n != 37)) State.reset).setFld Fld.memTopChannels 0 255).mapAddr 0x1234567890 =
      (21, 306617744) := by decide +kernel
/-- "Attention": cos and sin of 1,000 positions of one radian each, 0.5623791 and 0.8268795 as FP32. -/
theorem test_rotation : (toF32 (rotation 1000 0x28BE60DB9391).1, toF32 (rotation 1000 0x28BE60DB9391).2) = (0x3F0FF813, 0x3F53AE61) := by decide +kernel
/-- "Vector": the mean square of 1.5 x 2^127 is 1.125 x 2^255, word 0x1_7F10_0000. -/
theorem test_w34_square : toW34 (Val.mul (ofF32 0x7F400000) (ofF32 0x7F400000)) = 0x17F100000 := by decide
/-- "Power": 105 °C reads 0x488. -/
theorem test_temp_code : tempCode 105 = 0x488 := by decide
/-- A divide by zero, a NaN and a square root of the special-function unit: 1 / +0 is +infinity, 1 / 4 = 0.25, sqrt 2 = 0x3FB504F3. -/
theorem test_sf_values : (sfRcp (ofF32 0)).1 = 0x7F800000 ∧ (sfRcp (ofF32 0x40800000)).1 = 0x3E800000 ∧ (sfSqrt (ofF32 0x40000000)).1 = 0x3FB504F3 := by decide +kernel
/-- "Expert Routing": the second worked example: the slots after the repair, with token 1 moved to expert 2, slot 1. -/
theorem test_place_repair :
    (place 2 2 [(0, [0, 1, 2]), (1, [0, 1, 2]), (2, [2, 0, 1])]).held.map (fun h => (h.token, h.expert, h.slot, h.repaired, h.moved)) =
      [(0, 0, 0, false, false), (2, 2, 0, false, false), (0, 1, 0, false, false), (1, 1, 1, false, false), (1, 2, 1, false, true), (2, 0, 1, true, false)] := by decide
/-- "Expert Routing": the first worked example with C = 1: four tokens placed, four blocked, none repaired. -/
theorem test_place_blocked :
    ((place 1 1 ((List.range 8).map (fun t => (t, [0, 1, 2, 3])))).held.map (fun h => (h.token, h.expert)),
     (place 1 1 ((List.range 8).map (fun t => (t, [0, 1, 2, 3])))).blocked) = ([(0, 0), (1, 1), (2, 2), (3, 3)], [4, 5, 6, 7]) := by decide
/-- Equal scores rank in ascending index, and NaN ranks last (R231). -/
theorem test_ranking : ranking [.fin false 1 0, .nan, .fin false 1 1, .fin false 1 0] = [2, 0, 3, 1] := by decide
/-- The coefficients of the generator of RS(544, 514) that IEEE 802.3 tabulates. -/
theorem test_rs_generator : rsGenerator 30 1 [1] = [1, 575, 552, 187, 230, 552, 1, 108, 565, 282, 249, 593, 132, 94, 720, 495, 385, 942, 503, 883, 361, 788, 610, 193, 392,
    127, 185, 158, 128, 834, 523] := by decide +kernel

end Sys2Proof.Tests
end

section
/-! SUPPORT. Register fields: several fields of one block set one after the other, a write of 4 bytes to a register, and the statement that a
field reads what was set (O5). -/

namespace Sys2Proof.Machine

/-- Settles O5: a field is a key of the register file, whose table reads back what was set and keeps its other keys. -/
theorem fieldReadsWhatWasSet : Obligations.FieldReadsWhatWasSet := by
  unfold Obligations.FieldReadsWhatWasSet
  intro s f i v hs
  exact ⟨State.fld_setFld_self (State.canonical.regs hs) f i v,
    fun g j hk => State.fld_setFld_other (State.canonical.regs hs) hk v, rfl, State.canonical_setFld hs f i v⟩

/-! ## The fields of a register -/

/-- Fields of one register at places of their own: no two of a block have one key. -/
def FieldsOf (r : Reg) (fs : List Field) : Prop := (∀ f ∈ fs, f.reg = r ∧ f.lo < 1024) ∧ (fs.map Field.lo).Nodup

theorem FieldsOf.tail {r : Reg} {f : Field} {fs : List Field} (h : FieldsOf r (f :: fs)) : FieldsOf r fs :=
  ⟨fun g hg => h.1 g (List.mem_cons_of_mem _ hg), (List.nodup_cons.1 h.2).2⟩

/-- Two fields of a block have different keys. -/
theorem FieldsOf.key_inj {r : Reg} {f g : Field} {fs : List Field} (h : FieldsOf r fs) (hf : f ∈ fs) (hg : g ∈ fs) {i : Nat} (hk : f.key i = g.key i) :
    f = g :=
  List.inj_on_of_nodup_map h.2 hf hg (Field.key_inj (h.1 f hf).2 (h.1 g hg).2 hk).2.2

/-- A field that stands before others has another key than any of them. -/
theorem FieldsOf.key_ne {r : Reg} {f g : Field} {fs : List Field} (h : FieldsOf r (f :: fs)) (hg : g ∈ fs) (i : Nat) : g.key i ≠ f.key i := by
  intro hk
  have he := h.key_inj (List.mem_cons_of_mem _ hg) List.mem_cons_self hk
  exact (List.nodup_cons.1 h.2).1 (he ▸ List.mem_map_of_mem hg)

theorem FieldsOf.sublist {r : Reg} {fs gs : List Field} (h : FieldsOf r fs) (hs : gs.Sublist fs) : FieldsOf r gs :=
  ⟨fun f hf => h.1 f (hs.subset hf), (hs.map _).nodup h.2⟩

/-- The register table gives every register fields at places of their own. -/
theorem Reg.fieldsOf_fields (r : Reg) : FieldsOf r r.fields := by
  unfold FieldsOf
  cases r <;> decide

/-! ## Several fields set -/

/-- The fields of a block set, one after the other, each to its value. -/
def State.setFlds (s : State) (i : Nat) (ws : List (Field × Nat)) : State := ws.foldl (fun s w => s.setFld w.1 i w.2) s

@[simp] theorem State.setFlds_nil (s : State) (i : Nat) : s.setFlds i [] = s := rfl

@[simp] theorem State.setFlds_cons (s : State) (i : Nat) (f : Field) (v : Nat) (ws : List (Field × Nat)) :
    s.setFlds i ((f, v) :: ws) = (s.setFld f i v).setFlds i ws := rfl

/-- Only the register file changes. -/
theorem State.setFlds_eq (i : Nat) : ∀ (ws : List (Field × Nat)) (s : State), s.setFlds i ws = { s with regs := (s.setFlds i ws).regs }
  | [], _ => rfl
  | (f, v) :: ws, s => State.setFlds_eq i ws (s.setFld f i v)

theorem State.sorted_setFld {s : State} (h : Tab.sorted s.regs = true) (f : Field) (i v : Nat) : Tab.sorted (s.setFld f i v).regs = true :=
  Tab.sorted_set h

/-- A field with a key that is none of those set reads as before. -/
theorem State.fld_setFlds_other {g : Field} {i j : Nat} : ∀ {ws : List (Field × Nat)} {s : State}, Tab.sorted s.regs = true →
    (∀ w ∈ ws, g.key j ≠ w.1.key i) → (s.setFlds i ws).fld g j = s.fld g j
  | [], _, _, _ => rfl
  | (f, v) :: ws, s, hs, hk => by
    rw [State.setFlds_cons, State.fld_setFlds_other (State.sorted_setFld hs f i v) fun w hw => hk w (List.mem_cons_of_mem _ hw)]
    exact State.fld_setFld_other hs (hk (f, v) List.mem_cons_self) v

/-- A field that is set reads its value modulo its width. -/
theorem State.fld_setFlds_mem {r : Reg} {i : Nat} {f : Field} {v : Nat} {ws : List (Field × Nat)} {s : State} (hs : Tab.sorted s.regs = true)
    (hr : FieldsOf r (ws.map Prod.fst)) (hm : (f, v) ∈ ws) : (s.setFlds i ws).fld f i = v % 2 ^ f.width := by
  induction ws generalizing s with
  | nil => exact absurd hm List.not_mem_nil
  | cons w ws ih =>
    have hs' := State.sorted_setFld hs w.1 i w.2
    rw [State.setFlds_cons]
    rcases List.mem_cons.1 hm with he | hm
    · subst he
      rw [State.fld_setFlds_other hs' fun w hw => (hr.key_ne (List.mem_map_of_mem hw) i).symm]
      exact State.fld_setFld_self hs f i v
    · exact ih hs' hr.tail hm

/-- Another block of the register reads as before. -/
theorem State.fld_setFlds_otherBlock {r : Reg} {i j : Nat} {g : Field} {ws : List (Field × Nat)} {s : State} (hs : Tab.sorted s.regs = true)
    (hr : FieldsOf r (ws.map Prod.fst)) (hg : g.lo < 1024) (hj : j ≠ i) : (s.setFlds i ws).fld g j = s.fld g j :=
  State.fld_setFlds_other hs fun w hw hk => hj (Field.key_inj hg (hr.1 w.1 (List.mem_map_of_mem hw)).2 hk).1

/-- Every other register reads as before. -/
theorem State.setFlds_regsBut {r : Reg} {i : Nat} {ws : List (Field × Nat)} {s : State} (hs : Tab.sorted s.regs = true)
    (hr : FieldsOf r (ws.map Prod.fst)) : s.regsBut (s.setFlds i ws) [r] := by
  intro g j hg hne
  refine State.fld_setFlds_other hs fun w hw hk => hne ?_
  obtain ⟨hreg, hlo⟩ := hr.1 w.1 (List.mem_map_of_mem hw)
  rw [(Field.key_inj hg hlo hk).2.1, hreg]
  exact List.mem_singleton.2 rfl

/-! ## A write of 4 bytes -/

/-- The value that 4 bytes give a field depends on the field's own old value only. -/
theorem State.writtenFld_congr {s t : State} {f : Field} {i : Nat} (h : t.fld f i = s.fld f i) (b v : Nat) : t.writtenFld f i b v = s.writtenFld f i b v := by
  unfold State.writtenFld
  rw [h]

/-- Fields at places of their own are all written from the state before the write. -/
theorem State.writeFields_eq {r : Reg} {i b v : Nat} : ∀ {fs : List Field} {s : State}, Tab.sorted s.regs = true → FieldsOf r fs →
    s.writeFields fs i b v = s.setFlds i (fs.map fun f => (f, s.writtenFld f i b v))
  | [], _, _, _ => rfl
  | f :: fs, s, hs, hr => by
    have hrest : ∀ g ∈ fs, (s.setFld f i (s.writtenFld f i b v)).writtenFld g i b v = s.writtenFld g i b v := fun g hg =>
      State.writtenFld_congr (State.fld_setFld_other hs (hr.key_ne hg i) _) b v
    calc s.writeFields (f :: fs) i b v = (s.setFld f i (s.writtenFld f i b v)).writeFields fs i b v := rfl
      _ = _ := State.writeFields_eq (State.sorted_setFld hs f i _) hr.tail
      _ = _ := by rw [List.map_cons, State.setFlds_cons, List.map_congr_left fun g hg => congrArg (Prod.mk g) (hrest g hg)]

/-- Bits above the 32 written do not reach a field that ends below them. -/
theorem add_high_div_mod {d w : Nat} (h : d + w ≤ 32) (a x : Nat) : (a * 2 ^ 32 + x) / 2 ^ d % 2 ^ w = x / 2 ^ d % 2 ^ w := by
  obtain ⟨e, he⟩ := Nat.exists_eq_add_of_le h
  have hsplit : a * 2 ^ 32 + x = x + 2 ^ d * (2 ^ w * (2 ^ e * a)) := by rw [he, Nat.pow_add, Nat.pow_add]; ring
  rw [hsplit, Nat.add_mul_div_left _ _ (Nat.two_pow_pos d), Nat.add_mul_mod_self_left]

/-- Bits below the 4 bytes written fall away. -/
theorem merged_div {a x r l : Nat} (hr : r < 2 ^ l) : (a * 2 ^ (l + 32) + x * 2 ^ l + r) / 2 ^ l = a * 2 ^ 32 + x := by
  have hsplit : a * 2 ^ (l + 32) + x * 2 ^ l + r = r + 2 ^ l * (a * 2 ^ 32 + x) := by rw [Nat.pow_add]; ring
  rw [hsplit, Nat.add_mul_div_left _ _ (Nat.two_pow_pos l), Nat.div_eq_of_lt hr, Nat.zero_add]

/-- A field that lies within the 4 bytes written takes its bits of them. -/
theorem mergeFld_inside {f : Field} {b : Nat} (hlo : 8 * b ≤ f.lo) (hhi : f.lo + f.width ≤ 8 * b + 32) (old v : Nat) :
    mergeFld f old b v = v % 2 ^ 32 / 2 ^ (f.lo - 8 * b) % 2 ^ f.width := by
  unfold mergeFld
  have hpow : 2 ^ f.lo = 2 ^ (8 * b) * 2 ^ (f.lo - 8 * b) := by rw [← Nat.pow_add, Nat.add_sub_cancel' hlo]
  simp only
  generalize old * 2 ^ f.lo = full
  rw [hpow, ← Nat.div_div_eq_div_mul, merged_div (Nat.mod_lt _ (Nat.two_pow_pos _)), add_high_div_mod (by omega)]

end Sys2Proof.Machine
end

section
/-! SUPPORT. What a command answers: a next state when the units it names exist, and otherwise the fault `noSuchUnit` (O2). -/

namespace Sys2Proof.Machine

/-- The outcome is a next state where `ok` holds, and the fault `noSuchUnit` where it does not. -/
def AnswersIff (ok : Bool) (o : Out State) : Prop := (ok = true → ∃ t, o = .next t) ∧ (ok = false → ∃ u, o = .fault (.noSuchUnit u))

/-! ## The shared operations -/

theorem AnswersIff.next {t : State} : AnswersIff true (.next t) := ⟨fun _ => ⟨t, rfl⟩, nofun⟩

theorem AnswersIff.ite {ok : Bool} {c : Prop} [Decidable c] {x y : Out State} (hx : AnswersIff ok x) (hy : AnswersIff ok y) :
    AnswersIff ok (if c then x else y) := by
  split
  · exact hx
  · exact hy

/-- A unit is named on top of those that the rest of the command names. -/
theorem AnswersIff.unit_and {ok ok' : Bool} {w : String} {k : Out State} (h : AnswersIff ok' k) : AnswersIff (ok && ok') (onUnit ok w k) := by
  cases ok
  · exact ⟨nofun, fun _ => ⟨w, rfl⟩⟩
  · exact h

theorem AnswersIff.and_unit {ok ok' : Bool} {w : String} {k : Out State} (h : AnswersIff ok' k) : AnswersIff (ok' && ok) (onUnit ok w k) :=
  Bool.and_comm ok ok' ▸ h.unit_and

theorem AnswersIff.unit {ok : Bool} {w : String} {k : Out State} (h : AnswersIff true k) : AnswersIff ok (onUnit ok w k) := by
  simpa using h.unit_and (ok := ok) (w := w)

theorem AnswersIff.tile {t : Nat} {s : State} {k : Nat → Tile → Out State} (h : ∀ p tl, AnswersIff true (k p tl)) :
    AnswersIff (decide (t < 256)) (onTile t s k) := by
  refine .unit ?_
  split
  · exact .next
  · next p _ => exact .ite (h p _) .next

theorem AnswersIff.insn {t opc : Nat} {s : State} {k : Nat → Tile → Insn → State} : AnswersIff (decide (t < 256)) (onInsn t opc s k) := by
  refine .tile fun p tl => ?_
  split <;> exact .next

theorem AnswersIff.accepting {ok : Bool} {s : State} {o : Out State} (h : AnswersIff ok o) : AnswersIff ok (s.accepting o) := by
  obtain ⟨h1, h2⟩ := h
  refine ⟨fun hok => ?_, fun hok => ?_⟩
  · obtain ⟨t, rfl⟩ := h1 hok
    exact ⟨s.accepted t, rfl⟩
  · obtain ⟨u, rfl⟩ := h2 hok
    exact ⟨u, rfl⟩

/-- What the storage codes find decides between states; a command that names no unit stops before. -/
theorem AnswersIff.store {ok : Bool} {t : Nat} {chk : Check} {s : State} {k : Check → State → Out State} (h : ∀ c v, AnswersIff ok (k c v)) :
    AnswersIff ok (onStore t chk s k) := by
  unfold onStore
  split
  · next ws p _ =>
    obtain ⟨h1, h2⟩ := h .pass (s.findWords t p ws).1
    refine ⟨fun hok => ?_, fun hok => ?_⟩
    · obtain ⟨v, hv⟩ := h1 hok
      simp only [hv]
      split_ifs <;> exact ⟨_, rfl⟩
    · obtain ⟨u, hu⟩ := h2 hok
      exact ⟨u, by simp only [hu]⟩
  · exact h _ _

theorem AnswersIff.event3 {fn ring : Nat} {ty : Nat → Bool} {ready : State → Item → List Byte → Bool} {s : State}
    {k : State → Item → List Byte → State} : AnswersIff (decide (fn < 64) && decide (ring < 64)) (onEvent3 fn ring ty ready s k) := by
  refine .unit ?_
  split
  · exact .next
  · split <;> exact .next

theorem AnswersIff.entry {ty op : Nat} {ops : List Nat} {before : Item → Bool} {item : Nat} {s : State}
    {k : State → Item → ListRun → List Byte → State} : AnswersIff true (onEntry ty op ops before item s k) := by
  unfold onEntry
  split
  · exact .next
  · split
    · exact .next
    · exact .ite .next .next

theorem AnswersIff.grant {c : Instr} {l : Nat} {need : DebugNeed} {p3 : Bool} {s : State} {k : State → State} :
    AnswersIff true (grant c l need p3 s k) := .ite .next .next

theorem AnswersIff.path {t opc : Nat} {chk : Check} {s : State} {f : Tile → Insn → Effect} : AnswersIff (decide (t < 256)) (pathInsn t opc chk s f) := .insn

theorem AnswersIff.unary {t opc : Nat} {chk : Check} {s : State} {f : Word32 → Word32 × Bool} :
    AnswersIff (decide (t < 256)) (unary t opc chk s f) := .path

theorem AnswersIff.binary {t opc : Nat} {chk : Check} {s : State} {f : Word32 → Word32 → Word32 × Bool} :
    AnswersIff (decide (t < 256)) (binary t opc chk s f) := .path

theorem AnswersIff.locket {t opc : Nat} {chk : Check} {s : State} {ref : Tile → Insn → Option CacheRef}
    {k : Nat → Tile → Insn → Item → Nat × Pool → State} : AnswersIff (decide (t < 256)) (locketInsn t opc chk s ref k) := .insn

theorem AnswersIff.page {op item : Nat} {s : State} {needs : State → Item → ListRun → PageCmd → Pool → List (Bool × Nat)}
    {k : State → Item → ListRun → PageCmd → Pool → State} : AnswersIff true (onPage op item s needs k) := .entry

theorem AnswersIff.ingestCmd {op item : Nat} {s : State} {needs : State → Item → IngestCmd → List (Bool × Nat)}
    {k : State → Item → ListRun → IngestCmd → State} : AnswersIff true (onIngestCmd op item s needs k) := .entry

theorem AnswersIff.window {op item : Nat} {s : State} {needs : State → Item → WindowCmd → List (Bool × Nat)}
    {k : State → Item → ListRun → WindowCmd → State} : AnswersIff true (onWindow op item s needs k) := .entry

theorem AnswersIff.whenever {c : Bool} {s t : State} : AnswersIff true (whenever c s t) := .next

theorem AnswersIff.awake {s : State} {k : State → State} : AnswersIff true (onAwake s k) := .next

theorem AnswersIff.access {c : Instr} {s : State} {k : State → State} : AnswersIff true (onAccess c s k) := .next

/-! ## Commands with several branches -/

theorem execRedSourceAdd_answers {t n : Nat} {s : State} : AnswersIff (decide (t < 256) && decide (n < 16)) (execRedSourceAdd t n s) := by
  refine .and_unit (.tile fun p tl => ?_)
  split
  · exact .ite .next .next
  · exact .next

theorem execInstructionComplete_answers {t op : Nat} {s : State} : AnswersIff (decide (t < 256)) (execInstructionComplete t op s) := by
  refine .tile fun p tl => ?_
  split
  · exact .next
  · exact .ite .next (.ite (.ite .next .next) .next)

theorem execWaitSatisfied_answers {t : Nat} {w : Waiter} {s : State} : AnswersIff (decide (t < 256) && w.wf) (execWaitSatisfied t w s) := by
  refine .and_unit (.tile fun p tl => ?_)
  cases w
  all_goals
    dsimp only
    split
    · exact .next
    · exact .ite .next .next

theorem execDmaEntryStart_answers {t e : Nat} {s : State} : AnswersIff (decide (t < 256) && decide (e < 4)) (execDmaEntryStart t e s) := by
  refine .and_unit (.tile fun p tl => ?_)
  dsimp only
  split <;> exact .next

theorem execDmaTransfer_answers {t e : Nat} {chk : Check} {s : State} :
    AnswersIff (decide (t < 256) && decide (e < 4)) (execDmaTransfer t e chk s) := by
  refine .and_unit (.accepting (.tile fun p tl => ?_))
  split
  · exact .next
  · exact .ite .next (.ite .next (.ite .next .next))

theorem execDmaEntryFinish_answers {t e : Nat} {s : State} : AnswersIff (decide (t < 256) && decide (e < 4)) (execDmaEntryFinish t e s) := by
  refine .and_unit (.tile fun p tl => ?_)
  split
  · exact .next
  · exact .ite .next .next

theorem execTilePartEnd_answers {t : Nat} {s : State} : AnswersIff (decide (t < 256)) (execTilePartEnd t s) := by
  refine .tile fun p tl => ?_
  split
  · exact .next
  · exact .ite .next (.ite .next .next)

theorem execScratchpadRowAccess_answers {t bank : Nat} {reqs : List RowReq} {fault : RowFault} {s : State} :
    AnswersIff (decide (t < 256) && decide (bank < 64) && reqs.all RowReq.wf) (execScratchpadRowAccess t bank reqs fault s) := by
  rw [Bool.and_assoc]
  refine .and_unit (.tile fun p tl => ?_)
  dsimp only
  split <;> exact .next

theorem execTimingFrameReceive_answers {offset : Int} {errNs : Nat} {s : State} : AnswersIff true (execTimingFrameReceive offset errNs s) := by
  unfold execTimingFrameReceive
  split
  · exact .next
  · exact .ite .next (.ite .next .next)

theorem execLaunchCheck_answers {item : Nat} {s : State} : AnswersIff true (execLaunchCheck item s) := by
  unfold execLaunchCheck
  split
  · exact .next
  · split
    · exact .next
    · exact .ite .next (.accepting .next)

theorem execLaunchArm_answers {item : Nat} {s : State} : AnswersIff true (execLaunchArm item s) := by
  unfold execLaunchArm
  split
  · exact .next
  · split
    · exact .ite .next .next
    · exact .next

theorem execLaunchBegin_answers {item : Nat} {s : State} : AnswersIff true (execLaunchBegin item s) := by
  unfold execLaunchBegin
  split
  · exact .next
  · split
    · exact .ite .next (.ite .next (.ite .next .next))
    · exact .next

theorem execSwapOutCopy_answers {item : Nat} {s : State} : AnswersIff true (execSwapOutCopy item s) := by
  refine .accepting ?_
  split
  · exact .next
  · refine .ite .next ?_
    split <;> exact .next

theorem execSwapIn_answers {item : Nat} {s : State} : AnswersIff true (execSwapIn item s) := by
  refine .accepting ?_
  split
  · exact .whenever
  · exact .page

theorem execMigrationCopyStep_answers {lchan : Nat} {strike : Strike} {oldFails spareFails : Bool} {s : State} :
    AnswersIff (decide (lchan < 256) && strike.symbols.wf) (execMigrationCopyStep lchan strike oldFails spareFails s) := by
  refine .unit ?_
  split
  · exact .whenever
  · exact .next

theorem execIngestArm_answers {item engine : Nat} {s : State} : AnswersIff (decide (engine < 4)) (execIngestArm item engine s) := by
  refine .unit ?_
  split
  · exact .next
  · split
    · exact .next
    · exact .whenever

/-- A block of an ingest item ends in one of several ways, or waits for bytes that have not arrived (R271 to R276). -/
theorem execIngestBlockDecode_answers {item : Nat} {s : State} : AnswersIff true (execIngestBlockDecode item s) := by
  refine .accepting ?_
  split
  · exact .next
  · split
    · exact .ite .next (.ite .next (.ite .next (.ite .next (.ite (.ite .next .next) (.ite (.ite .next .next) .next)))))
    · exact .next

theorem execLayoutWrite_answers {item : Nat} {s : State} : AnswersIff true (execLayoutWrite item s) := by
  refine .accepting ?_
  split
  · exact .next
  · split
    · exact .ite .next .next
    · exact .next

theorem execIngestForward_answers {item : Nat} {s : State} : AnswersIff true (execIngestForward item s) := by
  refine .accepting ?_
  split
  · exact .next
  · split
    · exact .next
    · refine .ite .next ?_
      split
      · exact .next
      · refine .ite .next ?_
        split
        · exact .next
        · exact .ite .next (.ite .next .next)

theorem execCompletionRecordWrite_answers {item : Nat} {s : State} : AnswersIff true (execCompletionRecordWrite item s) := by
  unfold execCompletionRecordWrite
  split
  · exact .next
  · exact .accepting .whenever

theorem execCarryTimeout_answers {t : Nat} {s : State} : AnswersIff (decide (t < 256)) (execCarryTimeout t s) := by
  refine .unit ?_
  split
  · exact .ite .next .next
  · exact .next

theorem execRepairStart_answers {s : State} : AnswersIff true (execRepairStart s) := by
  unfold execRepairStart
  split
  · exact .next
  · split
    · exact .next
    · exact .ite .next (.ite .next .next)

theorem execRepairResponse_answers {s : State} : AnswersIff true (execRepairResponse s) := by
  refine .accepting ?_
  split
  · exact .next
  · split <;> exact .next

theorem execAssayTestComplete_answers {passed : Bool} {s : State} : AnswersIff true (execAssayTestComplete passed s) := by
  unfold execAssayTestComplete
  split
  · exact .next
  · exact .ite .next (.ite .next .next)

theorem execAssayRotation_answers {s : State} : AnswersIff true (execAssayRotation s) := by
  refine .ite .next ?_
  dsimp only
  split
  · exact .ite .next .next
  · exact .next

theorem execPwrCtlOff_answers {a : Agent} {s : State} : AnswersIff a.wf (execPwrCtlOff a s) := by
  refine .unit ?_
  split
  · exact .ite .next .access
  · exact .ite .next .access
  · exact .next
  · exact .next

theorem execDebugLevelRaise_answers {level : Nat} {s : State} : AnswersIff (decide (level < 4)) (execDebugLevelRaise level s) :=
  .unit (.ite .next (.ite .next (.ite .access .next)))

theorem execDebugLevelLower_answers {level : Nat} {s : State} : AnswersIff (decide (level < 4)) (execDebugLevelLower level s) :=
  .unit (.ite .next (.ite .next .next))

theorem holdTarget_answers {c : Instr} {x : HaltTarget} {b : Bool} {s : State} : AnswersIff true (holdTarget c x b s) := by
  unfold holdTarget
  split <;> exact .grant

theorem debugStep_answers {x : HaltTarget} {s : State} : AnswersIff true (debugStep x s) := by
  unfold debugStep
  split <;> exact .grant

/-- Every access of the probe is one that a level grants or refuses (R454). -/
theorem loupeAccess_answers {acc : LoupeAccess} {s : State} : AnswersIff true (loupeAccess acc s) := by
  cases acc
  all_goals dsimp only [loupeAccess]
  case scan => exact .ite .grant .grant
  all_goals exact .grant

theorem execWakeComplete_answers {s : State} : AnswersIff true (execWakeComplete s) := .ite .next .whenever

theorem execRegisterWrite_answers {a : Agent} {offset size : Nat} {value : Word64} {s : State} :
    AnswersIff a.wf (execRegisterWrite a offset size value s) :=
  .unit (.ite .next (.ite .next (.ite .next .access)))

/-! ## Every command -/

/-- A command answers a next state exactly when it is well-formed, and otherwise stops. -/
theorem exec_answersIff (c : Instr) (s : State) : AnswersIff c.wf (exec c s) := by
  cases c
  all_goals dsimp only [Instr.wf, exec]
  -- instructions that issue
  case nop | endStream | loop | fence | mma | drain | swap | red | scfg | ssig | bcfg | bwaitd | bwaits | bpush | bpop | rsend | rland | xcfg =>
    exact .insn
  case ldb | xplace | xgather | xcombine => exact .store fun _ _ => .insn
  case vmov | vneg | vabs => exact .store fun _ _ => .unary
  case vadd | vsub | vmul | vmax | vmin => exact .store fun _ _ => .binary
  case vld | vst | vmld | vmst | viota | vfma | vcmp | vsel | vsf | vrstat | vrmsn | vsmx | vupd | ropet | rope | amask | apsmx | amerge | tlook =>
    exact .store fun _ _ => .path
  case lkload | lkput | lkrd => exact .store fun _ _ => .locket
  case lkfl => exact .accepting (.store fun _ _ => .locket)
  -- items at event 3, and entries of their lists
  case retire | pageCmd | ingestCmd | windowCmd | nopDescriptor | unlistedDescriptorType => exact .event3
  case launch | load | ingest => exact .accepting .event3
  case map | ref | unref | swapOut | closePool => exact .accepting .page
  case openPool => exact .accepting .entry
  case drop | inboxOpen | inboxClose => exact .ingestCmd
  case tableLoad => exact .accepting .ingestCmd
  case wopen | wclose | wrefSet | wrefClear => exact .window
  -- commands that name one unit or none and either happen or not
  case tallyTick | timingFrameSend | collectiveTimeout | abortedKeyExpiry | numvfsWrite | vfEnableSet | vfEnableClear | memorySpaceEnableSet |
      memorySpaceEnableClear | flrPf | cxlReset | cxlResetMemClear | cxlLinkDown | thermalLoopTick | powerSample | powerCeilingTick | wake | mctpOff |
      mctpWake | wakeNAssert | energyRescale | bootChain | attestationRequest | spdmKeyExchange | journalCompaction | mgcWatchdogExpiry | tokenDebug |
      tokenReturn | tokenLock | idcode | samplePreload | extest | extestPulse | extestTrain | clamp | highz | bypass | tapReset | coldReset |
      journalReplay | pgMainRise | regulatorRamp | memoryInit | portReady | pgMainFall | railFault | perstNFall | perstNRise | testModeAssert |
      alertCauseRead =>
    exact .next
  case coreRateUpdate | memCodewordRead | memCodewordWrite | scrubRead | linkCodewordReceive | linkRetrain | linkRetrainComplete | laneSwitchRequest |
      laneLockLoss | linkBringup | linkSignalDetect | linkIdentityExchange | linkPacketSend | linkMaskWrite | linkRtWrite | linkPortWrite |
      linkTopoWrite | descriptorFetch | msixTimerExpiry | sqTailWrite | cqHeadWrite | ringEnable | ringDisable | fnQuotaWrite | hwinSetLock |
      grantCommit | busMasterEnableClear | busMasterEnableSet | functionDisableComplete | tenantFence | tenantUnfence | auditSnap | assayTestStart |
      sensorRead | hardTrip | uvGuardEntry | uvGuardExit | recoveryImageWrite | firmwareUpdate | svnCommit | porRelease | memoryTraining | setupLock |
      msixUnmask | spareLaneStopsQualifying =>
    exact .unit .next
  case flrVf => exact .unit (.ite .next .access)
  case cxlMemRead | cxlMemWrite => exact .ite .next (.accepting .access)
  -- commands that find what they act on, or change nothing
  case tileModeChange | ack | nak | busy | reject | abort | unreachableNoticeReceive | repairAttemptTimeout | p1Entry | p2Entry | debugSessionExpiry |
      tripRecord | journalRecordWrite =>
    dsimp only [execTileModeChange, execAck, execNak, execBusy, execReject, execAbort, execUnreachableNoticeReceive, execRepairAttemptTimeout,
      execP1Entry, execP2Entry, execDebugSessionExpiry, execTripRecord, execJournalRecordWrite]
    split <;> exact .next
  case stallWatchdogExpiry | migrationStart | poisonFillStep | laneSwitchRequestReceive | laneSwitch | packetReceive | carryComplete |
      strandSubstitution =>
    refine .unit ?_
    split <;> exact .next
  case swapExchange | rowGroupCommit | ssigTakeEffect | bangleWaitSatisfied | landingCombine =>
    refine .tile fun p tl => ?_
    split <;> exact .next
  case bpushTakeEffect | bpopTakeEffect =>
    refine .tile fun p tl => ?_
    split
    · exact .next
    · dsimp only
      split <;> exact .next
  case chunkReceive | chunkBackoffExpiry =>
    dsimp only [execChunkReceive, execChunkBackoffExpiry]
    split
    · exact .next
    · split <;> exact .next
  case inboxWriteReceive | windowChunkReceive | repairPeerRequest =>
    dsimp only [execInboxWriteReceive, execWindowChunkReceive, execRepairPeerRequest]
    split
    · exact .next
    · exact .accepting .awake
  -- the probe
  case debugHalt | debugResume => exact .unit holdTarget_answers
  case debugSingleStep => exact .unit (.accepting debugStep_answers)
  case loupeDebugAccess => exact .unit (.accepting loupeAccess_answers)
  -- commands with a lemma of their own
  case redSourceAdd => exact execRedSourceAdd_answers
  case instructionComplete => exact execInstructionComplete_answers
  case waitSatisfied => exact execWaitSatisfied_answers
  case dmaEntryStart => exact execDmaEntryStart_answers
  case dmaTransfer => exact execDmaTransfer_answers
  case dmaEntryFinish => exact execDmaEntryFinish_answers
  case tilePartEnd => exact execTilePartEnd_answers
  case scratchpadRowAccess => exact execScratchpadRowAccess_answers
  case timingFrameReceive => exact execTimingFrameReceive_answers
  case launchCheck => exact execLaunchCheck_answers
  case launchArm => exact execLaunchArm_answers
  case launchBegin => exact execLaunchBegin_answers
  case swapOutCopy => exact execSwapOutCopy_answers
  case swapIn => exact execSwapIn_answers
  case migrationCopyStep => exact execMigrationCopyStep_answers
  case ingestArm => exact execIngestArm_answers
  case ingestBlockDecode => exact execIngestBlockDecode_answers
  case layoutWrite => exact execLayoutWrite_answers
  case ingestForward => exact execIngestForward_answers
  case completionRecordWrite => exact execCompletionRecordWrite_answers
  case carryTimeout => exact execCarryTimeout_answers
  case repairStart => exact execRepairStart_answers
  case repairResponse => exact execRepairResponse_answers
  case assayTestComplete => exact execAssayTestComplete_answers
  case assayRotation => exact execAssayRotation_answers
  case pwrCtlOff => exact execPwrCtlOff_answers
  case debugLevelRaise => exact execDebugLevelRaise_answers
  case debugLevelLower => exact execDebugLevelLower_answers
  case wakeComplete => exact execWakeComplete_answers
  case registerWrite => exact execRegisterWrite_answers

/-- Settles O2: every meaning is built of operations that answer so, command by command. -/
theorem commandAnswersIffWellFormed : Obligations.CommandAnswersIffWellFormed := by
  unfold Obligations.CommandAnswersIffWellFormed
  exact exec_answersIff

end Sys2Proof.Machine
end

section
/-! SUPPORT. What the host driver writes in P0 (O47): each command's next state, and the fields that a `REGISTER_WRITE` leaves and changes. -/

namespace Sys2Proof.Machine

/-! ## Commands of the host driver -/

/-- In P0 the host driver's command about a unit that exists takes effect at once. -/
theorem hostCommand_next {c : Instr} {ok : Bool} {w : String} {o : Nat} {s : State} (k : State → State) (hp : s.inP0 = true) (hok : ok = true) :
    onUnit ok w (onAccess c s fun s => onHostPf .hostPf o s k) = .next (k s) := by
  rw [onUnit_ok hok, onAccess_p0 hp, onHostPf_host]

theorem linkMaskWrite_host {s : State} (hp : s.inP0 = true) (v : Word32) :
    exec (.linkMaskWrite .hostPf v) s = .next ((List.range 20).foldl (fun u l =>
      if bitOf (s.fld Fld.linkMaskEnable 0) l && !bitOf v.toNat l then u.maskOff l
      else if !bitOf (s.fld Fld.linkMaskEnable 0) l && bitOf v.toNat l then u.startBringup l else u) (s.setFld Fld.linkMaskEnable 0 v.toNat)) :=
  hostCommand_next (w := "agent") _ hp rfl

theorem linkRtWrite_host {s : State} (hp : s.inP0 = true) {c : Nat} (hc : c < 2048) (v : BitVec 16) :
    exec (.linkRtWrite .hostPf c v) s = .next (s.setFld Fld.linkRtEntry c (v.toNat % 4096)) :=
  hostCommand_next _ hp (by simp [Agent.wf, hc])

theorem linkPortWrite_host {s : State} (hp : s.inP0 = true) {p : Nat} (hport : p < 20) (v : BitVec 20) :
    exec (.linkPortWrite .hostPf p v) s = .next (if s.locked then s else ((List.range 20).filter (fun l =>
      ((List.range 20).map s.portOf).getD l none != (s.setFld Fld.linkPortLinks p v.toNat).portOf l)).foldl State.rejoin
        (s.setFld Fld.linkPortLinks p v.toNat)) :=
  hostCommand_next _ hp (by simp [Agent.wf, hport])

theorem linkTopoWrite_host {s : State} (hp : s.inP0 = true) (v : BitVec 11) :
    exec (.linkTopoWrite .hostPf v) s = .next (if s.locked || decide (s.chipId = v.toNat) then s else
      (List.range 20).foldl (fun u l => if u.linkState l = 0 then u else u.restartLink l) (s.setFld Fld.linkTopoChip 0 v.toNat)) :=
  hostCommand_next (w := "agent") _ hp rfl

theorem fnQuotaWrite_host {s : State} (hp : s.inP0 = true) {c : Nat} (hc : c < 64) (v : BitVec 15) :
    exec (.fnQuotaWrite .hostPf c v) s = .next (if 16384 < s.otherQuotas c + v.toNat then s.setFlag Fld.fnQuotaRefused c true
      else (s.setFld Fld.fnQuotaLimit c v.toNat).setFlag Fld.fnQuotaRefused c false) :=
  hostCommand_next _ hp (by simp [Agent.wf, hc])

theorem grantCommit_host {s : State} (hp : s.inP0 = true) {c : Nat} (hc : c < 64) :
    exec (.grantCommit .hostPf c) s = .next (
      if s.grantCause c (s.staged c) ≠ 0 then (s.setFlag Fld.grantCtlRefused c true).setFld Fld.grantCtlCause c (s.grantCause c (s.staged c))
      else if Grant.includes (s.staged c) (s.grant c) || (s.checkedItems c).isEmpty then (s.setGrant c (s.staged c)).setFlag Fld.grantCtlRefused c false
      else ({ (s.setGrant c (s.staged c)).setFlag Fld.grantCtlRefused c false with
        narrowing := Tab.set none s.narrowing c (some (s.grant c, s.checkedItems c)) } : State).setFlag Fld.grantCtlPending c true) :=
  hostCommand_next _ hp (by simp [Agent.wf, hc])

/-! ## `HWIN_SET_LOCK` -/

/-- The fields that `SET_LOCK` gives a window from the 113 bits written, and its lock (R339). -/
def hwinValues (v : Nat) : List (Field × Nat) :=
  [(Fld.hwinBase, v), (Fld.hwinSize, v / 2 ^ 64), (Fld.hwinTenant, v / 2 ^ 104), (Fld.hwinRead, v / 2 ^ 110), (Fld.hwinWrite, v / 2 ^ 111),
    (Fld.hwinEnable, v / 2 ^ 112), (Fld.hwinLock, 1)]

theorem fieldsOf_hwinValues (v : Nat) : FieldsOf .hwin ((hwinValues v).map Prod.fst) :=
  (Reg.fieldsOf_fields .hwin).sublist (List.take_sublist 7 Reg.hwin.fields)

/-- A window that has just been locked reads the fields it was given. -/
theorem State.fld_hwinValues {s : State} (hs : s.canonical = true) {w v n : Nat} {f : Field} (hm : (f, n) ∈ hwinValues v) :
    (s.setFlds w (hwinValues v)).fld f w = n % 2 ^ f.width :=
  State.fld_setFlds_mem (State.canonical.regs hs) (fieldsOf_hwinValues v) hm

theorem hwinSetLock_host {s : State} (hp : s.inP0 = true) {w : Nat} (hw : w < 256) (v : BitVec 113) :
    exec (.hwinSetLock .hostPf w v) s = .next (if s.flag Fld.hwinLock w then s else s.setFlds w (hwinValues v.toNat)) :=
  hostCommand_next _ hp (by simp [Agent.wf, hw])

/-! ## `AUDIT_SNAP` -/

/-- The five counts of a pool index, as `AUDIT_DATA` shows them: zeros for a pool that does not exist (R401). -/
def State.auditValues (s : State) (p i : Nat) : List (Field × Nat) :=
  [(Fld.auditDataCapacity, if p ≤ 10 then (s.auditCapacity p i).getD 0 else 0), (Fld.auditDataHeld, if p ≤ 10 then s.auditHeld p i else 0),
    (Fld.auditDataFree, if p ≤ 10 then s.auditFree p i else 0), (Fld.auditDataIssued, if p ≤ 10 then s.auditIssued p i else 0),
    (Fld.auditDataReturned, if p ≤ 10 then s.auditReturned p i else 0)]

theorem fieldsOf_auditValues (s : State) (p i : Nat) : FieldsOf .auditData ((s.auditValues p i).map Prod.fst) := Reg.fieldsOf_fields .auditData

theorem State.fld_auditValues {s : State} (hs : s.canonical = true) {p i n : Nat} {f : Field} (hm : (f, if p ≤ 10 then n else 0) ∈ s.auditValues p i) :
    (s.setFlds 0 (s.auditValues p i)).fld f 0 = if p ≤ 10 then n % 2 ^ f.width else 0 := by
  rw [State.fld_setFlds_mem (State.canonical.regs hs) (fieldsOf_auditValues s p i) hm]
  split
  · rfl
  · exact Nat.zero_mod _

theorem auditSnap_host {s : State} (hp : s.inP0 = true) {p i : Nat} (hpool : p = s.fld Fld.auditCtlPool 0)
    (hi : i = auditIndex p (s.fld Fld.auditCtlIndex 0)) :
    exec (.auditSnap .hostPf) s = .next (if p ≤ 10 then (s.setFlds 0 (s.auditValues p i)).auditCheck p i else s.setFlds 0 (s.auditValues p i)) := by
  subst hpool hi
  exact hostCommand_next (w := "agent") _ hp rfl

/-! ## `REGISTER_WRITE` -/

/-- A naturally aligned write of 4 bytes by the host driver in P0 writes the word of the place that its offset names. -/
theorem registerWrite_host {s : State} {o : Nat} {x : Place} (hp : s.inP0 = true) (ho : o % 4 = 0) (hx : s.locate o = some x) (v : Word64) :
    exec (.registerWrite .hostPf o 4 v) s = .next (s.writeWord .hostPf x (v.toNat % 2 ^ 32)) := by
  have hplace : s.placeOf .hostPf o = some x := hx
  have hkept : s.writeDiscarded .hostPf o 4 = false := by simp [State.writeDiscarded, hplace, discards]
  have hacts : s.agentActs .hostPf = true := rfl
  have haligned : aligned48 o 4 = true := by simp [aligned48, ho]
  have hword : s.writeAccess .hostPf o 4 v.toNat = s.writeWord .hostPf x (v.toNat % 2 ^ 32) := by
    simp [State.writeAccess, hkept, State.writeAt, hplace, mayWrite]
  have hexec : exec (.registerWrite .hostPf o 4 v) s = .next (s.writeAccess .hostPf o 4 v.toNat) := by
    dsimp only [exec, execRegisterWrite]
    rw [onUnit_ok (by rfl), onAccess_p0 hp]
    simp [hacts, haligned, hkept]
  rw [hexec, hword]

/-- The registers whose writes have an effect beyond their fields. -/
def actionRegs : List Reg :=
  [.doorbell, .msixTable, .tileSeq, .msixMod, .ringCfg, .hwin, .setupCtl, .pwrCtl, .pwrCfg, .linkMask, .linkRt, .linkPort, .linkTopo, .fnQuota, .grantCtl,
    .tenantCtl, .auditCtl, .meas]

/-- Every other register takes a plain write. -/
theorem State.writeWord_plain {r : Reg} (hr : r ∉ actionRegs) (s : State) (a : Agent) (i b v : Nat) :
    s.writeWord a (r, i, b) v = s.writePlain r i b v := by
  cases r <;> simp [actionRegs] at hr <;> rfl

/-- The fields of a register that a plain write changes, with the values they take. -/
def State.plainValues (s : State) (r : Reg) (i b v : Nat) : List (Field × Nat) :=
  (r.fields.filter s.writable).map fun f => (f, s.writtenFld f i b v)

theorem State.fst_plainValues (s : State) (r : Reg) (i b v : Nat) : (s.plainValues r i b v).map Prod.fst = r.fields.filter s.writable := by
  simp [State.plainValues, Function.comp_def]

theorem State.fieldsOf_plainValues (s : State) (r : Reg) (i b v : Nat) : FieldsOf r ((s.plainValues r i b v).map Prod.fst) := by
  rw [State.fst_plainValues]
  exact (Reg.fieldsOf_fields r).sublist List.filter_sublist

theorem State.writePlain_eq {s : State} (hs : Tab.sorted s.regs = true) (r : Reg) (i b v : Nat) :
    s.writePlain r i b v = s.setFlds i (s.plainValues r i b v) :=
  State.writeFields_eq hs ((Reg.fieldsOf_fields r).sublist List.filter_sublist)

/-- Nothing but the register file changes. -/
theorem State.writePlain_frame {s : State} (hs : Tab.sorted s.regs = true) (r : Reg) (i b v : Nat) :
    s.writePlain r i b v = { s with regs := (s.writePlain r i b v).regs } := by
  rw [State.writePlain_eq hs]
  exact State.setFlds_eq i _ s

theorem State.writePlain_regsBut {s : State} (hs : Tab.sorted s.regs = true) (r : Reg) (i b v : Nat) : s.regsBut (s.writePlain r i b v) [r] := by
  rw [State.writePlain_eq hs]
  exact State.setFlds_regsBut hs (s.fieldsOf_plainValues r i b v)

theorem State.fld_writePlain_otherBlock {s : State} (hs : Tab.sorted s.regs = true) {r : Reg} {f : Field} {i j : Nat} (b v : Nat) (hf : f ∈ r.fields)
    (hj : j ≠ i) : (s.writePlain r i b v).fld f j = s.fld f j := by
  rw [State.writePlain_eq hs]
  exact State.fld_setFlds_otherBlock hs (s.fieldsOf_plainValues r i b v) ((Reg.fieldsOf_fields r).1 f hf).2 hj

/-- A field of access RW within the 4 bytes takes its bits. -/
theorem State.fld_writePlain_rw {s : State} (hs : Tab.sorted s.regs = true) {r : Reg} {f : Field} {i b : Nat} (v : Nat) (hf : f ∈ r.fields)
    (ha : f.acc = .rw) (hlo : 8 * b ≤ f.lo) (hhi : f.lo + f.width ≤ 8 * b + 32) :
    (s.writePlain r i b v).fld f i = v % 2 ^ 32 / 2 ^ (f.lo - 8 * b) % 2 ^ f.width := by
  have hmem : (f, s.writtenFld f i b v) ∈ s.plainValues r i b v :=
    List.mem_map.2 ⟨f, List.mem_filter.2 ⟨hf, by simp [State.writable, ha]⟩, rfl⟩
  have hval : s.writtenFld f i b v = mergeFld f (s.fld f i) b v := by simp [State.writtenFld, ha]
  rw [State.writePlain_eq hs, State.fld_setFlds_mem hs (s.fieldsOf_plainValues r i b v) hmem, hval, mergeFld_inside hlo hhi, Nat.mod_mod]

/-- A field that may not be written now keeps its value. -/
theorem State.fld_writePlain_kept {s : State} (hs : Tab.sorted s.regs = true) {r : Reg} {f : Field} {i b : Nat} (v : Nat) (hf : f ∈ r.fields)
    (hw : s.writable f = false) : (s.writePlain r i b v).fld f i = s.fld f i := by
  rw [State.writePlain_eq hs]
  refine State.fld_setFlds_other hs fun w hmem hk => ?_
  have hfst : w.1 ∈ r.fields.filter s.writable := s.fst_plainValues r i b v ▸ List.mem_map_of_mem hmem
  obtain ⟨hin, hwr⟩ := List.mem_filter.1 hfst
  rw [← (Reg.fieldsOf_fields r).key_inj hf hin hk, hw] at hwr
  exact absurd hwr Bool.false_ne_true

/-- RO and WO fields are never written, RWL fields not after the lock point (R18). -/
theorem State.writable_eq_false {s : State} {f : Field} (h : f.acc = .ro ∨ f.acc = .wo ∨ (f.acc = .rwl ∧ s.locked = true)) : s.writable f = false := by
  rcases h with h | h | ⟨h, hl⟩
  · simp [State.writable, h]
  · simp [State.writable, h]
  · simp [State.writable, h, hl]

/-- A register whose word is written by a command about units that exist: the write is that command. -/
theorem registerWrite_command {s : State} {o : Nat} {x : Place} {c : Instr} {v : Word64} (hp : s.inP0 = true) (ho : o % 4 = 0)
    (hx : s.locate o = some x) (hc : c.wf = true) (hword : s.writeWord .hostPf x (v.toNat % 2 ^ 32) = s.via (exec c s)) :
    exec (.registerWrite .hostPf o 4 v) s = exec c s := by
  obtain ⟨t, ht⟩ := (exec_answersIff c s).1 hc
  rw [registerWrite_host hp ho hx, hword, ht]
  rfl

/-- The write of any other register is its plain write. -/
theorem registerWrite_plain {s : State} {o i b : Nat} {r : Reg} (hp : s.inP0 = true) (ho : o % 4 = 0) (hx : s.locate o = some (r, i, b))
    (hr : r ∉ actionRegs) (v : Word64) : exec (.registerWrite .hostPf o 4 v) s = .next (s.writePlain r i b (v.toNat % 2 ^ 32)) := by
  rw [registerWrite_host hp ho hx, State.writeWord_plain hr]

/-- The low bits of the word written are those of the value of the access. -/
theorem ofNat_lowWord {n : Nat} (hn : n ≤ 32) (v : Word64) : BitVec.ofNat n (v.toNat % 2 ^ 32) = v.setWidth n := by
  refine BitVec.eq_of_toNat_eq ?_
  rw [BitVec.toNat_ofNat, BitVec.toNat_setWidth, Nat.mod_mod_of_dvd _ (Nat.pow_dvd_pow 2 hn)]

theorem bitOf_lowWord_zero {n : Nat} (h : n % 2 = 1) : bitOf (n % 2 ^ 32) 0 = true := by
  simp only [bitOf, pow_zero, Nat.div_one, decide_eq_true_eq]
  omega

/-! ## The statement -/

/-- Settles O47: each command's next state by its lemma, the windows and the counts as fields set one after the other, and a register write as the
plain write of its fields or as the command of its register. -/
theorem hostWritesTakeEffect : Obligations.HostWritesTakeEffect := by
  unfold Obligations.HostWritesTakeEffect
  refine ⟨fun s hp => ⟨linkMaskWrite_host hp, fun c v hc => linkRtWrite_host hp hc v, fun p v hport => ⟨fun hl => ?_, fun hl => ?_⟩,
    fun v => ⟨fun hl => ?_, fun hl hchip => ?_⟩, fun c v hc => fnQuotaWrite_host hp hc v, fun c hc => ⟨fun hcause => ?_, fun hcause hwide => ?_,
    fun hcause hnarrow hitems => ?_⟩⟩, fun u l => ?_, fun s w v hp hw hs => ⟨fun hl => ?_, fun hl => ?_⟩, fun s p i hp hs hpool hi => ?_,
    fun s o v r i b hp hs ho hx hr => ?_, fun s o v r i b hp ho hx => ?_⟩
  -- `LINK_PORT`, `LINK_TOPO` and the lock point
  · rw [linkPortWrite_host hp hport, if_pos hl]
  · rw [linkPortWrite_host hp hport, hl]; rfl
  · rw [linkTopoWrite_host hp, hl]; rfl
  · rw [linkTopoWrite_host hp, hl, decide_eq_false hchip]; rfl
  -- `GRANT_COMMIT`: refused, committed at once, pending
  · rw [grantCommit_host hp hc, if_pos hcause]
  · rw [grantCommit_host hp hc, if_neg (not_not.2 hcause), if_pos (by rcases hwide with h | h <;> simp [h])]
  · rw [grantCommit_host hp hc, if_neg (not_not.2 hcause), if_neg (by simp [hnarrow, hitems])]
  · simp [State.maskOff]
  -- a locked window and an unlocked one
  · rw [hwinSetLock_host hp hw, if_pos hl]
  · rw [hwinSetLock_host hp hw, hl]
    have hlock : (s.setFlds w (hwinValues v.toNat)).fld Fld.hwinLock w = 1 := State.fld_hwinValues hs (n := 1) (by simp [hwinValues])
    refine ⟨_, rfl, State.setFlds_regsBut (State.canonical.regs hs) (fieldsOf_hwinValues _), State.setFlds_eq w _ s, by simp [State.flag, hlock],
      State.fld_hwinValues hs ?_, State.fld_hwinValues hs ?_, State.fld_hwinValues hs ?_, State.fld_hwinValues hs ?_, State.fld_hwinValues hs ?_,
      State.fld_hwinValues hs ?_⟩
    all_goals simp [hwinValues]
  -- the five counts
  · refine ⟨_, auditSnap_host hp hpool hi, State.setFlds_eq 0 _ s, State.setFlds_regsBut (State.canonical.regs hs) (fieldsOf_auditValues s p i),
      State.fld_auditValues hs ?_, State.fld_auditValues hs ?_, State.fld_auditValues hs ?_, State.fld_auditValues hs ?_, State.fld_auditValues hs ?_⟩
    all_goals simp [State.auditValues]
  -- a register write with no action of its own
  · have hregs := State.canonical.regs hs
    refine ⟨_, registerWrite_plain hp ho hx hr v, State.writePlain_frame hregs r i b _, State.writePlain_regsBut hregs r i b _,
      fun f j hf hj => State.fld_writePlain_otherBlock hregs b _ hf hj,
      fun f hf => ⟨fun ha hlo hhi => ?_, fun ha => State.fld_writePlain_kept hregs _ hf (State.writable_eq_false ha)⟩⟩
    rw [State.fld_writePlain_rw hregs _ hf ha hlo hhi, Nat.mod_mod]
  -- a register write that is a command
  · rw [← ofNat_lowWord (n := 32) (by omega) v, ← ofNat_lowWord (n := 16) (by omega) v, ← ofNat_lowWord (n := 20) (by omega) v,
      ← ofNat_lowWord (n := 11) (by omega) v, ← ofNat_lowWord (n := 15) (by omega) v]
    refine ⟨fun hr => ?_, fun hr hi => ?_, fun hr hi hb => ?_, fun hr => ?_, fun hr hi => ?_, fun hr hi hbit => ?_⟩ <;> subst hr
    · exact registerWrite_command hp ho hx rfl rfl
    · exact registerWrite_command hp ho hx (by simp [Instr.wf, Agent.wf, hi]) rfl
    · subst hb
      exact registerWrite_command hp ho hx (by simp [Instr.wf, Agent.wf, hi]) rfl
    · exact registerWrite_command hp ho hx rfl rfl
    · exact registerWrite_command hp ho hx (by simp [Instr.wf, Agent.wf, hi]) rfl
    · exact registerWrite_command hp ho hx (by simp [Instr.wf, Agent.wf, hi]) (if_pos (bitOf_lowWord_zero hbit))

end Sys2Proof.Machine
end

section
/-! SUPPORT. Which registers an operation may write: the relation, its rules for the updates of a field, and folds that set one field for each number. -/

namespace Sys2Proof.Machine

/-! ## Fields with other keys -/

/-- Fields differ in their keys when the instances, the registers or the places differ. -/
theorem Field.key_ne {f g : Field} {i j : Nat} (hf : f.lo < 1024) (hg : g.lo < 1024) (h : i ≠ j ∨ f.reg ≠ g.reg ∨ f.lo ≠ g.lo) : g.key j ≠ f.key i := by
  intro hk
  obtain ⟨hi, hr, hl⟩ := Field.key_inj hg hf hk
  rcases h with h | h | h
  · exact h hi.symm
  · exact h hr.symm
  · exact h hl.symm

/-- A field of another number, register or place reads as before. -/
theorem State.fld_setFld_ne {s : State} (h : Tab.sorted s.regs = true) {f g : Field} {i j : Nat} (hne : i ≠ j ∨ f.reg ≠ g.reg ∨ f.lo ≠ g.lo) (v : Nat)
    (hl : f.lo < 1024 ∧ g.lo < 1024) : (s.setFld f i v).fld g j = s.fld g j :=
  State.fld_setFld_other h (Field.key_ne hl.1 hl.2 hne) v

theorem State.flag_setFld_ne {s : State} (h : Tab.sorted s.regs = true) {f g : Field} {i j : Nat} (hne : i ≠ j ∨ f.reg ≠ g.reg ∨ f.lo ≠ g.lo) (v : Nat)
    (hl : f.lo < 1024 ∧ g.lo < 1024) : (s.setFld f i v).flag g j = s.flag g j := by
  unfold State.flag; rw [State.fld_setFld_ne h hne v hl]

/-- A one-bit field reads the truth value that it was set from. -/
theorem State.flag_setFlag_self {s : State} (h : Tab.sorted s.regs = true) {f : Field} (hf : f.width = 1) (i : Nat) (b : Bool) : (s.setFlag f i b).flag f i = b := by
  unfold State.flag
  rw [State.setFlag_eq, State.fld_setFld_self h, hf]
  cases b <;> rfl

/-- A key reads as before when another is set to a value that the table lists, whatever the order of the keys. -/
theorem Tab.get_set_listed {α : Type} [DecidableEq α] {d c v : α} (hv : v ≠ d) {j k : Nat} (hj : j ≠ k) : ∀ {t : Tab α}, Tab.get c (Tab.set d t k v) j = Tab.get c t j
  | [] => by simp [Tab.set, Tab.get, hv, hj.symm]
  | (k', v') :: r => by
    have ih := Tab.get_set_listed (c := c) hv hj (t := r)
    by_cases hk : k < k'
    · have hset : Tab.set d ((k', v') :: r) k v = (k, v) :: (k', v') :: r := by simp [Tab.set, hk, hv]
      rw [hset]
      rcases Nat.lt_or_gt_of_ne hj with h | h
      · have h1 : k' ≠ j := by omega
        have h2 : j < k' := by omega
        simp [Tab.get, hj.symm, h, h1, h2]
      · have h1 : ¬ j < k := by omega
        simp [Tab.get, hj.symm, h1]
    · by_cases he : k' = k
      · subst he; simp [Tab.set, Tab.get, hv, hj.symm]
      · simp only [Tab.set, hk, he, if_false, Tab.get, ih]

/-- A value that is not the default is read whatever else is set, whatever the order of the keys. -/
theorem Tab.get_set_of_listed {α : Type} [DecidableEq α] {d c v w : α} {j k : Nat} (hj : j ≠ k) : ∀ {t : Tab α}, Tab.get c t j = v → v ≠ c →
    Tab.get c (Tab.set d t k w) j = v
  | [], h, hv => absurd h.symm hv
  | (k', v') :: r, h, hv => by
    by_cases hw : w = d
    case neg => rw [Tab.get_set_listed hw hj]; exact h
    by_cases hk : k < k'
    · simpa [Tab.set, hk, hw] using h
    · by_cases he : k' = k
      · subst he
        have h1 : ¬ j < k' := fun hlt => hv (by simpa [Tab.get, hj.symm, hlt] using h.symm)
        simpa [Tab.set, Tab.get, hw, hj.symm, h1] using h
      · unfold Tab.get at h
        simp only [Tab.set, hk, he, if_false, Tab.get]
        split at h
        · next hjk => rw [if_pos hjk]; exact h
        · next hjk =>
          split at h
          · exact absurd h.symm hv
          · next hlt => rw [if_neg hjk, if_neg hlt]; exact Tab.get_set_of_listed hj h hv

/-- A count of other events leaves a field of another key, whatever the order of the keys. -/
theorem State.fld_bump_ne {s : State} {f g : Field} {i j n : Nat} (hk : g.key j ≠ f.key i) (hr : f.resetAt i = 0) (hw : 0 < f.width) :
    (s.bump f i n).fld g j = s.fld g j := by
  unfold State.bump
  split
  · rfl
  · next hn =>
    have h1 : 1 < 2 ^ f.width := Nat.one_lt_two_pow (by omega)
    refine Tab.get_set_listed ?_ hk
    rw [hr]
    unfold satAdd
    rw [Nat.mod_eq_of_lt (by omega)]
    omega

theorem State.fld_bump_self {s : State} (h : Tab.sorted s.regs = true) (f : Field) (i n : Nat) : (s.bump f i n).fld f i = s.counted f i n := by
  unfold State.bump State.counted
  split
  · rfl
  · rw [State.fld_setFld_self h]
    exact Nat.mod_eq_of_lt (by unfold satAdd; have := Nat.two_pow_pos f.width; omega)

/-! ## What an operation may write -/

/-- Between two states only fields of the registers `w` change, while the keys of the register file rise. -/
def State.writesOnly (w : Reg → Prop) (s u : State) : Prop :=
  Tab.sorted s.regs = true → Tab.sorted u.regs = true ∧ ∀ (f : Field) (i : Nat), f.lo < 1024 → ¬ w f.reg → u.fld f i = s.fld f i

namespace State.writesOnly

variable {w : Reg → Prop} {s t u : State}

theorem refl : s.writesOnly w s := fun h => ⟨h, fun _ _ _ _ => rfl⟩

theorem trans (h : s.writesOnly w t) (h' : t.writesOnly w u) : s.writesOnly w u := fun hs =>
  ⟨(h' (h hs).1).1, fun f i hf hw => ((h' (h hs).1).2 f i hf hw).trans ((h hs).2 f i hf hw)⟩

theorem of_regs (h : u.regs = s.regs) : s.writesOnly w u := fun hs => ⟨h ▸ hs, fun f i _ _ => State.fld_congr h f i⟩

theorem setFld (f : Field) (i v : Nat) (hw : w f.reg ∧ f.lo < 1024) : s.writesOnly w (s.setFld f i v) := fun hs =>
  ⟨State.sorted_setFld hs f i v, fun _ _ hg hwg => State.fld_setFld_ne hs (.inr (.inl fun he => hwg (he ▸ hw.1))) v ⟨hw.2, hg⟩⟩

theorem setFlag (f : Field) (i : Nat) (b : Bool) (hw : w f.reg ∧ f.lo < 1024) : s.writesOnly w (s.setFlag f i b) := setFld f i _ hw

theorem addFld (f : Field) (i n : Nat) (hw : w f.reg ∧ f.lo < 1024) : s.writesOnly w (s.addFld f i n) := setFld f i _ hw

theorem bump (f : Field) (i n : Nat) (hw : w f.reg ∧ f.lo < 1024) : s.writesOnly w (s.bump f i n) := by
  unfold State.bump
  split
  · exact refl
  · exact setFld f i _ hw

theorem foldl {α : Type} {f : State → α → State} (hf : ∀ (s : State) (a : α), s.writesOnly w (f s a)) :
    ∀ (l : List α) (s : State), s.writesOnly w (l.foldl f s)
  | [], _ => refl
  | a :: l, s => (hf s a).trans (foldl hf l (f s a))

theorem mono {w' : Reg → Prop} (h : s.writesOnly w u) (hw : ∀ r, w r → w' r) : s.writesOnly w' u := fun hs =>
  ⟨(h hs).1, fun f i hf hn => (h hs).2 f i hf fun hr => hn (hw _ hr)⟩

theorem fld (h : s.writesOnly w u) (hs : Tab.sorted s.regs = true) {f : Field} (hw : ¬ w f.reg ∧ f.lo < 1024) (i : Nat) : u.fld f i = s.fld f i :=
  (h hs).2 f i hw.2 hw.1

theorem flag (h : s.writesOnly w u) (hs : Tab.sorted s.regs = true) {f : Field} (hw : ¬ w f.reg ∧ f.lo < 1024) (i : Nat) : u.flag f i = s.flag f i := by
  unfold State.flag; rw [h.fld hs hw i]

theorem regsBut {rs : List Reg} (h : s.writesOnly (· ∈ rs) u) (hs : Tab.sorted s.regs = true) : s.regsBut u rs := (h hs).2

end State.writesOnly

/-! ## Folds -/

/-- What every step of a fold leaves alone while an invariant lasts, the fold leaves alone. -/
theorem State.foldl_leaves {α β : Type} {f : State → α → State} {I : State → Prop} {T : State → β} (hI : ∀ s b, I s → I (f s b)) (l : List α)
    (h : ∀ s, ∀ b ∈ l, I s → T (f s b) = T s) (s : State) (hs : I s) : T (l.foldl f s) = T s := by
  induction l generalizing s with
  | nil => rfl
  | cons b l ih => exact (ih (fun s c hc => h s c (List.mem_cons_of_mem _ hc)) _ (hI s b hs)).trans (h s b List.mem_cons_self hs)

/-- A fold whose step at `a` sets `T` to `P`, and whose other steps leave both, sets `T` to `P`. -/
theorem State.foldl_sets {α β : Type} {f : State → α → State} {I : State → Prop} {T P : State → β} {a : α} (hI : ∀ s b, I s → I (f s b))
    (hother : ∀ s b, I s → b ≠ a → T (f s b) = T s ∧ P (f s b) = P s) (hself : ∀ s, I s → T (f s a) = P s) {l : List α} (hn : l.Nodup) (hm : a ∈ l)
    (s : State) (hs : I s) : T (l.foldl f s) = P s := by
  induction l generalizing s with
  | nil => exact absurd hm List.not_mem_nil
  | cons b l ih =>
    obtain ⟨hb, hn⟩ := List.nodup_cons.1 hn
    rcases List.mem_cons.1 hm with rfl | hm
    · have hrest : T (l.foldl f (f s a)) = T (f s a) :=
        State.foldl_leaves hI l (fun s c hc hs => (hother s c hs fun he => hb (he ▸ hc)).1) _ (hI s a hs)
      exact hrest.trans (hself s hs)
    · exact (ih hn hm _ (hI s b hs)).trans (hother s b hs fun he => hb (he ▸ hm)).2

end Sys2Proof.Machine
end

section
/-! SUPPORT. The state after reset, the Tally, the rate monitors, timing frames and the change of tile mode (O4, O7, O8, O9, O11). -/

namespace Sys2Proof.Machine

/-! ## Reset -/

/-- Settles O4: no table lists an entry, so that every field reads its Reset column and every address zero. -/
theorem resetStateHolds : Obligations.ResetStateHolds := by
  unfold Obligations.ResetStateHolds
  exact ⟨fun _ _ => rfl, rfl, rfl, rfl, rfl, rfl, fun _ => rfl, fun _ => rfl, rfl⟩

/-! ## A count of the Tally -/

/-- A clamp's count changes the clamp time and `CLAMP_MS` only. -/
theorem State.clampTick_eq (s : State) (r : Nat) : s.clampTick r = { s with regs := (s.clampTick r).regs, power := (s.clampTick r).power } := by
  unfold State.clampTick State.bump
  dsimp only
  split
  · rfl
  · split
    · split <;> rfl
    · rfl

theorem State.clampTick_writesOnly (s : State) (r : Nat) : s.writesOnly (· = .pwrRegion) (s.clampTick r) := by
  unfold State.clampTick
  dsimp only
  split
  · exact .refl
  · split
    · exact .trans (.of_regs rfl) (.bump (w := (· = .pwrRegion)) Fld.pwrRegionClampMs r 1 (by decide))
    · exact .of_regs rfl

theorem State.clampTicks_eq (l : List Nat) : ∀ s : State,
    l.foldl State.clampTick s = { s with regs := (l.foldl State.clampTick s).regs, power := (l.foldl State.clampTick s).power } := by
  induction l with
  | nil => intro s; rfl
  | cons r l ih => intro s; rw [List.foldl_cons, ih (s.clampTick r), State.clampTick_eq s r]

theorem State.idleTick_eq (s : State) : s.idleTick = { s with power := s.idleTick.power } := by
  unfold State.idleTick
  split
  · rfl
  · split <;> rfl

/-- What a count of the Tally does outside holdover. -/
def State.counts (s : State) : State := (List.range 16).foldl State.clampTick ({ s with tally := s.tally + 1 }).idleTick

theorem State.counts_eq (s : State) : s.counts = { s with tally := s.tally + 1, regs := s.counts.regs, power := s.counts.power } := by
  unfold State.counts
  rw [State.clampTicks_eq, State.idleTick_eq]

theorem State.counts_writesOnly (s : State) : s.writesOnly (· = .pwrRegion) s.counts :=
  .trans (.of_regs (by rw [State.idleTick_eq])) (.foldl State.clampTick_writesOnly _ _)

/-- The error that a count draws in holdover. -/
def State.driftNs (s : State) : Nat := min 255 (Config.holdoverError s.draws)

/-- `ERR_NS` takes the error drawn. -/
def State.errDrawn (s : State) : State := ({ s with draws := s.draws + 1 }).setFld Fld.tallyStatErrNs 0 s.driftNs

/-- What a count does in holdover besides: the error is drawn, and beyond the bound `ALIGNED` clears (R43). -/
def State.drifts (s : State) : State := if s.errDrawn.tallyBound < s.driftNs then s.errDrawn.setFlag Fld.tallyStatAligned 0 false else s.errDrawn

theorem tallyTick_awake {s : State} (ha : s.awake = true) : exec .tallyTick s = .next (if s.counts.holdover then s.counts.drifts else s.counts) := whenever_pos ha

/-- The holdover of the Tally and its bound read `TALLY_CTL` and `LINK_STAT` only. -/
theorem State.writesOnly.holdover {s u : State} {w : Reg → Prop} (h : s.writesOnly w u) (hs : Tab.sorted s.regs = true) (hc : ¬ w .tallyCtl)
    (hl : ¬ w .linkStat) : u.holdover = s.holdover := by
  simp only [State.holdover, State.tallyLeader, State.tallyRole, State.parentUp, State.linkState, h.fld hs (f := Fld.tallyCtlRole) ⟨hc, by decide⟩,
    h.flag hs (f := Fld.tallyCtlEnable) ⟨hc, by decide⟩, h.fld hs (f := Fld.tallyCtlParent) ⟨hc, by decide⟩, h.fld hs (f := Fld.linkStatState) ⟨hl, by decide⟩]

theorem State.writesOnly.tallyBound {s u : State} {w : Reg → Prop} (h : s.writesOnly w u) (hs : Tab.sorted s.regs = true) (hc : ¬ w .tallyCtl) :
    u.tallyBound = s.tallyBound := by
  unfold State.tallyBound State.tallyRole
  rw [h.fld hs (f := Fld.tallyCtlRole) ⟨hc, by decide⟩]

theorem State.errDrawn_writesOnly (s : State) : s.writesOnly (· = .tallyStat) s.errDrawn :=
  .trans (t := { s with draws := s.draws + 1 }) (.of_regs rfl) (.setFld Fld.tallyStatErrNs 0 _ (by decide))

theorem State.drifts_eq (s : State) : s.drifts = { s with regs := s.drifts.regs, draws := s.draws + 1 } := by
  unfold State.drifts
  split <;> rfl

/-- A count and a drawn error together change the Tally, register fields, the power family and the draws. -/
theorem State.eq_of_drift {s t u : State} {n d : Nat} (ht : t = { s with tally := n, regs := t.regs, power := t.power })
    (hu : u = { t with regs := u.regs, draws := d }) : u = { s with tally := n, regs := u.regs, power := u.power, draws := u.draws } := by
  rw [hu, ht]

/-- The error drawn is read, and beyond the bound the Tally is not aligned. -/
theorem State.drifts_reads {s : State} (hs : Tab.sorted s.regs = true) : s.drifts.fld Fld.tallyStatErrNs 0 = s.driftNs ∧
    (s.tallyBound < s.driftNs → s.drifts.flag Fld.tallyStatAligned 0 = false) := by
  have hse := (s.errDrawn_writesOnly hs).1
  have herr : s.errDrawn.fld Fld.tallyStatErrNs 0 = s.driftNs := by
    refine (State.fld_setFld_self (s := { s with draws := s.draws + 1 }) hs _ _ _).trans (Nat.mod_eq_of_lt ?_)
    unfold State.driftNs
    show _ < 256
    omega
  unfold State.drifts
  rw [s.errDrawn_writesOnly.tallyBound hs (by decide)]
  split
  · exact ⟨(State.fld_setFld_ne hse (.inr (.inr (by decide))) _ (by decide)).trans herr, fun _ => State.flag_setFlag_self hse rfl 0 false⟩
  · next h => exact ⟨herr, fun hb => absurd hb h⟩

/-- Settles O7: a count touches the registers of the regions and, in holdover, `TALLY_STAT`. -/
theorem tallyTickCountsOnce : Obligations.TallyTickCountsOnce := by
  unfold Obligations.TallyTickCountsOnce
  refine ⟨fun s ha hc => ?_, fun s ha => whenever_neg ha⟩
  have hs := State.canonical.regs hc
  have hso := (s.counts_writesOnly hs).1
  have hdraws : s.counts.draws = s.draws := by rw [State.counts_eq]
  have hnext := tallyTick_awake ha
  rw [s.counts_writesOnly.holdover hs (by decide) (by decide)] at hnext
  cases hh : s.holdover with
  | false =>
    simp only [hh, Bool.false_eq_true, if_false] at hnext
    refine ⟨_, hnext, ?_, ?_, fun _ => ⟨hdraws, ?_, ?_⟩, nofun⟩
    · exact congrArg State.tally s.counts_eq
    · rw [hdraws]; exact s.counts_eq
    · exact s.counts_writesOnly.fld hs (by decide) 0
    · exact s.counts_writesOnly.fld hs (by decide) 0
  | true =>
    simp only [hh, if_true] at hnext
    obtain ⟨herr, hal⟩ := State.drifts_reads hso
    rw [s.counts_writesOnly.tallyBound hs (by decide), State.driftNs, hdraws] at hal
    rw [State.driftNs, hdraws] at herr
    refine ⟨_, hnext, ?_, ?_, nofun, fun _ => ⟨?_, herr, hal⟩⟩
    · rw [State.drifts_eq, State.counts_eq]
    · exact State.eq_of_drift s.counts_eq (hdraws ▸ s.counts.drifts_eq)
    · rw [State.drifts_eq, State.counts_eq]

/-! ## The rate monitors -/

/-- Settles O8: `RATE` and then `MIN` of one region are set, in that order. -/
theorem rateMonitorFollowsSteps : Obligations.RateMonitorFollowsSteps := by
  unfold Obligations.RateMonitorFollowsSteps
  refine ⟨fun r n s hr ht hp hc => ?_, fun r n s hr h => ?_⟩
  · have hs := State.canonical.regs hc
    have hs' := State.sorted_setFld hs Fld.coreRateRate r (min n 65535)
    have hgo : exec (.coreRateUpdate r n) s =
        .next ((s.setFld Fld.coreRateRate r (min n 65535)).setFld Fld.coreRateMin r (min (min n 65535) (s.fld Fld.coreRateMin r))) :=
      (onUnit_ok (decide_eq_true hr)).trans (whenever_pos (by simp [ht, hp]))
    refine ⟨_, hgo, rfl, ?_, State.fld_setFld_self hs' _ _ _, fun g j h1 h2 => ?_⟩
    · rw [State.fld_setFld_ne hs' (.inr (.inr (by decide))) _ (by decide), State.fld_setFld_self hs]
      exact Nat.mod_eq_of_lt (Nat.lt_of_le_of_lt (Nat.min_le_right _ _) (by decide))
    · exact (State.fld_setFld_other hs' h2 _).trans (State.fld_setFld_other hs h1 _)
  · refine (onUnit_ok (decide_eq_true hr)).trans (whenever_neg ?_)
    rcases h with h | h
    · simp [h]
    · simp [Nat.not_lt.2 h]

/-! ## Timing frames -/

/-- The first frame that can be dealt with is a timing frame that can. -/
theorem State.timingReady_of_first {s : State} {l : Nat} {p : Packet} (h : s.firstTiming = some (l, p)) : s.timingReady l = true :=
  ((Bool.and_eq_true _ _).mp (List.find?_some (p := fun e : Nat × Packet => e.2.kind == .timing && s.timingReady e.1) h)).2

/-- A frame that can be dealt with is taken from the received packets: dropped, measured with, or answered. -/
theorem timingFrameReceive_first {s : State} {l : Nat} {p : Packet} (h : s.firstTiming = some (l, p)) (off : Int) (e : Nat) :
    exec (.timingFrameReceive off e) s = .next (
      if s.flag Fld.tallyCtlEnable 0 = false then { s with inbound := s.inbound.erase (l, p) }
      else if s.tallyLeader = false ∧ l = s.fld Fld.tallyCtlParent 0 then ({ s with inbound := s.inbound.erase (l, p) }).timingMeasured off e
      else if l < 20 then ({ s with inbound := s.inbound.erase (l, p) }).enqueue l 20 (s.timingFrame p.src) else { s with inbound := s.inbound.erase (l, p) }) := by
  show execTimingFrameReceive off e s = _
  unfold execTimingFrameReceive
  simp only [h, Bool.not_eq_true', Bool.and_eq_true, beq_iff_eq, apply_ite Host.Outcome.next]
  rfl

/-- The one forward step is made exactly before the first lock, with no launch running and a positive offset (R42). -/
theorem State.timingMeasured_eq (s : State) (off : Int) (e : Nat) : s.timingMeasured off e =
    if 0 < off ∧ s.flag Fld.tallyStatLocked 0 = false ∧ s.tallyStepped = false ∧ s.launchRuns = false then
      ({ s with tally := s.tally + off.toNat, tallyStepped := true }).setTallyError e
    else s.setTallyError e := by
  unfold State.timingMeasured
  simp only [Bool.and_eq_true, decide_eq_true_eq, Bool.not_eq_true', and_assoc]
  split <;> rfl

/-- Settles O9: each clause is a branch of the two commands. -/
theorem timingFramesFollowTheTree : Obligations.TimingFramesFollowTheTree := by
  unfold Obligations.TimingFramesFollowTheTree
  refine ⟨fun s hl he hp hm => ?_, fun s l p off e hf hl he hpar => ⟨fun h1 h2 h3 h4 => ?_, fun h => ?_⟩, fun s l p off e hf he hor hl => ⟨?_, ?_⟩,
    fun s l p off e hf he => ?_, fun s h => ?_, fun s off e hf => ?_⟩
  · exact whenever_pos (by simp [hl, he, hp, hm])
  · rw [timingFrameReceive_first hf, if_neg (by simp [he]), if_pos ⟨hl, hpar⟩, State.timingMeasured_eq, if_pos ⟨h1, h2, h3, h4⟩]
  · rw [timingFrameReceive_first hf, if_neg (by simp [he]), if_pos ⟨hl, hpar⟩, State.timingMeasured_eq, if_neg]
    rintro ⟨h1, h2, h3, h4⟩
    rcases h with h | h | h | h
    · omega
    · exact absurd (h2.symm.trans h) (by decide)
    · exact absurd (h3.symm.trans h) (by decide)
    · exact absurd (h4.symm.trans h) (by decide)
  · have hr := State.timingReady_of_first hf
    have hno : (!s.tallyLeader && l == s.fld Fld.tallyCtlParent 0) = false := by
      rcases hor with h | h <;> simp [h]
    have h20 : ¬ 20 ≤ l := by omega
    simpa [State.timingReady, hno, he, h20] using hr
  · have hno : ¬ (s.tallyLeader = false ∧ l = s.fld Fld.tallyCtlParent 0) := by
      rintro ⟨h1, h2⟩
      rcases hor with h | h
      · exact absurd (h1.symm.trans h) (by decide)
      · exact h h2
    rw [timingFrameReceive_first hf, if_neg (by simp [he]), if_neg hno, if_pos hl]
  · rw [timingFrameReceive_first hf, if_pos he]
  · refine whenever_neg ?_
    rcases h with h | h | h | h <;> simp [h]
  · show execTimingFrameReceive off e s = _
    unfold execTimingFrameReceive
    simp only [hf]

/-! ## The change of tile mode -/

/-- Settles O11: the three branches of the command. -/
theorem tileModeChangeWaitsForLaunches : Obligations.TileModeChangeWaitsForLaunches := by
  unfold Obligations.TileModeChangeWaitsForLaunches
  refine ⟨fun m s hm hl h1 => ?_, fun s hm hl => ?_, fun s h => ?_⟩ <;> show execTileModeChange s = _ <;> unfold execTileModeChange
  · simp [hm, hl, h1, whenever]
  · simp [hm, hl, whenever]
  · rcases h with h | h
    · simp [h]
    · cases s.modeDue <;> simp [h, whenever]

end Sys2Proof.Machine
end

section
/-! SUPPORT. The grant of a row access: the rotation of a bank, and what the access of a granted request does (O27). -/

namespace Sys2Proof.Machine

/-! ## The rotation (R171) -/

/-- How far requester `r` stands behind the one granted last. -/
def turnsAfter (last r : Nat) : Nat := (r + 8 - last % 9) % 9

theorem turnsAfter_turn {last k : Nat} (hk : k < 9) : turnsAfter last ((last + 1 + k) % 9) = k := by
  unfold turnsAfter; omega

theorem turn_turnsAfter {last r : Nat} (hr : r < 9) : (last + 1 + turnsAfter last r) % 9 = r := by
  unfold turnsAfter; omega

/-- Every requester has its place in the rotation. -/
theorem mem_turns {last r : Nat} (hr : r < 9) : r ∈ (List.range 9).map (fun k => (last + 1 + k) % 9) :=
  List.mem_map.2 ⟨turnsAfter last r, List.mem_range.2 (Nat.mod_lt _ (by decide)), turn_turnsAfter hr⟩

/-- The rotation lists the requesters in the order of their turns. -/
theorem turns_pairwise (last : Nat) :
    ((List.range 9).map (fun k => (last + 1 + k) % 9)).Pairwise (fun a b => turnsAfter last a ≤ turnsAfter last b) := by
  rw [List.pairwise_map]
  refine List.pairwise_lt_range.imp_of_mem fun {a b} ha hb hab => ?_
  rw [turnsAfter_turn (List.mem_range.1 ha), turnsAfter_turn (List.mem_range.1 hb)]
  exact Nat.le_of_lt hab

/-- The request granted waits at the bank, and no other one's turn comes before its own. -/
theorem grantee_first {last : Nat} {reqs : List RowReq} {g : RowReq} (h : grantee last reqs = some g) :
    g ∈ reqs ∧ ∀ q ∈ reqs, q.requester < 9 → turnsAfter last g.requester ≤ turnsAfter last q.requester := by
  obtain ⟨before, r, after, hl, hr, hnone⟩ := List.findSome?_eq_some_iff.1 h
  have hgr : g.requester = r := by simpa using List.find?_some hr
  refine ⟨List.mem_of_find?_eq_some hr, fun q hq hq9 => ?_⟩
  have hmem : q.requester ∈ before ++ r :: after := hl ▸ mem_turns hq9
  rcases List.mem_append.1 hmem with hb | ha
  · have := List.find?_eq_none.1 (hnone _ hb) q hq
    simp at this
  · have hp := (List.pairwise_append.1 (hl ▸ turns_pairwise last)).2.1
    rcases List.mem_cons.1 ha with ha | ha
    · rw [hgr, ha]
    · exact hgr ▸ (List.pairwise_cons.1 hp).1 _ ha

/-- A lone request is granted. -/
theorem grantee_singleton (last : Nat) {g : RowReq} (hg : g.requester < 9) : grantee last [g] = some g := by
  cases h : grantee last [g] with
  | none =>
    have := List.findSome?_eq_none_iff.1 h _ (mem_turns hg)
    simp at this
  | some q => rw [List.mem_singleton.1 (grantee_first h).1]

/-! ## The access of a granted request -/

theorem RowReq.wf_requester {g : RowReq} (h : g.wf = true) : g.requester < 9 := by
  simp only [RowReq.wf, Bool.and_eq_true, decide_eq_true_eq] at h
  exact h.1.1

theorem RowReq.wf_row {g : RowReq} (h : g.wf = true) : g.row < 16384 := by
  simp only [RowReq.wf, Bool.and_eq_true, decide_eq_true_eq] at h
  exact h.1.2

theorem State.findWords_nil (s : State) (t p : Nat) : s.findWords t p [] = (s, none) := rfl

/-- No flit fails. -/
theorem State.meshFlit_zero (s : State) (t f : Nat) (ws : List (Nat × Bool)) : s.meshFlit t ⟨ws, 0, f⟩ = s := rfl

/-- The state in which the bank has granted a request (R171, R427). -/
def State.granted (s : State) (p b : Nat) (tl : Tile) (g : RowReq) : State :=
  (s.tileEvent p evRow 1).setTile p { tl with lastGrant := Tab.set 8 tl.lastGrant b g.requester }

/-- The bytes that a granted request writes are stored. -/
def State.rowWritten (s : State) (p : Nat) (g : RowReq) : State :=
  match g.write with
  | some bytes => if bytes.isEmpty then s else s.setTile p ((s.tile p).writeRow g.row bytes)
  | none => s

/-- The requests that one grant serves: the request granted, and with a read every read of its row (R171). -/
def servedBy (g : RowReq) (reqs : List RowReq) : List RowReq := reqs.filter (fun q => q == g || (g.write.isNone && q.write.isNone && q.row == g.row))

/-- The requests that a grant leaves waiting count once (R172). -/
def State.waitCounted (s : State) (t : Nat) (g : RowReq) (reqs : List RowReq) : State :=
  if (servedBy g reqs).length < reqs.length then s.bump Fld.tileSpstatBankwait t 1 else s

theorem State.waitCounted_arriving (s : State) (t : Nat) (g : RowReq) (reqs : List RowReq) : (s.waitCounted t g reqs).arriving = s.arriving := by
  unfold State.waitCounted
  split
  · exact State.bump_arriving s _ t 1
  · rfl

/-- Of the state a race sees the chunks that arrive; the rest lies on the tile. -/
theorem State.raceAt_congr {s v : State} (h : v.arriving = s.arriving) (t : Nat) (tl : Tile) (reqs : List RowReq) (g : RowReq) :
    v.raceAt t tl reqs g = s.raceAt t tl reqs g := by
  unfold State.raceAt State.requestEvents State.meetsIncoming
  rw [h]

/-- A lone request leaves none waiting. -/
theorem State.waitCounted_singleton (s : State) (t : Nat) (g : RowReq) : s.waitCounted t g [g] = s := by
  simp [State.waitCounted, servedBy]

/-- Of two reads of different rows one is left waiting. -/
theorem State.waitCounted_two (s : State) (t : Nat) {g h : RowReq} (hrow : g.row ≠ h.row) : s.waitCounted t g [g, h] = s.bump Fld.tileSpstatBankwait t 1 := by
  have hne : ¬ h = g := fun he => hrow (he ▸ rfl)
  simp [State.waitCounted, servedBy, hne, hrow.symm]

/-- What the code finds in the row of the request granted, after the grant. -/
def State.rowFound (s : State) (t p b : Nat) (g : RowReq) (reqs : List RowReq) (fault : RowFault) : State × Option (Bool × Bool) :=
  ((s.waitCounted t g reqs).granted p b (s.tile p) g).findWords t p (rowErrs fault g.row)

/-- A granted access without a race: the requests left waiting count, what the code finds is dealt with, and the bytes are stored. -/
theorem rowAccess_granted {s : State} {t p b : Nat} {g : RowReq} {reqs : List RowReq} (fault : RowFault) (ha : s.acts t p = true)
    (hpart : (s.tile p).part.isSome = true) (hb : b < 64) (hreqs : ∀ q ∈ reqs, q.wf = true ∧ bankOf q.row = b)
    (hg : grantee (Tab.get 8 (s.tile p).lastGrant b) reqs = some g) (hrace : s.raceAt t (s.tile p) (reqs.filter (· != g)) g = false) :
    exec (.scratchpadRowAccess t b reqs fault) s = .next
      ((((s.rowFound t p b g reqs fault).1.rowWritten p g).meshFlit t fault).wordFault t p (s.rowFound t p b g reqs fault).2) := by
  have hunit : (decide (b < 64) && reqs.all RowReq.wf) = true := by simpa [hb] using fun q hq => (hreqs q hq).1
  have hfilter : reqs.filter (fun q => bankOf q.row == b) = reqs := List.filter_eq_self.2 fun q hq => beq_iff_eq.2 (hreqs q hq).2
  have hwait : (s.waitCounted t g reqs).raceAt t (s.tile p) (reqs.filter (· != g)) g = false :=
    (State.raceAt_congr (State.waitCounted_arriving s t g reqs) ..).trans hrace
  refine (onUnit_ok hunit).trans ((onTile_at ha _).trans ?_)
  simp only [hfilter]
  split
  · next g' _ hg' _ =>
    obtain rfl : g = g' := Option.some.inj (hg.symm.trans hg')
    rw [State.waitCounted, servedBy] at hwait
    rw [hwait]
    rfl
  · next hnone =>
    obtain ⟨q, hq⟩ := Option.isSome_iff_exists.1 hpart
    exact absurd hq (hnone _ _ hg)

/-- A lone request with no race. -/
theorem rowAccess_lone {s : State} {t p b : Nat} {g : RowReq} (fault : RowFault) (ha : s.acts t p = true) (hpart : (s.tile p).part.isSome = true) (hb : b < 64)
    (hg : g.wf = true) (hbank : bankOf g.row = b) (hrace : s.raceAt t (s.tile p) [] g = false) :
    exec (.scratchpadRowAccess t b [g] fault) s = .next
      (((((s.granted p b (s.tile p) g).findWords t p (rowErrs fault g.row)).1.rowWritten p g).meshFlit t fault).wordFault t p
        ((s.granted p b (s.tile p) g).findWords t p (rowErrs fault g.row)).2) := by
  have hothers : [g].filter (· != g) = [] := by simp
  rw [rowAccess_granted fault ha hpart hb (by simpa using ⟨hg, hbank⟩) (grantee_singleton _ (RowReq.wf_requester hg)) (by rw [hothers]; exact hrace),
    State.rowFound, State.waitCounted_singleton]

/-! ## A word that is not correctable (R393) -/

/-- The one word that an access finds wrong beyond correction, as a word of the tile's storage. -/
theorem rowErrs_one (w : Nat) (hw : w < 32) (row m f : Nat) : rowErrs ⟨[(w, true)], m, f⟩ row = [⟨8 * row + w / 4, w % 4, true⟩] := by
  simp [rowErrs, Nat.mod_eq_of_lt hw]

/-- An uncorrectable word of a scratchpad unit counts in `SP_UE`, its unit is marked, and its row goes to a spare row. -/
theorem State.findWords_spadUe (s v : State) {t p u w : Nat} (hu : u < 131072) (hv : v = (s.bump Fld.tileRasSpUe t 1).setTile p ((s.tile p).markUnit u)) :
    s.findWords t p [⟨u, w, true⟩] = ((v.spareRow p (u / 8)).1, if (v.spareRow p (u / 8)).2 then some (false, true) else none) := by
  have hspad : WordErr.spad ⟨u, w, true⟩ = true := decide_eq_true hu
  have hctl : WordErr.control ⟨u, w, true⟩ = false := beq_eq_false_iff_ne.2 (show u ≠ 139291 by omega)
  have hle : decide (u ≤ controlUnit) = true := decide_eq_true (by unfold controlUnit; omega)
  have hnote : (s.tile p).noteWord ⟨u, w, true⟩ = (s.tile p).markUnit u := by simp [Tile.noteWord, hctl]
  have hcount : s.countWords t [⟨u, w, true⟩] = s.bump Fld.tileRasSpUe t 1 := by simp [State.countWords, hspad, State.bump]
  have hrows : ∀ tl : Tile, tl.rowsToSpare [⟨u, w, true⟩] = [u / 8] := by 
    intro tl
    have hone : [u / 8].eraseDups = [u / 8] := rfl
    simp [Tile.rowsToSpare, hspad, hone]
  simp only [State.findWords, List.filter_cons, hle, if_true, List.filter_nil, List.isEmpty_cons, Bool.false_eq_true, if_false, List.foldl_cons, List.foldl_nil, hnote,
    hrows, hcount, List.any_cons, List.any_nil, hctl, hspad, Bool.false_and, Bool.not_true, Bool.or_false, Bool.false_or, ← hv]
  cases (v.spareRow p (u / 8)).2 <;> rfl

/-- While the bank has a spare row left, the row moves to the next one (R173). -/
theorem State.spareRow_left {v : State} {p row : Nat} (h : (v.tile p).bankSpares (bankOf row) < 4) : v.spareRow p row =
    ((v.setTile p { v.tile p with rowSpare := Tab.set 0 (v.tile p).rowSpare row ((v.tile p).bankSpares (bankOf row) + 1), rowCorr := Tab.set 0 (v.tile p).rowCorr row 0 }).journal
      recRowSpare [p, bankOf row, row / 64, (v.tile p).bankSpares (bankOf row)], false) := by
  unfold State.spareRow
  exact if_pos h

theorem State.spareRow_none {v : State} {p row : Nat} (h : 4 ≤ (v.tile p).bankSpares (bankOf row)) : v.spareRow p row = (v, true) := by
  unfold State.spareRow
  exact if_neg (Nat.not_lt.2 h)

/-! ## Mesh flits -/

/-- With no request waiting only the flits that fail act. -/
theorem rowAccess_none {s : State} {t p b : Nat} (ha : s.acts t p = true) (hb : b < 64) (fault : RowFault) :
    exec (.scratchpadRowAccess t b [] fault) s = .next (s.meshFlit t fault) :=
  (onUnit_ok (by simpa using hb)).trans (onTile_at ha _)

/-- A count leaves the binding of the tiles, whatever the order of the keys. -/
theorem State.physOf_bump {s : State} {f : Field} (hf : f.reg ≠ .tilePhys ∨ f.lo ≠ Fld.tilePhysState.lo ∧ f.lo ≠ Fld.tilePhysLogical.lo) (hlo : f.lo < 1024)
    (hr : ∀ i, f.resetAt i = 0) (hw : 0 < f.width) (i n k : Nat) : (s.bump f i n).physOf k = s.physOf k := by
  have hst : ∀ j, (s.bump f i n).fld Fld.tilePhysState j = s.fld Fld.tilePhysState j := fun j =>
    State.fld_bump_ne (Field.key_ne hlo (by decide) (.inr (hf.imp id And.left))) (hr i) hw
  have hlog : ∀ j, (s.bump f i n).fld Fld.tilePhysLogical j = s.fld Fld.tilePhysLogical j := fun j =>
    State.fld_bump_ne (Field.key_ne hlo (by decide) (.inr (hf.imp id And.right))) (hr i) hw
  unfold State.physOf
  simp only [hst, hlog]

/-- A read whose row has an uncorrectable word: the count, the mark, the spare row, and the fault when the bank has none left. -/
theorem rowAccess_uncorrectable {s v : State} {t p b w : Nat} {g : RowReq} (ha : s.acts t p = true) (hpart : (s.tile p).part.isSome = true) (hb : b < 64)
    (hg : g.wf = true) (hbank : bankOf g.row = b) (hw : g.write = none) (hrace : s.raceAt t (s.tile p) [] g = false) (hw32 : w < 32)
    (hv : v = ((s.granted p b (s.tile p) g).bump Fld.tileRasSpUe t 1).setTile p (((s.granted p b (s.tile p) g).tile p).markUnit (8 * g.row + w / 4))) :
    exec (.scratchpadRowAccess t b [g] ⟨[(w, true)], 0, 0⟩) s =
      .next ((v.spareRow p g.row).1.wordFault t p (if (v.spareRow p g.row).2 then some (false, true) else none)) := by
  have hunit : 8 * g.row + w / 4 < 131072 := by have := RowReq.wf_row hg; omega
  have hrow : (8 * g.row + w / 4) / 8 = g.row := by omega
  rw [rowAccess_lone _ ha hpart hb hg hbank hrace, rowErrs_one w hw32, State.findWords_spadUe _ v hunit hv, hrow, State.meshFlit_zero]
  simp [State.rowWritten, hw]

/-- Settles O27: what a granted request does, with the findings of the code in its row; and what a failed flit does. -/
theorem bankGrantsOneRowAccess : Obligations.BankGrantsOneRowAccess := by
  unfold Obligations.BankGrantsOneRowAccess
  refine ⟨fun s u t p b g bytes ha hp hb hg hbank hw hne hrace hu => ?_, fun s t p b g ha hp hb hg hbank hw hrace => ?_,
    fun s t p b g h ha hp hb hg hh hgb hhb hrow hgw hhw hrace hgr => ?_, fun s u v t p b w g ha hp hb hg hbank hw hrace hw32 hu hv => ⟨fun h4 => ?_, fun h4 => ?_⟩,
    fun s t p b m f ha hb => ⟨fun hm => ?_, fun q hm hq => ?_⟩, fun last reqs g h => ?_⟩
  · have hbytes : bytes.isEmpty = false := by simpa using hne
    rw [rowAccess_lone _ ha hp hb hg hbank hrace, hu]
    simp [rowErrs, State.findWords_nil, State.rowWritten, hw, hbytes, State.meshFlit_zero, State.wordFault, State.granted]
  · rw [rowAccess_lone _ ha hp hb hg hbank hrace]
    simp [rowErrs, State.findWords_nil, State.rowWritten, hw, State.meshFlit_zero, State.wordFault, State.granted]
  · have hne : h ≠ g := fun he => hrow (he ▸ rfl)
    have hothers : [g, h].filter (· != g) = [h] := by simp [hne]
    rw [rowAccess_granted _ ha hp hb (by simp [hg, hh, hgb, hhb]) hgr (by rw [hothers]; exact hrace), State.rowFound, State.waitCounted_two s t hrow]
    simp [rowErrs, State.findWords_nil, State.rowWritten, hgw, State.meshFlit_zero, State.wordFault, State.granted]
  · subst hu hbank
    rw [rowAccess_uncorrectable ha hp hb hg rfl hw hrace hw32 hv, State.spareRow_left h4]
    rfl
  · subst hu hbank
    rw [rowAccess_uncorrectable ha hp hb hg rfl hw hrace hw32 hv, State.spareRow_none h4]
    rfl
  · rw [rowAccess_none ha hb]
    unfold State.meshFlit
    exact congrArg _ (if_neg (Nat.not_le.2 hm))
  · rw [rowAccess_none ha hb]
    unfold State.meshFlit
    rw [if_pos hm, State.physOf_bump (.inl (by decide)) (by decide) (fun _ => rfl) (by decide), hq]
  · obtain ⟨hm, hfirst⟩ := grantee_first h
    exact ⟨hm, fun q hq hq9 _ => hfirst q hq hq9⟩

end Sys2Proof.Machine
end

section
/-! SUPPORT. The stop of a launch part, and the stall watchdog (O10). -/

namespace Sys2Proof.Machine

/-! ## Items after an update -/

/-- An item changed in place is found changed. -/
theorem State.item_modItem_self {s : State} {id : Nat} {i : Item} {f : Item → Item} (h : s.item id = some i) (hf : ∀ j, (f j).id = j.id) :
    (s.modItem id f).item id = some (f i) := by
  have hid : i.id = id := by simpa using List.find?_some h
  have hpred : (fun j : Item => (if j.id = id then f j else j).id == id) = fun j => j.id == id := by
    funext j
    split <;> simp [hf]
  have hfind : s.items.find? (fun j => (if j.id = id then f j else j).id == id) = some i := by rw [hpred]; exact h
  show List.find? _ (s.items.map _) = _
  rw [List.find?_map]
  simp only [Function.comp_def, hfind, Option.map_some, hid, if_true]

/-- An item moved behind the others is found changed. -/
theorem State.item_requeue_self {s : State} {id : Nat} {i : Item} {f : Item → Item} (h : s.item id = some i) (hf : ∀ j, (f j).id = j.id) :
    (s.requeue id f).item id = some (f i) := by
  have hnone : (s.items.filter (fun j => j.id != id)).find? (fun j => j.id == id) = none := by
    rw [List.find?_eq_none]
    intro j hj
    simpa using (List.mem_filter.1 hj).2
  have hsome : (s.items.filter (fun j => j.id == id)).find? (fun j => j.id == id) = some i := by
    rw [List.find?_filter]
    simp only [and_self, Bool.decide_eq_true]
    exact h
  show List.find? _ (_ ++ List.map f _) = _
  rw [List.find?_append, hnone, Option.none_or, List.find?_map]
  simp only [Function.comp_def, hf, hsome, Option.map_some]

theorem State.item_congr {s u : State} (h : u.items = s.items) (id : Nat) : u.item id = s.item id := by
  unfold State.item; rw [h]

@[simp] theorem Item.addStatus_id (i : Item) (st : Nat) : (i.addStatus st).id = i.id := by
  unfold Item.addStatus; split <;> rfl

@[simp] theorem Item.addStatus_phase (i : Item) (st : Nat) : (i.addStatus st).phase = i.phase := by
  unfold Item.addStatus; split <;> rfl

theorem Item.mem_addStatus (i : Item) (st : Nat) : st ∈ (i.addStatus st).statuses := by
  unfold Item.addStatus
  split
  · next h => exact List.contains_iff_mem.1 h
  · exact List.mem_append_right _ List.mem_cons_self

/-- An item that has not ended ends. -/
theorem State.endItem_running {s : State} {id : Nat} {i : Item} (h : s.item id = some i) (hp : i.phase ≠ .done) :
    s.endItem id = s.requeue id (fun i => { i with phase := .done }) := by
  unfold State.endItem
  simp only [h, if_neg hp]

/-! ## The end of a part -/

/-- The state but for what the end of a part changes: tiles, audit counts and activity counts. -/
def State.butParts (s : State) : State := { s with tiles := [], audit := [], power := State.reset.power }

theorem State.staticEvent_butParts (s : State) (p : Nat) : (s.staticEvent p).butParts = s.butParts := by
  unfold State.staticEvent
  split <;> rfl

theorem State.staticEvent_tiles (s : State) (p : Nat) : (s.staticEvent p).tiles = s.tiles := by
  unfold State.staticEvent
  split <;> rfl

theorem State.setTile_butParts (s : State) (p : Nat) (tl : Tile) : (s.setTile p tl).butParts = s.butParts := rfl

theorem State.setTile_tiles (s : State) (p : Nat) (tl : Tile) : (s.setTile p tl).tiles = Tab.set Tile.empty s.tiles p tl := rfl

theorem State.give_butParts (s : State) (pool idx n : Nat) : (s.give pool idx n).butParts = s.butParts := rfl

theorem State.give_tiles (s : State) (pool idx n : Nat) : (s.give pool idx n).tiles = s.tiles := rfl

/-- The bytes that a tile's bangles hold count as returned. -/
def State.giveBangles (s : State) (t : Nat) (l : Tab (Option Bangle)) : State :=
  l.foldl (fun s e => match e.2 with
    | some b => s.give 9 (16 * t + e.1) b.fill
    | none => s) s

theorem State.giveBangles_same {β : Type} {g : State → β} (hg : ∀ s pool idx n, g (State.give s pool idx n) = g s) (s : State) (t : Nat) (l : Tab (Option Bangle)) :
    g (s.giveBangles t l) = g s := by
  refine State.foldl_same (fun s e => ?_) l s
  cases e.2 with
  | none => rfl
  | some b => exact hg s 9 _ b.fill

theorem State.endPart_def (s : State) (t p : Nat) : s.endPart t p =
    ((((s.staticEvent p).give 8 t (s.tile p).syncHeld).give 10 t (s.tile p).inFlight).giveBangles t (s.tile p).bangles).setTile p (s.tile p).endPart := rfl

/-- The end of a part changes nothing else. -/
theorem State.endPart_butParts (s : State) (t p : Nat) : (s.endPart t p).butParts = s.butParts := by
  rw [State.endPart_def, State.setTile_butParts, State.giveBangles_same State.give_butParts, State.give_butParts, State.give_butParts, State.staticEvent_butParts]

/-- Of the tiles it changes the one on which the part ends. -/
theorem State.endPart_tiles (s : State) (t p : Nat) : (s.endPart t p).tiles = Tab.set Tile.empty s.tiles p (s.tile p).endPart := by
  rw [State.endPart_def, State.setTile_tiles, State.giveBangles_same State.give_tiles, State.give_tiles, State.give_tiles, State.staticEvent_tiles]

/-- Between two states parts of launches have ended, and none has begun. -/
def State.PartsEnded (s u : State) : Prop :=
  u.butParts = s.butParts ∧ (Tab.sorted s.tiles = true → Tab.sorted u.tiles = true ∧ ∀ p, (s.tile p).part = none → (u.tile p).part = none)

theorem State.PartsEnded.refl (s : State) : s.PartsEnded s := ⟨rfl, fun h => ⟨h, fun _ h => h⟩⟩

theorem State.PartsEnded.trans {s t u : State} (h : s.PartsEnded t) (h' : t.PartsEnded u) : s.PartsEnded u :=
  ⟨h'.1.trans h.1, fun hs => ⟨(h'.2 (h.2 hs).1).1, fun p hp => (h'.2 (h.2 hs).1).2 p ((h.2 hs).2 p hp)⟩⟩

/-- A part that has ended is gone. -/
theorem State.endPart_part {s : State} (hs : Tab.sorted s.tiles = true) (t p : Nat) : ((s.endPart t p).tile p).part = none := by
  unfold State.tile
  rw [State.endPart_tiles, Tab.get_set_self hs]
  rfl

theorem State.endPart_partsEnded (s : State) (t p : Nat) : s.PartsEnded (s.endPart t p) := by
  refine ⟨s.endPart_butParts t p, fun hs => ⟨by rw [State.endPart_tiles]; exact Tab.sorted_set hs, fun q hq => ?_⟩⟩
  by_cases hqp : q = p
  · subst hqp
    exact State.endPart_part hs t q
  · unfold State.tile
    rw [State.endPart_tiles, Tab.get_set_other hs hqp]
    exact hq

/-- The part of a logical tile ends on the physical tile that serves it. -/
def State.endPartOf (s : State) (t : Nat) : State :=
  match s.physOf t with
  | some p => s.endPart t p
  | none => s

theorem State.endPartOf_partsEnded (s : State) (t : Nat) : s.PartsEnded (s.endPartOf t) := by
  unfold State.endPartOf
  split
  · exact s.endPart_partsEnded t _
  · exact .refl s

theorem State.endPartsOf_partsEnded (l : List Nat) : ∀ s : State, s.PartsEnded (l.foldl State.endPartOf s) := by
  induction l with
  | nil => exact .refl
  | cons t l ih => exact fun s => (s.endPartOf_partsEnded t).trans (ih _)

/-- The binding of the tiles reads the register file. -/
theorem State.physOf_congr {s u : State} (h : u.regs = s.regs) (t : Nat) : u.physOf t = s.physOf t := by
  unfold State.physOf
  simp only [State.fld_congr h]

/-- Among the parts that end is that of every listed tile that is served. -/
theorem State.endPartsOf_part {t p : Nat} (l : List Nat) (ht : t ∈ l) : ∀ s : State, Tab.sorted s.tiles = true → s.physOf t = some p →
    ((l.foldl State.endPartOf s).tile p).part = none := by
  induction l with
  | nil => exact absurd ht List.not_mem_nil
  | cons q l ih =>
    intro s hs hp
    obtain ⟨hbut, htiles⟩ := s.endPartOf_partsEnded q
    rcases List.mem_cons.1 ht with rfl | ht
    · refine ((State.endPartsOf_partsEnded l _).2 (htiles hs).1).2 p ?_
      unfold State.endPartOf
      simp only [hp]
      exact State.endPart_part hs t p
    · exact ih ht _ (htiles hs).1 ((State.physOf_congr (congrArg State.regs hbut) t).trans hp)

theorem State.endAllParts_partsEnded (s : State) (id : Nat) : s.PartsEnded (s.endAllParts id) := State.endPartsOf_partsEnded (s.partTiles id) s

/-- The end of a launch's parts ends that of every served tile on which it has one. -/
theorem State.endAllParts_part {s : State} {t p id : Nat} (hs : Tab.sorted s.tiles = true) (ht : t < 256) (hp : s.physOf t = some p)
    (hid : (s.tile p).itemId = some id) : ((s.endAllParts id).tile p).part = none := by
  refine State.endPartsOf_part (s.partTiles id) (List.mem_filter.2 ⟨List.mem_range.2 ht, ?_⟩) s hs hp
  simp only [hp]
  exact beq_iff_eq.2 hid

/-! ## A launch part that fails -/

/-- The state but for the packets on their way. -/
def State.butNet (s : State) : State := { s with links := [], inbound := [] }

/-- A packet that is injected is delivered, joins a queue or is lost. -/
theorem State.send_butNet (s : State) (p : Packet) : (s.send p).butNet = s.butNet := by
  unfold State.send State.inject
  dsimp only
  split
  · rfl
  · generalize (match (none : Option Nat) with
      | some q => if s.portUnreachable q then none else some q
      | none => s.lookup p).bind (fun q => s.portLink q p) = o
    cases o <;> rfl

theorem State.sendAborts_butNet (s : State) (tenant : Nat) (b : Board) (cseq reason : Nat) : (s.sendAborts tenant b cseq reason).butNet = s.butNet :=
  State.foldl_same (g := State.butNet) (fun s _ => s.send_butNet _) _ s

/-- The state but for what belongs to launches: parts, packets, items, transfers, landings and kept keys. -/
def State.butLaunch (s : State) : State :=
  { s with tiles := [], audit := [], power := State.reset.power, links := [], inbound := [], items := [], transfers := [], landings := [], abortedKeys := [] }

theorem State.butLaunch_butNet (s : State) : s.butNet.butLaunch = s.butLaunch := rfl

theorem State.butLaunch_butParts (s : State) : s.butParts.butLaunch = s.butLaunch := rfl

/-- The transfers and landings of an item are given up. -/
def State.dropTraffic (s : State) (id : Nat) : State :=
  { s with transfers := s.transfers.filter (fun x => x.item != id), landings := s.landings.filter (fun x => x.item != id) }

/-- The part of a launch that has not ended stops. -/
theorem State.stopPart_running {s : State} {id : Nat} {i : Item} {l : Launch} {b : Board} (st : Nat) (hi : s.item id = some i) (hl : i.launch = some l)
    (hb : s.launchBoard i = some b) (hp : i.phase ≠ .done) :
    s.stopPart id st = (((((s.endAllParts id).dropTraffic id).sendAborts i.fn b l.key.2 st).addStatus id st).endItem id) := by
  unfold State.stopPart
  simp only [hi, hl, hb, if_neg hp]
  rfl

/-- With poison no collective's abort counts. -/
theorem State.failPart_running {s : State} {id : Nat} {i : Item} {l : Launch} {b : Board} (hi : s.item id = some i) (hl : i.launch = some l)
    (hb : s.launchBoard i = some b) (hp : i.phase ≠ .done) : s.failPart id stPoison = (s.keepKey i l stPoison).stopPart id stPoison := by
  unfold State.failPart
  simp only [hi, hl, hb, if_neg hp]
  rfl

/-- A launch part that fails with poison: its tiles' parts end, its item ends with the status, and only what belongs to launches changes. -/
theorem State.failPart_poison {s : State} {id : Nat} {i : Item} {l : Launch} {b : Board} (hi : s.item id = some i) (hl : i.launch = some l)
    (hb : s.launchBoard i = some b) (hp : i.phase ≠ .done) :
    (s.failPart id stPoison).butLaunch = s.butLaunch ∧ (s.failPart id stPoison).tiles = ((s.keepKey i l stPoison).endAllParts id).tiles ∧
      (s.failPart id stPoison).item id = some { i.addStatus stPoison with phase := .done } := by
  rw [State.failPart_running hi hl hb hp, State.stopPart_running (s := s.keepKey i l stPoison) stPoison hi hl hb hp]
  obtain ⟨hbut, -⟩ := (s.keepKey i l stPoison).endAllParts_partsEnded id
  generalize (s.keepKey i l stPoison).endAllParts id = e at hbut ⊢
  have hnet := (e.dropTraffic id).sendAborts_butNet i.fn b l.key.2 stPoison
  generalize (e.dropTraffic id).sendAborts i.fn b l.key.2 stPoison = v at hnet ⊢
  have hvitems : v.items = e.items := (congrArg State.items hnet :)
  have heitems : e.items = s.items := (congrArg State.items hbut :)
  have hvtiles : v.tiles = e.tiles := (congrArg State.tiles hnet :)
  have hvlaunch : v.butLaunch = e.butLaunch := (congrArg State.butLaunch hnet :)
  have helaunch : e.butLaunch = s.butLaunch := (congrArg State.butLaunch hbut :)
  have hadd : (v.addStatus id stPoison).item id = some (i.addStatus stPoison) :=
    State.item_modItem_self ((State.item_congr (hvitems.trans heitems) id).trans hi) fun j => j.addStatus_id stPoison
  rw [State.endItem_running hadd (by rwa [Item.addStatus_phase])]
  exact ⟨hvlaunch.trans helaunch, hvtiles, State.item_requeue_self hadd fun _ => rfl⟩

/-! ## Tile faults -/

/-- The mode that becomes due is the one that the healthy tiles carry. -/
theorem State.modeCheck_eq (s : State) : s.modeCheck = { s with modeDue := s.modeCheck.modeDue } := by
  unfold State.modeCheck
  dsimp only
  split <;> rfl

theorem State.modeCheck_modeDue (s : State) : s.modeCheck.modeDue =
    if s.modeCheck.fld Fld.coreModeTiles 0 < modeFor s.modeCheck.healthy then some (modeFor s.modeCheck.healthy) else s.modeDue := by
  have h : s.modeCheck.healthy = s.healthy ∧ s.modeCheck.fld Fld.coreModeTiles 0 = s.fld Fld.coreModeTiles 0 := by rw [State.modeCheck_eq]; exact ⟨rfl, rfl⟩
  rw [h.1, h.2]
  unfold State.modeCheck
  dsimp only
  split <;> rfl

/-- A tile that waits for nothing and has made no step for long is at fault (R33). -/
theorem watchdog_expires {s : State} {t p : Nat} (ht : t < 256) (hp : s.physOf t = some p) (hh : (s.tile p).halted = false)
    (hc : s.carries.any (fun c => c.logical == t) = false) (hst : (s.tile p).ops.any (s.tile p).stuck = true)
    (hold : (s.tile p).lastStep + 2 ^ max 12 (s.fld Fld.coreStallCtlLimit 0) ≤ s.tally) :
    exec (.stallWatchdogExpiry t) s = .next (s.tileFault t p false false) := by
  refine (onUnit_ok (decide_eq_true ht)).trans ?_
  simp only [hp]
  exact whenever_pos (by simp only [hh, hc, hst, decide_eq_true hold]; rfl)

/-- With a spare that is under no test, a fault starts a carry to it. -/
theorem State.tileFault_spare {s : State} {t p sp : Nat} (c r : Bool) (hc : s.carries.any (fun c => c.logical == t) = false)
    (hsp : (s.bump Fld.tilePhysFences p 1).pickSpare = some sp) (ha : s.assay.unit = none) : s.tileFault t p c r =
      (s.bump Fld.tilePhysFences p 1).addCarry { logical := t, spare := sp, since := s.tally, ctlLost := c, rowsOut := r, rotation := false } := by
  have hno : (s.bump Fld.tilePhysFences p 1).stopAssayOf sp = s.bump Fld.tilePhysFences p 1 := by
    unfold State.stopAssayOf
    simp only [State.bump_assay, ha]
  unfold State.tileFault
  simp only [hc, hsp, hno, State.bump_tally]
  rfl

/-- With none, its launch fails and then the tile (R390). -/
theorem State.tileFault_last {s : State} {t p id : Nat} (c r : Bool) (hc : s.carries.any (fun c => c.logical == t) = false)
    (hsp : (s.bump Fld.tilePhysFences p 1).pickSpare = none) (hid : (s.tile p).itemId = some id) :
    s.tileFault t p c r = ((s.bump Fld.tilePhysFences p 1).failPart id stPoison).tileFailed t p := by
  have htile : (s.bump Fld.tilePhysFences p 1).tile p = s.tile p := State.tile_congr (State.bump_tiles ..) p
  unfold State.tileFault
  simp only [hc, hsp, htile, hid]
  rfl

/-- A tile that fails without a part that runs on it: its state is 4, and its storage holds no part. -/
theorem State.tileFailed_idle {s : State} {p : Nat} (t : Nat) (hid : (s.tile p).itemId = none) : s.tileFailed t p =
    (((s.setFld Fld.tilePhysState p 4).setTile p (s.tile p).endPart).journal recTile
      (((s.setFld Fld.tilePhysState p 4).setTile p (s.tile p).endPart).tileRecord p)).modeCheck := by
  unfold State.tileFailed
  simp only [hid]
  rfl

/-- A tile in another state than `IN_SERVICE` serves no logical tile. -/
theorem State.physOf_ne {s : State} {p : Nat} (h : s.fld Fld.tilePhysState p ≠ 0) (t : Nat) : s.physOf t ≠ some p := by
  intro hp
  have := List.find?_some hp
  simp [h] at this

/-- What such a tile and the device read after it. -/
theorem State.tileFailed_reads {f : State} {p : Nat} (t : Nat) (hs : Tab.sorted f.regs = true) (ht : Tab.sorted f.tiles = true) (hid : (f.tile p).itemId = none) :
    (f.tileFailed t p).carries = f.carries ∧ (f.tileFailed t p).items = f.items ∧ (f.tileFailed t p).fld Fld.tilePhysState p = 4 ∧
      ((f.tileFailed t p).tile p).part = none ∧ (f.tileFailed t p).fld Fld.tileResidencyValid t = f.fld Fld.tileResidencyValid t ∧
      (f.tileFailed t p).modeDue = (if (f.tileFailed t p).fld Fld.coreModeTiles 0 < modeFor (f.tileFailed t p).healthy
        then some (modeFor (f.tileFailed t p).healthy) else f.modeDue) := by
  have hmode := State.modeCheck_modeDue (((f.setFld Fld.tilePhysState p 4).setTile p (f.tile p).endPart).journal recTile
    (((f.setFld Fld.tilePhysState p 4).setTile p (f.tile p).endPart).tileRecord p))
  rw [State.tileFailed_idle t hid]
  refine ⟨by rw [State.modeCheck_eq]; rfl, by rw [State.modeCheck_eq]; rfl, ?_, ?_, ?_, hmode⟩
  · rw [State.modeCheck_eq]
    exact State.fld_setFld_self hs _ _ _
  · rw [State.modeCheck_eq]
    exact congrArg Tile.part (State.tile_setTile_self (s := f.setFld Fld.tilePhysState p 4) ht p (f.tile p).endPart)
  · rw [State.modeCheck_eq]
    exact State.fld_setFld_ne hs (.inr (.inl (by decide))) 4 (by decide)

/-- A fault with no spare ends the launch on the tile and takes the tile out of service; its residency stays (R390). -/
theorem State.tileFault_last_ends {s : State} {t p id : Nat} {i : Item} {l : Launch} {b : Board} {c r : Bool} (ht : t < 256) (hcan : s.canonical = true)
    (hp : s.physOf t = some p) (hc : s.carries.any (fun c => c.logical == t) = false) (hsp : (s.bump Fld.tilePhysFences p 1).pickSpare = none)
    (hid : (s.tile p).itemId = some id) (hi : s.item id = some i) (hl : i.launch = some l) (hb : s.launchBoard i = some b) (hrun : i.phase ≠ .done) :
    ∃ u j, s.tileFault t p c r = u ∧ u.carries = s.carries ∧ u.fld Fld.tilePhysState p = 4 ∧ u.physOf t ≠ some p ∧ (u.tile p).part = none ∧
      u.item id = some j ∧ j.phase = .done ∧ stPoison ∈ j.statuses ∧
      u.modeDue = (if u.fld Fld.coreModeTiles 0 < modeFor u.healthy then some (modeFor u.healthy) else s.modeDue) ∧
      u.fld Fld.tileResidencyValid t = s.fld Fld.tileResidencyValid t := by
  rw [State.tileFault_last c r hc hsp hid]
  have hcw := State.canonical_bump hcan Fld.tilePhysFences p 1
  have hbw : (s.bump Fld.tilePhysFences p 1).launchBoard i = some b := by
    unfold State.launchBoard State.board
    rw [State.bump_boards]
    exact hb
  have htw : (s.bump Fld.tilePhysFences p 1).tile p = s.tile p := State.tile_congr (s.bump_tiles ..) p
  have hpw : (s.bump Fld.tilePhysFences p 1).physOf t = some p :=
    (State.physOf_bump (.inr (by decide)) (by decide) (fun _ => rfl) (by decide) p 1 t).trans hp
  have hres : (s.bump Fld.tilePhysFences p 1).fld Fld.tileResidencyValid t = s.fld Fld.tileResidencyValid t :=
    State.fld_bump_ne (Field.key_ne (by decide) (by decide) (.inr (.inl (by decide)))) rfl (by decide)
  have hcar : (s.bump Fld.tilePhysFences p 1).carries = s.carries := s.bump_carries ..
  have hdue : (s.bump Fld.tilePhysFences p 1).modeDue = s.modeDue := s.bump_modeDue ..
  have hiw : (s.bump Fld.tilePhysFences p 1).item id = some i := (State.item_congr (s.bump_items ..) id).trans hi
  generalize s.bump Fld.tilePhysFences p 1 = w at *
  obtain ⟨hbut, htiles, hend⟩ := State.failPart_poison hiw hl hbw hrun
  have hfregs : (w.failPart id stPoison).regs = w.regs := (congrArg State.regs hbut :)
  have hfcar : (w.failPart id stPoison).carries = w.carries := (congrArg State.carries hbut :)
  have hfdue : (w.failPart id stPoison).modeDue = w.modeDue := (congrArg State.modeDue hbut :)
  have hsorted : Tab.sorted (w.failPart id stPoison).tiles = true := by
    rw [htiles]
    exact (((w.keepKey i l stPoison).endAllParts_partsEnded id).2 (State.canonical.tiles hcw)).1
  have hgone : ((w.failPart id stPoison).tile p).itemId = none := by
    have hpart := State.endAllParts_part (s := w.keepKey i l stPoison) (State.canonical.tiles hcw) ht hpw (htw ▸ hid)
    rw [State.tile_congr htiles p, Tile.itemId, hpart]
    rfl
  obtain ⟨ucar, uitems, ustate, upart, ures, udue⟩ := State.tileFailed_reads t (hfregs ▸ State.canonical.regs hcw) hsorted hgone
  refine ⟨_, _, rfl, ucar.trans (hfcar.trans hcar), ustate, State.physOf_ne (by rw [ustate]; decide) t, upart, (State.item_congr uitems id).trans hend, rfl,
    i.mem_addStatus stPoison, ?_, ures.trans ((State.fld_congr hfregs _ t).trans hres)⟩
  rw [← hdue, ← hfdue]
  exact udue

/-- Settles O10: a carry to the spare, or the end of the launch and of the tile. -/
theorem watchdogSubstitutesTheTile : Obligations.WatchdogSubstitutesTheTile := by
  unfold Obligations.WatchdogSubstitutesTheTile
  refine ⟨fun t p sp s ht hp hh hc hst hold hsp ha => ?_, fun t p id s i l b ht hcan hp hh hc hst hold hsp hid hi hl hb hrun => ?_, fun t p s ht hp hold => ?_⟩
  · refine ⟨_, watchdog_expires ht hp hh hc hst hold, ?_⟩
    rw [State.tileFault_spare _ _ hc hsp ha]
    unfold State.addCarry
    refine ⟨?_, ?_, (State.modeCheck_modeDue _).trans ?_⟩
    · rw [State.modeCheck_eq]
      exact congrArg (· ++ _) (State.bump_carries ..)
    · rw [State.modeCheck_eq]
    · rw [show State.modeDue { s.bump Fld.tilePhysFences p 1 with carries := _ } = s.modeDue from State.bump_modeDue ..]
  · obtain ⟨u, j, hu, hrest⟩ := State.tileFault_last_ends ht hcan hp hc hsp hid hi hl hb hrun
    exact ⟨u, j, hu ▸ watchdog_expires ht hp hh hc hst hold, hrest⟩
  · refine (onUnit_ok (decide_eq_true ht)).trans ?_
    simp only [hp]
    exact whenever_neg (by simp [Nat.not_le.2 hold])

end Sys2Proof.Machine
end

section
/-! SUPPORT. Launches at events 4 and 5, and what a tile holds when its part begins (O34). -/

namespace Sys2Proof.Machine

/-! ## Events 4 and 5 -/

theorem State.endItem_chans (s : State) (id : Nat) : (s.endItem id).chans = s.chans := by
  unfold State.endItem
  split
  · rfl
  · split <;> rfl

/-- A rejection makes no request of device memory. -/
theorem State.accepted_reject (v : State) (item c : Nat) : v.accepted ((v.leave4 item).reject item c) = (v.leave4 item).reject item c := by
  refine State.accepted_served (Nat.le_of_eq ?_)
  have hchans : ((v.leave4 item).reject item c).chans = v.chans := State.endItem_chans ..
  unfold State.waitingRequests
  rw [hchans]

/-- The launch has a place in the order of event 4. -/
def State.ordered4 (s : State) (item : Nat) : State := if s.order4.contains item then s else { s with order4 := s.order4 ++ [item] }

theorem State.ordered4_modeDue (s : State) (item : Nat) : (s.ordered4 item).modeDue = s.modeDue := by
  unfold State.ordered4
  split <;> rfl

/-- The check of the launch that stands first at event 4. -/
theorem launchCheck_first {s : State} {item : Nat} {i : Item} {l : Launch} (hi : s.item item = some i) (hl : i.launch = some l) (hp : i.phase = .passed3)
    (hb : s.listBefore i = false) (hm : s.modeDue = none) (hf : (s.ordered4 item).waiting4.head? = some item) :
    exec (.launchCheck item) s = .next ((s.ordered4 item).accepted (match (s.ordered4 item).launchCause i.fn l with
      | some c => ((s.ordered4 item).leave4 item).reject item c
      | none => (s.ordered4 item).launchPasses i l)) := by
  have hm' : (s.ordered4 item).modeDue = none := (s.ordered4_modeDue item).trans hm
  show execLaunchCheck item s = _
  unfold execLaunchCheck
  simp only [hi, hl]
  rw [if_neg (by simp [hp, hb])]
  show (s.ordered4 item).accepting (.next (if (s.ordered4 item).modeDue.isSome || (s.ordered4 item).waiting4.head? != some item then _ else _)) = _
  rw [if_neg (by simp [hm', hf])] <;> rfl

/-- The arming of a launch whose reservations fit, with no earlier one waiting. -/
theorem launchArm_fits {s : State} {item : Nat} {i : Item} {l : Launch} {x : Variant} (hi : s.item item = some i) (hl : i.launch = some l)
    (hx : s.launchVariant i = some x) (hp : i.phase = .passed4) (hb : s.creditsBefore i = false) (hf : s.creditsFit i x.reservations = true) :
    exec (.launchArm item) s = .next (match ((s.takeCredits i.fn item x.reservations).setPhase item .armed).abortedKey l with
      | some k => ((((s.takeCredits i.fn item x.reservations).setPhase item .armed).leave4 item).modItem item
          (fun i => { i with abortChip := k.chip })).failPart item k.status
      | none => (s.takeCredits i.fn item x.reservations).setPhase item .armed) := by
  show execLaunchArm item s = _
  unfold execLaunchArm
  simp only [hi, hl, hx]
  exact if_neg (by simp [hp, hb, hf])

/-- A tile that is free is served. -/
theorem State.physOf_of_tileFree {s : State} {t : Nat} (h : s.tileFree t = true) : (s.physOf t).isSome = true := by
  unfold State.tileFree at h
  split at h
  · next hp => rw [hp]; rfl
  · exact absurd h (by decide)

/-- The beginning of an armed launch at or after its count, with its tiles free. -/
theorem launchBegin_free {s : State} {item : Nat} {i : Item} {l : Launch} {b : Board} {x : Variant} (hi : s.item item = some i) (hl : i.launch = some l)
    (hb : s.launchBoard i = some b) (hx : s.launchVariant i = some x) (hp : i.phase = .armed) (hc : l.count ≤ s.tally) (hf : b.tiles.all s.tileFree = true)
    (hn : s.tilesBefore i b.tiles = false) {w : State}
    (hw : w = if l.count ≠ 0 ∧ l.count < s.tally then (((s.leave4 item).setPhase item .running).bump Fld.tallyLateCount 0 1).addNote item noteLate
      else (s.leave4 item).setPhase item .running) :
    exec (.launchBegin item) s = .next (x.tiles.zipIdx.foldl (fun s e => s.beginTile i l b (w.tableStoreOf b) e.2 e.1) w) := by
  have hserved : b.tiles.any (fun t => (s.physOf t).isNone) = false := by
    rw [List.any_eq_false]
    intro t ht
    have := State.physOf_of_tileFree (List.all_eq_true.1 hf t ht)
    simpa using Option.ne_none_iff_isSome.2 this
  show execLaunchBegin item s = _
  unfold execLaunchBegin
  simp only [hi, hl, hb, hx]
  rw [if_neg (by simp [hp, Nat.not_lt.2 hc]), if_neg (by simp [hserved]), if_neg (by simp [hf, hn])]
  simp only [Bool.and_eq_true, decide_eq_true_eq]
  rw [hw]
  rfl

/-! ## The beginning of a board tile -/

theorem State.writesOnly.physOf {w : Reg → Prop} {s u : State} (h : s.writesOnly w u) (hs : Tab.sorted s.regs = true) (hw : ¬ w .tilePhys) (t : Nat) :
    u.physOf t = s.physOf t := by
  unfold State.physOf
  simp only [h.fld hs (f := Fld.tilePhysState) ⟨hw, by decide⟩, h.fld hs (f := Fld.tilePhysLogical) ⟨hw, by decide⟩]

/-- Between two states no register of the binding changes, and no tile but `p`. -/
def State.TouchesTile (p : Nat) (s u : State) : Prop :=
  s.writesOnly (· ≠ .tilePhys) u ∧ (Tab.sorted s.tiles = true → Tab.sorted u.tiles = true ∧ ∀ q, q ≠ p → u.tile q = s.tile q)

namespace State.TouchesTile

variable {p : Nat} {s t u : State}

theorem trans (h : s.TouchesTile p t) (h' : t.TouchesTile p u) : s.TouchesTile p u :=
  ⟨h.1.trans h'.1, fun hs => ⟨(h'.2 (h.2 hs).1).1, fun q hq => ((h'.2 (h.2 hs).1).2 q hq).trans ((h.2 hs).2 q hq)⟩⟩

theorem of_writesOnly (h : s.writesOnly (· ≠ .tilePhys) u) (ht : u.tiles = s.tiles) : s.TouchesTile p u :=
  ⟨h, fun hs => ⟨ht ▸ hs, fun q _ => State.tile_congr ht q⟩⟩

theorem refl (s : State) : s.TouchesTile p s := of_writesOnly .refl rfl

theorem setTile (s : State) (p : Nat) (tl : Tile) : s.TouchesTile p (s.setTile p tl) :=
  ⟨.of_regs rfl, fun hs => ⟨Tab.sorted_set hs, fun _ hq => State.tile_setTile_other hs hq tl⟩⟩

theorem physOf (h : s.TouchesTile p u) (hs : Tab.sorted s.regs = true) (k : Nat) : u.physOf k = s.physOf k :=
  h.1.physOf hs (by decide) k

end State.TouchesTile

/-- The end of residency sets the scratchpad of the serving tile fresh. -/
theorem State.endResidency_touches {s : State} {t p : Nat} (hs : Tab.sorted s.regs = true) (hp : s.physOf t = some p) : s.TouchesTile p (s.endResidency t) := by
  unfold State.endResidency
  split
  · next h =>
    have hregs : s.writesOnly (· ≠ .tilePhys) ((((s.setFlag Fld.tileResidencyValid t false).setFld Fld.tileResidencyHandle t 0).setFld
        Fld.tileResidencyTenant t 0).bump Fld.tileResidencyLosses t 1) :=
      .trans (.trans (.trans (.setFlag Fld.tileResidencyValid t false (by decide)) (.setFld Fld.tileResidencyHandle t 0 (by decide))) (.setFld Fld.tileResidencyTenant t 0 (by decide)))
        (.bump Fld.tileResidencyLosses t 1 (by decide))
    refine .trans (.of_writesOnly hregs (State.bump_tiles ..)) ?_
    unfold State.freshTile
    rw [hregs.physOf hs (by decide), hp]
    exact .setTile _ p _
  · exact .refl s

theorem State.resideAt_touches {s : State} {t p : Nat} (hs : Tab.sorted s.regs = true) (hp : s.physOf t = some p) (fn handle item resident : Nat) :
    s.TouchesTile p (s.resideAt t p fn handle item resident) := by
  unfold State.resideAt
  split
  · exact .setTile s p _
  · have hregs : ∀ v : State, v.TouchesTile p (((v.setFlag Fld.tileResidencyValid t true).setFld Fld.tileResidencyTenant t fn).setFld
        Fld.tileResidencyHandle t handle) := fun v =>
      .of_writesOnly (.trans (.trans (.setFlag Fld.tileResidencyValid t true (by decide)) (.setFld Fld.tileResidencyTenant t fn (by decide)))
        (.setFld Fld.tileResidencyHandle t handle (by decide))) rfl
    have hfresh := (State.endResidency_touches hs hp).trans (.setTile (s.endResidency t) p ((s.endResidency t).tile p).freshAll)
    refine .trans (hfresh.trans (hregs _)) ?_
    dsimp only
    split
    · exact .refl _
    · exact .of_writesOnly (.of_regs rfl) rfl

/-- A tile but for its DMA engines and the entries that wait for them. -/
def Tile.butDma (t : Tile) : Tile := { t with dma := [], dmaRest := [] }

theorem Tile.giveEngines_butDma (l : List DmaEntry) : ∀ t : Tile, (l.foldl Tile.giveEngine t).butDma = t.butDma := by
  induction l with
  | nil => exact fun _ => rfl
  | cons e l ih => exact fun t => (ih (t.giveEngine e)).trans rfl

/-- The hand-out of the DMA program touches the tile's engines. -/
theorem State.handOut_touches (s : State) (t p : Nat) : s.TouchesTile p (s.handOut t p) ∧
    (Tab.sorted s.tiles = true → ((s.handOut t p).tile p).butDma = (s.tile p).butDma) := by
  refine ⟨.trans (.setTile s p _) (.of_writesOnly (.trans (.of_regs rfl) (.setFld (w := (· ≠ .tilePhys)) Fld.tileSeqPeak t _ (by decide))) rfl), fun hs => ?_⟩
  have hself : (s.handOut t p).tile p = { (((s.tile p).dmaRest.take (min (s.tile p).dmaRest.length (512 - (s.tile p).inFlight))).foldl Tile.giveEngine (s.tile p)) with
      dmaRest := (s.tile p).dmaRest.drop (min (s.tile p).dmaRest.length (512 - (s.tile p).inFlight)) } := State.tile_setTile_self hs p _
  rw [hself]
  exact Tile.giveEngines_butDma _ (s.tile p)

/-- The part that a launch has on a board tile. -/
def Board.part (b : Board) (i : Item) (bt : Nat) (ts : TileStream) (since : Nat) : Part :=
  { item := i.id, tenant := i.fn, boardTile := bt, zorli := b.zorli, privAcc := ts.privAcc, spadUse := ts.spadUse, resident := ts.resident,
    syncUse := ts.syncUse, since := since }

theorem State.beginTile_eq {s : State} {b : Board} {bt p : Nat} (hp : s.physOf (b.logical bt) = some p) (i : Item) (l : Launch) (store : Tab Word32)
    (ts : TileStream) {v : State} (hv : v = s.resideAt (b.logical bt) p i.fn l.handle i.id ts.resident) :
    s.beginTile i l b store bt ts = (v.setTile p ((v.tile p).startPart ts (b.part i bt ts v.tally) store v.tally)).handOut (b.logical bt) p := by
  unfold State.beginTile
  simp only [hp]
  rw [hv]
  rfl

/-- A board tile begins: the binding and the other tiles stay, and its serving tile is at its launch-start values. -/
theorem State.beginTile_serving {s : State} {b : Board} {bt p : Nat} (hc : s.canonical = true) (hp : s.physOf (b.logical bt) = some p) (i : Item) (l : Launch)
    (store : Tab Word32) (ts : TileStream) : s.TouchesTile p (s.beginTile i l b store bt ts) ∧
      ∃ (tl : Tile) (q : Part) (tally : Nat), ((s.beginTile i l b store bt ts).tile p).butDma = (tl.startPart ts q store tally).butDma ∧ q.item = i.id := by
  have hr := State.resideAt_touches (State.canonical.regs hc) hp i.fn l.handle i.id ts.resident
  rw [State.beginTile_eq hp i l store ts rfl]
  generalize s.resideAt (b.logical bt) p i.fn l.handle i.id ts.resident = v at hr ⊢
  have hsorted := (hr.2 (State.canonical.tiles hc)).1
  have hstart := (v.setTile p ((v.tile p).startPart ts (b.part i bt ts v.tally) store v.tally)).handOut_touches (b.logical bt) p
  refine ⟨(hr.trans (.setTile v p _)).trans hstart.1, v.tile p, b.part i bt ts v.tally, v.tally, (hstart.2 (Tab.sorted_set hsorted)).trans ?_, rfl⟩
  rw [State.tile_setTile_self hsorted]

/-- Settles O34: the three commands at their conditions, and the tile at the start of its part. -/
theorem launchesAreCheckedArmedAndBegun : Obligations.LaunchesAreCheckedArmedAndBegun := by
  unfold Obligations.LaunchesAreCheckedArmedAndBegun
  refine ⟨fun s v item i l hi hl hp hb hm hv hf => ⟨fun hn => ?_, fun c hc => ?_⟩, fun s v item i l x hi hl hx hp hb hf hv => ⟨fun hn => ?_, fun k hk => ?_⟩,
    fun s v w item i l b x hi hl hb hx hp hc hf hn hv hw => ?_, fun s i l b store bt p ts hc hp => ?_⟩
  · obtain rfl : v = s.ordered4 item := hv
    rw [launchCheck_first hi hl hp hb hm hf, hn]
  · obtain rfl : v = s.ordered4 item := hv
    rw [launchCheck_first hi hl hp hb hm hf, hc]
    exact congrArg _ (State.accepted_reject ..)
  · subst hv
    rw [launchArm_fits hi hl hx hp hb hf, hn]
  · subst hv
    rw [launchArm_fits hi hl hx hp hb hf, hk]
  · subst hv
    exact launchBegin_free hi hl hb hx hp hc hf hn hw
  · obtain ⟨htouch, tl, q, tally, hserving, hitem⟩ := State.beginTile_serving hc hp i l store ts
    refine ⟨(htouch.physOf (State.canonical.regs hc) _).trans hp, ?_, (htouch.2 (State.canonical.tiles hc)).2⟩
    have hpart : ((s.beginTile i l b store bt ts).tile p).part = some q := (congrArg Tile.part hserving :)
    exact ⟨(congrArg Tile.stream hserving :), (congrArg Tile.pos hserving :), (congrArg Tile.loops hserving :), (congrArg Tile.acc hserving :),
      (congrArg Tile.masks hserving :), (congrArg Tile.syncCount hserving :), (congrArg Tile.syncThresh hserving :), (congrArg Tile.locket hserving :),
      (congrArg Tile.bangles hserving :), (congrArg Tile.active hserving :), (congrArg Tile.shadow hserving :), (congrArg Tile.tableStore hserving :),
      by rw [hpart]; exact congrArg some hitem⟩

end Sys2Proof.Machine
end

section
/-! SUPPORT. The set-points of the regions, the power states P0 to P2, and the wake between them (O57, first part). -/

namespace Sys2Proof.Machine

/-! ## Set-points -/

theorem State.applyPoint_eq (s : State) (r : Nat) : s.applyPoint r = { s with regs := (s.applyPoint r).regs } := rfl

theorem State.applyAll_eq : ∀ (l : List Nat) (s : State), l.foldl State.applyPoint s = { s with regs := (l.foldl State.applyPoint s).regs }
  | [], _ => rfl
  | r :: l, s => by rw [List.foldl_cons, State.applyAll_eq l (s.applyPoint r), State.applyPoint_eq s r]

theorem State.applyPoints_eq (s : State) : s.applyPoints = { s with regs := s.applyPoints.regs } := State.applyAll_eq _ s

/-- Register fields that change after a change of register fields and the power family: only these change. -/
theorem State.eq_of_points {s v u : State} (hv : v = { s with regs := v.regs, power := v.power }) (hu : u = { v with regs := u.regs }) :
    u = { s with regs := u.regs, power := u.power } := by
  rw [hu, hv]

theorem State.applyPoint_writesOnly (s : State) (r : Nat) : s.writesOnly (· = .pwrRegion) (s.applyPoint r) :=
  .trans (.trans (.setFld (w := (· = .pwrRegion)) Fld.pwrRegionSetpoint r _ (by decide))
    (.setFlag Fld.pwrRegionTherm r _ (by decide))) (.setFlag Fld.pwrRegionPower r _ (by decide))

theorem State.applyPoints_writesOnly (s : State) : s.writesOnly (· = .pwrRegion) s.applyPoints := .foldl State.applyPoint_writesOnly _ s

theorem State.p0Point_le (s : State) (r : Nat) : s.p0Point r ≤ 850 := by
  unfold State.p0Point State.vset
  omega

/-- The P0 set-point reads the limits of the power family and `VSET`. -/
theorem State.p0Point_congr {s u : State} (hv : u.fld Fld.pwrCfgVset 0 = s.fld Fld.pwrCfgVset 0) (hc : u.power.ceiling = s.power.ceiling)
    (ht : u.power.thermal = s.power.thermal) (r : Nat) : u.p0Point r = s.p0Point r := by
  simp only [State.p0Point, State.vset, State.thermalPoint, hv, hc, ht]

theorem State.writesOnly.p0Point {s u : State} {w : Reg → Prop} (h : s.writesOnly w u) (hs : Tab.sorted s.regs = true) (hw : ¬ w .pwrCfg)
    (hc : u.power.ceiling = s.power.ceiling) (ht : u.power.thermal = s.power.thermal) (r : Nat) : u.p0Point r = s.p0Point r :=
  State.p0Point_congr (h.fld hs (f := Fld.pwrCfgVset) ⟨hw, by decide⟩ 0) hc ht r

/-- A region's set-point in a state of which the regions' own fields are of no concern: not P3. -/
theorem State.pointOf_congr {s u : State} (hp : ∀ r, u.p0Point r = s.p0Point r) (hw : u.flag Fld.pwrStatWaking 0 = s.flag Fld.pwrStatWaking 0)
    (hst : u.fld Fld.pwrStatState 0 = s.fld Fld.pwrStatState 0) {r : Nat} (hf : u.fld Fld.pwrRegionSetpoint r = s.fld Fld.pwrRegionSetpoint r) :
    u.pointOf r = s.pointOf r := by
  simp only [State.pointOf, hp, hw, hst, hf]

/-- Applying the set-point of a region leaves the one of another. -/
theorem State.applyPoint_other {s : State} (hs : Tab.sorted s.regs = true) {q r : Nat} (h : q ≠ r) :
    (s.applyPoint q).fld Fld.pwrRegionSetpoint r = s.fld Fld.pwrRegionSetpoint r ∧ (s.applyPoint q).pointOf r = s.pointOf r := by
  have h1 := State.sorted_setFld hs Fld.pwrRegionSetpoint q (s.pointOf q)
  have hf : (s.applyPoint q).fld Fld.pwrRegionSetpoint r = s.fld Fld.pwrRegionSetpoint r :=
    (State.fld_setFld_ne (State.sorted_setFld h1 ..) (.inl h) _ (by decide)).trans
      ((State.fld_setFld_ne h1 (.inl h) _ (by decide)).trans (State.fld_setFld_ne hs (.inl h) _ (by decide)))
  have hw := State.applyPoint_writesOnly s q
  exact ⟨hf, State.pointOf_congr (hw.p0Point hs (by decide) rfl rfl) (hw.flag hs (by decide) 0) (hw.fld hs (f := Fld.pwrStatState) (by decide) 0) hf⟩

theorem State.applyPoint_self {s : State} (hs : Tab.sorted s.regs = true) (r : Nat) : (s.applyPoint r).fld Fld.pwrRegionSetpoint r = s.pointOf r % 1024 := by
  have h1 := State.sorted_setFld hs Fld.pwrRegionSetpoint r (s.pointOf r)
  refine (State.fld_setFld_ne (State.sorted_setFld h1 ..) (.inr (.inr (by decide))) _ (by decide)).trans ?_
  refine (State.fld_setFld_ne h1 (.inr (.inr (by decide))) _ (by decide)).trans ?_
  exact State.fld_setFld_self hs _ _ _

/-- Each region takes its set-point. -/
theorem State.applyPoints_setpoint {s : State} (hs : Tab.sorted s.regs = true) {r v : Nat} (hr : r < 16) (hp : s.pointOf r = v) (hv : v ≤ 850) :
    s.applyPoints.fld Fld.pwrRegionSetpoint r = v := by
  have h : s.applyPoints.fld Fld.pwrRegionSetpoint r = s.pointOf r % 1024 :=
    State.foldl_sets (I := fun s => Tab.sorted s.regs = true) (T := fun s => s.fld Fld.pwrRegionSetpoint r) (P := fun s => s.pointOf r % 1024)
      (fun s q hs => (s.applyPoint_writesOnly q hs).1)
      (fun _ _ hs hq => ⟨(State.applyPoint_other hs hq).1, congrArg (· % 1024) (State.applyPoint_other hs hq).2⟩)
      (fun _ hs => State.applyPoint_self hs r) List.nodup_range (List.mem_range.2 hr) s hs
  rw [h, hp, Nat.mod_eq_of_lt (by omega)]

/-- After the set-points are applied a field of another register reads as before. -/
theorem State.applyPoints_fld {s : State} (hs : Tab.sorted s.regs = true) {f : Field} (hf : f.reg ≠ .pwrRegion ∧ f.lo < 1024) (i : Nat) :
    s.applyPoints.fld f i = s.fld f i := s.applyPoints_writesOnly.fld hs hf i

theorem State.applyPoints_flag {s : State} (hs : Tab.sorted s.regs = true) {f : Field} (hf : f.reg ≠ .pwrRegion ∧ f.lo < 1024) (i : Nat) :
    s.applyPoints.flag f i = s.flag f i := s.applyPoints_writesOnly.flag hs hf i

theorem State.pointOf_waking {s : State} (h : s.flag Fld.pwrStatWaking 0 = true) (r : Nat) : s.pointOf r = s.p0Point r := by simp [State.pointOf, h]

theorem State.pointOf_p0 {s : State} (h : s.fld Fld.pwrStatState 0 = 0) (r : Nat) : s.pointOf r = s.p0Point r := by simp [State.pointOf, h]

theorem State.pointOf_p1 {s : State} (hw : s.flag Fld.pwrStatWaking 0 = false) (h : s.fld Fld.pwrStatState 0 = 1) (r : Nat) : s.pointOf r = min 640 (s.p0Point r) := by
  simp [State.pointOf, hw, h]

theorem State.pointOf_p2 {s : State} (hw : s.flag Fld.pwrStatWaking 0 = false) (h : s.fld Fld.pwrStatState 0 = 2) (r : Nat) : s.pointOf r = 520 := by
  simp [State.pointOf, hw, h]

/-! ## P1 -/

/-- P1 as it is entered, before the set-points follow. -/
def State.inP1 (s : State) : State := { s with power := { s.power with p1From := some s.tally } }.setFld Fld.pwrStatState 0 1

theorem State.inP1_writesOnly (s : State) : s.writesOnly (· = .pwrStat) s.inP1 :=
  .trans (t := { s with power := { s.power with p1From := some s.tally } }) (.of_regs rfl) (.setFld Fld.pwrStatState 0 1 (by decide))

theorem State.inP1_reads {s : State} (hs : Tab.sorted s.regs = true) : s.inP1.fld Fld.pwrStatState 0 = 1 ∧
    s.inP1.flag Fld.pwrStatWaking 0 = s.flag Fld.pwrStatWaking 0 ∧ ∀ r, s.inP1.p0Point r = s.p0Point r :=
  ⟨State.fld_setFld_self (s := { s with power := { s.power with p1From := some s.tally } }) hs _ _ _,
    State.flag_setFld_ne (s := { s with power := { s.power with p1From := some s.tally } }) hs (.inr (.inr (by decide))) _ (by decide),
    s.inP1_writesOnly.p0Point hs (by decide) rfl rfl⟩

theorem State.target_pos {s : State} : 1 ≤ s.target ↔ 1 ≤ s.fld Fld.pwrCtlTarget 0 := by unfold State.target; omega

theorem State.target_two {s : State} : s.target = 2 ↔ 2 ≤ s.fld Fld.pwrCtlTarget 0 := by unfold State.target; omega

/-- The condition of `P1_ENTRY` (R424). -/
theorem p1Entry_cond {s : State} {f : Nat} : ((1 ≤ s.target && s.inP0 && !s.busy && f + s.idleCounts ≤ s.tally : Bool) = true) ↔
    (1 ≤ s.fld Fld.pwrCtlTarget 0 ∧ s.inP0 = true ∧ s.busy = false ∧ f + 1000 * max 1 (s.fld Fld.pwrCtlIdleUs 0) ≤ s.tally) := by
  simp only [Bool.and_eq_true, decide_eq_true_eq, Bool.not_eq_true', State.target_pos, and_assoc]
  rfl

theorem p1Entry_enters (s : State) (f : Nat) (hc : s.canonical = true) (hf : s.power.idleFrom = some f) :
    ((1 ≤ s.fld Fld.pwrCtlTarget 0 ∧ s.inP0 = true ∧ s.busy = false ∧ f + 1000 * max 1 (s.fld Fld.pwrCtlIdleUs 0) ≤ s.tally) → ∃ u, exec .p1Entry s = .next u ∧
      u.fld Fld.pwrStatState 0 = 1 ∧ u.power = { s.power with p1From := some s.tally } ∧ u = { s with regs := u.regs, power := u.power } ∧
      s.regsBut u [.pwrStat, .pwrRegion] ∧
      (s.flag Fld.pwrStatWaking 0 = false → ∀ r, r < 16 → u.fld Fld.pwrRegionSetpoint r = min 640 (s.p0Point r))) ∧
    (¬ (1 ≤ s.fld Fld.pwrCtlTarget 0 ∧ s.inP0 = true ∧ s.busy = false ∧ f + 1000 * max 1 (s.fld Fld.pwrCtlIdleUs 0) ≤ s.tally) → exec .p1Entry s = .next s) := by
  have hexec : exec .p1Entry s = whenever (1 ≤ s.target && s.inP0 && !s.busy && f + s.idleCounts ≤ s.tally) s s.inP1.applyPoints := by
    show execP1Entry s = _
    unfold execP1Entry
    rw [hf]
    rfl
  rw [hexec]
  refine ⟨fun h => ?_, fun h => whenever_neg (Bool.eq_false_iff.2 (mt p1Entry_cond.1 h))⟩
  have hs := State.canonical.regs hc
  have h1 := (s.inP1_writesOnly hs).1
  obtain ⟨hst, hwk, hp⟩ := State.inP1_reads hs
  refine ⟨s.inP1.applyPoints, whenever_pos (p1Entry_cond.2 h), (State.applyPoints_fld h1 (by decide) 0).trans hst, ?_, ?_, ?_, fun hw r hr => ?_⟩
  · exact congrArg State.power s.inP1.applyPoints_eq
  · exact State.eq_of_points rfl s.inP1.applyPoints_eq
  · refine State.writesOnly.regsBut ?_ hs
    exact (s.inP1_writesOnly.mono (by simp)).trans (s.inP1.applyPoints_writesOnly.mono (by simp))
  · refine State.applyPoints_setpoint h1 hr ?_ (by omega)
    rw [State.pointOf_p1 (hwk.trans hw) hst, hp]

end Sys2Proof.Machine
end

section
/-! SUPPORT. P2 and the wake (O57, second part). -/

namespace Sys2Proof.Machine

/-! ## P2 -/

theorem State.assayIdle_writesOnly (s : State) : s.writesOnly (· = .assayStat) s.assayIdle :=
  .trans (t := { s with assay := { s.assay with unit := none } }) (.of_regs rfl) (.setFld Fld.assayStatBusy 0 0 (by decide))

theorem State.journal_writesOnly {w : Reg → Prop} (s : State) (ty : Nat) (args : List Nat) : s.writesOnly w (s.journal ty args) := .of_regs rfl

theorem State.stopAssay_writesOnly (s : State) : s.writesOnly (fun r => r = .assayStat ∨ r = .tilePhys) s.stopAssay := by
  unfold State.stopAssay
  split
  · exact .refl
  · have hidle := s.assayIdle_writesOnly.mono (w' := fun r => r = .assayStat ∨ r = .tilePhys) fun _ => .inl
    dsimp only
    split
    · next p _ => exact hidle.trans (.trans (.setFld Fld.tilePhysState p _ (by decide)) (State.journal_writesOnly _ _ _))
    · exact hidle
    · exact hidle

/-- Nothing is under test any more, and the registers of the power family's limits keep theirs. -/
theorem State.stopAssay_family (s : State) : s.stopAssay.assay.unit = none ∧ s.stopAssay.power = s.power := by
  unfold State.stopAssay
  split
  · next h => exact ⟨h, rfl⟩
  · dsimp only
    split <;> exact ⟨rfl, rfl⟩

/-- The tile under test keeps the state that it had before. -/
theorem State.stopAssay_tile {s : State} (hs : Tab.sorted s.regs = true) {p prior : Nat} (h : s.assay.unit = some (.tile p, prior)) (hp : prior < 8) :
    s.stopAssay.fld Fld.tilePhysState p = prior := by
  have heq : s.stopAssay = (s.assayIdle.setFld Fld.tilePhysState p prior).journal recTile ((s.assayIdle.setFld Fld.tilePhysState p prior).tileRecord p) := by
    unfold State.stopAssay; rw [h]
  rw [heq, State.fld_congr (State.journal_regs ..)]
  exact (State.fld_setFld_self (s.assayIdle_writesOnly hs).1 _ _ _).trans (Nat.mod_eq_of_lt hp)

theorem State.stopRates_writesOnly (s : State) : s.writesOnly (· = .coreRate) s.stopRates :=
  .foldl (fun s r => .setFld (w := (· = .coreRate)) Fld.coreRateRate r 0 (by decide)) _ s

theorem State.stopRates_rate {s : State} (hs : Tab.sorted s.regs = true) {r : Nat} (hr : r < 16) : s.stopRates.fld Fld.coreRateRate r = 0 :=
  State.foldl_sets (I := fun s => Tab.sorted s.regs = true) (T := fun s => s.fld Fld.coreRateRate r) (P := fun _ => 0)
    (fun _ _ hs => State.sorted_setFld hs ..) (fun _ _ hs hq => ⟨State.fld_setFld_ne hs (.inl hq) _ (by decide), rfl⟩)
    (fun _ hs => State.fld_setFld_self hs _ _ _) List.nodup_range (List.mem_range.2 hr) s hs

theorem State.setFld_family (s : State) (f : Field) (i v : Nat) : ((s.setFld f i v).assay, (s.setFld f i v).power) = (s.assay, s.power) := rfl

theorem State.stopRates_family (s : State) : s.stopRates.assay = s.assay ∧ s.stopRates.power = s.power := by
  have h : (s.stopRates.assay, s.stopRates.power) = (s.assay, s.power) :=
    State.foldl_same (g := fun s : State => (s.assay, s.power)) (fun s r => s.setFld_family Fld.coreRateRate r 0) (List.range 16) s
  exact Prod.mk.inj h

/-- P2 as it is entered, before the rate monitors stop. -/
def State.inP2 (s : State) : State := (s.stopAssay.setFld Fld.pwrStatState 0 2).bump Fld.pwrStatP2Entries 0 1

theorem State.bump_family (s : State) (f : Field) (i n : Nat) : (s.bump f i n).assay = s.assay ∧ (s.bump f i n).power = s.power := by
  unfold State.bump
  split <;> exact ⟨rfl, rfl⟩

theorem State.inP2_family (s : State) : s.inP2.assay.unit = none ∧ s.inP2.power = s.power :=
  have hb := State.bump_family (s.stopAssay.setFld Fld.pwrStatState 0 2) Fld.pwrStatP2Entries 0 1
  ⟨(congrArg Assay.unit hb.1).trans s.stopAssay_family.1, hb.2.trans s.stopAssay_family.2⟩

/-- What P2 reads before the rate monitors stop. -/
theorem State.inP2_reads {s : State} (hs : Tab.sorted s.regs = true) (hw : s.flag Fld.pwrStatWaking 0 = false) : Tab.sorted s.inP2.regs = true ∧
    s.inP2.fld Fld.pwrStatState 0 = 2 ∧ s.inP2.flag Fld.pwrStatWaking 0 = false ∧ s.inP2.fld Fld.pwrStatP2Entries 0 = s.counted Fld.pwrStatP2Entries 0 1 ∧
    ∀ p, s.inP2.fld Fld.tilePhysState p = s.stopAssay.fld Fld.tilePhysState p := by
  have ha := s.stopAssay_writesOnly
  have h1 := (ha hs).1
  have h2 : Tab.sorted (s.stopAssay.setFld Fld.pwrStatState 0 2).regs = true := State.sorted_setFld h1 ..
  have hb : (s.stopAssay.setFld Fld.pwrStatState 0 2).writesOnly (· = .pwrStat) s.inP2 := .bump (w := (· = .pwrStat)) Fld.pwrStatP2Entries 0 1 (by decide)
  have hp2 : (s.stopAssay.setFld Fld.pwrStatState 0 2).fld Fld.pwrStatP2Entries 0 = s.fld Fld.pwrStatP2Entries 0 :=
    (State.fld_setFld_ne h1 (.inr (.inr (by decide))) _ (by decide)).trans (ha.fld hs (f := Fld.pwrStatP2Entries) (by decide) 0)
  have hne : ∀ f : Field, f.lo < 1024 → f.lo ≠ Fld.pwrStatP2Entries.lo →
      s.inP2.fld f 0 = (s.stopAssay.setFld Fld.pwrStatState 0 2).fld f 0 :=
    fun f hf hl => State.fld_bump_ne (Field.key_ne (by decide) hf (.inr (.inr hl.symm))) rfl (by decide)
  refine ⟨(hb h2).1, (hne _ (by decide) (by decide)).trans (State.fld_setFld_self h1 _ _ _), ?_, (State.fld_bump_self h2 ..).trans ?_, fun p => ?_⟩
  · unfold State.flag
    rw [hne _ (by decide) (by decide)]
    exact (State.flag_setFld_ne h1 (.inr (.inr (by decide))) _ (by decide)).trans ((ha.flag hs (f := Fld.pwrStatWaking) (by decide) 0).trans hw)
  · unfold State.counted; rw [hp2]
  · exact (hb.fld h2 (f := Fld.tilePhysState) (by decide) p).trans (State.fld_setFld_ne h1 (.inr (.inl (by decide))) _ (by decide))

/-- The condition of `P2_ENTRY` (R424). -/
theorem p2Entry_cond {s : State} {f : Nat} : ((s.target == 2 && s.fld Fld.pwrStatState 0 == 1 && !s.flag Fld.pwrStatWaking 0 && !s.busy &&
      f + 10 * s.idleCounts ≤ s.tally : Bool) = true) ↔
    (2 ≤ s.fld Fld.pwrCtlTarget 0 ∧ s.fld Fld.pwrStatState 0 = 1 ∧ s.flag Fld.pwrStatWaking 0 = false ∧ s.busy = false ∧
        f + 10 * (1000 * max 1 (s.fld Fld.pwrCtlIdleUs 0)) ≤ s.tally) := by
  simp only [Bool.and_eq_true, beq_iff_eq, decide_eq_true_eq, Bool.not_eq_true', State.target_two, and_assoc]
  rfl

theorem p2Entry_enters (s : State) (f : Nat) (hc : s.canonical = true) (hf : s.power.p1From = some f) :
    ((2 ≤ s.fld Fld.pwrCtlTarget 0 ∧ s.fld Fld.pwrStatState 0 = 1 ∧ s.flag Fld.pwrStatWaking 0 = false ∧ s.busy = false ∧
        f + 10 * (1000 * max 1 (s.fld Fld.pwrCtlIdleUs 0)) ≤ s.tally) → ∃ u, exec .p2Entry s = .next u ∧
      u.fld Fld.pwrStatState 0 = 2 ∧ u.fld Fld.pwrStatP2Entries 0 = s.counted Fld.pwrStatP2Entries 0 1 ∧ u.assay.unit = none ∧
      (∀ p prior, s.assay.unit = some (.tile p, prior) → prior < 8 → u.fld Fld.tilePhysState p = prior) ∧
      ∀ r, r < 16 → u.fld Fld.pwrRegionSetpoint r = 520 ∧ u.fld Fld.coreRateRate r = 0) ∧
    (¬ (2 ≤ s.fld Fld.pwrCtlTarget 0 ∧ s.fld Fld.pwrStatState 0 = 1 ∧ s.flag Fld.pwrStatWaking 0 = false ∧ s.busy = false ∧
        f + 10 * (1000 * max 1 (s.fld Fld.pwrCtlIdleUs 0)) ≤ s.tally) → exec .p2Entry s = .next s) := by
  have hexec : exec .p2Entry s = whenever (s.target == 2 && s.fld Fld.pwrStatState 0 == 1 && !s.flag Fld.pwrStatWaking 0 && !s.busy &&
      f + 10 * s.idleCounts ≤ s.tally) s s.inP2.stopRates.applyPoints := by
    show execP2Entry s = _
    unfold execP2Entry
    rw [hf]
    rfl
  rw [hexec]
  refine ⟨fun h => ?_, fun h => whenever_neg (Bool.eq_false_iff.2 (mt p2Entry_cond.1 h))⟩
  have hs := State.canonical.regs hc
  obtain ⟨h2, hst, hwk, hct, htp⟩ := State.inP2_reads hs h.2.2.1
  have hr := s.inP2.stopRates_writesOnly
  have h3 := (hr h2).1
  refine ⟨s.inP2.stopRates.applyPoints, whenever_pos (p2Entry_cond.2 h), ?_, ?_, ?_, fun p prior hu hp => ?_, fun r hlt => ⟨?_, ?_⟩⟩
  · rw [State.applyPoints_fld h3 (by decide), hr.fld h2 (by decide), hst]
  · rw [State.applyPoints_fld h3 (by decide), hr.fld h2 (by decide), hct]
  · rw [State.applyPoints_eq]
    exact (congrArg Assay.unit s.inP2.stopRates_family.1).trans s.inP2_family.1
  · rw [State.applyPoints_fld h3 (by decide), hr.fld h2 (by decide), htp, State.stopAssay_tile hs hu hp]
  · refine State.applyPoints_setpoint h3 hlt (State.pointOf_p2 ?_ ?_ r) (by omega)
    · rw [hr.flag h2 (by decide), hwk]
    · rw [hr.fld h2 (by decide), hst]
  · rw [State.applyPoints_fld h3 (by decide), State.stopRates_rate h2 hlt]

/-! ## The wake -/

theorem State.startWake_idle {s : State} (h : s.fld Fld.pwrStatState 0 = 0 ∨ s.fld Fld.pwrStatState 0 = 3 ∨ s.flag Fld.pwrStatWaking 0 = true) : s.startWake = s := by
  unfold State.startWake
  rcases h with h | h | h <;> simp [h]

theorem State.startWake_ramps {s : State} (hs : Tab.sorted s.regs = true) (hst : s.fld Fld.pwrStatState 0 = 1 ∨ s.fld Fld.pwrStatState 0 = 2)
    (hw : s.flag Fld.pwrStatWaking 0 = false) : s.startWake.flag Fld.pwrStatWaking 0 = true ∧
      s.startWake.fld Fld.pwrStatState 0 = s.fld Fld.pwrStatState 0 ∧ ∀ r, r < 16 → s.startWake.fld Fld.pwrRegionSetpoint r = s.p0Point r := by
  have heq : s.startWake = (s.setFlag Fld.pwrStatWaking 0 true).applyPoints := by
    unfold State.startWake
    rcases hst with h | h <;> simp [h, hw]
  have hset : s.writesOnly (· = .pwrStat) (s.setFlag Fld.pwrStatWaking 0 true) := .setFlag (w := (· = .pwrStat)) Fld.pwrStatWaking 0 true (by decide)
  have h1 := (hset hs).1
  have hwk := State.flag_setFlag_self hs (f := Fld.pwrStatWaking) rfl 0 true
  rw [heq]
  refine ⟨?_, ?_, fun r hr => State.applyPoints_setpoint h1 hr ?_ ?_⟩
  · rw [State.applyPoints_flag h1 (by decide), hwk]
  · rw [State.applyPoints_fld h1 (by decide)]
    exact State.fld_setFld_ne hs (.inr (.inr (by decide))) _ (by decide)
  · rw [State.pointOf_waking hwk, hset.p0Point hs (by decide) rfl rfl]
  · exact s.p0Point_le r

/-- P0 as a wake ends, before the set-points follow and what waited is served. -/
def State.woken (s : State) : State :=
  (({ s with power := { s.power with idleFrom := none, p1From := none } }).setFlag Fld.pwrStatWaking 0 false).setFld Fld.pwrStatState 0 0

theorem State.woken_reads {s : State} (hs : Tab.sorted s.regs = true) : s.writesOnly (· = .pwrStat) s.woken ∧ s.woken.fld Fld.pwrStatState 0 = 0 ∧
    s.woken.flag Fld.pwrStatWaking 0 = false ∧ ∀ r, s.woken.p0Point r = s.p0Point r := by
  let v : State := { s with power := { s.power with idleFrom := none, p1From := none } }
  have hw : s.writesOnly (· = .pwrStat) s.woken :=
    .trans (t := v) (.of_regs rfl) (.trans (.setFlag (w := (· = .pwrStat)) Fld.pwrStatWaking 0 false (by decide)) (.setFld Fld.pwrStatState 0 0 (by decide)))
  have h1 : Tab.sorted (v.setFlag Fld.pwrStatWaking 0 false).regs = true := State.sorted_setFld (s := v) hs ..
  exact ⟨hw, State.fld_setFld_self h1 _ _ _,
    (State.flag_setFld_ne h1 (.inr (.inr (by decide))) _ (by decide)).trans (State.flag_setFlag_self (s := v) hs rfl 0 false), hw.p0Point hs (by decide) rfl rfl⟩

end Sys2Proof.Machine
end

section
/-! SUPPORT. The end of a wake (O57, third part). -/

namespace Sys2Proof.Machine

theorem State.applyPoints_family (s : State) : s.applyPoints.waiting = s.waiting ∧ s.applyPoints.power = s.power := by
  have h := s.applyPoints_eq
  generalize s.applyPoints = u at h
  rw [h]
  exact ⟨rfl, rfl⟩

theorem State.eq_of_waiting {s u : State} (h : u = { s with regs := u.regs, power := u.power }) :
    { u with waiting := [] } = { s with waiting := [], regs := u.regs, power := u.power } := by
  rw [h]

/-- `WAKE_COMPLETE` while a wake is in progress: the waiting accesses are served from the woken state. -/
theorem wakeComplete_waking {s : State} (h : s.flag Fld.pwrStatWaking 0 = true) :
    exec .wakeComplete s = .next (s.waiting.foldl State.serveWaiting { s.woken.applyPoints with waiting := [] }) := by
  have hw : s.woken.applyPoints.waiting = s.waiting := (State.applyPoints_family s.woken).1
  rw [← hw]
  show execWakeComplete s = _
  unfold execWakeComplete
  rw [if_pos h]
  rfl

theorem wakeComplete_awake {s : State} (h : s.flag Fld.pwrStatWaking 0 = false) :
    exec .wakeComplete s = .next (if s.inP0 = true then s.waiting.foldl State.serveWaiting { s with waiting := [] } else s) := by
  show execWakeComplete s = _
  unfold execWakeComplete
  rw [h]
  rfl

theorem wakeComplete_serves (s : State) (hs : Tab.sorted s.regs = true) (hw : s.flag Fld.pwrStatWaking 0 = true) :
    ∃ u, exec .wakeComplete s = .next (s.waiting.foldl State.serveWaiting u) ∧ u.waiting = [] ∧ u.inP0 = true ∧
      u.flag Fld.pwrStatWaking 0 = false ∧ u.power.idleFrom = none ∧ u.power.p1From = none ∧ u.power.thermal = s.power.thermal ∧
      u = { s with waiting := [], regs := u.regs, power := u.power } ∧ s.regsBut u [.pwrStat, .pwrRegion] ∧
      ∀ r, r < 16 → u.fld Fld.pwrRegionSetpoint r = s.p0Point r := by
  obtain ⟨hwk, hst, hfl, hp⟩ := State.woken_reads hs
  have h1 := (hwk hs).1
  have hframe : s.woken.applyPoints = { s with regs := s.woken.applyPoints.regs, power := s.woken.applyPoints.power } :=
    State.eq_of_points rfl s.woken.applyPoints_eq
  have hpow := (State.applyPoints_family s.woken).2
  have hstate := (State.applyPoints_fld h1 (f := Fld.pwrStatState) (by decide) 0).trans hst
  have hflag := (State.applyPoints_flag h1 (f := Fld.pwrStatWaking) (by decide) 0).trans hfl
  have hbut : s.regsBut s.woken.applyPoints [.pwrStat, .pwrRegion] :=
    ((hwk.mono (by simp)).trans (s.woken.applyPoints_writesOnly.mono (by simp))).regsBut hs
  have hpoint : ∀ r, r < 16 → s.woken.applyPoints.fld Fld.pwrRegionSetpoint r = s.p0Point r := fun r hr =>
    State.applyPoints_setpoint h1 hr ((State.pointOf_p0 hst r).trans (hp r)) (s.p0Point_le r)
  have hexec := wakeComplete_waking hw
  generalize s.woken.applyPoints = u at *
  exact ⟨{ u with waiting := [] }, hexec, rfl, beq_iff_eq.2 hstate, hflag, (congrArg Power.idleFrom hpow :), (congrArg Power.p1From hpow :),
    (congrArg Power.thermal hpow :), State.eq_of_waiting hframe, hbut, hpoint⟩

theorem State.serve_registerWrite {s t : State} {a : Agent} {o n : Nat} {v : Word64} (h : exec (.registerWrite a o n v) s = .next t) : s.serve (.registerWrite a o n v) = t := by
  have hv : s.serve (.registerWrite a o n v) = s.via (exec (.registerWrite a o n v) s) := rfl
  rw [hv, h]; rfl

theorem State.serve_sqTailWrite {s t : State} {f r : Nat} {v : Word32} (h : exec (.sqTailWrite f r v) s = .next t) : s.serve (.sqTailWrite f r v) = t := by
  have hv : s.serve (.sqTailWrite f r v) = s.via (exec (.sqTailWrite f r v) s) := rfl
  rw [hv, h]; rfl

end Sys2Proof.Machine
end

section
/-! SUPPORT. Power off, the way out of P3 and the hard trip (O57, fourth part). -/

namespace Sys2Proof.Machine

/-! ## Power off -/

/-- `PWR_CTL_OFF` of the host's driver or the MGC (R426). -/
theorem pwrCtlOff_eq {s : State} {a : Agent} (ha : a = .hostPf ∨ a = .mgc) : exec (.pwrCtlOff a) s = if s.fld Fld.pwrStatState 0 = 3 || !s.agentActs a then .next s
    else onAccess (.pwrCtlOff a) s (fun s => if s.mayPowerOff then s.enterP3 else s) := by
  rcases ha with rfl | rfl <;> rfl

theorem pwrCtlOff_ignored {s : State} {a : Agent} (ha : a = .hostPf ∨ a = .mgc) (h : s.fld Fld.pwrStatState 0 = 3 ∨ s.agentActs a = false) :
    exec (.pwrCtlOff a) s = .next s := by
  rw [pwrCtlOff_eq ha, if_pos]
  simpa using h

theorem pwrCtlOff_p0 {s : State} {a : Agent} (ha : a = .hostPf ∨ a = .mgc) (hp : s.inP0 = true) (hact : s.agentActs a = true) :
    exec (.pwrCtlOff a) s = .next (if s.mayPowerOff = true then s.enterP3 else s) := by
  have h0 : s.fld Fld.pwrStatState 0 = 0 := beq_iff_eq.1 hp
  rw [pwrCtlOff_eq ha, if_neg (by simp [h0, hact]), onAccess_p0 hp]

theorem pwrCtlOff_asleep {s : State} {a : Agent} (ha : a = .hostPf ∨ a = .mgc) (hst : s.fld Fld.pwrStatState 0 = 1 ∨ s.fld Fld.pwrStatState 0 = 2)
    (hact : s.agentActs a = true) : exec (.pwrCtlOff a) s = .next { s.startWake with waiting := s.waiting ++ [.pwrCtlOff a] } := by
  have hp : s.inP0 = false := by
    unfold State.inP0
    rcases hst with h | h <;> simp [h]
  rw [pwrCtlOff_eq ha, if_neg (by rcases hst with h | h <;> simp [h, hact]), onAccess_asleep hp]
  exact congrArg Host.Outcome.next (if_pos hst)

theorem pwrCtlOff_vf {s : State} {v : Nat} (h1 : v < 64) (h2 : 1 ≤ v) : exec (.pwrCtlOff (.hostVf v)) s = .next s :=
  onUnit_ok (by simp [Agent.wf, h1, h2])

theorem mctpOff_eq (s : State) : exec .mctpOff s = .next (if s.mgcServes = true ∧ s.mayPowerOff = true then s.enterP3 else s) := by
  show whenever (s.mgcServes && s.mayPowerOff) s s.enterP3 = _
  simp only [whenever, Bool.and_eq_true]

/-- When P3 may be entered (R426). -/
theorem State.mayPowerOff_iff (s : State) : s.mayPowerOff = true ↔
    s.fld Fld.pwrStatState 0 ≠ 3 ∧ (∀ f, 1 ≤ f → f < 64 → s.fnState f = 0) ∧ (∀ k, k < 64 → s.flag Fld.ringCfgActive k = false) ∧ s.items = [] := by
  have hfn : (∀ k, k < 63 → s.fnState (k + 1) = 0) ↔ ∀ f, 1 ≤ f → f < 64 → s.fnState f = 0 :=
    ⟨fun h f h1 h2 => (show f - 1 + 1 = f by omega) ▸ h (f - 1) (by omega), fun h k hk => h (k + 1) (by omega) (by omega)⟩
  unfold State.mayPowerOff
  simp [List.all_eq_true, ← hfn, and_assoc]

/-! ## P3 is left -/

theorem State.leaveP3_stays {s : State} (h : s.fld Fld.pwrStatState 0 ≠ 3 ∨ s.pins.tripLatch ≠ none ∨ s.flag Fld.pwrStatTripped 0 = true) : s.leaveP3 = s := by
  unfold State.leaveP3
  refine if_neg ?_
  rcases h with h | h | h
  · simp [h]
  · simp [Option.isNone_iff_eq_none, h]
  · simp [h]

theorem State.leaveP3_eq {s : State} (h3 : s.fld Fld.pwrStatState 0 = 3) (hl : s.pins.tripLatch = none) (ht : s.flag Fld.pwrStatTripped 0 = false) :
    s.leaveP3 = ((s.setFld Fld.pwrStatState 0 0).setFlag Fld.setupStatFromP3 0 true).setFld Fld.setupStatPhase 0 3 := by
  unfold State.leaveP3
  exact if_pos (by simp [h3, hl, ht])

theorem State.leaveP3_reads {s : State} (hs : Tab.sorted s.regs = true) (h3 : s.fld Fld.pwrStatState 0 = 3) (hl : s.pins.tripLatch = none)
    (ht : s.flag Fld.pwrStatTripped 0 = false) : s.leaveP3.inP0 = true ∧ s.leaveP3.flag Fld.setupStatFromP3 0 = true ∧
      s.leaveP3.fld Fld.setupStatPhase 0 = 3 ∧ s.leaveP3.tally = s.tally := by
  have h1 := State.sorted_setFld hs Fld.pwrStatState 0 0
  have h2 := State.sorted_setFld h1 Fld.setupStatFromP3 0 1
  rw [State.leaveP3_eq h3 hl ht]
  refine ⟨beq_iff_eq.2 ?_, ?_, State.fld_setFld_self h2 _ _ _, rfl⟩
  · exact (State.fld_setFld_ne h2 (.inr (.inl (by decide))) _ (by decide)).trans
      ((State.fld_setFld_ne h1 (.inr (.inl (by decide))) _ (by decide)).trans (State.fld_setFld_self hs _ _ _))
  · exact (State.flag_setFld_ne h2 (.inr (.inr (by decide))) _ (by decide)).trans (State.flag_setFlag_self h1 rfl 0 true)

theorem wakeNAssert_eq (s : State) (low : Bool) : exec (.wakeNAssert low) s =
    .next (if low = true ∧ s.mainGood = true then { s with pins := { s.pins with wakeN := false } }.leaveP3 else { s with pins := { s.pins with wakeN := !low } }) := by
  cases low with
  | true =>
    cases hm : s.mainGood with
    | true =>
      show Host.Outcome.next (if true && s.mainGood then _ else _) = _
      rw [hm]
      rfl
    | false =>
      show Host.Outcome.next (if true && s.mainGood then _ else _) = _
      rw [hm]
      rfl
  | false => rfl

/-! ## The hard trip -/

theorem hardTrip_eq {s v w : State} {n first : Nat} (hn : n < 384) (hv : s.pins.vaux = true) (hf : first = s.pins.tripLatch.getD n)
    (hdef : v = (({ s with pins := { s.pins with tripLatch := some first, stillHot := true } }).setFlag Fld.pwrStatTripped 0 true).setFld Fld.pwrStatTripSensor 0 first)
    (hw : w = (if s.awake = true then v.enterP3 else v)) :
    exec (.hardTrip n) s = .next (if w.sec.mgcRuns = true then w.journal recTrip [n, w.sensor n] else w) := by
  have ha : s.awake = v.awake := by rw [hdef]; rfl
  rw [ha] at hw
  show execHardTrip n s = _
  unfold execHardTrip
  rw [onUnit_ok (by simp [hn]), whenever_pos hv, ← hf]
  dsimp only
  rw [← hdef, ← hw]

theorem State.thermtripDriven_iff {s : State} (hb : s.scanned (.side .thermtripN) = false) (hz : s.scanHighz = false) (hv : s.pins.vaux = true)
    (hr : s.pinCondition ≠ .running) : s.thermtripDriven = true ↔ s.pins.tripLatch ≠ none := by
  have hu : s.pinCondition ≠ .unpowered := by
    unfold State.pinCondition
    rw [hv]
    simp only [Bool.not_true, Bool.false_eq_true, if_false]
    split
    · nofun
    · split
      · nofun
      · split
        · nofun
        · split <;> nofun
  unfold State.thermtripDriven State.drivenLow
  rw [hb, hz]
  simp [hu, hr, Option.isSome_iff_ne_none]

end Sys2Proof.Machine
end

section
/-! SUPPORT. Operations that write no register. -/

namespace Sys2Proof.Machine

/-! ## Operations that write no register -/

theorem State.regs_foldl {α : Type} {f : State → α → State} (hf : ∀ s a, (f s a).regs = s.regs) (l : List α) (s : State) : (l.foldl f s).regs = s.regs :=
  State.foldl_same (g := State.regs) hf l s

@[simp] theorem State.putArray_regs (s : State) (c cw : Nat) (bytes : List Byte) (p : Bool) : (s.putArray c cw bytes p).regs = s.regs := rfl

@[simp] theorem State.joinQueue_regs (s : State) (q : MemReq) : (s.joinQueue q).regs = s.regs := rfl

@[simp] theorem State.departs_regs (s : State) (c : Nat) : (s.departs c).regs = s.regs := rfl

@[simp] theorem State.endMigration_regs (s : State) (k : Nat) : (s.endMigration k).regs = s.regs := rfl

@[simp] theorem State.setFill_regs (s : State) (l : Nat) (f : Option (Nat × Nat)) : (s.setFill l f).regs = s.regs := rfl

@[simp] theorem State.bursts_regs (s : State) (c a n : Nat) : (s.bursts c a n).regs = s.regs := rfl

@[simp] theorem State.storeBursts_regs (s : State) (c a n : Nat) : (s.storeBursts c a n).regs = s.regs := rfl

@[simp] theorem State.writeLater_regs (s : State) (w : LateWrite) : (s.writeLater w).regs = s.regs := rfl

@[simp] theorem State.addStatus_regs (s : State) (id st : Nat) : (s.addStatus id st).regs = s.regs := rfl

@[simp] theorem State.consumed_regs (s : State) (id : Nat) (m : Bool) : (s.consumed id m).regs = s.regs := by
  unfold State.consumed
  split <;> rfl

@[simp] theorem State.give_regs (s : State) (p i n : Nat) : (s.give p i n).regs = s.regs := rfl

@[simp] theorem State.auditFresh_regs (s : State) (p i : Nat) : (s.auditFresh p i).regs = s.regs := rfl

@[simp] theorem State.mapTiles_regs (s : State) (f : Tile → Tile) : (s.mapTiles f).regs = s.regs :=
  State.regs_foldl (f := fun (s : State) (e : Nat × Tile) => s.setTile e.1 (f e.2)) (fun _ _ => rfl) s.tiles s

@[simp] theorem State.releaseHalts_regs (s : State) : s.releaseHalts.regs = s.regs := s.mapTiles_regs _

@[simp] theorem State.staticEvent_regs (s : State) (p : Nat) : (s.staticEvent p).regs = s.regs := by
  unfold State.staticEvent
  split <;> rfl

@[simp] theorem State.endPart_regs (s : State) (t p : Nat) : (s.endPart t p).regs = s.regs := by
  refine (State.regs_foldl (fun s e => ?_) _ _).trans (s.staticEvent_regs p)
  split <;> rfl

@[simp] theorem State.endAllParts_regs (s : State) (id : Nat) : (s.endAllParts id).regs = s.regs := by
  refine State.regs_foldl (fun s t => ?_) _ _
  split
  · exact s.endPart_regs t _
  · rfl

@[simp] theorem State.endItem_regs (s : State) (id : Nat) : (s.endItem id).regs = s.regs := by
  unfold State.endItem
  split
  · rfl
  · split <;> rfl

@[simp] theorem State.inject_regs (s : State) (p : Packet) (q : Option Nat) : (s.inject p q).1.regs = s.regs := by
  unfold State.inject
  split
  · rfl
  · dsimp only
    split <;> rfl

@[simp] theorem State.sendAborts_regs (s : State) (c : Nat) (b : Board) (q r : Nat) : (s.sendAborts c b q r).regs = s.regs :=
  State.regs_foldl (fun s _ => s.inject_regs _ none) _ s

@[simp] theorem State.stopPart_regs (s : State) (id st : Nat) : (s.stopPart id st).regs = s.regs := by
  unfold State.stopPart
  split
  · rfl
  · split
    · split
      · rfl
      · simp
    · rfl

@[simp] theorem State.abortItem_regs (s : State) (id st : Nat) : (s.abortItem id st).regs = s.regs := by
  unfold State.abortItem
  simp [State.leave4]

@[simp] theorem State.stopItem_regs (s : State) (st : Nat) (i : Item) : (s.stopItem st i).regs = s.regs := by
  unfold State.stopItem
  split
  · rfl
  · split <;> simp
  · simp

@[simp] theorem State.stopContext_regs (s : State) (c st : Nat) : (s.stopContext c st).regs = s.regs :=
  State.regs_foldl (fun s i => s.stopItem_regs st i) _ _

@[simp] theorem State.freshTile_regs (s : State) (t : Nat) : (s.freshTile t).regs = s.regs := by
  unfold State.freshTile
  split <;> rfl

@[simp] theorem State.setRun_regs (s : State) (id : Nat) (r : IngestRun) : (s.setRun id r).regs = s.regs := by
  unfold State.setRun
  dsimp only
  split
  · simp
  · rfl

@[simp] theorem State.stopForward_regs (s : State) (id : Nat) : (s.stopForward id).regs = s.regs := by
  unfold State.stopForward
  split
  · rfl
  · split
    · rfl
    · split
      · rfl
      · simp

@[simp] theorem State.oweCredit_regs (s : State) (l : Nat) (p : Packet) : (s.oweCredit l p).regs = s.regs := by
  unfold State.oweCredit
  split <;> rfl

@[simp] theorem State.releaseGen_regs (s : State) (k g : Nat) : (s.releaseGen k g).regs = s.regs := by
  unfold State.releaseGen
  dsimp only
  split
  · rfl
  · split <;> rfl

end Sys2Proof.Machine
end

section
/-! SUPPORT. What keeps `SETUP_STAT`: the relation, its rules, and device memory. -/

namespace Sys2Proof.Machine

/-! ## Operations that leave `SETUP_STAT` alone -/

theorem Reg.ctorIdx_lt (r : Reg) : r.ctorIdx < 128 := by cases r <;> decide

theorem Reg.eq_of_ctorIdx {a b : Reg} (h : a.ctorIdx = b.ctorIdx) : a = b :=
  (Reg.ofNat_ctorIdx a).symm.trans ((congrArg Reg.ofNat h).trans (Reg.ofNat_ctorIdx b))

/-- The keys of the register file rise, and `SETUP_STAT` reads as in `t`. -/
def SetupKept (t s : State) : Prop :=
  Tab.sorted s.regs = true ∧ ∀ (f : Field) (i : Nat), f.reg = .setupStat → f.lo < 1024 → s.fld f i = t.fld f i

namespace SetupKept

variable {t : State} {s u : State}

theorem refl (h : Tab.sorted t.regs = true) : SetupKept t t := ⟨h, fun _ _ _ _ => rfl⟩

theorem of_eq (h : SetupKept t s) (he : u.regs = s.regs) : SetupKept t u :=
  ⟨he ▸ h.1, fun f i hf hl => (State.fld_congr he f i).trans (h.2 f i hf hl)⟩

theorem setFld (h : SetupKept t s) (f : Field) (i v : Nat) (hf : f.reg ≠ .setupStat ∧ f.lo < 1024) :
    SetupKept t (s.setFld f i v) :=
  ⟨State.sorted_setFld h.1 f i v, fun g j hg hlo => (State.fld_setFld_ne h.1 (.inr (.inl fun he => hf.1 (he.trans hg))) v ⟨hf.2, hlo⟩).trans (h.2 g j hg hlo)⟩

theorem setFlag (h : SetupKept t s) (f : Field) (i : Nat) (b : Bool) (hf : f.reg ≠ .setupStat ∧ f.lo < 1024) :
    SetupKept t (s.setFlag f i b) := h.setFld f i _ hf

theorem bump (h : SetupKept t s) (f : Field) (i n : Nat) (hf : f.reg ≠ .setupStat ∧ f.lo < 1024) :
    SetupKept t (s.bump f i n) := by
  unfold State.bump
  split
  · exact h
  · exact h.setFld f i _ hf

/-- A register that is cleared is another one. -/
theorem clearReg (h : SetupKept t s) (r : Reg) (p : Nat → Bool) (hr : r ≠ .setupStat) : SetupKept t (s.clearReg r p) := by
  refine ⟨Tab.sorted_filter h.1, fun f i hf hlo => Eq.trans ?_ (h.2 f i hf hlo)⟩
  have hc : f.reg.ctorIdx < 128 := Reg.ctorIdx_lt f.reg
  have hk : f.key i / 1024 % 128 = f.reg.ctorIdx := by
    have : f.key i / 1024 = 128 * i + f.reg.ctorIdx := by unfold Field.key; omega
    omega
  refine (Tab.get_filter (p := fun k => !(k / 1024 % 128 == r.ctorIdx && p (k / 131072))) h.1).trans (if_pos ?_)
  have hne : ¬ f.key i / 1024 % 128 = r.ctorIdx := fun he => hr (Reg.eq_of_ctorIdx ((he.symm.trans hk).trans (congrArg Reg.ctorIdx hf)))
  simp [hne]

theorem foldl {α : Type} {f : State → α → State} (hf : ∀ (s : State) (a : α), SetupKept t s → SetupKept t (f s a)) :
    ∀ (l : List α) {s : State}, SetupKept t s → SetupKept t (l.foldl f s)
  | [], _, h => h
  | a :: l, _, h => foldl hf l (hf _ a h)

theorem ite {c : Prop} [Decidable c] (h : SetupKept t s) (h' : SetupKept t u) : SetupKept t (if c then s else u) := by
  split
  · exact h
  · exact h'

end SetupKept

/-! ### Device memory (chapter 10) -/

section
variable {t : State} {s : State}

theorem SetupKept.countCe (h : SetupKept t s) (c : Nat) : SetupKept t (s.countCe c) := (h.bump Fld.memChstatCe c 1 (by decide)).bump Fld.memChstatCeWin c 1 (by decide)

theorem SetupKept.countUe (h : SetupKept t s) (c cw : Nat) : SetupKept t (s.countUe c cw) :=
  ((h.bump Fld.memChstatUe c 1 (by decide)).bump Fld.memChstatUeWin c 1 (by decide)).of_eq (State.putArray_regs ..)

theorem SetupKept.decodeCw (h : SetupKept t s) (c cw : Nat) : SetupKept t (s.decodeCw c cw) := by
  unfold State.decodeCw
  split
  · exact h
  · exact (h.countCe c).of_eq (State.putArray_regs ..)
  · exact h.countUe c cw
  · have hd : SetupKept t { s with draws := s.draws + 1 } := h.of_eq rfl
    dsimp only
    split
    · exact hd.countUe c cw
    · exact (hd.countCe c).of_eq (State.putArray_regs ..)

theorem SetupKept.queueRepair (h : SetupKept t s) (a : Nat) : SetupKept t (s.queueRepair a) := by
  unfold State.queueRepair
  dsimp only
  split
  · exact h
  · split
    · exact h
    · exact h.bump Fld.repairStatDropped 0 1 (by decide)

theorem SetupKept.poisonDelivered (h : SetupKept t s) (a : Nat) : SetupKept t (s.poisonDelivered a) := (h.bump Fld.memErrPoisonRead 0 1 (by decide)).queueRepair a

theorem SetupKept.passEnd (h : SetupKept t s) : SetupKept t s.passEnd := by
  unfold State.passEnd
  split
  · exact SetupKept.bump (s := { s with chans := { s.chans with scrubDone := [] } }) (h.of_eq rfl) Fld.memScrubPasses 0 1 (by decide)
  · exact h

theorem SetupKept.fillDone (h : SetupKept t s) (l sp : Nat) : SetupKept t (s.fillDone l sp) :=
  (SetupKept.setFld (h.of_eq (s.setFill_regs l none)) Fld.memChstatState sp 0 (by decide)).of_eq (State.journal_regs ..)

theorem SetupKept.dropLate (h : SetupKept t s) (l : Nat) : SetupKept t (s.dropLate l) :=
  SetupKept.bump (s := { s with chans := { s.chans with late := s.chans.late.filter (fun w => w.lchan != l) } }) (h.of_eq rfl) Fld.memErrDropped 0 _ (by decide)

theorem SetupKept.failBound (h : SetupKept t s) (c : Nat) : SetupKept t (s.failBound c) := by
  unfold State.failBound
  split
  · exact h
  · next l _ =>
    split
    · next sp _ => exact (h.setFld Fld.memChstatState sp 2 (by decide)).setFld Fld.memChmapChannel l (sp % 34) (by decide)
    · have hf : SetupKept t (((s.setFlag Fld.memChmapFenced l true).setFlag Fld.memTopMapoutDue 0 true).setFill l none) :=
        (h.setFlag Fld.memChmapFenced l true (by decide)).setFlag Fld.memTopMapoutDue 0 true (by decide)
      exact hf.dropLate l

theorem SetupKept.failHard (h : SetupKept t s) (c : Nat) : SetupKept t (s.failHard c) := by
  have h1 : SetupKept t ((if (s.slotOf c).isSome then s.departs c else s).setFld Fld.memChstatState c 4) :=
    (SetupKept.ite (s := s.departs c) h h).setFld Fld.memChstatState c 4 (by decide)
  unfold State.failHard
  dsimp only
  generalize (if (s.slotOf c).isSome then s.departs c else s).setFld Fld.memChstatState c 4 = v at h1
  refine SetupKept.passEnd ?_
  split
  · next l sp p _ =>
    have hm : SetupKept t ((v.endMigration (c / 34)).setFld Fld.memChmapChannel l (sp % 34)) :=
      SetupKept.setFld (s := v.endMigration (c / 34)) h1 Fld.memChmapChannel l _ (by decide)
    split
    · exact h1
    · split
      · split
        · exact hm
        · exact SetupKept.fillDone (s := State.journal _ _ _) hm l sp
      · exact h1.failBound c
  · exact h1.failBound c

theorem SetupKept.checkUeWin (h : SetupKept t s) (c : Nat) : SetupKept t (s.checkUeWin c) := (h.failHard c).ite h

theorem SetupKept.readCw (h : SetupKept t s) (a : Nat) : SetupKept t (s.readCw a).2.2 := by
  unfold State.readCw
  split
  · exact h.bump Fld.memErrBeyond 0 1 (by decide)
  · dsimp only
    split
    · exact h.poisonDelivered a
    · exact h.poisonDelivered a
    · have hd := h.decodeCw
      exact (((hd _ _).poisonDelivered a).ite (hd _ _)).checkUeWin _

theorem SetupKept.fetchCw (h : SetupKept t s) (a n : Nat) (p : Nat × Nat × Nat) : SetupKept t (s.fetchCw a n p).2.2 := by
  unfold State.fetchCw
  split
  · exact h
  · exact h.readCw p.1

/-- The state that a read of device memory leaves, whatever bytes have been read before. -/
theorem SetupKept.memRead (h : SetupKept t s) (a n : Nat) : SetupKept t (s.memRead a n).2 := by
  unfold State.memRead
  generalize cwSplit a n = l
  suffices hall : ∀ (l : List (Nat × Nat × Nat)) (acc : List (Byte × Bool) × State), SetupKept t acc.2 → SetupKept t (l.foldl (fun acc p =>
      ((acc.1 ++ (((acc.2.fetchCw a n p).1.drop p.2.1).take p.2.2).map (fun b => (b, (acc.2.fetchCw a n p).2.1)), (acc.2.fetchCw a n p).2.2) :
        List (Byte × Bool) × State)) acc).2 from hall l _ h
  intro l
  induction l with
  | nil => exact fun _ h => h
  | cons p l ih => exact fun acc h => ih _ (h.fetchCw a n p)

theorem SetupKept.takeFor (h : SetupKept t s) (c a n : Nat) : SetupKept t (s.takeFor c a n).2.2 := SetupKept.memRead (s := s.bursts c a n) h a n

theorem SetupKept.ctrlRead (h : SetupKept t s) (item : Option Nat) (a n : Nat) : SetupKept t (s.ctrlRead item a n).2 := by
  have ht := h.takeFor (s.contextOf item) a n
  unfold State.ctrlRead
  dsimp only
  split
  · exact ht.of_eq (State.consumed_regs ..)
  · exact ht

theorem SetupKept.writeOn (h : SetupKept t s) (c cw o : Nat) (bytes : List Byte) (m : Bool) : SetupKept t (s.writeOn c cw o bytes m) := by
  have hv : SetupKept t (if m || bytes.length = 64 then s else s.decodeCw c cw) := h.ite (h.decodeCw c cw)
  exact SetupKept.checkUeWin (s := State.putArray _ c cw _ _) hv c

theorem SetupKept.writeBoth (h : SetupKept t s) (l c cw o : Nat) (bytes : List Byte) (m : Bool) : SetupKept t (s.writeBoth l c cw o bytes m) := by
  unfold State.writeBoth
  split
  · exact h.writeOn c cw o bytes m
  · next sp _ => exact (h.writeOn c cw o bytes m).writeOn sp cw o bytes m

theorem SetupKept.writeCw (h : SetupKept t s) (a o : Nat) (bytes : List Byte) (m : Bool) : SetupKept t (s.writeCw a o bytes m) := by
  unfold State.writeCw
  split
  · exact h.bump Fld.memErrBeyond 0 1 (by decide)
  · dsimp only
    split
    · exact h.bump Fld.memErrDropped 0 1 (by decide)
    · exact h
    · split
      · exact h
      · exact h.writeBoth ..

theorem SetupKept.storeCw (h : SetupKept t s) (a n : Nat) (p : Nat × Nat × Nat) (bytes : List Byte) (m : Bool) : SetupKept t (s.storeCw a n p bytes m) := by
  unfold State.storeCw
  split
  · exact h
  · exact h.writeCw ..

theorem SetupKept.putNatFor (h : SetupKept t s) (c a n v : Nat) : SetupKept t (s.putNatFor c a n v) :=
  SetupKept.foldl (fun _ _ h => h.storeCw ..) _ (s := s.storeBursts c a _) h

end

end Sys2Proof.Machine
end

section
/-! SUPPORT. What keeps `SETUP_STAT`: tiles, functions, a debug session and the links. -/

namespace Sys2Proof.Machine

variable {t : State} {s : State}

/-! ### Tiles, items and contexts -/

theorem SetupKept.endResidency (h : SetupKept t s) (k : Nat) : SetupKept t (s.endResidency k) := by
  unfold State.endResidency
  split
  · refine SetupKept.of_eq ?_ (State.freshTile_regs ..)
    exact (((h.setFlag Fld.tileResidencyValid k false (by decide)).setFld Fld.tileResidencyHandle k 0 (by decide)).setFld
      Fld.tileResidencyTenant k 0 (by decide)).bump Fld.tileResidencyLosses k 1 (by decide)
  · exact h

theorem SetupKept.endResidencyOf (h : SetupKept t s) (c : Nat) (hd : Option Nat) : SetupKept t (s.endResidencyOf c hd) :=
  SetupKept.foldl (fun _ k h => (h.endResidency k).ite h) _ h

theorem SetupKept.disable (h : SetupKept t s) (fn : Nat) : SetupKept t (s.disable fn) :=
  ((h.setFld Fld.fnStateState fn 2 (by decide)).of_eq (State.stopContext_regs ..)).ite h

theorem SetupKept.clearRegs (h : SetupKept t s) {rs : List Reg} (hr : Reg.setupStat ∉ rs) (p : Nat → Bool) :
    SetupKept t (rs.foldl (fun (s : State) r => s.clearReg r p) s) := by
  induction rs generalizing s with
  | nil => exact h
  | cons r rs ih =>
    rw [List.mem_cons, not_or] at hr
    exact ih (h.clearReg r p (Ne.symm hr.1)) hr.2

theorem SetupKept.resetPage (h : SetupKept t s) (fn : Nat) : SetupKept t (s.resetPage fn) := by
  have hp := h.clearRegs (rs := pageRegs) (by decide) (· == fn)
  unfold State.resetPage
  dsimp only
  generalize List.foldl (fun (s : State) r => s.clearReg r (· == fn)) s pageRegs = v at hp
  exact (hp.clearReg .ringCfg (fun i => i / 64 == fn) (by decide)).clearReg .msixMod (fun i => i / 2048 == fn) (by decide)

theorem SetupKept.flr (h : SetupKept t s) (fn : Nat) : SetupKept t (s.flr fn) := by
  have hd := h.disable fn
  unfold State.flr
  dsimp only
  split
  · exact hd
  · exact hd.resetPage fn

theorem SetupKept.resetAttach (h : SetupKept t s) : SetupKept t s.resetAttach := by
  have ha := h.clearRegs (rs := attachRegs) (by decide) (fun _ => true)
  unfold State.resetAttach
  dsimp only
  generalize List.foldl (fun (s : State) r => s.clearReg r (fun _ => true)) s attachRegs = v at ha
  exact ha

theorem SetupKept.settleReset (h : SetupKept t s) : SetupKept t s.settleReset := h.resetAttach.ite h

theorem SetupKept.flrAll (h : SetupKept t s) : SetupKept t s.flrAll := by
  have hf := SetupKept.foldl (fun _ fn h => SetupKept.flr h fn) (((List.range 63).map (· + 1)) ++ [0]) h
  unfold State.flrAll
  dsimp only
  generalize List.foldl State.flr s _ = v at hf
  exact SetupKept.settleReset (s := { v with fns := { v.fns with numVfs := 0, vfEnable := false, memSpace := false, pfReset := true } }) (hf.of_eq rfl)

/-! ### A debug session's end (R453-R458) -/

theorem SetupKept.clearSlot (h : SetupKept t s) (l : Nat) : SetupKept t (s.clearSlot l) := by
  unfold State.clearSlot
  split
  · exact h
  · split
    · exact h.bump Fld.memErrDropped 0 chanCodewords (by decide)
    · split
      · exact h
      · next c _ =>
        dsimp only
        have hm : ∀ v : State, SetupKept t v → SetupKept t (match v.fillOf l with
            | some (sp, _) => ({ v with chans := { v.chans with late := v.chans.late.filter (fun w => w.lchan != l) } }).fillDone l sp
            | none => v) := fun v hv => by
          split
          · next sp _ _ => exact SetupKept.fillDone (s := { v with chans := { v.chans with late := v.chans.late.filter (fun w => w.lchan != l) } }) (hv.of_eq rfl) l sp
          · exact hv
        refine hm _ ?_
        split <;> exact h

theorem SetupKept.clearMemory (h : SetupKept t s) : SetupKept t s.clearMemory :=
  (SetupKept.foldl (fun _ l h => SetupKept.clearSlot h l) (List.range 256) h).of_eq (State.regs_foldl (fun s i => s.auditFresh_regs 6 i) _ _)

theorem SetupKept.debugErase (h : SetupKept t s) : SetupKept t s.debugErase := by
  have hf := h.flrAll
  unfold State.debugErase
  generalize s.flrAll = v at hf
  exact (SetupKept.clearMemory (s := v.eraseIde) hf).of_eq (State.mapTiles_regs ..)

theorem SetupKept.measureChange (h : SetupKept t s) : SetupKept t s.measureChange := h.setFld Fld.measValue 3 _ (by decide)

theorem SetupKept.setLevel (h : SetupKept t s) (l : Nat) : SetupKept t (s.setLevel l) := by
  unfold State.setLevel
  split
  · exact h
  · have hm := (h.setFld Fld.secStatLevel 0 l (by decide)).measureChange
    generalize (s.setFld Fld.secStatLevel 0 l).measureChange = v at hm
    have hv : SetupKept t (if 0 < l then { v with sec := { v.sec with aboveL0 := true } } else v) := SetupKept.ite hm hm
    exact SetupKept.ite (hv.of_eq (State.releaseHalts_regs _)) hv

theorem SetupKept.setLc (h : SetupKept t s) (lc : Nat) : SetupKept t (s.setLc lc) := h.ite (h.setFld Fld.secStatLc 0 lc (by decide)).measureChange

theorem SetupKept.endSession (h : SetupKept t s) : SetupKept t s.endSession := by
  unfold State.endSession
  split
  · exact h
  · next x _ =>
    have he : SetupKept t (if x.heldHigh then s.debugErase else s) := h.debugErase.ite h
    dsimp only
    generalize (if x.heldHigh then s.debugErase else s) = v at he
    have hl := (he.setLevel 0).setFld Fld.secStatGranted 0 0 (by decide)
    generalize (v.setLevel 0).setFld Fld.secStatGranted 0 0 = w at hl
    refine SetupKept.of_eq ?_ (State.journal_regs ..)
    exact SetupKept.setLc (s := { w with sec := { w.sec with session := none } }) (hl.of_eq rfl) 1

/-! ### Remote windows, inboxes and links -/

theorem SetupKept.closeWindow (h : SetupKept t s) (w : Nat) : SetupKept t (s.closeWindow w) :=
  SetupKept.setFlag (s := { s with windows := Tab.set none s.windows w none, windowIns := s.windowIns.filter (fun x => x.window != w) })
    (h.of_eq rfl) Fld.winStatOpen w false (by decide)

theorem SetupKept.closeInbox (h : SetupKept t s) (n : Nat) : SetupKept t (s.closeInbox n) := by
  unfold State.closeInbox
  dsimp only
  generalize hv : ({ s with inboxes := _, items := _ } : State) = v
  have h1 : SetupKept t v := hv ▸ h
  exact (h1.setFlag Fld.inboxStatOpen n false (by decide)).setFlag Fld.inboxStatBroken n false (by decide)

/-- What the release of a context closes, with the windows and the inboxes that it looks at named: a list of 1,024 is not to be unfolded. -/
def State.closeAmong (s : State) (fn : Nat) (ws ns : List Nat) : State :=
  let s := ws.foldl (fun (s : State) w => if s.flag Fld.winStatOpen w && s.fld Fld.winStatTenant w == fn then s.closeWindow w else s) s
  let s := ns.foldl (fun (s : State) n => if s.flag Fld.inboxStatOpen n && s.fld Fld.inboxStatTenant n == fn then s.closeInbox n else s) s
  { s with peerRefs := Tab.clear s.peerRefs (256 * fn) 256 }

theorem State.releaseRemote_eq (s : State) (fn : Nat) : s.releaseRemote fn = s.closeAmong fn (List.range 1024) (List.range 8) := rfl

theorem SetupKept.closeAmong (h : SetupKept t s) (fn : Nat) (ws ns : List Nat) : SetupKept t (s.closeAmong fn ws ns) := by
  unfold State.closeAmong
  dsimp only
  refine SetupKept.foldl (fun s n h => ?_) ns (SetupKept.foldl (fun s w h => ?_) ws h)
  · exact (h.closeInbox n).ite h
  · exact (h.closeWindow w).ite h

theorem SetupKept.releaseRemote (h : SetupKept t s) (fn : Nat) : SetupKept t (s.releaseRemote fn) :=
  s.releaseRemote_eq fn ▸ h.closeAmong fn _ _

theorem SetupKept.failPart (h : SetupKept t s) (id st : Nat) : SetupKept t (s.failPart id st) := by
  unfold State.failPart
  split
  · exact h
  · next i _ =>
    split
    · next l _ _ _ =>
      split
      · exact h
      · have hb : SetupKept t (if st = stUnreachable || st = stCollFailed then (s.keepKey i l st).bump Fld.collStatAborts i.fn 1 else s.keepKey i l st) :=
          (SetupKept.bump (s := s.keepKey i l st) h Fld.collStatAborts i.fn 1 (by decide)).ite h
        exact hb.of_eq (State.stopPart_regs ..)
    · exact h

theorem SetupKept.returned (h : SetupKept t s) (k : PktKind) (aux : List Nat) : SetupKept t (s.returned k aux) := by
  have hp : SetupKept t (match s.transfer (aux.getD 0 0) with | some x => s.failPart x.item stUnreachable | none => s) := by
    split
    · exact h.failPart _ _
    · exact h
  cases k with
  | chunk => exact hp
  | window => exact hp
  | notice => exact h.bump Fld.linkRouteNoticeLost 0 1 (by decide)
  | inboxWrite => exact h.of_eq (State.stopForward_regs ..)
  | reply => exact h
  | timing => exact h
  | laneSwitch => exact h
  | repairReq => exact h
  | repairResp => exact h

theorem SetupKept.sendNotice (h : SetupKept t s) (p : Packet) : SetupKept t (s.sendNotice p) :=
  (h.bump Fld.linkRouteNoticeLost 0 1 (by decide)).ite (h.of_eq (State.inject_regs ..))

theorem SetupKept.dropForward (h : SetupKept t s) (p : Packet) : SetupKept t (s.dropForward p) := by
  have hb := h.bump Fld.linkRouteNoroute 0 1 (by decide)
  unfold State.dropForward
  dsimp only
  split
  · exact hb.bump Fld.linkRouteNoticeLost 0 1 (by decide)
  · exact hb.sendNotice _

theorem SetupKept.lost (h : SetupKept t s) (e : Nat × Packet) : SetupKept t (s.lost e) := by
  unfold State.lost
  split
  · exact h.returned _ _
  · exact (h.of_eq (State.oweCredit_regs s e.1 e.2)).dropForward e.2

theorem SetupKept.reroute (h : SetupKept t s) (q : Option Nat) (e : Nat × Packet) : SetupKept t (s.reroute q e) := by
  unfold State.reroute
  split
  · exact h.lost e
  · split
    · exact h.lost e
    · split
      · split <;> exact h
      · exact h

theorem SetupKept.retryLeft (h : SetupKept t s) : SetupKept t s.retryLeft :=
  SetupKept.foldl (fun _ e h => SetupKept.reroute h (some e.1) e.2) _ (s := { s with mgmtLeft := [] }) (h.of_eq rfl)

theorem SetupKept.breakInboxes (h : SetupKept t s) : SetupKept t s.breakInboxes := by
  refine SetupKept.foldl (fun s n h => ?_) (List.range 8) h
  split
  · exact (h.setFlag Fld.inboxStatBroken n true (by decide)).ite h
  · exact h

theorem SetupKept.stopLink (h : SetupKept t s) (l st : Nat) : SetupKept t (s.stopLink l st) :=
  (SetupKept.foldl (fun _ e h => SetupKept.reroute h _ e) _
    (SetupKept.retryLeft (SetupKept.setFld (s := s.setLink l _) h Fld.linkStatState l st (by decide)))).breakInboxes

theorem SetupKept.stopLinks (h : SetupKept t s) : SetupKept t s.stopLinks :=
  SetupKept.foldl (fun _ l h => SetupKept.ite h (h.stopLink l 0)) _ h

end Sys2Proof.Machine
end

section
/-! SUPPORT. What keeps `SETUP_STAT`: boards, pools, audits, items and the loss of the main power. -/

namespace Sys2Proof.Machine

variable {t : State} {s : State}

/-! ### Rings, functions and boards -/

theorem SetupKept.drainRing (h : SetupKept t s) (fn r : Nat) : SetupKept t (s.drainRing fn r) := (h.setFlag Fld.ringCfgActive _ false (by decide)).ite h

theorem SetupKept.stopRings (h : SetupKept t s) (fn : Nat) : SetupKept t (s.stopRings fn) := by
  obtain ⟨v, he, hv⟩ : ∃ v : State, s.stopRings fn = { v with fns := { v.fns with rings := Tab.clear v.fns.rings (64 * fn) 64 } } ∧ SetupKept t v :=
    ⟨_, rfl, SetupKept.foldl (fun _ k h => (h.setFlag Fld.ringCfgActive _ false (by decide)).setFlag Fld.ringCfgEnable _ false (by decide)) _ h⟩
  rw [he]
  exact hv.of_eq rfl

theorem SetupKept.fnDown (h : SetupKept t s) (fn : Nat) : SetupKept t (s.fnDown fn) := by
  obtain ⟨v, he, hv⟩ : ∃ v : State, s.fnDown fn = (if Tab.get false v.fns.flr fn then
      { v.resetPage fn with fns := { (v.resetPage fn).fns with flr := Tab.set false v.fns.flr fn false } } else v) ∧ SetupKept t v :=
    ⟨_, rfl, (h.stopRings fn).setFld Fld.fnStateState fn 0 (by decide)⟩
  rw [he]
  exact SetupKept.ite ((hv.resetPage fn).of_eq rfl) hv

theorem SetupKept.releaseGo (tenant k : Nat) (p : Pool) : ∀ (n : Nat) {s : State}, SetupKept t s → SetupKept t (s.releaseGo tenant k p n)
  | 0, _, h => h
  | n + 1, s, h => by
    have he := (h.ctrlRead none (p.ctrlBase + 4) 4).ctrlRead none (p.ringAddr (s.ctrlRead none (p.ctrlBase + 4) 4).1) 8
    unfold State.releaseGo
    dsimp only
    split
    · exact he
    · refine SetupKept.releaseGo tenant k p n (s := State.give _ _ _ _) ?_
      exact SetupKept.putNatFor (SetupKept.ite ((he.ctrlRead none _ 4).putNatFor ..) he) ..

theorem SetupKept.release (h : SetupKept t s) (tenant k : Nat) : SetupKept t (s.release tenant k) := by
  unfold State.release
  split
  · exact h
  · exact SetupKept.releaseGo tenant k _ _ ((h.ctrlRead none _ 4).ctrlRead none _ 4)

theorem State.releaseGens_regs (l : List (Nat × Nat)) (s : State) : (l.foldl (fun (s : State) r => s.releaseGen r.1 r.2) s).regs = s.regs :=
  State.regs_foldl (fun s r => s.releaseGen_regs r.1 r.2) l s

theorem SetupKept.releaseBoard (h : SetupKept t s) (c k : Nat) : SetupKept t (s.releaseBoard c k) := by
  unfold State.releaseBoard
  split
  · exact h
  · next b _ =>
    have hg : SetupKept t (b.gens.foldl (fun s r => s.releaseGen r.1 r.2) s) := h.of_eq (State.releaseGens_regs b.gens s)
    exact SetupKept.endResidencyOf (s := State.setBoard _ c k none) hg c (some k)

theorem SetupKept.retireComplete (h : SetupKept t s) (c k : Nat) : SetupKept t (s.retireComplete c k) := by
  unfold State.retireComplete
  split
  · split
    · exact ((h.releaseBoard c k).of_eq (State.endItem_regs ..)).ite h
    · exact h
  · exact h

/-! ### Fences and audits -/

theorem SetupKept.fenceDrained (h : SetupKept t s) (c : Nat) : SetupKept t (s.fenceDrained c) := (h.setFlag Fld.tenantCtlDrained c true (by decide)).ite h

theorem SetupKept.fenceForgets (h : SetupKept t s) (c id : Nat) : SetupKept t (s.fenceForgets c id) :=
  SetupKept.fenceDrained (s := { s with fenceItems := Tab.set [] s.fenceItems c ((Tab.get [] s.fenceItems c).filter (· != id)) }) (h.of_eq rfl) c

theorem SetupKept.fence (h : SetupKept t s) (c cause : Nat) : SetupKept t (s.fence c cause) := by
  have hs := ((h.setFlag Fld.tenantCtlFenced c true (by decide)).setFlag Fld.tenantCtlDrained c false (by decide)).setFld Fld.tenantCtlCause c cause (by decide)
  unfold State.fence
  generalize ((s.setFlag Fld.tenantCtlFenced c true).setFlag Fld.tenantCtlDrained c false).setFld Fld.tenantCtlCause c cause = v at hs
  refine SetupKept.ite h (SetupKept.fenceDrained ?_ c)
  have he : ∀ u : State, SetupKept t u → SetupKept t ((u.stopContext c stFenced).endResidencyOf c none) :=
    fun u hu => SetupKept.endResidencyOf (hu.of_eq (State.stopContext_regs ..)) c none
  have hv := he { v with fenceItems := Tab.set [] v.fenceItems c ((v.items.filter (fun (i : Item) => i.fn == c)).map (fun (i : Item) => i.id)) } hs
  exact (hv.setFld Fld.fnStateState c 3 (by decide)).ite hv

theorem SetupKept.auditCheck (h : SetupKept t s) (p i : Nat) : SetupKept t (s.auditCheck p i) := by
  have hs := ((h.bump Fld.auditStatViolations 0 1 (by decide)).setFld Fld.auditStatPool 0 p (by decide)).setFld Fld.auditStatIndex 0 i (by decide)
  unfold State.auditCheck
  generalize ((s.bump Fld.auditStatViolations 0 1).setFld Fld.auditStatPool 0 p).setFld Fld.auditStatIndex 0 i = v at hs
  refine SetupKept.ite h ?_
  dsimp only
  split
  · next c _ => exact SetupKept.fence (s := v.journal _ _) hs c 2
  · exact hs

/-! ### The release of a context -/

theorem SetupKept.releaseBoards (h : SetupKept t s) (fn : Nat) : SetupKept t (s.releaseBoards fn) := by
  unfold State.releaseBoards
  exact SetupKept.foldl (fun s k h => (h.releaseBoard fn k).auditCheck 4 (boardKey fn k)) _ h

theorem SetupKept.releasePools (h : SetupKept t s) (fn : Nat) : SetupKept t (s.releasePools fn) := by
  have hfree : ∀ (k i : Nat) (u : State), SetupKept t u → SetupKept t (((u.setPool fn k none).auditFresh 6 i).auditFresh 7 i) := fun _ _ _ h => h.of_eq rfl
  unfold State.releasePools
  exact SetupKept.foldl (fun s k h => h.ite (hfree k _ _ ((h.auditCheck 6 (4 * fn + k)).auditCheck 7 (4 * fn + k)))) _ h

theorem SetupKept.unlockWindows (h : SetupKept t s) (fn : Nat) : SetupKept t (s.unlockWindows fn) :=
  SetupKept.foldl (fun _ w h => (h.setFlag Fld.hwinLock w false (by decide)).ite h) _ h

theorem SetupKept.releaseContext (h : SetupKept t s) (fn : Nat) : SetupKept t (s.releaseContext fn) :=
  ((((h.releaseBoards fn).releasePools fn).releaseRemote fn).unlockWindows fn).endResidencyOf fn none

theorem SetupKept.sendVec (h : SetupKept t s) (fn v : Nat) : SetupKept t (s.sendVec fn v) := by
  unfold State.sendVec
  dsimp only
  split
  · exact h
  · split
    · exact SetupKept.bump (s := s.setVec fn v _) h Fld.hostErrLost fn 1 (by decide)
    · exact h

theorem SetupKept.lastMessages (h : SetupKept t s) (fn : Nat) : SetupKept t (s.lastMessages fn) :=
  SetupKept.foldl (fun s v h => h.ite (SetupKept.ite (s := s.setVec fn v _) h (h.sendVec fn v))) _ h

/-! ### An item leaves the device -/

theorem SetupKept.giveBack (h : SetupKept t s) (i : Item) : SetupKept t (s.giveBack i) := by
  have hc : SetupKept t (i.credits.foldl (fun (s : State) c => s.give (c.1 + 1) (creditIndex i.fn c.1 c.2.1 c.2.2.1) c.2.2.2) s) :=
    h.of_eq (State.regs_foldl (fun (s : State) (c : Nat × Nat × Nat × Nat) => s.give_regs (c.1 + 1) (creditIndex i.fn c.1 c.2.1 c.2.2.1) c.2.2.2) _ s)
  unfold State.giveBack
  dsimp only
  generalize i.credits.foldl _ s = v at hc
  have ht : SetupKept t (i.tables.foldl (fun (s : State) t => s.releaseGen t.1 t.2) v) :=
    hc.of_eq (State.releaseGens_regs i.tables v)
  generalize i.tables.foldl _ v = w at ht
  split
  · exact ht
  · next l _ =>
    have hr : SetupKept t (l.serials.foldl (fun (s : State) x => (s.give 7 (4 * i.fn + x.1) 1).release i.fn x.1) w) :=
      SetupKept.foldl (fun s x h => SetupKept.release (s := s.give 7 _ 1) h i.fn x.1) _ ht
    generalize l.serials.foldl _ w = x at hr
    exact SetupKept.ite (SetupKept.retireComplete (s := State.give (x.modBoard i.fn l.handle _) _ _ _) hr i.fn l.handle) hr

theorem SetupKept.narrowForgets (h : SetupKept t s) (c id : Nat) : SetupKept t (s.narrowForgets c id) := by
  unfold State.narrowForgets
  split
  · exact h
  · exact SetupKept.ite (SetupKept.setFlag (s := { s with narrowing := Tab.set none s.narrowing c none }) (h.of_eq rfl) Fld.grantCtlPending c false (by decide)) h

theorem SetupKept.leave (h : SetupKept t s) (i : Item) : SetupKept t (s.leave i) := by
  unfold State.leave
  dsimp only
  generalize hv : ({ s.leave4 i.id with items := _, transfers := _, landings := _ } : State) = v
  have h1 : SetupKept t v := hv ▸ h
  have h2 := (SetupKept.giveBack (s := v.give 0 i.fn 1) h1 i).drainRing i.fn i.ring
  exact SetupKept.foldl (fun _ a h => SetupKept.auditCheck h a.1 a.2) _ ((h2.narrowForgets i.fn i.id).fenceForgets i.fn i.id)

theorem SetupKept.loseItem (h : SetupKept t s) (id : Nat) : SetupKept t (s.loseItem id) := by
  unfold State.loseItem
  split
  · exact h
  · next i _ => exact (h.bump Fld.hostErrLost i.fn 1 (by decide)).leave i

/-! ### The loss of the main power (R477) -/

theorem SetupKept.breakCxlInboxes (h : SetupKept t s) : SetupKept t s.breakCxlInboxes := by
  refine SetupKept.foldl (fun s n h => ?_) _ h
  split
  · exact (h.setFlag Fld.inboxStatBroken n true (by decide)).ite h
  · exact h

theorem SetupKept.disableGone (h : SetupKept t s) : SetupKept t s.disableGone := SetupKept.foldl (fun _ f h => h.ite (h.disable f)) _ h

theorem SetupKept.cxlDown (h : SetupKept t s) : SetupKept t s.cxlDown := by
  obtain ⟨v, he, hv⟩ : ∃ v : State, s.cxlDown = { v with fns := { v.fns with numVfs := 0, vfEnable := false, memSpace := false } } ∧
      SetupKept t v := by
    refine ⟨_, rfl, SetupKept.of_eq (SetupKept.breakCxlInboxes (SetupKept.disableGone ?_)) (State.eraseIde_regs _)⟩
    exact h.of_eq rfl
  rw [he]
  exact hv.of_eq rfl

theorem SetupKept.loseFunctions (h : SetupKept t s) : SetupKept t s.loseFunctions :=
  (SetupKept.foldl (fun _ f h => (((h.lastMessages f).releaseContext f).fnDown f).ite h) _
    (SetupKept.foldl (fun _ id h => SetupKept.loseItem h id) _ h.cxlDown)).settleReset

theorem SetupKept.stopAssay (h : SetupKept t s) : SetupKept t s.stopAssay := by
  unfold State.stopAssay
  split
  · exact h
  · have hi : SetupKept t s.assayIdle := SetupKept.setFld (s := { s with assay := { s.assay with unit := none } }) (h.of_eq rfl) Fld.assayStatBusy 0 0 (by decide)
    dsimp only
    split
    · next p _ => exact hi.setFld Fld.tilePhysState p _ (by decide)
    · exact hi
    · exact hi

theorem SetupKept.loseContent (h : SetupKept t s) : SetupKept t s.loseContent := by
  have hm : SetupKept t (s.stopAssay.mapTiles Tile.blank) := h.stopAssay.of_eq (State.mapTiles_regs ..)
  have he := SetupKept.foldl (fun _ k h => SetupKept.endResidency h k) (List.range 256) hm
  unfold State.loseContent
  dsimp only
  generalize List.foldl State.endResidency _ _ = v at he
  exact he

theorem SetupKept.stopRates (h : SetupKept t s) : SetupKept t s.stopRates := SetupKept.foldl (fun _ r h => h.setFld Fld.coreRateRate r 0 (by decide)) _ h

end Sys2Proof.Machine
end

section
/-! SUPPORT. P3 is entered (O57). -/

namespace Sys2Proof.Machine

/-! ## P3 is entered -/

/-- What P3 finds once a debug session has ended and the main power is off. -/
def State.unpowered (s : State) : State :=
  { s.endSession.mainOff with power := { s.endSession.mainOff.power with idleFrom := none, p1From := none } }

theorem State.enterP3_eq (s : State) : s.enterP3 =
    ((s.unpowered.setFld Fld.pwrStatState 0 3).setFlag Fld.pwrStatWaking 0 false).setFld Fld.setupStatPhase 0 (min 3 (s.unpowered.fld Fld.setupStatPhase 0)) := rfl

/-- The power state is read as 3 whatever the order of the keys. -/
theorem State.enterP3_state (s : State) : s.enterP3.fld Fld.pwrStatState 0 = 3 := by
  rw [State.enterP3_eq]
  generalize s.unpowered = v
  have h3 : (v.setFld Fld.pwrStatState 0 3).fld Fld.pwrStatState 0 = 3 := Tab.get_set_ne (by decide)
  have hw : ((v.setFld Fld.pwrStatState 0 3).setFlag Fld.pwrStatWaking 0 false).fld Fld.pwrStatState 0 = 3 :=
    Tab.get_set_of_listed (by decide) h3 (by decide)
  exact Tab.get_set_of_listed (by decide) hw (by decide)

/-- What the loss of the main power leaves, before `READY` clears and the regulators are off. -/
def State.powerLost (s : State) : State := s.loseFunctions.stopLinks.loseContent.stopRates

/-- The pins once the main power is off. -/
def Pins.mainOff (p : Pins) : Pins := { p with regulators := false, switches := 0, prsntLow := false, cxlReceivers := false }

theorem State.mainOff_eq (s : State) : s.mainOff =
    { s.powerLost.setFlag Fld.setupStatReady 0 false with waiting := [], pins := (s.powerLost.setFlag Fld.setupStatReady 0 false).pins.mainOff } := rfl

theorem SetupKept.powerLost {s t : State} (h : SetupKept t s) : SetupKept t s.powerLost := h.loseFunctions.stopLinks.loseContent.stopRates

theorem State.mainOff_off (s : State) : s.mainOff.pins.regulators = false ∧ s.mainOff.pins.switches = 0 ∧ s.mainOff.pins.prsntLow = false ∧
    s.mainOff.waiting = [] := by
  rw [State.mainOff_eq]
  generalize s.powerLost = v
  exact ⟨rfl, rfl, rfl, rfl⟩

theorem State.enterP3_off (s : State) : s.enterP3.pins.regulators = false ∧ s.enterP3.pins.switches = 0 ∧ s.enterP3.pins.prsntLow = false ∧
    s.enterP3.waiting = [] := by
  have h := State.mainOff_off s.endSession
  rw [State.enterP3_eq]
  unfold State.unpowered
  generalize s.endSession.mainOff = v at h
  exact h

theorem State.mainOff_phase {s t : State} (h : SetupKept t s) : Tab.sorted s.mainOff.regs = true ∧
    s.mainOff.fld Fld.setupStatPhase 0 = t.fld Fld.setupStatPhase 0 := by
  have hv := h.powerLost
  rw [State.mainOff_eq]
  generalize s.powerLost = v at hv
  refine ⟨State.sorted_setFld hv.1 .., ?_⟩
  exact (State.fld_setFld_ne hv.1 (.inr (.inr (by decide))) _ (by decide)).trans (hv.2 _ _ rfl (by decide))

theorem State.enterP3_phase {s : State} (hs : Tab.sorted s.regs = true) : s.enterP3.fld Fld.setupStatPhase 0 = min 3 (s.fld Fld.setupStatPhase 0) := by
  obtain ⟨hso, hph⟩ := State.mainOff_phase (SetupKept.endSession (SetupKept.refl hs))
  rw [State.enterP3_eq, ← hph]
  unfold State.unpowered
  generalize s.endSession.mainOff = v at hso
  refine (State.fld_setFld_self (State.sorted_setFld (State.sorted_setFld (s := { v with power := _ }) hso ..) ..) _ _ _).trans (Nat.mod_eq_of_lt ?_)
  show min 3 _ < 16
  omega

theorem State.serveWaiting_eq (s : State) (c : Instr) : s.serveWaiting c =
    if s.waitingRequests < (s.serve c).waitingRequests then { s with waiting := s.waiting ++ [c] } else s.serve c := by
  unfold State.serveWaiting
  rfl

theorem wake_idle {s : State} (h : s.fld Fld.pwrStatState 0 = 0 ∨ s.fld Fld.pwrStatState 0 = 3 ∨ s.flag Fld.pwrStatWaking 0 = true) : exec .wake s = .next s := by
  show Host.Outcome.next s.startWake = _
  rw [State.startWake_idle h]

theorem mctpWake_eq (s : State) : exec .mctpWake s = .next (if s.mgcServes = true then s.leaveP3 else s) := by
  show whenever s.mgcServes s s.leaveP3 = _
  rfl

/-! ## The statement -/

/-- Settles O57: P1 and P2 are entered and left by the registers of the power family alone; on the way to P3 no operation touches `SETUP_STAT` but the one
that clears `READY` (`SetupKept`), so that `PHASE` is kept up to its cap. -/
theorem powerStatesAreEnteredAndLeft : Obligations.PowerStatesAreEnteredAndLeft := by
  unfold Obligations.PowerStatesAreEnteredAndLeft
  refine ⟨p1Entry_enters, p2Entry_enters, fun s hc => ?_, fun s => ?_, fun s hc => ?_, ?_, fun s => State.thermtripDriven_iff⟩
  · have hs := State.canonical.regs hc
    exact ⟨fun hst hw => ⟨s.startWake, rfl, State.startWake_ramps hs hst hw⟩, wake_idle, wakeComplete_serves s hs,
      wakeComplete_awake, s.serveWaiting_eq, fun a o n v t h => State.serve_registerWrite h,
      fun f r v t h => State.serve_sqTailWrite h⟩
  · obtain ⟨hreg, hsw, hpr, hwt⟩ := s.enterP3_off
    exact ⟨fun a ha => ⟨pwrCtlOff_ignored ha, pwrCtlOff_p0 ha, pwrCtlOff_asleep ha⟩, rfl, fun v => pwrCtlOff_vf, mctpOff_eq s, s.mayPowerOff_iff,
      s.enterP3_state, hreg, hsw, hpr, hwt, fun hc => State.enterP3_phase (State.canonical.regs hc)⟩
  · exact ⟨mctpWake_eq s, wakeNAssert_eq s, State.leaveP3_reads (State.canonical.regs hc), State.leaveP3_stays⟩
  · exact fun s v w n first => hardTrip_eq

end Sys2Proof.Machine
end

section
/-! SUPPORT. Commands that make no request of device memory, and operations that leave the channel engines alone. -/

namespace Sys2Proof.Machine

/-- A command that leaves the channel engines alone makes no request of device memory that could wait. -/
theorem State.accepted_of_chans {s v : State} (h : v.chans = s.chans) : s.accepted v = v := by
  refine State.accepted_served (Nat.le_of_eq ?_)
  unfold State.waitingRequests
  rw [h]

@[simp] theorem State.event_chans (s : State) (ctx c r n : Nat) : (s.event ctx c r n).chans = s.chans := rfl

@[simp] theorem State.tileEvent_chans (s : State) (p c n : Nat) : (s.tileEvent p c n).chans = s.chans := rfl

@[simp] theorem State.race_chans (s : State) (t : Nat) (q : Option Part) (n : Nat) : (s.race t q n).chans = s.chans := by
  unfold State.race
  split
  · rfl
  · cases q <;> exact State.bump_chans ..

@[simp] theorem State.pass3_chans (s : State) (id : Nat) (ph : Phase) : (s.pass3 id ph).chans = s.chans := rfl

@[simp] theorem State.reject_chans (s : State) (id c : Nat) : (s.reject id c).chans = s.chans := State.endItem_chans ..

theorem State.startWake_chans (s : State) : s.startWake.chans = s.chans := by
  unfold State.startWake
  simp only
  split
  · rw [State.applyPoints_eq]
    rfl
  · rfl

end Sys2Proof.Machine
end

section
/-! SUPPORT. The DMA engines of a tile: the start of an entry, one row of a transfer, the finish (O26). -/

namespace Sys2Proof.Machine

/-! ## An entry starts -/

/-- The front entry of an engine starts when the prologue has issued and its wait is satisfied. -/
theorem dmaEntryStart_front {s : State} {t p e : Nat} {en : DmaEntry} {r : List DmaEntry} (he : e < 4) (ha : s.acts t p = true)
    (hq : ((s.tile p).engine e).entries = en :: r) : exec (.dmaEntryStart t e) s = .next
      (if !((s.tile p).engine e).started && (s.tile p).prologueDone && (!en.waits || ((s.tile p).engine e).released) then
        s.setTile p ((s.tile p).setEngine e { (s.tile p).engine e with started := true, transfer := 0, moving := none }) else s) := by
  show execDmaEntryStart t e s = _
  unfold execDmaEntryStart
  rw [onUnit_ok (decide_eq_true he), onTile_at ha]
  simp only [hq]

/-! ## One row of a transfer -/

/-- The state after one row of a transfer: it is granted, counts a contention it meets, and is written where the entry fills the scratchpad (R52, R172). -/
def State.rowMoved (s : State) (t p e : Nat) (tl : Tile) (en : DmaEntry) (m : Moving) (g : Nat × Nat) : State :=
  ((s.race t tl.part (tl.dmaRaces en g)).tileEvent p evRow 1).setTile p
    ((if en.fills then tl.fillRow m g else tl).setEngine e { tl.engine e with moving := some (m.past tl en g) })

theorem State.rowMoved_chans (s : State) (t p e : Nat) (tl : Tile) (en : DmaEntry) (m : Moving) (g : Nat × Nat) :
    (s.rowMoved t p e tl en m g).chans = s.chans := by
  unfold State.rowMoved
  simp only [State.setTile_chans, State.tileEvent_chans, State.race_chans]

/-- A row with others left behind it: the memory side is not asked. -/
theorem State.dmaRow_inner {m : Moving} {g : Nat × Nat} {gs : List (Nat × Nat)} (hm : m.rows = g :: gs) (hgs : gs ≠ []) (s : State) (t p e : Nat)
    (tl : Tile) (i : Item) (en : DmaEntry) : s.dmaRow t p e tl i en m = s.rowMoved t p e tl en m g := by
  have hne : gs.isEmpty = false := by simpa using hgs
  unfold State.dmaRow
  simp only [hm, hne]
  rfl

/-- The last row, with the memory side ready: the transfer ends behind it. -/
theorem State.dmaRow_last {s : State} {i : Item} {en : DmaEntry} {m : Moving} {g : Nat × Nat} (hm : m.rows = [g])
    (hr : s.sideReady i.fn en m.side = true) (t p e : Nat) (tl : Tile) :
    s.dmaRow t p e tl i en m = (s.rowMoved t p e tl en m g).dmaEnd t p e i en (m.past tl en g) := by
  unfold State.dmaRow
  simp only [hm, hr]
  rfl

/-! ## `DMA_TRANSFER` -/

/-- The started entry of an engine has a transfer left, which is under way or finds room in its bangle. -/
def State.transferDue (s : State) (p e : Nat) (en : DmaEntry) (i : Item) (r : Region) : Prop :=
  s.dmaNow (s.tile p) e = some (en, i, r) ∧ ((s.tile p).engine e).started = true ∧ ((s.tile p).engine e).transfer < dmaCount i en r ∧
    (((s.tile p).engine e).moving.isSome = true ∨ (s.tile p).dmaRoom en = true)

/-- The transfer of an engine that moves its next row: the one under way, or the one that begins now. -/
def State.transferNow (s : State) (p e : Nat) (en : DmaEntry) (i : Item) (r : Region) : Moving × State :=
  match ((s.tile p).engine e).moving with
  | some m => (m, s)
  | none => s.dmaBegin i en r ((s.tile p).engine e).transfer ((s.tile p).dmaSegs en ((s.tile p).engine e).transfer)

theorem State.transferNow_moving {s : State} {p e : Nat} {m : Moving} (h : ((s.tile p).engine e).moving = some m) (en : DmaEntry) (i : Item) (r : Region) :
    s.transferNow p e en i r = (m, s) := by
  unfold State.transferNow
  rw [h]

theorem State.transferNow_begins {s : State} {p e : Nat} (h : ((s.tile p).engine e).moving = none) (en : DmaEntry) (i : Item) (r : Region) :
    s.transferNow p e en i r =
      s.dmaBegin i en r ((s.tile p).engine e).transfer ((s.tile p).dmaSegs en ((s.tile p).engine e).transfer) := by
  unfold State.transferNow
  rw [h]

/-- The command does not stop at a transfer that is due. -/
theorem State.transferDue.goes {s : State} {p e : Nat} {en : DmaEntry} {i : Item} {r : Region} (h : s.transferDue p e en i r) :
    (!((s.tile p).engine e).started || decide (dmaCount i en r ≤ ((s.tile p).engine e).transfer) ||
      (((s.tile p).engine e).moving.isNone && !(s.tile p).dmaRoom en)) = false := by
  obtain ⟨-, hs, hl, hroom⟩ := h
  rcases hroom with hmv | hroom
  · simp [hs, hl, Option.isNone_eq_false_iff.2 hmv]
  · simp [hs, hl, hroom]

section
variable {s : State} {t p e : Nat} {en : DmaEntry} {i : Item} {r : Region}

/-- A failed check is all that happens. -/
theorem dmaTransfer_failed (he : e < 4) (ha : s.acts t p = true) (h : s.transferDue p e en i r) {chk : Check} (hf : chk.failed = true) :
    exec (.dmaTransfer t e chk) s = .next (s.accepted (s.checkFailed t p chk false)) := by
  show execDmaTransfer t e chk s = _
  unfold execDmaTransfer
  rw [onUnit_ok (decide_eq_true he), onTile_at ha]
  simp only [h.1, h.goes, hf]
  rfl

/-- With no error found the transfer moves its next row. -/
theorem dmaTransfer_moves (he : e < 4) (ha : s.acts t p = true) (h : s.transferDue p e en i r) :
    exec (.dmaTransfer t e .pass) s = .next (s.accepted
      ((s.transferNow p e en i r).2.dmaRow t p e ((s.transferNow p e en i r).2.tile p) i en (s.transferNow p e en i r).1)) := by
  show execDmaTransfer t e .pass s = _
  unfold execDmaTransfer
  rw [onUnit_ok (decide_eq_true he), onTile_at ha]
  simp only [h.1, h.goes]
  rfl

end

/-- A parity error of a path counts, and faults the tile. -/
theorem State.checkFailed_parity (s : State) (t p : Nat) (inArray : Bool) :
    s.checkFailed t p (.parity inArray) false = (s.bump Fld.tileStoreErrPathPar t 1).tileFault t p false false := by
  unfold State.checkFailed
  rw [if_neg (by simp)]
  rfl

/-! ## `DMA_ENTRY_FINISH` -/

/-- The entry leaves its engine, and its operation returns. -/
def State.entryLeft (s : State) (t p e : Nat) : State :=
  (s.setTile p ((s.tile p).setEngine e ((s.tile p).engine e).next)).give 10 t 1

/-- An entry with every transfer done and room for its signal finishes. -/
theorem dmaEntryFinish_done {s : State} {t p e : Nat} {en : DmaEntry} {i : Item} {r : Region} (he : e < 4) (ha : s.acts t p = true)
    (hn : s.dmaNow (s.tile p) e = some (en, i, r)) (hs : ((s.tile p).engine e).started = true)
    (hl : dmaCount i en r ≤ ((s.tile p).engine e).transfer) (hroom : en.signals = true → (s.tile p).signalFits en.signalSync 1 = true) :
    exec (.dmaEntryFinish t e) s = .next ((if en.signals then (s.entryLeft t p e).signal t p en.signalSync 1 else s.entryLeft t p e).handOut t p) := by
  have hgo : (((s.tile p).engine e).started && decide (dmaCount i en r ≤ ((s.tile p).engine e).transfer) &&
      (!en.signals || (s.tile p).signalFits en.signalSync 1)) = true := by
    cases hsig : en.signals <;> simp_all
  show execDmaEntryFinish t e s = _
  unfold execDmaEntryFinish
  rw [onUnit_ok (decide_eq_true he), onTile_at ha]
  simp only [hn, hgo]
  rfl

/-! ## The statement -/

/-- Settles O26: a command of an engine runs on the tile that serves it; a transfer that is due moves one row (`dmaTransfer_moves`), which is the last of
the transfer or leaves others behind (`State.dmaRow_last`, `State.dmaRow_inner`). -/
theorem dmaEntriesStartTransferFinish : Obligations.DmaEntriesStartTransferFinish := by
  unfold Obligations.DmaEntriesStartTransferFinish
  refine ⟨fun s t p e en r he ha hq hst hpro => ?_, fun s t p e en i r d he ha hn hd hst hl => ?_, fun s t p e en i r u he ha hn hst hl hu => ?_⟩
  · rw [dmaEntryStart_front he ha hq]
    exact ⟨fun hw => by rcases hw with hw | hw <;> simp [hst, hpro, hw], fun hw hr => by simp [hw, hr]⟩
  · subst hd
    refine ⟨fun hm hroom => ?_, fun m g gs u hm hrows hu => ?_, fun inArray hroom => ?_⟩
    · rw [dmaTransfer_moves he ha ⟨hn, hst, hl, .inr hroom⟩, State.transferNow_begins hm]
    · rw [dmaTransfer_moves he ha ⟨hn, hst, hl, .inl (by rw [hm]; rfl)⟩, State.transferNow_moving hm]
      subst hu
      refine ⟨fun hgs => ?_, fun hgs hside => ?_⟩
      · rw [State.dmaRow_inner hrows hgs, State.accepted_of_chans (State.rowMoved_chans ..)]
        rfl
      · subst hgs
        rw [State.dmaRow_last hrows hside]
        rfl
    · rw [dmaTransfer_failed he ha ⟨hn, hst, hl, hroom⟩ rfl, State.checkFailed_parity]
  · subst hu
    refine ⟨fun hsig => ?_, fun hsig hroom => ?_⟩
    · rw [dmaEntryFinish_done he ha hn hst hl (by simp [hsig]), hsig]
      rfl
    · rw [dmaEntryFinish_done he ha hn hst hl fun _ => hroom, hsig]
      rfl

end Sys2Proof.Machine
end

section
/-! SUPPORT. The items of a ring at event 3 (O33). -/

namespace Sys2Proof.Machine

/-! ## A fenced context -/

/-- The item as it leaves event 3 in a fenced context. -/
def State.endFenced (s : State) (id : Nat) : State := ((s.pass3 id .passed3).addStatus id stFenced).endItem id

theorem State.endFenced_chans (s : State) (id : Nat) : (s.endFenced id).chans = s.chans := State.endItem_chans ..

/-- At event 3 of a fenced context an item ends, whatever its type would do (R381). -/
theorem onEvent3_fenced {s : State} {fn ring : Nat} {i : Item} {d : List Byte} {ty : Nat → Bool} {ready : State → Item → List Byte → Bool}
    (h : s.atEvent3 fn ring i d = true) (hf : s.fenced fn = true) (ht : ty (descType d) = true) (hr : ready s i d = true)
    (k : State → Item → List Byte → State) : onEvent3 fn ring ty ready s k = .next (s.endFenced i.id) := by
  rw [onEvent3_at h ht hr, if_pos hf]
  rfl

/-! ## The types -/

section
variable {s : State} {fn ring : Nat} {i : Item} {d : List Byte}

theorem nopDescriptor_passes (h : s.passes3 fn ring i d tyNop = true) :
    exec (.nopDescriptor fn ring) s = .next ((s.pass3 i.id .passed3).endItem i.id) := by
  show execNopDescriptor fn ring s = _
  unfold execNopDescriptor
  exact onEvent3_passes h rfl rfl _

/-- A launch with a board, a variant and a parameter block that reads unmarked. -/
theorem launch_reads {v : State} {n : Nat} {bytes : List Byte} (h : s.passes3 fn ring i d tyLaunch = true)
    (hr : descDev d = true ∨ s.hostReady i.fn = true) (hn : (s.pass3 i.id .passed3).paramSize fn d = some n)
    (hb : (s.pass3 i.id .passed3).tenantRead fn (leAt d 0x18 8) n (descDev d) = (some (bytes, false), v)) :
    exec (.launch fn ring) s =
      .next (s.accepted (v.modItem i.id (fun i => { i with launch := some (Launch.ofBlock d (some bytes)) }))) := by
  show execLaunch fn ring s = _
  unfold execLaunch
  rw [onEvent3_passes h rfl (by rcases hr with hr | hr <;> simp [hr])]
  simp only [hn, hb]
  rfl

/-- A launch without a board or a variant reads no parameter block. -/
theorem launch_unresolved (h : s.passes3 fn ring i d tyLaunch = true) (hr : descDev d = true ∨ s.hostReady i.fn = true)
    (hn : (s.pass3 i.id .passed3).paramSize fn d = none) :
    exec (.launch fn ring) s = .next ((s.pass3 i.id .passed3).modItem i.id (fun i => { i with launch := some (Launch.ofBlock d none) })) := by
  show execLaunch fn ring s = _
  unfold execLaunch
  rw [onEvent3_passes h rfl (by rcases hr with hr | hr <;> simp [hr])]
  simp only [hn]
  exact congrArg Host.Outcome.next (State.accepted_of_chans rfl)

/-- A load of the item's function: an occupied handle is refused, an empty one is loaded. -/
theorem load_passes (h : s.passes3 fn ring i d tyLoad = true) (hr : descDev d = true ∨ s.hostReady i.fn = true) (hfn : i.fn = fn) :
    exec (.load fn ring) s = .next (s.accepted (if (s.board fn (descHandle d)).isSome then (s.pass3 i.id .passed3).reject i.id causeHandle
      else (s.pass3 i.id .passed3).loadCopy fn i.id d)) := by
  subst hfn
  show execLoad i.fn ring s = _
  unfold execLoad
  rw [onEvent3_passes h rfl (by rcases hr with hr | hr <;> simp [hr])]
  rfl

/-- A retire of a loaded board that no unchecked launch of the function names. -/
theorem retire_loaded {b : Board} (h : s.passes3 fn ring i d tyRetire = true)
    (hu : (s.unchecked i.fn).all (fun j => (j.launch.map (·.handle)) != some (descHandle d)) = true)
    (hb : s.board fn (descHandle d) = some b) (hret : b.retiring = none) : exec (.retire fn ring) s =
      .next (((s.pass3 i.id .passed3).setBoard fn (descHandle d) (some { b with retiring := some i.id })).retireComplete fn (descHandle d)) := by
  have hb' : (s.pass3 i.id .passed3).board fn (descHandle d) = some b := hb
  show execRetire fn ring s = _
  unfold execRetire
  rw [onEvent3_passes h rfl hu]
  simp only [hb', hret]
  rfl

/-- A retire of a handle that is empty or already retiring. -/
theorem retire_refused (h : s.passes3 fn ring i d tyRetire = true)
    (hu : (s.unchecked i.fn).all (fun j => (j.launch.map (·.handle)) != some (descHandle d)) = true)
    (hret : ∀ b, s.board fn (descHandle d) = some b → b.retiring ≠ none) :
    exec (.retire fn ring) s = .next ((s.pass3 i.id .passed3).reject i.id causeHandle) := by
  show execRetire fn ring s = _
  unfold execRetire
  rw [onEvent3_passes h rfl hu]
  cases hb : s.board fn (descHandle d) with
  | none =>
    have hb' : (s.pass3 i.id .passed3).board fn (descHandle d) = none := hb
    simp only [hb']
  | some b =>
    have hb' : (s.pass3 i.id .passed3).board fn (descHandle d) = some b := hb
    simp only [hb', Option.isSome_iff_ne_none.2 (hret b hb), if_true]

/-- Step 1 of R366 finds a type that R361 does not list. -/
theorem State.descCause_unlisted (hty : typeListed (descType d) = false) : s.descCause fn d = some causeLayout := by
  unfold State.descCause
  simp only [hty]
  rfl

theorem unlistedDescriptorType_rejects (h : s.atEvent3 fn ring i d = true) (hf : s.fenced fn = false) (hty : typeListed (descType d) = false) :
    exec (.unlistedDescriptorType fn ring) s = .next ((s.pass3 i.id .passed3).reject i.id causeLayout) := by
  show execUnlistedDescriptorType fn ring s = _
  unfold execUnlistedDescriptorType
  rw [onEvent3_at h (by rw [hty]; rfl) rfl, State.descCause_unlisted hty]
  simp only [hf]
  rfl

/-- In a fenced context the command of each type ends the item. -/
theorem items_fenced (h : s.atEvent3 fn ring i d = true) (hf : s.fenced fn = true) :
    (descType d = tyNop → exec (.nopDescriptor fn ring) s = .next (s.endFenced i.id)) ∧
    (typeListed (descType d) = false → exec (.unlistedDescriptorType fn ring) s = .next (s.endFenced i.id)) ∧
    (descType d = tyLaunch → descDev d = true → exec (.launch fn ring) s = .next (s.endFenced i.id)) ∧
    (descType d = tyLoad → descDev d = true → exec (.load fn ring) s = .next (s.endFenced i.id)) ∧
    (descType d = tyRetire → s.unchecked i.fn = [] → exec (.retire fn ring) s = .next (s.endFenced i.id)) := by
  have hacc : s.accepted (s.endFenced i.id) = s.endFenced i.id := State.accepted_of_chans (s.endFenced_chans i.id)
  refine ⟨fun ht => ?_, fun ht => ?_, fun ht hdev => ?_, fun ht hdev => ?_, fun ht hun => ?_⟩
  · show execNopDescriptor fn ring s = _
    unfold execNopDescriptor
    exact onEvent3_fenced h hf (by rw [ht]; rfl) rfl _
  · show execUnlistedDescriptorType fn ring s = _
    unfold execUnlistedDescriptorType
    exact onEvent3_fenced h hf (by rw [ht]; rfl) rfl _
  · show execLaunch fn ring s = _
    unfold execLaunch
    rw [onEvent3_fenced h hf (by rw [ht]; rfl) (by rw [hdev]; rfl), State.accepting_next, hacc]
  · show execLoad fn ring s = _
    unfold execLoad
    rw [onEvent3_fenced h hf (by rw [ht]; rfl) (by rw [hdev]; rfl), State.accepting_next, hacc]
  · show execRetire fn ring s = _
    unfold execRetire
    exact onEvent3_fenced h hf (by rw [ht]; rfl) (by rw [hun]; rfl) _

end

/-! ## The statement -/

/-- Settles O33: an item that passes event 3 does what its type does, and one of a fenced context ends before its type matters (`onEvent3_fenced`). -/
theorem itemsPassEventThree : Obligations.ItemsPassEventThree := by
  unfold Obligations.ItemsPassEventThree
  refine ⟨fun s fn ring i d => nopDescriptor_passes, fun s v fn ring n i d bytes h hr => ⟨launch_reads h hr, launch_unresolved h hr⟩,
    fun s fn ring i d h hr hfn => ?_, fun s fn ring i d h hu => ⟨fun b => retire_loaded h hu, retire_refused h hu⟩,
    fun s fn ring i d => unlistedDescriptorType_rejects, fun s u fn ring i d h hf hu => hu ▸ items_fenced h hf⟩
  rw [load_passes h hr hfn]
  refine ⟨fun hb => ?_, fun hb => ?_⟩
  · rw [hb]
    rfl
  · rw [if_pos (Option.isSome_iff_ne_none.2 hb)]
    exact congrArg Host.Outcome.next (State.accepted_of_chans (State.reject_chans ..))

end Sys2Proof.Machine
end

section
/-! SUPPORT. Accesses to one line of the CXL.mem window (O39). -/

namespace Sys2Proof.Machine

/-! ## A request in one line -/

/-- A request that lies in one 64-byte line is one codeword access (R254). -/
theorem cwSplit_line {a n : Nat} (hn : n ≠ 0) (h : a % 64 + n ≤ 64) : cwSplit a n = [(64 * (a / 64), a % 64, n)] := by
  have hone : (a + n - 1) / 64 - a / 64 + 1 = 1 := by omega
  unfold cwSplit
  rw [if_neg hn, hone]
  have hlo : max a (64 * (a / 64)) = a := by omega
  have hoff : a - 64 * (a / 64) = a % 64 := by omega
  have hlen : min (a + n) (64 * (a / 64) + 64) - a = n := by omega
  simp [hlo, hoff, hlen]

/-- The segment keeps the place in the line. -/
theorem State.segAddr_line (s : State) (o : Nat) : s.segAddr o % 64 = o % 64 := by
  unfold State.segAddr
  omega

theorem State.inWindow_len {s : State} {o n : Nat} (h : s.inWindow o n = true) : n ≠ 0 := by
  simp only [State.inWindow, Bool.and_eq_true, bne_iff_ne] at h
  exact h.1.2

section
variable {s : State} {ctx a : Nat} {bytes : List Byte} {m : Bool}

/-- A line that a board protects: its write is discarded and counted (R80). -/
theorem State.protectedWrite_protected {t : Nat} (hn : bytes.length ≠ 0) (hl : a % 64 + bytes.length ≤ 64) (hp : s.protects a bytes.length = some t) :
    s.protectedWrite ctx a bytes m = s.bump Fld.boardFaultWprot t 1 := by
  have ha : 64 * (a / 64) + a % 64 = a := Nat.div_add_mod a 64
  unfold State.protectedWrite
  rw [cwSplit_line hn hl]
  simp only [List.foldl_cons, List.foldl_nil, ha, hp]

/-- The bytes of a write that all carry one mark carry that mark together. -/
theorem any_marked (hn : bytes.length ≠ 0) : (bytes.map (fun b => (b, m))).any Prod.snd = m := by
  obtain ⟨b, bs, rfl⟩ := List.exists_cons_of_length_pos (Nat.pos_of_ne_zero hn)
  cases m <;> simp

/-- Any other line is written as device memory writes it, every byte with the mark of the write. -/
theorem State.protectedWrite_free (hn : bytes.length ≠ 0) (hl : a % 64 + bytes.length ≤ 64) (hp : s.protects a bytes.length = none) :
    s.protectedWrite ctx a bytes m = s.storeMarked ctx a (bytes.map (fun b => (b, m))) := by
  have ha : 64 * (a / 64) + a % 64 = a := Nat.div_add_mod a 64
  have hall : (bytes.map (fun b => (b, m))).map Prod.fst = bytes := by simp [Function.comp_def]
  unfold State.protectedWrite State.storeMarked State.memWriteMarked State.storeBursts State.slots
  simp only [List.length_map, cwSplit_line hn hl, List.foldl_cons, List.foldl_nil, List.map_cons, List.map_nil, ha, hp, Nat.sub_self, List.drop_zero,
    Nat.zero_add]
  rw [List.take_of_length_le (Nat.le_refl _), List.take_of_length_le (Nat.le_of_eq (List.length_map _)), hall, any_marked hn]

end

/-! ## Accesses -/

/-- The state after the request of an access in one line has come over the link (R342, R427). -/
def State.cxlCounted (s : State) : State := s.decoderUsed.event baseContext evCxl noRegion 1

/-- An access that only counts leaves the channel engines alone. -/
theorem State.cxlCounted_bump_chans (s : State) (f : Field) (i n : Nat) : (s.cxlCounted.bump f i n).chans = s.chans := State.bump_chans ..

/-- The answer of a read over the link. -/
def State.cxlAnswers (s : State) (bytes : List Byte) (m : Bool) : State := { s with outs := { s.outs with cxlData := bytes, cxlPoison := m } }

theorem State.cxlAnswers_chans (s : State) (bytes : List Byte) (m : Bool) : (s.cxlAnswers bytes m).chans = s.chans := rfl

section
variable {s : State} {o : Nat}

theorem State.cxlRead_line {n : Nat} (hn : n ≠ 0) (hl : o % 64 + n ≤ 64) {bytes : List Byte} {m : Bool} {v : State}
    (hr : s.cxlCounted.cxlReadLine o n = (bytes, m, v)) :
    s.cxlRead o n = v.cxlAnswers bytes m := by
  have ho : 64 * (o / 64) + o % 64 = o := Nat.div_add_mod o 64
  have hr' : (s.decoderUsed.event baseContext evCxl noRegion 1).cxlReadLine o n = (bytes, m, v) := hr
  unfold State.cxlRead
  simp only [cwSplit_line hn hl, List.foldl_cons, List.foldl_nil, List.length_singleton, ho, hr', List.nil_append, Bool.false_or]
  rfl

theorem State.cxlWrite_line {bytes : List Byte} (hn : bytes.length ≠ 0) (hl : o % 64 + bytes.length ≤ 64) (m : Bool) :
    s.cxlWrite o bytes m = s.cxlCounted.cxlWriteLine o bytes m := by
  have ho : 64 * (o / 64) + o % 64 = o := Nat.div_add_mod o 64
  unfold State.cxlWrite
  simp only [cwSplit_line hn hl, List.foldl_cons, List.foldl_nil, List.length_singleton, ho, Nat.sub_self, List.drop_zero]
  rw [List.take_of_length_le (Nat.le_refl _)]
  rfl

/-- A read that the segment serves reads device memory at the segment's address; any other answers zeros and counts (R343). -/
theorem State.cxlReadLine_served {n : Nat} (h : s.segServes o n false = true) :
    s.cxlReadLine o n = s.takeFor baseContext (s.segAddr o) n := if_pos h

theorem State.cxlReadLine_unserved {n : Nat} (h : s.segServes o n false = false) :
    s.cxlReadLine o n = (List.replicate n 0, false, s.bump Fld.cxmErrZeroreads 0 1) := if_neg (by simp [h])

section
variable {bytes : List Byte} {m : Bool}

theorem State.cxlWriteLine_unserved (h : s.segServes o bytes.length true = false) : s.cxlWriteLine o bytes m = s.bump Fld.cxmErrDropped 0 1 := if_pos (by simp [h])

theorem State.cxlWriteLine_protected {t : Nat} (hn : bytes.length ≠ 0) (hl : o % 64 + bytes.length ≤ 64) (h : s.segServes o bytes.length true = true)
    (hp : s.protects (s.segAddr o) bytes.length = some t) : s.cxlWriteLine o bytes m = s.bump Fld.boardFaultWprot t 1 := by
  unfold State.cxlWriteLine
  rw [if_neg (by simp [h])]
  simp only [hp]
  exact State.protectedWrite_protected hn (by rwa [State.segAddr_line]) hp

theorem State.cxlWriteLine_free (hn : bytes.length ≠ 0) (hl : o % 64 + bytes.length ≤ 64) (h : s.segServes o bytes.length true = true)
    (hp : s.protects (s.segAddr o) bytes.length = none) : s.cxlWriteLine o bytes m =
      if s.holds (s.segAddr o) then (s.storeMarked baseContext (s.segAddr o) (bytes.map (fun b => (b, m)))).inboxSees (s.segAddr o) bytes.length
      else s.storeMarked baseContext (s.segAddr o) (bytes.map (fun b => (b, m))) := by
  unfold State.cxlWriteLine
  rw [if_neg (by simp [h])]
  simp only [hp, State.protectedWrite_free hn (by rwa [State.segAddr_line]) hp]
  rfl

end
end

/-! ## The commands -/

section
variable {s : State} {o : Nat}

theorem cxlMemRead_inWindow {n : Nat} (hw : s.inWindow o n = true) :
    exec (.cxlMemRead o n) s = s.accepting (onAccess (.cxlMemRead o n) s fun s => s.cxlRead o n) := by
  show execCxlMemRead o n s = _
  unfold execCxlMemRead
  exact if_neg (by simp [hw])

theorem cxlMemWrite_inWindow {bytes : List Byte} {m : Bool} (hw : s.inWindow o bytes.length = true) :
    exec (.cxlMemWrite o bytes m) s = s.accepting (onAccess (.cxlMemWrite o bytes m) s fun s => s.cxlWrite o bytes m) := by
  show execCxlMemWrite o bytes m s = _
  unfold execCxlMemWrite
  exact if_neg (by simp [hw])

/-- In P1 or P2 an access starts a wake and is kept. -/
theorem onAccess_waits {c : Instr} {k : State → State} (h : s.fld Fld.pwrStatState 0 = 1 ∨ s.fld Fld.pwrStatState 0 = 2) :
    s.accepting (onAccess c s k) = .next { s.startWake with waiting := s.waiting ++ [c] } := by
  have hp : s.inP0 = false := by
    unfold State.inP0
    rcases h with h | h <;> rw [h] <;> rfl
  have hwait : s.await c = { s.startWake with waiting := s.waiting ++ [c] } := if_pos h
  have hchans : (s.await c).chans = s.chans := by rw [hwait]; exact s.startWake_chans
  rw [onAccess_asleep hp, State.accepting_next, State.accepted_of_chans hchans, hwait]

end

/-! ## The statement -/

/-- Settles O39: an access in one line is one request, which the segment serves or not; what it does not serve, and what a board protects, makes no request
of device memory. -/
theorem cxlAccessesReachTheSegment : Obligations.CxlAccessesReachTheSegment := by
  unfold Obligations.CxlAccessesReachTheSegment
  refine ⟨fun s e o n hw hp hl he => ?_, fun s e o a bytes m hw hp hl he ha => ?_, fun s o n bytes m hst => ⟨fun hw => ?_, fun hw => ?_⟩⟩
  · have hn := State.inWindow_len hw
    have hcnt : e = s.cxlCounted := he
    subst hcnt
    rw [cxlMemRead_inWindow hw, onAccess_p0 hp, State.accepting_next]
    refine ⟨fun bytes m v hs hr => ?_, fun hs => ?_⟩
    · rw [State.cxlRead_line hn hl ((State.cxlReadLine_served (s := s.cxlCounted) hs).trans hr)]
      rfl
    · rw [State.cxlRead_line hn hl (State.cxlReadLine_unserved (s := s.cxlCounted) hs),
        State.accepted_of_chans ((State.cxlAnswers_chans ..).trans (s.cxlCounted_bump_chans ..)), State.cxlAnswers, State.bump_outs]
      rfl
  · have hn := State.inWindow_len hw
    have hcnt : e = s.cxlCounted := he
    subst hcnt ha
    rw [cxlMemWrite_inWindow hw, onAccess_p0 hp, State.accepting_next, State.cxlWrite_line hn hl]
    refine ⟨fun hs => ⟨fun t hpr => ?_, fun hpr => ?_⟩, fun hs => ?_⟩
    · rw [State.cxlWriteLine_protected (s := s.cxlCounted) hn hl hs hpr, State.accepted_of_chans (s.cxlCounted_bump_chans ..)]
    · rw [State.cxlWriteLine_free (s := s.cxlCounted) hn hl hs hpr]
      rfl
    · rw [State.cxlWriteLine_unserved (s := s.cxlCounted) hs, State.accepted_of_chans (s.cxlCounted_bump_chans ..)]
  · rw [cxlMemRead_inWindow hw, onAccess_waits hst]
  · rw [cxlMemWrite_inWindow hw, onAccess_waits hst]

end Sys2Proof.Machine
end

section
/-! SUPPORT. Issue and completion of a tile's instructions (O12, O13), and the instructions `LOOP` and `END` (O14). -/

namespace Sys2Proof.Machine

/-! ## The storage of tiles after counts -/

@[simp] theorem State.issue_tile (s : State) (pool idx n p : Nat) : (s.issue pool idx n).tile p = s.tile p := rfl

@[simp] theorem State.give_tile (s : State) (pool idx n p : Nat) : (s.give pool idx n).tile p = s.tile p := rfl

@[simp] theorem State.tileEvent_tile (s : State) (k c n p : Nat) : (s.tileEvent k c n).tile p = s.tile p := rfl

@[simp] theorem State.peak_tile (s : State) (t k p : Nat) : (s.peak t k).tile p = s.tile p := rfl

/-! ## The completion signal (R96, R185) -/

theorem State.completionSignal_tile_self {s : State} (hs : Tab.sorted s.tiles = true) (t p : Nat) (i : Insn) :
    (s.completionSignal t p i).tile p = if i.signal then (s.tile p).signalled i.signalObj 1 else s.tile p := by
  unfold State.completionSignal
  split
  · exact State.tile_setTile_self hs p _
  · rfl

theorem State.completionSignal_tile_other {s : State} (hs : Tab.sorted s.tiles = true) {p q : Nat} (hq : q ≠ p) (t : Nat) (i : Insn) :
    (s.completionSignal t p i).tile q = s.tile q := by
  unfold State.completionSignal
  split
  · exact State.tile_setTile_other hs hq _
  · rfl

theorem State.completionSignal_eq (s : State) (t p : Nat) (i : Insn) :
    s.completionSignal t p i = { s with tiles := (s.completionSignal t p i).tiles, audit := (s.completionSignal t p i).audit } := by
  unfold State.completionSignal
  split <;> rfl

/-! ## Issue (R96, R100) -/

section
variable {s : State} (hs : Tab.sorted s.tiles = true) (t p : Nat)
include hs

theorem State.issueInstant_tile_self (i : Insn) (f : Tile → Tile) : (s.issueInstant t p i f).tile p =
    if i.signal then (f ((s.tile p).advance.stepped s.tally)).signalled i.signalObj 1 else f ((s.tile p).advance.stepped s.tally) := by
  have hself := State.tile_setTile_self hs p (f ((s.tile p).advance.stepped s.tally))
  refine (State.completionSignal_tile_self (s := ((s.setTile p _).issue 10 t 1).give 10 t 1) (Tab.sorted_set hs) t p i).trans ?_
  rw [State.give_tile, State.issue_tile, hself]

theorem State.issueInstant_tile_other {q : Nat} (hq : q ≠ p) (i : Insn) (f : Tile → Tile) : (s.issueInstant t p i f).tile q = s.tile q :=
  (State.completionSignal_tile_other (s := ((s.setTile p _).issue 10 t 1).give 10 t 1) (Tab.sorted_set hs) hq t i).trans
    (State.tile_setTile_other hs hq _)

theorem State.issueOp_tile_self (x : Op) : (s.issueOp t p x).tile p =
    { ((s.tile p).advance.stepped s.tally) with ops := (s.tile p).ops ++ [x], nextOp := (s.tile p).nextOp + 1 } :=
  State.tile_setTile_self hs p _

theorem State.issueOp_tile_other {q : Nat} (hq : q ≠ p) (x : Op) : (s.issueOp t p x).tile q = s.tile q := State.tile_setTile_other hs hq _

end

theorem State.issueInstant_eq (s : State) (t p : Nat) (i : Insn) (f : Tile → Tile) : s.issueInstant t p i f =
    { s with tiles := (s.issueInstant t p i f).tiles, audit := (s.issueInstant t p i f).audit, power := (s.issueInstant t p i f).power } := by
  unfold State.issueInstant
  dsimp only
  rw [State.completionSignal_eq]
  rfl

/-- Settles O13: both forms of issue set the one tile and count; the completion signal adds to the tile just set. -/
theorem tileIssueChangesOneTile : Obligations.TileIssueChangesOneTile := by
  unfold Obligations.TileIssueChangesOneTile
  intro s t p i f x hc
  have hs := State.canonical.tiles hc
  exact ⟨State.issueInstant_tile_self hs t p i f, fun q hq => ⟨State.issueInstant_tile_other hs t p hq i f, State.issueOp_tile_other hs t p hq x⟩,
    State.issueInstant_eq s t p i f, State.issueOp_tile_self hs t p x, rfl⟩

/-! ## Waits at a bangle (R193) -/

theorem Tile.bangleReady_of {tl : Tile} {i : Insn} {b : Bangle} (hb : tl.bangle (i.arg 0 4) = some b) (data : Bool) :
    tl.bangleReady i data = b.ready data (i.arg 4 23) := by
  unfold Tile.bangleReady
  rw [hb]

/-- A wait whose condition holds completes in its issue step; one whose condition does not hold holds issue. -/
theorem State.bangleWait_issues {tl : Tile} {i : Insn} {data : Bool} (hr : tl.signalRoom i = true) (hh : tl.held = false) (s : State) (t p : Nat) :
    s.bangleWait t p tl i data =
      if tl.bangleReady i data then s.issueInstant t p i id else s.setTile p { (tl.stepped s.tally) with held := true } := by
  unfold State.bangleWait
  rw [if_neg (by simp [hr, hh])]

/-- Settles O12: each of the instructions, where it may issue (`onInsn_at`), completes in its issue step once its condition holds. -/
theorem instantInstructionsComplete : Obligations.InstantInstructionsComplete := by
  unfold Obligations.InstantInstructionsComplete
  refine ⟨fun s t p i h hr => ?nop, fun s t p i h hr => ⟨fun he => ?fence, fun he => ?fenceWaits⟩, fun s t p i h hr => ?scfg, fun s t p i h hr => ?bcfg,
    fun s t p i b h hr hh hb => ?bwaitd, fun s t p i b h hr hh hb => ?bwaits, fun s t p i b ha hn hr hh hb hc => ?satisfied⟩
  case nop =>
    show execNop t s = _
    rw [execNop, onInsn_at h, if_pos hr]
  case fence =>
    show execFence t s = _
    rw [execFence, onInsn_at h, if_pos (by simp [he, hr])]
  case fenceWaits =>
    show execFence t s = _
    rw [execFence, onInsn_at h, if_neg (by simp [he])]
  case scfg =>
    show execScfg t s = _
    rw [execScfg, onInsn_at h, if_pos hr]
  case bcfg =>
    show execBcfg t s = _
    rw [execBcfg, onInsn_at h, if_pos hr]
  case bwaitd =>
    have hexec : exec (.bwaitd t) s = .next (s.bangleWait t p (s.tile p) i true) := onInsn_at h fun p tl i => s.bangleWait t p tl i true
    rw [hexec, State.bangleWait_issues hr hh, Tile.bangleReady_of hb]
    exact ⟨fun hf => by simp [Bangle.ready, hf], fun hf => by simp [Bangle.ready, Nat.not_le.2 hf]⟩
  case bwaits =>
    have hexec : exec (.bwaits t) s = .next (s.bangleWait t p (s.tile p) i false) := onInsn_at h fun p tl i => s.bangleWait t p tl i false
    rw [hexec, State.bangleWait_issues hr hh, Tile.bangleReady_of hb]
    exact ⟨fun hf => by simp [Bangle.ready, hf], fun hf => by simp [Bangle.ready, Nat.not_le.2 hf]⟩
  case satisfied =>
    show execBangleWaitSatisfied t s = _
    rw [execBangleWaitSatisfied, onTile_at ha]
    simp only [hn, Tile.bangleReady_of hb]
    refine congrArg _ (if_pos ?_)
    rcases hc with ⟨ho, hf⟩ | ⟨ho, hf⟩
    · simp [hh, hr, ho, Bangle.ready, hf]
    · have hne : opBwaits ≠ opBwaitd := by decide
      simp [hh, hr, ho, hne, Bangle.ready, hf]

/-! ## `LOOP` and `END` (R92, R97, R101) -/

/-- A `LOOP` with room for its signal moves the position, and one issue step of its class counts. -/
theorem loop_issues {s : State} {t p : Nat} {i : Insn} (h : s.atInsn t p opLoop i = true) (hr : (s.tile p).signalRoom i = true) :
    exec (.loop t) s = .next (((s.setTile p (((s.tile p).stepped s.tally).enterLoop i (s.tripOf (s.tile p) i))).completionSignal t p i).tileEvent p 0 1) := by
  obtain ⟨-, -, ho, -⟩ := State.atInsn_iff.1 h
  have hclass : i.evClass = 0 := by rw [Insn.evClass, ho]; rfl
  show execLoop t s = _
  rw [execLoop, onInsn_at h, if_pos hr, hclass]

/-- Settles O14: the position after `LOOP` is that of `Tile.enterLoop`; `END` ends the stream; the completion signal is the frame of both. -/
theorem loopAndEndMoveTheStream : Obligations.LoopAndEndMoveTheStream := by
  unfold Obligations.LoopAndEndMoveTheStream
  refine ⟨fun s t p i h hr => ⟨fun htrip => ?skips, fun htrip => ?enters⟩, fun s t p i h hr => ?ends,
    fun s t p i hr => ⟨fun h => ?noRoomLoop, fun h => ?noRoomEnd⟩, fun s t p i hc => ?signal⟩
  case skips =>
    rw [loop_issues h hr, Tile.enterLoop, if_pos htrip]
    rfl
  case enters =>
    rw [loop_issues h hr, Tile.enterLoop, if_neg htrip]
    rfl
  case ends =>
    obtain ⟨-, -, ho, -⟩ := State.atInsn_iff.1 h
    have hclass : i.evClass = 0 := by rw [Insn.evClass, ho]; rfl
    show execEndStream t s = _
    rw [execEndStream, onInsn_at h, if_pos hr, hclass]
  case noRoomLoop =>
    show execLoop t s = _
    rw [execLoop, onInsn_at h, if_neg (by simp [hr])]
  case noRoomEnd =>
    show execEndStream t s = _
    rw [execEndStream, onInsn_at h, if_neg (by simp [hr])]
  case signal =>
    have hs := State.canonical.tiles hc
    exact ⟨State.completionSignal_tile_self hs t p i, State.completionSignal_eq s t p i, fun q hq => State.completionSignal_tile_other hs hq t i⟩

end Sys2Proof.Machine
end

section
/-! SUPPORT. Waits on sync objects (O16), operations that complete, and parts that end (O21). -/

namespace Sys2Proof.Machine

/-! ## `WAIT_SATISFIED` (R186, R187) -/

theorem Tile.waitReady_iff (tl : Tile) (o : Nat) : tl.waitReady o = true ↔ tl.thresh o ≤ tl.count o := decide_eq_true_iff

section
variable {s : State} {t p : Nat} (ha : s.acts t p = true)
include ha

/-- The next instruction of the stream waits on its object. -/
theorem waitSatisfied_instr {i : Insn} (hn : (s.tile p).next = some i) (hw : i.wait = true) (hrel : (s.tile p).released = false)
    (hred : i.opc.toNat ≠ opRed) : exec (.waitSatisfied t .instr) s = .next
      (if (s.tile p).thresh i.waitObj ≤ (s.tile p).count i.waitObj then
        (s.consumeWait t p i.waitObj).setTile p { (s.consumeWait t p i.waitObj).tile p with released := true } else s) := by
  show execWaitSatisfied t .instr s = _
  rw [execWaitSatisfied, onUnit_ok (ok := Waiter.wf .instr) rfl, onTile_at ha]
  simp only [hn, hw, hrel, bne_iff_ne.2 hred, Bool.not_false, Bool.and_self, Bool.true_and, Tile.waitReady_iff]
  split <;> rfl

/-- The front entry of a DMA engine waits on its object once the prologue has issued. -/
theorem waitSatisfied_dma {e : Nat} {en : DmaEntry} {r : List DmaEntry} (he : e < 4) (hq : (Tab.get Dma.idle (s.tile p).dma e).entries = en :: r)
    (hw : en.waits = true) (hrel : (Tab.get Dma.idle (s.tile p).dma e).released = false)
    (hst : (Tab.get Dma.idle (s.tile p).dma e).started = false) (hpro : (s.tile p).prologueDone = true) :
    exec (.waitSatisfied t (.dma e)) s = .next (if (s.tile p).thresh en.waitSync ≤ (s.tile p).count en.waitSync then
      (s.consumeWait t p en.waitSync).setTile p { (s.consumeWait t p en.waitSync).tile p with
        dma := Tab.set Dma.idle ((s.consumeWait t p en.waitSync).tile p).dma e { Tab.get Dma.idle (s.tile p).dma e with released := true } } else s) := by
  show execWaitSatisfied t (.dma e) s = _
  rw [execWaitSatisfied, onUnit_ok (ok := Waiter.wf (.dma e)) (decide_eq_true he), onTile_at ha]
  simp only [hq, hw, hrel, hst, hpro, Bool.not_false, Bool.and_self, Bool.true_and, Tile.waitReady_iff]
  split <;> rfl

/-- A source of the `RED` at the front of the stream path waits on its object. -/
theorem waitSatisfied_redSource {n : Nat} {x : Op} (hn : n < 16) (hf : (s.tile p).streamFront = some x) (hw : x.redWaits n = true) :
    exec (.waitSatisfied t (.redSource n)) s = .next
      (if (s.tile p).thresh (x.insn.waitObj + n) ≤ (s.tile p).count (x.insn.waitObj + n) then
        (s.consumeWait t p (x.insn.waitObj + n)).setTile p ((((s.consumeWait t p (x.insn.waitObj + n)).tile p).stepped
          (s.consumeWait t p (x.insn.waitObj + n)).tally).modOp x.id (fun y => { y with ready := n :: y.ready })) else s) := by
  show execWaitSatisfied t (.redSource n) s = _
  rw [execWaitSatisfied, onUnit_ok (ok := Waiter.wf (.redSource n)) (decide_eq_true hn), onTile_at ha]
  simp only [hf, hw, Bool.true_and, Tile.waitReady_iff]
  split <;> rfl

end

/-- The tile after a satisfied wait: `THRESH` is consumed, and the watchdog starts again where an operation waited for room (R33, R185, R186). -/
def Tile.waitConsumed (tl : Tile) (tally o : Nat) : Tile :=
  { (if tl.ops.any tl.wantsRoom then tl.stepped tally else tl) with syncCount := Tab.set 0 tl.syncCount o (tl.count o - tl.thresh o) }

theorem State.consumeWait_eq (s : State) (t p o : Nat) :
    s.consumeWait t p o = (s.setTile p ((s.tile p).waitConsumed s.tally o)).give 8 t ((s.tile p).thresh o) := by
  unfold State.consumeWait Tile.waitConsumed
  dsimp only
  split <;> rfl

theorem State.consumeWait_tile_self {s : State} (hs : Tab.sorted s.tiles = true) (t p o : Nat) :
    (s.consumeWait t p o).tile p = (s.tile p).waitConsumed s.tally o := by
  rw [State.consumeWait_eq]
  exact State.tile_setTile_self hs p _

theorem State.consumeWait_tile_other {s : State} (hs : Tab.sorted s.tiles = true) {p q : Nat} (hq : q ≠ p) (t o : Nat) :
    (s.consumeWait t p o).tile q = s.tile q := by
  rw [State.consumeWait_eq]
  exact State.tile_setTile_other hs hq _

@[simp] theorem State.auditReturned_setTile (s : State) (p : Nat) (tl : Tile) (pool idx : Nat) :
    (s.setTile p tl).auditReturned pool idx = s.auditReturned pool idx := rfl

/-- What is given counts as returned. -/
theorem State.auditReturned_give {s : State} (hs : Tab.sorted s.audit = true) (pool idx n : Nat) :
    (s.give pool idx n).auditReturned pool idx = (s.auditReturned pool idx + n) % 2 ^ 32 := by
  unfold State.auditReturned State.give Tab.modify
  rw [Tab.get_set_self hs, Nat.mod_add_mod]

theorem Tile.canonical.syncCount {tl : Tile} (h : tl.canonical = true) : Tab.sorted tl.syncCount = true := by
  simp only [Tile.canonical, Bool.and_eq_true] at h
  tauto

/-- Settles O16: each waiter consumes when its object has reached `THRESH`, and what it consumes is the frame lemmas of `State.consumeWait`. -/
theorem satisfiedWaitConsumesThreshold : Obligations.SatisfiedWaitConsumesThreshold := by
  unfold Obligations.SatisfiedWaitConsumesThreshold
  refine ⟨fun s t p i ha hn hw hrel hred => ?_, fun s t p e en r he ha hq hw hrel hst hpro => ?_, fun s t p n x hn ha hf hw => ?_, fun s t p o hc _ => ?_⟩
  · rw [waitSatisfied_instr ha hn hw hrel hred]
    exact ⟨fun h => by rw [if_pos h], fun h => by rw [if_neg (Nat.not_le.2 h)]⟩
  · rw [waitSatisfied_dma ha he hq hw hrel hst hpro]
    exact ⟨fun h => by rw [if_pos h], fun h => by rw [if_neg (Nat.not_le.2 h)]⟩
  · rw [waitSatisfied_redSource ha hn hf hw]
    exact ⟨fun h => by rw [if_pos h], fun h => by rw [if_neg (Nat.not_le.2 h)]⟩
  · have hs := State.canonical.tiles hc
    have hsync := Tile.canonical.syncCount (State.canonical.tile hc p)
    rw [State.consumeWait_tile_self hs]
    refine ⟨Tab.get_set_self hsync, fun k hk => Tab.get_set_other hsync hk, ?_, ?_, fun q hq => State.consumeWait_tile_other hs hq t o⟩
    · have haudit := State.canonical.audit hc
      rw [State.consumeWait_eq, State.auditReturned_give (s := s.setTile p _) haudit, State.auditReturned_setTile]
    · rw [State.consumeWait_eq]
      rfl

/-! ## `INSTRUCTION_COMPLETE` (R96, R100, R105) -/

section
variable {s : State} {t p op : Nat} {x : Op} (ha : s.acts t p = true) (hf : (s.tile p).ops.find? (fun y => y.id == op) = some x)
  (hr : (s.tile p).signalRoom x.insn = true)
include ha hf hr

/-- An operation other than an `LDB` completes once its results are written. -/
theorem instructionComplete_done (ho : x.insn.opc.toNat ≠ opLdb) (hd : x.done = true) :
    exec (.instructionComplete t op) s = .next (s.completeOp t p x) := by
  show execInstructionComplete t op s = _
  rw [execInstructionComplete, onTile_at ha]
  simp [hf, hr, ho, hd]

/-- An `LDB` that may load loads the shadow bank, and completes. -/
theorem instructionComplete_ldb {q : Part} (ho : x.insn.opc.toNat = opLdb) (hl : (s.tile p).loadReady x = true) (hq : (s.tile p).part = some q) :
    exec (.instructionComplete t op) s = .next ((((s.engineAccess t p (s.tile p) x.reads []).setTile p ((s.tile p).loadShadow x)).consumed q.item
      ((s.tile p).loadShadow x).shadow.mark).completeOp t p x) := by
  have hpart : ((s.tile p).loadShadow x).part = some q := hq
  show execInstructionComplete t op s = _
  rw [execInstructionComplete, onTile_at ha]
  simp [hf, hr, ho, hl, hpart]

end

/-! ## `TILE_PART_END` (R101, R322) -/

/-- A part that is over ends, and its launch with it when no board tile is left. -/
theorem tilePartEnd_over {s : State} {t p : Nat} {q : Part} {i : Item} {l : Launch} {u : State} (ha : s.acts t p = true) (hq : (s.tile p).part = some q)
    (hover : (s.tile p).partOver = true) (hland : s.landings.any (fun l => l.item == q.item && l.tile == t && l.counted < l.acked.length) = false)
    (hu : u = (s.endPart t p).modItem q.item (fun i => { i with launch := i.launch.map (fun l => { l with tiles := l.tiles.erase q.boardTile }) }))
    (hi : u.item q.item = some i) (hp : i.phase = .running) (hl : i.launch = some l) :
    exec (.tilePartEnd t) s = .next (if l.tiles = [] then u.endItem q.item else u) := by
  show execTilePartEnd t s = _
  rw [execTilePartEnd, onTile_at ha]
  simp [hq, hover, hland, ← hu, hi, hp, hl]

/-- A part with work left does not end. -/
theorem tilePartEnd_early {s : State} {t p : Nat} (ha : s.acts t p = true) (hover : (s.tile p).partOver = false) :
    exec (.tilePartEnd t) s = .next s := by
  show execTilePartEnd t s = _
  rw [execTilePartEnd, onTile_at ha]
  split
  · rfl
  · exact if_pos (by simp [hover])

/-- Settles O21: the completion of an operation, the load of an `LDB`, and the end of a part. -/
theorem operationsCompleteAndPartsEnd : Obligations.OperationsCompleteAndPartsEnd := by
  unfold Obligations.OperationsCompleteAndPartsEnd
  refine ⟨fun s t p op x ha hf hr ho hd => instructionComplete_done ha hf hr ho hd,
    fun s t p op x q ha hf hr ho hl hq => instructionComplete_ldb ha hf hr ho hl hq,
    fun s t p q i l u ha hq hover hland hu hi hp hl => ?_, fun s t p ha hover => tilePartEnd_early ha hover⟩
  rw [tilePartEnd_over ha hq hover hland hu hi hp hl]
  exact ⟨fun h => by rw [if_pos h], fun h => by rw [if_neg h]⟩

end Sys2Proof.Machine
end

section
/-! SUPPORT. The instructions of the facet array issue (O17), and the stream path moves on (O18). -/

namespace Sys2Proof.Machine

/-! ## Issue (R98, R105-R107, R111-R114) -/

section
variable {s : State} {t p : Nat} {i : Insn}

theorem ldb_issues {el sc : List (Nat × Nat)} (h : s.atInsn t p opLdb i = true) (hel : el = ((s.tile p).opnd i.opd0).segs 0 (32 * fmtBytes (i.arg 0 3)))
    (hsc : sc = if i.arg 0 3 = 5 then [] else ((s.tile p).opnd i.opd1).segs 0 32) :
    exec (.ldb t .pass) s = .next (if (s.tile p).clearOf (el ++ sc) [] then
      s.issueOp t p ((s.tile p).mkOp i 0 (el ++ sc) [] (rowCount el + rowCount sc) 2) else s) := by
  show execLdb t .pass s = _
  rw [execLdb, onStore_pass, onInsn_at h, hel, hsc]
  rfl

theorem mma_issues {rd : List (Nat × Nat)} (h : s.atInsn t p opMma i = true)
    (hrd : rd = ((s.tile p).opnd i.opd0).segs 0 (4 * i.streamGroups * fmtBytes (i.arg 3 3)) ++
      (if i.arg 3 3 = 5 then [] else ((s.tile p).opnd i.opd1).segs 0 (4 * i.streamGroups))) {u : State}
    (hu : u = s.issueOp t p ((s.tile p).mkOp i 0 rd [] (mmaOccupancy i.streamGroups (i.arg 3 3) ((s.tile p).bankFor i).fmt (s.flag Fld.tileArrayStrand t)) 14)) :
    exec (.mma t) s = .next (if !(s.tile p).clearOf rd [] then s else u.setTile p { u.tile p with ordinal := (s.tile p).ordinal + 1 }) := by
  show execMma t s = _
  rw [execMma, onInsn_at h, hu, hrd]

theorem drain_issues {o : List (Nat × Nat) × List (Nat × Nat)} {r : List (Nat × Nat)} (h : s.atInsn t p opDrain i = true)
    (ho : o = i.drainOut ((s.tile p).opnd i.opd0) ((s.tile p).opnd i.opd1) i.drainGroups)
    (hr : r = if i.argBit 9 then ((s.tile p).opnd i.opd2).segs 0 256 else []) :
    exec (.drain t) s = .next (if (s.tile p).clearOf r (o.1 ++ o.2 ++ r) then
      s.issueOp t p ((s.tile p).mkOp i 0 r (o.1 ++ o.2 ++ r) (i.drainGroups * drainDepth i) 6) else s) := by
  show execDrain t s = _
  rw [execDrain, onInsn_at h, ho, hr]
  rfl

theorem red_issues {rd : List (Nat × Nat)} (h : s.atInsn t p opRed i = true)
    (hrd : rd = ((s.tile p).opnd i.opd0).segs 0 (redSources i * i.redBytes)) {u : State}
    (hu : u = s.issueOp t p { (s.tile p).mkOp i 0 rd [] (redSources i * i.streamGroups * (if i.redFmt = 7 then 4 else 2)) 4 with
      ready := if i.wait then [] else List.range (redSources i) }) :
    exec (.red t) s = .next (if !(s.tile p).clearOf rd [] then s else u.setTile p { u.tile p with ordinal := (s.tile p).ordinal + 1 }) := by
  show execRed t s = _
  rw [execRed, onInsn_at h, hu, hrd]

end

/-- Settles O17: each of the five runs where it may issue (`onInsn_at`), and issues unless its ranges conflict (R98). -/
theorem engineInstructionsIssue : Obligations.EngineInstructionsIssue := by
  unfold Obligations.EngineInstructionsIssue
  refine ⟨fun s t p i el sc h hel hsc => ?ldb, fun s t p i rd h hrd => ?mma, fun s t p i o r h ho hr => ?drain, fun s t p i rd h hrd => ?red,
    fun s t p i h => ?swap⟩
  case ldb =>
    rw [ldb_issues h hel hsc]
    exact ⟨fun hc => by rw [if_pos hc], fun hc => by rw [if_neg (Bool.eq_false_iff.1 hc)]⟩
  case mma => exact ⟨fun hc => ⟨_, rfl, by rw [mma_issues h hrd rfl, if_neg (by simp [hc])]⟩, fun hc => by rw [mma_issues h hrd rfl, if_pos (by simp [hc])]⟩
  case drain =>
    rw [drain_issues h ho hr]
    exact ⟨fun hc => by rw [if_pos hc], fun hc => by rw [if_neg (Bool.eq_false_iff.1 hc)]⟩
  case red => exact ⟨fun hc => ⟨_, rfl, by rw [red_issues h hrd rfl, if_neg (by simp [hc])]⟩, fun hc => by rw [red_issues h hrd rfl, if_pos (by simp [hc])]⟩
  case swap => exact onInsn_at h fun p tl i => s.issueOp t p (tl.mkOp i 0 [] [] 0 0)

/-! ## The stream path (R104, R106, R112) -/

/-- A swap at the front with no earlier `LDB` in flight exchanges the banks. -/
theorem swapExchange_front {s : State} {t p : Nat} {x : Op} (ha : s.acts t p = true) (hf : (s.tile p).streamFront = some x)
    (hw : x.insn.swaps = true) (hx : x.swapped = false) (hl : ((s.tile p).before x).all (fun y => y.insn.opc.toNat != opLdb) = true) :
    exec (.swapExchange t) s = .next (s.setTile p (({ s.tile p with active := (s.tile p).shadow, shadow := (s.tile p).active }).modOp x.id
      (fun y => { y with swapped := true, done := y.insn.opc.toNat == opSwap }))) := by
  show execSwapExchange t s = _
  rw [execSwapExchange, onTile_at ha]
  simp only [hf]
  rw [if_pos (by simp only [hw, hx, hl]; rfl)]

/-- A source that may be added is taken from its first row group, and counts when a lower-indexed one is still left. -/
theorem redSourceAdd_front {s : State} {t p n : Nat} {x : Op} {q : Part} {u : State} (hn : n < 16) (ha : s.acts t p = true)
    (hf : (s.tile p).streamFront = some x) (hq : (s.tile p).part = some q) (hm : x.mayAdd n = true) (hfree : (s.tile p).accFree x = true)
    (hu : u = s.setTile p (((s.tile p).stepped s.tally).modOp x.id (fun y => { y with source := some n, group := 0 }))) :
    exec (.redSourceAdd t n) s = .next (if (List.range n).all (fun m => x.added.contains m) then u
      else (u.bump Fld.tileTdccFreeord t 1).addNote q.item noteTdcc) := by
  show execRedSourceAdd t n s = _
  rw [execRedSourceAdd, onUnit_ok (decide_eq_true hn), onTile_at ha]
  simp only [hf, hq]
  rw [if_pos (by rw [hm, hfree]; rfl), hu]

/-- Settles O18: the exchange of the banks, and the source that the `RED` at the front takes. -/
theorem swapAndRedSourceAdvanceTheStreamPath : Obligations.SwapAndRedSourceAdvanceTheStreamPath := by
  unfold Obligations.SwapAndRedSourceAdvanceTheStreamPath
  refine ⟨fun s t p x ha hf hw hx hl => swapExchange_front ha hf hw hx hl, fun s t p n x q u hn ha hf hq hm hfree hu => ?_⟩
  rw [redSourceAdd_front hn ha hf hq hm hfree hu]
  exact ⟨fun h => by rw [if_pos h], fun h => by rw [if_neg (Bool.eq_false_iff.1 h)]⟩

end Sys2Proof.Machine
end

section
/-! SUPPORT. What a commit of a row group leaves alone, and the row groups of an `MMA` (O19). -/

namespace Sys2Proof.Machine

/-! ## Additions into an accumulator (R107, R121) -/

/-- Elements of an accumulator have one key only where row and column agree. -/
theorem accIdx_inj {acc r r' n n' : Nat} (hn : n < 32) (hn' : n' < 32) (h : accIdx acc r n = accIdx acc r' n') : r = r' ∧ n = n' := by
  unfold accIdx at h
  omega

/-- What an accumulator element reads after an addition to it. -/
def accSum (q : Part) (x : Op) (row n : Nat) (zero : Bool) (old : W34) (v : Val) : W34 :=
  toW34 (Val.add (if zero then Val.zero else ofW34 old) v) (privWord q x.insn.acc x.ordinal row n)

theorem Tile.accAdd_eq (t : Tile) (q : Part) (x : Op) (row n : Nat) (zero : Bool) (v : Val) : t.accAdd q x row n zero v =
    { t with acc := Tab.set 0 t.acc (accIdx x.insn.acc row n) (accSum q x row n zero (Tab.get 0 t.acc (accIdx x.insn.acc row n)) v) } := rfl

/-- Values added into a row of an accumulator, from a column on. -/
def Tile.addRow (q : Part) (x : Op) (row : Nat) (zero : Bool) : Tile → Nat → List Val → Tile
  | t, _, [] => t
  | t, n, v :: vs => Tile.addRow q x row zero (t.accAdd q x row n zero v) (n + 1) vs

/-- The model counts the columns as it folds over a row. -/
theorem Tile.addRow_of_counted {β : Type} (q : Part) (x : Op) (row : Nat) (zero : Bool) (f : β → Val) : ∀ (l : List β) (t : Tile) (n : Nat),
    (l.foldl (fun (acc : Tile × Nat) c => (acc.1.accAdd q x row acc.2 zero (f c), acc.2 + 1)) (t, n)).1 = t.addRow q x row zero n (l.map f)
  | [], _, _ => rfl
  | c :: l, t, n => Tile.addRow_of_counted q x row zero f l (t.accAdd q x row n zero (f c)) (n + 1)

section
variable {q : Part} {x : Op} {row : Nat} {zero : Bool}

theorem Tile.addRow_eq : ∀ (vs : List Val) (t : Tile) (n : Nat), t.addRow q x row zero n vs = { t with acc := (t.addRow q x row zero n vs).acc }
  | [], _, _ => rfl
  | v :: vs, t, n => Tile.addRow_eq vs (t.accAdd q x row n zero v) (n + 1)

theorem Tile.addRow_sorted : ∀ (vs : List Val) {t : Tile} (n : Nat), Tab.sorted t.acc = true → Tab.sorted (t.addRow q x row zero n vs).acc = true
  | [], _, _, h => h
  | v :: vs, t, n, h => Tile.addRow_sorted vs (t := t.accAdd q x row n zero v) (n + 1) (Tab.sorted_set h)

/-- An element outside the columns added to keeps its value. -/
theorem Tile.addRow_other {k : Nat} : ∀ (vs : List Val) {t : Tile} {n : Nat}, Tab.sorted t.acc = true →
    (∀ j, j < vs.length → k ≠ accIdx x.insn.acc row (n + j)) → Tab.get 0 (t.addRow q x row zero n vs).acc k = Tab.get 0 t.acc k
  | [], _, _, _, _ => rfl
  | v :: vs, t, n, h, hk => by
    have hrest : ∀ j, j < vs.length → k ≠ accIdx x.insn.acc row (n + 1 + j) := fun j hj => by
      rw [Nat.add_right_comm]
      exact hk (j + 1) (Nat.succ_lt_succ hj)
    exact (Tile.addRow_other vs (t := t.accAdd q x row n zero v) (Tab.sorted_set h) hrest).trans
      (Tab.get_set_other h (hk 0 (Nat.succ_pos _)))

/-- An element of the columns added to reads the sum of its old value and the column's. -/
theorem Tile.addRow_self : ∀ (vs : List Val) {t : Tile} {n j : Nat}, Tab.sorted t.acc = true → n + vs.length ≤ 32 → (hj : j < vs.length) →
    Tab.get 0 (t.addRow q x row zero n vs).acc (accIdx x.insn.acc row (n + j)) =
      accSum q x row (n + j) zero (Tab.get 0 t.acc (accIdx x.insn.acc row (n + j))) vs[j]
  | v :: vs, t, n, 0, h, hn, _ => by
    rw [List.length_cons] at hn
    have hrest : ∀ j, j < vs.length → accIdx x.insn.acc row n ≠ accIdx x.insn.acc row (n + 1 + j) := fun j hj he => by
      have := (accIdx_inj (by omega) (by omega) he).2
      omega
    exact (Tile.addRow_other vs (t := t.accAdd q x row n zero v) (Tab.sorted_set h) hrest).trans (Tab.get_set_self h)
  | v :: vs, t, n, j + 1, h, hn, hj => by
    rw [List.length_cons] at hn hj
    have hne : accIdx x.insn.acc row (n + 1 + j) ≠ accIdx x.insn.acc row n := fun he => by
      have := (accIdx_inj (by omega) (by omega) he).2
      omega
    have hold : Tab.get 0 (t.accAdd q x row n zero v).acc (accIdx x.insn.acc row (n + 1 + j)) = Tab.get 0 t.acc (accIdx x.insn.acc row (n + 1 + j)) :=
      Tab.get_set_other h hne
    have hself := Tile.addRow_self vs (t := t.accAdd q x row n zero v) (n := n + 1) (j := j) (Tab.sorted_set h) (by omega) (by omega)
    rw [hold, Nat.add_right_comm n 1 j] at hself
    exact hself

end

/-- Rows of 32 values added into an accumulator, one below the other. -/
def Tile.addRows (q : Part) (x : Op) (first : Nat) (zero : Bool) (vals : Nat → List Val) (t : Tile) (m : Nat) : Tile :=
  (List.range m).foldl (fun t r => t.addRow q x (first + r) zero 0 (vals r)) t

theorem Tile.addRows_succ (q : Part) (x : Op) (first : Nat) (zero : Bool) (vals : Nat → List Val) (t : Tile) (m : Nat) :
    t.addRows q x first zero vals (m + 1) = (t.addRows q x first zero vals m).addRow q x (first + m) zero 0 (vals m) := by
  unfold Tile.addRows
  rw [List.range_succ, List.foldl_append]
  rfl

section
variable {q : Part} {x : Op} {first : Nat} {zero : Bool} {vals : Nat → List Val} {t : Tile}

theorem Tile.addRows_eq : ∀ m : Nat, t.addRows q x first zero vals m = { t with acc := (t.addRows q x first zero vals m).acc }
  | 0 => rfl
  | m + 1 => by
    rw [Tile.addRows_succ, Tile.addRow_eq, Tile.addRows_eq m]

variable (h : Tab.sorted t.acc = true)
include h

theorem Tile.addRows_sorted : ∀ m : Nat, Tab.sorted (t.addRows q x first zero vals m).acc = true
  | 0 => h
  | m + 1 => by
    rw [Tile.addRows_succ]
    exact Tile.addRow_sorted (vals m) 0 (Tile.addRows_sorted m)

variable (hlen : ∀ r, (vals r).length = 32)
include hlen

/-- Every element outside the rows keeps its value. -/
theorem Tile.addRows_other {k : Nat} : ∀ {m : Nat}, (∀ r n, r < m → n < 32 → k ≠ accIdx x.insn.acc (first + r) n) →
    Tab.get 0 (t.addRows q x first zero vals m).acc k = Tab.get 0 t.acc k
  | 0, _ => rfl
  | m + 1, hk => by
    rw [Tile.addRows_succ, Tile.addRow_other (vals m) (Tile.addRows_sorted h m) fun j hj => ?_]
    · exact Tile.addRows_other fun r n hr hn => hk r n (Nat.lt_succ_of_lt hr) hn
    · rw [Nat.zero_add]
      exact hk m j (Nat.lt_succ_self m) (hlen m ▸ hj)

/-- Every element of the rows is added to once. -/
theorem Tile.addRows_self {r n : Nat} (hn : n < 32) : ∀ {m : Nat}, r < m →
    Tab.get 0 (t.addRows q x first zero vals m).acc (accIdx x.insn.acc (first + r) n) =
      accSum q x (first + r) n zero (Tab.get 0 t.acc (accIdx x.insn.acc (first + r) n)) ((vals r)[n]'(by rw [hlen]; exact hn))
  | m + 1, hr => by
    rw [Tile.addRows_succ]
    rcases Nat.lt_succ_iff_lt_or_eq.1 hr with hr | rfl
    · rw [Tile.addRow_other (vals m) (Tile.addRows_sorted h m) fun j hj he => ?_]
      · exact Tile.addRows_self hn hr
      · have := (accIdx_inj hn (by have := hlen m; omega) he).1
        omega
    · have hself := Tile.addRow_self (row := first + r) (q := q) (x := x) (zero := zero) (vals r) (n := 0) (j := n)
        (Tile.addRows_sorted (q := q) (x := x) (first := first) (zero := zero) (vals := vals) h r) (by rw [hlen]) (by rw [hlen]; exact hn)
      rw [Nat.zero_add, Tile.addRows_other h hlen fun r' n' hr' hn' he => ?_] at hself
      · exact hself
      · have := (accIdx_inj hn hn' he).1
        omega

end

/-! ## Marks of row groups (R392) -/

theorem accMarkIdx_inj {acc g g' : Nat} (h : accMarkIdx acc g = accMarkIdx acc g') : g = g' := by
  unfold accMarkIdx at h
  omega

theorem Tile.markAcc_succ (t : Tile) (acc first n : Nat) (m : Bool) :
    (t.markAcc acc first (n + 1) m).accMarks = Tab.set false (t.markAcc acc first n m).accMarks (accMarkIdx acc (first + n)) m := by
  unfold Tile.markAcc
  dsimp only
  rw [List.range_succ, List.foldl_append]
  rfl

theorem Tile.markAcc_sorted {t : Tile} (h : Tab.sorted t.accMarks = true) (acc first : Nat) (m : Bool) :
    ∀ n : Nat, Tab.sorted (t.markAcc acc first n m).accMarks = true
  | 0 => h
  | n + 1 => by
    rw [Tile.markAcc_succ]
    exact Tab.sorted_set (Tile.markAcc_sorted h acc first m n)

/-- A row group among those marked or cleared reads that mark. -/
theorem Tile.markAcc_self {t : Tile} (h : Tab.sorted t.accMarks = true) (acc first : Nat) (m : Bool) {k : Nat} :
    ∀ {n : Nat}, k < n → Tab.get false (t.markAcc acc first n m).accMarks (accMarkIdx acc (first + k)) = m
  | n + 1, hk => by
    rw [Tile.markAcc_succ]
    rcases Nat.lt_succ_iff_lt_or_eq.1 hk with hk | rfl
    · rw [Tab.get_set_other (Tile.markAcc_sorted h acc first m n) fun he => by have := accMarkIdx_inj he; omega]
      exact Tile.markAcc_self h acc first m hk
    · exact Tab.get_set_self (Tile.markAcc_sorted h acc first m k)

/-! ## Row groups of an `MMA` (R107, R108) -/

/-- The group values of a streamed row with the 32 columns of the active bank. -/
def Tile.mmaValues (t : Tile) (x : Op) (m : Nat) : List Val :=
  ((List.range 32).map t.active.column).map (fun c => groupValue (Fmt.ofCode (x.insn.arg 3 3)).mbits (Fmt.ofCode t.active.fmt).mbits
    (t.streamRow x m).2 c.2 (t.streamRow x m).1 c.1)

theorem Tile.mmaValues_length (t : Tile) (x : Op) (m : Nat) : (t.mmaValues x m).length = 32 := by simp [Tile.mmaValues]

theorem Tile.mmaGroup_eq (t : Tile) (q : Part) (x : Op) (g : Nat) : t.mmaGroup q x g =
    t.addRows q x (4 * (x.insn.streamFirst + g)) (x.insn.argBit 6) (fun r => t.mmaValues x (4 * g + r)) 4 := by
  unfold Tile.mmaGroup Tile.addRows Tile.mmaValues
  simp only [Tile.addRow_of_counted]

/-- The instruction has read a marked unit (R391, R392). -/
def Tile.mmaMark (t : Tile) (x : Op) : Bool :=
  x.marked || t.markedSegs x.reads || t.active.mark || (!x.insn.argBit 6 && t.accMarked x.insn.acc x.insn.streamFirst x.insn.streamGroups)

/-- A row group of an `MMA` changes the accumulators only. -/
theorem Tile.mmaGroup_frame (t : Tile) (q : Part) (x : Op) (g : Nat) : t.mmaGroup q x g = { t with acc := (t.mmaGroup q x g).acc } := by
  rw [Tile.mmaGroup_eq]
  exact Tile.addRows_eq 4

/-- The marks and the progress of an `MMA` that has added its next row group. -/
def Tile.mmaMarked (t : Tile) (x : Op) (m : Bool) : Tile :=
  (if m then t.markAcc x.insn.acc x.insn.streamFirst (x.group + 1) true else t.markAcc x.insn.acc (x.insn.streamFirst + x.group) 1 false).modOp x.id
    (fun y => { y with group := x.group + 1, marked := m, done := x.group + 1 == x.insn.streamGroups })

theorem Tile.mmaMarked_reads (t : Tile) (x : Op) (m : Bool) :
    (t.mmaMarked x m).acc = t.acc ∧ (t.mmaMarked x m).spad = t.spad ∧ (t.mmaMarked x m).vbuf = t.vbuf := by
  unfold Tile.mmaMarked
  cases m <;> exact ⟨rfl, rfl, rfl⟩

theorem Tile.mmaMarked_mark {t : Tile} (h : Tab.sorted t.accMarks = true) (x : Op) (m : Bool) :
    Tab.get false (t.mmaMarked x m).accMarks (accMarkIdx x.insn.acc (x.insn.streamFirst + x.group)) = m := by
  cases m with
  | true => exact Tile.markAcc_self h _ _ true (Nat.lt_succ_self x.group)
  | false => exact Tile.markAcc_self h _ _ false Nat.zero_lt_one

/-- The tile after the next row group of an `MMA`: the sums, the marks and the progress of the operation. -/
def Tile.mmaCommitted (t : Tile) (q : Part) (x : Op) : Tile := (t.mmaGroup q x x.group).mmaMarked x (t.mmaMark x)

theorem Tile.mmaCommitted_reads (t : Tile) (q : Part) (x : Op) : (t.mmaCommitted q x).acc = (t.mmaGroup q x x.group).acc ∧
    (t.mmaCommitted q x).spad = t.spad ∧ (t.mmaCommitted q x).vbuf = t.vbuf := by
  obtain ⟨hacc, hspad, hvbuf⟩ := (t.mmaGroup q x x.group).mmaMarked_reads x (t.mmaMark x)
  have hgroup := t.mmaGroup_frame q x x.group
  exact ⟨hacc, hspad.trans (congrArg Tile.spad hgroup :), hvbuf.trans (congrArg Tile.vbuf hgroup :)⟩

/-- The row group is marked exactly when the instruction has read a marked unit. -/
theorem Tile.mmaCommitted_mark {t : Tile} (h : Tab.sorted t.accMarks = true) (q : Part) (x : Op) :
    Tab.get false (t.mmaCommitted q x).accMarks (accMarkIdx x.insn.acc (x.insn.streamFirst + x.group)) = t.mmaMark x := by
  have hmarks : (t.mmaGroup q x x.group).accMarks = t.accMarks := (congrArg Tile.accMarks (t.mmaGroup_frame q x x.group) :)
  exact Tile.mmaMarked_mark (by rw [hmarks]; exact h) x (t.mmaMark x)

/-! ## What a commit leaves alone -/

/-- Between two states only tiles, register fields, items and the activity counts change. -/
def State.engineOnly (s u : State) : Prop := u = { s with tiles := u.tiles, regs := u.regs, items := u.items, power := u.power }

namespace State.engineOnly

variable {s t u : State}

theorem trans (h : s.engineOnly t) (h' : t.engineOnly u) : s.engineOnly u := by
  unfold State.engineOnly at h h' ⊢
  rw [h] at h'
  exact h'

theorem refl (s : State) : s.engineOnly s := rfl

theorem setTile (s : State) (p : Nat) (tl : Tile) : s.engineOnly (s.setTile p tl) := rfl

theorem modItem (s : State) (id : Nat) (f : Item → Item) : s.engineOnly (s.modItem id f) := rfl

theorem tileEvent (s : State) (p c n : Nat) : s.engineOnly (s.tileEvent p c n) := rfl

theorem bump (s : State) (f : Field) (i n : Nat) : s.engineOnly (s.bump f i n) := by
  unfold State.bump
  split <;> rfl

theorem consumed (s : State) (id : Nat) (m : Bool) : s.engineOnly (s.consumed id m) := by
  unfold State.consumed
  split <;> rfl

theorem race (s : State) (t : Nat) (q : Option Part) (n : Nat) : s.engineOnly (s.race t q n) := by
  unfold State.race
  split
  · exact refl s
  · cases q with
    | none => exact bump s _ t n
    | some q => exact (bump s _ t n).trans (modItem _ q.item _)

theorem engineAccess (s : State) (t p : Nat) (tl : Tile) (r w : List (Nat × Nat)) : s.engineOnly (s.engineAccess t p tl r w) :=
  (race s t tl.part _).trans (tileEvent _ p evRow _)

theorem onStrand (s : State) (t id : Nat) (c : Bool) : s.engineOnly (s.onStrand t id c) := by
  unfold State.onStrand
  split
  · cases c
    · exact modItem s id _
    · exact (bump s _ t 1).trans (modItem _ id _)
  · exact refl s

end State.engineOnly

@[simp] theorem State.consumed_tiles (s : State) (id : Nat) (m : Bool) : (s.consumed id m).tiles = s.tiles := by
  unfold State.consumed
  split <;> rfl

@[simp] theorem State.addNote_tiles (s : State) (id b : Nat) : (s.addNote id b).tiles = s.tiles := rfl

@[simp] theorem State.race_tiles (s : State) (t : Nat) (q : Option Part) (n : Nat) : (s.race t q n).tiles = s.tiles := by
  unfold State.race
  split
  · rfl
  · cases q <;> simp

@[simp] theorem State.engineAccess_tiles (s : State) (t p : Nat) (tl : Tile) (r w : List (Nat × Nat)) : (s.engineAccess t p tl r w).tiles = s.tiles :=
  State.race_tiles ..

@[simp] theorem State.onStrand_tiles (s : State) (t id : Nat) (c : Bool) : (s.onStrand t id c).tiles = s.tiles := by
  unfold State.onStrand
  split
  · cases c <;> simp
  · rfl

theorem State.engineAccess_tally (s : State) (t p : Nat) (tl : Tile) (r w : List (Nat × Nat)) : (s.engineAccess t p tl r w).tally = s.tally :=
  (congrArg State.tally (State.engineOnly.engineAccess s t p tl r w) :)

/-! ## Poison consumed (R395) -/

/-- An item changed in place is what it was, changed. -/
theorem State.item_modItem {f : Item → Item} (hf : ∀ j, (f j).id = j.id) (s : State) (id : Nat) : (s.modItem id f).item id = (s.item id).map f := by
  cases h : s.item id with
  | some i => exact State.item_modItem_self h hf
  | none =>
    refine List.find?_eq_none.2 fun j hj => ?_
    obtain ⟨i, hi, rfl⟩ := List.mem_map.1 hj
    have hne : ¬ i.id = id := by simpa using List.find?_eq_none.1 h i hi
    simp [hne]

@[simp] theorem Item.addNote_id (i : Item) (b : Nat) : (i.addNote b).id = i.id := by
  unfold Item.addNote; split <;> rfl

@[simp] theorem Item.addNote_statuses (i : Item) (b : Nat) : (i.addNote b).statuses = i.statuses := by
  unfold Item.addNote; split <;> rfl

theorem State.poison_of_consumed {s : State} {id : Nat} {i : Item} (h : (s.consumed id true).item id = some i) : stPoison ∈ i.statuses := by
  have hmap : (s.item id).map (fun i => i.addStatus stPoison) = some i := (State.item_modItem (fun j => j.addStatus_id stPoison) s id).symm.trans h
  obtain ⟨j, -, rfl⟩ := Option.map_eq_some_iff.1 hmap
  exact j.mem_addStatus stPoison

/-- The note of the strand leaves the statuses. -/
theorem State.statuses_of_onStrand {s : State} {t id : Nat} {c : Bool} {i : Item} (h : (s.onStrand t id c).item id = some i) :
    ∃ j, s.item id = some j ∧ i.statuses = j.statuses := by
  have hnote : ∀ v : State, v.items = s.items → (v.addNote id noteStrand).item id = some i → ∃ j, s.item id = some j ∧ i.statuses = j.statuses := by
    intro v hv hi
    have hmap : (v.item id).map (fun i => i.addNote noteStrand) = some i := (State.item_modItem (fun j => j.addNote_id noteStrand) v id).symm.trans hi
    obtain ⟨j, hj, rfl⟩ := Option.map_eq_some_iff.1 hmap
    exact ⟨j, (State.item_congr hv id).symm.trans hj, j.addNote_statuses noteStrand⟩
  unfold State.onStrand at h
  split at h
  · cases c
    · exact hnote s rfl h
    · exact hnote (s.bump Fld.tileArrayStrandGroups t 1) (State.bump_items ..) h
  · exact ⟨i, h, rfl⟩

/-! ## The commit -/

/-- A check that passes, with no storage error found, commits the row group. -/
theorem rowGroupCommit_passes {s : State} {t p : Nat} {path : Path} {x : Op} {q : Part} (ha : s.acts t p = true)
    (hf : (s.tile p).groupFront path = some x) (hq : (s.tile p).part = some q) :
    exec (.rowGroupCommit t path .pass []) s = .next (s.commitGroup t p (s.tile p) q x) := by
  show execRowGroupCommit t path .pass [] s = _
  rw [execRowGroupCommit, onTile_at ha]
  simp only [hf, hq]
  rfl

/-- What the commit of an `MMA`'s row group changes. -/
theorem State.commitMma_reads {s : State} (hs : Tab.sorted s.tiles = true) (t p : Nat) (tl : Tile) (q : Part) (x : Op) :
    s.engineOnly (s.commitMma t p tl q x) ∧ (s.commitMma t p tl q x).tile p = (tl.mmaCommitted q x).stepped s.tally ∧
      (∀ k, k ≠ p → (s.commitMma t p tl q x).tile k = s.tile k) ∧
      (tl.mmaMark x = true → ∀ i, (s.commitMma t p tl q x).item q.item = some i → stPoison ∈ i.statuses) := by
  have heq : s.commitMma t p tl q x = (((s.engineAccess t p tl (tl.mmaSpans x x.group) []).setTile p ((tl.mmaCommitted q x).stepped
    (s.engineAccess t p tl (tl.mmaSpans x x.group) []).tally)).consumed q.item (tl.mmaMark x)).onStrand t q.item true := rfl
  have htiles : (s.commitMma t p tl q x).tiles = Tab.set Tile.empty s.tiles p ((tl.mmaCommitted q x).stepped s.tally) := by
    rw [heq, State.onStrand_tiles, State.consumed_tiles, State.setTile_tiles, State.engineAccess_tiles, State.engineAccess_tally]
  refine ⟨?_, ?_, fun k hk => ?_, fun hm i hi => ?_⟩
  · rw [heq]
    exact ((State.engineOnly.engineAccess ..).trans (.setTile ..)).trans ((State.engineOnly.consumed ..).trans (.onStrand ..))
  · rw [State.tile, htiles]
    exact Tab.get_set_self hs
  · rw [State.tile, htiles]
    exact Tab.get_set_other hs hk
  · rw [heq, hm] at hi
    obtain ⟨j, hj, hst⟩ := State.statuses_of_onStrand hi
    exact hst ▸ State.poison_of_consumed hj

theorem Tile.canonical.acc {tl : Tile} (h : tl.canonical = true) : Tab.sorted tl.acc = true ∧ Tab.sorted tl.accMarks = true := by
  simp only [Tile.canonical, Bool.and_eq_true] at h
  tauto

/-- Settles O19: the commit adds the four rows of group values (`Tile.addRows_self`, `Tile.addRows_other`), marks the row group (`Tile.mmaCommitted_mark`)
and changes nothing else (`State.commitMma_reads`). -/
theorem mmaRowGroupAddsProducts : Obligations.MmaRowGroupAddsProducts := by
  unfold Obligations.MmaRowGroupAddsProducts
  intro s t p x q hc ha hf hq ho
  obtain ⟨hacc, hmarks⟩ := Tile.canonical.acc (State.canonical.tile hc p)
  obtain ⟨hframe, hself, hother, hpoison⟩ := State.commitMma_reads (State.canonical.tiles hc) t p (s.tile p) q x
  obtain ⟨racc, rspad, rvbuf⟩ := (s.tile p).mmaCommitted_reads q x
  have hlen : ∀ r, ((s.tile p).mmaValues x (4 * x.group + r)).length = 32 := fun r => Tile.mmaValues_length ..
  have hcommit : s.commitGroup t p (s.tile p) q x = s.commitMma t p (s.tile p) q x := if_pos ho
  refine ⟨_, (rowGroupCommit_passes ha hf hq).trans (congrArg _ hcommit), hframe, hother, ?_⟩
  rw [hself]
  refine ⟨rspad, rvbuf, fun r n hr hn => ?_, fun k hk => ?_, (s.tile p).mmaMark x, rfl, Tile.mmaCommitted_mark hmarks q x, hpoison⟩
  · refine (congrArg (Tab.get 0 · _) (racc.trans (congrArg Tile.acc (Tile.mmaGroup_eq ..)))).trans ?_
    refine (Tile.addRows_self hacc hlen hn hr).trans ?_
    simp only [Tile.mmaValues, List.getElem_map, List.getElem_range]
    rfl
  · refine (congrArg (Tab.get 0 · k) (racc.trans (congrArg Tile.acc (Tile.mmaGroup_eq ..)))).trans ?_
    exact Tile.addRows_other hacc hlen hk

end Sys2Proof.Machine
end

section
/-! SUPPORT. A row group of a `RED` beyond those that it names (O20). -/

namespace Sys2Proof.Machine

/-! ## A state that the statement admits -/

/-- A `RED` of two sources and one row group: FP32 into accumulator 0. -/
def redOfTwo : Insn := ⟨opRed, 0, 0, 0, 0x10, 0, 0, 0⟩

/-- The operation has added its second source, and stands at row group 1 of its first. The instruction names row group 0 only; the statement bounds the row
group of an operation by nothing, and admits it. -/
def redBeyond : Op :=
  { id := 0, insn := redOfTwo, ea0 := 0, ea1 := 0, ea2 := 0, count := 0, ordinal := 0, group := 1, source := some 0, added := [1], ready := [0, 1],
    swapped := false, done := false, reads := [], writes := [], marked := false, occupancy := 1, latency := 0 }

/-- The part on the tile. -/
def redBeyondPart : Part :=
  { item := 0, tenant := 0, boardTile := 0, zorli := false, privAcc := 0, spadUse := 0, resident := 0, syncUse := 0, since := 0 }

/-- The first unit of the scratchpad, which the first source covers, is marked. -/
def redBeyondTile : Tile := { Tile.empty with part := some redBeyondPart, ops := [redBeyond], spadMarks := [(0, true)] }

def redBeyondState : State := State.reset.setTile 0 redBeyondTile

/-- The commit marks the row groups that the instruction names, and leaves the one at which it stands. -/
theorem redBeyond_unmarked : Tab.get false ((redBeyondState.commitGroup 0 0 (redBeyondState.tile 0) redBeyondPart redBeyond).tile 0).accMarks
    (accMarkIdx redBeyond.insn.acc (redBeyond.insn.streamFirst + redBeyond.group)) = false := by decide

/-- Refutes O20: with a source added already, a `RED` that has read a marked unit marks the row groups it names (`State.commitRed`), while the statement asks
for the mark of the row group at which the operation stands. In `redBeyondState`, which is in canonical form, the latter is none of the former: the
statement lacks the premise `x.group < x.insn.streamGroups`. -/
theorem not_rowGroupCommitsAndChecks : ¬ Obligations.RowGroupCommitsAndChecks := by
  unfold Obligations.RowGroupCommitsAndChecks
  rintro ⟨hred, -, -⟩
  have ha : redBeyondState.acts 0 0 = true := by decide
  have hf : (redBeyondState.tile 0).groupFront .stream = some redBeyond := by decide
  have hq : (redBeyondState.tile 0).part = some redBeyondPart := by decide
  have hread : (redBeyondState.tile 0).markedSegs ((redBeyond.opnd (redBeyondState.tile 0) 0).segs (0 * redBeyond.insn.redBytes) redBeyond.insn.redBytes) = true := by
    decide
  obtain ⟨u, hu, -, -, -, -, -, -, hmark⟩ := hred redBeyondState 0 0 0 redBeyond redBeyondPart (by decide) ha hf hq (by decide) rfl
  obtain rfl : redBeyondState.commitGroup 0 0 (redBeyondState.tile 0) redBeyondPart redBeyond = u :=
    Host.Outcome.next.inj ((rowGroupCommit_passes ha hf hq).symm.trans hu)
  exact absurd (hmark hread) (by rw [redBeyond_unmarked]; decide)

end Sys2Proof.Machine
end

section
/-! SUPPORT. Byte memories after a range of bytes is written, and words of the vector buffers after vector elements are. -/

namespace Sys2Proof.Machine

/-! ## Ranges of bytes -/

/-- A byte outside the range written reads as before. -/
theorem Mem.read_writeRange_other {x : Nat} : ∀ {bs : List Byte} {m : Mem} {a : Nat}, Memory.wf m = true → (x < a ∨ a + bs.length ≤ x) →
    Mem.read (Mem.writeRange m a bs) x = Mem.read m x
  | [], _, _, _, _ => rfl
  | b :: bs, m, a, h, hx => by
    rw [List.length_cons] at hx
    exact (Mem.read_writeRange_other (Memory.wf_write h) (by omega)).trans (Mem.read_write_other h (by omega))

/-- A byte of the range written reads what was written there. -/
theorem Mem.read_writeRange_at : ∀ {bs : List Byte} {m : Mem} {a k : Nat} (hk : k < bs.length), Memory.wf m = true →
    Mem.read (Mem.writeRange m a bs) (a + k) = bs[k]
  | b :: bs, m, a, 0, _, h => (Mem.read_writeRange_other (Memory.wf_write h) (.inl (Nat.lt_succ_self a))).trans (Mem.read_write_self h)
  | b :: bs, m, a, k + 1, hk, h => by
    rw [show a + (k + 1) = a + 1 + k by omega]
    exact Mem.read_writeRange_at (Nat.lt_of_succ_lt_succ hk) (Memory.wf_write h)

theorem Mem.readRange_writeRange {bs : List Byte} {m : Mem} (h : Memory.wf m = true) (a : Nat) :
    Mem.readRange (Mem.writeRange m a bs) a bs.length = bs := by
  refine List.ext_getElem (Mem.readRange_length ..) fun k _ hk => ?_
  simp only [Mem.readRange, List.getElem_map, List.getElem_range]
  exact Mem.read_writeRange_at hk h

/-- A number written reads back modulo its width. -/
theorem Mem.readNat_writeNat {m : Mem} (h : Memory.wf m = true) (a n v : Nat) : Mem.readNat (Mem.writeNat m a n v) a n = v % 256 ^ n := by
  have hrange := Mem.readRange_writeRange (bs := leBytes n v) h a
  rw [leBytes_length] at hrange
  rw [Mem.readNat, Mem.writeNat, hrange, leNat_leBytes]

/-- A number reads its own bytes only. -/
theorem Mem.readNat_congr {m m' : Mem} {a n : Nat} (h : ∀ x, a ≤ x → x < a + n → Mem.read m x = Mem.read m' x) : Mem.readNat m a n = Mem.readNat m' a n := by
  refine congrArg leNat (List.map_congr_left fun k hk => ?_)
  have := List.mem_range.1 hk
  exact h (a + k) (by omega) (by omega)

/-! ## Words of the vector buffers (R140) -/

theorem Tile.canonical.vbuf {tl : Tile} (h : tl.canonical = true) : Memory.wf tl.vbuf = true ∧ Tab.sorted tl.vbufMarks = true := by
  simp only [Tile.canonical, Bool.and_eq_true] at h
  tauto

theorem Tile.word_succ (t : Tile) (a k : Nat) : t.word a (k + 1) = t.word (a + 4) k := by
  unfold Tile.word
  rw [show a + 4 * (k + 1) = a + 4 + 4 * k by omega]

/-- A word reads its own bytes only. -/
theorem Tile.word_congr {t u : Tile} {a k : Nat} (h : ∀ x, a + 4 * k ≤ x → x < a + 4 * k + 4 → Mem.read t.vbuf x = Mem.read u.vbuf x) :
    t.word a k = u.word a k := by
  unfold Tile.word
  rw [Mem.readNat_congr h]

/-- One FP32 code written at a vector-buffer address. -/
def Tile.putWord (t : Tile) (a : Nat) (w : Word32) : Tile := { t with vbuf := Mem.writeNat t.vbuf a 4 w.toNat }

theorem Tile.putWord_wf {t : Tile} (h : Memory.wf t.vbuf = true) (a : Nat) (w : Word32) : Memory.wf (t.putWord a w).vbuf = true := Memory.wf_writeNat h

theorem Tile.putWord_read_other {t : Tile} (h : Memory.wf t.vbuf = true) {a x : Nat} (w : Word32) (hx : x < a ∨ a + 4 ≤ x) :
    Mem.read (t.putWord a w).vbuf x = Mem.read t.vbuf x :=
  Mem.read_writeRange_other h (by rwa [leBytes_length])

theorem Tile.putWord_word {t : Tile} (h : Memory.wf t.vbuf = true) (a : Nat) (w : Word32) : (t.putWord a w).word a 0 = w := by
  show BitVec.ofNat 32 (Mem.readNat (Mem.writeNat t.vbuf a 4 w.toNat) a 4) = w
  rw [Mem.readNat_writeNat h, Nat.mod_eq_of_lt (show w.toNat < 256 ^ 4 from w.isLt), BitVec.ofNat_toNat, BitVec.setWidth_eq]

/-- Vector elements change the vector buffers only. -/
theorem Tile.vput_eq : ∀ (l : List (Option Word32)) (t : Tile) (a : Nat), t.vput a l = { t with vbuf := (t.vput a l).vbuf }
  | [], _, _ => rfl
  | none :: r, t, a => Tile.vput_eq r t (a + 4)
  | some w :: r, t, a => Tile.vput_eq r (t.putWord a w) (a + 4)

/-- A byte outside the vector reads as before. -/
theorem Tile.vput_read_other {x : Nat} : ∀ {l : List (Option Word32)} {t : Tile} {a : Nat}, Memory.wf t.vbuf = true → (x < a ∨ a + 4 * l.length ≤ x) →
    Mem.read (t.vput a l).vbuf x = Mem.read t.vbuf x
  | [], _, _, _, _ => rfl
  | none :: r, t, a, h, hx => by
    rw [List.length_cons] at hx
    exact Tile.vput_read_other (l := r) h (a := a + 4) (by omega)
  | some w :: r, t, a, h, hx => by
    rw [List.length_cons] at hx
    exact (Tile.vput_read_other (Tile.putWord_wf h a w) (by omega)).trans (Tile.putWord_read_other h w (by omega))

/-- A word below the elements written reads as before. -/
theorem Tile.vput_word_zero {l : List (Option Word32)} {t : Tile} {a : Nat} (h : Memory.wf t.vbuf = true) : (t.vput (a + 4) l).word a 0 = t.word a 0 :=
  Tile.word_congr fun _ _ hx => Tile.vput_read_other h (.inl hx)

/-- Element `k` reads what was written to it, or its old value where nothing was. -/
theorem Tile.vput_word : ∀ {l : List (Option Word32)} {t : Tile} {a k : Nat} (hk : k < l.length), Memory.wf t.vbuf = true →
    (t.vput a l).word a k = l[k].getD (t.word a k)
  | none :: _, _, _, 0, _, h => Tile.vput_word_zero h
  | some w :: _, _, a, 0, _, h => (Tile.vput_word_zero (Tile.putWord_wf h a w)).trans (Tile.putWord_word h a w)
  | none :: r, t, a, k + 1, hk, h => by
    simp only [Tile.word_succ, List.getElem_cons_succ]
    exact Tile.vput_word (l := r) (Nat.lt_of_succ_lt_succ hk) h
  | some w :: r, t, a, k + 1, hk, h => by
    have hold : (t.putWord a w).word (a + 4) k = t.word (a + 4) k := Tile.word_congr fun x hx _ => Tile.putWord_read_other h w (by omega)
    simp only [Tile.word_succ, List.getElem_cons_succ, ← hold]
    exact Tile.vput_word (l := r) (Nat.lt_of_succ_lt_succ hk) (Tile.putWord_wf h a w)

end Sys2Proof.Machine
end

section
/-! SUPPORT. The marks of 32-byte units after spans are written, and the spans of the elements that an instruction writes (R392). -/

namespace Sys2Proof.Machine

/-! ## Marks of spans -/

theorem mem_unitsOf {a n j : Nat} : j ∈ unitsOf a n ↔ ∃ x, x / 32 = j ∧ a ≤ x ∧ x < a + n := by
  unfold unitsOf
  split
  · next h => simp only [List.not_mem_nil, false_iff, not_exists]; omega
  · next h =>
    simp only [List.mem_map, List.mem_range]
    constructor
    · rintro ⟨k, hk, rfl⟩
      exact ⟨max a (32 * (k + a / 32)), by omega, by omega, by omega⟩
    · rintro ⟨x, rfl, h1, h2⟩
      exact ⟨x / 32 - a / 32, by omega, by omega⟩

/-- A write of the span with the mark `m` sets the mark of unit `j`: it touches the unit, and unmarked data must write all of it (R392). -/
def setsMark (m : Bool) (j : Nat) (g : Nat × Nat) : Bool := decide (j ∈ unitsOf g.1 g.2) && (m || within (32 * j) 32 g.1 g.2)

theorem setsMark_iff {m : Bool} {j : Nat} {g : Nat × Nat} : setsMark m j g = true ↔
    (∃ x, x / 32 = j ∧ g.1 ≤ x ∧ x < g.1 + g.2) ∧ (m = true ∨ g.1 ≤ 32 * j ∧ 32 * j + 32 ≤ g.1 + g.2) := by
  simp [setsMark, within, mem_unitsOf]

/-- A fold that sets the keys of a list where `c` holds to one value. -/
theorem Tab.foldl_set_spec {α : Type} [DecidableEq α] {d v : α} {c : Nat → Bool} {j : Nat} : ∀ (l : List Nat) {t : Tab α}, Tab.sorted t = true →
    Tab.sorted (l.foldl (fun t u => if c u then Tab.set d t u v else t) t) = true ∧
    Tab.get d (l.foldl (fun t u => if c u then Tab.set d t u v else t) t) j = if j ∈ l ∧ c j = true then v else Tab.get d t j
  | [], t, h => ⟨h, by simp⟩
  | u :: l, t, h => by
    rw [List.foldl_cons]
    have hstep : Tab.sorted (if c u then Tab.set d t u v else t) = true := by split <;> [exact Tab.sorted_set h; exact h]
    obtain ⟨hs, hg⟩ := Tab.foldl_set_spec (c := c) (d := d) (v := v) (j := j) l hstep
    refine ⟨hs, hg.trans ?_⟩
    by_cases hj : j = u
    · subst hj
      by_cases hc : c j = true
      · simp [hc, Tab.get_set_self h]
      · simp [hc]
    · have hold : Tab.get d (if c u then Tab.set d t u v else t) j = Tab.get d t j := by
        split
        · exact Tab.get_set_other h hj
        · rfl
      simp [hold, hj]

theorem markSpan_eq (marks : Tab Bool) (a n : Nat) (m : Bool) : markSpan marks a n m =
    (unitsOf a n).foldl (fun t u => if m || within (32 * u) 32 a n then Tab.set false t u m else t) marks := by
  unfold markSpan
  cases m <;> rfl

/-- After a write of one span a unit has the mark of what was written, or its old one. -/
theorem markSpan_spec {marks : Tab Bool} (h : Tab.sorted marks = true) (g : Nat × Nat) (m : Bool) (j : Nat) :
    Tab.sorted (markSpan marks g.1 g.2 m) = true ∧
    Tab.get false (markSpan marks g.1 g.2 m) j = if setsMark m j g then m else Tab.get false marks j := by
  rw [markSpan_eq]
  obtain ⟨hs, hg⟩ := Tab.foldl_set_spec (d := false) (v := m) (c := fun u => m || within (32 * u) 32 g.1 g.2) (j := j) (unitsOf g.1 g.2) h
  exact ⟨hs, hg.trans (by simp only [setsMark, Bool.and_eq_true, decide_eq_true_eq])⟩

/-- After a write of several spans a unit has the mark of what was written, or its old one. -/
theorem get_markSpans {m : Bool} {j : Nat} : ∀ (gs : List (Nat × Nat)) {marks : Tab Bool}, Tab.sorted marks = true →
    Tab.get false (gs.foldl (fun k g => markSpan k g.1 g.2 m) marks) j = if gs.any (setsMark m j) then m else Tab.get false marks j
  | [], _, _ => rfl
  | g :: gs, marks, h => by
    obtain ⟨hs, hg⟩ := markSpan_spec h g m j
    rw [List.foldl_cons, get_markSpans gs hs, hg, List.any_cons]
    by_cases hany : gs.any (setsMark m j) = true
    · simp only [hany, Bool.or_true, if_true]
    · simp only [hany, Bool.or_false, if_false, Bool.false_eq_true]

/-! ## The spans of the elements written -/

/-- Address `x` lies in one of the spans. -/
def covered (gs : List (Nat × Nat)) (x : Nat) : Prop := ∃ g ∈ gs, g.1 ≤ x ∧ x < g.1 + g.2

/-- No two of the spans touch. -/
def apart (gs : List (Nat × Nat)) : Prop := gs.Pairwise fun g h => g.1 + g.2 < h.1

/-- The runs of a vector whose first element is written: that of the rest that begins right behind it grows, or there is one more. -/
theorem runs_true (w a : Nat) (l : List Bool) :
    runs w a (true :: l) = (a, w) :: runs w (a + w) l ∧ (∀ g q, runs w (a + w) l = g :: q → g.1 ≠ a + w) ∨
    ∃ n q, runs w (a + w) l = (a + w, n) :: q ∧ runs w a (true :: l) = (a, n + w) :: q := by
  rcases hr : runs w (a + w) l with _ | ⟨⟨b, n⟩, q⟩
  · exact .inl (by simp [runs, hr])
  · by_cases hb : b = a + w
    · exact .inr ⟨n, q, by rw [hb], by simp [runs, hr, hb]⟩
    · refine .inl ⟨by simp [runs, hr, hb], fun g q' he => ?_⟩
      obtain ⟨rfl, -⟩ := List.cons.inj he
      exact hb

/-- The runs of a vector begin in it, in order, each behind the end of the one before. -/
theorem runs_apart (w : Nat) : ∀ (l : List Bool) (a : Nat), apart (runs w a l) ∧ ∀ g ∈ runs w a l, a ≤ g.1
  | [], _ => ⟨.nil, fun _ hg => absurd hg List.not_mem_nil⟩
  | false :: l, a => by
    obtain ⟨hp, hl⟩ := runs_apart w l (a + w)
    exact ⟨hp, fun g hg => (Nat.le_add_right a w).trans (hl g hg)⟩
  | true :: l, a => by
    obtain ⟨hp, hl⟩ := runs_apart w l (a + w)
    rcases runs_true w a l with ⟨h, hne⟩ | ⟨n, q, hq, h⟩
    · have hbehind : ∀ g ∈ runs w (a + w) l, a + w < g.1 := by
        cases hr : runs w (a + w) l with
        | nil => exact fun _ hg => absurd hg List.not_mem_nil
        | cons b q =>
          rw [hr] at hp hl
          have hb : a + w < b.1 := Nat.lt_of_le_of_ne (hl b List.mem_cons_self) (hne b q hr).symm
          intro g hg
          rcases List.mem_cons.1 hg with rfl | hg
          · exact hb
          · have := List.rel_of_pairwise_cons hp hg
            omega
      rw [h]
      refine ⟨.cons hbehind hp, fun g hg => ?_⟩
      rcases List.mem_cons.1 hg with rfl | hg
      · exact le_rfl
      · exact (Nat.le_add_right a w).trans (hl g hg)
    · rw [hq] at hp hl
      rw [h]
      obtain ⟨hhead, htail⟩ := List.pairwise_cons.1 hp
      have hgrown : ∀ g ∈ q, a + (n + w) < g.1 := fun g hg => by have := hhead g hg; dsimp only at this; omega
      refine ⟨.cons hgrown htail, fun g hg => ?_⟩
      rcases List.mem_cons.1 hg with rfl | hg
      · exact le_rfl
      · exact (Nat.le_add_right a w).trans (hl g (List.mem_cons_of_mem _ hg))

theorem covered_cons {g : Nat × Nat} {gs : List (Nat × Nat)} {x : Nat} : covered (g :: gs) x ↔ g.1 ≤ x ∧ x < g.1 + g.2 ∨ covered gs x := by
  simp [covered]

/-- The first element of a vector and the rest of it. -/
theorem runs_covered_true (w a : Nat) (l : List Bool) (x : Nat) :
    covered (runs w a (true :: l)) x ↔ a ≤ x ∧ x < a + w ∨ covered (runs w (a + w) l) x := by
  rcases runs_true w a l with ⟨h, -⟩ | ⟨n, q, hq, h⟩
  · rw [h, covered_cons]
  · rw [h, hq, covered_cons, covered_cons]
    dsimp only
    by_cases hc : covered q x
    · simp [hc]
    · simp only [hc, or_false]; omega

/-- The element in which an address behind the first element lies. -/
theorem elemOf_behind {w a x : Nat} (hw : 0 < w) (hx : a + w ≤ x) : (x - a) / w = (x - (a + w)) / w + 1 := by
  rw [Nat.div_eq_sub_div hw (by omega), Nat.sub_sub]

/-- The runs of a vector cover the bytes of the elements written, and no others. -/
theorem covered_runs {w : Nat} (hw : 0 < w) {x : Nat} : ∀ (l : List Bool) (a : Nat), covered (runs w a l) x ↔ a ≤ x ∧ l[(x - a) / w]? = some true
  | [], a => by simp [runs, covered]
  | b :: l, a => by
    have hrest := covered_runs hw (x := x) l (a + w)
    have hcons : covered (runs w a (b :: l)) x ↔ b = true ∧ (a ≤ x ∧ x < a + w) ∨ covered (runs w (a + w) l) x := by
      cases b with
      | false => simp [runs]
      | true => simpa using runs_covered_true w a l x
    rw [hcons, hrest]
    by_cases hx : a + w ≤ x
    · rw [elemOf_behind hw hx, List.getElem?_cons_succ]
      have h1 : ¬ x < a + w := by omega
      have h2 : a ≤ x := by omega
      simp [hx, h1, h2]
    · by_cases ha : a ≤ x
      · rw [Nat.div_eq_of_lt (show x - a < w by omega)]
        simp [ha, hx]
        omega
      · simp [ha, hx]

/-- Of two spans that do not touch, one ends before the other begins. -/
theorem apart.eq_or {gs : List (Nat × Nat)} (h : apart gs) {g g' : Nat × Nat} (hg : g ∈ gs) (hg' : g' ∈ gs) :
    g = g' ∨ g.1 + g.2 < g'.1 ∨ g'.1 + g'.2 < g.1 := by
  have hsep := List.pairwise_iff_getElem.1 h
  obtain ⟨i, hi, rfl⟩ := List.getElem_of_mem hg
  obtain ⟨j, hj, rfl⟩ := List.getElem_of_mem hg'
  rcases lt_trichotomy i j with hij | rfl | hij
  · exact .inr (.inl (hsep i j hi hj hij))
  · exact .inl rfl
  · exact .inr (.inr (hsep j i hj hi hij))

/-- Spans that do not touch cover a whole range only if one of them does. -/
theorem apart.covered_range {gs : List (Nat × Nat)} (h : apart gs) {y : Nat} : ∀ {n : Nat}, (∀ x, y ≤ x → x < y + (n + 1) → covered gs x) →
    ∃ g ∈ gs, g.1 ≤ y ∧ y + (n + 1) ≤ g.1 + g.2
  | 0, hx => by
    obtain ⟨g, hg, h1, h2⟩ := hx y le_rfl (by omega)
    exact ⟨g, hg, h1, by omega⟩
  | n + 1, hx => by
    obtain ⟨g, hg, h1, h2⟩ := apart.covered_range h (n := n) fun x h1 h2 => hx x h1 (by omega)
    obtain ⟨g', hg', h3, h4⟩ := hx (y + (n + 1)) (by omega) (by omega)
    have hsame : g = g' := (h.eq_or hg hg').resolve_right (by omega)
    exact ⟨g, hg, h1, by rw [hsame]; omega⟩

/-- The marks of the vector buffers after spans that do not touch are written with the mark `m` (R392). -/
theorem Tile.vbufMarked_of_spans {t u : Tile} (hs : Tab.sorted t.vbufMarks = true) {gs : List (Nat × Nat)} (hgs : apart gs) {m : Bool} {on : Nat → Bool}
    (hon : ∀ x, on x = true ↔ covered gs x) (hu : u.vbufMarks = gs.foldl (fun k g => markSpan k g.1 g.2 m) t.vbufMarks) : t.vbufMarked u m on := by
  intro j
  rw [hu, get_markSpans gs hs]
  refine ⟨?touched, ?wholly, ?untouched⟩
  case touched =>
    rintro rfl ⟨x, hx, hxon⟩
    obtain ⟨g, hg, h1, h2⟩ := (hon x).1 hxon
    rw [if_pos (List.any_eq_true.2 ⟨g, hg, setsMark_iff.2 ⟨⟨x, hx, h1, h2⟩, .inl rfl⟩⟩)]
  case wholly =>
    rintro rfl hall
    obtain ⟨g, hg, h1, h2⟩ := hgs.covered_range (y := 32 * j) (n := 31) fun x hx1 hx2 => (hon x).1 (hall x (by omega))
    rw [if_pos (List.any_eq_true.2 ⟨g, hg, setsMark_iff.2 ⟨⟨32 * j, by omega, h1, by omega⟩, .inr ⟨h1, h2⟩⟩⟩)]
  case untouched =>
    intro hoff
    refine if_neg fun hany => ?_
    obtain ⟨g, hg, hset⟩ := List.any_eq_true.1 hany
    obtain ⟨⟨x, hxj, hx⟩, hm⟩ := setsMark_iff.1 hset
    rcases hoff with hoff | ⟨rfl, y, hy, hyoff⟩
    · exact absurd ((hon x).2 ⟨g, hg, hx⟩) (by simp [hoff x hxj])
    · rcases hm with hm | hm
      · exact absurd hm Bool.false_ne_true
      · exact absurd ((hon y).2 ⟨g, hg, by omega, by omega⟩) (by simp [hyoff])

end Sys2Proof.Machine
end

section
/-! SUPPORT. An instruction of the vector path that runs with its effect: what it writes, and what it leaves alone. -/

namespace Sys2Proof.Machine

/-! ## Registers and storage of what a path instruction does -/

/-- The registers that an instruction of a tile may write. -/
def tileRegs : List Reg := [.tileVstat, .tileSeq, .tileTdcc]

theorem State.race_writesOnly {s : State} {t : Nat} {q : Option Part} {n : Nat} : s.writesOnly (· ∈ tileRegs) (s.race t q n) := by
  have hbump : s.writesOnly (· ∈ tileRegs) (s.bump Fld.tileTdccRace t n) := .bump _ _ _ (by decide)
  unfold State.race
  split
  · exact .refl
  · cases q with
    | none => exact hbump
    | some q => exact hbump.trans (.of_regs rfl)

theorem State.engineAccess_writesOnly {s : State} {t p : Nat} {tl : Tile} {r w : List (Nat × Nat)} :
    s.writesOnly (· ∈ tileRegs) (s.engineAccess t p tl r w) :=
  State.race_writesOnly.trans (.of_regs rfl)

theorem State.vstat_writesOnly {s : State} {t a b c : Nat} : s.writesOnly (· ∈ tileRegs) (s.vstat t a b c) :=
  .trans (.trans (.bump _ _ _ (by decide)) (.bump _ _ _ (by decide))) (.bump _ _ _ (by decide))

theorem State.issueOp_writesOnly {s : State} {t p : Nat} {x : Op} : s.writesOnly (· ∈ tileRegs) (s.issueOp t p x) :=
  .trans (.of_regs rfl) (.trans (.setFld Fld.tileSeqPeak t _ (by decide)) (.of_regs rfl))

theorem State.engineOnly.vstat (s : State) (t a b c : Nat) : s.engineOnly (s.vstat t a b c) :=
  ((State.engineOnly.bump ..).trans (.bump ..)).trans (.bump ..)

@[simp] theorem State.vstat_tiles (s : State) (t a b c : Nat) : (s.vstat t a b c).tiles = s.tiles := by simp [State.vstat]

/-! ## The effect of an instruction (R386, R392) -/

/-- The state in which a path instruction has written its results, just before it issues. -/
def State.effected (s : State) (t p : Nat) (tl : Tile) (e : Effect) : State :=
  let v := (s.setTile p (e.marked (e.readsMarked tl))).engineAccess t p tl e.reads e.writes
  (match tl.part with
    | some q => v.consumed q.item (e.readsMarked tl)
    | none => v).vstat t e.sats e.smxFlagged e.zeroRms

/-- The operation of a path instruction: it is done when it issues (R139). -/
def Effect.op (e : Effect) (tl : Tile) (i : Insn) : Op :=
  { (tl.mkOp i 0 e.readRange e.writeRange e.occ e.lat) with done := true, marked := e.readsMarked tl }

/-- A tile on which an operation has issued. -/
def Tile.issued (t : Tile) (x : Op) (tally : Nat) : Tile := { (t.advance.stepped tally) with ops := t.ops ++ [x], nextOp := t.nextOp + 1 }

theorem State.runEffect_passes {e : Effect} {tl : Tile} (h : e.clear tl = true) (s : State) (t p : Nat) (i : Insn) :
    s.runEffect t p tl i .pass e = (s.effected t p tl e).issueOp t p (e.op tl i) := by
  unfold State.runEffect
  rw [if_neg (by decide), if_neg (by simp [h])]
  rfl

theorem State.effected_tiles (s : State) (t p : Nat) (tl : Tile) (e : Effect) :
    (s.effected t p tl e).tiles = Tab.set Tile.empty s.tiles p (e.marked (e.readsMarked tl)) := by
  unfold State.effected
  rw [State.vstat_tiles]
  cases tl.part <;> simp [State.setTile_tiles]

theorem State.effected_engineOnly (s : State) (t p : Nat) (tl : Tile) (e : Effect) : s.engineOnly (s.effected t p tl e) := by
  have haccess : s.engineOnly ((s.setTile p (e.marked (e.readsMarked tl))).engineAccess t p tl e.reads e.writes) := .trans (.setTile ..) (.engineAccess ..)
  unfold State.effected
  cases tl.part with
  | none => exact haccess.trans (.vstat ..)
  | some q => exact (haccess.trans (.consumed ..)).trans (.vstat ..)

theorem State.effected_writesOnly {s : State} {t p : Nat} {tl : Tile} {e : Effect} : s.writesOnly (· ∈ tileRegs) (s.effected t p tl e) := by
  have haccess : s.writesOnly (· ∈ tileRegs) ((s.setTile p (e.marked (e.readsMarked tl))).engineAccess t p tl e.reads e.writes) :=
    .trans (t := s.setTile p (e.marked (e.readsMarked tl))) (.of_regs rfl) State.engineAccess_writesOnly
  unfold State.effected
  cases tl.part with
  | none => exact haccess.trans State.vstat_writesOnly
  | some q => exact (haccess.trans (.of_regs (State.consumed_regs ..))).trans State.vstat_writesOnly

theorem State.engineOnly.issueOp {s v : State} (h : s.engineOnly v) (t p : Nat) (x : Op) : v.issueOp t p x =
    { s with tiles := (v.issueOp t p x).tiles, regs := (v.issueOp t p x).regs, items := (v.issueOp t p x).items,
             audit := (v.issueOp t p x).audit, power := (v.issueOp t p x).power } := by
  unfold State.engineOnly at h
  generalize v.tiles = tiles, v.regs = regs, v.items = items, v.power = power at h
  subst h
  rfl

/-- A path instruction whose check passes and which R98 lets issue: its tile holds the effect, with its marks, and no other storage changes. -/
theorem State.runEffect_reads {s : State} (hs : s.canonical = true) {e : Effect} {tl : Tile} (h : e.clear tl = true) (t p : Nat) (i : Insn) :
    s.oneTile (s.runEffect t p tl i .pass e) p ∧
      (s.runEffect t p tl i .pass e).tile p = (e.marked (e.readsMarked tl)).issued (e.op tl i) s.tally := by
  have htiles := State.canonical.tiles hs
  have heff := State.effected_tiles s t p tl e
  have hsorted : Tab.sorted (s.effected t p tl e).tiles = true := by rw [heff]; exact Tab.sorted_set htiles
  have hself : (s.effected t p tl e).tile p = e.marked (e.readsMarked tl) := by rw [State.tile, heff]; exact Tab.get_set_self htiles
  have hother : ∀ k, k ≠ p → (s.effected t p tl e).tile k = s.tile k := fun k hk => by rw [State.tile, heff]; exact Tab.get_set_other htiles hk
  have htally : (s.effected t p tl e).tally = s.tally := (congrArg State.tally (State.effected_engineOnly s t p tl e) :)
  rw [State.runEffect_passes h]
  refine ⟨⟨(State.effected_engineOnly s t p tl e).issueOp t p _, fun k hk => ?_, ?_⟩, ?_⟩
  · exact (State.issueOp_tile_other hsorted t p hk _).trans (hother k hk)
  · exact (State.effected_writesOnly.trans State.issueOp_writesOnly).regsBut (State.canonical.regs hs)
  · rw [State.issueOp_tile_self hsorted, hself, htally]
    rfl

end Sys2Proof.Machine
end
section
/-! SUPPORT. Lane instructions: the elements written by the predicate, and the statement of an instruction from its effect (R143, R146). -/

namespace Sys2Proof.Machine

/-! ## The elements written (R146) -/

/-- What a lane instruction writes to its elements below `n`: the result where it is active, +0 with `MZERO` where it is not, and nothing otherwise. -/
def laneElems (n : Nat) (on : Nat → Bool) (mz : Bool) (r : Nat → Word32) : List (Option Word32) :=
  (List.range n).map fun k => if on k then some (r k) else if mz then some 0 else none

@[simp] theorem laneElems_length (n : Nat) (on : Nat → Bool) (mz : Bool) (r : Nat → Word32) : (laneElems n on mz r).length = n := by simp [laneElems]

theorem laneElems_getD {n : Nat} {on : Nat → Bool} {mz : Bool} {r : Nat → Word32} {k : Nat} (hk : k < n) (w : Word32) :
    ((laneElems n on mz r)[k]'(by simpa using hk)).getD w = if on k then r k else if mz then 0 else w := by
  simp only [laneElems, List.getElem_map, List.getElem_range]
  cases on k <;> cases mz <;> rfl

/-- The elements written are those active, and all of them with `MZERO`. -/
theorem laneElems_written {n : Nat} {on : Nat → Bool} {mz : Bool} {r : Nat → Word32} {k : Nat} :
    ((laneElems n on mz r).map Option.isSome)[k]? = some true ↔ k < n ∧ (on k || mz) = true := by
  by_cases hk : k < n
  · have hget : ((laneElems n on mz r).map Option.isSome)[k]? = some (on k || mz) := by
      simp only [laneElems, List.map_map, List.getElem?_map, List.getElem?_range hk, Option.map_some, Function.comp]
      cases on k <;> cases mz <;> rfl
    rw [hget, Option.some_inj, and_iff_right hk]
  · simp [hk]

theorem laneResults_eq {n : Nat} {on : Nat → Bool} {r : Nat → Word32} {rs : List (Word32 × Bool)} (hlen : n ≤ rs.length)
    (hr : ∀ k (h : k < rs.length), k < n → on k = true → rs[k].1 = r k) (mz : Bool) : (laneResults ((List.range n).map on) mz rs).1 = laneElems n on mz r := by
  refine List.ext_getElem (by simp [laneResults, hlen]) fun k h1 h2 => ?_
  have hk : k < n := by simpa using h2
  simp only [laneResults, laneElems, List.getElem_map, List.getElem_zipWith, List.getElem_range]
  by_cases hon : on k = true
  · simp [hon, hr k (by omega) hk hon]
  · simp [hon]

/-! ## Operands of the lanes (R143, R146) -/

theorem Tile.actives_eq (t : Tile) (i : Insn) (n : Nat) : t.actives i n = (List.range n).map (t.lane i) := by
  unfold Tile.actives Tile.lane
  cases i.argBit 19 <;> simp

theorem Tile.vread_eq (t : Tile) (a n : Nat) : t.vread a n = (List.range n).map (t.word a) := rfl

theorem Tile.second_eq (t : Tile) (i : Insn) (n : Nat) : t.second i n =
    ((List.range n).map (t.src2 i), (t.vaddr i.opd2, if i.argBit 15 then (if n = 0 then 0 else 4) else 4 * n)) := by
  unfold Tile.second Tile.src2
  cases i.argBit 15 <;> simp [Tile.vread_eq]

/-! ## Effects of lane instructions -/

/-- The effect of a lane instruction that writes `r k` to the elements `on` below `n` and reads a marked unit when `m` holds. Of no element it does nothing, and
what it reads does not matter. -/
structure Effect.Lanes (e : Effect) (tl : Tile) (i : Insn) (n : Nat) (on : Nat → Bool) (r : Nat → Word32) (m : Bool) : Prop where
  tile : e.tile = tl.vput (tl.vaddr i.opd0) (laneElems n on i.mzero r)
  writes : e.writes = []
  vwrites : e.vwrites = runs 4 (tl.vaddr i.opd0) ((laneElems n on i.mzero r).map Option.isSome)
  mark : e.mark = fun _ t => t
  clear : e.clear tl = true
  reads : 0 < n → e.readsMarked tl = m

/-- An instruction that reads and writes nothing of the scratchpad is held by no operation in flight (R98). -/
theorem Tile.clearOf_nil (t : Tile) : t.clearOf [] [] = true := by
  have hranges : t.ranges [] [] = [] := rfl
  simp [Tile.clearOf, Op.conflicts, hranges]

section
variable {tl : Tile} {i : Insn} {n : Nat} {on : Nat → Bool} {r : Nat → Word32} {m : Bool}

theorem Tile.idle_lanes (tl : Tile) (i : Insn) (on : Nat → Bool) (r : Nat → Word32) (m : Bool) : tl.idle.Lanes tl i 0 on r m where
  tile := rfl
  writes := rfl
  vwrites := rfl
  mark := rfl
  clear := tl.clearOf_nil
  reads h := absurd h (Nat.lt_irrefl 0)

theorem Tile.laneEffect_lanes {rs : List (Word32 × Bool)} (hlen : n ≤ rs.length) (hr : ∀ k (h : k < rs.length), k < n → on k = true → rs[k].1 = r k)
    (vreads : List (Nat × Nat)) (srcs : List Nat) (lat : Nat) :
    (tl.laneEffect i ((List.range n).map on) rs vreads srcs lat).Lanes tl i n on r (tl.readsMark i n vreads []) where
  tile := congrArg (tl.vput (tl.vaddr i.opd0)) (laneResults_eq hlen hr i.mzero)
  writes := rfl
  vwrites := congrArg (fun l : List (Option Word32) => runs 4 (tl.vaddr i.opd0) (l.map Option.isSome)) (laneResults_eq hlen hr i.mzero)
  mark := rfl
  clear := tl.clearOf_nil
  reads _ := by simp [Tile.laneEffect, Effect.readsMarked, Tile.readsMark, Tile.markedSegs]

/-- Results listed at least as far as the elements go. -/
theorem Tile.laneEffect_of_getElem? {f : Nat → Word32 × Bool} {rs : List (Word32 × Bool)} (hf : ∀ k, k < n → rs[k]? = some (f k)) (vreads : List (Nat × Nat))
    (srcs : List Nat) (lat : Nat) :
    (tl.laneEffect i ((List.range n).map on) rs vreads srcs lat).Lanes tl i n on (fun k => (f k).1) (tl.readsMark i n vreads []) := by
  refine Tile.laneEffect_lanes ?_ (fun k hk hkn _ => ?_) vreads srcs lat
  · by_contra hlen
    have hlast := hf rs.length (Nat.not_le.1 hlen)
    simp at hlast
  · rw [Option.some_inj.1 ((List.getElem?_eq_getElem hk).symm.trans (hf k hkn))]

/-- Results given element by element. -/
theorem Tile.laneEffect_map {f : Nat → Word32 × Bool} (hf : ∀ k, k < n → on k = true → (f k).1 = r k) (vreads : List (Nat × Nat)) (srcs : List Nat) (lat : Nat) :
    (tl.laneEffect i ((List.range n).map on) ((List.range n).map f) vreads srcs lat).Lanes tl i n on r (tl.readsMark i n vreads []) :=
  Tile.laneEffect_lanes (by simp) (fun k _ hk hon => by simpa using hf k hk hon) vreads srcs lat

/-- What an effect charges for time and counts is no part of what it writes. -/
theorem Effect.Lanes.recount {e : Effect} (h : e.Lanes tl i n on r m) (occ zr : Nat) : ({ e with occ := occ, zeroRms := zr } : Effect).Lanes tl i n on r m :=
  ⟨h.tile, h.writes, h.vwrites, h.mark, h.clear, h.reads⟩

theorem Tile.readsMark_or (tl : Tile) (i : Insn) (n : Nat) (v gs : List (Nat × Nat)) :
    (tl.readsMark i n v [] || tl.markedSegs gs) = tl.readsMark i n v gs := by
  simp [Tile.readsMark, Tile.markedSegs]

/-- An instruction that also reads the scratchpad, where no operation in flight conflicts (R98), reads the marks there too. -/
theorem Effect.Lanes.reading {e : Effect} (h : e.Lanes tl i n on r m) (hranges : e.rangeR = none ∧ e.rangeW = none) (hreads : e.reads = [])
    {gs : List (Nat × Nat)} (hclear : tl.clearOf gs [] = true) (occ : Nat) :
    ({ e with reads := gs, occ := occ } : Effect).Lanes tl i n on r (m || tl.markedSegs gs) where
  tile := h.tile
  writes := h.writes
  vwrites := h.vwrites
  mark := h.mark
  clear := by simpa only [Effect.clear, Effect.readRange, Effect.writeRange, hranges.1, hranges.2, Option.getD_none, h.writes] using hclear
  reads hn := by
    rw [← h.reads hn]
    simp only [Effect.readsMarked, hreads, Tile.markedSegs, List.any_nil, Bool.or_false, Bool.or_right_comm]

end

/-- The tile after a lane instruction holds the elements written and their marks, and otherwise its old data. -/
theorem Effect.Lanes.issued_reads {e : Effect} {tl : Tile} {i : Insn} {n : Nat} {on : Nat → Bool} {r : Nat → Word32} {m : Bool} (h : e.Lanes tl i n on r m)
    (mk : Bool) (x : Op) (tally : Nat) : ((e.marked mk).issued x tally).vbuf = (tl.vput (tl.vaddr i.opd0) (laneElems n on i.mzero r)).vbuf ∧
      ((e.marked mk).issued x tally).vbufMarks =
        (runs 4 (tl.vaddr i.opd0) ((laneElems n on i.mzero r).map Option.isSome)).foldl (fun k g => markSpan k g.1 g.2 mk) tl.vbufMarks ∧
      ((e.marked mk).issued x tally).spad = tl.spad ∧ tl.keeps ((e.marked mk).issued x tally) := by
  have hmarked : e.marked mk = { tl.vput (tl.vaddr i.opd0) (laneElems n on i.mzero r) with
      vbufMarks := (runs 4 (tl.vaddr i.opd0) ((laneElems n on i.mzero r).map Option.isSome)).foldl (fun k g => markSpan k g.1 g.2 mk) tl.vbufMarks } := by
    unfold Effect.marked
    rw [h.mark, h.writes, h.vwrites, h.tile, Tile.vput_eq]
    rfl
  rw [hmarked, Tile.vput_eq]
  exact ⟨rfl, rfl, rfl, rfl, rfl, rfl, rfl, rfl, rfl, rfl⟩

/-- A byte of an element that is written, as the statement names it. -/
theorem laneByte_iff {a n : Nat} {on : Nat → Bool} {mz : Bool} {r : Nat → Word32} {x : Nat} :
    (decide (a ≤ x) && decide (x < a + 4 * n) && (on ((x - a) / 4) || mz)) = true ↔
      covered (runs 4 a ((laneElems n on mz r).map Option.isSome)) x := by
  rw [covered_runs (by decide), laneElems_written, Bool.and_eq_true, Bool.and_eq_true, decide_eq_true_eq, decide_eq_true_eq, and_assoc]
  refine and_congr_right fun ha => and_congr_left' ?_
  omega

/-- The tile after a lane instruction, as the statement reads it. -/
theorem Effect.Lanes.row {e : Effect} {tl : Tile} {i : Insn} {n : Nat} {on : Nat → Bool} {r : Nat → Word32} {m : Bool} (h : e.Lanes tl i n on r m)
    (hc : tl.canonical = true) {x : Op} {tally : Nat} {u : Tile} (hu : u = (e.marked (e.readsMarked tl)).issued x tally) :
    (∀ k, k < n → u.word (tl.vaddr i.opd0) k = if on k then r k else if i.mzero then 0 else tl.word (tl.vaddr i.opd0) k) ∧
      (∀ a, (a < tl.vaddr i.opd0 ∨ tl.vaddr i.opd0 + 4 * n ≤ a) → Mem.read u.vbuf a = Mem.read tl.vbuf a) ∧
      tl.vbufMarked u m (fun x => decide (tl.vaddr i.opd0 ≤ x) && decide (x < tl.vaddr i.opd0 + 4 * n) && (on ((x - tl.vaddr i.opd0) / 4) || i.mzero)) ∧
      u.spad = tl.spad ∧ tl.keeps u := by
  obtain ⟨hwf, hsorted⟩ := Tile.canonical.vbuf hc
  obtain ⟨hvbuf, hmarks, hspad, hkeeps⟩ := h.issued_reads (e.readsMarked tl) x tally
  rw [← hu] at hvbuf hmarks hspad hkeeps
  refine ⟨fun k hk => ?elements, fun a ha => ?others, ?marks, hspad, hkeeps⟩
  case elements =>
    have hword : u.word (tl.vaddr i.opd0) k = (tl.vput (tl.vaddr i.opd0) (laneElems n on i.mzero r)).word (tl.vaddr i.opd0) k :=
      Tile.word_congr fun _ _ _ => by rw [hvbuf]
    exact hword.trans ((Tile.vput_word (by simpa using hk) hwf).trans (laneElems_getD hk _))
  case others =>
    rw [hvbuf]
    exact Tile.vput_read_other hwf (by simpa using ha)
  case marks =>
    refine Tile.vbufMarked_of_spans hsorted (runs_apart 4 _ _).1 (fun _ => laneByte_iff (r := r)) (hmarks.trans ?_)
    rcases Nat.eq_zero_or_pos n with rfl | hn
    · rfl
    · rw [h.reads hn]

/-- A lane instruction does what its effect says. -/
theorem laneRow_of_lanes (c : Nat → Check → Instr) {opc : Nat} {ok : State → Tile → Insn → Prop} {on : Tile → Insn → Nat → Bool}
    {rd : State → Tile → Insn → List (Nat × Nat) × List (Nat × Nat) × Bool} {r : State → Tile → Insn → Nat → Word32} {eff : State → Tile → Insn → Effect}
    (hexec : ∀ t s, exec (c t .pass) s = pathInsn t opc .pass s (eff s))
    (heff : ∀ s tl i, ok s tl i → (eff s tl i).Lanes tl i (s.vcount tl i) (on tl i) (r s tl i)
      ((rd s tl i).2.2 || tl.readsMark i (s.vcount tl i) (rd s tl i).1 (rd s tl i).2.1)) : laneRow c opc ok on rd r := by
  intro s t p i hs hat hok
  have h := heff s (s.tile p) i hok
  obtain ⟨hone, hself⟩ := State.runEffect_reads hs h.clear t p i
  exact ⟨_, (hexec t s).trans (onInsn_at hat _), hone, h.row (State.canonical.tile hs p) hself⟩

end Sys2Proof.Machine
end

section
/-! SUPPORT. Lane arithmetic (O22): each instruction's effect, by the elements it writes. -/

namespace Sys2Proof.Machine

/-! ## Instructions of one source and of two (R143, R149) -/

/-- A lane instruction of one source writes `f` of its element. -/
theorem laneRow_unary (c : Nat → Check → Instr) {opc : Nat} {f : Word32 → Word32 × Bool} {g : Word32 → Word32}
    (hexec : ∀ t s, exec (c t .pass) s = unary t opc .pass s f) (hf : ∀ w, (f w).1 = g w) :
    laneRow c opc (fun _ _ _ => True) Tile.lane (fun s tl i => (s.reads1 tl i, [], false)) (fun _ tl i k => g (tl.word (tl.vaddr i.opd1) k)) := by
  refine laneRow_of_lanes c hexec fun s tl i _ => ?_
  simp only [Tile.actives_eq, Tile.vread_eq, List.map_map]
  exact Tile.laneEffect_map (fun k _ _ => hf _) _ _ _

/-- A lane instruction of two sources writes `f` of their elements. -/
theorem laneRow_binary (c : Nat → Check → Instr) {opc : Nat} {f : Word32 → Word32 → Word32 × Bool}
    (hexec : ∀ t s, exec (c t .pass) s = binary t opc .pass s f) :
    laneRow c opc (fun _ _ _ => True) Tile.lane (fun s tl i => (s.reads2 tl i, [], false))
      (fun _ tl i k => (f (tl.word (tl.vaddr i.opd1) k) (tl.src2 i k)).1) := by
  refine laneRow_of_lanes c hexec fun s tl i _ => ?_
  simp only [Tile.actives_eq, Tile.vread_eq, Tile.second_eq, List.zipWith_map, List.zipWith_self]
  exact Tile.laneEffect_map (fun k _ _ => rfl) _ _ _

/-- An instruction that changes the sign alone writes the canonical NaN for a NaN. -/
theorem signOp_fst (f : Word32 → Word32) (w : Word32) : (signOp f w).1 = if ofF32 w = .nan then 0x7FC00000 else f w := by
  simp only [signOp, beq_iff_eq]
  rfl

theorem viota_row : laneRow .viota 0x45 (fun _ _ _ => True) Tile.lane (fun _ tl i => ([(tl.vaddr i.opd2, 4)], [], false))
    (fun _ tl i k => (f32Sat (Val.add (.fin false k 0) (ofF32 (tl.word (tl.vaddr i.opd2) 0)))).1) := by
  refine laneRow_of_lanes .viota (eff := ?eff) (fun t s => ?exec) fun s tl i _ => ?lanes
  case exec =>
    show execViota t .pass s = _
    rw [execViota, onStore_pass]
  case lanes =>
    dsimp only
    split
    · next hn =>
      rw [hn]
      exact Tile.idle_lanes ..
    · rw [Tile.actives_eq]
      exact Tile.laneEffect_map (fun k _ _ => rfl) _ _ _

theorem vfma_row : laneRow .vfma 0x4B (fun _ _ _ => True) Tile.lane
    (fun s tl i => (s.reads2 tl i ++ [(tl.vaddr i.opd0, 4 * s.vcount tl i)], [], false))
    (fun _ tl i k => (f32Sat (Val.add (Val.mul (ofF32 (tl.word (tl.vaddr i.opd1) k)) (ofF32 (tl.src2 i k))) (ofF32 (tl.word (tl.vaddr i.opd0) k)))).1) := by
  refine laneRow_of_lanes .vfma (eff := ?eff) (fun t s => ?exec) fun s tl i _ => ?lanes
  case exec =>
    show execVfma t .pass s = _
    rw [execVfma, onStore_pass]
  case lanes =>
    simp only [Tile.actives_eq, Tile.vread_eq, Tile.second_eq, List.zip, List.zipWith_map, List.zipWith_self]
    exact Tile.laneEffect_map (fun k _ _ => rfl) _ _ _

/-- Settles O22: eight instructions are of one source (`laneRow_unary`) or of two (`laneRow_binary`); `VIOTA` and `VFMA` read what their effects name. -/
theorem laneArithmeticWritesActiveElements : Obligations.LaneArithmeticWritesActiveElements := by
  unfold Obligations.LaneArithmeticWritesActiveElements
  exact ⟨laneRow_unary .vmov (fun t s => onStore_pass t s _) (fun _ => rfl), viota_row, laneRow_binary .vadd (fun t s => onStore_pass t s _),
    laneRow_binary .vsub (fun t s => onStore_pass t s _), laneRow_binary .vmul (fun t s => onStore_pass t s _), vfma_row,
    laneRow_binary .vmax (fun t s => onStore_pass t s _), laneRow_binary .vmin (fun t s => onStore_pass t s _),
    laneRow_unary .vneg (fun t s => onStore_pass t s _) (signOp_fst _), laneRow_unary .vabs (fun t s => onStore_pass t s _) (signOp_fst _)⟩

end Sys2Proof.Machine
end

section
/-! SUPPORT. Selections, special functions, normalisation and loads (O23): the elements of a scratchpad operand, and each instruction's effect. -/

namespace Sys2Proof.Machine

/-! ## Bytes of an operand (R94, R191) -/

/-- The spans of a wrapped range hold all of its bytes. -/
theorem wrapSegs_sum {b n : Nat} (hn : 0 < n) : ∀ (f d len : Nat), d < n → d + len ≤ f * n → ((wrapSegs b n f d len).map Prod.snd).sum = len
  | 0, d, len, _, h => by
    obtain rfl : len = 0 := by omega
    rfl
  | f + 1, d, len, hd, h => by
    rw [Nat.succ_mul] at h
    unfold wrapSegs
    split
    · next h0 =>
      obtain rfl : len = 0 := by simpa [Nat.pos_iff_ne_zero.1 hn] using h0
      rfl
    · split
      · simp
      · simp only [List.map_cons, List.sum_cons, wrapSegs_sum hn f 0 (len - (n - d)) hn (by omega)]
        omega

/-- A bangle region that contains an address is not empty. -/
theorem Tile.regionOf_pos {t : Tile} {a b n : Nat} (h : t.regionOf a = some (b, n)) : 0 < n := by
  obtain ⟨e, hfind, he⟩ := Option.bind_eq_some_iff.1 h
  obtain ⟨g, hg, heq⟩ := Option.map_eq_some_iff.1 he
  obtain ⟨rfl, rfl⟩ := Prod.mk.inj heq
  have hin := List.find?_some hfind
  simp only [hg, within, Bool.and_eq_true, decide_eq_true_eq] at hin
  omega

theorem Tile.opnd_region (t : Tile) (o : Word64) : (t.opnd o).region = t.regionOf (opdBase o) := by
  unfold Tile.opnd
  dsimp only
  split
  · next h => exact h.symm
  · next h => exact h.symm

theorem Tile.opnd_segs_sum (t : Tile) (o : Word64) (k n : Nat) : (((t.opnd o).segs k n).map Prod.snd).sum = n := by
  unfold Opnd.segs
  rw [Tile.opnd_region]
  split
  · next h => simp [h]
  · split
    · simp
    · next b sz hr =>
      have hsz := Tile.regionOf_pos hr
      refine wrapSegs_sum hsz _ _ n (Nat.mod_lt _ hsz) ?_
      have hd := Nat.mod_lt ((t.opnd o).ea - b + k) hsz
      have hq := Nat.div_add_mod n sz
      have hm := Nat.mod_lt n hsz
      rw [Nat.max_eq_left hsz, Nat.add_mul, Nat.mul_comm]
      omega

@[simp] theorem Tile.sread_length (t : Tile) (o : Word64) (k n : Nat) : (t.sread (t.opnd o) k n).length = n := by
  simp only [Tile.sread, Tile.readSegs, List.length_flatMap, Mem.readRange_length]
  exact Tile.opnd_segs_sum t o k n

/-! ## Elements and scales of a load (R147, R150) -/

/-- Element `k` of lists of the same length put end to end. -/
theorem getElem?_flatMap_of_length {α β : Type} {f : α → List β} {c : Nat} (hc : 0 < c) (hf : ∀ x, (f x).length = c) :
    ∀ (l : List α) (k : Nat), (l.flatMap f)[k]? = l[k / c]?.bind fun x => (f x)[k % c]?
  | [], k => by simp
  | x :: l, k => by
    rw [List.flatMap_cons]
    by_cases hk : k < c
    · rw [List.getElem?_append_left (by rw [hf]; exact hk), Nat.div_eq_of_lt hk, Nat.mod_eq_of_lt hk]
      rfl
    · rw [List.getElem?_append_right (by rw [hf]; omega), hf, getElem?_flatMap_of_length hc hf l (k - c), Nat.div_eq_sub_div hc (Nat.not_lt.1 hk),
        Nat.mod_eq_sub_mod (Nat.not_lt.1 hk), List.getElem?_cons_succ]

/-- The code of element `k` of a scratchpad operand (R103, R118). -/
def Tile.codeAt (t : Tile) (o : Opnd) (fmt k : Nat) : Nat :=
  if fmtScaled fmt then (rowCodes (t.sread o (k / 32 * fmtBytes fmt) (fmtBytes fmt)) fmt).getD (k % 32) 0
  else leNat (t.sread o (k * (fmtBits fmt / 8)) (fmtBits fmt / 8)) % 2 ^ (if fmt = 7 then 34 else fmtBits fmt)

/-- The scale of element `k` among the scale bytes of its operand (R117). -/
def scaleAt (fmt : Nat) (bytes : List Byte) (k : Nat) : Nat := if fmtScaled fmt then (bytes.getD (k / 32) 0).toNat else 127

theorem rowCodes_length (bytes : List Byte) (fmt : Nat) : (rowCodes bytes fmt).length = 32 := by simp [rowCodes]

theorem Tile.elements_getElem? (t : Tile) (o : Opnd) (fmt : Nat) {n k : Nat} (hk : k < n) : (t.elements o fmt n)[k]? = some (t.codeAt o fmt k) := by
  unfold Tile.elements Tile.codeAt
  split
  · have hblock : k / 32 < ceilDiv n 32 := by unfold ceilDiv; omega
    have helem : k % 32 < 32 := Nat.mod_lt k (by decide)
    rw [getElem?_flatMap_of_length (by decide) (fun b => rowCodes_length _ fmt), List.getElem?_range hblock, Option.bind_some,
      List.getElem?_eq_getElem (by rw [rowCodes_length]; exact helem), List.getD_eq_getElem _ _ (by rw [rowCodes_length]; exact helem)]
  · simp [hk]

theorem scales_getElem? {fmt n k : Nat} (hk : k < n) {bytes : List Byte} (hlen : bytes.length = ceilDiv n 32) :
    (if fmtScaled fmt then bytes.flatMap (fun b => List.replicate 32 b.toNat) else List.replicate n 127)[k]? = some (scaleAt fmt bytes k) := by
  unfold scaleAt
  split
  · have hblock : k / 32 < bytes.length := by rw [hlen]; unfold ceilDiv; omega
    have helem : k % 32 < 32 := Nat.mod_lt k (by decide)
    rw [getElem?_flatMap_of_length (by decide) (fun b => List.length_replicate), List.getElem?_eq_getElem hblock, Option.bind_some,
      List.getElem?_replicate_of_lt helem, List.getD_eq_getElem _ _ hblock]
  · exact List.getElem?_replicate_of_lt hk

/-! ## The instructions -/

theorem vsel_row : laneRow .vsel 0x51 (fun _ _ _ => True) (fun _ _ _ => true) (fun s tl i => (s.reads2 tl i, [], false))
    (fun _ tl i k => quiet (if tl.lane i k then tl.word (tl.vaddr i.opd1) k else tl.src2 i k)) := by
  refine laneRow_of_lanes .vsel (eff := ?eff) (fun t s => ?exec) fun s tl i _ => ?lanes
  case exec =>
    show execVsel t .pass s = _
    rw [execVsel, onStore_pass]
  case lanes =>
    have hall : List.replicate (s.vcount tl i) true = (List.range (s.vcount tl i)).map fun _ => true := by simp
    simp only [Tile.actives_eq, Tile.vread_eq, Tile.second_eq, List.zip, List.zipWith_map, List.zipWith_self, hall]
    exact Tile.laneEffect_map (fun k _ _ => rfl) _ _ _

theorem vsf_row : laneRow .vsf 0x58 (fun _ _ _ => True) Tile.lane (fun s tl i => (s.reads1 tl i, [], false))
    (fun _ tl i k => if (tl.part.map (·.zorli)).getD false then (sfZorli (i.arg 21 4) (tl.word (tl.vaddr i.opd1) k)).1
      else (sfNative (i.arg 21 4) (tl.word (tl.vaddr i.opd1) k)).1) := by
  refine laneRow_of_lanes .vsf (eff := ?eff) (fun t s => ?exec) fun s tl i _ => ?lanes
  case exec =>
    show execVsf t .pass s = _
    rw [execVsf, onStore_pass]
  case lanes =>
    simp only [Tile.actives_eq, Tile.vread_eq, List.zip, List.zipWith_map, List.zipWith_self, List.map_map]
    refine (Tile.laneEffect_map (fun k _ hon => ?_) _ _ _).recount _ _
    simp only [Function.comp, hon, if_true]
    exact apply_ite Prod.fst _ _ _

theorem vrmsn_row : laneRow .vrmsn 0x61 (fun _ _ _ => True) Tile.lane (fun s tl i => (s.reads1 tl i ++ [(tl.vaddr i.opd2 + 0x10, 12)], [], false))
    (fun _ tl i k => (rmsQuot (sqrtW34 (ofW34 (w34Add (tl.vw34 (tl.vaddr i.opd2 + 0x10)) (toW34 (ofF32 (tl.word (tl.vaddr i.opd2 + 0x18) 0))))))
      (ofF32 (tl.word (tl.vaddr i.opd1) k))).1) := by
  refine laneRow_of_lanes .vrmsn (eff := ?eff) (fun t s => ?exec) fun s tl i _ => ?lanes
  case exec =>
    show execVrmsn t .pass s = _
    rw [execVrmsn, onStore_pass]
  case lanes =>
    dsimp only
    split
    · next hn =>
      rw [hn]
      exact Tile.idle_lanes ..
    · simp only [Tile.actives_eq, Tile.vread_eq, List.map_map]
      exact (Tile.laneEffect_map (fun k _ _ => rfl) _ _ _).recount _ _

/-- The results of a load: each element's code, decoded, times its scale. -/
theorem loaded_getElem? (tl : Tile) (o1 o2 : Word64) (fmt : Nat) {n k : Nat} (hk : k < n) :
    (List.zipWith (fun c sc => f32Sat (scaled ((Fmt.ofCode fmt).decode c) sc)) (tl.elements (tl.opnd o1) fmt n)
      (if fmtScaled fmt then (tl.sread (tl.opnd o2) 0 (ceilDiv n 32)).flatMap (fun b => List.replicate 32 b.toNat) else List.replicate n 127))[k]? =
      some (f32Sat (scaled ((Fmt.ofCode fmt).decode (tl.codeAt (tl.opnd o1) fmt k)) (scaleAt fmt (tl.sread (tl.opnd o2) 0 (ceilDiv n 32)) k))) := by
  rw [List.getElem?_zipWith, Tile.elements_getElem? tl _ fmt hk, scales_getElem? hk (Tile.sread_length ..)]

theorem vld_row : laneRow .vld 0x40 (fun s tl i => tl.clearOf ((tl.opnd i.opd1).segs 0 (spanBytes (i.arg 21 3) (s.vcount tl i)) ++
      (if fmtScaled (i.arg 21 3) then (tl.opnd i.opd2).segs 0 (ceilDiv (s.vcount tl i) 32) else [])) [] = true) Tile.lane
    (fun s tl i => ([], (tl.opnd i.opd1).segs 0 (spanBytes (i.arg 21 3) (s.vcount tl i)) ++
      (if fmtScaled (i.arg 21 3) then (tl.opnd i.opd2).segs 0 (ceilDiv (s.vcount tl i) 32) else []), false))
    (fun s tl i k => (f32Sat (scaled ((Fmt.ofCode (i.arg 21 3)).decode (tl.codeAt (tl.opnd i.opd1) (i.arg 21 3) k))
      (scaleAt (i.arg 21 3) (tl.sread (tl.opnd i.opd2) 0 (ceilDiv (s.vcount tl i) 32)) k))).1) := by
  refine laneRow_of_lanes .vld (eff := ?eff) (fun t s => ?exec) fun s tl i hclear => ?lanes
  case exec =>
    show execVld t .pass s = _
    rw [execVld, onStore_pass]
  case lanes =>
    dsimp only
    split
    · next hn =>
      rw [hn]
      exact Tile.idle_lanes ..
    · rw [Tile.actives_eq, Bool.false_or, ← Tile.readsMark_or]
      have hloaded := fun k (hk : k < s.vcount tl i) => loaded_getElem? tl i.opd1 i.opd2 (i.arg 21 3) hk
      exact (Tile.laneEffect_of_getElem? hloaded [] [] 4).reading ⟨rfl, rfl⟩ rfl hclear _

/-- The value of a loaded element, as the statement writes it. -/
theorem loaded_eq (tl : Tile) (o : Opnd) (fmt : Nat) (bytes : List Byte) (k : Nat) :
    scaled ((Fmt.ofCode fmt).decode (tl.codeAt o fmt k)) (scaleAt fmt bytes k) =
      if fmtScaled fmt then scaled ((Fmt.ofCode fmt).decode ((rowCodes (tl.sread o (k / 32 * fmtBytes fmt) (fmtBytes fmt)) fmt).getD (k % 32) 0))
        (bytes.getD (k / 32) 0).toNat
      else scaled ((Fmt.ofCode fmt).decode (leNat (tl.sread o (k * (fmtBits fmt / 8)) (fmtBits fmt / 8)) % 2 ^ (if fmt = 7 then 34 else fmtBits fmt))) 127 := by
  unfold Tile.codeAt scaleAt
  split <;> rfl

/-- Settles O23: each instruction's effect writes its elements; a load is `vld_row`, whose elements and scales are those of its operands (`loaded_eq`). -/
theorem laneFunctionsWriteActiveElements : Obligations.LaneFunctionsWriteActiveElements := by
  unfold Obligations.LaneFunctionsWriteActiveElements
  refine ⟨vsel_row, vsf_row, vrmsn_row, ?_⟩
  simp only [← loaded_eq]
  exact vld_row

end Sys2Proof.Machine
end

section
/-! SUPPORT. Mask registers (O24): the bits that an instruction writes to a mask register, and the mark that the register takes. -/

namespace Sys2Proof.Machine

/-! ## A path instruction that may issue -/

/-- A path instruction that R98 does not hold answers a next state, whose tile holds its effect with its marks. -/
theorem pathInsn_issues {s : State} {t p opc : Nat} {i : Insn} {c : Instr} {f : Tile → Insn → Effect} (hs : s.canonical = true)
    (hat : s.atInsn t p opc i = true) (hexec : exec c s = pathInsn t opc .pass s f) (hclear : (f (s.tile p) i).clear (s.tile p) = true) :
    ∃ u, exec c s = .next u ∧ s.oneTile u p ∧
      ∃ x, u.tile p = ((f (s.tile p) i).marked ((f (s.tile p) i).readsMarked (s.tile p))).issued x s.tally := by
  obtain ⟨hone, hself⟩ := State.runEffect_reads hs hclear t p i
  exact ⟨_, hexec.trans (onInsn_at hat _), hone, _, hself⟩

/-! ## The bits of a mask register -/

/-- A mask register with bit `j` replaced where a value is given. -/
def putBit (v : BitVec 8192) (j : Nat) (b : Option Bool) : BitVec 8192 :=
  match b with
  | some true => v ||| (1#8192 <<< j)
  | some false => v &&& ~~~(1#8192 <<< j)
  | none => v

/-- Bit `j` is the value given, and every other bit its old value. -/
theorem putBit_getLsbD {v : BitVec 8192} {j k : Nat} {b : Option Bool} (hk : k < 8192) :
    (putBit v j b).getLsbD k = if k = j then b.getD (v.getLsbD k) else v.getLsbD k := by
  have hone : (1#8192 <<< j).getLsbD k = decide (k = j) := by
    rw [← BitVec.twoPow_eq, BitVec.getLsbD_twoPow]
    by_cases h : k = j
    · subst h; simp [hk]
    · simp [h, Ne.symm h]
  match b with
  | none => simp [putBit]
  | some true =>
    simp only [putBit, BitVec.getLsbD_or, hone, Option.getD_some]
    by_cases h : k = j <;> simp [h]
  | some false =>
    simp only [putBit, BitVec.getLsbD_and, BitVec.getLsbD_not, hone, Option.getD_some]
    by_cases h : k = j <;> simp [h, hk]

/-- Bits put one after the other from bit `j` on. -/
theorem putBits_getLsbD {k : Nat} (hk : k < 8192) : ∀ (bits : List (Option Bool)) (v : BitVec 8192) (j : Nat),
    (bits.foldl (fun (acc : BitVec 8192 × Nat) b => (putBit acc.1 acc.2 b, acc.2 + 1)) (v, j)).1.getLsbD k =
      if j ≤ k then (bits[k - j]?.join).getD (v.getLsbD k) else v.getLsbD k
  | [], v, j => by simp
  | b :: bits, v, j => by
    rw [List.foldl_cons, putBits_getLsbD hk bits, putBit_getLsbD hk]
    rcases lt_trichotomy k j with h | rfl | h
    · simp [Nat.not_le.2 h, show ¬ j + 1 ≤ k by omega, Nat.ne_of_lt h]
    · simp
    · have hsub : k - j = (k - (j + 1)) + 1 := by omega
      simp [show j + 1 ≤ k from h, Nat.le_of_lt h, Nat.ne_of_gt h, hsub]

/-- Bit `k` is the value given for it, or its old value where none is. -/
theorem maskPut_getLsbD {old : BitVec 8192} {bits : List (Option Bool)} {k : Nat} (hk : k < 8192) :
    (maskPut old bits).getLsbD k = (bits[k]?.join).getD (old.getLsbD k) :=
  (putBits_getLsbD hk bits old 0).trans (by simp)

/-- Of the bits below `n`, each is the value given for it, or its old value where none is. -/
theorem maskPut_range_of_lt {old : BitVec 8192} {n k : Nat} (hn : n ≤ 8192) (b : Nat → Option Bool) (hk : k < n) :
    (maskPut old ((List.range n).map b)).getLsbD k = (b k).getD (old.getLsbD k) := by
  rw [maskPut_getLsbD (hk.trans_le hn), List.getElem?_map, List.getElem?_range hk]
  rfl

/-- The bits at or above `n` keep their values. -/
theorem maskPut_range_of_le {old : BitVec 8192} {n k : Nat} (b : Nat → Option Bool) (hk : n ≤ k) :
    (maskPut old ((List.range n).map b)).getLsbD k = old.getLsbD k := by
  by_cases hw : k < 8192
  · rw [maskPut_getLsbD hw, List.getElem?_eq_none (by simpa using hk)]
    rfl
  · rw [BitVec.getLsbD_of_ge _ _ (Nat.not_lt.1 hw), BitVec.getLsbD_of_ge _ _ (Nat.not_lt.1 hw)]

/-! ## The mark of a mask register (R392) -/

/-- A mask register is marked by marked data, and loses its mark when unmarked data writes all of it. -/
theorem maskMark_get {t : Tile} (h : Tab.sorted t.maskMarks = true) (m : Nat) (whole mk : Bool) :
    Tab.get false (maskMark m whole mk t).maskMarks m = if mk then true else if whole then false else Tab.get false t.maskMarks m := by
  unfold maskMark
  cases mk <;> cases whole <;> simp [Tab.get_set_self h]

/-- Only the marks of mask registers change. -/
theorem maskMark_eq (m : Nat) (whole mk : Bool) (t : Tile) : maskMark m whole mk t = { t with maskMarks := (maskMark m whole mk t).maskMarks } := by
  unfold maskMark
  split <;> rfl

/-! ## Effects on a mask register -/

/-- The effect of an instruction that writes `b k` to each bit `k` of `MDST` below `n`, where a value is given, and reads a marked unit when `m` holds. -/
structure Effect.MaskBits (e : Effect) (tl : Tile) (i : Insn) (n : Nat) (b : Nat → Option Bool) (m : Bool) : Prop where
  tile : e.tile = tl.setMask i.mdst (maskPut (tl.maskReg i.mdst) ((List.range n).map b))
  writes : e.writes = []
  vwrites : e.vwrites = []
  mark : e.mark = maskMark i.mdst (n == 8192 && ((List.range n).map b).all Option.isSome)
  clear : e.clear tl = true
  reads : e.readsMarked tl = m

theorem Tile.canonical.masks {tl : Tile} (h : tl.canonical = true) : Tab.sorted tl.masks = true ∧ Tab.sorted tl.maskMarks = true := by
  simp only [Tile.canonical, Bool.and_eq_true] at h
  tauto

/-- The tile after the instruction holds the mask register written and its mark, and otherwise its old data. -/
theorem Effect.MaskBits.issued_reads {e : Effect} {tl : Tile} {i : Insn} {n : Nat} {b : Nat → Option Bool} {m : Bool} (h : e.MaskBits tl i n b m)
    (x : Op) (tally : Nat) {u : Tile} (hu : u = (e.marked (e.readsMarked tl)).issued x tally) :
    u.masks = Tab.set (BitVec.allOnes 8192) tl.masks i.mdst (maskPut (tl.maskReg i.mdst) ((List.range n).map b)) ∧
      u.maskMarks = (maskMark i.mdst (n == 8192 && ((List.range n).map b).all Option.isSome) m tl).maskMarks ∧
      u.vbuf = tl.vbuf ∧ u.spad = tl.spad ∧ u.acc = tl.acc ∧ u.locket = tl.locket := by
  subst hu
  unfold Effect.marked
  rw [h.mark, h.writes, h.vwrites, h.tile, h.reads, maskMark_eq]
  refine ⟨rfl, ?_, rfl, rfl, rfl, rfl⟩
  show (maskMark _ _ _ _).maskMarks = _
  unfold maskMark
  split <;> rfl

/-- Of a mask register `r`, the bits below `n` are written where `b` gives a value, by data that is marked when `m` holds (R392); every other bit, every other
mask register, the buffers, the scratchpad, the accumulators and the locket are as before. -/
structure Tile.MaskWritten (t u : Tile) (r n : Nat) (b : Nat → Option Bool) (m : Bool) : Prop where
  below : ∀ k, k < n → (u.maskReg r).getLsbD k = (b k).getD ((t.maskReg r).getLsbD k)
  above : ∀ k, n ≤ k → (u.maskReg r).getLsbD k = (t.maskReg r).getLsbD k
  others : ∀ q, q ≠ r → u.maskReg q = t.maskReg q
  vbuf : u.vbuf = t.vbuf
  spad : u.spad = t.spad
  acc : u.acc = t.acc
  locket : u.locket = t.locket
  marked : Tab.get false u.maskMarks r =
    if m then true else if n == 8192 && ((List.range n).map b).all Option.isSome then false else Tab.get false t.maskMarks r

theorem Effect.MaskBits.written {e : Effect} {tl : Tile} {i : Insn} {n : Nat} {b : Nat → Option Bool} {m : Bool} (h : e.MaskBits tl i n b m)
    (hc : tl.canonical = true) (hn : n ≤ 8192) {x : Op} {tally : Nat} {u : Tile} (hu : u = (e.marked (e.readsMarked tl)).issued x tally) :
    tl.MaskWritten u i.mdst n b m := by
  obtain ⟨hsorted, hsortedMarks⟩ := Tile.canonical.masks hc
  obtain ⟨hmasks, hmarks, hvbuf, hspad, hacc, hlocket⟩ := h.issued_reads x tally hu
  have hself : u.maskReg i.mdst = maskPut (tl.maskReg i.mdst) ((List.range n).map b) := by
    rw [Tile.maskReg, hmasks, Tab.get_set_self hsorted]
  exact {
    below := fun k hk => by rw [hself, maskPut_range_of_lt hn b hk]
    above := fun k hk => by rw [hself, maskPut_range_of_le b hk]
    others := fun q hq => by rw [Tile.maskReg, hmasks, Tab.get_set_other hsorted hq, Tile.maskReg]
    vbuf := hvbuf
    spad := hspad
    acc := hacc
    locket := hlocket
    marked := by rw [hmarks, maskMark_get hsortedMarks] }

/-- An instruction that writes bits of `MDST` answers a next state with them written. -/
theorem maskRow {s : State} {t p opc : Nat} {i : Insn} {c : Instr} {n : Nat} {b : Nat → Option Bool} {m : Bool} (hs : s.canonical = true)
    (hat : s.atInsn t p opc i = true) (hn : n ≤ 8192)
    (heff : ∃ f, exec c s = pathInsn t opc .pass s f ∧ (f (s.tile p) i).MaskBits (s.tile p) i n b m) :
    ∃ u, exec c s = .next u ∧ s.oneTile u p ∧ (s.tile p).MaskWritten (u.tile p) i.mdst n b m := by
  obtain ⟨f, hexec, h⟩ := heff
  obtain ⟨u, hnext, hone, x, hself⟩ := pathInsn_issues hs hat hexec h.clear
  exact ⟨u, hnext, hone, h.written (State.canonical.tile hs p) hn hself⟩

/-! ## The instructions -/

/-- What `VCMP` writes to a bit of `MDST`: the condition where the element is active, 0 with `MZERO` where not, and nothing otherwise (R144, R148). -/
def Tile.cmpBit (tl : Tile) (i : Insn) (k : Nat) : Option Bool :=
  if tl.lane i k then some (cmpCond (i.arg 21 3) (tl.word (tl.vaddr i.opd1) k) (tl.src2 i k)) else if i.mzero then some false else none

theorem Tile.cmpBit_getD (tl : Tile) (i : Insn) (k : Nat) (old : Bool) : (tl.cmpBit i k).getD old =
    if tl.lane i k then cmpCond (i.arg 21 3) (tl.word (tl.vaddr i.opd1) k) (tl.src2 i k) else if i.mzero then false else old := by
  unfold Tile.cmpBit
  split <;> [rfl; split <;> rfl]

theorem Tile.cmpBit_isSome (tl : Tile) (i : Insn) (k : Nat) : (tl.cmpBit i k).isSome = (tl.lane i k || i.mzero) := by
  unfold Tile.cmpBit
  cases tl.lane i k <;> cases i.mzero <;> rfl

/-- `VCMP` writes all of a mask register when it has an element for each bit and every element is active or cleared. -/
theorem Tile.cmpBit_whole (tl : Tile) (i : Insn) (n : Nat) : (n == 8192 && ((List.range n).map (tl.cmpBit i)).all Option.isSome) =
    (n == 8192 && (List.range 8192).all fun k => tl.lane i k || i.mzero) := by
  by_cases hn : n = 8192
  · subst hn
    simp only [List.all_map, Function.comp_def, Tile.cmpBit_isSome]
  · rw [beq_false_of_ne hn, Bool.false_and, Bool.false_and]

section
variable {s : State} {t : Nat} {tl : Tile} {i : Insn}

/-- `VCMP` writes the conditions of its elements, by what its predicate register and its sources are marked. -/
theorem vcmp_bits (hpos : 0 < s.vcount tl i) : ∃ f, exec (.vcmp t .pass) s = pathInsn t 0x50 .pass s f ∧
    (f tl i).MaskBits tl i (s.vcount tl i) (tl.cmpBit i) (tl.readsMark i (s.vcount tl i) (s.reads2 tl i) []) := by
  refine ⟨?eff, ?exec, ?bits⟩
  case exec =>
    show execVcmp t .pass s = _
    rw [execVcmp, onStore_pass]
  case bits =>
    simp only [Tile.actives_eq, Tile.vread_eq, Tile.second_eq, List.zipWith_map, List.zipWith_self, if_neg hpos.ne']
    exact {
      tile := rfl
      writes := rfl
      vwrites := rfl
      mark := rfl
      clear := tl.clearOf_nil
      reads := by simp [Effect.readsMarked, Tile.readsMark, Tile.markedSegs, State.reads2, State.reads1, hpos.ne'] }

/-- `VMLD` writes the bits of the scratchpad bytes that it reads, by what these are marked. -/
theorem vmld_bits {gs : List (Nat × Nat)} (hpos : 0 < s.vcount tl i) (hgs : gs = (tl.opnd i.opd1).segs 0 (ceilDiv (s.vcount tl i) 8))
    (hclear : tl.clearOf gs [] = true) : ∃ f, exec (.vmld t .pass) s = pathInsn t 0x43 .pass s f ∧
    (f tl i).MaskBits tl i (s.vcount tl i) (fun k => some (bitOf (leNat (tl.sread (tl.opnd i.opd1) 0 (ceilDiv (s.vcount tl i) 8))) k))
      (tl.markedSegs gs) := by
  subst hgs
  refine ⟨?eff, ?exec, ?bits⟩
  case exec =>
    show execVmld t .pass s = _
    rw [execVmld, onStore_pass]
  case bits =>
    simp only [if_neg hpos.ne']
    exact {
      tile := rfl
      writes := rfl
      vwrites := rfl
      mark := congrArg (maskMark i.mdst) (by simp)
      clear := hclear
      reads := by simp [Effect.readsMarked, Tile.vmarked] }

end

/-- Settles O24: both instructions write their bits of `MDST` below N (`maskRow`); what the statement says of each bit is what `cmpBit` gives, and the bit of
the bytes loaded. -/
theorem maskInstructionsWriteMaskBits : Obligations.MaskInstructionsWriteMaskBits := by
  unfold Obligations.MaskInstructionsWriteMaskBits
  refine ⟨fun s t p i hs hat hpos hn => ?vcmp, fun s t p i hs hat hpos hn hclear => ?vmld⟩
  case vcmp =>
    obtain ⟨u, hnext, hone, hw⟩ := maskRow hs hat hn (vcmp_bits hpos)
    refine ⟨u, hnext, hone, fun k hk => (hw.below k hk).trans (Tile.cmpBit_getD ..), hw.above, hw.others, hw.vbuf, hw.spad, hw.acc, hw.locket,
      fun hm => ?_, fun hm => ?_⟩
    · rw [hw.marked, hm, if_pos rfl]
    · rw [hw.marked, hm, if_neg Bool.false_ne_true, Tile.cmpBit_whole]
  case vmld =>
    obtain ⟨u, hnext, hone, hw⟩ := maskRow hs hat hn (vmld_bits hpos rfl hclear)
    refine ⟨u, hnext, hone, hw.below, hw.above, hw.others, hw.vbuf, hw.spad, hw.acc, hw.locket, hw.marked.trans ?_⟩
    simp

end Sys2Proof.Machine
end

section
/-! SUPPORT. Vector stores and records (O25): instructions of the vector path that write bytes of the scratchpad or of the vector buffers, and nothing else. -/

namespace Sys2Proof.Machine

/-! ## Scratchpad writes (R175) -/

/-- Of a tile's data, at most the bytes of the scratchpad and the rows that are no longer fresh differ. -/
def Tile.spadOnly (t u : Tile) : Prop := u = { t with spad := u.spad, live := u.live }

theorem Tile.spadOnly.refl (t : Tile) : t.spadOnly t := rfl

theorem Tile.spadOnly.trans {t u v : Tile} (h : t.spadOnly u) (h' : u.spadOnly v) : t.spadOnly v := by
  unfold Tile.spadOnly at h h'
  generalize u.spad = spad, u.live = live at h
  subst h
  exact h'

theorem Tile.writeSegs_spadOnly : ∀ (gs : List (Nat × Nat)) (t : Tile) (bytes : List Byte), t.spadOnly (t.writeSegs gs bytes)
  | [], t, _ => .refl t
  | g :: gs, t, bytes => .trans (u := t.writeAt g.1 (bytes.take g.2)) rfl (Tile.writeSegs_spadOnly gs _ _)

theorem Tile.sput_spadOnly (t : Tile) (o : Opnd) (k : Nat) (bytes : List Byte) : t.spadOnly (t.sput o k bytes) := Tile.writeSegs_spadOnly _ _ _

theorem Tile.sputElems_spadOnly (o : Opnd) (w : Nat) : ∀ (el : List (Option Nat)) (t : Tile) (k : Nat), t.spadOnly (t.sputElems o w k el)
  | [], t, _ => .refl t
  | none :: el, t, k => Tile.sputElems_spadOnly o w el t (k + w)
  | some c :: el, t, k => (t.sput_spadOnly o k (leBytes w c)).trans (Tile.sputElems_spadOnly o w el _ (k + w))

/-! ## Stores -/

/-- The effect of a store: it leaves the scratchpad of `v`, writes the spans `gs`, and reads a marked unit when `m` holds. -/
structure Effect.Stores (e : Effect) (tl v : Tile) (gs : List (Nat × Nat)) (m : Bool) : Prop where
  tile : e.tile = v
  only : tl.spadOnly v
  writes : e.writes = gs
  mark : e.mark = fun _ t => t
  clear : e.clear tl = true
  reads : e.readsMarked tl = m

/-- The tile after a store holds its bytes and their marks, and otherwise its old data. -/
theorem Effect.Stores.issued_reads {e : Effect} {tl v : Tile} {gs : List (Nat × Nat)} {m : Bool} (h : e.Stores tl v gs m) {x : Op} {tally : Nat} {u : Tile}
    (hu : u = (e.marked (e.readsMarked tl)).issued x tally) :
    u.vbuf = tl.vbuf ∧ tl.keeps u ∧ u.spad = v.spad ∧ u.spadMarks = (tl.markSegs gs m).spadMarks := by
  subst hu
  unfold Effect.marked
  rw [h.mark, h.writes, h.tile, h.reads, h.only]
  exact ⟨rfl, ⟨rfl, rfl, rfl, rfl, rfl, rfl, rfl⟩, rfl, rfl⟩

/-- A store answers a next state with its bytes and their marks in its tile. -/
theorem storeRow {s : State} {t p opc : Nat} {i : Insn} {c : Instr} {v : Tile} {gs : List (Nat × Nat)} {m : Bool} (hs : s.canonical = true)
    (hat : s.atInsn t p opc i = true) (heff : ∃ f, exec c s = pathInsn t opc .pass s f ∧ (f (s.tile p) i).Stores (s.tile p) v gs m) :
    ∃ u, exec c s = .next u ∧ s.oneTile u p ∧ (u.tile p).vbuf = (s.tile p).vbuf ∧ (s.tile p).keeps (u.tile p) ∧ (u.tile p).spad = v.spad ∧
      (u.tile p).spadMarks = ((s.tile p).markSegs gs m).spadMarks := by
  obtain ⟨f, hexec, h⟩ := heff
  obtain ⟨u, hnext, hone, x, hself⟩ := pathInsn_issues hs hat hexec h.clear
  exact ⟨u, hnext, hone, h.issued_reads hself⟩

/-! ## Records in the vector buffers -/

/-- The effect of an instruction that leaves `b` in the vector buffers and writes nothing else. -/
structure Effect.Records (e : Effect) (tl : Tile) (b : Mem) : Prop where
  tile : e.tile = { tl with vbuf := b }
  reads : e.readRange = []
  writes : e.writes = []
  writeRange : e.rangeW = none
  mark : e.mark = fun _ t => t

/-- The tile after the instruction holds what it writes to the vector buffers, and otherwise its old data. -/
theorem Effect.Records.issued_reads {e : Effect} {tl : Tile} {b : Mem} (h : e.Records tl b) {m : Bool} {x : Op} {tally : Nat} {u : Tile}
    (hu : u = (e.marked m).issued x tally) : u.spad = tl.spad ∧ tl.keeps u ∧ u.vbuf = b := by
  subst hu
  unfold Effect.marked
  rw [h.mark, h.writes, h.tile]
  exact ⟨rfl, ⟨rfl, rfl, rfl, rfl, rfl, rfl, rfl⟩, rfl⟩

/-- R98 holds no instruction that leaves the scratchpad alone. -/
theorem Effect.Records.clear {e : Effect} {tl : Tile} {b : Mem} (h : e.Records tl b) : e.clear tl = true := by
  rw [Effect.clear, h.reads, Effect.writeRange, h.writeRange, h.writes]
  exact tl.clearOf_nil

/-- Such an instruction answers a next state with its bytes in the vector buffers of its tile. -/
theorem recordRow {s : State} {t p opc : Nat} {i : Insn} {c : Instr} {b : Mem} (hs : s.canonical = true) (hat : s.atInsn t p opc i = true)
    (heff : ∃ f, exec c s = pathInsn t opc .pass s f ∧ (f (s.tile p) i).Records (s.tile p) b) :
    ∃ u, exec c s = .next u ∧ s.oneTile u p ∧ (u.tile p).spad = (s.tile p).spad ∧ (s.tile p).keeps (u.tile p) ∧ (u.tile p).vbuf = b := by
  obtain ⟨f, hexec, h⟩ := heff
  obtain ⟨u, hnext, hone, x, hself⟩ := pathInsn_issues hs hat hexec h.clear
  exact ⟨u, hnext, hone, h.issued_reads hself⟩

/-! ## The instructions -/

section
variable {s : State} {t : Nat} {tl : Tile} {i : Insn}

/-- `VST` in an unscaled format writes the elements that are given a code (R147, R148). -/
theorem vst_stores {el : List (Option Nat)} (hfmt : fmtScaled (i.arg 21 3) = false) (hpos : 0 < s.vcount tl i)
    (hel : el = List.zipWith (fun on v => if on then some ((Fmt.ofCode (i.arg 21 3)).encode v).1 else if i.mzero then some 0 else none)
      (tl.actives i (s.vcount tl i)) ((tl.vread (tl.vaddr i.opd1) (s.vcount tl i)).map ofF32))
    (hclear : tl.clearOf [] ((tl.opnd i.opd0).runRange (fmtBits (i.arg 21 3) / 8) (el.map Option.isSome)) = true) :
    ∃ f, exec (.vst t .pass) s = pathInsn t 0x41 .pass s f ∧
      (f tl i).Stores tl (tl.sputElems (tl.opnd i.opd0) (fmtBits (i.arg 21 3) / 8) 0 el)
        ((tl.opnd i.opd0).runSegs (fmtBits (i.arg 21 3) / 8) (el.map Option.isSome)) (tl.readsMark i (s.vcount tl i) (s.reads1 tl i) []) := by
  refine ⟨?eff, ?exec, ?stores⟩
  case exec =>
    show execVst t .pass s = _
    rw [execVst, onStore_pass]
  case stores =>
    simp only [if_neg hpos.ne', hfmt, Bool.false_eq_true, if_false, List.map_zipWith, ← hel]
    exact {
      tile := rfl
      only := Tile.sputElems_spadOnly ..
      writes := rfl
      mark := rfl
      clear := hclear
      reads := by simp [Effect.readsMarked, Tile.readsMark, Tile.markedSegs, State.reads1] }

/-- `VST` in an MX format writes what `storeMx` says: blocks of data, and their scales (R147). -/
theorem vst_storesMx {n : Nat} {e : Effect} (hn : n = s.vcount tl i) (hfmt : fmtScaled (i.arg 21 3) = true) (hpos : 0 < n)
    (he : e = tl.storeMx i n (i.arg 21 3) (tl.actives i n) ((tl.vread (tl.vaddr i.opd1) n).map ofF32)) (hclear : tl.clearOf [] e.writes = true) :
    ∃ f, exec (.vst t .pass) s = pathInsn t 0x41 .pass s f ∧ (f tl i).Stores tl e.tile e.writes (tl.readsMark i n (s.reads1 tl i) []) := by
  subst hn he
  refine ⟨?eff, ?exec, ?stores⟩
  case exec =>
    show execVst t .pass s = _
    rw [execVst, onStore_pass]
  case stores =>
    simp only [if_neg hpos.ne', hfmt, if_true]
    exact {
      tile := rfl
      only := (Tile.sput_spadOnly ..).trans (Tile.sput_spadOnly ..)
      writes := rfl
      mark := rfl
      clear := hclear
      reads := by simp [Tile.storeMx, Effect.readsMarked, Tile.readsMark, Tile.markedSegs, State.reads1] }

/-- `VMST` writes the bits of its mask register below N, by what the register is marked; with N = 0 it writes and reads nothing (R144, R146). -/
theorem vmst_stores (hclear : tl.clearOf [] ((tl.opnd i.opd0).segs 0 (ceilDiv (s.vcount tl i) 8)) = true) :
    ∃ f, exec (.vmst t .pass) s = pathInsn t 0x44 .pass s f ∧
      (f tl i).Stores tl (tl.sput (tl.opnd i.opd0) 0 (leBytes (ceilDiv (s.vcount tl i) 8) ((tl.maskReg i.mdst).toNat % 2 ^ s.vcount tl i)))
        ((tl.opnd i.opd0).segs 0 (ceilDiv (s.vcount tl i) 8)) (s.vcount tl i != 0 && Tab.get false tl.maskMarks i.mdst) := by
  refine ⟨?eff, ?exec, ?stores⟩
  case exec =>
    show execVmst t .pass s = _
    rw [execVmst, onStore_pass]
  case stores =>
    exact {
      tile := rfl
      only := Tile.sput_spadOnly ..
      writes := rfl
      mark := rfl
      clear := hclear
      reads := by simp [Effect.readsMarked, Tile.vmarked, Tile.markedSegs] }

/-- `VRSTAT` writes the sums of the active elements and their count (R155, R156). -/
theorem vrstat_records {vs : List Val} (hvs : vs = activeVals (tl.actives i (s.vcount tl i)) (tl.vread (tl.vaddr i.opd1) (s.vcount tl i))) :
    ∃ f, exec (.vrstat t .pass) s = pathInsn t 0x60 .pass s f ∧
      (f tl i).Records tl (Mem.writeRange (Mem.writeRange tl.vbuf (tl.vaddr i.opd0) (leBytes 8 (rowStats vs).1.toNat ++
        leBytes 8 (rowStats vs).2.1.toNat ++ leBytes 8 (rowStats vs).2.2.toNat)) (tl.vaddr i.opd0 + 0x1C) (leBytes 4 vs.length)) := by
  subst hvs
  refine ⟨?eff, ?exec, ?records⟩
  case exec =>
    show execVrstat t .pass s = _
    rw [execVrstat, onStore_pass]
  case records =>
    refine ⟨?_, rfl, rfl, rfl, rfl⟩
    simp only [Tile.vbytes]

/-- `VSMX` writes the softmax of its row and the flag word (R159-R161). -/
theorem vsmx_records {r : SmxOut}
    (hr : r = softmaxRow (tl.word (tl.vaddr i.opd2) 0) (tl.actives i (s.vcount tl i)) (tl.vread (tl.vaddr i.opd1) (s.vcount tl i))) :
    ∃ f, exec (.vsmx t .pass) s = pathInsn t 0x68 .pass s f ∧
      (f tl i).Records tl (Mem.writeRange (tl.vput (tl.vaddr i.opd0) r.out).vbuf (tl.vaddr i.opd2 + 4) (leBytes 4 r.flags)) := by
  subst hr
  refine ⟨?eff, ?exec, ?records⟩
  case exec =>
    show execVsmx t .pass s = _
    rw [execVsmx, onStore_pass]
  case records =>
    refine ⟨?_, rfl, rfl, rfl, rfl⟩
    simp only [Tile.softmaxEffect, Tile.vbytes, Bool.false_eq_true, if_false]
    rw [Tile.vput_eq]
    rfl

/-- `VUPD` of no element does nothing (R146). -/
theorem vupd_idle (hn : s.vcount tl i = 0) : ∃ f, exec (.vupd t .pass) s = pathInsn t 0x70 .pass s f ∧ (f tl i).Records tl tl.vbuf := by
  refine ⟨?eff, ?exec, ?records⟩
  case exec =>
    show execVupd t .pass s = _
    rw [execVupd, onStore_pass]
  case records =>
    rw [if_pos hn]
    exact ⟨rfl, rfl, rfl, rfl, rfl⟩

/-- The bytes of a weight of `VUPD`, and its format (R162). -/
def Insn.updBytes (i : Insn) : Nat := if i.argBit 15 then 4 else 2
def Insn.updFmt (i : Insn) : Nat := if i.argBit 15 then 6 else 5

/-- The elements of `VUPD` that its predicate, mask register 0, makes active (R162). -/
def Tile.updActive (tl : Tile) (i : Insn) (n : Nat) : List Bool :=
  if i.argBit 30 then (List.range n).map (tl.maskReg 0).getLsbD else List.replicate n true

/-- The update record before `VUPD` (R133). -/
def Tile.updOld (tl : Tile) (o : Opnd) : UpdRec :=
  { u2 := BitVec.ofNat 34 (leNat (tl.sread o 0 8)), w2 := BitVec.ofNat 34 (leNat (tl.sread o 8 8)), count := leNat (tl.sread o 0x14 4),
    sats := leNat (tl.sread o 0x18 4), skipped := leNat (tl.sread o 0x1C 4) }

/-- The bytes of an update record (R133). -/
def UpdRec.bytes (r : UpdRec) : List Byte :=
  leBytes 8 r.u2.toNat ++ leBytes 8 r.w2.toNat ++ leBytes 4 (updRatio (ofW34 r.u2) (ofW34 r.w2)).toNat ++ leBytes 4 r.count ++ leBytes 4 r.sats ++
    leBytes 4 r.skipped

/-- What `VUPD` gives: the record after it, and the new codes of the weights written (R129-R133). -/
def State.updated (s : State) (tl : Tile) (i : Insn) : UpdRec × List (Option (Nat × Bool)) :=
  updAll (Fmt.ofCode i.updFmt) (s.paramWord tl (i.arg 16 14) % 2 ^ 31) (s.paramWord tl (i.arg 16 14 + 1))
    (((s.paramWord tl (i.arg 16 14 + 2) : Int) + ((((tl.opnd i.opd0).ea : Int) - opdBase i.opd0) / i.updBytes)) % (2 ^ 32 : Nat)).toNat
    (tl.updOld (tl.opnd i.opd2)) (List.zip (tl.updActive i (s.vcount tl i))
      (List.zip (tl.elements (tl.opnd i.opd0) i.updFmt (s.vcount tl i)) (tl.vread (tl.vaddr i.opd1) (s.vcount tl i))))

/-- `VUPD` writes the weights updated and then its record (log 174). -/
theorem vupd_stores (hpos : 0 < s.vcount tl i) (hops : tl.ops = []) {el : List (Option Nat)} (hel : el = (s.updated tl i).2.map fun x => x.map Prod.fst) :
    ∃ f, exec (.vupd t .pass) s = pathInsn t 0x70 .pass s f ∧
      (f tl i).Stores tl ((tl.sputElems (tl.opnd i.opd0) i.updBytes 0 el).sput (tl.opnd i.opd2) 0 (s.updated tl i).1.bytes)
        ((tl.opnd i.opd0).runSegs i.updBytes (el.map Option.isSome) ++ (tl.opnd i.opd2).segs 0 32)
        (i.argBit 30 && Tab.get false tl.maskMarks 0 ||
          tl.markedSegs ((tl.opnd i.opd0).segs 0 (s.vcount tl i * i.updBytes) ++ (tl.opnd i.opd2).segs 0 32) || tl.vmarked (s.reads1 tl i)) := by
  subst hel
  refine ⟨?eff, ?exec, ?stores⟩
  case exec =>
    show execVupd t .pass s = _
    rw [execVupd, onStore_pass]
  case stores =>
    rw [if_neg hpos.ne']
    exact {
      tile := rfl
      only := (Tile.sputElems_spadOnly ..).trans (Tile.sput_spadOnly ..)
      writes := rfl
      mark := rfl
      clear := by simp [Effect.clear, Tile.clearOf, hops]
      reads := rfl }

end

/-- Settles O25: the instructions that store (`storeRow`) and those that write records in the vector buffers (`recordRow`), each by its effect. -/
theorem vectorStoresAndRecords : Obligations.VectorStoresAndRecords := by
  unfold Obligations.VectorStoresAndRecords
  refine ⟨?vst, ?vstMx, ?vmst, ?vrstat, ?vsmx, ?vupdIdle, ?vupd⟩
  case vst =>
    rintro s t p i w vs el hs hat hfmt hpos rfl rfl hel hclear
    exact storeRow hs hat (vst_stores hfmt hpos hel hclear)
  case vstMx =>
    rintro s t p nb i vals rows data hs hat hfmt hpos rfl rfl rfl rfl hclear
    exact storeRow hs hat (vst_storesMx rfl hfmt hpos rfl hclear)
  case vmst =>
    rintro s t p i n hs hat rfl hclear
    obtain ⟨u, hnext, hone, hvbuf, hkeeps, hspad, hmarks⟩ := storeRow hs hat (vmst_stores hclear)
    exact ⟨u, hnext, hone, hvbuf, hkeeps, hmarks, hspad⟩
  case vrstat =>
    rintro s t p i d vs hs hat rfl hvs
    exact recordRow hs hat (vrstat_records hvs)
  case vsmx =>
    intro s t p i r hs hat hr
    exact recordRow hs hat (vsmx_records hr)
  case vupdIdle =>
    intro s t p i hs hat hn
    obtain ⟨u, hnext, hone, hspad, hkeeps, hvbuf⟩ := recordRow hs hat (vupd_idle hn)
    exact ⟨u, hnext, hone, hspad, hvbuf, hkeeps⟩
  case vupd =>
    rintro s t p i w fmt o0 o2 act r0 r hs hat hpos rfl rfl rfl rfl hops rfl rfl rfl
    obtain ⟨u, hnext, hone, hvbuf, hkeeps, hspad, -⟩ := storeRow hs hat (vupd_stores hpos hops rfl)
    exact ⟨u, hnext, hone, hvbuf, hkeeps, hspad⟩

end Sys2Proof.Machine
end

section
/-! SUPPORT. The requests `SSIG`, `BPUSH` and `BPOP`: their issue, and their effect once each is the oldest operation in flight (O15). -/

namespace Sys2Proof.Machine

/-! ## The oldest operation in flight (R193) -/

theorem Tile.headOp_of {tl : Tile} {x : Op} {r : List Op} {opc : Nat} (h : tl.ops = x :: r) (ho : x.insn.opc.toNat = opc) : tl.headOp opc = some x := by
  simp [Tile.headOp, h, ho]

section
variable {s : State} {t p : Nat} {x : Op} {r : List Op} (ha : s.acts t p = true) (hx : (s.tile p).ops = x :: r)
include ha hx

/-- An `SSIG` with room in `COUNT` adds N and completes (R185). -/
theorem ssigTakeEffect_head (ho : x.insn.opc.toNat = opSsig) (hr : (s.tile p).ssigRoom x.insn = true) :
    exec (.ssigTakeEffect t) s = .next ((s.signal t p (x.insn.arg 0 7) (x.insn.arg 8 16)).completeOp t p x) := by
  show execSsigTakeEffect t s = _
  rw [execSsigTakeEffect, onTile_at ha]
  simp only [Tile.headOp_of hx ho, if_pos hr]

variable {b : Bangle} (hb : (s.tile p).bangle (x.insn.arg 0 4) = some b) (hr : (s.tile p).signalRoom x.insn = true)
include hb hr

/-- A `BPUSH` produces its bytes once `SIZE` − `FILL` holds them (R192, R193). -/
theorem bpushTakeEffect_head (ho : x.insn.opc.toNat = opBpush) : exec (.bpushTakeEffect t) s = .next (if x.insn.arg 4 23 ≤ b.size - b.fill then
    ((s.setTile p ((s.tile p).setBangle (x.insn.arg 0 4) (b.push (x.insn.arg 4 23)))).issue 9 (16 * t + x.insn.arg 0 4) (x.insn.arg 4 23)).completeOp t p x
    else s) := by
  show execBpushTakeEffect t s = _
  rw [execBpushTakeEffect, onTile_at ha]
  simp only [Tile.headOp_of hx ho, hb, hr, Bangle.ready, Bool.false_eq_true, if_false, Bool.and_true, decide_eq_true_eq]

/-- A `BPOP` consumes its bytes once `FILL` holds them (R192, R193). -/
theorem bpopTakeEffect_head (ho : x.insn.opc.toNat = opBpop) : exec (.bpopTakeEffect t) s = .next (if x.insn.arg 4 23 ≤ b.fill then
    ((s.setTile p ((s.tile p).setBangle (x.insn.arg 0 4) (b.pop (x.insn.arg 4 23)))).give 9 (16 * t + x.insn.arg 0 4) (x.insn.arg 4 23)).completeOp t p x
    else s) := by
  show execBpopTakeEffect t s = _
  rw [execBpopTakeEffect, onTile_at ha]
  simp only [Tile.headOp_of hx ho, hb, hr, Bangle.ready, if_true, Bool.and_true, decide_eq_true_eq]

end

/-- Settles O15: each of the three issues where it may (`onInsn_at`), and the oldest in flight takes effect when its object has room or its bangle is ready. -/
theorem requestsIssueAndTakeEffectInOrder : Obligations.RequestsIssueAndTakeEffectInOrder := by
  unfold Obligations.RequestsIssueAndTakeEffectInOrder
  refine ⟨fun s t p i => ?issue, fun s t p x r ha hx ho hr => ssigTakeEffect_head ha hx ho hr, fun s t p x r b ha hx ho hb hr => ?push,
    fun s t p x r b ha hx ho hb hr => ?pop⟩
  case issue =>
    have hissue : ∀ opc, s.atInsn t p opc i = true → onInsn t opc s (fun p tl i => s.issueOp t p (tl.mkOp i 0 [] [] 1 0)) =
        .next (s.issueOp t p ((s.tile p).mkOp i 0 [] [] 1 0)) := fun opc h => onInsn_at h _
    exact ⟨hissue opSsig, hissue opBpush, hissue opBpop⟩
  case push =>
    rw [bpushTakeEffect_head ha hx hb hr ho]
    exact ⟨fun hroom => by rw [if_pos hroom]; rfl, fun hfull => by rw [if_neg (Nat.not_le.2 hfull)]⟩
  case pop =>
    rw [bpopTakeEffect_head ha hx hb hr ho]
    exact ⟨fun hfill => by rw [if_pos hfill]; rfl, fun hshort => by rw [if_neg (Nat.not_le.2 hshort)]⟩

end Sys2Proof.Machine
end

section
/-! SUPPORT. The end of a carry, the substitution of a tile with a fenced array, and the fence of a tenant context (O53). -/

namespace Sys2Proof.Machine

/-! ## Carries (R387-R390) -/

section
variable {s : State} {t p : Nat} {c : Carry} (ht : t < 256) (hc : s.carryOf t = some c) (hp : s.physOf t = some p)
include ht hc hp

theorem carryComplete_held {words : List WordErr} (h : s.carryFree p c.spare = false) : exec (.carryComplete t words) s = .next s := by
  show execCarryComplete t words s = _
  rw [execCarryComplete, onUnit_ok (decide_eq_true ht)]
  simp only [hc, hp]
  exact whenever_neg h

/-- Where the guard holds neither tile, the copy is made: `u` is the state after it, and `v` that in which the spare has the storage. -/
theorem carryComplete_free {words ws : List WordErr} {u v : State} (h : s.carryFree p c.spare = true) (hws : ws = words.filter (fun w => w.unit ≤ controlUnit))
    (hu : u = ((s.carryRows p c.spare).countWords t ws).replayed p (c.ctlLost || ws.any (fun w => w.control && w.double)))
    (hv : v = (u.setTile c.spare (((u.tile p).carriedTo (u.tile c.spare) u.tally).markUnits
      ((ws.filter (fun w => w.double && !w.control)).map (·.unit)))).retireTile p c) :
    exec (.carryComplete t words) s = .next ((((((v.setFld Fld.tilePhysState c.spare 0).setFld Fld.tilePhysLogical c.spare t).setFlag Fld.tileArrayStrand t
      (v.flag Fld.tilePhysArrayFenced c.spare)).substituted t p c.spare).resendFrom t).replaySteps c.spare).modeCheck.stir := by
  show execCarryComplete t words s = _
  rw [execCarryComplete, onUnit_ok (decide_eq_true ht)]
  simp only [hc, hp]
  rw [whenever_pos h, hv, hu, hws]

theorem carryTimeout_early (h : s.tally < c.since + 65536 ∨ s.carryFree p c.spare = false) : exec (.carryTimeout t) s = .next s := by
  show execCarryTimeout t s = _
  rw [execCarryTimeout, onUnit_ok (decide_eq_true ht)]
  simp only [hc, hp]
  exact if_pos (by simpa using h)

/-- After 2^16 counts the storage is given up: `u` is the state in which the part has failed. -/
theorem carryTimeout_due {u : State} (h : c.since + 65536 ≤ s.tally) (hf : s.carryFree p c.spare = true)
    (hu : u = match (s.tile p).itemId with
      | some id => s.failPart id stPoison
      | none => s) :
    exec (.carryTimeout t) s = .next ((((u.endResidency t).retireTile p c).bindTile t c.spare).substituted t p c.spare).modeCheck.stir := by
  show execCarryTimeout t s = _
  rw [execCarryTimeout, onUnit_ok (decide_eq_true ht)]
  simp only [hc, hp]
  rw [if_neg (by simp [hf, h])]
  subst hu
  rfl

end

theorem strandSubstitution_resting {s : State} {t p sp : Nat} (ht : t < 256) (hr : s.restingOn t = some p) (hs : s.pickSpare = some sp) :
    exec (.strandSubstitution t) s = .next (if s.flag Fld.tilePhysArrayFenced p then s.startCarry t sp false else s) := by
  show execStrandSubstitution t s = _
  rw [execStrandSubstitution, onUnit_ok (decide_eq_true ht)]
  simp only [hr, hs]
  rfl

/-! ## The end of a context's residency (R177, R399) -/

theorem State.freshTile_eq (s : State) (t : Nat) : s.freshTile t = { s with tiles := (s.freshTile t).tiles } := by
  unfold State.freshTile
  split <;> rfl

theorem State.endResidency_eq (s : State) (t : Nat) :
    s.endResidency t = { s with regs := (s.endResidency t).regs, tiles := (s.endResidency t).tiles } := by
  unfold State.endResidency
  split
  · rw [State.freshTile_eq]
    unfold State.bump
    split <;> rfl
  · rfl

theorem State.endResidency_writes (s : State) (t : Nat) : s.writesOnly (· ∈ [.tileResidency]) (s.endResidency t) := by
  unfold State.endResidency
  split
  · exact .trans (.trans (.trans (.trans (.setFlag Fld.tileResidencyValid t false (by decide)) (.setFld Fld.tileResidencyHandle t 0 (by decide)))
      (.setFld Fld.tileResidencyTenant t 0 (by decide))) (.bump Fld.tileResidencyLosses t 1 (by decide))) (.of_regs (State.freshTile_regs ..))
  · exact .refl

/-- What is neither a register field nor a tile stays when residency ends. -/
theorem State.endResidencyOf_eq (s : State) (c : Nat) (h : Option Nat) :
    s.endResidencyOf c h = { s with regs := (s.endResidencyOf c h).regs, tiles := (s.endResidencyOf c h).tiles } := by
  unfold State.endResidencyOf
  induction List.range 256 generalizing s with
  | nil => rfl
  | cons t l ih =>
    rw [List.foldl_cons, ih]
    split
    · rw [State.endResidency_eq]
    · rfl

theorem State.endResidencyOf_writes (s : State) (c : Nat) (h : Option Nat) : s.writesOnly (· ∈ [.tileResidency]) (s.endResidencyOf c h) := by
  refine .foldl (fun s t => ?_) _ s
  split
  · exact s.endResidency_writes t
  · exact .refl

/-! ## Fences (R381, R399) -/

/-- The fields of `TENANT_CTL` that a fence sets first, and those that its end clears. -/
def fenceValues (fenced cause : Nat) : List (Field × Nat) := [(Fld.tenantCtlFenced, fenced), (Fld.tenantCtlDrained, 0), (Fld.tenantCtlCause, cause)]

theorem fieldsOf_fenceValues (fenced cause : Nat) : FieldsOf .tenantCtl ((fenceValues fenced cause).map Prod.fst) :=
  (Reg.fieldsOf_fields .tenantCtl).sublist (show [Fld.tenantCtlFenced, Fld.tenantCtlDrained, Fld.tenantCtlCause].Sublist Reg.tenantCtl.fields by decide)

theorem State.fenceValues_writes (s : State) (ctx fenced cause : Nat) : s.writesOnly (· ∈ [.tenantCtl]) (s.setFlds ctx (fenceValues fenced cause)) :=
  .trans (.trans (.setFld Fld.tenantCtlFenced ctx fenced (by decide)) (.setFld Fld.tenantCtlDrained ctx 0 (by decide)))
    (.setFld Fld.tenantCtlCause ctx cause (by decide))

/-- A field of `TENANT_CTL` that is set reads its value modulo its width. -/
theorem State.fld_fenceValues {s : State} (hs : Tab.sorted s.regs = true) {ctx fenced cause n : Nat} {f : Field} (hm : (f, n) ∈ fenceValues fenced cause) :
    (s.setFlds ctx (fenceValues fenced cause)).fld f ctx = n % 2 ^ f.width :=
  State.fld_setFlds_mem hs (fieldsOf_fenceValues fenced cause) hm

/-- A context marked fenced: it waits for the items that it has. -/
def State.fenceMarked (s : State) (ctx cause : Nat) : State :=
  { s.setFlds ctx (fenceValues 1 cause) with
    fenceItems := Tab.set [] s.fenceItems ctx ((s.items.filter (fun (i : Item) => i.fn == ctx)).map (fun (i : Item) => i.id)) }

/-- A fenced context with its items stopped and its residency ended. -/
def State.fenceStopped (s : State) (ctx cause : Nat) : State := ((s.fenceMarked ctx cause).stopContext ctx stFenced).endResidencyOf ctx none

/-- `FN_STATE` of a function in one state shows another (R382). -/
def State.fnMoved (s : State) (ctx old new : Nat) : State := if s.fnState ctx = old then s.setFld Fld.fnStateState ctx new else s

theorem State.fence_open {s : State} {ctx : Nat} (h : s.fenced ctx = false) (cause : Nat) :
    s.fence ctx cause = ((s.fenceStopped ctx cause).fnMoved ctx 1 3).fenceDrained ctx := by
  unfold State.fence
  rw [if_neg (Bool.eq_false_iff.1 h)]
  rfl

theorem State.fnMoved_eq (s : State) (ctx old new : Nat) : s.fnMoved ctx old new = { s with regs := (s.fnMoved ctx old new).regs } := by
  unfold State.fnMoved
  split <;> rfl

theorem State.fnMoved_writes (s : State) (ctx old new : Nat) : s.writesOnly (· ∈ [.fnState]) (s.fnMoved ctx old new) := by
  unfold State.fnMoved
  split
  · exact .setFld Fld.fnStateState ctx new (by decide)
  · exact .refl

theorem State.fnState_fnMoved {s : State} (hs : Tab.sorted s.regs = true) (ctx old new : Nat) :
    (s.fnMoved ctx old new).fnState ctx = if s.fnState ctx = old then new % 2 ^ Fld.fnStateState.width else s.fnState ctx := by
  unfold State.fnMoved
  split
  · exact State.fld_setFld_self hs Fld.fnStateState ctx new
  · rfl

/-- A fenced context that waits for no item is drained. -/
theorem State.fenceDrained_empty {s : State} {ctx : Nat} (h : s.fenced ctx = true) (he : Tab.get [] s.fenceItems ctx = []) :
    s.fenceDrained ctx = s.setFlag Fld.tenantCtlDrained ctx true := by
  rw [State.fenceDrained, if_pos (by rw [h, he]; rfl)]

/-- What stopping the items and ending the residency write after the fields of `TENANT_CTL`. -/
theorem State.fenceStopped_writes (s : State) (ctx cause : Nat) :
    (s.setFlds ctx (fenceValues 1 cause)).writesOnly (· ∈ [.tileResidency]) (s.fenceStopped ctx cause) :=
  .trans (.of_regs (State.stopContext_regs (s.fenceMarked ctx cause) ctx stFenced)) (State.endResidencyOf_writes _ ctx none)

/-! ### A context with no item -/

section
variable {s : State} {ctx : Nat} (h : s.items.all (fun i => i.fn != ctx) = true)
include h

theorem State.itemsOf_none : s.items.filter (fun i => i.fn == ctx) = [] :=
  List.filter_eq_nil_iff.2 fun i hi => by simpa using List.all_eq_true.1 h i hi

theorem State.stopContext_none (st : Nat) : s.stopContext ctx st = s.dropRetiring ctx := by
  rw [State.stopContext, State.itemsOf_none h]
  rfl

/-- With no item to stop, the fence drops the boards that wait in retirement and sets registers and tiles. -/
theorem State.fenceStopped_none (cause : Nat) : s.fenceStopped ctx cause = { s.dropRetiring ctx with
    regs := (s.fenceStopped ctx cause).regs, tiles := (s.fenceStopped ctx cause).tiles, fenceItems := Tab.set [] s.fenceItems ctx [] } := by
  have hmarked : (s.fenceMarked ctx cause).fenceItems = Tab.set [] s.fenceItems ctx [] := by
    rw [State.fenceMarked, State.itemsOf_none h]
    rfl
  rw [← hmarked, State.fenceStopped, State.stopContext_none (s := s.fenceMarked ctx cause) h]
  exact State.endResidencyOf_eq _ ctx none

end

/-- The fence writes the fields of `TENANT_CTL`, and then those of residency and of the function's state. -/
theorem State.fnMoved_fenceStopped_writes (s : State) (ctx cause : Nat) :
    (s.setFlds ctx (fenceValues 1 cause)).writesOnly (· ∈ [.fnState, .tileResidency]) ((s.fenceStopped ctx cause).fnMoved ctx 1 3) :=
  .trans ((s.fenceStopped_writes ctx cause).mono (by simp)) ((State.fnMoved_writes _ ctx 1 3).mono (by simp))

section
variable {s : State} {ctx cause : Nat} (hs : Tab.sorted s.regs = true)
include hs

theorem State.fld_fnMoved_fenceStopped {f : Field} {n : Nat} (hm : (f, n) ∈ fenceValues 1 cause) :
    ((s.fenceStopped ctx cause).fnMoved ctx 1 3).fld f ctx = n % 2 ^ f.width := by
  obtain ⟨hreg, hlo⟩ := (fieldsOf_fenceValues 1 cause).1 f (List.mem_map_of_mem hm)
  have hms := (s.fenceValues_writes ctx 1 cause hs).1
  rw [(s.fnMoved_fenceStopped_writes ctx cause).fld hms ⟨by rw [hreg]; decide, hlo⟩, State.fld_fenceValues hs hm]

/-- The function's state stays while its items are stopped. -/
theorem State.fnState_fenceStopped : (s.fenceStopped ctx cause).fnState ctx = s.fnState ctx := by
  have hm := s.fenceValues_writes ctx 1 cause
  exact ((s.fenceStopped_writes ctx cause).fld (hm hs).1 (f := Fld.fnStateState) (by decide) ctx).trans (hm.fld hs (by decide) ctx)

theorem State.fenced_fenceStopped : ((s.fenceStopped ctx cause).fnMoved ctx 1 3).fenced ctx = true := by
  have hfenced := State.fld_fnMoved_fenceStopped hs (ctx := ctx) (cause := cause) (f := Fld.tenantCtlFenced) (n := 1) (by simp [fenceValues])
  rw [State.fenced, State.flag, hfenced]
  rfl

end

/-- A context with no item is drained when the fence has stopped it. -/
theorem State.fence_none {s : State} {ctx : Nat} (hc : s.canonical = true) (hf : s.fenced ctx = false) (h : s.items.all (fun i => i.fn != ctx) = true)
    (cause : Nat) : s.fence ctx cause = ((s.fenceStopped ctx cause).fnMoved ctx 1 3).setFlag Fld.tenantCtlDrained ctx true := by
  rw [State.fence_open hf]
  refine State.fenceDrained_empty (State.fenced_fenceStopped (State.canonical.regs hc)) ?_
  rw [State.fnMoved_eq, State.fenceStopped_none h]
  exact Tab.get_set_self (State.canonical.fenceItems hc)

/-- `TENANT_FENCE` of a context with no item, by what it sets and what it leaves alone. -/
theorem State.fence_none_sets {s u : State} {ctx : Nat} (hc : s.canonical = true) (hf : s.fenced ctx = false)
    (h : s.items.all (fun i => i.fn != ctx) = true) (hu : u = s.fence ctx 1) :
    u.fenced ctx = true ∧ u.flag Fld.tenantCtlDrained ctx = true ∧ u.fld Fld.tenantCtlCause ctx = 1 ∧ (s.fnState ctx = 1 → u.fnState ctx = 3) ∧
      s.regsBut u [.tenantCtl, .fnState, .tileResidency] ∧ u.items = s.items ∧ u.pools = s.pools ∧ u.windows = s.windows ∧ u.mem = s.mem := by
  have hs := State.canonical.regs hc
  have hset : s.writesOnly (· ∈ [.tenantCtl, .fnState, .tileResidency]) (s.setFlds ctx (fenceValues 1 1)) := (s.fenceValues_writes ctx 1 1).mono (by simp)
  have hall := hset.trans ((s.fnMoved_fenceStopped_writes ctx 1).mono (by simp))
  have hws := (hall hs).1
  rw [State.fence_none hc hf h] at hu
  subst hu
  refine ⟨?fenced, State.flag_setFlag_self hws rfl ctx true, ?cause, fun hfn => ?fn, ?regs, ?rest⟩
  case fenced => exact (State.flag_setFld_ne hws (.inr (.inr (by decide))) _ (by decide)).trans (State.fenced_fenceStopped hs)
  case cause => exact (State.fld_setFld_ne hws (.inr (.inr (by decide))) _ (by decide)).trans (State.fld_fnMoved_fenceStopped hs (n := 1) (by simp [fenceValues]))
  case fn =>
    have hv := (hset.trans ((s.fenceStopped_writes ctx 1).mono (by simp)) hs).1
    refine (State.fld_setFld_ne hws (.inr (.inl (by decide))) _ (by decide)).trans ((State.fnState_fnMoved hv ctx 1 3).trans ?_)
    rw [if_pos ((State.fnState_fenceStopped hs).trans hfn)]
    rfl
  case regs => exact (hall.trans (.setFlag Fld.tenantCtlDrained ctx true (by decide))).regsBut hs
  case rest =>
    rw [State.setFlag_eq, State.setFld_items, State.setFld_pools, State.setFld_windows, State.setFld_mem, State.fnMoved_eq, State.fenceStopped_none h]
    exact ⟨rfl, rfl, rfl, rfl⟩

theorem tenantFence_p0 {s : State} {ctx : Nat} (hp : s.inP0 = true) (hctx : ctx < 64) : exec (.tenantFence .hostPf ctx) s = .next (s.fence ctx 1) := by
  show execTenantFence .hostPf ctx s = _
  rw [execTenantFence, onUnit_ok (by simp [Agent.wf, hctx]), onAccess_p0 hp, onHostPf_host]

theorem tenantUnfence_p0 {s : State} {ctx : Nat} (hp : s.inP0 = true) (hctx : ctx < 64) : exec (.tenantUnfence .hostPf ctx) s =
    .next (if s.flag Fld.tenantCtlDrained ctx then (s.setFlds ctx (fenceValues 0 0)).fnMoved ctx 3 1 else s) := by
  show execTenantUnfence .hostPf ctx s = _
  rw [execTenantUnfence, onUnit_ok (by simp [Agent.wf, hctx]), onAccess_p0 hp, onHostPf_host]
  rfl

/-- `TENANT_UNFENCE` of a drained context, by what it sets and what it leaves alone. -/
theorem State.unfence_sets {s u : State} {ctx : Nat} (hs : Tab.sorted s.regs = true) (hu : u = (s.setFlds ctx (fenceValues 0 0)).fnMoved ctx 3 1) :
    u = { s with regs := u.regs } ∧ u.fenced ctx = false ∧ u.flag Fld.tenantCtlDrained ctx = false ∧ u.fld Fld.tenantCtlCause ctx = 0 ∧
      u.fnState ctx = (if s.fnState ctx = 3 then 1 else s.fnState ctx) ∧ s.regsBut u [.tenantCtl, .fnState] := by
  subst hu
  have hset := s.fenceValues_writes ctx 0 0
  have hmove := (s.setFlds ctx (fenceValues 0 0)).fnMoved_writes ctx 3 1
  have hms := (hset hs).1
  have hzero : ∀ f, (f, 0) ∈ fenceValues 0 0 → ((s.setFlds ctx (fenceValues 0 0)).fnMoved ctx 3 1).fld f ctx = 0 := by
    intro f hm
    obtain ⟨hreg, hlo⟩ := (fieldsOf_fenceValues 0 0).1 f (List.mem_map_of_mem hm)
    rw [hmove.fld hms ⟨by rw [hreg]; decide, hlo⟩, State.fld_fenceValues hs hm, Nat.zero_mod]
  have hfn : (s.setFlds ctx (fenceValues 0 0)).fnState ctx = s.fnState ctx := hset.fld hs (f := Fld.fnStateState) (by decide) ctx
  refine ⟨State.fnMoved_eq .., ?fenced, ?drained, hzero _ (by simp [fenceValues]), ?fn, ((hset.mono (by simp)).trans (hmove.mono (by simp))).regsBut hs⟩
  case fenced => rw [State.fenced, State.flag, hzero _ (by simp [fenceValues])]; rfl
  case drained => rw [State.flag, hzero _ (by simp [fenceValues])]; rfl
  case fn =>
    rw [State.fnState_fnMoved hms, hfn]
    rfl

/-- Settles O53: each command's next state where its condition holds; the fence of a context with no item and its end by the registers they write. -/
theorem carriesEndAndFencesDrain : Obligations.CarriesEndAndFencesDrain := by
  unfold Obligations.CarriesEndAndFencesDrain
  refine ⟨fun s u v t p c words ws ht hc hp => ⟨carryComplete_held ht hc hp, carryComplete_free ht hc hp⟩,
    fun s u t p c ht hc hp hu => ⟨carryTimeout_early ht hc hp, fun hdue hfree => carryTimeout_due ht hc hp hdue hfree hu⟩,
    fun s t p sp ht hr hsp => strandSubstitution_resting ht hr hsp,
    fun s ctx hp hctx hc => ⟨fun hf => ?fenced, fun hf hnone => ?fences, fun hd => ?waits, fun hd => ?unfences⟩⟩
  case fenced => rw [tenantFence_p0 hp hctx, State.fence, if_pos hf]
  case fences => exact ⟨_, tenantFence_p0 hp hctx, State.fence_none_sets hc hf hnone rfl⟩
  case waits => rw [tenantUnfence_p0 hp hctx, if_neg (Bool.eq_false_iff.1 hd)]
  case unfences => exact ⟨_, by rw [tenantUnfence_p0 hp hctx, if_pos hd], State.unfence_sets (State.canonical.regs hc) rfl⟩

end Sys2Proof.Machine
end

section
/-! SUPPORT. The locket (O28): a slot read after an update, a locket instruction that may issue, and the instructions `LKLOAD` to `LKFL`. -/

namespace Sys2Proof.Machine

/-! ## Slots (R200, R207) -/

theorem Tile.canonical.locket {tl : Tile} (h : tl.canonical = true) : Tab.sorted tl.locket = true := by
  simp only [Tile.canonical, Bool.and_eq_true] at h
  tauto

theorem Tile.slot_setSlot_self {tl : Tile} (h : Tab.sorted tl.locket = true) (k : Nat) (x : Slot) : (tl.setSlot k x).slot k = x := Tab.get_set_self h

theorem Tile.slot_setSlot_other {tl : Tile} (h : Tab.sorted tl.locket = true) {j k : Nat} (hj : j ≠ k) (x : Slot) : (tl.setSlot k x).slot j = tl.slot j :=
  Tab.get_set_other h hj

/-! ## Locket instructions (R208, R225) -/

/-- A locket instruction of a tile whose launch binds the pool of its reference, and which no `LKFL` in flight holds, does what its meaning says. -/
theorem locketInsn_at {s : State} {t p opc : Nat} {i : Insn} {it : Item} {c : CacheRef} {q : Nat × Pool} {ref : Tile → Insn → Option CacheRef}
    (hat : s.atInsn t p opc i = true) (hheld : (s.tile p).locketHeld i = false) (hitem : s.partItem (s.tile p) = some it)
    (href : ref (s.tile p) i = some c) (hpool : s.refPool it c = some q) (k : Nat → Tile → Insn → Item → Nat × Pool → State) :
    locketInsn t opc .pass s ref k = .next (k p (s.tile p) i it q) := by
  rw [locketInsn, onInsn_at hat]
  simp only [hitem, href, hpool, hheld, Bool.false_eq_true, if_false]
  rfl

/-- The effect of an instruction that leaves `x` in slot `k` of the locket, by what it reads marked, and writes nothing else. -/
structure Effect.SetsSlot (e : Effect) (tl : Tile) (k : Nat) (x : Slot) : Prop where
  tile : ∃ y, e.tile = tl.setSlot k y
  writes : e.writes = []
  vwrites : e.vwrites = []
  mark : e.mark (e.readsMarked tl) = fun v => v.setSlot k x
  clear : e.clear tl = true

/-- The tile after such an instruction holds the slot, and otherwise its old data. -/
theorem Effect.SetsSlot.issued_reads {e : Effect} {tl : Tile} {k : Nat} {x : Slot} (h : e.SetsSlot tl k x) (hc : tl.canonical = true) {y : Op} {tally : Nat}
    {u : Tile} (hu : u = (e.marked (e.readsMarked tl)).issued y tally) : u.spad = tl.spad ∧ u.vbuf = tl.vbuf ∧
      (∀ j, j ≠ k → u.slot j = tl.slot j) ∧ u.masks = tl.masks ∧ u.acc = tl.acc ∧ u.slot k = x := by
  obtain ⟨z, htile⟩ := h.tile
  have hsorted := Tile.canonical.locket hc
  have hsorted' : Tab.sorted (tl.setSlot k z).locket = true := Tab.sorted_set hsorted
  obtain ⟨locket, hlocket⟩ : ∃ locket, ((tl.setSlot k z).setSlot k x).locket = locket := ⟨_, rfl⟩
  have hmarked : u = ({ tl with locket := locket } : Tile).issued y tally := by
    rw [hu, Effect.marked, h.mark, h.writes, h.vwrites, htile, ← hlocket]
    rfl
  have hslot : ∀ j, u.slot j = ((tl.setSlot k z).setSlot k x).slot j := fun j => by
    rw [Tile.slot, Tile.slot, hlocket, hmarked]
    rfl
  have hrest : u.spad = tl.spad ∧ u.vbuf = tl.vbuf ∧ u.masks = tl.masks ∧ u.acc = tl.acc := by
    rw [hmarked]
    exact ⟨rfl, rfl, rfl, rfl⟩
  obtain ⟨hspad, hvbuf, hmasks, hacc⟩ := hrest
  refine ⟨hspad, hvbuf, fun j hj => ?_, hmasks, hacc, (hslot k).trans (Tile.slot_setSlot_self hsorted' k x)⟩
  rw [hslot, Tile.slot_setSlot_other hsorted' hj, Tile.slot_setSlot_other hsorted hj]

/-- An instruction that sets a slot answers a next state with the slot in its tile. -/
theorem slotRow {s : State} {t p k : Nat} {i : Insn} {c : Instr} {x : Slot} (hs : s.canonical = true)
    (heff : ∃ e, exec c s = .next (s.runEffect t p (s.tile p) i .pass e) ∧ e.SetsSlot (s.tile p) k x) :
    ∃ u, exec c s = .next u ∧ s.oneTile u p ∧ (u.tile p).spad = (s.tile p).spad ∧ (u.tile p).vbuf = (s.tile p).vbuf ∧
      (∀ j, j ≠ k → (u.tile p).slot j = (s.tile p).slot j) ∧ (u.tile p).masks = (s.tile p).masks ∧ (u.tile p).acc = (s.tile p).acc ∧
      (u.tile p).slot k = x := by
  obtain ⟨e, hexec, h⟩ := heff
  obtain ⟨hone, hself⟩ := State.runEffect_reads hs h.clear t p i
  exact ⟨_, hexec, hone, h.issued_reads (State.canonical.tile hs p) hself⟩

/-! ## The instructions -/

/-- The image after the first `n` tokens of an `LKPUT` at the columns from `FILL` on (R209). -/
def Tile.putImage (tl : Tile) (i : Insn) (p : Pool) (x : Slot) (n : Nat) : Mem :=
  (List.range n).foldl (fun m k => (putToken p m (x.fill + k) k (fun e => tl.word (tl.vaddr i.opd1) e) (fun e => tl.word (tl.vaddr i.opd2) e)).1) x.image

/-- The image does not depend on the saturations that are counted with it. -/
theorem putTokens_fst (p : Pool) (r : Nat) (keys vals : Nat → Word32) (l : List Nat) (img : Mem) (n : Nat) :
    (l.foldl (fun (acc : Mem × Nat) u => ((putToken p acc.1 (r + u) u keys vals).1, acc.2 + (putToken p acc.1 (r + u) u keys vals).2)) (img, n)).1 =
      l.foldl (fun m u => (putToken p m (r + u) u keys vals).1) img :=
  (List.foldl_hom Prod.fst fun _ _ => rfl).symm

section
variable {s : State} {t p : Nat} {i : Insn} {it : Item} {c : CacheRef} {q : Nat × Pool} {x : Slot} {o : Opnd}

/-- `LKLOAD` binds its slot to the tail image, marked by what it reads of the scratchpad (R208, R209). -/
theorem lkload_setsSlot (hat : s.atInsn t p 0x90 i = true) (hheld : (s.tile p).locketHeld i = false) (hitem : s.partItem (s.tile p) = some it)
    (hpool : s.refPool it (CacheRef.ofWord i.opd2) = some q) {len n : Nat} (hlen : len = it.word (CacheRef.ofWord i.opd2).lenw)
    (hn : n = imageBytes q.2) (ho : o = (s.tile p).opnd i.opd0) (hclear : (s.tile p).clearOf (o.segs 0 n) [] = true) :
    ∃ e, exec (.lkload t .pass) s = .next (s.runEffect t p (s.tile p) i .pass e) ∧ e.SetsSlot (s.tile p) (i.arg 0 1)
      { bound := some (CacheRef.ofWord i.opd2)
        image := ((List.range (32 - len % 32)).flatMap (fun r => tokenSpans (q.2.heads * q.2.dim) (len % 32 + r))).foldl
          (fun m g => Mem.zero m g.1 g.2) (Mem.writeRange [] 0 ((s.tile p).sread o 0 n))
        marks := markSpan [] 0 n ((s.tile p).markedSegs (o.segs 0 n)), lbase := len - len % 32, fill := len % 32, from_ := len % 32
        pendingFlush := false, dead := false } := by
  subst hlen hn ho
  refine ⟨?eff, ?exec, ?sets⟩
  case exec =>
    show execLkload t .pass s = _
    rw [execLkload, onStore_pass, locketInsn_at (ref := fun _ i => some (CacheRef.ofWord i.opd2)) hat hheld hitem rfl hpool]
  case sets =>
    refine ⟨⟨_, rfl⟩, rfl, rfl, ?_, hclear⟩
    simp [Effect.readsMarked, Tile.vmarked]

/-- `LKPUT` of tokens that fit appends them to the image of its slot, by what its keys and values are marked (R209, R210). -/
theorem lkput_setsSlot {cnt : Nat} (hat : s.atInsn t p 0x91 i = true) (hheld : (s.tile p).locketHeld i = false)
    (hitem : s.partItem (s.tile p) = some it) (hx : x = (s.tile p).slot (i.arg 0 1)) (hbound : x.bound = some c) (hpool : s.refPool it c = some q)
    (hcnt : cnt = i.arg 1 5 + 1) (hdead : x.dead = false) (hfits : cnt ≤ 32 - x.fill) :
    ∃ e, exec (.lkput t .pass) s = .next (s.runEffect t p (s.tile p) i .pass e) ∧ e.SetsSlot (s.tile p) (i.arg 0 1)
      { x with
        fill := x.fill + cnt
        pendingFlush := true
        marks := ((List.range cnt).flatMap (fun k => tokenSpans (q.2.heads * q.2.dim) (x.fill + k))).foldl (fun m g => markSpan m g.1 g.2
          ((s.tile p).vmarked [((s.tile p).vaddr i.opd1, 4 * cnt * (q.2.heads * q.2.dim)), ((s.tile p).vaddr i.opd2, 4 * cnt * (q.2.heads * q.2.dim))])) x.marks
        image := (s.tile p).putImage i q.2 x cnt } := by
  subst hx hcnt
  refine ⟨?eff, ?exec, ?sets⟩
  case exec =>
    show execLkput t .pass s = _
    rw [execLkput, onStore_pass, locketInsn_at hat hheld hitem hbound hpool]
    simp only [hdead, Bool.false_eq_true, if_false, Nat.min_eq_left hfits, Nat.lt_irrefl]
    rfl
  case sets =>
    refine ⟨⟨_, rfl⟩, rfl, rfl, ?_, Tile.clearOf_nil _⟩
    simp only [Effect.readsMarked, Tile.markedSegs, List.any_nil, Bool.or_false, Bool.false_or, putTokens_fst, hdead]
    rfl

/-- `LKRD` stores the image of its slot, by what the image is marked (R209). -/
theorem lkrd_stores {n : Nat} (hat : s.atInsn t p 0x92 i = true) (hheld : (s.tile p).locketHeld i = false) (hitem : s.partItem (s.tile p) = some it)
    (hbound : ((s.tile p).slot (i.arg 0 1)).bound = some c) (hpool : s.refPool it c = some q) (hn : n = imageBytes q.2)
    (ho : o = (s.tile p).opnd i.opd0) (hclear : (s.tile p).clearOf [] (o.segs 0 n) = true) :
    ∃ e, exec (.lkrd t .pass) s = .next (s.runEffect t p (s.tile p) i .pass e) ∧
      e.Stores (s.tile p) ((s.tile p).sput o 0 (Mem.readRange ((s.tile p).slot (i.arg 0 1)).image 0 n)) (o.segs 0 n)
        (((s.tile p).slot (i.arg 0 1)).marked n) := by
  subst hn ho
  refine ⟨?eff, ?exec, ?stores⟩
  case exec =>
    show execLkrd t .pass s = _
    rw [execLkrd, onStore_pass, locketInsn_at hat hheld hitem hbound hpool]
  case stores =>
    exact {
      tile := rfl
      only := Tile.sput_spadOnly ..
      writes := rfl
      mark := rfl
      clear := hclear
      reads := by simp [Effect.readsMarked, Tile.markedSegs, Tile.vmarked] }

end

/-- Settles O28: `LKLOAD` and `LKPUT` set their slot (`slotRow`), `LKRD` is a store of the image, and `LKFL` flushes what is pending before it issues. -/
theorem locketInstructionsActOnTheSlot : Obligations.LocketInstructionsActOnTheSlot := by
  unfold Obligations.LocketInstructionsActOnTheSlot
  refine ⟨?lkload, ?lkput, ?lkrd, ?lkfl⟩
  case lkload =>
    intro s t p i it q len n o hs hat hheld hitem hpool hlen hn ho hclear
    exact slotRow hs (lkload_setsSlot hat hheld hitem hpool hlen hn ho hclear)
  case lkput =>
    intro s t p cnt i it c q x hs hat hheld hitem hx hbound hpool hcnt hdead hfits
    exact slotRow hs (lkput_setsSlot hat hheld hitem hx hbound hpool hcnt hdead hfits)
  case lkrd =>
    intro s t p n i it c q o hs hat hheld hitem hbound hpool hn ho hclear
    obtain ⟨e, hexec, h⟩ := lkrd_stores hat hheld hitem hbound hpool hn ho hclear
    obtain ⟨hone, hself⟩ := State.runEffect_reads hs h.clear t p i
    obtain ⟨hvbuf, hkeeps, hspad, hmarks⟩ := h.issued_reads hself
    exact ⟨_, hexec, hone, hvbuf, hkeeps, hmarks, hspad⟩
  case lkfl =>
    rintro s t p i it c q x v hat hheld hitem rfl hbound hpool rfl
    show execLkfl t .pass s = _
    rw [execLkfl, onStore_pass, locketInsn_at hat hheld hitem hbound hpool, State.accepting_next]

end Sys2Proof.Machine
end

section
/-! SUPPORT. Rotary codes, attention masks and the softmax of a chunk (O29): tables set key after key, what a path instruction leaves in its tile, and the
instructions `ROPET` to `APSMX`. -/

namespace Sys2Proof.Machine

/-! ## What a path instruction leaves -/

/-- The keys below `n` set one after the other read what was set, and the others as before. -/
theorem Tab.foldl_set_range {α : Type} [DecidableEq α] {d : α} (f : Nat → α) {t : Tab α} (h : Tab.sorted t = true) (j : Nat) : ∀ n,
    Tab.sorted ((List.range n).foldl (fun m k => Tab.set d m k (f k)) t) = true ∧
    Tab.get d ((List.range n).foldl (fun m k => Tab.set d m k (f k)) t) j = if j < n then f j else Tab.get d t j
  | 0 => ⟨h, rfl⟩
  | n + 1 => by
    obtain ⟨hs, hg⟩ := Tab.foldl_set_range f h j n
    rw [List.range_succ, List.foldl_append, List.foldl_cons, List.foldl_nil]
    refine ⟨Tab.sorted_set hs, ?_⟩
    rcases Nat.lt_trichotomy j n with hj | rfl | hj
    · rw [Tab.get_set_other hs (Nat.ne_of_lt hj), hg, if_pos hj, if_pos (Nat.lt_succ_of_lt hj)]
    · rw [Tab.get_set_self hs, if_pos (Nat.lt_succ_self j)]
    · rw [Tab.get_set_other hs (Nat.ne_of_gt hj), hg, if_neg (by omega), if_neg (by omega)]

/-- The effect of an instruction that R98 does not hold leaves the tile `v`, marks included. -/
structure Effect.Leaves (e : Effect) (tl v : Tile) : Prop where
  clear : e.clear tl = true
  marked : e.marked (e.readsMarked tl) = v

section
variable {s : State} {t p opc : Nat} {i : Insn} {c : Instr}

/-- A path instruction answers a next state in which the tile holds what its effect leaves, with its operation issued. -/
theorem leavesRow {v : Tile} (hs : s.canonical = true) (hat : s.atInsn t p opc i = true)
    (heff : ∃ f, exec c s = pathInsn t opc .pass s f ∧ (f (s.tile p) i).Leaves (s.tile p) v) :
    ∃ u, exec c s = .next u ∧ s.oneTile u p ∧ ∃ x, u.tile p = v.issued x s.tally := by
  obtain ⟨f, hexec, h⟩ := heff
  obtain ⟨u, hnext, hone, x, hself⟩ := pathInsn_issues hs hat hexec h.clear
  exact ⟨u, hnext, hone, x, by rw [hself, h.marked]⟩

/-- An instruction that leaves the bytes `b` and the marks `m` in the vector buffers, and nothing else. -/
theorem vbufRow {b : Mem} {m : Tab Bool} (hs : s.canonical = true) (hat : s.atInsn t p opc i = true)
    (heff : ∃ f, exec c s = pathInsn t opc .pass s f ∧ (f (s.tile p) i).Leaves (s.tile p) { s.tile p with vbuf := b, vbufMarks := m }) :
    ∃ u, exec c s = .next u ∧ s.oneTile u p ∧ (u.tile p).spad = (s.tile p).spad ∧ (s.tile p).keeps (u.tile p) ∧ (u.tile p).vbufMarks = m ∧
      (u.tile p).vbuf = b := by
  obtain ⟨u, hnext, hone, x, hself⟩ := leavesRow hs hat heff
  refine ⟨u, hnext, hone, ?_⟩
  rw [hself]
  exact ⟨rfl, ⟨rfl, rfl, rfl, rfl, rfl, rfl, rfl⟩, rfl, rfl⟩

end

/-! ## The angle table (R220) -/

/-- The angle table after `ROPET` of `n` entries (log 216). -/
def Tile.loadAngles (tl : Tile) (o : Opnd) (n : Nat) : Tab (BitVec 48) :=
  (List.range n).foldl (fun m k => Tab.set 0 m k (BitVec.ofNat 48 (leNat (tl.sread o (8 * k) 6)))) tl.angle

theorem Tile.canonical.angle {tl : Tile} (h : tl.canonical = true) : Tab.sorted tl.angle = true := by
  simp only [Tile.canonical, Bool.and_eq_true] at h
  tauto

section
variable {s : State} {t : Nat} {tl : Tile} {i : Insn}

/-- `ROPET` loads its entries, and the table takes their mark when that is set or all 128 entries are loaded. -/
theorem ropet_leaves {o : Opnd} {n : Nat} (ho : o = tl.opnd i.opd1) (hn : n = i.arg 0 9) (hclear : tl.clearOf (o.segs 0 (8 * n)) [] = true) :
    ∃ f, exec (.ropet t .pass) s = pathInsn t 0x94 .pass s f ∧ (f tl i).Leaves tl { tl with
      angle := tl.loadAngles o n
      angleMark := if tl.markedSegs (o.segs 0 (8 * n)) || n == 128 then tl.markedSegs (o.segs 0 (8 * n)) else tl.angleMark } := by
  subst ho hn
  refine ⟨?eff, ?exec, ?leaves⟩
  case exec =>
    show execRopet t .pass s = _
    rw [execRopet, onStore_pass]
  case leaves =>
    refine ⟨hclear, ?_⟩
    simp only [Effect.marked, Effect.readsMarked, Tile.vmarked, List.any_nil, Bool.or_false, Bool.false_or]
    split <;> rfl

/-! ## Rotation (R221) -/

/-- The position of row `m` of `ROPE`: its own, or that of the first row raised by `m` (log 44). -/
def Tile.ropePos (tl : Tile) (i : Insn) (m : Nat) : Nat :=
  if i.argBit 19 then (Mem.readNat tl.vbuf (tl.vaddr i.opd2) 4 + m) % 2 ^ 32 else Mem.readNat tl.vbuf (tl.vaddr i.opd2 + 4 * m) 4

/-- `ROPE` leaves the rotated rows at its destination, by what its rows, positions and angle table are marked. -/
theorem rope_leaves : ∃ f, exec (.rope t .pass) s = pathInsn t 0x95 .pass s f ∧ (f tl i).Leaves tl { tl with
    vbuf := (tl.vput (tl.vaddr i.opd0) (((List.range (i.arg 0 8 + 1)).flatMap (fun m =>
      ropeRow i.ropeDim (i.arg 10 8) (i.argBit 18) ((List.range (i.arg 10 8)).map (fun k => rotation (tl.ropePos i m) (Tab.get 0 tl.angle k)))
        (tl.vread (tl.vaddr i.opd1 + 4 * i.ropeDim * m) i.ropeDim))).map (fun r => some r.1))).vbuf
    vbufMarks := markSpan tl.vbufMarks (tl.vaddr i.opd0) (4 * i.ropeDim * (i.arg 0 8 + 1)) (tl.angleMark ||
      tl.vmarked [(tl.vaddr i.opd1, 4 * i.ropeDim * (i.arg 0 8 + 1)), (tl.vaddr i.opd2, if i.argBit 19 then 4 else 4 * (i.arg 0 8 + 1))]) } := by
  refine ⟨?eff, ?exec, ?leaves⟩
  case exec =>
    show execRope t .pass s = _
    rw [execRope, onStore_pass]
  case leaves =>
    refine ⟨tl.clearOf_nil, ?_⟩
    simp only [Effect.marked, Effect.readsMarked, Tile.markedSegs, List.any_nil, Bool.or_false]
    rw [Tile.vput_eq]
    rfl

/-! ## The causal mask (R222) -/

/-- `AMASK` writes the bits that compare its positions with λ, by what p₀ and λ are marked. -/
theorem amask_bits (hpos : 0 < s.vcount tl i) : ∃ f, exec (.amask t .pass) s = pathInsn t 0x96 .pass s f ∧
    (f tl i).MaskBits tl i (s.vcount tl i)
      (fun k => some (decide (Mem.readNat tl.vbuf (tl.vaddr i.opd1) 4 + k < Mem.readNat tl.vbuf (tl.vaddr i.opd2) 4)))
      (tl.vmarked [(tl.vaddr i.opd1, 4), (tl.vaddr i.opd2, 4)]) := by
  refine ⟨?eff, ?exec, ?bits⟩
  case exec =>
    show execAmask t .pass s = _
    rw [execAmask, onStore_pass]
  case bits =>
    simp only [if_neg hpos.ne']
    exact {
      tile := rfl
      writes := rfl
      vwrites := rfl
      mark := congrArg (maskMark i.mdst) (by simp)
      clear := tl.clearOf_nil
      reads := by simp [Effect.readsMarked, Tile.markedSegs] }

/-- An instruction that writes a mask register leaves the other stores of its tile alone. -/
theorem Effect.MaskBits.keeps {e : Effect} {n : Nat} {b : Nat → Option Bool} {m : Bool} (h : e.MaskBits tl i n b m) {x : Op} {tally : Nat} {u : Tile}
    (hu : u = (e.marked (e.readsMarked tl)).issued x tally) : tl.keeps { u with masks := tl.masks } := by
  subst hu
  unfold Effect.marked
  rw [h.mark, h.writes, h.vwrites, h.tile, maskMark_eq]
  exact ⟨rfl, rfl, rfl, rfl, rfl, rfl, rfl⟩

/-! ## Softmax of a chunk (R223) -/

theorem Tile.word_zero (t : Tile) (a : Nat) : t.word a 0 = BitVec.ofNat 32 (Mem.readNat t.vbuf a 4) := rfl

/-- `APSMX` leaves the softmax of its chunk, and then its flags and its sum (log 174). -/
theorem apsmx_leaves {r : SmxOut} {m : Bool}
    (hr : r = softmaxRow (tl.word (tl.vaddr i.opd2) 0) (tl.actives i (s.vcount tl i)) (tl.vread (tl.vaddr i.opd1) (s.vcount tl i)))
    (hm : m = tl.readsMark i (s.vcount tl i) (s.reads1 tl i ++ [(tl.vaddr i.opd2, 4)]) []) :
    ∃ f, exec (.apsmx t .pass) s = pathInsn t 0x97 .pass s f ∧ (f tl i).Leaves tl { tl with
      vbuf := Mem.writeRange (Mem.writeRange (tl.vput (tl.vaddr i.opd0) r.out).vbuf (tl.vaddr i.opd2 + 4) (leBytes 4 r.flags))
        (tl.vaddr i.opd2 + 8) (leBytes 8 r.sum.toNat)
      vbufMarks := markSpan (markSpan tl.vbufMarks (tl.vaddr i.opd0) (4 * s.vcount tl i) m) (tl.vaddr i.opd2 + 4) 12 m } := by
  refine ⟨?eff, ?exec, ?leaves⟩
  case exec =>
    show execApsmx t .pass s = _
    rw [execApsmx, onStore_pass]
  case leaves =>
    refine ⟨tl.clearOf_nil, ?_⟩
    have hreads : (tl.softmaxEffect i (s.vcount tl i) true).readsMarked tl = m := by
      rw [hm]
      simp [Tile.softmaxEffect, Effect.readsMarked, Tile.readsMark, Tile.markedSegs, State.reads1]
    show (tl.softmaxEffect i (s.vcount tl i) true).marked ((tl.softmaxEffect i (s.vcount tl i) true).readsMarked tl) = _
    rw [hreads]
    rw [Tile.word_zero] at hr
    simp only [Effect.marked, Tile.softmaxEffect, ← hr, Tile.vbytes, if_true]
    rw [Tile.vput_eq]
    rfl

end

end Sys2Proof.Machine
end

section
/-! SUPPORT. The merging of split rows (O29): the record of an `AMERGE`, the bytes it leaves, and the statement about rotary codes and attention masks. -/

namespace Sys2Proof.Machine

/-! ## Merging of split rows (R223) -/

/-- The sums and flag words of the first `n` chunks of an `AMERGE`. -/
def Tile.chunkRecs (tl : Tile) (a n : Nat) : List (W34 × Nat) :=
  (List.range n).map (fun c => (tl.vw34 (a + 16 * c + 8), Mem.readNat tl.vbuf (a + 16 * c + 4) 4))

/-- Those of the active chunks. -/
def chunksOn (act : List Bool) (recs : List (W34 × Nat)) : List (W34 × Nat) :=
  (List.zip act recs).filterMap (fun x => if x.1 then some x.2 else none)

/-- The sum of the active chunks, added in ascending index. -/
def chunkSum (on : List (W34 × Nat)) : W34 := (on.map Prod.fst).foldl w34Add 0

/-- The flag word of a merged row (log 47). -/
def mergeFlags (on : List (W34 × Nat)) (sum : W34) : Nat :=
  (if on.all (fun r => bitOf r.2 0) then 1 else 0) + (if !on.isEmpty && (ofW34 sum).isZero then 2 else 0) +
    (if on.any (fun r => bitOf r.2 2) then 4 else 0) + (if (ofW34 sum).isFin then 0 else 8)

/-- The factor of a chunk, its sum divided by that of the row, and whether it saturated. -/
def chunkFactor (sum : W34) (r : W34 × Nat) : Word32 × Bool :=
  if (ofW34 sum).isZero then (0, false) else let d := divRound .fp32 (ofW34 r.1) (ofW34 sum); (BitVec.ofNat 32 d.1, d.2)

/-- The factor of chunk `c`. -/
def Tile.chunkQuot (tl : Tile) (a : Nat) (sum : W34) (c : Nat) : Word32 :=
  if (ofW34 sum).isZero then 0 else BitVec.ofNat 32 (divRound .fp32 (ofW34 (tl.vw34 (a + 16 * c + 8))) (ofW34 sum)).1

theorem mergeFlags_lt (on : List (W34 × Nat)) (sum : W34) : mergeFlags on sum < 256 ^ 4 := by
  unfold mergeFlags
  split <;> split <;> split <;> split <;> decide

/-- The saturations that are counted with the sum do not change it. -/
theorem chunkSum_eq (on : List (W34 × Nat)) : (on.foldl (fun acc r => w34AddSat acc.1 r.1) ((0 : W34), false)).1 = chunkSum on := by
  rw [chunkSum, List.foldl_map]
  exact (List.foldl_hom Prod.fst fun _ _ => rfl).symm

/-- The vector buffers after `AMERGE` of `n` chunks: the factors, and then the record. -/
def Tile.merged (tl : Tile) (i : Insn) (n : Nat) (on : List (W34 × Nat)) (sum : W34) : Mem :=
  Mem.writeNat (Mem.writeNat (tl.vput (tl.vaddr i.opd0) (laneElems n (tl.lane i) i.mzero (tl.chunkQuot (tl.vaddr i.opd1) sum))).vbuf
    (tl.vaddr i.opd2 + 4) 4 (mergeFlags on sum)) (tl.vaddr i.opd2 + 8) 8 sum.toNat

/-- The spans that `AMERGE` writes: the elements written, and the record. -/
def Tile.mergeSpans (tl : Tile) (i : Insn) (n : Nat) (sum : W34) : List (Nat × Nat) :=
  runs 4 (tl.vaddr i.opd0) ((laneElems n (tl.lane i) i.mzero (tl.chunkQuot (tl.vaddr i.opd1) sum)).map Option.isSome) ++ [(tl.vaddr i.opd2 + 4, 12)]

section
variable {s : State} {t : Nat} {tl : Tile} {i : Insn}

/-- A lane instruction that also writes two numbers of a record behind its elements. -/
theorem Effect.Lanes.leavesRecord {e : Effect} {n : Nat} {on : Nat → Bool} {r : Nat → Word32} {m m' : Bool} (h : e.Lanes tl i n on r m)
    (hm : e.readsMarked tl = m') (a1 n1 v1 a2 n2 v2 : Nat) (g : Nat × Nat) (sats occ : Nat) :
    ({ e with tile := (e.tile.vbytes a1 (leBytes n1 v1)).vbytes a2 (leBytes n2 v2), vwrites := e.vwrites ++ [g], sats := sats, occ := occ } : Effect).Leaves
      tl { tl with
        vbuf := Mem.writeNat (Mem.writeNat (tl.vput (tl.vaddr i.opd0) (laneElems n on i.mzero r)).vbuf a1 n1 v1) a2 n2 v2
        vbufMarks := (runs 4 (tl.vaddr i.opd0) ((laneElems n on i.mzero r).map Option.isSome) ++ [g]).foldl (fun k g => markSpan k g.1 g.2 m') tl.vbufMarks } where
  clear := h.clear
  marked := by
    have hreads : ∀ (v : Tile) (gs : List (Nat × Nat)), ({ e with tile := v, vwrites := gs, sats := sats, occ := occ } : Effect).readsMarked tl = m' :=
      fun _ _ => hm
    rw [hreads]
    unfold Effect.marked
    dsimp only
    rw [h.mark, h.writes, h.vwrites, h.tile, Tile.vput_eq]
    rfl

/-- The factors of `AMERGE` are the elements of a lane instruction. -/
theorem amerge_lanes (n : Nat) (sum : W34) (v : List (Nat × Nat)) :
    (tl.laneEffect i (tl.actives i n) ((tl.chunkRecs (tl.vaddr i.opd1) n).map (chunkFactor sum)) v [] 16).Lanes tl i n (tl.lane i)
      (tl.chunkQuot (tl.vaddr i.opd1) sum) (tl.readsMark i n v []) := by
  rw [Tile.actives_eq, Tile.chunkRecs, List.map_map]
  refine Tile.laneEffect_map (fun c _ _ => ?_) _ _ _
  simp only [Function.comp, chunkFactor, Tile.chunkQuot]
  split <;> rfl

/-- `AMERGE` leaves the factors of its chunks and the merged record, by what its predicate register and its records are marked. -/
theorem amerge_leaves {n : Nat} {on : List (W34 × Nat)} {sum : W34} {m : Bool} (hn : n = s.vcount tl i)
    (hon : on = chunksOn (tl.actives i n) (tl.chunkRecs (tl.vaddr i.opd1) n)) (hsum : sum = chunkSum on)
    (hm : m = tl.readsMark i n [(tl.vaddr i.opd1, 16 * n)] []) :
    ∃ f, exec (.amerge t .pass) s = pathInsn t 0x98 .pass s f ∧ (f tl i).Leaves tl { tl with
      vbuf := tl.merged i n on sum, vbufMarks := (tl.mergeSpans i n sum).foldl (fun k g => markSpan k g.1 g.2 m) tl.vbufMarks } := by
  refine ⟨?eff, ?exec, ?leaves⟩
  case exec =>
    show execAmerge t .pass s = _
    rw [execAmerge, onStore_pass]
  case leaves =>
    have hreads : ∀ rs, (tl.laneEffect i (tl.actives i n) rs [(tl.vaddr i.opd1, 16 * n)] [] 16).readsMarked tl = m := fun rs => by
      rw [hm]
      simp [Tile.laneEffect, Effect.readsMarked, Tile.readsMark, Tile.markedSegs, Tile.actives_eq]
    rw [← chunkSum_eq] at hsum
    subst hn hsum hon
    exact (amerge_lanes _ _ _).leavesRecord (hreads _) _ _ _ _ _ _ _ _ _

end

/-! ## What the merged row reads -/

/-- A unit that a marked write touches is marked (R392). -/
theorem markSpans_covered {marks : Tab Bool} (h : Tab.sorted marks = true) {gs : List (Nat × Nat)} {x : Nat} (hx : covered gs x) :
    Tab.get false (gs.foldl (fun k g => markSpan k g.1 g.2 true) marks) (x / 32) = true := by
  obtain ⟨g, hg, hin⟩ := hx
  rw [get_markSpans gs h, if_pos (List.any_eq_true.2 ⟨g, hg, setsMark_iff.2 ⟨⟨x, rfl, hin⟩, .inl rfl⟩⟩)]

/-- Vector elements keep the vector buffers in canonical form. -/
theorem Tile.vput_wf : ∀ {l : List (Option Word32)} {t : Tile} {a : Nat}, Memory.wf t.vbuf = true → Memory.wf (t.vput a l).vbuf = true
  | [], _, _, h => h
  | none :: l, _, _, h => Tile.vput_wf (l := l) h
  | some w :: l, _, a, h => Tile.vput_wf (l := l) (Tile.putWord_wf h a w)

/-- A number written leaves the bytes outside it alone. -/
theorem Mem.read_writeNat_other {m : Mem} (h : Memory.wf m = true) {a n v x : Nat} (hx : x < a ∨ a + n ≤ x) :
    Mem.read (Mem.writeNat m a n v) x = Mem.read m x :=
  Mem.read_writeRange_other h (by rwa [leBytes_length])

section
variable {tl : Tile} {i : Insn} {n : Nat} {on : List (W34 × Nat)} {sum : W34}

/-- Outside the record, the vector buffers are those with the factors written. -/
theorem Tile.merged_read (h : Memory.wf tl.vbuf = true) {x : Nat} (hx : x < tl.vaddr i.opd2 + 4 ∨ tl.vaddr i.opd2 + 16 ≤ x) :
    Mem.read (tl.merged i n on sum) x =
      Mem.read (tl.vput (tl.vaddr i.opd0) (laneElems n (tl.lane i) i.mzero (tl.chunkQuot (tl.vaddr i.opd1) sum))).vbuf x :=
  (Mem.read_writeNat_other (Memory.wf_writeNat (Tile.vput_wf h)) (by omega)).trans (Mem.read_writeNat_other (Tile.vput_wf h) (by omega))

/-- Outside the record and the factors, the vector buffers are as before. -/
theorem Tile.merged_read_other (h : Memory.wf tl.vbuf = true) {x : Nat} (hd : x < tl.vaddr i.opd0 ∨ tl.vaddr i.opd0 + 4 * n ≤ x)
    (hx : x < tl.vaddr i.opd2 + 4 ∨ tl.vaddr i.opd2 + 16 ≤ x) : Mem.read (tl.merged i n on sum) x = Mem.read tl.vbuf x :=
  (Tile.merged_read h hx).trans (Tile.vput_read_other h (by simpa using hd))

/-- Where the record lies apart from the factors, each is that of its chunk. -/
theorem Tile.merged_word (h : Memory.wf tl.vbuf = true) (hapart : tl.vaddr i.opd0 + 4 * n ≤ tl.vaddr i.opd2 + 4 ∨ tl.vaddr i.opd2 + 16 ≤ tl.vaddr i.opd0)
    {c : Nat} (hc : c < n) {u : Tile} (hu : u.vbuf = tl.merged i n on sum) : u.word (tl.vaddr i.opd0) c =
      if tl.lane i c then tl.chunkQuot (tl.vaddr i.opd1) sum c else if i.mzero then 0 else tl.word (tl.vaddr i.opd0) c := by
  have hword : u.word (tl.vaddr i.opd0) c =
      (tl.vput (tl.vaddr i.opd0) (laneElems n (tl.lane i) i.mzero (tl.chunkQuot (tl.vaddr i.opd1) sum))).word (tl.vaddr i.opd0) c :=
    Tile.word_congr fun x _ _ => by rw [hu, Tile.merged_read h (by omega)]
  exact hword.trans ((Tile.vput_word (by simpa using hc) h).trans (laneElems_getD hc _))

theorem Tile.merged_sum (h : Memory.wf tl.vbuf = true) : Mem.readNat (tl.merged i n on sum) (tl.vaddr i.opd2 + 8) 8 = sum.toNat :=
  (Mem.readNat_writeNat (Memory.wf_writeNat (Tile.vput_wf h)) ..).trans (Nat.mod_eq_of_lt (sum.isLt.trans (by decide)))

theorem Tile.merged_flags (h : Memory.wf tl.vbuf = true) : Mem.readNat (tl.merged i n on sum) (tl.vaddr i.opd2 + 4) 4 = mergeFlags on sum := by
  have hbehind := Mem.readNat_congr (a := tl.vaddr i.opd2 + 4) (n := 4) fun x _ hx =>
    Mem.read_writeNat_other (Memory.wf_writeNat (a := tl.vaddr i.opd2 + 4) (n := 4) (v := mergeFlags on sum) (Tile.vput_wf h
      (a := tl.vaddr i.opd0) (l := laneElems n (tl.lane i) i.mzero (tl.chunkQuot (tl.vaddr i.opd1) sum))))
      (a := tl.vaddr i.opd2 + 8) (n := 8) (v := sum.toNat) (.inl (by omega))
  exact hbehind.trans ((Mem.readNat_writeNat (Tile.vput_wf h) ..).trans (Nat.mod_eq_of_lt (mergeFlags_lt on sum)))

/-- The record is among what `AMERGE` writes. -/
theorem Tile.mergeSpans_record {x : Nat} (h1 : tl.vaddr i.opd2 + 4 ≤ x) (h2 : x < tl.vaddr i.opd2 + 16) : covered (tl.mergeSpans i n sum) x :=
  ⟨(tl.vaddr i.opd2 + 4, 12), by simp [Tile.mergeSpans], h1, h2⟩

/-- A factor written is among what `AMERGE` writes. -/
theorem Tile.mergeSpans_factor {c : Nat} (hc : c < n) (hon : (tl.lane i c || i.mzero) = true) :
    covered (tl.mergeSpans i n sum) (tl.vaddr i.opd0 + 4 * c) := by
  have helem : (tl.vaddr i.opd0 + 4 * c - tl.vaddr i.opd0) / 4 = c := by omega
  obtain ⟨g, hg, hin⟩ := (covered_runs (w := 4) (x := tl.vaddr i.opd0 + 4 * c) (by decide) _ _).2
    ⟨Nat.le_add_right _ _, by rw [helem]; exact (laneElems_written (r := tl.chunkQuot (tl.vaddr i.opd1) sum)).2 ⟨hc, hon⟩⟩
  exact ⟨g, List.mem_append_left _ hg, hin⟩

end

/-! ## The statement -/

/-- `AMERGE` answers a next state in which its tile holds the factors and the record, and otherwise its old data. -/
theorem amergeRow {s : State} {t p n : Nat} {i : Insn} {on : List (W34 × Nat)} {sum : W34} (hs : s.canonical = true) (hat : s.atInsn t p 0x98 i = true)
    (hn : n = s.vcount (s.tile p) i) (hon : on = chunksOn ((s.tile p).actives i n) ((s.tile p).chunkRecs ((s.tile p).vaddr i.opd1) n)) (hsum : sum = chunkSum on)
    (hapart : (s.tile p).vaddr i.opd0 + 4 * n ≤ (s.tile p).vaddr i.opd2 + 4 ∨ (s.tile p).vaddr i.opd2 + 16 ≤ (s.tile p).vaddr i.opd0) :
    ∃ u, exec (.amerge t .pass) s = .next u ∧ s.oneTile u p ∧ (u.tile p).spad = (s.tile p).spad ∧ (s.tile p).keeps (u.tile p) ∧
      (∀ c, c < n → (u.tile p).word ((s.tile p).vaddr i.opd0) c = if (s.tile p).lane i c then (s.tile p).chunkQuot ((s.tile p).vaddr i.opd1) sum c
        else if i.mzero then 0 else (s.tile p).word ((s.tile p).vaddr i.opd0) c) ∧
      Mem.readNat (u.tile p).vbuf ((s.tile p).vaddr i.opd2 + 8) 8 = sum.toNat ∧
      Mem.readNat (u.tile p).vbuf ((s.tile p).vaddr i.opd2 + 4) 4 = mergeFlags on sum ∧
      (∀ x, (x < (s.tile p).vaddr i.opd0 ∨ (s.tile p).vaddr i.opd0 + 4 * n ≤ x) → (x < (s.tile p).vaddr i.opd2 + 4 ∨ (s.tile p).vaddr i.opd2 + 16 ≤ x) →
        Mem.read (u.tile p).vbuf x = Mem.read (s.tile p).vbuf x) ∧
      (∀ x, covered ((s.tile p).mergeSpans i n sum) x → (s.tile p).readsMark i n [((s.tile p).vaddr i.opd1, 16 * n)] [] = true →
        Tab.get false (u.tile p).vbufMarks (x / 32) = true) := by
  obtain ⟨hwf, hsorted⟩ := Tile.canonical.vbuf (State.canonical.tile hs p)
  obtain ⟨u, hnext, hone, hspad, hkeeps, hmarks, hvbuf⟩ := vbufRow hs hat (amerge_leaves hn hon hsum rfl)
  refine ⟨u, hnext, hone, hspad, hkeeps, fun c hc => Tile.merged_word hwf hapart hc hvbuf, ?sum, ?flags, fun x hd hx => ?others, fun x hx hm => ?marks⟩
  case sum => rw [hvbuf, Tile.merged_sum hwf]
  case flags => rw [hvbuf, Tile.merged_flags hwf]
  case others => rw [hvbuf, Tile.merged_read_other hwf hd hx]
  case marks => rw [hmarks, hm, markSpans_covered hsorted hx]

/-- Settles O29: each instruction by what it leaves in its tile (`leavesRow`, `vbufRow`), and `AMASK` by the bits it writes; the table of `ROPET` is set key
after key (`Tab.foldl_set_range`), and the bytes of `AMERGE` are those of its factors and its record (`amergeRow`). -/
theorem rotaryCodesAndAttentionMasks : Obligations.RotaryCodesAndAttentionMasks := by
  unfold Obligations.RotaryCodesAndAttentionMasks
  refine ⟨?ropet, ?rope, ?amask, ?apsmx, ?amerge⟩
  case ropet =>
    intro s t p i hs hat hclear
    obtain ⟨u, hnext, hone, x, hself⟩ := leavesRow hs hat (ropet_leaves rfl rfl hclear)
    refine ⟨u, hnext, hone, ?_⟩
    rw [hself]
    exact ⟨rfl, rfl, ⟨rfl, rfl, rfl, rfl, rfl, rfl, rfl⟩, rfl,
      fun k => (Tab.foldl_set_range _ (Tile.canonical.angle (State.canonical.tile hs p)) k _).2⟩
  case rope =>
    intro s t p i pos hs hat hpos
    obtain rfl : pos = (s.tile p).ropePos i := funext hpos
    exact vbufRow hs hat rope_leaves
  case amask =>
    intro s t p i hs hat hpos hn
    obtain ⟨f, hexec, hbits⟩ := amask_bits hpos
    obtain ⟨u, hnext, hone, x, hself⟩ := pathInsn_issues hs hat hexec hbits.clear
    have hw := hbits.written (State.canonical.tile hs p) hn hself
    refine ⟨u, hnext, hone, hw.spad, hw.vbuf, hw.below, hw.above, hw.others, hbits.keeps hself, hw.marked.trans ?_⟩
    simp
  case apsmx =>
    intro s t p i r hs hat hr
    exact vbufRow hs hat (apsmx_leaves hr rfl)
  case amerge =>
    rintro s t p n a d c0 i act recs on sum hs hat hn rfl rfl rfl rfl rfl hon hsum hapart
    obtain ⟨u, hnext, hone, hspad, hkeeps, hfactors, hrecSum, hrecFlags, hothers, hmarks⟩ := amergeRow hs hat hn hon hsum hapart
    exact ⟨u, hnext, hone, hspad, hkeeps, hfactors, hrecSum, hrecFlags, hothers, fun x h1 h2 => hmarks x (Tile.mergeSpans_record h1 h2),
      fun c hc hlane => hmarks _ (Tile.mergeSpans_factor hc hlane)⟩

end Sys2Proof.Machine
end

section
/-! SUPPORT. Page commands (O36): what an entry answers that is refused or runs, the swaps, and the opening of a pool. -/

namespace Sys2Proof.Machine

/-! ## Refusals (R215) -/

section
variable {b : Bool} {code : Nat} {cs : List (Bool × Nat)} {refuse : Nat → State} {v : State}

/-- With nothing against it, a command runs. -/
theorem refusals_nil : ((firstRefusal []).map refuse).getD v = v := rfl

/-- The first refusal that applies decides. -/
theorem refusals_cons : ((firstRefusal ((b, code) :: cs)).map refuse).getD v = if b then refuse code else ((firstRefusal cs).map refuse).getD v := by
  cases b <;> rfl

end

theorem State.pageFree_iff {s : State} {p : Pool} {g : Nat} : s.pageFree p g = true ↔ s.refs p g = 0 ∧ s.queued p g = false := by
  simp [State.pageFree]

/-! ## The next entry of a page list (R214, R216) -/

/-- Command `c` is the next entry of a running page list, well formed and on a page of the open pool `p` (or, for `CLOSE`, on the pool); `u` is the state after
the read of the entry, and `v` that after what the command reads of the control area. -/
structure State.AtPage (s : State) (op item : Nat) (i : Item) (l : ListRun) (b : List Byte) (u : State) (c : PageCmd) (p : Pool) (v : State) : Prop where
  entry : s.atEntry tyPageCmd op Item.beforePages item i l b u
  command : c = PageCmd.ofEntry b
  fit : c.bad = false
  pool : u.pool i.fn c.pool = some p
  page : c.page < p.pages ∨ op = pgClose
  seen : v = u.pageSee i.id p c

section
variable {s u v : State} {op item : Nat} {i : Item} {l : ListRun} {b : List Byte} {c : PageCmd} {p : Pool}

/-- No swap runs while a page list is at an entry. -/
theorem State.atEntry.swapOf_none (h : s.atEntry tyPageCmd op Item.beforePages item i l b u) : s.swapOf item = none := by
  obtain ⟨hitem, hlist, -, -, -, hswap, -⟩ := h
  simp [State.swapOf, hitem, hlist, hswap]

/-- A well-formed entry on a page of an open pool is refused by the first reason that applies, and runs when none does. -/
theorem State.AtPage.answers (h : s.AtPage op item i l b u c p v)
    (needs : State → Item → ListRun → PageCmd → Pool → List (Bool × Nat)) (k : State → Item → ListRun → PageCmd → Pool → State) :
    onPage op item s needs k = .next (((firstRefusal (needs v i l c p)).map (v.pageRefused i l)).getD (k v i l c p)) := by
  obtain ⟨hentry, rfl, hbad, hpool, hpage, rfl⟩ := h
  have hin : (op != pgClose && decide (p.pages ≤ (PageCmd.ofEntry b).page)) = false := by
    rcases hpage with hpage | rfl
    · simp [Nat.not_le.2 hpage]
    · rfl
  rw [onPage, onEntry_at hentry]
  simp only [hbad, hpool, hin, Bool.false_eq_true, if_false]
  cases firstRefusal (needs (u.pageSee i.id p (PageCmd.ofEntry b)) i l (PageCmd.ofEntry b) p) <;> rfl

/-- An entry that is malformed, or that names no open pool or no page of it, with the code of its refusal (R215). -/
def State.pageUnfit (u : State) (op : Nat) (i : Item) (c : PageCmd) (code : Nat) : Prop :=
  (c.bad = true ∧ code = 0x04) ∨ (c.bad = false ∧ code = 0x02 ∧ op ≠ pgOpen ∧
    (u.pool i.fn c.pool = none ∨ ∃ p, u.pool i.fn c.pool = some p ∧ op ≠ pgClose ∧ p.pages ≤ c.page))

/-- Such an entry is refused before its own reasons are judged. -/
theorem onPage_unfit {code : Nat} {needs : State → Item → ListRun → PageCmd → Pool → List (Bool × Nat)}
    {k : State → Item → ListRun → PageCmd → Pool → State} (h : s.atEntry tyPageCmd op Item.beforePages item i l b u) (hc : c = PageCmd.ofEntry b)
    (hunfit : u.pageUnfit op i c code) : onPage op item s needs k = .next (u.pageRefused i l code) := by
  subst hc
  rw [onPage, onEntry_at h]
  rcases hunfit with ⟨hbad, rfl⟩ | ⟨hbad, rfl, -, hpool | ⟨p, hpool, hop, hpage⟩⟩
  · simp only [hbad, if_true]
  · simp only [hbad, hpool, Bool.false_eq_true, if_false]
  · simp only [hbad, hpool, hpage, bne_iff_ne.2 hop, decide_true, Bool.and_self, Bool.false_eq_true, if_false, if_true]

/-- `SWAP_IN` of a list that is at an entry is a command on its page. -/
theorem execSwapIn_entry (h : s.swapOf item = none) : execSwapIn item s = s.accepting (onPage pgSwapIn item s
    (fun s _ l c p => [(swapOutside l c p, 0x03), (!s.pageFree p c.page, 0x01)]) fun s i l c p =>
      if !s.hostPermits i.fn (l.hbuf + c.addr) p.footprint false then
        let v := p.spans.foldl (fun (v : State) g => v.storeFor i.fn (p.pageAddr c.page g.1) (List.replicate g.2 0))
          ((s.bump Fld.hostErrOutside i.fn 1).outsideItem i.id)
        (v.firstRef i.fn c.pool p c.page).listResult i l 0 []
      else s.swapInLine i l p ⟨true, c.pool, c.page, c.addr, [], some 0⟩ 0) := by
  simp only [execSwapIn, h]

end

/-! ## Commands on a page of an open pool (R215, R216) -/

section
variable {s u v : State} {item : Nat} {i : Item} {l : ListRun} {b : List Byte} {c : PageCmd} {p : Pool}

theorem map_atPage (h : s.AtPage pgMap item i l b u c p v) : exec (.map item) s = .next (s.accepted
    (if v.refs p c.page = 0 ∧ v.queued p c.page = false then (v.firstRef i.fn c.pool p c.page).listResult i l 0 [] else v.pageRefused i l 0x01)) := by
  show execMap item s = _
  rw [execMap, h.answers, State.accepting_next, refusals_cons, refusals_nil]
  simp only [← State.pageFree_iff]
  cases v.pageFree p c.page <;> rfl

theorem ref_atPage (h : s.AtPage pgRef item i l b u c p v) : exec (.ref item) s = .next (s.accepted
    (if 1 ≤ v.refs p c.page ∧ v.refs p c.page < 131071 then (v.setPage i.fn p c.page (v.refs p c.page + 1) (v.queued p c.page)).listResult i l 0 []
      else v.pageRefused i l 0x01)) := by
  show execRef item s = _
  rw [execRef, h.answers, State.accepting_next, refusals_cons, refusals_nil]
  by_cases hrefs : 1 ≤ v.refs p c.page ∧ v.refs p c.page < 131071
  · rw [if_pos hrefs, if_neg (by simp; omega)]
  · rw [if_neg hrefs, if_pos (by simp; omega)]

theorem unref_atPage (h : s.AtPage pgUnref item i l b u c p v) : exec (.unref item) s = .next (s.accepted
    (if 1 ≤ v.refs p c.page then (v.unref i.fn i.id c.pool p c.page).listResult i l 0 [] else v.pageRefused i l 0x01)) := by
  show execUnref item s = _
  rw [execUnref, h.answers, State.accepting_next, refusals_cons, refusals_nil]
  by_cases hrefs : 1 ≤ v.refs p c.page
  · rw [if_pos hrefs, if_neg (by simp; omega)]
  · rw [if_neg hrefs, if_pos (by simp; omega)]

/-- `SWAP_OUT` waits for the reader pins held now (R216, R219). -/
theorem swapOut_atPage (h : s.AtPage pgSwapOut item i l b u c p v) : exec (.swapOut item) s = .next (s.accepted
    (if l.hbytes < c.addr + p.footprint then v.pageRefused i l 0x03 else if v.refs p c.page < 1 then v.pageRefused i l 0x01
      else v.modList i.id (fun l => { l with swapping := some ⟨false, c.pool, c.page, c.addr,
        (v.items.filter (fun j => j.fn == i.fn && j.launch.any (fun x => x.serials.any (fun y => y.1 == c.pool)))).map (·.id), none⟩ }))) := by
  show execSwapOut item s = _
  rw [execSwapOut, h.answers, State.accepting_next, refusals_cons, refusals_cons, refusals_nil]
  simp only [swapOutside, decide_eq_true_eq]

/-- `SWAP_IN` of a free page inside the host buffer begins its copy (R219). -/
theorem swapIn_atPage (h : s.AtPage pgSwapIn item i l b u c p v) :
    (l.hbytes < c.addr + p.footprint → exec (.swapIn item) s = .next (s.accepted (v.pageRefused i l 0x03))) ∧
    (c.addr + p.footprint ≤ l.hbytes → v.pageFree p c.page = false → exec (.swapIn item) s = .next (s.accepted (v.pageRefused i l 0x01))) ∧
    (c.addr + p.footprint ≤ l.hbytes → v.pageFree p c.page = true → v.hostPermits i.fn (l.hbuf + c.addr) p.footprint false = true →
      exec (.swapIn item) s = .next (s.accepted (v.swapInLine i l p ⟨true, c.pool, c.page, c.addr, [], some 0⟩ 0))) := by
  have hexec : exec (.swapIn item) s = execSwapIn item s := rfl
  rw [hexec, execSwapIn_entry h.entry.swapOf_none, h.answers, State.accepting_next, refusals_cons, refusals_cons, refusals_nil]
  simp only [swapOutside, decide_eq_true_eq]
  refine ⟨fun hout => by rw [if_pos hout], fun hin hfree => ?_, fun hin hfree hhost => ?_⟩
  · rw [if_neg (Nat.not_lt.2 hin), hfree]
    rfl
  · rw [if_neg (Nat.not_lt.2 hin), hfree, hhost]
    rfl

theorem closePool_atPage (h : s.AtPage pgClose item i l b u c p v) : exec (.closePool item) s = .next (s.accepted
    (if v.poolBusy i.fn c.pool p then v.pageRefused i l 0x05 else (v.setPool i.fn c.pool none).listResult i l 0 [])) := by
  show execClosePool item s = _
  rw [execClosePool, h.answers, State.accepting_next, refusals_cons, refusals_nil]

/-- Every command refuses an unfit entry (R215). -/
theorem pageCommands_unfit {op code : Nat} (h : s.atEntry tyPageCmd op Item.beforePages item i l b u) (hc : c = PageCmd.ofEntry b)
    (hunfit : u.pageUnfit op i c code) : ∀ cmd ∈ [(pgMap, Instr.map item), (pgRef, .ref item), (pgUnref, .unref item), (pgSwapOut, .swapOut item),
      (pgSwapIn, .swapIn item), (pgOpen, .openPool item), (pgClose, .closePool item)],
    op = cmd.1 → exec cmd.2 s = .next (s.accepted (u.pageRefused i l code)) := by
  simp only [List.forall_mem_cons]
  refine ⟨fun hop => ?map, fun hop => ?ref, fun hop => ?unref, fun hop => ?swapOut, fun hop => ?swapIn, fun hop => ?openPool, fun hop => ?closePool,
    fun _ hcmd => absurd hcmd List.not_mem_nil⟩
  case openPool =>
    obtain rfl : op = pgOpen := hop
    rcases hunfit with ⟨hbad, rfl⟩ | ⟨-, -, hop, -⟩
    · subst hc
      show execOpenPool item s = _
      rw [execOpenPool, onEntry_at h, State.accepting_next]
      simp only [hbad, Bool.true_or, if_true]
    · exact absurd rfl hop
  case swapIn =>
    obtain rfl : op = pgSwapIn := hop
    show execSwapIn item s = _
    rw [execSwapIn_entry h.swapOf_none, onPage_unfit h hc hunfit, State.accepting_next]
  case map | ref | unref | swapOut | closePool =>
    subst hop
    exact congrArg s.accepting (onPage_unfit h hc hunfit)

end

/-! ## Swaps that run (R219) -/

section
variable {s : State} {item : Nat} {i : Item} {l : ListRun} {w : Swap} {p : Pool}

/-- The swap of a running list, with what it acts on. -/
theorem State.swapOf_some (hitem : s.item item = some i) (hlist : i.list = some l) (hswap : l.swapping = some w) (hpool : s.pool i.fn w.pool = some p) :
    s.swapOf item = some (i, l, w, p) := by
  simp [State.swapOf, hitem, hlist, hswap, hpool]

variable (hswap : s.swapOf item = some (i, l, w, p)) (hrun : i.phase = .running) (hready : s.hostReady i.fn = true)
include hswap hrun hready

/-- `SWAP_IN` goes on with the next codeword. -/
theorem swapIn_goesOn {n : Nat} (hin : w.inward = true) (hn : w.copied = some n) : exec (.swapIn item) s = .next (s.accepted (s.swapInLine i l p w n)) := by
  show execSwapIn item s = _
  rw [execSwapIn, hswap]
  simp [hrun, hin, hready, hn, whenever]

/-- The copy of `SWAP_OUT` goes on with the next codeword. -/
theorem swapOutCopy_goesOn {n : Nat} (hout : w.inward = false) (hn : w.copied = some n) :
    exec (.swapOutCopy item) s = .next (s.accepted (s.swapOutLine i l p w n)) := by
  show execSwapOutCopy item s = _
  rw [execSwapOutCopy, hswap]
  simp [hrun, hout, hready, hn]

/-- The copy of `SWAP_OUT` begins once the pins it waits for have ended, when the page is still referenced and the host permits it. -/
theorem swapOutCopy_begins {v : State} {m : Nat} (hout : w.inward = false) (hn : w.copied = none) (hpins : w.pins.any (fun j => (s.item j).isSome) = false)
    (hread : s.ctrlRead (some i.id) (p.stateAddr w.page) 4 = (m, v)) :
    (1 ≤ bitsOf m 0 17 → s.hostPermits i.fn (l.hbuf + w.off) p.footprint true = true →
      exec (.swapOutCopy item) s = .next (s.accepted (v.swapOutLine i l p w 0))) ∧
    (bitsOf m 0 17 = 0 → exec (.swapOutCopy item) s = .next (s.accepted (v.pageRefused i l 0x01))) := by
  have hexec : exec (.swapOutCopy item) s = execSwapOutCopy item s := rfl
  rw [hexec, execSwapOutCopy, hswap]
  refine ⟨fun href hhost => ?_, fun href => ?_⟩
  · simp [hrun, hout, hready, hn, hpins, hread, hhost, Nat.ne_of_gt href]
  · simp [hrun, hout, hready, hn, hpins, hread, href]

end

/-! ## One codeword of a swap (R219) -/

section
variable {s h x : State} {i : Item} {l : ListRun} {w : Swap} {p : Pool} {n : Nat} {bs : List Byte} {m : Bool}

/-- Codeword `n` read from the host buffer is stored in the page; behind the last, the page has its first reference. -/
theorem swapInLine_eq (hread : (s.bursts i.fn (p.pageAddr w.page (64 * n)) 64).hostRead i.fn (l.hbuf + w.off + 64 * n) 64 = (some (bs, m), h))
    (hx : x = (h.consumed i.id m).memWriteMarked (p.pageAddr w.page (64 * n)) (bs.map (fun b => (b, m)))) : s.swapInLine i l p w n =
      if 64 * (n + 1) < p.footprint then x.modList i.id (fun l => { l with swapping := some { w with copied := some (n + 1) } })
      else (x.firstRef i.fn w.pool p w.page).listResult i l 0 [] := by
  subst hx
  simp only [State.swapInLine, hread, State.swapNext]

/-- Codeword `n` of the page is written to the host buffer; behind the last, the page loses a reference. -/
theorem swapOutLine_eq {ok : Bool} (hread : s.takeFor i.fn (p.pageAddr w.page (64 * n)) 64 = (bs, m, h))
    (hwrite : (h.consumed i.id m).hostWrite i.fn (l.hbuf + w.off + 64 * n) bs m = (ok, x)) (hok : ok = true) : s.swapOutLine i l p w n =
      if 64 * (n + 1) < p.footprint then x.modList i.id (fun l => { l with swapping := some { w with copied := some (n + 1) } })
      else (x.unref i.fn i.id w.pool p w.page).listResult i l 0 [] := by
  simp only [State.swapOutLine, hread, hwrite, hok, State.swapNext, if_true]

end

/-! ## `OPEN` (R195-R198) -/

section
variable {s u v w : State} {item : Nat} {i : Item} {l : ListRun} {b rec : List Byte} {m : Bool} {c : PageCmd} {p : Pool}
variable (h : s.atEntry tyPageCmd pgOpen Item.beforePages item i l b u) (hc : c = PageCmd.ofEntry b) (hbad : c.bad = false)
include h hc hbad

/-- A record outside the grant of the item is refused. -/
theorem openPool_outside (hown : (u.grantOf i).own c.addr 64 = false) : exec (.openPool item) s = .next (s.accepted (u.pageRefused i l 0x04)) := by
  subst hc
  show execOpenPool item s = _
  rw [execOpenPool, onEntry_at h, State.accepting_next]
  simp only [hbad, hown, Bool.not_false, Bool.or_true, if_true]

/-- A record in the grant is read; an invalid one is refused, a pool that is open too, and otherwise the control area is zeroed and the pool opens. -/
theorem openPool_reads (hown : (u.grantOf i).own c.addr 64 = true) (hread : u.takeFor i.fn c.addr 64 = (rec, m, w)) (hv : v = w.consumed i.id m)
    (hp : p = Pool.ofRecord rec) : exec (.openPool item) s = .next (s.accepted
      (if (v.grantOf i).recordOk rec p = false then v.pageRefused i l 0x04 else if (v.pool i.fn c.pool).isSome then v.pageRefused i l 0x05
        else (((((v.storeFor i.fn p.ctrlBase (List.replicate p.ctrlBytes 0)).setPool i.fn c.pool (some p)).auditFresh 6 (4 * i.fn + c.pool)).auditFresh 7
          (4 * i.fn + c.pool)).listResult i l 0 []))) := by
  subst hc hv hp
  show execOpenPool item s = _
  rw [execOpenPool, onEntry_at h, State.accepting_next]
  simp only [hbad, hown, hread, Bool.not_true, Bool.or_false, Bool.false_eq_true, if_false, Bool.not_eq_true']

end

/-! ## The statement -/

/-- Settles O36: an entry of a page list is refused unfit (`pageCommands_unfit`) or judged on its page (`State.AtPage`); a swap that runs copies a codeword a
command. -/
theorem pageCommandsChangeOnePage : Obligations.PageCommandsChangeOnePage := by
  unfold Obligations.PageCommandsChangeOnePage
  refine ⟨?pageCmd, ?onPage, ?unfit, ?swaps, ?lines, ?opens⟩
  case pageCmd =>
    intro s fn ring i d h
    show execPageCmd fn ring s = _
    rw [execPageCmd, onEvent3_passes h rfl rfl]
  case onPage =>
    intro s u v op item i l b c p hentry hc hbad hpool hpage hv
    have hat : s.AtPage op item i l b u c p v := ⟨hentry, hc, hbad, hpool, hpage, hv⟩
    refine ⟨?map, ?ref, ?unref, ?swapOut, ?outside, ?unreferenced, ?inOutside, ?inTaken, ?swapIn, ?close⟩
    case map => rintro rfl; exact map_atPage hat
    case ref => rintro rfl; exact ref_atPage hat
    case unref => rintro rfl; exact unref_atPage hat
    case swapOut =>
      rintro rfl hin href
      rw [swapOut_atPage hat, if_neg (Nat.not_lt.2 hin), if_neg (Nat.not_lt.2 href)]
    case outside =>
      rintro rfl hout
      rw [swapOut_atPage hat, if_pos hout]
    case unreferenced =>
      rintro rfl hin href
      rw [swapOut_atPage hat, if_neg (Nat.not_lt.2 hin), href, if_pos Nat.one_pos]
    case inOutside =>
      rintro rfl
      exact (swapIn_atPage hat).1
    case inTaken =>
      rintro rfl hin htaken
      obtain ⟨-, hrefused, -⟩ := swapIn_atPage hat
      refine hrefused hin (Bool.eq_false_iff.2 fun hfree => ?_)
      obtain ⟨hrefs, hqueued⟩ := State.pageFree_iff.1 hfree
      rcases htaken with htaken | htaken
      · exact htaken hrefs
      · exact Bool.false_ne_true (hqueued.symm.trans htaken)
    case swapIn =>
      rintro rfl hin hrefs hqueued hhost
      obtain ⟨-, -, hcopies⟩ := swapIn_atPage hat
      exact hcopies hin (State.pageFree_iff.2 ⟨hrefs, hqueued⟩) hhost
    case close => rintro rfl; exact closePool_atPage hat
  case unfit =>
    intro s u op code item i l b c hentry hc hunfit
    exact pageCommands_unfit hentry hc hunfit
  case swaps =>
    intro s item i l w p hitem hlist hswap hpool hrun hready
    have hof := State.swapOf_some hitem hlist hswap hpool
    exact ⟨fun n => swapIn_goesOn hof hrun hready, fun n => swapOutCopy_goesOn hof hrun hready,
      fun v m hout hn hpins hread => (swapOutCopy_begins hof hrun hready hout hn hpins hread).1,
      fun v m hout hn hpins hread => (swapOutCopy_begins hof hrun hready hout hn hpins hread).2⟩
  case lines =>
    intro s h i l w p n bs m ok x
    exact ⟨swapInLine_eq, swapOutLine_eq⟩
  case opens =>
    intro s u v w item i l b rec m c p hentry hc hbad
    refine ⟨openPool_outside hentry hc hbad, fun hown hread hv hp => ?_⟩
    have hopens := openPool_reads hentry hc hbad hown hread hv hp
    refine ⟨fun hinvalid => ?invalid, fun hvalid hopen => ?alreadyOpen, fun hvalid hclosed => ?opens⟩
    case invalid => rw [hopens, if_pos hinvalid]
    case alreadyOpen => rw [hopens, if_neg (by simp [hvalid]), if_pos (Option.isSome_iff_ne_none.2 hopen)]
    case opens =>
      rw [hopens, hvalid, hclosed]
      rfl

end Sys2Proof.Machine
end

section
/-! SUPPORT. The placement of `XPLACE` (O30): slots held apart, and the greedy walk and the repair, which keep them so. -/

namespace Sys2Proof.Machine

/-! ## Slots held apart (R232) -/

/-- Each slot held is one of `c`, no two tokens hold the same slot of an expert, and no token holds two slots of one expert. -/
structure Seated (c : Nat) (l : List Held) : Prop where
  below : ∀ h ∈ l, h.slot < c
  slots : (l.map fun h => (h.expert, h.slot)).Nodup
  uses : (l.map fun h => (h.token, h.expert)).Nodup

namespace Seated

variable {c : Nat} {l m : List Held}

theorem nil (c : Nat) : Seated c [] := ⟨by simp, List.nodup_nil, List.nodup_nil⟩

theorem sublist (h : Seated c l) (hm : m.Sublist l) : Seated c m where
  below x hx := h.below x (hm.subset hx)
  slots := h.slots.sublist (hm.map _)
  uses := h.uses.sublist (hm.map _)

/-- One more slot is held of an expert that has it free, by a token that does not use the expert. -/
theorem append (h : Seated c l) {x : Held} (hx : x.slot < c) (hfree : ∀ y ∈ l, y.expert = x.expert → y.slot ≠ x.slot)
    (huse : ∀ y ∈ l, y.token = x.token → y.expert ≠ x.expert) : Seated c (l ++ [x]) where
  below y hy := by
    rcases List.mem_append.1 hy with hy | hy
    · exact h.below y hy
    · rwa [List.mem_singleton.1 hy]
  slots := by
    rw [List.map_append, List.map_singleton, List.nodup_append_comm, List.singleton_append, List.nodup_cons]
    refine ⟨fun hmem => ?_, h.slots⟩
    obtain ⟨y, hy, heq⟩ := List.mem_map.1 hmem
    exact hfree y hy (congrArg Prod.fst heq) (congrArg Prod.snd heq)
  uses := by
    rw [List.map_append, List.map_singleton, List.nodup_append_comm, List.singleton_append, List.nodup_cons]
    refine ⟨fun hmem => ?_, h.uses⟩
    obtain ⟨y, hy, heq⟩ := List.mem_map.1 hmem
    exact huse y hy (congrArg Prod.fst heq) (congrArg Prod.snd heq)

/-- A slot of an expert has one holder. -/
theorem holder_unique (h : Seated c l) {x y : Held} (hx : x ∈ l) (hy : y ∈ l) (he : x.expert = y.expert) (hs : x.slot = y.slot) : x = y :=
  List.inj_on_of_nodup_map h.slots hx hy (Prod.ext he hs)

end Seated

namespace Placing

variable {p : Placing} {c t e : Nat}

theorem uses_eq_false : p.uses t e = false ↔ ∀ h ∈ p.held, h.token = t → h.expert ≠ e := by
  simp [uses]

/-- The numbers of the slots of an expert that are held. -/
def slotsOf (p : Placing) (e : Nat) : List Nat := (p.held.filter fun h => h.expert == e).map Held.slot

theorem mem_slotsOf {k : Nat} : k ∈ p.slotsOf e ↔ ∃ h ∈ p.held, h.expert = e ∧ h.slot = k := by
  simp [slotsOf, and_assoc]

theorem slotsOf_length (p : Placing) (e : Nat) : (p.slotsOf e).length = p.fill e := List.length_map ..

theorem slotsOf_nodup (h : Seated c p.held) (e : Nat) : (p.slotsOf e).Nodup := by
  have hpairs : (p.slotsOf e).map (fun k => (e, k)) = (p.held.filter fun h => h.expert == e).map fun h => (h.expert, h.slot) := by
    rw [slotsOf, List.map_map]
    exact List.map_congr_left fun x hx => Prod.ext (beq_iff_eq.1 (List.mem_filter.1 hx).2).symm rfl
  exact .of_map (fun k => (e, k)) (hpairs ▸ (h.sublist List.filter_sublist).slots)

/-- No expert has more than its `c` slots held. -/
theorem fill_le (h : Seated c p.held) (e : Nat) : p.fill e ≤ c := by
  have hbelow : p.slotsOf e ⊆ List.range c := fun k hk => by
    obtain ⟨x, hx, -, rfl⟩ := mem_slotsOf.1 hk
    exact List.mem_range.2 (h.below x hx)
  calc p.fill e = (p.slotsOf e).length := (p.slotsOf_length e).symm
    _ ≤ (List.range c).length := ((slotsOf_nodup h e).subperm hbelow).length_le
    _ = c := List.length_range

/-- An expert with room has a slot free: the numbers below `c` are more than the slots held. -/
theorem freeSlot_free (hr : p.room c e = true) : p.freeSlot c e < c ∧ p.freeSlot c e ∉ p.slotsOf e := by
  cases hfind : (List.range c).find? (fun k => !p.held.any (fun h => h.expert == e && h.slot == k)) with
  | some k =>
    have hlt := List.mem_range.1 (List.mem_of_find?_eq_some hfind)
    have hfree := List.find?_some hfind
    rw [freeSlot, hfind, Option.getD_some]
    refine ⟨hlt, fun hk => ?_⟩
    obtain ⟨h, hmem, he, hs⟩ := mem_slotsOf.1 hk
    simp only [Bool.not_eq_true', List.any_eq_false, Bool.and_eq_true, beq_iff_eq] at hfree
    exact hfree h hmem ⟨he, hs⟩
  | none =>
    have hall : List.range c ⊆ p.slotsOf e := fun k hk => by
      have hheld := List.find?_eq_none.1 hfind k hk
      simp only [Bool.not_eq_true, Bool.not_eq_false', List.any_eq_true, Bool.and_eq_true, beq_iff_eq] at hheld
      exact mem_slotsOf.2 hheld
    have hlen := (List.nodup_range.subperm hall).length_le
    rw [List.length_range, slotsOf_length] at hlen
    exact absurd (of_decide_eq_true hr) (Nat.not_lt.2 hlen)

/-- A choice placed on an expert that has room and that its token does not use. -/
theorem put_seated (h : Seated c p.held) (hr : p.room c e = true) (hu : p.uses t e = false) (rep mov : Bool) : Seated c (p.put c t e rep mov).held := by
  obtain ⟨hlt, hfree⟩ := freeSlot_free hr
  exact h.append hlt (fun y hy he hs => hfree (mem_slotsOf.2 ⟨y, hy, he, hs⟩)) (uses_eq_false.1 hu)

/-! ## The greedy walk (R232) -/

/-- The expert that a choice is placed on has room, and its token does not use it. -/
theorem find_open {rank : List Nat} (h : rank.find? (fun e => !p.uses t e && p.room c e) = some e) : p.room c e = true ∧ p.uses t e = false := by
  have hopen := List.find?_some h
  simp only [Bool.and_eq_true, Bool.not_eq_true'] at hopen
  exact hopen.symm

theorem walk_seated (h : Seated c p.held) (t : Nat) (rank : List Nat) : Seated c (p.walk c t rank).held := by
  unfold walk
  split
  · exact h
  · split
    · next e hfind =>
      obtain ⟨hr, hu⟩ := find_open hfind
      exact put_seated h hr hu _ _
    · exact h

/-! ## The repair (R233) -/

/-- A fold that keeps its choice or takes the next element chooses an element of its list. -/
theorem mem_of_foldl_choice {α : Type} {f : Option α → α → Option α} (hf : ∀ a x, f a x = a ∨ f a x = some x) {y : α} :
    ∀ (l : List α) (a : Option α), l.foldl f a = some y → y ∈ l ∨ a = some y
  | [], _, h => .inr h
  | x :: l, a, h => by
    rcases mem_of_foldl_choice hf l _ h with hl | ha
    · exact .inl (List.mem_cons_of_mem _ hl)
    · rcases hf a x with hx | hx
      · exact .inr (hx.symm.trans ha)
      · obtain rfl := Option.some.inj (hx.symm.trans ha)
        exact .inl List.mem_cons_self

/-- The placement in which the slot of `h` is given up. -/
def without (p : Placing) (h : Held) : Placing := { p with held := p.held.filter (· != h) }

/-- The slots held after the token of `h` has moved to expert `f` and token `t` has taken the slot that it gave up (item 3 of R233). -/
def swapped (p : Placing) (c t f : Nat) (h : Held) : List Held :=
  ((p.without h).put c h.token f false true).held ++ [⟨h.expert, h.slot, t, true, false⟩]

/-- The repair of a blocked choice leaves it unplaced, places it on an expert with room, or moves another token to make a slot free (items 1 to 3 of R233). -/
theorem repair_cases (p : Placing) (c t : Nat) (rank : List Nat) :
    (p.repair c t rank).held = p.held ∨
    (∃ e, p.room c e = true ∧ p.uses t e = false ∧ (p.repair c t rank).held = (p.put c t e true false).held) ∨
    ∃ f h, p.room c f = true ∧ p.uses t f = true ∧ h ∈ p.held ∧ p.uses t h.expert = false ∧ p.uses h.token f = false ∧
      (p.repair c t rank).held = p.swapped c t f h := by
  unfold repair
  split
  · exact .inl rfl
  · next e _ hfind =>
    obtain ⟨hr, hu⟩ := find_open hfind
    exact .inr (.inl ⟨e, hr, hu, rfl⟩)
  · next f hroom hnone =>
    have hr : p.room c f = true := List.find?_some hroom
    have hu : p.uses t f = true := by simpa [hr] using List.find?_eq_none.1 hnone f (List.mem_of_find?_eq_some hroom)
    split
    · exact .inl rfl
    · next y hy =>
      have hy : p.uses t y = false := by simpa using List.find?_some hy
      dsimp only
      split
      · exact .inl rfl
      · next h hchoice =>
        have hmem := mem_of_foldl_choice (fun a g => by cases a <;> simp only [or_true]; split <;> simp) _ _ hchoice
        simp only [reduceCtorEq, or_false, List.mem_filter, Bool.and_eq_true, beq_iff_eq, Bool.not_eq_true'] at hmem
        obtain ⟨hheld, rfl, hfree⟩ := hmem
        exact .inr (.inr ⟨f, h, hr, hu, hheld, hy, hfree, rfl⟩)

/-- A token leaves an expert that `t` does not use for one that `t` uses, and `t` takes its slot. -/
theorem swapped_seated {f : Nat} {h : Held} (hs : Seated c p.held) (hr : p.room c f = true) (hf : p.uses t f = true) (hh : h ∈ p.held)
    (ht : p.uses t h.expert = false) (hm : p.uses h.token f = false) : Seated c (p.swapped c t f h) := by
  have hsub : (p.without h).held.Sublist p.held := List.filter_sublist
  have hroom : (p.without h).room c f = true :=
    decide_eq_true (Nat.lt_of_le_of_lt (hsub.filter _).length_le (of_decide_eq_true hr))
  have huse : (p.without h).uses h.token f = false := uses_eq_false.2 fun y hy => uses_eq_false.1 hm y (hsub.subset hy)
  have hne : f ≠ h.expert := fun he => by simp [he, ht] at hf
  have hold : ∀ y ∈ ((p.without h).put c h.token f false true).held, y.expert = h.expert → y ∈ (p.without h).held := fun y hy he => by
    rcases List.mem_append.1 hy with hy | hy
    · exact hy
    · exact absurd ((congrArg Held.expert (List.mem_singleton.1 hy)).symm.trans he) hne
  refine (put_seated (hs.sublist hsub) hroom huse false true).append (hs.below h hh) (fun y hy he hslot => ?_) (fun y hy htok he => ?_)
  · exact bne_iff_ne.1 (List.mem_filter.1 (hold y hy he)).2 (hs.holder_unique (hsub.subset (hold y hy he)) hh he hslot)
  · exact uses_eq_false.1 ht y (hsub.subset (hold y hy he)) htok he

theorem repair_seated (h : Seated c p.held) (t : Nat) (rank : List Nat) : Seated c (p.repair c t rank).held := by
  rcases p.repair_cases c t rank with heq | ⟨e, hr, hu, heq⟩ | ⟨f, x, hr, hf, hx, ht, hm, heq⟩
  · rwa [heq]
  · rw [heq]
    exact put_seated h hr hu _ _
  · rw [heq]
    exact swapped_seated h hr hf hx ht hm

end Placing

/-- The slots held are apart throughout the rounds of the walk and the repairs after it. -/
theorem place_seated (c k : Nat) (toks : List (Nat × List Nat)) : Seated c (place c k toks).held := by
  refine List.foldlRecOn (motive := fun p : Placing => Seated c p.held) _ _ ?walked fun p hp t _ => ?repaired
  case walked =>
    refine List.foldlRecOn (motive := fun p : Placing => Seated c p.held) _ _ (Seated.nil c) fun p hp _ _ => ?_
    exact List.foldlRecOn (motive := fun p : Placing => Seated c p.held) _ _ hp fun p hp x _ => Placing.walk_seated hp x.1 x.2
  case repaired =>
    split
    · next x _ => exact Placing.repair_seated hp t x.2
    · exact hp

/-- Settles O30: the walk and the repair keep the slots apart (`place_seated`), and an expert whose slots are apart has no more than `c` (`Placing.fill_le`). -/
theorem placementRespectsCapacity : Obligations.PlacementRespectsCapacity := by
  unfold Obligations.PlacementRespectsCapacity
  intro c k toks
  have h := place_seated c k toks
  exact ⟨Placing.fill_le h, h.below, h.slots, h.uses⟩

end Sys2Proof.Machine
end

section
/-! SUPPORT. The instructions of expert routing (O31): stores that other updates of the state may follow, and `XPLACE`, `XGATHER` and `XCOMBINE` as stores. -/

namespace Sys2Proof.Machine

/-! ## Stores that other updates may follow -/

/-- Bytes written piece by piece at an operand change the scratchpad alone. -/
theorem Tile.sputs_spadOnly {α : Type} (o : Opnd) (k : α → Nat) (bytes : α → List Byte) (l : List α) (t : Tile) :
    t.spadOnly (l.foldl (fun v x => v.sput o (k x) (bytes x)) t) :=
  List.foldlRecOn (motive := t.spadOnly) _ _ (.refl t) fun v hv x _ => hv.trans (v.sput_spadOnly o (k x) (bytes x))

/-- With no operation in flight, R98 holds no instruction. -/
theorem Effect.clear_of_no_ops {tl : Tile} (h : tl.ops = []) (e : Effect) : e.clear tl = true := by
  simp [Effect.clear, Tile.clearOf, h]

section
variable {s : State} {p : Nat} {e : Effect} {v : Tile} {gs : List (Nat × Nat)} {m : Bool}

/-- What running a store leaves in its tile, and what it leaves alone. -/
theorem Effect.Stores.runs (h : e.Stores (s.tile p) v gs m) (hs : s.canonical = true) (t : Nat) (i : Insn) {u : State}
    (hu : u = s.runEffect t p (s.tile p) i .pass e) : s.oneTile u p ∧ (u.tile p).vbuf = (s.tile p).vbuf ∧ (s.tile p).keeps (u.tile p) ∧
      (u.tile p).spad = v.spad ∧ (u.tile p).spadMarks = ((s.tile p).markSegs gs m).spadMarks := by
  subst hu
  obtain ⟨hone, hself⟩ := State.runEffect_reads hs h.clear t p i
  exact ⟨hone, h.issued_reads hself⟩

theorem State.runEffect_writesOnly {tl : Tile} (h : e.clear tl = true) (t : Nat) (i : Insn) :
    s.writesOnly (· ∈ tileRegs) (s.runEffect t p tl i .pass e) := by
  rw [State.runEffect_passes h]
  exact State.effected_writesOnly.trans State.issueOp_writesOnly

end

/-- A count of events after an instruction of a tile: no tile changes, and of the registers only that of the count. -/
theorem State.oneTile.bump {s u : State} {p : Nat} {rs : List Reg} (h : s.oneTile u p rs) (hu : Tab.sorted u.regs = true) (f : Field) (hf : f.lo < 1024)
    (hr : f.reg ∈ rs) (i n : Nat) : s.oneTile (u.bump f i n) p rs := by
  obtain ⟨heq, htiles, hregs⟩ := h
  have hb : u.writesOnly (· ∈ rs) (u.bump f i n) := .bump f i n ⟨hr, hf⟩
  refine ⟨?_, fun k hk => ?_, State.regsBut_trans hregs (State.regsBut_mono (hb.regsBut hu) fun r hr => by simp [hr])⟩
  · unfold State.bump
    split
    · exact heq
    · rw [heq]
      rfl
  · rw [State.tile, State.bump_tiles]
    exact htiles k hk

theorem State.oneTile.mono {s u : State} {p : Nat} (h : s.oneTile u p) (rs : List Reg) : s.oneTile u p rs := by
  obtain ⟨heq, htiles, hregs⟩ := h
  exact ⟨heq, htiles, State.regsBut_mono hregs fun _ => List.mem_append_left rs⟩

/-- The counts of `TILE_XSTAT` after an instruction of a tile, which itself leaves them alone (R245). -/
theorem State.oneTile.xstat {s v u : State} {p : Nat} (h : s.oneTile v p) (hv : Tab.sorted v.regs = true) {t a b : Nat}
    (hu : u = (v.bump Fld.tileXstatOutside t a).bump Fld.tileXstatUnplaced t b) : s.oneTile u p [.tileXstat] ∧ u.tile p = v.tile p ∧
      u.fld Fld.tileXstatOutside t = s.counted Fld.tileXstatOutside t a ∧ u.fld Fld.tileXstatUnplaced t = s.counted Fld.tileXstatUnplaced t b := by
  subst hu
  have hsorted : Tab.sorted (v.bump Fld.tileXstatOutside t a).regs = true :=
    (State.writesOnly.bump (w := fun _ => True) Fld.tileXstatOutside t a ⟨trivial, by decide⟩ hv).1
  have hkept : ∀ f : Field, f.lo < 1024 → f.reg = .tileXstat → v.fld f t = s.fld f t := fun f hf hr => h.2.2 f t hf (by rw [hr]; decide)
  have hout : v.fld Fld.tileXstatOutside t = s.fld Fld.tileXstatOutside t := hkept _ (by decide) rfl
  have hunp : v.fld Fld.tileXstatUnplaced t = s.fld Fld.tileXstatUnplaced t := hkept _ (by decide) rfl
  refine ⟨?one, ?tile, ?outside, ?unplaced⟩
  case one => exact ((h.mono _).bump hv _ (by decide) (by decide) t a).bump hsorted _ (by decide) (by decide) t b
  case tile => rw [State.tile, State.bump_tiles, State.bump_tiles, State.tile]
  case outside =>
    rw [State.fld_bump_ne (Field.key_ne (by decide) (by decide) (.inr (.inr (by decide)))) rfl (by decide), State.fld_bump_self hv, State.counted, hout]
    rfl
  case unplaced =>
    rw [State.fld_bump_self hsorted, State.counted,
      State.fld_bump_ne (Field.key_ne (by decide) (by decide) (.inr (.inr (by decide)))) rfl (by decide), hunp]
    rfl

/-- No use suppressed counts none. -/
@[simp] theorem State.suppressed_zero (s : State) (tl : Tile) : s.suppressed tl 0 = s := by
  unfold State.suppressed
  split <;> rfl

/-! ## Placement (R229-R237, R245) -/

section
variable {s : State} {t p e : Nat} {i : Insn} {tl : Tile}

/-- The live tokens of an `XPLACE` (R229). -/
def Tile.liveTokens (tl : Tile) (i : Insn) : List Nat := (List.range tl.tokens).filter (tl.maskReg (i.arg 13 3)).getLsbD

/-- The bytes of a row of 32 scores (R230). -/
def Insn.scoreRow (i : Insn) : Nat := if i.argBit 12 then 64 else 128

/-- What an `XPLACE` computes of the scores that it reads (R230). -/
def Tile.placed (tl : Tile) (i : Insn) (e : Nat) : PlaceOut :=
  placeAll tl.tokens tl.capacity e (i.arg 8 3 + 1) (i.argBit 11) (tl.liveTokens i)
    (fun x => (List.range e).map (fun y => scoreCode (i.argBit 12) (leNat (tl.sread (tl.opnd i.opd1) (scoreOff tl.tokens i.scoreRow x y) (i.scoreRow / 32)))))

/-- `XPLACE` stores the records and the area of its placement, by what its mask register and its scores are marked, and then counts. -/
theorem xplace_stores (hat : s.atInsn t p 0xA1 i = true) (htl : tl = s.tile p) (hops : tl.ops = []) (he : e = i.arg 0 8 + 1) {r : PlaceOut}
    (hr : r = tl.placed i e) :
    ∃ x : Effect, exec (.xplace t .pass) s = .next (((s.runEffect t p tl i .pass x).bump Fld.tileXstatOutside t r.outside).bump
        Fld.tileXstatUnplaced t r.unplaced) ∧
      x.Stores tl ((tl.sput (tl.opnd i.opd0) 0 r.records).sput (tl.opnd i.opd2) 0 r.area)
        ((tl.opnd i.opd0).segs 0 r.records.length ++ (tl.opnd i.opd2).segs 0 r.area.length)
        (Tab.get false tl.maskMarks (i.arg 13 3) ||
          tl.markedSegs ((tl.opnd i.opd1).pieces ((tl.liveTokens i).flatMap (scorePieces tl.tokens i.scoreRow e)))) := by
  subst htl he hr
  refine ⟨?eff, ?exec, ?stores⟩
  case exec =>
    show execXplace t .pass s = _
    rw [execXplace, onStore_pass, onInsn_at hat]
    dsimp only
    rw [Effect.clear_of_no_ops hops]
    rfl
  case stores =>
    exact {
      tile := rfl
      only := (Tile.sput_spadOnly ..).trans (Tile.sput_spadOnly ..)
      writes := rfl
      mark := rfl
      clear := Effect.clear_of_no_ops hops _
      reads := by simp [Effect.readsMarked, Tile.vmarked, Tile.liveTokens, Insn.scoreRow] }

/-! ## Gathering (R238, R240) -/

/-- `XGATHER` of a table in which every slot is empty or names a token stores a row for each slot, by what the table and the rows are marked. -/
theorem xgather_stores {n rb : Nat} {slot : Nat → Nat} (hat : s.atInsn t p 0xA2 i = true) (htl : tl = s.tile p) (hops : tl.ops = [])
    (he : e = i.arg 0 8 + 1) (hrb : rb = i.arg 8 12 + 1) (hn : n = e * tl.capacity)
    (hslot : slot = fun k => leNat (tl.sread (tl.opnd i.opd2) (slotTable e + 2 * k) 2)) (hgood : ∀ k, k < n → slot k = 0xFFFF ∨ slot k < tl.tokens) :
    ∃ x : Effect, exec (.xgather t .pass) s = .next (s.runEffect t p tl i .pass x) ∧
      x.Stores tl ((List.range n).foldl (fun (v : Tile) k => v.sput (tl.opnd i.opd0) (k * rb)
          (if slot k = 0xFFFF then List.replicate rb 0 else tl.sread (tl.opnd i.opd1) (slot k * rb) rb)) tl)
        ((tl.opnd i.opd0).pieces ((List.range n).map (fun k => (k * rb, rb))))
        (tl.markedSegs ((tl.opnd i.opd2).segs (slotTable e) (2 * n) ++
          (tl.opnd i.opd1).pieces (((List.range n).filter (fun k => slot k < tl.tokens)).map (fun k => (slot k * rb, rb))))) := by
  have hall : ∀ k ∈ List.range n, (slot k == 0xFFFF || decide (slot k < tl.tokens)) = true := fun k hk => by
    simpa using hgood k (List.mem_range.1 hk)
  have hfilter : (List.range n).filter (fun k => slot k == 0xFFFF || decide (slot k < tl.tokens)) = List.range n := List.filter_eq_self.2 hall
  have hnone : (List.range n).filter (fun k => !(slot k == 0xFFFF || decide (slot k < tl.tokens))) = [] :=
    List.filter_eq_nil_iff.2 fun k hk => by simp [hall k hk]
  subst htl he hrb hn hslot
  refine ⟨?eff, ?exec, ?stores⟩
  case exec =>
    show execXgather t .pass s = _
    rw [execXgather, onStore_pass, onInsn_at hat]
    simp only [hfilter, hnone, List.length_nil, State.suppressed_zero, ite_self]
    rfl
  case stores =>
    exact {
      tile := rfl
      only := Tile.sputs_spadOnly _ _ _ _ _
      writes := rfl
      mark := rfl
      clear := Effect.clear_of_no_ops hops _
      reads := by simp [Effect.readsMarked, Tile.vmarked] }

/-! ## Combining (R239, R240) -/

/-- The format of the slot outputs of an `XCOMBINE`: FP32 or BF16 (R239). -/
def Insn.slotFmt (i : Insn) : Nat := if i.argBit 8 then 5 else 6

/-- The values of a slot output row (R239). -/
def Tile.slotVals (tl : Tile) (i : Insn) (k : Nat) : List Val :=
  (rowCodes (tl.sread (tl.opnd i.opd1) (k * fmtBytes i.slotFmt) (fmtBytes i.slotFmt)) i.slotFmt).map (Fmt.ofCode i.slotFmt).decode

/-- The number of the slot row that an entry names (R238). -/
def Tile.entrySlot (tl : Tile) (y : Bool × Nat × Nat × Word32) : Nat := y.2.1 * tl.capacity + y.2.2.1

/-- The value that the sum of a token starts from in a column: with `ACCUM` the one that stands there (R239). -/
def Tile.combineStart (tl : Tile) (i : Insn) (x n : Nat) : W34 :=
  if i.argBit 9 then toW34 (ofF32 (BitVec.ofNat 32 (leNat (tl.sread (tl.opnd i.opd0) (128 * x + 4 * n) 4)))) else 0

/-- The output row of a token with its entries added (R239). -/
def Tile.combinedRow (tl : Tile) (i : Insn) (ents : List (Bool × Nat × Nat × Word32)) (x : Nat) : List Byte :=
  (List.range 32).flatMap fun n => leBytes 4
    (f32Sat (ofW34 (combineCol (tl.combineStart i x n) (ents.map fun y => (y.2.2.2, (tl.slotVals i (tl.entrySlot y)).getD n .zero))))).1.toNat

/-- The rows that an `XCOMBINE` writes: with `ACCUM` only those of tokens with entries (R239). -/
def Tile.combinedRows (tl : Tile) (i : Insn) (ents : Nat → List (Bool × Nat × Nat × Word32)) : List Nat :=
  (List.range tl.tokens).filter fun x => !i.argBit 9 || !(ents x).isEmpty

/-- `XCOMBINE` of records whose entries are all good stores the combined rows, by what the records, the slot rows named and the rows added to are marked. -/
theorem xcombine_stores {ents : Nat → List (Bool × Nat × Nat × Word32)} {rows : List Nat} (hat : s.atInsn t p 0xA3 i = true) (htl : tl = s.tile p)
    (hops : tl.ops = []) (he : e = i.arg 0 8 + 1)
    (hents : ∀ x, ents x = recordEntries e tl.capacity (tl.sread (tl.opnd i.opd2) (64 * x) 64) 8 0 (-1))
    (hgood : ∀ x, x < tl.tokens → ∀ y ∈ ents x, y.1 = true) (hrows : rows = tl.combinedRows i ents) :
    ∃ z : Effect, exec (.xcombine t .pass) s = .next (s.runEffect t p tl i .pass z) ∧
      z.Stores tl (rows.foldl (fun (v : Tile) x => v.sput (tl.opnd i.opd0) (128 * x) (tl.combinedRow i (ents x) x)) tl)
        ((tl.opnd i.opd0).pieces (rows.map (fun x => (128 * x, 128))))
        (tl.markedSegs ((tl.opnd i.opd2).segs 0 (64 * tl.tokens) ++
          (tl.opnd i.opd1).pieces ((List.range tl.tokens).flatMap (fun x => (ents x).map (fun y => (tl.entrySlot y * fmtBytes i.slotFmt, fmtBytes i.slotFmt)))) ++
          (if i.argBit 9 then (tl.opnd i.opd0).pieces (rows.map (fun x => (128 * x, 128))) else []))) := by
  have hall : ∀ x ∈ List.range tl.tokens, (ents x).filter (fun y => y.1) = ents x := fun x hx =>
    List.filter_eq_self.2 (hgood x (List.mem_range.1 hx))
  have hnone : (((List.range tl.tokens).map fun x => ((ents x).filter fun y => !y.1).length).foldl (· + ·) 0) = 0 := by
    rw [← List.sum_eq_foldl, List.sum_eq_zero_iff]
    intro n hn
    obtain ⟨x, hx, rfl⟩ := List.mem_map.1 hn
    have hnil : (ents x).filter (fun y => !y.1) = [] := List.filter_eq_nil_iff.2 fun y hy => by simp [hgood x (List.mem_range.1 hx) y hy]
    rw [hnil, List.length_nil]
  have hwritten : (List.range tl.tokens).filter (fun x => !i.argBit 9 ||
      !(((ents x).filter (fun y => y.1)).map fun y => (tl.entrySlot y, y.2.2.2)).isEmpty) = rows := by
    rw [hrows]
    exact List.filter_congr fun x hx => by rw [hall x hx, List.isEmpty_map]
  have hmem : ∀ x ∈ rows, x ∈ List.range tl.tokens := fun x hx => (List.mem_filter.1 (hrows ▸ hx)).1
  unfold Tile.entrySlot at hwritten
  subst htl he
  refine ⟨?eff, ?exec, ?stores⟩
  case exec =>
    show execXcombine t .pass s = _
    rw [execXcombine, onStore_pass, onInsn_at hat]
    simp only [← hents, hwritten, hnone, State.suppressed_zero, ite_self]
    rfl
  case stores =>
    refine {
      tile := ?tile
      only := Tile.sputs_spadOnly _ _ _ _ _
      writes := rfl
      mark := rfl
      clear := Effect.clear_of_no_ops hops _
      reads := ?reads }
    case tile =>
      dsimp only
      rw [List.foldl_map]
      refine List.foldl_ext _ _ _ fun v x hx => ?_
      simp only [hall x (hmem x hx), Tile.combinedRow, List.flatMap_map, List.map_map]
      rfl
    case reads =>
      have hpieces : (List.range (s.tile p).tokens).flatMap (fun x => (((ents x).filter fun y => y.1).map fun y =>
          ((s.tile p).entrySlot y, y.2.2.2)).map fun g => (g.1 * fmtBytes i.slotFmt, fmtBytes i.slotFmt)) =
          (List.range (s.tile p).tokens).flatMap fun x => (ents x).map fun y => ((s.tile p).entrySlot y * fmtBytes i.slotFmt, fmtBytes i.slotFmt) :=
        List.flatMap_congr fun x hx => by rw [hall x hx, List.map_map]; rfl
      rw [← hpieces]
      unfold Effect.readsMarked
      simp only [Tile.vmarked, List.any_nil, Bool.or_false, Bool.false_or]
      cases i.argBit 9 <;> rfl

end

/-! ## The statement -/

/-- Settles O31: `XCFG` completes as it issues, and the other three are stores, of which `XPLACE` then counts in `TILE_XSTAT` (`State.oneTile.xstat`). -/
theorem expertInstructionsPlaceGatherCombine : Obligations.ExpertInstructionsPlaceGatherCombine := by
  unfold Obligations.ExpertInstructionsPlaceGatherCombine
  refine ⟨?xcfg, ?xplace, ?xgather, ?xcombine⟩
  case xcfg =>
    intro s t p i hat hroom
    show execXcfg t s = _
    rw [execXcfg, onInsn_at hat, if_pos hroom]
  case xplace =>
    rintro s t p e w i r hs hat hops he rfl hr
    obtain ⟨x, hexec, h⟩ := xplace_stores hat rfl hops he hr
    obtain ⟨hone, hvbuf, hkeeps, hspad, hmarks⟩ := h.runs hs t i rfl
    have hsorted := (State.runEffect_writesOnly (p := p) h.clear t i (State.canonical.regs hs)).1
    obtain ⟨hone, htile, houtside, hunplaced⟩ := hone.xstat hsorted rfl
    refine ⟨_, hexec, hone, ?_⟩
    rw [htile]
    exact ⟨hvbuf, hkeeps, hspad, hmarks, houtside, hunplaced⟩
  case xgather =>
    intro s t p e rb i slot hs hat hops he hrb hslot hgood
    obtain ⟨x, hexec, h⟩ := xgather_stores hat rfl hops he hrb rfl (funext hslot) hgood
    obtain ⟨hone, hvbuf, hkeeps, hspad, hmarks⟩ := h.runs hs t i rfl
    exact ⟨_, hexec, hone, hvbuf, hkeeps, hmarks, hspad⟩
  case xcombine =>
    rintro s t p e yf i ents o rows hs hat hops he rfl rfl hents hgood hrows
    obtain ⟨x, hexec, h⟩ := xcombine_stores hat rfl hops he hents hgood hrows
    obtain ⟨hone, hvbuf, hkeeps, hspad, hmarks⟩ := h.runs hs t i rfl
    exact ⟨_, hexec, hone, hvbuf, hkeeps, hspad, hmarks⟩

end Sys2Proof.Machine
end

section
/-! SUPPORT. A byte memory reads what was written to it (O6). -/

namespace Sys2Proof.Machine

-- One declaration after another: each blocked elaboration thread holds a stack, which the check's memory limit counts.
set_option Elab.async false

/-- A cleared range reads as zero, and every other byte as before. -/
theorem Mem.read_zero {m : Mem} {a n x : Nat} (h : Memory.wf m = true) :
    Mem.read (Mem.zero m a n) x = if a ≤ x ∧ x < a + n then 0 else Mem.read m x := by
  have hclear : Mem.read (Mem.zero m a n) x = if x < a ∨ a + n ≤ x then Mem.read m x else 0 := Tab.get_clear (Memory.sorted_of_wf h)
  by_cases hx : a ≤ x ∧ x < a + n
  · rw [hclear, if_pos hx, if_neg (by omega)]
  · rw [hclear, if_neg hx, if_pos (by omega)]

/-- Settles O6: a range is written byte by byte, and cleared by its keys. -/
theorem byteReadsWhatWasStored : Obligations.ByteReadsWhatWasStored := by
  unfold Obligations.ByteReadsWhatWasStored
  intro m a bs n h
  exact ⟨fun k hk => Mem.read_writeRange_at hk h, fun x hx => Mem.read_writeRange_other h hx, Memory.wf_writeRange h,
    fun x => Mem.read_zero h, Memory.wf_zero h⟩

end Sys2Proof.Machine
end

section
/-! SUPPORT. The canonical form store by store, with the conservation of items as an option: the rules for the updates that every meaning is built of (O3). -/

namespace Sys2Proof.Machine

-- One declaration after another: each blocked elaboration thread holds a stack, which the check's memory limit counts.
set_option Elab.async false

/-! ## Tables -/

section
variable {α : Type} {d : α} {t : Tab α}

/-- A fold of updates keeps the keys rising. -/
theorem Tab.sorted_foldl {β : Type} {f : Tab α → β → Tab α} {l : List β} (hf : ∀ (t : Tab α) (b : β), Tab.sorted t = true → Tab.sorted (f t b) = true)
    (h : Tab.sorted t = true) : Tab.sorted (l.foldl f t) = true :=
  List.foldlRecOn l f (motive := fun t => Tab.sorted t = true) h fun t h b _ => hf t b h

theorem Tab.sorted_map {f : Nat × α → α} (h : Tab.sorted t = true) : Tab.sorted (t.map fun e => (e.1, f e) : Tab α) = true := by
  simp only [Tab.sorted, decide_eq_true_eq, List.pairwise_map] at h ⊢
  exact h

variable [DecidableEq α]

theorem Tab.sorted_modify {k : Nat} {f : α → α} (h : Tab.sorted t = true) : Tab.sorted (Tab.modify d t k f) = true := Tab.sorted_set h

/-- Every value of a table after an update is an old one or the one set. -/
theorem Tab.forall_set {P : α → Prop} {k : Nat} {v : α} (h : ∀ e ∈ t, P e.2) (hv : P v) : ∀ e ∈ Tab.set d t k v, P e.2 := by
  intro e he
  rcases Tab.mem_set he with ⟨rfl, _⟩ | he
  · exact hv
  · exact h e he

end

/-- A value read from a table is one listed in it, or the default. -/
theorem Tab.get_of_forall {α : Type} {d : α} {t : Tab α} {P : α → Prop} (hd : P d) (h : ∀ e ∈ t, P e.2) (k : Nat) : P (Tab.get d t k) := by
  rcases Tab.get_mem (d := d) (t := t) (k := k) with h1 | ⟨j, h1⟩
  · rw [h1]; exact hd
  · exact h _ h1

/-- A fold of writes keeps the canonical form of a byte memory. -/
theorem Memory.wf_foldl {β : Type} {f : Mem → β → Mem} {l : List β} {m : Mem} (hf : ∀ (m : Mem) (b : β), Memory.wf m = true → Memory.wf (f m b) = true)
    (h : Memory.wf m = true) : Memory.wf (l.foldl f m) = true :=
  List.foldlRecOn l f (motive := fun m => Memory.wf m = true) h fun m h b _ => hf m b h

/-- Marks of a span are set and cleared unit by unit. -/
theorem Tab.sorted_markSpan {m : Tab Bool} {a n : Nat} {b : Bool} (h : Tab.sorted m = true) : Tab.sorted (markSpan m a n b) = true := by
  refine Tab.sorted_foldl (fun m u h => ?_) h
  split
  · exact Tab.sorted_set h
  · split
    · exact Tab.sorted_set h
    · exact h

theorem Memory.wf_filter {m : Mem} {p : Nat × Byte → Bool} (h : Memory.wf m = true) : Memory.wf (m.filter p) = true := by
  obtain ⟨h1, h2⟩ := Tab.wf_iff.1 h
  exact Tab.wf_iff.2 ⟨Tab.sorted_filter h1, fun e he => h2 e (List.mem_of_mem_filter he)⟩

/-! ## Tiles -/

/-- A locket slot in canonical form. -/
structure Slot.Sound (x : Slot) : Prop where
  image : Memory.wf x.image = true
  marks : Tab.sorted x.marks = true

theorem Slot.sound_iff {x : Slot} : x.Sound ↔ x.canonical = true := by
  rw [Slot.canonical, Bool.and_eq_true]
  exact ⟨fun h => ⟨h.image, h.marks⟩, fun h => ⟨h.1, h.2⟩⟩

/-- A tile's storage in canonical form, store by store. -/
structure Tile.Sound (t : Tile) : Prop where
  spad : Memory.wf t.spad = true
  vbuf : Memory.wf t.vbuf = true
  spadMarks : Tab.sorted t.spadMarks = true
  vbufMarks : Tab.sorted t.vbufMarks = true
  masks : Tab.sorted t.masks = true
  maskMarks : Tab.sorted t.maskMarks = true
  acc : Tab.sorted t.acc = true
  accMarks : Tab.sorted t.accMarks = true
  tableStore : Tab.sorted t.tableStore = true
  tableMarks : Tab.sorted t.tableMarks = true
  angle : Tab.sorted t.angle = true
  syncCount : Tab.sorted t.syncCount = true
  syncThresh : Tab.sorted t.syncThresh = true
  locket : Tab.sorted t.locket = true
  slots : ∀ e ∈ t.locket, e.2.Sound

theorem Tile.sound_iff {t : Tile} : t.Sound ↔ t.canonical = true := by
  simp only [Tile.canonical, Bool.and_eq_true, List.all_eq_true, ← Slot.sound_iff]
  constructor
  · rintro ⟨h1, h2, h3, h4, h5, h6, h7, h8, h9, h10, h11, h12, h13, h14, h15⟩
    exact ⟨⟨⟨⟨⟨⟨⟨⟨⟨⟨⟨⟨⟨⟨h1, h2⟩, h3⟩, h4⟩, h5⟩, h6⟩, h7⟩, h8⟩, h9⟩, h10⟩, h11⟩, h12⟩, h13⟩, h14⟩, h15⟩
  · rintro ⟨⟨⟨⟨⟨⟨⟨⟨⟨⟨⟨⟨⟨⟨h1, h2⟩, h3⟩, h4⟩, h5⟩, h6⟩, h7⟩, h8⟩, h9⟩, h10⟩, h11⟩, h12⟩, h13⟩, h14⟩, h15⟩
    exact ⟨h1, h2, h3, h4, h5, h6, h7, h8, h9, h10, h11, h12, h13, h14, h15⟩

theorem Tile.Sound.empty : Tile.empty.Sound := Tile.sound_iff.2 Tile.canonical_empty

theorem Tile.Sound.ite {t u : Tile} {c : Prop} [Decidable c] (h : t.Sound) (h' : u.Sound) : (if c then t else u).Sound := by
  split
  · exact h
  · exact h'

theorem Tile.Sound.foldl {α : Type} {f : Tile → α → Tile} {l : List α} {t : Tile} (h : t.Sound) (hf : ∀ (t : Tile) (a : α), t.Sound → (f t a).Sound) :
    (l.foldl f t).Sound :=
  List.foldlRecOn l f (motive := Tile.Sound) h fun t h a _ => hf t a h

/-- A fold over a tile that counts beside it. -/
theorem Tile.Sound.foldl_fst {α β : Type} {f : Tile × β → α → Tile × β} {l : List α} {t : Tile} {b : β} (h : t.Sound)
    (hf : ∀ (x : Tile × β) (a : α), x.1.Sound → (f x a).1.Sound) : (l.foldl f (t, b)).1.Sound :=
  List.foldlRecOn l f (motive := fun x => x.1.Sound) h fun x h a _ => hf x a h

theorem Slot.Sound.empty : Slot.empty.Sound := ⟨rfl, rfl⟩

theorem Tile.Sound.slot {t : Tile} {k : Nat} (h : t.Sound) : (t.slot k).Sound := Tab.get_of_forall Slot.Sound.empty h.slots k

/-- The operations in flight of a tile are no store of it. -/
theorem Tile.Sound.withOps {t : Tile} {l : List Op} {n : Nat} (h : t.Sound) : ({ t with ops := l, nextOp := n } : Tile).Sound := { h with }

/-! ## The block -/

/-- The block's stores in canonical form, store by store; where `C` holds, pool 0 of the audit is conserved as well (R400). -/
structure State.Sound (C : Prop) (s : State) : Prop where
  regs : Tab.sorted s.regs = true
  mem : Memory.wf s.mem = true
  host : Memory.wf s.host = true
  tiles : Tab.sorted s.tiles = true
  each : ∀ e ∈ s.tiles, e.2.Sound
  thermal : Tab.sorted s.power.thermal = true
  fenceItems : Tab.sorted s.fenceItems = true
  memPoison : Tab.sorted s.memPoison = true
  memDamage : Tab.sorted s.memDamage = true
  queues : Tab.sorted s.chans.queues = true
  stuckCells : Tab.sorted s.chans.stuckCells = true
  failedPins : Tab.sorted s.chans.failedPins = true
  links : Tab.sorted s.links = true
  images : Tab.sorted s.sec.slots = true
  audit : Tab.sorted s.audit = true
  conserved : C → s.itemsConserved

theorem State.sound_iff {C : Prop} {s : State} : s.Sound C ↔ s.canonical = true ∧ (C → s.itemsConserved) := by
  simp only [State.canonical_iff, ← Tile.sound_iff]
  constructor
  · rintro ⟨h1, h2, h3, h4, h5, h6, h7, h8, h9, h10, h11, h12, h13, h14, h15, hc⟩
    exact ⟨⟨h1, h2, h3, h4, h5, h6, h7, h8, h9, h10, h11, h12, h13, h14, h15⟩, hc⟩
  · rintro ⟨⟨h1, h2, h3, h4, h5, h6, h7, h8, h9, h10, h11, h12, h13, h14, h15⟩, hc⟩
    exact ⟨h1, h2, h3, h4, h5, h6, h7, h8, h9, h10, h11, h12, h13, h14, h15, hc⟩

@[simp] theorem Item.addStatus_fn (i : Item) (st : Nat) : (i.addStatus st).fn = i.fn := by
  unfold Item.addStatus; split <;> rfl
@[simp] theorem Item.addNote_fn (i : Item) (b : Nat) : (i.addNote b).fn = i.fn := by
  unfold Item.addNote; split <;> rfl

/-! ## Pool 0 of the audit -/

/-- What conservation reads of an item. -/
def Item.owner (i : Item) : Nat × Nat := (i.id, i.fn)

theorem Item.filter_owner (f : Nat) (l : List Item) : (l.filter fun i => i.fn == f).length = (l.map Item.owner).countP fun x => x.2 == f := by
  rw [List.countP_map, List.countP_eq_length_filter]; rfl

/-- Another pool's index is another key than an index of pool 0. -/
theorem auditKey_ne {pool idx f : Nat} (hp : pool ≠ 0) (hf : f < 64) : auditKey 0 f ≠ auditKey pool idx := by unfold auditKey; omega

/-- Conservation depends on the owners of the items in any order, on the next number and on the counts of pool 0. -/
theorem State.itemsConserved.of_same {s u : State} (h : s.itemsConserved) (hi : (u.items.map Item.owner).Perm (s.items.map Item.owner))
    (hn : u.nextItem = s.nextItem) (ha : ∀ f, f < 64 → Tab.get (0, 0, 0) u.audit (auditKey 0 f) = Tab.get (0, 0, 0) s.audit (auditKey 0 f)) :
    u.itemsConserved := by
  obtain ⟨hid, hlt, hcount⟩ := h
  have hids : ∀ l : List Item, l.map (·.id) = (l.map Item.owner).map Prod.fst := fun l => by rw [List.map_map]; rfl
  refine ⟨?_, fun i hm => ?_, fun f hf => ?_⟩
  · rw [hids] at hid ⊢
    exact ((hi.map Prod.fst).nodup_iff).2 hid
  · obtain ⟨j, hj, he⟩ := List.mem_map.1 (hi.mem_iff.1 (List.mem_map_of_mem hm))
    obtain ⟨hid', hfn⟩ := Prod.mk.inj he
    rw [hn, ← hid', ← hfn]
    exact hlt j hj
  · rw [ha f hf, Item.filter_owner, hi.countP_eq, ← Item.filter_owner]
    exact hcount f hf

/-- Items whose owners stay are conserved. -/
theorem State.itemsConserved.map_items {s u : State} {f : Item → Item} (h : s.itemsConserved) (hf : ∀ i, (f i).id = i.id ∧ (f i).fn = i.fn)
    (hi : u.items = s.items.map f) (hn : u.nextItem = s.nextItem) (ha : u.audit = s.audit) : u.itemsConserved := by
  refine h.of_same (.of_eq ?_) hn fun _ _ => by rw [ha]
  rw [hi, List.map_map]
  exact List.map_congr_left fun i _ => Prod.ext (hf i).1 (hf i).2

/-- The item of a number leaves, and its context's count is given back. -/
theorem State.itemsConserved.leave {s u : State} {j : Item} (h : s.itemsConserved) (hs : Tab.sorted s.audit = true) (hj : j ∈ s.items)
    (hi : u.items = s.items.filter fun i => i.id != j.id) (hn : u.nextItem = s.nextItem) (ha : u.audit = (s.give 0 j.fn 1).audit) : u.itemsConserved := by
  obtain ⟨hid, hlt, hcount⟩ := h
  have hperm : s.items.Perm (j :: u.items) := by
    rw [hi]
    refine (List.perm_cons_erase hj).trans (.cons j (.of_eq ?_))
    rw [List.Nodup.erase_eq_filter (.of_map _ hid)]
    refine List.filter_congr fun i hm => Bool.eq_iff_iff.2 ?_
    have hinj : i.id = j.id ↔ i = j := ⟨List.inj_on_of_nodup_map hid hm hj, congrArg Item.id⟩
    simp [hinj]
  refine ⟨?_, fun i hm => ?_, fun f hf => ?_⟩
  · exact (List.nodup_cons.1 ((hperm.map (·.id)).nodup_iff.1 hid)).2
  · rw [hn]
    exact hlt i (hperm.mem_iff.2 (List.mem_cons_of_mem _ hm))
  · have hlen : (s.items.filter fun i => i.fn == f).length = (if j.fn = f then 1 else 0) + (u.items.filter fun i => i.fn == f).length := by
      rw [(hperm.filter _).length_eq, List.filter_cons]
      by_cases he : j.fn = f <;> simp [he, Nat.add_comm]
    obtain ⟨hissued, hheld⟩ := hcount f hf
    rw [ha]
    by_cases he : j.fn = f
    · rw [State.give, Tab.modify, he, Tab.get_set_self hs]
      rw [if_pos he] at hlen
      constructor <;> dsimp only <;> omega
    · have hne : auditKey 0 f ≠ auditKey 0 j.fn := by unfold auditKey; omega
      rw [State.give, Tab.modify, Tab.get_set_other hs hne]
      rw [if_neg he] at hlen
      exact ⟨hissued, by omega⟩

/-- A new item comes with the next number, and its context's count is taken. -/
theorem State.itemsConserved.come {s u : State} {j : Item} (h : s.itemsConserved) (hs : Tab.sorted s.audit = true) (hid : j.id = s.nextItem) (hf : j.fn < 64)
    (hi : u.items = s.items ++ [j]) (hn : u.nextItem = s.nextItem + 1) (ha : u.audit = (s.issue 0 j.fn 1).audit) : u.itemsConserved := by
  obtain ⟨hnodup, hlt, hcount⟩ := h
  refine ⟨?_, fun i hm => ?_, fun f hf64 => ?_⟩
  · rw [hi, List.map_append]
    refine List.nodup_append'.2 ⟨hnodup, List.nodup_singleton _, fun n hm hm' => ?_⟩
    obtain ⟨i, hi', rfl⟩ := List.mem_map.1 hm
    have := (hlt i hi').1
    simp only [List.map_cons, List.map_nil, List.mem_singleton] at hm'
    omega
  · rw [hi, List.mem_append, List.mem_singleton] at hm
    rw [hn]
    rcases hm with hm | rfl
    · exact ⟨Nat.lt_succ_of_lt (hlt i hm).1, (hlt i hm).2⟩
    · exact ⟨by omega, hf⟩
  · have hlen : (u.items.filter fun i => i.fn == f).length = (s.items.filter fun i => i.fn == f).length + (if j.fn = f then 1 else 0) := by
      rw [hi, List.filter_append, List.length_append]
      by_cases he : j.fn = f <;> simp [he]
    obtain ⟨hissued, hheld⟩ := hcount f hf64
    rw [ha]
    by_cases he : j.fn = f
    · rw [State.issue, Tab.modify, he, Tab.get_set_self hs]
      rw [if_pos he] at hlen
      constructor <;> dsimp only <;> omega
    · have hne : auditKey 0 f ≠ auditKey 0 j.fn := by unfold auditKey; omega
      rw [State.issue, Tab.modify, Tab.get_set_other hs hne]
      rw [if_neg he] at hlen
      exact ⟨hissued, by omega⟩

/-! ## Updates of the block -/

namespace State.Sound

variable {C : Prop} {s u : State}

theorem tile (h : s.Sound C) {p : Nat} : (s.tile p).Sound := Tab.get_of_forall Tile.Sound.empty h.each p

theorem ite {c : Prop} [Decidable c] (h : s.Sound C) (h' : u.Sound C) : (if c then s else u).Sound C := by
  split
  · exact h
  · exact h'

theorem foldl {α : Type} {f : State → α → State} {l : List α} (h : s.Sound C) (hf : ∀ (s : State) (a : α), s.Sound C → (f s a).Sound C) :
    (l.foldl f s).Sound C :=
  List.foldlRecOn l f (motive := State.Sound C) h fun s h a _ => hf s a h

/-- A fold that collects something beside the state. -/
theorem foldl_snd {α β : Type} {f : β × State → α → β × State} {l : List α} {b : β} (h : s.Sound C)
    (hf : ∀ (x : β × State) (a : α), x.2.Sound C → (f x a).2.Sound C) : (l.foldl f (b, s)).2.Sound C :=
  List.foldlRecOn l f (motive := fun x => x.2.Sound C) h fun x h a _ => hf x a h

/-- A fold that counts beside the state. -/
theorem foldl_fst {α β : Type} {f : State × β → α → State × β} {l : List α} {b : β} (h : s.Sound C)
    (hf : ∀ (x : State × β) (a : α), x.1.Sound C → (f x a).1.Sound C) : (l.foldl f (s, b)).1.Sound C :=
  List.foldlRecOn l f (motive := fun x => x.1.Sound C) h fun x h a _ => hf x a h

theorem setFld {f : Field} {i v : Nat} (h : s.Sound C) : (s.setFld f i v).Sound C := { h with regs := Tab.sorted_set h.regs }

theorem setFlag {f : Field} {i : Nat} {b : Bool} (h : s.Sound C) : (s.setFlag f i b).Sound C := h.setFld

theorem addFld {f : Field} {i n : Nat} (h : s.Sound C) : (s.addFld f i n).Sound C := h.setFld

theorem bump {f : Field} {i n : Nat} (h : s.Sound C) : (s.bump f i n).Sound C := h.ite h.setFld

theorem journal {ty : Nat} {args : List Nat} (h : s.Sound C) : (s.journal ty args).Sound C := { h with }

theorem event {ctx c r n : Nat} (h : s.Sound C) : (s.event ctx c r n).Sound C := { h with }

theorem setTile {p : Nat} {tl : Tile} (h : s.Sound C) (ht : tl.Sound) : (s.setTile p tl).Sound C :=
  { h with tiles := Tab.sorted_set h.tiles, each := Tab.forall_set h.each ht }

/-- The counts of another pool than pool 0 change. -/
theorem setAudit {pool idx : Nat} {c : Nat × Nat × Nat} (h : s.Sound C) (hp : pool ≠ 0) :
    ({ s with audit := Tab.set (0, 0, 0) s.audit (auditKey pool idx) c } : State).Sound C :=
  { h with
    audit := Tab.sorted_set h.audit
    conserved := fun hC => (h.conserved hC).of_same (.refl _) rfl fun _ hf => Tab.get_set_other h.audit (auditKey_ne hp hf) }

theorem issue {pool idx n : Nat} (h : s.Sound C) (hp : pool ≠ 0 := by simp) : (s.issue pool idx n).Sound C := h.setAudit hp

theorem give {pool idx n : Nat} (h : s.Sound C) (hp : pool ≠ 0 := by simp) : (s.give pool idx n).Sound C := h.setAudit hp

theorem auditFresh {pool idx : Nat} (h : s.Sound C) (hp : pool ≠ 0 := by simp) : (s.auditFresh pool idx).Sound C := h.setAudit hp

theorem modItem {id : Nat} {f : Item → Item} (h : s.Sound C) (hf : ∀ i, (f i).id = i.id ∧ (f i).fn = i.fn := by simp) : (s.modItem id f).Sound C :=
  { h with
    conserved := fun hC => (h.conserved hC).map_items (f := fun i => if i.id = id then f i else i) (fun i => by
      split
      · exact hf i
      · exact ⟨rfl, rfl⟩) rfl rfl rfl }

/-- The items of a number move behind the others. -/
theorem requeue {id : Nat} {f : Item → Item} (h : s.Sound C) (hf : ∀ i, (f i).id = i.id ∧ (f i).fn = i.fn := by simp) : (s.requeue id f).Sound C := by
  refine { h with conserved := fun hC => (h.conserved hC).of_same ?_ rfl fun _ _ => rfl }
  have howner : Item.owner ∘ f = Item.owner := funext fun i => Prod.ext (hf i).1 (hf i).2
  show ((s.items.filter (fun i => i.id != id) ++ (s.items.filter (fun i => i.id == id)).map f).map Item.owner).Perm _
  rw [List.map_append, List.map_map, howner, ← List.map_append]
  exact (List.perm_append_comm.trans (List.filter_append_perm ..)).map Item.owner

theorem setLink {l : Nat} {k : Link} (h : s.Sound C) : (s.setLink l k).Sound C := { h with links := Tab.sorted_set h.links }

/-! Parts of the block that hold no store and no item. -/

theorem withFns {x : Functions} (h : s.Sound C) : ({ s with fns := x } : State).Sound C := { h with }

theorem withAssay {x : Assay} (h : s.Sound C) : ({ s with assay := x } : State).Sound C := { h with }

theorem withPins {x : Pins} (h : s.Sound C) : ({ s with pins := x } : State).Sound C := { h with }

theorem withWaiting {x : List Instr} (h : s.Sound C) : ({ s with waiting := x } : State).Sound C := { h with }

theorem withInbound {x : List (Nat × Packet)} (h : s.Sound C) : ({ s with inbound := x } : State).Sound C := { h with }

theorem withDelivered {x : Tab (List Nat)} (h : s.Sound C) : ({ s with deliveredSeqs := x } : State).Sound C := { h with }

theorem withPeerRefs {x : Tab (Option PeerRef)} (h : s.Sound C) : ({ s with peerRefs := x } : State).Sound C := { h with }

/-- The security state changes without the slots of images. -/
theorem withSec {x : Security} (h : s.Sound C) (hx : x.slots = s.sec.slots) : ({ s with sec := x } : State).Sound C := { h with images := hx ▸ h.images }

/-- The power state changes without the thermal set-points. -/
theorem withPower {x : Power} (h : s.Sound C) (hx : x.thermal = s.power.thermal) : ({ s with power := x } : State).Sound C :=
  { h with thermal := hx ▸ h.thermal }

theorem reset : State.reset.Sound C :=
  ⟨rfl, rfl, rfl, rfl, List.forall_mem_nil _, rfl, rfl, rfl, rfl, rfl, rfl, rfl, rfl, rfl, rfl,
    fun _ => ⟨List.nodup_nil, List.forall_mem_nil _, fun _ _ => ⟨rfl, rfl⟩⟩⟩

end State.Sound

/-- What a command answers, if it answers a next state, is sound. -/
def Keeps (C : Prop) (o : Out State) : Prop := ∀ u, o = .next u → u.Sound C

theorem Keeps.next {C : Prop} {s : State} (h : s.Sound C) : Keeps C (.next s) := fun _ he => Host.Outcome.next.inj he ▸ h

theorem Keeps.ite {C c : Prop} [Decidable c] {x y : Out State} (hx : Keeps C x) (hy : Keeps C y) : Keeps C (if c then x else y) := by
  split
  · exact hx
  · exact hy

end Sys2Proof.Machine
end

section
/-! SUPPORT. The canonical form store by store: the rules for messages, items, device memory, pools and the fault paths (O3). -/

namespace Sys2Proof.Machine

-- One declaration after another: each blocked elaboration thread holds a stack, which the check's memory limit counts.
set_option Elab.async false

variable {C : Prop} {s : State}

/-! ## Effects on the block -/

theorem Keeps.onUnit {ok : Bool} {w : String} {k : Out State} (h : Keeps C k) : Keeps C (onUnit ok w k) := fun _ he => h _ (onUnit_next.1 he).2

theorem Keeps.whenever {c : Bool} {u : State} (h : s.Sound C) (h' : u.Sound C) : Keeps C (whenever c s u) := .next (h'.ite h)

/-! ## Messages -/

theorem State.Sound.oweCredit {l : Nat} {p : Packet} (h : s.Sound C) : (s.oweCredit l p).Sound C := h.setLink.ite h

theorem State.Sound.enqueue {l src : Nat} {p : Packet} (h : s.Sound C) : (s.enqueue l src p).Sound C := h.setLink

theorem State.Sound.inject {p : Packet} {port : Option Nat} (h : s.Sound C) : (s.inject p port).1.Sound C := by
  unfold State.inject
  split
  · dsimp only
    exact { h with }
  · dsimp only
    split
    · dsimp only
      exact h.enqueue
    · dsimp only
      exact h

theorem State.Sound.send {p : Packet} (h : s.Sound C) : (s.send p).Sound C := h.inject

theorem State.Sound.sendNotice {p : Packet} (h : s.Sound C) : (s.sendNotice p).Sound C := h.bump.ite h.inject

theorem State.Sound.reply {req : Packet} {type reason chunk : Nat} (h : s.Sound C) : (s.reply req type reason chunk).Sound C := h.send

theorem State.Sound.dropForward {p : Packet} (h : s.Sound C) : (s.dropForward p).Sound C := h.bump.bump.ite h.bump.sendNotice

/-! ## Items -/

theorem State.Sound.addStatus {id st : Nat} (h : s.Sound C) : (s.addStatus id st).Sound C := h.modItem

theorem State.Sound.addNote {id b : Nat} (h : s.Sound C) : (s.addNote id b).Sound C := h.modItem

theorem State.Sound.consumed {id : Nat} {m : Bool} (h : s.Sound C) : (s.consumed id m).Sound C := h.addStatus.ite h

theorem State.Sound.endItem {id : Nat} (h : s.Sound C) : (s.endItem id).Sound C := by
  unfold State.endItem
  split
  · exact h
  · exact h.ite h.requeue

theorem State.Sound.setPhase {id : Nat} {p : Phase} (h : s.Sound C) : (s.setPhase id p).Sound C := h.modItem

theorem State.Sound.reject {id cause : Nat} (h : s.Sound C) : (s.reject id cause).Sound C := h.modItem.endItem

theorem State.Sound.runBound {tenant id : Nat} (h : s.Sound C) : (s.runBound tenant id).Sound C := h.bump.modItem

theorem State.Sound.setBoard {tenant handle : Nat} {b : Option Board} (h : s.Sound C) : (s.setBoard tenant handle b).Sound C := { h with }

theorem State.Sound.modBoard {tenant handle : Nat} {f : Board → Board} (h : s.Sound C) : (s.modBoard tenant handle f).Sound C := h.setBoard

theorem State.Sound.tileEvent {p class_ n : Nat} (h : s.Sound C) : (s.tileEvent p class_ n).Sound C := h.event

theorem State.Sound.staticEvent {p : Nat} (h : s.Sound C) : (s.staticEvent p).Sound C := by
  unfold State.staticEvent
  split
  · exact h.event
  · exact h

theorem Keeps.onTile {t : Nat} {k : Nat → Tile → Out State} (h : s.Sound C) (hk : ∀ p, Keeps C (k p (s.tile p))) : Keeps C (onTile t s k) := by
  refine .onUnit ?_
  split
  · exact .next h
  · exact .ite (hk _) (.next h)

theorem Tile.Sound.endPart {t : Tile} (h : t.Sound) : t.endPart.Sound := { h with syncCount := rfl, locket := rfl, slots := List.forall_mem_nil _ }

theorem State.Sound.endPart {t p : Nat} (h : s.Sound C) : (s.endPart t p).Sound C :=
  .setTile (h.staticEvent.give.give.foldl (fun _ _ h => by
    split
    · exact h.give
    · exact h)) h.tile.endPart

theorem State.Sound.endAllParts {id : Nat} (h : s.Sound C) : (s.endAllParts id).Sound C :=
  h.foldl fun _ _ h => by
    split
    · exact h.endPart
    · exact h

theorem State.Sound.sendAborts {tenant : Nat} {b : Board} {cseq reason : Nat} (h : s.Sound C) : (s.sendAborts tenant b cseq reason).Sound C :=
  h.foldl fun _ _ h => h.send

theorem State.Sound.stopPart {id status : Nat} (h : s.Sound C) : (s.stopPart id status).Sound C := by
  unfold State.stopPart
  split
  · exact h
  · split
    · exact h.addStatus.ite (.endItem (.addStatus (.sendAborts { h.endAllParts with })))
    · exact h

theorem State.Sound.keepKey {i : Item} {l : Launch} {status : Nat} (h : s.Sound C) : (s.keepKey i l status).Sound C := { h with }

theorem State.Sound.failPart {id status : Nat} (h : s.Sound C) : (s.failPart id status).Sound C := by
  unfold State.failPart
  split
  · exact h
  · split
    · exact h.addStatus.ite (h.keepKey.bump.ite h.keepKey).stopPart
    · exact h

/-! ## Operating points -/

theorem State.Sound.applyPoint {r : Nat} (h : s.Sound C) : (s.applyPoint r).Sound C := h.setFld.setFlag.setFlag

theorem State.Sound.applyPoints (h : s.Sound C) : s.applyPoints.Sound C := h.foldl fun _ _ h => h.applyPoint

theorem State.Sound.stir (h : s.Sound C) : s.stir.Sound C := { h with }

theorem State.Sound.idleTick (h : s.Sound C) : s.idleTick.Sound C :=
  h.stir.ite (by
    split
    · exact h
    · exact { h with })

theorem State.Sound.startWake (h : s.Sound C) : s.startWake.Sound C := h.setFlag.applyPoints.ite h

theorem Keeps.onAwake {k : State → State} (h : s.Sound C) (hk : (k s).Sound C) : Keeps C (onAwake s k) := .next (hk.ite h.startWake)

theorem State.Sound.await {c : Instr} (h : s.Sound C) : (s.await c).Sound C := .ite { h.startWake with } h

theorem Keeps.onAccess {c : Instr} {k : State → State} (h : s.Sound C) (hk : (k s).Sound C) : Keeps C (onAccess c s k) := .next (hk.ite h.await)

/-! ## Device memory -/

theorem State.Sound.queueRepair {a : Nat} (h : s.Sound C) : (s.queueRepair a).Sound C := h.ite (.ite { h with } h.bump)

theorem State.Sound.damageCells {c cw : Nat} {x : Strike} (h : s.Sound C) : (s.damageCells c cw x).Sound C := by
  unfold State.damageCells
  extract_lets k more
  split
  · exact { h with memDamage := Tab.sorted_set h.memDamage }
  · exact { h with stuckCells := Tab.sorted_set h.stuckCells }
  · exact { h with failedPins := Tab.sorted_set h.failedPins }

theorem State.Sound.putArray {c cw : Nat} {bytes : List Byte} {poison : Bool} (h : s.Sound C) : (s.putArray c cw bytes poison).Sound C :=
  { h with mem := Memory.wf_writeRange h.mem, memPoison := Tab.sorted_set h.memPoison, memDamage := Tab.sorted_set h.memDamage }

theorem State.Sound.slots {write : Bool} {ctx a n : Nat} (h : s.Sound C) : (s.slots write ctx a n).Sound C := h.event

theorem State.Sound.bursts {ctx a n : Nat} (h : s.Sound C) : (s.bursts ctx a n).Sound C := h.slots

theorem State.Sound.storeBursts {ctx a n : Nat} (h : s.Sound C) : (s.storeBursts ctx a n).Sound C := h.slots

theorem State.Sound.dropLate {l : Nat} (h : s.Sound C) : (s.dropLate l).Sound C := .bump { h with }

theorem State.Sound.setFill {l : Nat} {f : Option (Nat × Nat)} (h : s.Sound C) : (s.setFill l f).Sound C := { h with }

theorem State.Sound.departs {c : Nat} (h : s.Sound C) : (s.departs c).Sound C := { h with }

theorem State.Sound.passEnd (h : s.Sound C) : s.passEnd.Sound C := .ite (.bump { h with }) h

theorem State.Sound.fillDone {lchan sp : Nat} (h : s.Sound C) : (s.fillDone lchan sp).Sound C := h.setFill.setFld.journal

theorem State.Sound.endMigration {stack : Nat} (h : s.Sound C) : (s.endMigration stack).Sound C := { h with }

theorem State.Sound.failBound {c : Nat} (h : s.Sound C) : (s.failBound c).Sound C := by
  unfold State.failBound
  split
  · exact h.journal
  · split
    · exact h.setFld.setFld.setFill.journal
    · exact h.setFlag.setFlag.setFill.dropLate.journal

theorem State.Sound.failHard {c : Nat} (h : s.Sound C) : (s.failHard c).Sound C := by
  unfold State.failHard
  have hleft : ((if (s.slotOf c).isSome then s.departs c else s).setFld Fld.memChstatState c 4).Sound C := (h.departs.ite h).setFld
  extract_lets u
  refine State.Sound.passEnd ?_
  split
  · refine .ite hleft.endMigration.journal (.ite ?_ hleft.failBound)
    exact hleft.endMigration.setFld.setFill.journal.ite hleft.endMigration.setFld.journal.fillDone
  · exact hleft.failBound

theorem State.Sound.checkUeWin {c : Nat} (h : s.Sound C) : (s.checkUeWin c).Sound C := h.failHard.ite h

theorem State.Sound.countCe {c : Nat} (h : s.Sound C) : (s.countCe c).Sound C := h.bump.bump

theorem State.Sound.countUe {c cw : Nat} (h : s.Sound C) : (s.countUe c cw).Sound C := h.bump.bump.putArray

theorem State.Sound.decodeCw {c cw : Nat} (h : s.Sound C) : (s.decodeCw c cw).Sound C := by
  unfold State.decodeCw
  split
  · exact h
  · exact h.countCe.putArray
  · exact h.countUe
  · split
    · exact .countUe { h with }
    · exact .putArray (.countCe { h with })

theorem State.Sound.poisonDelivered {a : Nat} (h : s.Sound C) : (s.poisonDelivered a).Sound C := h.bump.queueRepair

theorem State.Sound.readCw {a : Nat} (h : s.Sound C) : (s.readCw a).2.2.Sound C := by
  unfold State.readCw
  split
  · dsimp only
    exact h.bump
  · dsimp only
    split
    · dsimp only
      exact h.poisonDelivered
    · dsimp only
      exact h.poisonDelivered
    · dsimp only
      exact (h.decodeCw.poisonDelivered.ite h.decodeCw).checkUeWin

theorem State.Sound.writeOn {c cw o : Nat} {bytes : List Byte} {mark : Bool} (h : s.Sound C) : (s.writeOn c cw o bytes mark).Sound C :=
  (h.ite h.decodeCw).putArray.checkUeWin

theorem State.Sound.writeBoth {lchan c cw o : Nat} {bytes : List Byte} {mark : Bool} (h : s.Sound C) :
    (s.writeBoth lchan c cw o bytes mark).Sound C := by
  unfold State.writeBoth
  split
  · exact h.writeOn
  · exact h.writeOn.writeOn

theorem State.Sound.writeLater {w : LateWrite} (h : s.Sound C) : (s.writeLater w).Sound C := { h with }

theorem State.Sound.writeCw {a o : Nat} {bytes : List Byte} {mark : Bool} (h : s.Sound C) : (s.writeCw a o bytes mark).Sound C :=
  h.bump.ite (by
    split
    split
    · exact h.bump
    · exact h.writeLater
    · exact h.writeLater.ite h.writeBoth)

theorem State.Sound.accepted {v : State} (h : s.Sound C) (hv : v.Sound C) : (s.accepted v).Sound C := h.ite hv

theorem Keeps.accepting {o : Out State} (h : s.Sound C) (ho : Keeps C o) : Keeps C (s.accepting o) := by
  unfold State.accepting
  split
  · exact .next (h.accepted (ho _ rfl))
  · exact ho

theorem State.Sound.lateWrites (h : s.Sound C) : s.lateWrites.Sound C :=
  .foldl { h with } fun _ _ h => by
    split
    · exact h.bump
    · exact h.writeLater
    · exact h.writeLater.ite h.writeBoth

theorem State.Sound.setQueues {l : Nat} {q : List MemReq × List MemReq} {run : Nat} (h : s.Sound C) : (s.setQueues l q run).Sound C :=
  { h with queues := Tab.sorted_set h.queues }

theorem State.Sound.joinQueue {q : MemReq} (h : s.Sound C) : (s.joinQueue q).Sound C := h.setQueues

theorem State.Sound.fetchCw {a n : Nat} {p : Nat × Nat × Nat} (h : s.Sound C) : (s.fetchCw a n p).2.2.Sound C := by
  unfold State.fetchCw
  split
  · dsimp only
    exact h.joinQueue
  · exact h.readCw

theorem State.Sound.storeCw {a n : Nat} {p : Nat × Nat × Nat} {bytes : List Byte} {mark : Bool} (h : s.Sound C) :
    (s.storeCw a n p bytes mark).Sound C :=
  h.joinQueue.ite h.writeCw

theorem State.Sound.memRead {a n : Nat} (h : s.Sound C) : (s.memRead a n).2.Sound C := h.foldl_snd fun _ _ h => h.fetchCw

theorem State.Sound.memTake {a n : Nat} (h : s.Sound C) : (s.memTake a n).2.2.Sound C := h.memRead

theorem State.Sound.memWrite {a : Nat} {bytes : List Byte} (h : s.Sound C) : (s.memWrite a bytes).Sound C := h.foldl fun _ _ h => h.storeCw

theorem State.Sound.memWriteMarked {a : Nat} {bytes : List (Byte × Bool)} (h : s.Sound C) : (s.memWriteMarked a bytes).Sound C :=
  h.foldl fun _ _ h => h.storeCw

theorem State.Sound.takeFor {ctx a n : Nat} (h : s.Sound C) : (s.takeFor ctx a n).2.2.Sound C := h.bursts.memTake

theorem State.Sound.storeFor {ctx a : Nat} {bytes : List Byte} (h : s.Sound C) : (s.storeFor ctx a bytes).Sound C := h.storeBursts.memWrite

theorem State.Sound.storeMarked {ctx a : Nat} {bytes : List (Byte × Bool)} (h : s.Sound C) : (s.storeMarked ctx a bytes).Sound C :=
  h.storeBursts.memWriteMarked

theorem State.Sound.putNatFor {ctx a n v : Nat} (h : s.Sound C) : (s.putNatFor ctx a n v).Sound C := h.storeFor

theorem State.Sound.repairCw {a : Nat} {bytes : List Byte} (h : s.Sound C) : (s.repairCw a bytes).Sound C :=
  h.ite (by
    dsimp only
    split
    · exact h.storeCw.ite h
    · exact h
    · exact h)

theorem State.Sound.modRepair {g : Nat} {f : Repair → Repair} (h : s.Sound C) : (s.modRepair g f).Sound C := { h with }

theorem State.Sound.endRepair {g : Nat} {f : Field} (h : s.Sound C) : (s.endRepair g f).Sound C := .stir (.bump { h with })

theorem State.Sound.repairDone {g : Nat} (h : s.Sound C) : (s.repairDone g).Sound C := by
  unfold State.repairDone
  split
  · exact h
  · exact h.endRepair.ite h

theorem State.Sound.repairPart {g off : Nat} {bytes : List Byte} (h : s.Sound C) : (s.repairPart g off bytes).Sound C :=
  (h.event.foldl (fun _ _ h => h.repairCw)).modRepair.repairDone

theorem State.Sound.lateRepairs (h : s.Sound C) : s.lateRepairs.Sound C :=
  h.foldl fun _ _ h => (h.foldl (fun _ _ h => h.repairCw)).modRepair.repairDone

/-- Taking a request from the queues of an engine changes the queues alone. -/
theorem State.Sound.nextRequest {l : Nat} (h : s.Sound C) : ∀ x, s.nextRequest l = some x → x.2.Sound C := by
  intro x hx
  unfold State.nextRequest at hx
  dsimp only at hx
  split at hx
  · exact absurd hx nofun
  · obtain rfl := Option.some.inj hx
    exact h.setQueues
  · obtain rfl := Option.some.inj hx
    exact h.setQueues
  · obtain rfl := Option.some.inj hx
    split
    · exact h.setQueues
    · exact h.setQueues

theorem State.Sound.strike {a : Nat} {damage : Strike} {burstFails : Bool} (h : s.Sound C) : (s.strike a damage burstFails).Sound C :=
  h.ite (by
    split
    · dsimp only
      split
      · exact h.failHard
      · exact h
    · dsimp only
      split
      · exact h.damageCells
      · exact h)

theorem State.Sound.serveRequest {q : MemReq} {x : Strike} {burstFails : Bool} (h : s.Sound C) : (s.serveRequest q x burstFails).Sound C := by
  unfold State.serveRequest
  split
  · exact { h.strike.bursts.readCw with }
  · exact (h.storeBursts.strike.ite h.storeBursts).writeCw.strike.ite h.storeBursts.strike.writeCw

theorem State.Sound.engineStep {q : MemReq} {x : Strike} {burstFails waits : Bool} (h : s.Sound C) : (s.engineStep q x burstFails waits).Sound C := by
  have hv : (if q.len = 0 then s else s.joinQueue q).Sound C := h.ite h.joinQueue
  unfold State.engineStep
  dsimp only
  generalize (if q.len = 0 then s else s.joinQueue q) = v at hv
  split
  · exact h.ite h.serveRequest
  · refine h.ite (hv.ite ?_)
    split
    · exact h
    · next r w hw => exact h.accepted (hv.nextRequest (r, w) hw).serveRequest

theorem State.Sound.execMemCodewordRead {addr len : Nat} {strike : Strike} {burstFails waits : Bool} (h : s.Sound C) :
    Keeps C (execMemCodewordRead addr len strike burstFails waits s) :=
  .onUnit (.whenever h h.engineStep)

theorem State.Sound.execMemCodewordWrite {addr : Nat} {bytes : List Byte} {part : Bool} {strike : Strike} {burstFails waits : Bool} (h : s.Sound C) :
    Keeps C (execMemCodewordWrite addr bytes part strike burstFails waits s) :=
  .onUnit (.whenever h h.engineStep)

theorem State.Sound.scrubSpare {c cw : Nat} {burstFails : Bool} (h : s.Sound C) : (s.scrubSpare c cw burstFails).Sound C :=
  (h.ite h.decodeCw).setFld.journal.ite (h.ite h.decodeCw)

theorem State.Sound.execScrubRead {chan : Nat} {strike : Strike} {burstFails : Bool} (h : s.Sound C) :
    Keeps C (execScrubRead chan strike burstFails s) := by
  refine .onUnit (.whenever h ?_)
  dsimp only
  have hwin : (if Tab.get 0 s.chans.scrubPos chan = 0 then (s.setFld Fld.memChstatCeWin chan 0).setFld Fld.memChstatUeWin chan 0 else s).Sound C :=
    h.setFld.setFld.ite h
  generalize (if Tab.get 0 s.chans.scrubPos chan = 0 then (s.setFld Fld.memChstatCeWin chan 0).setFld Fld.memChstatUeWin chan 0 else s) = u at hwin
  cases u.slotOf chan with
  | none => exact State.Sound.passEnd { hwin.damageCells.event.scrubSpare with }
  | some l => exact State.Sound.passEnd { hwin.strike.bursts.readCw with }

theorem State.Sound.execMigrationStart {lchan : Nat} (h : s.Sound C) : Keeps C (execMigrationStart lchan s) :=
  .onUnit (by
    split
    · exact .next h
    · exact .whenever h (.passEnd { h.setFld with queues := h.queues, stuckCells := h.stuckCells, failedPins := h.failedPins }))

theorem State.Sound.migrationComplete {lchan old sp : Nat} (h : s.Sound C) : (s.migrationComplete lchan old sp).Sound C :=
  .passEnd (.journal (.journal (.setFld (.departs { h.endMigration.setFld.setFld with }))))

theorem State.Sound.copied {lchan sp p : Nat} (h : s.Sound C) : (s.copied lchan sp p).Sound C := { h with }

theorem State.Sound.execMigrationCopyStep {lchan : Nat} {strike : Strike} {oldFails spareFails : Bool} (h : s.Sound C) :
    Keeps C (execMigrationCopyStep lchan strike oldFails spareFails s) :=
  .onUnit (by
    split
    · exact .whenever h (h.failHard.ite
        (h.failHard.ite (h.event.damageCells.event.decodeCw.putArray.copied.checkUeWin.migrationComplete.ite
        h.event.damageCells.event.decodeCw.putArray.copied.checkUeWin)))
    · exact .next h)

theorem State.Sound.execPoisonFillStep {lchan : Nat} {burstFails : Bool} (h : s.Sound C) : Keeps C (execPoisonFillStep lchan burstFails s) :=
  .onUnit (by
    split
    · exact .next h
    · exact .whenever h (h.failHard.ite (h.event.putArray.setFill.ite h.event.putArray.fillDone).lateWrites.lateRepairs))

/-! ## Host memory and control words -/

theorem State.Sound.hostRequests {fn : Nat} {rs : List (CacheReq × Nat)} (h : s.Sound C) : (s.hostRequests fn rs).Sound C := .event { h with }

theorem State.Sound.hostRead {fn a n : Nat} (h : s.Sound C) : (s.hostRead fn a n).2.Sound C := by
  unfold State.hostRead
  split
  · dsimp only
    exact h.bump
  · split
    · exact h
    · dsimp only
      exact h.hostRequests

theorem State.Sound.hostPut {a : Nat} {bytes : List Byte} {mark : Bool} (h : s.Sound C) : (s.hostPut a bytes mark).Sound C :=
  { h with host := Memory.wf_writeRange h.host }

theorem State.Sound.hostWrite {fn a : Nat} {bytes : List Byte} {mark : Bool} (h : s.Sound C) : (s.hostWrite fn a bytes mark).2.Sound C := by
  unfold State.hostWrite
  split
  · dsimp only
    exact h.bump
  · split
    · dsimp only
      exact h
    · dsimp only
      exact h.hostPut.hostRequests

theorem State.Sound.outsideItem {id : Nat} (h : s.Sound C) : (s.outsideItem id).Sound C := h.modItem

theorem State.Sound.protectedWrite {ctx a : Nat} {bytes : List Byte} {mark : Bool} (h : s.Sound C) : (s.protectedWrite ctx a bytes mark).Sound C :=
  h.foldl fun _ _ h => by
    split
    · exact h.bump
    · exact h.event.storeCw

/-! ## Pools -/

theorem State.Sound.setPool {tenant k : Nat} {p : Option Pool} (h : s.Sound C) : (s.setPool tenant k p).Sound C := { h with }

theorem State.Sound.ctrlRead {item : Option Nat} {a n : Nat} (h : s.Sound C) : (s.ctrlRead item a n).2.Sound C := by
  unfold State.ctrlRead
  split
  · dsimp only
    exact h.takeFor.consumed
  · dsimp only
    exact h.takeFor

theorem State.Sound.setPage {ctx : Nat} {p : Pool} {page refs : Nat} {queued : Bool} (h : s.Sound C) : (s.setPage ctx p page refs queued).Sound C :=
  h.putNatFor

theorem State.Sound.releaseGo {tenant k n : Nat} {p : Pool} (h : s.Sound C) : (s.releaseGo tenant k p n).Sound C := by
  induction n generalizing s with
  | zero => exact h
  | succ n ih =>
    unfold State.releaseGo
    dsimp only
    refine h.ctrlRead.ctrlRead.ite (ih (.give (.putNatFor ?_)))
    exact h.ctrlRead.ctrlRead.ctrlRead.setPage.ite h.ctrlRead.ctrlRead

theorem State.Sound.release {tenant k : Nat} (h : s.Sound C) : (s.release tenant k).Sound C := by
  unfold State.release
  split
  · exact h
  · exact h.ctrlRead.ctrlRead.releaseGo

theorem State.Sound.unref {tenant item k : Nat} {p : Pool} {page : Nat} (h : s.Sound C) : (s.unref tenant item k p page).Sound C :=
  h.ctrlRead.ite (h.ctrlRead.setPage.ite h.ctrlRead.ctrlRead.ctrlRead.putNatFor.setPage.putNatFor.release)

theorem State.Sound.firstRef {tenant k : Nat} {p : Pool} {page : Nat} (h : s.Sound C) : (s.firstRef tenant k p page).Sound C := h.setPage.issue

theorem State.Sound.kvSuppress {tenant id : Nat} {f : Field} (h : s.Sound C) : (s.kvSuppress tenant id f).Sound C := h.bump.runBound

theorem State.Sound.kvUse {tenant item seq idx : Nat} {p : Pool} (h : s.Sound C) : (s.kvUse tenant item p seq idx).2.Sound C := by
  unfold State.kvUse
  dsimp only
  split
  · exact h.kvSuppress
  · have hread : (if idx < p.ptEntries then (s.takeFor tenant (p.seqAddr seq) 1).2.2.takeFor tenant (p.ptBase + 8 * idx) 8
        else ([], false, (s.takeFor tenant (p.seqAddr seq) 1).2.2)).2.2.Sound C := by
      split
      · exact h.takeFor.takeFor
      · exact h.takeFor
    generalize (if idx < p.ptEntries then (s.takeFor tenant (p.seqAddr seq) 1).2.2.takeFor tenant (p.ptBase + 8 * idx) 8
      else ([], false, (s.takeFor tenant (p.seqAddr seq) 1).2.2)) = r at hread
    split
    · dsimp only
      exact hread.consumed
    · split
      · dsimp only
        exact hread.bump.addStatus
      · split
        · dsimp only
          exact hread.kvSuppress
        · exact hread

theorem State.Sound.copyPage {ctx : Nat} {p : Pool} {src dst : Nat} (h : s.Sound C) : (s.copyPage ctx p src dst).1.Sound C :=
  h.foldl_fst fun _ _ h => h.bursts.memRead.storeMarked

/-! ## Faults of tiles -/

theorem State.Sound.stopAssayOf {p : Nat} (h : s.Sound C) : (s.stopAssayOf p).Sound C := by
  unfold State.stopAssayOf
  split
  · exact .ite (.journal (.setFld (.setFld { h with }))) h
  · exact h

theorem State.Sound.modeCheck (h : s.Sound C) : s.modeCheck.Sound C := .ite { h with } h

theorem State.Sound.addCarry {c : Carry} (h : s.Sound C) : (s.addCarry c).Sound C := .modeCheck { h with }

theorem State.Sound.tileFailed {_t p : Nat} (h : s.Sound C) : (s.tileFailed _t p).Sound C := by
  unfold State.tileFailed
  extract_lets s1 s2 s3
  have h2 : s2.Sound C := by
    dsimp only [s2]
    split
    · exact h.setFld.failPart
    · exact h.setFld
  exact (h2.setTile h2.tile.endPart).journal.modeCheck

theorem State.Sound.tileFault {t p : Nat} {ctlLost rowsOut : Bool} (h : s.Sound C) : (s.tileFault t p ctlLost rowsOut).Sound C := by
  unfold State.tileFault
  refine h.ite ?_
  extract_lets v
  have hv : v.Sound C := h.bump
  split
  · exact hv.stopAssayOf.addCarry
  · split
    · exact hv.failPart.tileFailed
    · exact hv.tileFailed

theorem State.Sound.arrayFence {t p : Nat} (h : s.Sound C) : (s.arrayFence t p).Sound C :=
  .journal (by
    split
    · exact h.setFlag.setFlag.addStatus.addNote
    · exact h.setFlag.setFlag)

theorem State.Sound.checkFailed {t p : Nat} {chk : Check} {array : Bool} (h : s.Sound C) : (s.checkFailed t p chk array).Sound C :=
  h.bump.arrayFence.ite h.bump.tileFault

/-- A unit found wrong reads as zero and is marked (R394); a locket's marks and image lie in their slot. -/
theorem Tile.Sound.markUnit {t : Tile} {u : Nat} (h : t.Sound) : (t.markUnit u).Sound := by
  refine .ite { h with spad := Memory.wf_zero h.spad, spadMarks := Tab.sorted_set h.spadMarks } ?_
  refine .ite { h with vbuf := Memory.wf_zero h.vbuf, vbufMarks := Tab.sorted_set h.vbufMarks } ?_
  refine .ite { h with acc := Tab.sorted_clear h.acc, accMarks := Tab.sorted_set h.accMarks } ?_
  refine .ite { h with } (.ite { h with } ?_)
  refine .ite { h with masks := Tab.sorted_set h.masks, maskMarks := Tab.sorted_set h.maskMarks } ?_
  refine .ite { h with tableStore := Tab.sorted_clear h.tableStore, tableMarks := Tab.sorted_set h.tableMarks } ?_
  refine .ite { h with angle := rfl } (.ite ?_ h)
  exact { h with
    locket := Tab.sorted_set h.locket
    slots := Tab.forall_set h.slots ⟨Memory.wf_zero h.slot.image, Tab.sorted_set h.slot.marks⟩ }

theorem Tile.Sound.markUnits {t : Tile} {us : List Nat} (h : t.Sound) : (t.markUnits us).Sound := h.foldl fun _ _ h => h.markUnit

theorem State.Sound.spareRow {p row : Nat} (h : s.Sound C) : (s.spareRow p row).1.Sound C := by
  unfold State.spareRow
  dsimp only
  split
  · dsimp only
    exact .journal (h.setTile { h.tile with })
  · dsimp only
    exact h

theorem State.Sound.countWords {t : Nat} {ws : List WordErr} (h : s.Sound C) : (s.countWords t ws).Sound C := h.bump.bump.bump.bump

theorem Tile.Sound.noteWord {t : Tile} {w : WordErr} (h : t.Sound) : (t.noteWord w).Sound := (h.ite h.markUnit).ite (.ite { h with } { h with })

theorem State.Sound.findWords {t p : Nat} {ws : List WordErr} (h : s.Sound C) : (s.findWords t p ws).1.Sound C := by
  unfold State.findWords
  dsimp only
  split
  · exact h
  · exact State.Sound.foldl_fst (h.countWords.setTile (h.tile.foldl fun _ _ h => h.noteWord)) fun _ _ h => h.spareRow

theorem State.Sound.wordFault {t p : Nat} {f : Option (Bool × Bool)} (h : s.Sound C) : (s.wordFault t p f).Sound C := by
  unfold State.wordFault
  split
  · exact h.tileFault
  · exact h

theorem Keeps.onStore {t : Nat} {chk : Check} {k : Check → State → Out State} (h : s.Sound C) (hk : ∀ c (u : State), u.Sound C → Keeps C (k c u)) :
    Keeps C (onStore t chk s k) := by
  unfold Machine.onStore
  split
  · next ws p _ =>
    have hfound := h.findWords (t := t) (p := p) (ws := ws)
    have hrun := hk .pass _ hfound
    dsimp only
    split
    · next v hv => exact .ite (.next h) (.ite (.next hfound.wordFault) (.next (hrun v hv).wordFault))
    · exact hrun
  · exact hk _ _ h

end Sys2Proof.Machine
end

section
/-! SUPPORT. The canonical form store by store: the rules and the commands of a tile: the sequencer, the arrays, the vector path, the DMA engines and the locket (O3). -/

namespace Sys2Proof.Machine

-- One declaration after another: each blocked elaboration thread holds a stack, which the check's memory limit counts.
set_option Elab.async false

variable {C : Prop} {s : State}

/-! ## Operands -/

theorem Tile.Sound.writeAt {t : Tile} {a : Nat} {bytes : List Byte} (h : t.Sound) : (t.writeAt a bytes).Sound :=
  { h with spad := Memory.wf_writeRange h.spad }

theorem Tile.Sound.writeSegs {segs : List (Nat × Nat)} {t : Tile} {bytes : List Byte} (h : t.Sound) : (t.writeSegs segs bytes).Sound := by
  induction segs generalizing t bytes with
  | nil => exact h
  | cons g r ih => exact ih h.writeAt

theorem Tile.Sound.markSegs {t : Tile} {segs : List (Nat × Nat)} {mark : Bool} (h : t.Sound) : (t.markSegs segs mark).Sound :=
  { h with spadMarks := Tab.sorted_foldl (fun _ _ h => Tab.sorted_markSpan h) h.spadMarks }

theorem Tile.Sound.sput {t : Tile} {o : Opnd} {k : Nat} {bytes : List Byte} (h : t.Sound) : (t.sput o k bytes).Sound := h.writeSegs

theorem Tile.Sound.swrite {t : Tile} {o : Opnd} {k : Nat} {bytes : List Byte} {mark : Bool} (h : t.Sound) : (t.swrite o k bytes mark).Sound :=
  h.sput.markSegs

theorem Tile.Sound.freshRows {t : Tile} {a b : Nat} (h : t.Sound) : (t.freshRows a b).Sound :=
  { h with spad := Memory.wf_zero h.spad, spadMarks := Tab.sorted_clear h.spadMarks }

theorem Tile.Sound.freshAll {t : Tile} (h : t.Sound) : t.freshAll.Sound := { h with spad := rfl, spadMarks := rfl }

/-! ## The sequencer -/

theorem Tile.Sound.goto {t : Tile} {pos : Nat} (h : t.Sound) : (t.goto pos).Sound := { h with }

theorem Tile.Sound.advance {t : Tile} (h : t.Sound) : t.advance.Sound := h.goto

theorem Tile.Sound.signalled {t : Tile} {o n : Nat} (h : t.Sound) : (t.signalled o n).Sound := { h with syncCount := Tab.sorted_set h.syncCount }

theorem State.Sound.signal {t p o n : Nat} (h : s.Sound C) : (s.signal t p o n).Sound C := (h.setTile h.tile.signalled).issue

theorem Tile.Sound.stepped {t : Tile} {tally : Nat} (h : t.Sound) : (t.stepped tally).Sound := { h with }

theorem State.Sound.consumeWait {t p o : Nat} (h : s.Sound C) : (s.consumeWait t p o).Sound C :=
  .give (h.setTile { h.tile.stepped.ite h.tile with syncCount := Tab.sorted_set (h.tile.stepped.ite h.tile).syncCount })

theorem State.Sound.peak {t p : Nat} (h : s.Sound C) : (s.peak t p).Sound C := h.setFld

theorem State.Sound.issueOp {t p : Nat} {x : Op} (h : s.Sound C) : (s.issueOp t p x).Sound C := by
  unfold State.issueOp
  exact (h.setTile h.tile.advance.stepped.withOps).issue.peak.tileEvent

theorem State.Sound.completionSignal {t p : Nat} {i : Insn} (h : s.Sound C) : (s.completionSignal t p i).Sound C := h.signal.ite h

theorem State.Sound.issueInstant {t p : Nat} {i : Insn} {f : Tile → Tile} (h : s.Sound C) (hf : ∀ tl, tl.Sound → (f tl).Sound) :
    (s.issueInstant t p i f).Sound C :=
  (h.setTile (hf _ h.tile.advance.stepped)).issue.give.completionSignal.tileEvent

theorem Keeps.onInsn {t opc : Nat} {k : Nat → Tile → Insn → State} (h : s.Sound C) (hk : ∀ p i, (k p (s.tile p) i).Sound C) :
    Keeps C (onInsn t opc s k) := by
  refine .onTile h fun p => ?_
  split
  · exact .next h
  · exact .next ((hk p _).ite h)

theorem Tile.Sound.giveEngine {t : Tile} {e : DmaEntry} (h : t.Sound) : (t.giveEngine e).Sound := { h with }

theorem State.Sound.handOut {t p : Nat} (h : s.Sound C) : (s.handOut t p).Sound C := by
  have hgiven : ∀ n, (((s.tile p).dmaRest.take n).foldl Tile.giveEngine (s.tile p)).Sound := fun _ => h.tile.foldl fun _ _ h => h.giveEngine
  unfold State.handOut
  exact State.Sound.peak (State.Sound.issue (h.setTile { hgiven _ with }))

theorem State.Sound.completeOp {t p : Nat} {x : Op} (h : s.Sound C) : (s.completeOp t p x).Sound C := by
  unfold State.completeOp
  exact (h.setTile h.tile.stepped.withOps).give.completionSignal.handOut

theorem Tile.Sound.modOp {t : Tile} {id : Nat} {f : Op → Op} (h : t.Sound) : (t.modOp id f).Sound := { h with }

theorem State.Sound.execNop {t : Nat} (h : s.Sound C) : Keeps C (execNop t s) := .onInsn h fun _ _ => (h.issueInstant (fun _ h => h)).ite h

theorem State.Sound.execEndStream {t : Nat} (h : s.Sound C) : Keeps C (execEndStream t s) :=
  .onInsn h fun _ _ => .ite (.tileEvent (.completionSignal (h.setTile { h.tile.stepped (tally := s.tally) with }))) h

theorem Tile.Sound.enterLoop {tl : Tile} {i : Insn} {trip : Nat} (h : tl.Sound) : (tl.enterLoop i trip).Sound := h.goto.ite { h with }

theorem State.Sound.execLoop {t : Nat} (h : s.Sound C) : Keeps C (execLoop t s) :=
  .onInsn h fun _ _ => (h.setTile h.tile.stepped.enterLoop).completionSignal.tileEvent.ite h

theorem State.Sound.execFence {t : Nat} (h : s.Sound C) : Keeps C (execFence t s) := .onInsn h fun _ _ => (h.issueInstant (fun _ h => h)).ite h

theorem State.Sound.execWaitSatisfied {t : Nat} {w : Waiter} (h : s.Sound C) : Keeps C (execWaitSatisfied t w s) := by
  refine .onUnit (.onTile h fun p => ?_)
  split
  · split
    · exact .next h
    · exact .ite (.next (h.consumeWait.setTile { h.consumeWait.tile with })) (.next h)
  · dsimp only
    split
    · exact .next h
    · exact .ite (.next (h.consumeWait.setTile { h.consumeWait.tile with })) (.next h)
  · split
    · exact .next h
    · exact .ite (.next (h.consumeWait.setTile h.consumeWait.tile.stepped.modOp)) (.next h)

theorem State.Sound.execTilePartEnd {t : Nat} (h : s.Sound C) : Keeps C (execTilePartEnd t s) :=
  .onTile h fun _ => by
    split
    · exact .next h
    · exact .ite (.next h) (.ite (.next h.failPart) (.next (by
        split
        · exact h.endPart.modItem.endItem.ite h.endPart.modItem
        · exact h.endPart.modItem)))

theorem State.Sound.execScfg {t : Nat} (h : s.Sound C) : Keeps C (execScfg t s) :=
  .onInsn h fun _ _ => .ite (h.issueInstant (fun _ h => { h with syncThresh := Tab.sorted_set h.syncThresh })) h

theorem State.Sound.execSsig {t : Nat} (h : s.Sound C) : Keeps C (execSsig t s) := .onInsn h fun _ _ => h.issueOp

theorem State.Sound.execSsigTakeEffect {t : Nat} (h : s.Sound C) : Keeps C (execSsigTakeEffect t s) :=
  .onTile h fun _ => by
    split
    · exact .next h
    · exact .next (h.signal.completeOp.ite h)

theorem Tile.Sound.setBangle {t : Tile} {b : Nat} {v : Bangle} (h : t.Sound) : (t.setBangle b v).Sound := { h with }

theorem State.Sound.execBcfg {t : Nat} (h : s.Sound C) : Keeps C (execBcfg t s) :=
  .onInsn h fun _ _ => (h.issueInstant (fun _ h => h.setBangle)).auditFresh.ite h

theorem State.Sound.bangleWait {t p : Nat} {tl : Tile} {i : Insn} {data : Bool} (h : s.Sound C) (htl : tl.Sound) : (s.bangleWait t p tl i data).Sound C :=
  h.ite ((h.issueInstant fun _ h => h).ite (h.setTile { htl.stepped (tally := s.tally) with }))

theorem State.Sound.execBwaitd {t : Nat} (h : s.Sound C) : Keeps C (execBwaitd t s) := .onInsn h fun _ _ => h.bangleWait h.tile

theorem State.Sound.execBwaits {t : Nat} (h : s.Sound C) : Keeps C (execBwaits t s) := .onInsn h fun _ _ => h.bangleWait h.tile

theorem State.Sound.execBangleWaitSatisfied {t : Nat} (h : s.Sound C) : Keeps C (execBangleWaitSatisfied t s) :=
  .onTile h fun _ => by
    split
    · exact .next h
    · exact .next ((h.issueInstant (fun _ h => h)).ite h)

theorem State.Sound.execBpush {t : Nat} (h : s.Sound C) : Keeps C (execBpush t s) := .onInsn h fun _ _ => h.issueOp

theorem State.Sound.execBpop {t : Nat} (h : s.Sound C) : Keeps C (execBpop t s) := .onInsn h fun _ _ => h.issueOp

theorem State.Sound.execBpushTakeEffect {t : Nat} (h : s.Sound C) : Keeps C (execBpushTakeEffect t s) :=
  .onTile h fun _ => by
    split
    · exact .next h
    · split
      · exact .next h
      · exact .next ((h.setTile h.tile.setBangle).issue.completeOp.ite h)

theorem State.Sound.execBpopTakeEffect {t : Nat} (h : s.Sound C) : Keeps C (execBpopTakeEffect t s) :=
  .onTile h fun _ => by
    split
    · exact .next h
    · split
      · exact .next h
      · exact .next ((h.setTile h.tile.setBangle).give.completeOp.ite h)

/-! ## The facet array -/

theorem State.Sound.issueEngine {t p : Nat} {tl : Tile} {i : Insn} {count : Nat} {reads writes : List (Nat × Nat)} {occ lat : Nat} (h : s.Sound C) :
    (s.issueEngine t p tl i count reads writes occ lat).Sound C :=
  h.issueOp.ite h

theorem State.Sound.execLdb {t : Nat} {chk : Check} (h : s.Sound C) : Keeps C (execLdb t chk s) :=
  .onStore h fun _ _ h => .onInsn h fun _ _ => h.checkFailed.ite h.issueEngine

theorem Tile.Sound.loadShadow {t : Tile} {x : Op} (h : t.Sound) : (t.loadShadow x).Sound := { h with }

theorem State.Sound.execSwap {t : Nat} (h : s.Sound C) : Keeps C (execSwap t s) := .onInsn h fun _ _ => h.issueOp

theorem State.Sound.execSwapExchange {t : Nat} (h : s.Sound C) : Keeps C (execSwapExchange t s) :=
  .onTile h fun _ => by
    split
    · exact .next h
    · exact .next (.ite (h.setTile (.modOp { h.tile with })) h)

theorem State.Sound.execMma {t : Nat} (h : s.Sound C) : Keeps C (execMma t s) :=
  .onInsn h fun _ _ => h.ite (h.issueOp.setTile { h.issueOp.tile with })

theorem State.Sound.execRed {t : Nat} (h : s.Sound C) : Keeps C (execRed t s) :=
  .onInsn h fun _ _ => h.ite (h.issueOp.setTile { h.issueOp.tile with })

theorem State.Sound.execDrain {t : Nat} (h : s.Sound C) : Keeps C (execDrain t s) := .onInsn h fun _ _ => h.issueEngine

theorem Tile.Sound.accAdd {t : Tile} {q : Part} {x : Op} {row n : Nat} {zero : Bool} {v : Val} (h : t.Sound) : (t.accAdd q x row n zero v).Sound :=
  { h with acc := Tab.sorted_set h.acc }

theorem Tile.Sound.mmaGroup {t : Tile} {q : Part} {x : Op} {g : Nat} (h : t.Sound) : (t.mmaGroup q x g).Sound :=
  h.foldl fun _ _ h => h.foldl_fst fun _ _ h => h.accAdd

theorem Tile.Sound.redGroup {t : Tile} {q : Part} {x : Op} {src g : Nat} (h : t.Sound) : (t.redGroup q x src g).Sound :=
  h.foldl fun _ _ h => h.foldl_fst fun _ _ h => h.accAdd

theorem Tile.Sound.markAcc {t : Tile} {acc first n : Nat} {mark : Bool} (h : t.Sound) : (t.markAcc acc first n mark).Sound :=
  { h with accMarks := Tab.sorted_foldl (fun _ _ h => Tab.sorted_set h) h.accMarks }

theorem State.Sound.race {t : Nat} {q : Option Part} {n : Nat} (h : s.Sound C) : (s.race t q n).Sound C :=
  h.ite (by
    split
    · exact h.bump.addNote
    · exact h.bump)

theorem State.Sound.engineAccess {t p : Nat} {tl : Tile} {reads writes : List (Nat × Nat)} (h : s.Sound C) :
    (s.engineAccess t p tl reads writes).Sound C :=
  h.race.tileEvent

theorem State.Sound.onStrand {t item : Nat} {counts : Bool} (h : s.Sound C) : (s.onStrand t item counts).Sound C := (h.bump.ite h).addNote.ite h

theorem State.Sound.commitMma {t p : Nat} {tl : Tile} {q : Part} {x : Op} (h : s.Sound C) (htl : tl.Sound) : (s.commitMma t p tl q x).Sound C :=
  (h.engineAccess.setTile (htl.mmaGroup.markAcc.ite htl.mmaGroup.markAcc).modOp.stepped).consumed.onStrand

theorem State.Sound.commitRed {t p : Nat} {tl : Tile} {q : Part} {x : Op} {src : Nat} (h : s.Sound C) (htl : tl.Sound) :
    (s.commitRed t p tl q x src).Sound C :=
  (h.engineAccess.setTile (htl.redGroup.markAcc.ite htl.redGroup).modOp.stepped).consumed.onStrand

theorem Tile.Sound.addStats {t : Tile} {o : Opnd} {counts : List Nat} (h : t.Sound) : (t.addStats o counts).Sound := h.foldl_fst fun _ _ h => h.sput

theorem State.Sound.addHealth {t : Nat} {counts : List Nat} (h : s.Sound C) : (s.addHealth t counts).Sound C :=
  h.bump.bump.bump.bump.foldl fun _ _ h => h.bump

theorem Tile.Sound.drainGroup {t : Tile} {x : Op} {g : Nat} (h : t.Sound) : (t.drainGroup x g).1.Sound := by
  have hclear : ∀ (u : Tile) k, u.Sound → ({ u with acc := Tab.clear u.acc k 128 } : Tile).Sound := fun _ _ h => { h with acc := Tab.sorted_clear h.acc }
  unfold Tile.drainGroup
  dsimp only
  have hstats : ∀ (c : Prop) [Decidable c] (u : Tile) o l, u.Sound → (if c then u.addStats o l else u).Sound := fun _ _ _ _ _ h => h.addStats.ite h
  refine .ite (hclear _ _ (hstats _ _ _ _ ?_)) (hstats _ _ _ _ ?_)
  · exact h.foldl_fst fun _ _ h => h.sput.sput
  · exact h.foldl_fst fun _ _ h => h.sput.sput

theorem State.Sound.commitDrain {t p : Nat} {tl : Tile} {q : Part} {x : Op} (h : s.Sound C) (htl : tl.Sound) :
    (s.commitDrain t p tl q x).Sound C := by
  unfold State.commitDrain
  extract_lets i g u m last r o spans tl1 tl2 tl3
  have hr : r.1.Sound := htl.drainGroup
  have h1 : tl1.Sound := hr.markSegs.ite hr
  have h2 : tl2.Sound := (h1.markAcc.ite h1.markAcc).ite h1
  exact (h.engineAccess.setTile h2.modOp.stepped).consumed.addHealth.onStrand

theorem State.Sound.commitGroup {t p : Nat} {tl : Tile} {q : Part} {x : Op} (h : s.Sound C) (htl : tl.Sound) : (s.commitGroup t p tl q x).Sound C :=
  (h.commitMma htl).ite ((h.commitDrain htl).ite (by
    split
    · exact h.commitRed htl
    · exact h))

theorem State.Sound.execRowGroupCommit {t : Nat} {path : Path} {chk : Check} {store : List WordErr} (h : s.Sound C) :
    Keeps C (execRowGroupCommit t path chk store s) :=
  .onTile h fun _ => by
    split
    · exact .next (h.findWords.wordFault.ite (h.findWords.checkFailed.ite (h.findWords.commitGroup h.findWords.tile).wordFault))
    · exact .next h

theorem State.Sound.execRedSourceAdd {t n : Nat} (h : s.Sound C) : Keeps C (execRedSourceAdd t n s) :=
  .onUnit (.onTile h (fun _ => by
    split
    · exact .ite (.next ((h.setTile h.tile.stepped.modOp).ite (h.setTile h.tile.stepped.modOp).bump.addNote)) (.next h)
    · exact .next h))

theorem State.Sound.execInstructionComplete {t op : Nat} (h : s.Sound C) : Keeps C (execInstructionComplete t op s) := by
  refine .onTile h fun p => ?_
  split
  · exact .next h
  · next x _ =>
    refine .ite (.next h) (.ite (.ite ?_ (.next h)) (.next (h.completeOp.ite h)))
    extract_lets u tl v w
    have hv : v.Sound C := h.engineAccess.setTile h.tile.loadShadow
    have hw : w.Sound C := by
      dsimp only [w]
      split
      · exact hv.consumed
      · exact hv
    exact .next hw.completeOp

/-! ## The vector path -/

/-- An effect on a sound tile leaves a sound one, whatever mark it sets. -/
structure Effect.Sound (e : Effect) : Prop where
  tile : e.tile.Sound
  mark : ∀ (m : Bool) (t : Tile), t.Sound → (e.mark m t).Sound

/-- What an effect leaves depends on its tile and its marks alone. -/
theorem Effect.Sound.withParts {e : Effect} {r w vr vw : List (Nat × Nat)} {x : Bool} {rr rw : Option (List (Nat × Nat))} {n1 n2 n3 n4 n5 : Nat}
    (h : e.Sound) : (Effect.mk e.tile r w vr vw x e.mark rr rw n1 n2 n3 n4 n5).Sound := ⟨h.tile, h.mark⟩

theorem Effect.Sound.ite {e e' : Effect} {c : Prop} [Decidable c] (h : e.Sound) (h' : e'.Sound) : (if c then e else e').Sound := by
  split
  · exact h
  · exact h'

theorem Effect.Sound.marked {e : Effect} {m : Bool} (h : e.Sound) : (e.marked m).Sound :=
  have ht := h.mark m _ h.tile.markSegs
  { ht with vbufMarks := Tab.sorted_foldl (fun _ _ h => Tab.sorted_markSpan h) ht.vbufMarks }

theorem State.Sound.vstat {t sats smx zr : Nat} (h : s.Sound C) : (s.vstat t sats smx zr).Sound C := h.bump.bump.bump

theorem State.Sound.runEffect {t p : Nat} {tl : Tile} {i : Insn} {chk : Check} {e : Effect} (h : s.Sound C) (he : e.Sound) :
    (s.runEffect t p tl i chk e).Sound C :=
  h.checkFailed.ite (h.ite (.issueOp (.vstat (by
    split
    · exact (h.setTile (Effect.Sound.marked he)).engineAccess.consumed
    · exact (h.setTile (Effect.Sound.marked he)).engineAccess))))

theorem Keeps.pathInsn {t opc : Nat} {chk : Check} {f : Tile → Insn → Effect} (h : s.Sound C) (hf : ∀ tl i, tl.Sound → (f tl i).Sound) :
    Keeps C (pathInsn t opc chk s f) := .onInsn h fun p i => h.runEffect (hf (s.tile p) i h.tile)

theorem Tile.Sound.vput {l : List (Option Word32)} {t : Tile} {a : Nat} (h : t.Sound) : (t.vput a l).Sound := by
  induction l generalizing t a with
  | nil => exact h
  | cons w r ih =>
    cases w with
    | none => exact ih h
    | some w => exact ih { h with vbuf := Memory.wf_writeNat h.vbuf }

theorem Tile.Sound.setMask {t : Tile} {m : Nat} {v : BitVec 8192} (h : t.Sound) : (t.setMask m v).Sound := { h with masks := Tab.sorted_set h.masks }

theorem Tile.Sound.maskMark {m : Nat} {whole : Bool} {mk : Bool} {t : Tile} (h : t.Sound) : (maskMark m whole mk t).Sound :=
  .ite { h with maskMarks := Tab.sorted_set h.maskMarks } h

theorem Tile.Sound.laneEffect {t : Tile} {i : Insn} {act : List Bool} {rs : List (Word32 × Bool)} {vreads : List (Nat × Nat)} {srcs : List Nat}
    {lat : Nat} (h : t.Sound) :
    (t.laneEffect i act rs vreads srcs lat).Sound :=
  ⟨h.vput, fun _ _ h => h⟩

theorem Tile.Sound.idle {t : Tile} (h : t.Sound) : t.idle.Sound := ⟨h, fun _ _ h => h⟩

theorem Keeps.unary {t opc : Nat} {chk : Check} {f : Word32 → Word32 × Bool} (h : s.Sound C) : Keeps C (unary t opc chk s f) :=
  .pathInsn h fun _ _ h => h.laneEffect

theorem Keeps.binary {t opc : Nat} {chk : Check} {f : Word32 → Word32 → Word32 × Bool} (h : s.Sound C) : Keeps C (binary t opc chk s f) :=
  .pathInsn h fun _ _ h => h.laneEffect

theorem State.Sound.execVmov {t : Nat} {chk : Check} (h : s.Sound C) : Keeps C (execVmov t chk s) := .onStore h fun _ _ h => .unary h

theorem State.Sound.execVneg {t : Nat} {chk : Check} (h : s.Sound C) : Keeps C (execVneg t chk s) := .onStore h fun _ _ h => .unary h

theorem State.Sound.execVabs {t : Nat} {chk : Check} (h : s.Sound C) : Keeps C (execVabs t chk s) := .onStore h fun _ _ h => .unary h

theorem State.Sound.execVadd {t : Nat} {chk : Check} (h : s.Sound C) : Keeps C (execVadd t chk s) := .onStore h fun _ _ h => .binary h

theorem State.Sound.execVsub {t : Nat} {chk : Check} (h : s.Sound C) : Keeps C (execVsub t chk s) := .onStore h fun _ _ h => .binary h

theorem State.Sound.execVmul {t : Nat} {chk : Check} (h : s.Sound C) : Keeps C (execVmul t chk s) := .onStore h fun _ _ h => .binary h

theorem State.Sound.execVmax {t : Nat} {chk : Check} (h : s.Sound C) : Keeps C (execVmax t chk s) := .onStore h fun _ _ h => .binary h

theorem State.Sound.execVmin {t : Nat} {chk : Check} (h : s.Sound C) : Keeps C (execVmin t chk s) := .onStore h fun _ _ h => .binary h

theorem State.Sound.execVfma {t : Nat} {chk : Check} (h : s.Sound C) : Keeps C (execVfma t chk s) :=
  .onStore h fun _ _ h => .pathInsn h fun _ _ h => h.laneEffect

theorem State.Sound.execViota {t : Nat} {chk : Check} (h : s.Sound C) : Keeps C (execViota t chk s) :=
  .onStore h fun _ _ h => .pathInsn h fun _ _ h => h.idle.ite h.laneEffect

theorem State.Sound.execVcmp {t : Nat} {chk : Check} (h : s.Sound C) : Keeps C (execVcmp t chk s) :=
  .onStore h fun _ _ h => .pathInsn h fun _ _ h => h.idle.ite ⟨h.setMask, fun _ _ h => h.maskMark⟩

theorem State.Sound.execVsel {t : Nat} {chk : Check} (h : s.Sound C) : Keeps C (execVsel t chk s) :=
  .onStore h fun _ _ h => .pathInsn h fun _ _ h => h.laneEffect

theorem State.Sound.execVld {t : Nat} {chk : Check} (h : s.Sound C) : Keeps C (execVld t chk s) :=
  .onStore h fun _ _ h => .pathInsn h fun _ _ h => h.idle.ite h.laneEffect.withParts

theorem Tile.Sound.sputElems {l : List (Option Nat)} {t : Tile} {o : Opnd} {w k : Nat} (h : t.Sound) : (t.sputElems o w k l).Sound := by
  induction l generalizing t k with
  | nil => exact h
  | cons c r ih =>
    cases c with
    | none => exact ih h
    | some c => exact ih h.sput

theorem Tile.Sound.storeMx {t : Tile} {i : Insn} {n fmt : Nat} {act : List Bool} {vs : List Val} (h : t.Sound) : (t.storeMx i n fmt act vs).Sound :=
  ⟨h.sput.sput, fun _ _ h => h⟩

theorem State.Sound.execVst {t : Nat} {chk : Check} (h : s.Sound C) : Keeps C (execVst t chk s) :=
  .onStore h fun _ _ h => .pathInsn h fun _ _ h => (h.idle.ite (h.storeMx.ite ⟨h.sputElems, fun _ _ h => h⟩)).withParts

theorem State.Sound.execVmld {t : Nat} {chk : Check} (h : s.Sound C) : Keeps C (execVmld t chk s) :=
  .onStore h fun _ _ h => .pathInsn h fun _ _ h => h.idle.ite ⟨h.setMask, fun _ _ h => h.maskMark⟩

theorem State.Sound.execVmst {t : Nat} {chk : Check} (h : s.Sound C) : Keeps C (execVmst t chk s) :=
  .onStore h fun _ _ h => .pathInsn h fun _ _ h => ⟨h.sput, fun _ _ h => h⟩

theorem State.Sound.execVsf {t : Nat} {chk : Check} (h : s.Sound C) : Keeps C (execVsf t chk s) :=
  .onStore h fun _ _ h => .pathInsn h fun _ _ h => h.laneEffect.withParts

theorem Tile.Sound.vbytes {t : Tile} {a : Nat} {bs : List Byte} (h : t.Sound) : (t.vbytes a bs).Sound :=
  { h with vbuf := Memory.wf_writeRange h.vbuf }

theorem State.Sound.execVrstat {t : Nat} {chk : Check} (h : s.Sound C) : Keeps C (execVrstat t chk s) :=
  .onStore h fun _ _ h => .pathInsn h fun _ _ h => ⟨.vbytes h.vbytes, fun _ _ h => h⟩

theorem State.Sound.execVrmsn {t : Nat} {chk : Check} (h : s.Sound C) : Keeps C (execVrmsn t chk s) :=
  .onStore h fun _ _ h => .pathInsn h fun _ _ h => h.idle.ite h.laneEffect.withParts

theorem Tile.Sound.softmaxEffect {tl : Tile} {i : Insn} {n : Nat} {partial_ : Bool} (h : tl.Sound) : (tl.softmaxEffect i n partial_).Sound :=
  ⟨.ite (.vbytes h.vput.vbytes) h.vput.vbytes, fun _ _ h => h⟩

theorem State.Sound.execVsmx {t : Nat} {chk : Check} (h : s.Sound C) : Keeps C (execVsmx t chk s) :=
  .onStore h fun _ _ h => .pathInsn h fun _ _ h => h.softmaxEffect

theorem State.Sound.execVupd {t : Nat} {chk : Check} (h : s.Sound C) : Keeps C (execVupd t chk s) :=
  .onStore h fun _ _ h => .pathInsn h fun _ _ h => h.idle.ite ⟨h.sputElems.sput, fun _ _ h => h⟩

/-! ## Scratchpad rows -/

theorem Tile.Sound.writeRow {t : Tile} {row : Nat} {bytes : List (Nat × Byte)} (h : t.Sound) : (t.writeRow row bytes).Sound :=
  { h with spad := Memory.wf_foldl (fun _ _ h => Memory.wf_write h) h.spad, spadMarks := Tab.sorted_foldl (fun _ _ h => Tab.sorted_set h) h.spadMarks }

theorem State.Sound.meshFlit {t : Nat} {fault : RowFault} (h : s.Sound C) : (s.meshFlit t fault).Sound C :=
  .ite (by
    split
    · exact h.bump.tileFault
    · exact h.bump) h.bump

theorem State.Sound.execScratchpadRowAccess {t bank : Nat} {reqs : List RowReq} {fault : RowFault} (h : s.Sound C) :
    Keeps C (execScratchpadRowAccess t bank reqs fault s) := by
  refine .onUnit (.onTile h fun p => ?_)
  extract_lets rs
  split
  · next g _ _ _ =>
    extract_lets served s1 s2 s3 s4 r s5
    have h1 : s1.Sound C := h.bump.ite h
    have h4 : s4.Sound C := h1.race.tileEvent.setTile { h.tile with }
    have h5 : s5.Sound C := by
      dsimp only [s5]
      split
      · exact h4.findWords.ite (h4.findWords.setTile h4.findWords.tile.writeRow)
      · exact h4.findWords
    exact .next h5.meshFlit.wordFault
  · exact .next h.meshFlit

/-! ## The DMA engines -/

theorem Tile.Sound.setEngine {t : Tile} {e : Nat} {d : Dma} (h : t.Sound) : (t.setEngine e d).Sound := { h with }

theorem State.Sound.execDmaEntryStart {t e : Nat} (h : s.Sound C) : Keeps C (execDmaEntryStart t e s) :=
  .onUnit (.onTile h (fun _ => by
    dsimp only
    split
    · exact .next h
    · exact .next ((h.setTile h.tile.setEngine).ite h)))

theorem State.Sound.regionUse {tenant item : Nat} {r : Region} {off n : Nat} (h : s.Sound C) : (s.regionUse tenant item r off n).2.Sound C := by
  unfold State.regionUse
  split
  · split
    · dsimp only
      exact h
    · dsimp only
      exact h.runBound
  · dsimp only
    exact h.runBound

theorem State.Sound.dmaSide {i : Item} {en : DmaEntry} {r : Region} {k : Nat} (h : s.Sound C) : (s.dmaSide i en r k).2.2.Sound C := by
  unfold State.dmaSide
  split
  · split
    · exact h.runBound
    · next q p _ =>
      have hread := h.kvUse (tenant := i.fn) (item := i.id) (p := p) (seq := i.word (bitsOf en.stride 0 14))
        (idx := p.entryOf (i.word en.indexWord) en.row (if en.part < 4 then en.group0 + k else i.word en.tripWord / 32))
      dsimp only
      split
      · next heq => rw [heq] at hread; exact hread
      · next heq => rw [heq] at hread; exact hread
  · split
    · exact h
    · split
      · have huse := h.regionUse (tenant := i.fn) (item := i.id) (r := r) (off := en.memOff + 4 * k) (n := 4)
        dsimp only
        split
        · next heq => rw [heq] at huse; exact huse.takeFor.consumed.regionUse
        · next heq => rw [heq] at huse; exact huse.consumed.regionUse
      · exact h.regionUse

theorem Tile.Sound.pointerMoves {t : Tile} {tally n : Nat} (h : t.Sound) : (t.pointerMoves tally n).Sound := by
  unfold Tile.pointerMoves
  split
  · exact h.stepped.ite h
  · exact h

theorem State.Sound.dmaMove {t p : Nat} {en : DmaEntry} (h : s.Sound C) : (s.dmaMove t p en).Sound C := by
  unfold State.dmaMove
  split
  · dsimp only
    split
    · exact h
    · exact (h.setTile h.tile.pointerMoves.setBangle).issue
  · dsimp only
    split
    · exact h
    · exact (h.setTile h.tile.pointerMoves.setBangle).give

theorem State.Sound.dmaBegin {i : Item} {en : DmaEntry} {r : Region} {k : Nat} {segs : List (Nat × Nat)} (h : s.Sound C) :
    (s.dmaBegin i en r k segs).2.Sound C := by
  unfold State.dmaBegin
  split
  · dsimp only
    exact .consumed (by
      split
      · exact h.dmaSide.takeFor
      · dsimp only
        exact h.dmaSide)
  · dsimp only
    exact h.dmaSide.consumed

theorem Tile.Sound.fillRow {tl : Tile} {m : Moving} {g : Nat × Nat} (h : tl.Sound) : (tl.fillRow m g).Sound := h.writeAt.markSegs

theorem State.Sound.dmaLand {i : Item} {en : DmaEntry} {m : Moving} (h : s.Sound C) : (s.dmaLand i en m).Sound C :=
  h.ite (by
    split
    · exact h.consumed.protectedWrite
    · exact h.consumed.hostWrite.ite h.consumed.hostWrite.outsideItem
    · exact h.consumed)

theorem State.Sound.dmaEnd {t p e : Nat} {i : Item} {en : DmaEntry} {m : Moving} (h : s.Sound C) : (s.dmaEnd t p e i en m).Sound C :=
  h.dmaLand.dmaMove.setTile h.dmaLand.dmaMove.tile.setEngine

theorem State.Sound.dmaRow {t p e : Nat} {tl : Tile} {i : Item} {en : DmaEntry} {m : Moving} (h : s.Sound C) (htl : tl.Sound) :
    (s.dmaRow t p e tl i en m).Sound C := by
  unfold State.dmaRow
  split
  · exact h.dmaEnd
  · exact (h.setTile htl.setEngine).ite
      ((h.race.tileEvent.setTile (htl.fillRow.ite htl).setEngine).dmaEnd.ite (h.race.tileEvent.setTile (htl.fillRow.ite htl).setEngine))

theorem State.Sound.execDmaTransfer {t e : Nat} {chk : Check} (h : s.Sound C) : Keeps C (execDmaTransfer t e chk s) := by
  refine .onUnit (.accepting h (.onTile h fun p => ?_))
  split
  · exact .next h
  · next en i r _ =>
    refine .ite (.next h) (.ite (.next h.checkFailed) ?_)
    extract_lets f b
    have hf : f.1.Sound C := h.findWords
    have hb : b.2.Sound C := by
      dsimp only [b]
      split
      · exact hf
      · exact hf.dmaBegin
    exact .ite (.next hf.wordFault) (.next (hb.dmaRow hb.tile).wordFault)

theorem State.Sound.execDmaEntryFinish {t e : Nat} (h : s.Sound C) : Keeps C (execDmaEntryFinish t e s) :=
  .onUnit (.onTile h (fun _ => by
    split
    · exact .next h
    · exact .ite (.next ((h.setTile h.tile.setEngine).give.signal.ite (h.setTile h.tile.setEngine).give).handOut) (.next h)))

/-! ## The locket -/

theorem Tile.Sound.setSlot {t : Tile} {k : Nat} {x : Slot} (h : t.Sound) (hx : x.Sound) : (t.setSlot k x).Sound :=
  { h with locket := Tab.sorted_set h.locket, slots := Tab.forall_set h.slots hx }

theorem Keeps.locketInsn {t opc : Nat} {chk : Check} {ref : Tile → Insn → Option CacheRef} {k : Nat → Tile → Insn → Item → Nat × Pool → State}
    (h : s.Sound C) (hk : ∀ p i it q, (k p (s.tile p) i it q).Sound C) : Keeps C (locketInsn t opc chk s ref k) := by
  refine .onInsn h fun p i => ?_
  split
  · split
    · exact h.ite (h.checkFailed.ite (hk ..))
    · exact h
  · exact h

theorem State.Sound.execLkload {t : Nat} {chk : Check} (h : s.Sound C) : Keeps C (execLkload t chk s) := by
  refine .onStore h fun _ _ h => .locketInsn h fun p i it q => ?_
  extract_lets c hd n len fill o img0 img slot
  have himg : Memory.wf img = true := Memory.wf_foldl (fun _ _ h => Memory.wf_zero h) (Memory.wf_writeRange rfl)
  exact h.runEffect ⟨h.tile.setSlot ⟨himg, rfl⟩, fun _ _ ht => ht.setSlot ⟨himg, Tab.sorted_markSpan rfl⟩⟩

theorem putToken_wf {p : Pool} {img : Mem} {r u : Nat} {keys vals : Nat → Word32} (h : Memory.wf img = true) :
    Memory.wf (putToken p img r u keys vals).1 = true :=
  List.foldlRecOn (List.range (p.heads * p.dim)) _ (motive := fun acc : Mem × Nat => Memory.wf acc.1 = true) h fun _ h _ _ =>
    Memory.wf_writeNat (Memory.wf_writeNat h)

/-- Tokens put into a slot stand in its image. -/
theorem putToken_foldl_wf {p : Pool} {img : Mem} {l : List Nat} {k : Nat} {r : Nat → Nat} {keys vals : Nat → Word32} (h : Memory.wf img = true) :
    Memory.wf (l.foldl (fun (acc : Mem × Nat) u =>
      ((putToken p acc.1 (r u) u keys vals).1, acc.2 + (putToken p acc.1 (r u) u keys vals).2)) (img, k)).1 = true :=
  List.foldlRecOn l _ (motive := fun acc : Mem × Nat => Memory.wf acc.1 = true) h fun _ h _ _ => putToken_wf h

theorem State.Sound.execLkput {t : Nat} {chk : Check} (h : s.Sound C) : Keeps C (execLkput t chk s) := by
  refine .onStore h fun _ u h => .locketInsn h fun p i it q => ?_
  extract_lets hd cnt x ka va n f r slot spans v
  have hx : x.Sound := h.tile.slot
  have hslot : slot.Sound := { hx with image := putToken_foldl_wf hx.image }
  have hv : v.Sound C := h.runEffect ⟨h.tile.setSlot hslot, fun _ _ ht => ht.setSlot
    { hslot with marks := Tab.sorted_foldl (fun _ _ h => Tab.sorted_markSpan h) hslot.marks }⟩
  exact hv.bump.bump.modItem.ite hv

theorem State.Sound.execLkrd {t : Nat} {chk : Check} (h : s.Sound C) : Keeps C (execLkrd t chk s) :=
  .onStore h fun _ _ h => .locketInsn h fun _ _ _ _ => h.runEffect ⟨h.tile.sput, fun _ _ h => h⟩

theorem State.Sound.copyOnWrite {tenant item k idx e : Nat} {p : Pool} (h : s.Sound C) : (s.copyOnWrite tenant item k p idx e).2.Sound C := by
  unfold State.copyOnWrite
  dsimp only
  split
  · exact h
  · split
    · exact h.kvSuppress
    · split
      · exact h.ctrlRead.ctrlRead.copyPage.consumed.firstRef.putNatFor.unref
      · exact h.ctrlRead.ctrlRead.kvSuppress

theorem Slot.Sound.flushed {x : Slot} (h : x.Sound) : x.flushed.Sound := by
  unfold Slot.flushed
  split
  · exact ⟨rfl, rfl⟩
  · exact { h with }

/-- A flush ends with the slot set: without the tokens, or after they are stored. -/
theorem State.Sound.flush {t p slot : Nat} {it : Item} {q : Nat × Pool} {x : Slot} (h : s.Sound C) (hx : x.Sound) : (s.flush t p slot it q x).Sound C := by
  have hdone : ∀ {v : State} {y : Slot}, v.Sound C → y.Sound → (v.setTile p ((v.tile p).setSlot slot y)).Sound C := fun hv hy =>
    hv.setTile (hv.tile.setSlot hy)
  unfold State.flush
  split
  · exact h
  · next c _ =>
    have huse := h.kvUse (tenant := it.fn) (item := it.id) (p := q.2) (seq := it.word c.idw) (idx := q.2.entryOf (it.word c.ptw) c.row (x.lbase / 32))
    dsimp only
    generalize s.kvUse it.fn it.id q.2 (it.word c.idw) (q.2.entryOf (it.word c.ptw) c.row (x.lbase / 32)) = r at huse
    obtain ⟨_ | e, u⟩ := r
    · exact hdone huse { hx with }
    · have hcopy := State.Sound.copyOnWrite (tenant := it.fn) (item := it.id) (k := q.1) (p := q.2)
        (idx := q.2.entryOf (it.word c.ptw) c.row (x.lbase / 32)) (e := e) huse
      dsimp only at hcopy ⊢
      generalize u.copyOnWrite it.fn it.id q.1 q.2 (q.2.entryOf (it.word c.ptw) c.row (x.lbase / 32)) e = r at hcopy
      obtain ⟨_ | page, v⟩ := r
      · exact hdone hcopy { hx with }
      · dsimp only at hcopy ⊢
        refine hdone (.consumed (.vstat (.bump (.ite ?_ (.bump ?_))))) hx.flushed
        · exact hcopy.foldl fun _ _ h => h.storeMarked
        · exact hcopy.foldl fun _ _ h => h.storeMarked

theorem State.Sound.execLkfl {t : Nat} {chk : Check} (h : s.Sound C) : Keeps C (execLkfl t chk s) :=
  .accepting h (.onStore h (fun _ _ h => .locketInsn h
      (fun _ _ _ _ => ((h.flush h.tile.slot).ite h).runEffect ⟨((h.flush h.tile.slot).ite h).tile, fun _ _ h => h⟩)))

theorem State.Sound.execRopet {t : Nat} {chk : Check} (h : s.Sound C) : Keeps C (execRopet t chk s) :=
  .onStore h fun _ _ h => .pathInsn h fun _ _ h =>
    ⟨{ h with angle := Tab.sorted_foldl (fun _ _ h => Tab.sorted_set h) h.angle }, fun _ _ h => .ite { h with } h⟩

theorem State.Sound.execRope {t : Nat} {chk : Check} (h : s.Sound C) : Keeps C (execRope t chk s) :=
  .onStore h fun _ _ h => .pathInsn h fun _ _ h => ⟨h.vput, fun _ _ h => h⟩

theorem State.Sound.execAmask {t : Nat} {chk : Check} (h : s.Sound C) : Keeps C (execAmask t chk s) :=
  .onStore h fun _ _ h => .pathInsn h fun _ _ h => h.idle.withParts.ite ⟨h.setMask, fun _ _ h => h.maskMark⟩

theorem State.Sound.execApsmx {t : Nat} {chk : Check} (h : s.Sound C) : Keeps C (execApsmx t chk s) :=
  .onStore h fun _ _ h => .pathInsn h fun _ _ h => h.softmaxEffect

theorem State.Sound.execAmerge {t : Nat} {chk : Check} (h : s.Sound C) : Keeps C (execAmerge t chk s) := by
  refine .onStore h fun _ _ h => .pathInsn h fun tl i h => ?_
  extract_lets n a rec_ act recs on total sum sv rs flags e
  have he : e.Sound := h.laneEffect
  exact ⟨he.tile.vbytes.vbytes, he.mark⟩

end Sys2Proof.Machine
end

section
/-! SUPPORT. The canonical form store by store: the rules and the commands of items: launches, audits, lists, loads, pages and ingest (O3). -/

namespace Sys2Proof.Machine

-- One declaration after another: each blocked elaboration thread holds a stack, which the check's memory limit counts.
set_option Elab.async false

variable {C : Prop} {s : State}

/-! ## Bounded writes -/

theorem State.Sound.boundDiscard {a : Agent} {offset : Nat} (h : s.Sound C) : (s.boundDiscard a offset).Sound C := by
  unfold State.boundDiscard
  split
  · exact h
  · exact h
  · exact .ite (.journal { h.bump.setFld.setFlag with }) { h.bump.setFld.setFlag with }
  · exact .ite (.journal { h.bump.setFld.setFlag with }) { h.bump.setFld.setFlag with }

theorem State.Sound.onHostPf {a : Agent} {o : Nat} {k : State → State} (h : s.Sound C) (hk : (k s).Sound C) : (onHostPf a o s k).Sound C :=
  hk.ite (h.boundDiscard.ite h)

/-! ## Timing -/

theorem State.Sound.clampTick {r : Nat} (h : s.Sound C) : (s.clampTick r).Sound C := h.ite (.ite (.bump { h with }) { h with })

theorem State.Sound.execTallyTick (h : s.Sound C) : Keeps C (execTallyTick s) := by
  refine .whenever h ?_
  extract_lets v e w
  have hv : v.Sound C := State.Sound.foldl (.idleTick { h with }) fun _ _ h => h.clampTick
  clear_value v
  have hw : w.Sound C := State.Sound.setFld { hv with }
  exact .ite (hw.setFlag.ite hw) hv

theorem State.Sound.execCoreRateUpdate {region steps : Nat} (h : s.Sound C) : Keeps C (execCoreRateUpdate region steps s) :=
  .onUnit (.whenever h h.setFld.setFld)

theorem State.Sound.execTimingFrameSend (h : s.Sound C) : Keeps C (execTimingFrameSend s) := .whenever h h.enqueue

theorem State.Sound.setTallyError {err : Nat} (h : s.Sound C) : (s.setTallyError err).Sound C := h.setFld.setFlag.setFlag.ite h.setFld.setFlag

theorem State.Sound.timingMeasured {offset : Int} {errNs : Nat} (h : s.Sound C) : (s.timingMeasured offset errNs).Sound C :=
  .setTallyError (.ite { h with } h)

theorem State.Sound.execTimingFrameReceive {offset : Int} {errNs : Nat} (h : s.Sound C) : Keeps C (execTimingFrameReceive offset errNs s) := by
  unfold Machine.execTimingFrameReceive
  split
  · exact .next h
  · exact .ite (.next { h with }) (.ite (.next (.timingMeasured { h with })) (.next (.ite (.enqueue { h with }) { h with })))

theorem State.Sound.execStallWatchdogExpiry {t : Nat} (h : s.Sound C) : Keeps C (execStallWatchdogExpiry t s) :=
  .onUnit (by
    split
    · exact .next h
    · exact .whenever h h.tileFault)

theorem State.Sound.freshTile {t : Nat} (h : s.Sound C) : (s.freshTile t).Sound C := by
  unfold State.freshTile
  split
  · exact h.setTile h.tile.freshAll
  · exact h

theorem State.Sound.endResidency {t : Nat} (h : s.Sound C) : (s.endResidency t).Sound C := h.setFlag.setFld.setFld.bump.freshTile.ite h

theorem State.Sound.endResidencyOf {tenant : Nat} {handle : Option Nat} (h : s.Sound C) : (s.endResidencyOf tenant handle).Sound C :=
  h.foldl fun _ _ h => h.endResidency.ite h

theorem Tile.Sound.blank {t : Tile} : t.blank.Sound := { Tile.Sound.empty with }

theorem State.Sound.bindTile {t p : Nat} (h : s.Sound C) : (s.bindTile t p).Sound C := (h.endResidency.setTile .blank).setFld.setFld.setFlag

theorem State.Sound.serveTile {t : Nat} (h : s.Sound C) : (s.serveTile t).Sound C :=
  h.ite (by
    split
    · exact h.bindTile.journal
    · exact h)

theorem State.Sound.freeRow15 (h : s.Sound C) : s.freeRow15.Sound C :=
  h.foldl fun _ _ h => by
    split
    · exact h.endResidency.setFld.journal
    · exact h

theorem State.Sound.execTileModeChange (h : s.Sound C) : Keeps C (execTileModeChange s) := by
  unfold Machine.execTileModeChange
  split
  · exact .next h
  · exact .whenever h (.ite (.foldl (.freeRow15 (.journal (.setFld { h with }))) (fun _ _ h => h.serveTile)) (.journal (.setFld { h with })))

/-! ## Descriptors -/

theorem State.Sound.pass3 {id : Nat} {ph : Phase} (h : s.Sound C) : (s.pass3 id ph).Sound C := h.requeue

theorem Keeps.onEvent3 {fn ring : Nat} {ty : Nat → Bool} {ready : State → Item → List Byte → Bool} {k : State → Item → List Byte → State} (h : s.Sound C)
    (hk : ∀ (u : State) i d, u.Sound C → (k u i d).Sound C) : Keeps C (onEvent3 fn ring ty ready s k) := by
  refine .onUnit ?_
  split
  · exact .next h
  · split
    · exact .next h
    · refine .next (.ite (h.pass3.addStatus.endItem.ite ?_) h)
      split
      · exact h.pass3.reject
      · exact hk _ _ _ h.pass3

theorem State.Sound.execNopDescriptor {fn ring : Nat} (h : s.Sound C) : Keeps C (execNopDescriptor fn ring s) := .onEvent3 h fun _ _ _ h => h.endItem

theorem State.Sound.execUnlistedDescriptorType {fn ring : Nat} (h : s.Sound C) : Keeps C (execUnlistedDescriptorType fn ring s) :=
  .onEvent3 h fun _ _ _ h => h

theorem State.Sound.releaseGen {slot gen : Nat} (h : s.Sound C) : (s.releaseGen slot gen).Sound C :=
  .ite (.give { h with }) (.ite (.give { h with }) h)

theorem State.Sound.releaseBoard {tenant handle : Nat} (h : s.Sound C) : (s.releaseBoard tenant handle).Sound C := by
  unfold State.releaseBoard
  split
  · exact h
  · exact (h.foldl (fun _ _ h => h.releaseGen)).setBoard.endResidencyOf

theorem State.Sound.retireComplete {tenant handle : Nat} (h : s.Sound C) : (s.retireComplete tenant handle).Sound C := by
  unfold State.retireComplete
  split
  · split
    · exact h.releaseBoard.endItem.ite h
    · exact h
  · exact h

theorem State.Sound.execRetire {fn ring : Nat} (h : s.Sound C) : Keeps C (execRetire fn ring s) :=
  .onEvent3 h fun _ _ _ h => by
    dsimp only
    split
    · exact h.reject
    · exact h.reject.ite h.setBoard.retireComplete

/-! ## Launches -/

theorem State.Sound.tenantRead {fn a n : Nat} {dev : Bool} (h : s.Sound C) : (s.tenantRead fn a n dev).2.Sound C := by
  unfold State.tenantRead
  split
  · split
    · exact h.takeFor
    · exact h
  · exact h.hostRead

/-- Its parameters are read at event 3. -/
theorem State.Sound.execLaunch {fn ring : Nat} (h : s.Sound C) : Keeps C (execLaunch fn ring s) := by
  refine .accepting h (.onEvent3 h fun u i d h => ?_)
  split
  · exact h.modItem
  · next n _ =>
    have hread := h.tenantRead (fn := fn) (a := leAt d 0x18 8) (n := n) (dev := descDev d)
    generalize u.tenantRead fn (leAt d 0x18 8) n (descDev d) = r at hread
    obtain ⟨_ | ⟨b, m⟩, v⟩ := r
    · exact State.Sound.modItem (s := v) hread
    · cases m with
      | false => exact State.Sound.modItem (s := v) hread
      | true => exact (State.Sound.modItem (s := v) hread).consumed

theorem State.Sound.takeSerial {fn id k : Nat} (h : s.Sound C) : (s.takeSerial fn id k).Sound C := by
  unfold State.takeSerial
  split
  · exact h
  · exact h.ctrlRead.putNatFor.issue.modItem

theorem State.Sound.launchPasses {i : Item} {l : Launch} (h : s.Sound C) : (s.launchPasses i l).Sound C := by
  unfold State.launchPasses
  split
  · exact h
  · exact (h.modBoard.issue.foldl (fun _ _ h => h.takeSerial)).modItem

theorem State.Sound.leave4 {id : Nat} (h : s.Sound C) : (s.leave4 id).Sound C := { h with }

theorem State.Sound.execLaunchCheck {item : Nat} (h : s.Sound C) : Keeps C (execLaunchCheck item s) := by
  unfold Machine.execLaunchCheck
  split
  · exact .next h
  · split
    · exact .next h
    · refine .ite (.next h) ?_
      extract_lets u
      have hu : u.Sound C := h.ite { h with }
      refine .accepting hu (.next (hu.ite ?_))
      split
      · exact hu.leave4.reject
      · exact hu.launchPasses

theorem State.Sound.takeCredits {fn id : Nat} {cs : List (Nat × Nat × Nat × Nat)} (h : s.Sound C) : (s.takeCredits fn id cs).Sound C :=
  h.modItem.foldl fun _ _ h => h.issue

theorem State.Sound.execLaunchArm {item : Nat} (h : s.Sound C) : Keeps C (execLaunchArm item s) := by
  unfold Machine.execLaunchArm
  split
  · exact .next h
  · split
    · exact .ite (.next h) (.next (by
        split
        · exact h.takeCredits.setPhase.leave4.modItem.failPart
        · exact h.takeCredits.setPhase))
    · exact .next h

theorem State.tableStoreOf_sorted (s : State) (b : Board) : Tab.sorted (s.tableStoreOf b) = true :=
  Tab.sorted_foldl (fun _ _ h => Tab.sorted_foldl (fun _ _ h => Tab.sorted_set h) h) rfl

theorem Tile.Sound.keepResident {t : Tile} {n : Nat} (h : t.Sound) : (t.keepResident n).Sound :=
  { h with spad := Memory.wf_filter h.spad, spadMarks := Tab.sorted_filter h.spadMarks }

theorem Tile.Sound.startPart {t : Tile} {ts : TileStream} {q : Part} {store : Tab Word32} {tally : Nat} (h : t.Sound)
    (hstore : Tab.sorted store = true) : (t.startPart ts q store tally).Sound :=
  { h with
    vbuf := rfl, vbufMarks := rfl, masks := rfl, maskMarks := rfl, acc := rfl, accMarks := rfl, tableStore := hstore, tableMarks := rfl
    angle := rfl, syncCount := rfl, syncThresh := rfl, locket := rfl, slots := List.forall_mem_nil _ }

theorem State.Sound.resideAt {t p fn handle item resident : Nat} (h : s.Sound C) : (s.resideAt t p fn handle item resident).Sound C := by
  unfold State.resideAt
  refine (h.setTile h.tile.keepResident).ite ?_
  extract_lets u v w
  have hw : w.Sound C := (h.endResidency.setTile h.endResidency.tile.freshAll).setFlag.setFld.setFld
  exact hw.ite hw.addNote

theorem State.Sound.beginTile {i : Item} {l : Launch} {b : Board} {store : Tab Word32} {bt : Nat} {ts : TileStream} (h : s.Sound C)
    (hstore : Tab.sorted store = true) :
    (s.beginTile i l b store bt ts).Sound C := by
  unfold State.beginTile
  dsimp only
  split
  · exact h
  · exact (h.resideAt.setTile (h.resideAt.tile.startPart hstore)).handOut

theorem State.Sound.execLaunchBegin {item : Nat} (h : s.Sound C) : Keeps C (execLaunchBegin item s) := by
  unfold Machine.execLaunchBegin
  split
  · exact .next h
  · split
    · exact .ite (.next h) (.ite (.next h.leave4.failPart)
        (.ite (.next h) (.next ((h.leave4.setPhase.bump.addNote.ite h.leave4.setPhase).foldl
        (fun _ _ h => h.beginTile (State.tableStoreOf_sorted _ _))))))
    · exact .next h

/-! ## Items that stop -/

theorem State.Sound.abortItem {id st : Nat} (h : s.Sound C) : (s.abortItem id st).Sound C :=
  State.Sound.endItem (.addStatus { h.leave4 (id := id) with })

theorem State.Sound.stopItem {st : Nat} {i : Item} (h : s.Sound C) : (s.stopItem st i).Sound C := by
  unfold State.stopItem
  split
  · exact h
  · exact h.stopPart.ite h.abortItem
  · exact h.abortItem

theorem State.Sound.dropRetiring {ctx : Nat} (h : s.Sound C) : (s.dropRetiring ctx).Sound C := { h with }

theorem State.Sound.stopContext {ctx st : Nat} (h : s.Sound C) : (s.stopContext ctx st).Sound C := h.dropRetiring.foldl fun _ _ h => h.stopItem

theorem State.Sound.disable {fn : Nat} (h : s.Sound C) : (s.disable fn).Sound C := h.setFld.stopContext.ite h

theorem State.Sound.disableAll {fns : List Nat} (h : s.Sound C) : (s.disableAll fns).Sound C := h.foldl fun _ _ h => h.disable

/-! ## Audits -/

theorem State.Sound.fenceDrained {ctx : Nat} (h : s.Sound C) : (s.fenceDrained ctx).Sound C := h.setFlag.ite h

theorem State.Sound.fenceForgets {ctx id : Nat} (h : s.Sound C) : (s.fenceForgets ctx id).Sound C :=
  .fenceDrained { h with fenceItems := Tab.sorted_set h.fenceItems }

theorem State.Sound.fence {ctx cause : Nat} (h : s.Sound C) : (s.fence ctx cause).Sound C := by
  unfold State.fence
  refine h.ite ?_
  extract_lets u v w x
  have hu : u.Sound C := h.setFlag.setFlag.setFld
  have hv : v.Sound C := { hu with fenceItems := Tab.sorted_set hu.fenceItems }
  have hw : w.Sound C := hv.stopContext.endResidencyOf
  exact (hw.setFld.ite hw).fenceDrained

theorem State.Sound.execTenantFence {a : Agent} {ctx : Nat} (h : s.Sound C) : Keeps C (execTenantFence a ctx s) :=
  .onUnit (.onAccess h (h.onHostPf h.fence))

theorem State.Sound.execTenantUnfence {a : Agent} {ctx : Nat} (h : s.Sound C) : Keeps C (execTenantUnfence a ctx s) :=
  .onUnit (.onAccess h (h.onHostPf ((h.setFlag.setFlag.setFld.setFld.ite h.setFlag.setFlag.setFld).ite h)))

theorem State.Sound.auditCheck {pool idx : Nat} (h : s.Sound C) : (s.auditCheck pool idx).Sound C :=
  h.ite (by
    dsimp only
    split
    · exact h.bump.setFld.setFld.journal.fence
    · exact h.bump.setFld.setFld.journal)

theorem State.Sound.execAuditSnap {a : Agent} (h : s.Sound C) : Keeps C (execAuditSnap a s) :=
  .onUnit (.onAccess h (h.onHostPf (h.setFld.setFld.setFld.setFld.setFld.auditCheck.ite h.setFld.setFld.setFld.setFld.setFld)))

/-! ## Lists -/

theorem State.Sound.startList {id : Nat} {d : List Byte} (h : s.Sound C) : (s.startList id d).Sound C := h.modItem

theorem State.Sound.modList {id : Nat} {f : ListRun → ListRun} (h : s.Sound C) : (s.modList id f).Sound C := h.modItem

theorem State.Sound.listEntry {i : Item} {l : ListRun} (h : s.Sound C) : (s.listEntry i l).2.Sound C := by
  have hread := h.hostRead (fn := i.fn) (a := l.addr + listEntryBytes i.type * l.pos) (n := listEntryBytes i.type)
  unfold State.listEntry
  dsimp only
  generalize s.hostRead i.fn (l.addr + listEntryBytes i.type * l.pos) (listEntryBytes i.type) = r at hread
  obtain ⟨_ | ⟨b, m⟩, u⟩ := r
  · dsimp only at hread ⊢
    exact hread.outsideItem
  · cases m with
    | false => exact hread
    | true =>
      dsimp only at hread ⊢
      exact hread.consumed

theorem State.Sound.listResult {i : Item} {l : ListRun} {result : Nat} {fields : List (Nat × List Byte)} (h : s.Sound C) :
    (s.listResult i l result fields).Sound C := by
  unfold State.listResult
  extract_lets u v w
  have hu : u.Sound C := h.foldl fun _ _ h => h.hostWrite.ite h.hostWrite.outsideItem
  have hw : w.Sound C := (hu.ite hu.addNote).modList
  exact hw.endItem.ite hw

theorem Keeps.onEntry {ty op item : Nat} {ops : List Nat} {before : Item → Bool} {k : State → Item → ListRun → List Byte → State} (h : s.Sound C)
    (hk : ∀ (u : State) i l b, u.Sound C → (k u i l b).Sound C) : Keeps C (onEntry ty op ops before item s k) := by
  unfold Machine.onEntry
  split
  · exact .next h
  · split
    · exact .next h
    · exact .ite (.next h) (.next ((hk _ _ _ _ h.listEntry).ite h))

/-! ## Loads -/

theorem State.Sound.sourceRead {fn a n : Nat} {dev : Bool} (h : s.Sound C) : (s.sourceRead fn a n dev).2.Sound C := by
  have hread := h.hostRead (fn := fn) (a := a) (n := n)
  unfold State.sourceRead
  split
  · split
    · exact h.bursts.memRead
    · exact h
  · split
    · next heq => rw [heq] at hread; exact hread
    · next heq => rw [heq] at hread; exact hread

theorem State.Sound.takeTables {b : Board} (h : s.Sound C) : (s.takeTables b).Sound C :=
  h.foldl fun _ _ h => by
    dsimp only
    split
    · exact .issue { h with }
    · exact h

theorem State.Sound.install {fn handle : Nat} {b : Board} (h : s.Sound C) : (s.install fn handle b).Sound C := h.takeTables.setBoard.auditFresh

theorem State.Sound.loadCopy {fn id : Nat} {d : List Byte} (h : s.Sound C) : (s.loadCopy fn id d).Sound C := by
  unfold State.loadCopy
  dsimp only
  have hhead := h.sourceRead (fn := fn) (a := leAt d 0x18 8) (n := 128) (dev := descDev d)
  generalize s.sourceRead fn (leAt d 0x18 8) 128 (descDev d) = r at hhead
  obtain ⟨_ | hd, u⟩ := r
  · exact hhead.reject
  · dsimp only at hhead ⊢
    have himage := hhead.sourceRead (fn := fn) (a := leAt d 0x18 8) (n := leAt (hd.map Prod.fst) 8 4) (dev := descDev d)
    generalize u.sourceRead fn (leAt d 0x18 8) (leAt (hd.map Prod.fst) 8 4) (descDev d) = r at himage
    obtain ⟨_ | img, v⟩ := r
    · exact himage.reject
    · dsimp only at himage ⊢
      split
      · next heq => exact (congrArg Prod.snd heq ▸ himage.storeMarked.consumed.sourceRead).reject
      · next bind w heq =>
        have hbind : (w.consumed id (bind.any Prod.snd)).Sound C := (congrArg Prod.snd heq ▸ himage.storeMarked.consumed.sourceRead).consumed
        refine hbind.reject.ite (hbind.reject.ite (hbind.reject.ite ?_))
        split
        · exact hbind.reject
        · exact hbind.install.endItem

theorem State.Sound.execLoad {fn ring : Nat} (h : s.Sound C) : Keeps C (execLoad fn ring s) :=
  .accepting h (.onEvent3 h (fun _ _ _ h => h.reject.ite h.loadCopy))

/-! ## Page commands -/

theorem State.Sound.pageRefused {i : Item} {l : ListRun} {code : Nat} (h : s.Sound C) : (s.pageRefused i l code).Sound C := h.bump.listResult

theorem State.Sound.pageSee {item : Nat} {p : Pool} {c : PageCmd} (h : s.Sound C) : (s.pageSee item p c).Sound C := h.ctrlRead.ctrlRead.ite h.ctrlRead

theorem Keeps.onPage {op item : Nat} {needs : State → Item → ListRun → PageCmd → Pool → List (Bool × Nat)}
    {k : State → Item → ListRun → PageCmd → Pool → State} (h : s.Sound C) (hk : ∀ (u : State) i l c p, u.Sound C → (k u i l c p).Sound C) :
    Keeps C (onPage op item s needs k) := by
  refine .onEntry h fun u i l b h => ?_
  dsimp only
  refine h.pageRefused.ite ?_
  split
  · exact h.pageRefused
  · refine h.pageRefused.ite ?_
    split
    · exact h.pageSee.pageRefused
    · exact hk _ _ _ _ _ h.pageSee

theorem State.Sound.execPageCmd {fn ring : Nat} (h : s.Sound C) : Keeps C (execPageCmd fn ring s) := .onEvent3 h fun _ _ _ h => h.startList

theorem State.Sound.execMap {item : Nat} (h : s.Sound C) : Keeps C (execMap item s) :=
  .accepting h (.onPage h (fun _ _ _ _ _ h => h.firstRef.listResult))

theorem State.Sound.execRef {item : Nat} (h : s.Sound C) : Keeps C (execRef item s) :=
  .accepting h (.onPage h (fun _ _ _ _ _ h => h.setPage.listResult))

theorem State.Sound.execUnref {item : Nat} (h : s.Sound C) : Keeps C (execUnref item s) :=
  .accepting h (.onPage h (fun _ _ _ _ _ h => h.unref.listResult))

theorem State.Sound.execSwapOut {item : Nat} (h : s.Sound C) : Keeps C (execSwapOut item s) := .accepting h (.onPage h (fun _ _ _ _ _ h => h.modList))

theorem State.Sound.swapNext {i : Item} {p : Pool} {w : Swap} {n : Nat} {done : State → State} (h : s.Sound C) (hdone : ∀ s : State, s.Sound C →
    (done s).Sound C) :
    (s.swapNext i p w n done).Sound C :=
  h.modList.ite (hdone _ h)

theorem State.Sound.swapOutLine {i : Item} {l : ListRun} {p : Pool} {w : Swap} {n : Nat} (h : s.Sound C) : (s.swapOutLine i l p w n).Sound C :=
  (h.takeFor.consumed.hostWrite.ite h.takeFor.consumed.hostWrite.outsideItem).swapNext fun _ h => h.unref.listResult

theorem State.Sound.swapInLine {i : Item} {l : ListRun} {p : Pool} {w : Swap} {n : Nat} (h : s.Sound C) : (s.swapInLine i l p w n).Sound C := by
  have hdone : ∀ v : State, v.Sound C → ((v.firstRef i.fn w.pool p w.page).listResult i l 0 []).Sound C := fun _ hv => hv.firstRef.listResult
  unfold State.swapInLine
  dsimp only
  split
  · exact h.bursts.hostRead.consumed.memWriteMarked.swapNext hdone
  · exact h.bursts.hostRead.outsideItem.memWrite.swapNext hdone

theorem State.Sound.execSwapOutCopy {item : Nat} (h : s.Sound C) : Keeps C (execSwapOutCopy item s) :=
  .accepting h (by
    split
    · exact .next h
    · exact .ite (.next h) (by
        split
        · exact .next h.swapOutLine
        · exact .next (h.ite (h.ctrlRead.pageRefused.ite (h.ctrlRead.bump.outsideItem.unref.listResult.ite h.ctrlRead.swapOutLine)))))

theorem State.Sound.execSwapIn {item : Nat} (h : s.Sound C) : Keeps C (execSwapIn item s) :=
  .accepting h (by
    split
    · exact .whenever h h.swapInLine
    · exact .onPage h (fun _ _ _ _ _ h => (h.bump.outsideItem.foldl (fun _ _ h => h.storeFor)).firstRef.listResult.ite h.swapInLine))

theorem State.Sound.execOpenPool {item : Nat} (h : s.Sound C) : Keeps C (execOpenPool item s) :=
  .accepting h (.onEntry h (fun _ _ _ _ h => h.pageRefused.ite
      (h.takeFor.consumed.pageRefused.ite (h.takeFor.consumed.pageRefused.ite h.takeFor.consumed.storeFor.setPool.auditFresh.auditFresh.listResult))))

theorem State.Sound.execClosePool {item : Nat} (h : s.Sound C) : Keeps C (execClosePool item s) :=
  .accepting h (.onPage h (fun _ _ _ _ _ h => h.setPool.listResult))

/-! ## Ingest -/

theorem State.Sound.setSlotState {n : Nat} {t : TableSlot} (h : s.Sound C) : (s.setSlotState n t).Sound C := { h with }

theorem State.Sound.takeSlots {id mask : Nat} (h : s.Sound C) : (s.takeSlots id mask).Sound C :=
  h.foldl (fun _ _ h => h.ite (by
    split
    · exact h.setSlotState.issue.modItem
    · exact h))

theorem State.Sound.execIngest {fn ring : Nat} (h : s.Sound C) : Keeps C (execIngest fn ring s) :=
  .accepting h (.onEvent3 h (fun _ _ _ h => by
    dsimp only
    split
    · exact h.takeFor.consumed.reject
    · exact h.takeFor.consumed.modItem.takeSlots))

theorem State.Sound.execIngestArm {item engine : Nat} (h : s.Sound C) : Keeps C (execIngestArm item engine s) :=
  .onUnit (by
    split
    · exact .next h
    · split
      · exact .next h
      · exact .whenever h h.takeCredits.modItem)

theorem State.Sound.blockRef {i : Item} {y : BlockHeader} (h : s.Sound C) : (s.blockRef i y).Sound C := by
  unfold State.blockRef
  split
  · exact h
  · exact h.issue.give

theorem State.Sound.setRun {id : Nat} {r : IngestRun} (h : s.Sound C) : (s.setRun id r).Sound C := h.modItem.endItem.ite h.modItem

theorem State.Sound.blockResult {i : Item} {r : IngestRun} {g : Segment} {code gen : Nat} (h : s.Sound C) :
    (s.blockResult i r g code gen).1.Sound C :=
  .ite (by
    split
    · exact h.addStatus.bump
    · exact h.bump.ite h) (.putNatFor (by
    split
    · exact h.addStatus.bump
    · exact h.bump.ite h))

theorem State.Sound.afterBlock {i : Item} {g : Segment} {r : IngestRun} (h : s.Sound C) : (s.afterBlock i g r).Sound C := h.setRun

theorem State.Sound.execIngestBlockDecode {item : Nat} (h : s.Sound C) : Keeps C (execIngestBlockDecode item s) := by
  refine .accepting h ?_
  split
  · exact .next h
  · next i _ =>
    split
    · next r g _ _ =>
      refine .ite (.next h) ?_
      extract_lets quick inside hd comp n pl u o v out w x
      have hquick : ∀ code r, Keeps C (quick code r) := fun _ _ => .next h.blockResult.afterBlock
      have hhd : hd.2.2.Sound C := by
        dsimp only [hd]
        split
        · exact h.takeFor
        · exact h
      have hpl : u.Sound C := by
        dsimp only [u, pl]
        split
        · exact hhd.takeFor
        · exact h
      have hv : v.Sound C := hpl.blockRef
      have hw : w.Sound C := hv.storeFor.ite hv
      refine .ite (hquick _ _) (.ite (hquick _ _) (.ite (hquick _ _) ?_))
      exact .ite (.ite (hquick _ _) (.next h)) (.ite (.ite (hquick _ _) (.next h)) (.next hw.blockResult.afterBlock))
    · exact .next h

theorem State.Sound.layoutElem {fn : Nat} {g : Segment} {k n : Nat} (h : s.Sound C) : (s.layoutElem fn g k n).2.Sound C := h.takeFor

theorem State.Sound.layoutRead {fn : Nat} {g : Segment} {kb nb c : Nat} (h : s.Sound C) : (s.layoutRead fn g kb nb c).2.Sound C :=
  h.foldl_snd fun _ _ h => h.layoutElem

theorem State.Sound.layoutPut {fn a : Nat} {bytes : List Byte} {m : Bool} (h : s.Sound C) : (s.layoutPut fn a bytes m).Sound C := h.storeMarked

theorem State.Sound.layoutColumn {item fn : Nat} {g : Segment} {kb nb c : Nat} (h : s.Sound C) : (s.layoutColumn item fn g kb nb c).Sound C :=
  h.layoutRead.consumed.bump.layoutPut.layoutPut.ite h.layoutRead.consumed.bump.layoutPut

theorem State.Sound.layoutAll {item fn : Nat} {g : Segment} (h : s.Sound C) : (s.layoutAll item fn g).Sound C := h.foldl fun _ _ h => h.layoutColumn

theorem State.Sound.execLayoutWrite {item : Nat} (h : s.Sound C) : Keeps C (execLayoutWrite item s) :=
  .accepting h (by
    split
    · exact .next h
    · split
      · exact .ite (.next h) (.next ((h.layoutAll.bump.ite h).ite (h.layoutAll.bump.ite h).storeFor).setRun)
      · exact .next h)

theorem State.Sound.stopForward {id : Nat} (h : s.Sound C) : (s.stopForward id).Sound C := by
  unfold State.stopForward
  split
  · exact h
  · split
    · exact h
    · exact h.ite h.addStatus.setRun

theorem State.Sound.forwardAnswered {id : Nat} (h : s.Sound C) : (s.forwardAnswered id).Sound C := by
  unfold State.forwardAnswered
  split
  · exact h
  · split
    · exact h
    · exact h.ite h.setRun

theorem State.Sound.execIngestForward {item : Nat} (h : s.Sound C) : Keeps C (execIngestForward item s) :=
  .accepting h (by
    split
    · exact .next h
    · split
      · exact .next h
      · exact .ite (.next h) (by
          split
          · exact .next (h.stopForward.ite h.setRun)
          · exact .ite (.next h.stopForward) (by
              split
              · exact .next h
              · exact .ite (.next h.setRun) (.ite (.next h.takeFor.consumed.inject.stopForward) (.next h.takeFor.consumed.inject.setRun)))))

theorem State.Sound.inboxWritten {n a len : Nat} (h : s.Sound C) : (s.inboxWritten n a len).Sound C := by
  unfold State.inboxWritten
  split
  · exact h
  · exact .setFld { h with }

theorem State.Sound.replyInbox {req : Packet} {type reason : Nat} (h : s.Sound C) : (s.replyInbox req type reason).Sound C := h.send

theorem State.Sound.execInboxWriteReceive (h : s.Sound C) : Keeps C (execInboxWriteReceive s) := by
  unfold Machine.execInboxWriteReceive
  split
  · exact .next h
  · exact .accepting h (.onAwake h (by
      dsimp only
      split
      · exact .replyInbox { h with }
      · exact .replyInbox (.inboxWritten (.protectedWrite { h with }))))

theorem State.Sound.breakInboxes (h : s.Sound C) : s.breakInboxes.Sound C :=
  h.foldl fun _ _ h => by
    split
    · exact h.setFlag.ite h
    · exact h

theorem State.Sound.breakCxlInboxes (h : s.Sound C) : s.breakCxlInboxes.Sound C :=
  h.foldl fun _ _ h => by
    split
    · exact h.setFlag.ite h
    · exact h

theorem State.Sound.execIngestCmd {fn ring : Nat} (h : s.Sound C) : Keeps C (execIngestCmd fn ring s) := .onEvent3 h fun _ _ _ h => h.startList

theorem Keeps.onIngestCmd {op item : Nat} {needs : State → Item → IngestCmd → List (Bool × Nat)} {k : State → Item → ListRun → IngestCmd → State}
    (h : s.Sound C) (hk : ∀ (u : State) i l c, u.Sound C → (k u i l c).Sound C) : Keeps C (onIngestCmd op item s needs k) := by
  refine .onEntry h fun u i l b h => ?_
  dsimp only
  refine h.listResult.ite ?_
  split
  · exact h.listResult
  · exact hk _ _ _ _ h

theorem State.Sound.demote {n : Nat} (h : s.Sound C) : (s.demote n).Sound C := (h.setSlotState.setAudit (by simp)).setAudit (by simp)

theorem State.Sound.execTableLoad {item : Nat} (h : s.Sound C) : Keeps C (execTableLoad item s) :=
  .accepting h (.onIngestCmd h (fun _ _ _ _ h => h.takeFor.consumed.listResult.ite h.takeFor.consumed.demote.setSlotState.listResult))

theorem State.Sound.execDrop {item : Nat} (h : s.Sound C) : Keeps C (execDrop item s) :=
  .onIngestCmd h (fun _ _ _ _ h => .listResult (by
    split
    · exact h
    · exact h.setSlotState.auditFresh.ite h.demote))

theorem State.Sound.execInboxOpen {item : Nat} (h : s.Sound C) : Keeps C (execInboxOpen item s) :=
  .onIngestCmd h fun _ _ _ _ h => .listResult (.setFld (.setFlag (.setFlag (.setFld (.setFld { h with })))))

theorem State.Sound.closeInbox {n : Nat} (h : s.Sound C) : (s.closeInbox n).Sound C := by
  unfold State.closeInbox
  dsimp only
  refine State.Sound.setFlag (State.Sound.setFlag { h with conserved := fun hC => (h.conserved hC).map_items (fun i => ?_) rfl rfl rfl })
  exact ⟨rfl, rfl⟩

theorem State.Sound.execInboxClose {item : Nat} (h : s.Sound C) : Keeps C (execInboxClose item s) :=
  .onIngestCmd h fun _ _ _ _ h => h.closeInbox.listResult

end Sys2Proof.Machine
end

section
/-! SUPPORT. The canonical form store by store: items come and leave; transfers, collectives and windows (O3). -/

namespace Sys2Proof.Machine

-- One declaration after another: each blocked elaboration thread holds a stack, which the check's memory limit counts.
set_option Elab.async false

variable {C : Prop} {s : State}

/-! ## Completion -/

theorem State.Sound.setVec {fn v : Nat} {x : Vec} (h : s.Sound C) : (s.setVec fn v x).Sound C := { h with }

theorem State.Sound.sendVec {fn v : Nat} (h : s.Sound C) : (s.sendVec fn v).Sound C := by
  unfold State.sendVec
  extract_lets x
  exact h.setVec.ite (h.setVec.bump.ite { h.setVec (fn := fn) (v := v) (x := { x with count := 0, pbit := false }) with })

theorem State.Sound.vecReached {fn v : Nat} (h : s.Sound C) : (s.vecReached fn v).Sound C := h.sendVec.ite h

theorem State.Sound.vecAdd {fn v : Nat} (h : s.Sound C) : (s.vecAdd fn v).Sound C := h.setVec.vecReached

theorem State.Sound.execMsixTimerExpiry {fn vector : Nat} (h : s.Sound C) : Keeps C (execMsixTimerExpiry fn vector s) :=
  .onUnit (.whenever h h.sendVec)

theorem State.Sound.flushHeld {fn : Nat} (h : s.Sound C) : (s.flushHeld fn).Sound C := h.foldl fun _ _ h => h.sendVec.ite h

theorem State.Sound.execMsixUnmask {fn : Nat} {what : Option Nat} (h : s.Sound C) : Keeps C (execMsixUnmask fn what s) :=
  .onUnit (.next (.flushHeld (by
    split
    · exact h.setVec
    · exact { h with })))

theorem State.Sound.durationOf {i : Item} (h : s.Sound C) : (s.durationOf i).2.Sound C := by
  unfold State.durationOf
  split
  · dsimp only
    exact h
  · dsimp only
    exact { h with }

theorem State.Sound.giveBack {i : Item} (h : s.Sound C) : (s.giveBack i).Sound C := by
  unfold State.giveBack
  extract_lets u v
  have hu : u.Sound C := h.foldl fun _ _ h => h.give
  have hv : v.Sound C := hu.foldl fun _ _ h => h.releaseGen
  split
  · exact hv
  · extract_lets w
    have hw : w.Sound C := hv.foldl fun _ _ h => h.give.release
    exact hw.modBoard.give.retireComplete.ite hw

theorem State.Sound.drainRing {fn ring : Nat} (h : s.Sound C) : (s.drainRing fn ring).Sound C := h.setFlag.ite h

theorem State.Sound.narrowForgets {ctx id : Nat} (h : s.Sound C) : (s.narrowForgets ctx id).Sound C := by
  unfold State.narrowForgets
  split
  · exact h
  · exact .ite (.setFlag { h with }) { h with }

theorem State.Sound.sorted_give {pool idx n : Nat} (h : s.Sound C) : Tab.sorted (s.give pool idx n).audit = true := by
  dsimp only [State.give]
  exact Tab.sorted_modify h.audit

/-- An item of the block leaves. -/
theorem State.Sound.leave {i : Item} (h : s.Sound C) (hi : C → ∃ j ∈ s.items, j.id = i.id ∧ j.fn = i.fn) : (s.leave i).Sound C := by
  have hgone : (({ s.leave4 i.id with
      items := s.items.filter (fun j => j.id != i.id)
      transfers := s.transfers.filter (fun x => x.item != i.id)
      landings := s.landings.filter (fun x => x.item != i.id) } : State).give 0 i.fn 1).Sound C :=
    { h with
      audit := h.sorted_give
      conserved := fun hC => by
        obtain ⟨j, hj, hid, hfn⟩ := hi hC
        exact (h.conserved hC).leave h.audit hj (by rw [hid]; rfl) rfl (by rw [hfn]; rfl) }
  exact State.Sound.foldl hgone.giveBack.drainRing.narrowForgets.fenceForgets.stir fun _ _ h => h.auditCheck

@[simp] theorem State.durationOf_items (s : State) (i : Item) : (s.durationOf i).2.items = s.items := by
  unfold State.durationOf; split <;> rfl

@[simp] theorem State.hostWrite_items (s : State) (fn a : Nat) (bytes : List Byte) (m : Bool) : (s.hostWrite fn a bytes m).2.items = s.items := by
  unfold State.hostWrite
  split
  · exact State.bump_items ..
  · split <;> rfl

@[simp] theorem State.sendVec_items (s : State) (fn v : Nat) : (s.sendVec fn v).items = s.items := by
  unfold State.sendVec
  dsimp only
  split
  · rfl
  · split
    · exact State.bump_items ..
    · rfl

@[simp] theorem State.vecReached_items (s : State) (fn v : Nat) : (s.vecReached fn v).items = s.items := by
  unfold State.vecReached
  split
  · exact State.sendVec_items ..
  · rfl

@[simp] theorem State.vecAdd_items (s : State) (fn v : Nat) : (s.vecAdd fn v).items = s.items := by
  exact (State.vecReached_items ..).trans rfl

/-- The item whose record is due is one of the block, and what writes its record moves no item. -/
theorem State.Sound.execCompletionRecordWrite {item : Nat} (h : s.Sound C) : Keeps C (execCompletionRecordWrite item s) := by
  unfold Machine.execCompletionRecordWrite
  split
  · exact .next h
  · next i hi =>
    have hmem : i ∈ s.items := List.mem_of_find?_eq_some hi
    have hleave : ∀ {v : State}, v.Sound C → v.items = s.items → (v.leave i).Sound C := fun hv he => hv.leave fun _ => ⟨i, he ▸ hmem, rfl, rfl⟩
    refine .accepting h (.whenever h ?_)
    dsimp only
    refine State.Sound.ite ?_ (.ite ?_ ?_)
    · exact hleave h.durationOf.bump (by simp)
    · exact hleave h.durationOf.hostWrite.bump (by simp)
    · split
      · exact hleave h.durationOf.hostWrite.bump.addFld.vecAdd (by simp [State.addFld_eq])
      · exact hleave h.durationOf.hostWrite.addFld.vecAdd (by simp [State.addFld_eq])

/-! ## Rings -/

theorem State.Sound.setRing {fn ring : Nat} {x : RingRun} (h : s.Sound C) : (s.setRing fn ring x).Sound C := { h with }

@[simp] theorem State.hostRead_items (s : State) (fn a n : Nat) : (s.hostRead fn a n).2.items = s.items := by
  unfold State.hostRead
  split
  · exact State.bump_items ..
  · split <;> rfl

@[simp] theorem State.hostRead_nextItem (s : State) (fn a n : Nat) : (s.hostRead fn a n).2.nextItem = s.nextItem := by
  unfold State.hostRead
  split
  · exact State.bump_nextItem ..
  · split <;> rfl

theorem State.Sound.sorted_issue {pool idx n : Nat} (h : s.Sound C) : Tab.sorted (s.issue pool idx n).audit = true := by
  dsimp only [State.issue]
  exact Tab.sorted_modify h.audit

/-- An item comes to the block with the next number. -/
theorem State.Sound.newItem {fn ring k r id : Nat} {d : Option (List Byte)} (h : s.Sound C) (hf : fn < 64) (hid : id = s.nextItem) :
    ({ (({ s with nextItem := id + 1 } : State).issue 0 fn 1).addFld Fld.ringCfgSqHead r 1 with items := s.items ++ [Item.new id fn ring k d] } :
        State).Sound
      C :=
  { h with
    regs := Tab.sorted_set h.regs
    audit := h.sorted_issue
    conserved := fun hC => (h.conserved hC).come h.audit hid hf rfl (congrArg (· + 1) hid) rfl }

/-- A descriptor of a function of the device is fetched. -/
theorem State.Sound.fetchOne {fn ring : Nat} (h : s.Sound C) (hf : fn < 64) : (s.fetchOne fn ring).Sound C := by
  have hnew := fun d => (h.hostRead (fn := fn) (a := s.fld Fld.ringCfgSqBase (ringKey fn ring) + 64 * (s.fld Fld.ringCfgSqHead (ringKey fn ring) %
    s.sqEntries (ringKey fn ring))) (n := 64)).newItem (ring := ring) (k := s.fld Fld.ringCfgSqHead (ringKey fn ring)) (r := ringKey fn ring) (d := d) hf
    (State.hostRead_nextItem s ..).symm
  unfold State.fetchOne
  dsimp only
  split
  · exact hnew _
  · exact State.Sound.endItem (.ite (.addStatus (.addStatus (hnew _))) (.addStatus (hnew _)))
  · exact State.Sound.outsideItem (hnew _)

theorem State.Sound.fetchRun {fn ring n : Nat} (h : s.Sound C) (hf : fn < 64) : (State.fetchRun fn ring n s).Sound C := by
  induction n generalizing s with
  | zero => exact h
  | succ n ih => exact (ih (h.fetchOne hf)).ite h

theorem State.Sound.execDescriptorFetch {fn ring : Nat} (h : s.Sound C) : Keeps C (execDescriptorFetch fn ring s) := by
  intro u hu
  obtain ⟨hok, hu⟩ := onUnit_next.1 hu
  have hf : fn < 64 := (by simpa using hok : fn < 64 ∧ ring < 64).1
  refine Keeps.whenever h ?_ u hu
  exact { h.fetchRun hf with }

theorem State.Sound.doorbell {fn ring : Nat} {f : State → Option RingRun} (h : s.Sound C) : (State.doorbell fn ring f s).Sound C :=
  h.ite (h.bump.ite (by
    split
    · exact h.setRing
    · exact h.bump))

theorem State.Sound.execSqTailWrite {fn ring : Nat} {value : Word32} (h : s.Sound C) : Keeps C (execSqTailWrite fn ring value s) :=
  .onUnit (.onAccess h h.doorbell)

theorem State.Sound.execCqHeadWrite {fn ring : Nat} {value : Word32} (h : s.Sound C) : Keeps C (execCqHeadWrite fn ring value s) :=
  .onUnit (.onAccess h h.doorbell)

theorem State.Sound.reachLock (h : s.Sound C) : s.reachLock.Sound C := h.ite (h.setFlag.setFlag.setFlag.setFld.ite h.setFlag)

theorem State.Sound.execSetupLock {a : Agent} (h : s.Sound C) : Keeps C (execSetupLock a s) :=
  .onUnit (.onAccess h (by
    split
    · exact h.reachLock.ite h
    · exact h.reachLock.ite h
    · exact h
    · exact h.boundDiscard))

theorem State.Sound.execRingEnable {fn ring : Nat} (h : s.Sound C) : Keeps C (execRingEnable fn ring s) :=
  .onUnit (.onAccess h (h.ite (h.setFld.setFlag.setFlag.setFld.setFld.setRing.reachLock.ite h.setFld.setFlag)))

theorem State.Sound.execRingDisable {fn ring : Nat} (h : s.Sound C) : Keeps C (execRingDisable fn ring s) := .onUnit (.onAccess h h.setFlag.drainRing)

theorem State.Sound.execFnQuotaWrite {a : Agent} {ctx : Nat} {value : BitVec 15} (h : s.Sound C) : Keeps C (execFnQuotaWrite a ctx value s) :=
  .onUnit (.onAccess h (h.onHostPf (h.setFlag.ite h.setFld.setFlag)))

/-! ## Transfers -/

theorem State.Sound.modTransfer {id : Nat} {f : Transfer → Transfer} (h : s.Sound C) : (s.modTransfer id f).Sound C := { h with }

theorem State.Sound.sendChunk {id c : Nat} (h : s.Sound C) : (s.sendChunk id c).Sound C := by
  unfold State.sendChunk
  split
  · exact h
  · split
    · split
      · exact h.consumed.tileEvent.inject.failPart.ite h.consumed.tileEvent.inject.modTransfer
      · exact h
    · exact h

theorem State.Sound.pump {n id : Nat} (h : s.Sound C) : (s.pump n id).Sound C := by
  induction n generalizing s with
  | zero => exact h
  | succ n ih =>
    unfold State.pump
    split
    · exact h
    · dsimp only
      refine h.ite ?_
      split
      · exact ih h.modTransfer.sendChunk
      · exact (ih h.modTransfer.sendChunk).ite h

theorem State.Sound.pumpOne {id : Nat} (h : s.Sound C) : (s.pumpOne id).Sound C := by
  unfold State.pumpOne
  split
  · exact h.pump
  · exact h

theorem State.Sound.pumpItem {item : Nat} (h : s.Sound C) : (s.pumpItem item).Sound C := h.foldl fun _ _ h => h.pumpOne

theorem State.Sound.endTransfer {x : Transfer} (h : s.Sound C) : (s.endTransfer x).Sound C := by
  unfold State.endTransfer
  dsimp only
  split
  · exact { h with }
  · split
    · exact .completeOp { h with }
    · exact { h with }

theorem State.Sound.returned {kind : PktKind} {aux : List Nat} (h : s.Sound C) : (s.returned kind aux).Sound C := by
  unfold State.returned
  split
  · split
    · exact h.failPart
    · exact h
  · split
    · exact h.failPart
    · exact h
  · exact h.bump
  · exact h.stopForward
  · exact h
  · exact h
  · exact h
  · exact h
  · exact h

/-! ## Collectives -/

theorem State.Sound.execRsend {t : Nat} (h : s.Sound C) : Keeps C (execRsend t s) :=
  .onInsn h fun _ _ => by
    split
    · split
      · exact h.ite (.pumpOne { h.issueOp with })
      · exact h
    · exact h

theorem State.Sound.setLanding {l : Landing} (h : s.Sound C) : (s.setLanding l).Sound C := .ite { h with } { h with }

theorem State.Sound.deliverIndex {p : Nat} {l : Landing} {x : Op} {c : Nat} (h : s.Sound C) : (s.deliverIndex p l x c).Sound C :=
  (h.race.tileEvent.setTile h.tile.swrite).bump

theorem State.Sound.straggler {tenant : Nat} {firsts : List (Nat × Nat × Nat)} (h : s.Sound C) : (s.straggler tenant firsts).Sound C := by
  unfold State.straggler
  split
  · exact h
  · exact h.setFld.bump.setFld.ite h.setFld

theorem State.Sound.settleLanding {n item coll step t : Nat} (h : s.Sound C) : (s.settleLanding n item coll step t).Sound C := by
  induction n generalizing s with
  | zero => exact h
  | succ n ih =>
    unfold State.settleLanding
    dsimp only
    split
    · split
      · exact h
      · split
        · exact h
        · refine h.ite (ih (.completeOp (.signal (.setLanding (.ite ?_ (.foldl ?_ fun _ _ h => h.deliverIndex))))))
          · exact h.ite h.straggler
          · exact h.ite h.straggler
    · exact h

theorem State.Sound.settle {item coll step t : Nat} (h : s.Sound C) : (s.settle item coll step t).Sound C := h.settleLanding

theorem State.Sound.postLanding {l : Landing} {i : Insn} (h : s.Sound C) : (s.postLanding l i).Sound C := h.failPart.ite h.settle

theorem State.Sound.execRland {t : Nat} (h : s.Sound C) : Keeps C (execRland t s) :=
  .onInsn h fun _ _ => by
    split
    · exact h
    · exact h.ite h.setLanding.issueOp.postLanding

theorem State.Sound.acknowledgeTransfer {p : Packet} {l : Landing} {f : ChunkFields} (h : s.Sound C) : (s.acknowledgeTransfer p l f).Sound C :=
  h.setLanding.reply

theorem State.Sound.copyRow {t p : Nat} {k : Packet} {off : Nat} {g : Nat × Nat} {evs : List Nat} (h : s.Sound C) :
    (s.copyRow t p k off g evs).Sound C :=
  h.race.tileEvent.setTile h.race.tileEvent.tile.writeAt.markSegs

theorem State.Sound.linkTdcc {k : Nat} (h : s.Sound C) : (s.linkTdcc k).Sound C := h.bump.foldl fun _ _ h => h.addNote

theorem State.Sound.combine {l : Landing} {i : Insn} {y : HeldChunk} (h : s.Sound C) : (s.combine l i y).Sound C := by
  unfold State.combine
  have hset : ∀ (k : Landing) (o : Option Nat), (match o with
      | some n => ((s.setLanding k).linkTdcc n).addNote l.item noteTdcc
      | none => s.setLanding k).Sound C := fun _ o => by
    cases o with
    | none => exact h.setLanding
    | some n => exact h.setLanding.linkTdcc.addNote
  exact .ite (hset _ _) h.setLanding

theorem State.Sound.combineChunk {i : Item} {l : Landing} {land : Insn} {link : Nat} {p : Packet} {f : ChunkFields} (h : s.Sound C) :
    (s.combineChunk i l land link p f).Sound C :=
  h.ite (h.failPart.ite (h.reply.ite
    ((h.consumed.setLanding.acknowledgeTransfer.ite h.consumed.setLanding).combine.ite
      (h.consumed.setLanding.acknowledgeTransfer.ite h.consumed.setLanding)).settle))

theorem State.Sound.copyWritten {i : Item} {l : Landing} {gone : Bool} {p : Packet} {f : ChunkFields} (h : s.Sound C) :
    (s.copyWritten i l gone p f).Sound C :=
  h.setLanding.ite (h.setLanding.acknowledgeTransfer.failPart.ite h.setLanding.acknowledgeTransfer.settle)

theorem State.Sound.copyReceive {i : Item} {l : Landing} {bt link rows : Nat} {p : Packet} {f : ChunkFields} {evs : List Nat} (h : s.Sound C) :
    (s.copyReceive i l bt link rows p f evs).Sound C := by
  unfold State.copyReceive
  refine h.ite (h.reply.ite ?_)
  have hc : (s.consumed i.id p.poison).Sound C := h.consumed
  dsimp only
  generalize s.consumed i.id p.poison = u at hc
  split
  · exact hc.copyWritten
  · next q _ =>
    refine hc.copyWritten.ite ?_
    cases (rowPieces (f.off, p.payload.length))[rows]? with
    | none => exact State.Sound.ite { hc with } hc.copyWritten
    | some g => exact State.Sound.ite { hc.copyRow with } hc.copyRow.copyWritten

theorem State.Sound.chunkFor {i : Item} {b : Board} {link rows : Nat} {p : Packet} {f : ChunkFields} (h : s.Sound C) :
    (s.chunkFor i b link rows p f).Sound C :=
  h.bump.ite (by
    dsimp only
    split
    · exact h.copyReceive.ite h.combineChunk
    · exact h.copyReceive)

theorem State.Sound.chunkCome {link rows : Nat} {p : Packet} (h : s.Sound C) : (s.chunkCome link rows p).Sound C := by
  unfold State.chunkCome
  dsimp only
  split
  · split
    · exact h.chunkFor
    · exact h
  · split
    · exact h.reply
    · exact h.reply

theorem State.Sound.execChunkReceive (h : s.Sound C) : Keeps C (execChunkReceive s) := by
  unfold Machine.execChunkReceive
  split
  · exact .next (.chunkCome { h with })
  · split
    · exact .next h
    · exact .next (.ite (.reply (.bump (.ite (.event (.startWake { h with })) (.startWake { h with }))))
        (.chunkCome (.ite (.event (.startWake { h with })) (.startWake { h with }))))

theorem State.Sound.execLandingCombine {t op srcRank chunk : Nat} (h : s.Sound C) : Keeps C (execLandingCombine t op srcRank chunk s) :=
  .onTile h fun _ => by
    split
    · exact .next (.settle (by
        split
        · exact h.combine
        · exact h))
    · exact .next h

theorem State.Sound.execAck (h : s.Sound C) : Keeps C (execAck s) := by
  unfold Machine.execAck
  split
  · exact .next h
  · exact .next (.ite (.forwardAnswered { h with }) (by
      split
      · exact .endTransfer { h with }
      · exact { h with }))

theorem State.Sound.resendChunk {id c : Nat} (h : s.Sound C) : (s.resendChunk id c).Sound C := h.modTransfer.pumpOne

theorem State.Sound.execNak (h : s.Sound C) : Keeps C (execNak s) := by
  unfold Machine.execNak
  split
  · exact .next h
  · exact .next (by
      split
      · exact { h with }
      · exact .ite (.failPart (.modTransfer { h with })) (.resendChunk (.modTransfer { h with })))

theorem State.Sound.execBusy (h : s.Sound C) : Keeps C (execBusy s) := by
  unfold Machine.execBusy
  split
  · exact .next h
  · exact .next (by
      split
      · exact .bump { h with }
      · exact .modTransfer (.bump { h with }))

theorem State.Sound.execChunkBackoffExpiry {transfer chunk : Nat} (h : s.Sound C) : Keeps C (execChunkBackoffExpiry transfer chunk s) := by
  unfold Machine.execChunkBackoffExpiry
  split
  · exact .next h
  · split
    · exact .next h
    · exact .next h.modTransfer.resendChunk

theorem State.Sound.execReject (h : s.Sound C) : Keeps C (execReject s) := by
  unfold Machine.execReject
  split
  · exact .next h
  · exact .next (.ite (.forwardAnswered (.addStatus { h with })) (by
      dsimp only
      split
      · exact .endTransfer (.addStatus (.bump { h with }))
      · exact .bump { h with }))

theorem State.Sound.execAbort (h : s.Sound C) : Keeps C (execAbort s) := by
  unfold Machine.execAbort
  split
  · exact .next h
  · exact .next (by
      split
      · exact .failPart (.modItem { h with })
      · exact .ite { h with } { { h with } with })

theorem State.Sound.execUnreachableNoticeReceive (h : s.Sound C) : Keeps C (execUnreachableNoticeReceive s) := by
  unfold Machine.execUnreachableNoticeReceive
  split
  · exact .next h
  · exact .next (.ite (.stopForward { h with }) (.ite (by
      split
      · exact .failPart { h with }
      · exact { h with }) { h with }))

theorem State.Sound.execCollectiveTimeout {item : Nat} (h : s.Sound C) : Keeps C (execCollectiveTimeout item s) := .whenever h h.failPart

theorem State.Sound.execAbortedKeyExpiry (h : s.Sound C) : Keeps C (execAbortedKeyExpiry s) := .next { h with }

/-! ## Windows -/

theorem State.Sound.dropWindowIn {r : WindowIn} (h : s.Sound C) : (s.dropWindowIn r).Sound C := { h with }

theorem State.Sound.setWindowIn {r : WindowIn} (h : s.Sound C) : (s.setWindowIn r).Sound C := { h.dropWindowIn (r := r) with }

theorem State.Sound.windowAccept {p : Packet} {w gen bt off c : Nat} {last : Bool} (h : s.Sound C) :
    (s.windowAccept p w gen bt off c last).Sound C := by
  unfold State.windowAccept
  split
  · exact h.protectedWrite.addFld.dropWindowIn.reply.ite h.protectedWrite.addFld.setWindowIn
  · dsimp only
    split
    · exact h.protectedWrite.addFld.dropWindowIn.reply.ite h.protectedWrite.addFld.setWindowIn
    · exact h.protectedWrite.addFld.setWindowIn

theorem State.Sound.execWindowChunkReceive (h : s.Sound C) : Keeps C (execWindowChunkReceive s) := by
  unfold Machine.execWindowChunkReceive
  split
  · exact .next h
  · exact .accepting h (.onAwake h (.ite (.reply (.bump { h with })) (by
      split
      · exact .reply (.dropWindowIn (.bump { h with }))
      · exact .windowAccept { h with })))

theorem State.Sound.execWindowCmd {fn ring : Nat} (h : s.Sound C) : Keeps C (execWindowCmd fn ring s) := .onEvent3 h fun _ _ _ h => h.startList

theorem Keeps.onWindow {op item : Nat} {needs : State → Item → WindowCmd → List (Bool × Nat)} {k : State → Item → ListRun → WindowCmd → State}
    (h : s.Sound C) (hk : ∀ (u : State) i l c, u.Sound C → (k u i l c).Sound C) : Keeps C (onWindow op item s needs k) := by
  refine .onEntry h fun u i l b h => ?_
  dsimp only
  refine h.listResult.ite ?_
  split
  · exact h.listResult
  · exact hk _ _ _ _ h

theorem State.Sound.execWopen {item : Nat} (h : s.Sound C) : Keeps C (execWopen item s) :=
  .onWindow h fun _ _ _ _ h => .listResult (.setFld (.setFld (.setFlag (.setFld { h with }))))

theorem State.Sound.closeWindow {w : Nat} (h : s.Sound C) : (s.closeWindow w).Sound C := .setFlag { h with }

theorem State.Sound.execWclose {item : Nat} (h : s.Sound C) : Keeps C (execWclose item s) := .onWindow h fun _ _ _ _ h => h.closeWindow.listResult

theorem State.Sound.setPeerRef {fn n : Nat} {r : Option PeerRef} (h : s.Sound C) : (s.setPeerRef fn n r).Sound C := { h with }

theorem State.Sound.execWrefSet {item : Nat} (h : s.Sound C) : Keeps C (execWrefSet item s) := .onWindow h fun _ _ _ _ h => h.setPeerRef.listResult

theorem State.Sound.execWrefClear {item : Nat} (h : s.Sound C) : Keeps C (execWrefClear item s) :=
  .onWindow h fun _ _ _ _ h => h.setPeerRef.listResult

end Sys2Proof.Machine
end

section
/-! SUPPORT. The canonical form store by store: the rules and the commands of the host interface, of the links, and of carries, repairs and the self-test (O3). -/

namespace Sys2Proof.Machine

-- One declaration after another: each blocked elaboration thread holds a stack, which the check's memory limit counts.
set_option Elab.async false

variable {C : Prop} {s : State}

/-! ## The host interface -/

theorem State.Sound.execHwinSetLock {a : Agent} {w : Nat} {value : BitVec 113} (h : s.Sound C) : Keeps C (execHwinSetLock a w value s) :=
  .onUnit (.onAccess h (h.onHostPf (h.ite h.setFld.setFld.setFld.setFld.setFld.setFld.setFlag)))

theorem State.Sound.cxlReadLine {o n : Nat} (h : s.Sound C) : (s.cxlReadLine o n).2.2.Sound C := by
  unfold State.cxlReadLine
  split
  · exact h.takeFor
  · dsimp only
    exact h.bump

theorem State.Sound.decoderUsed (h : s.Sound C) : s.decoderUsed.Sound C := { h with }

theorem State.Sound.cxlRead {offset len : Nat} (h : s.Sound C) : (s.cxlRead offset len).Sound C :=
  have hread := List.foldlRecOn (cwSplit offset len) (motive := fun acc : List Byte × Bool × State => acc.2.2.Sound C) (fun acc p =>
      (acc.1 ++ (acc.2.2.cxlReadLine (p.1 + p.2.1) p.2.2).1, acc.2.1 || (acc.2.2.cxlReadLine (p.1 + p.2.1) p.2.2).2.1,
        (acc.2.2.cxlReadLine (p.1 + p.2.1) p.2.2).2.2)) (b := ([], false, s.decoderUsed.event baseContext evCxl noRegion (cwSplit offset len).length))
    h.decoderUsed.event fun _ h _ _ => h.cxlReadLine
  { hread with }

theorem State.Sound.execCxlMemRead {offset len : Nat} (h : s.Sound C) : Keeps C (execCxlMemRead offset len s) :=
  .ite (.next h) (.accepting h (.onAccess h h.cxlRead))

theorem State.Sound.inboxSees {a n : Nat} (h : s.Sound C) : (s.inboxSees a n).Sound C :=
  h.foldl fun _ _ h => by
    split
    · exact h.inboxWritten.ite h
    · exact h

theorem State.Sound.cxlWriteLine {o : Nat} {bytes : List Byte} {poison : Bool} (h : s.Sound C) : (s.cxlWriteLine o bytes poison).Sound C :=
  h.bump.ite (h.protectedWrite.inboxSees.ite h.protectedWrite)

theorem State.Sound.cxlWrite {offset : Nat} {bytes : List Byte} {poison : Bool} (h : s.Sound C) : (s.cxlWrite offset bytes poison).Sound C :=
  h.decoderUsed.event.foldl fun _ _ h => h.cxlWriteLine

theorem State.Sound.execCxlMemWrite {offset : Nat} {bytes : List Byte} {poison : Bool} (h : s.Sound C) :
    Keeps C (execCxlMemWrite offset bytes poison s) :=
  .ite (.next h) (.accepting h (.onAccess h h.cxlWrite))

theorem State.Sound.setGrant {t : Nat} {g : Grant} (h : s.Sound C) : (s.setGrant t g).Sound C := { h with }

theorem State.Sound.execGrantCommit {a : Agent} {ctx : Nat} (h : s.Sound C) : Keeps C (execGrantCommit a ctx s) :=
  .onUnit (.onAccess h (h.onHostPf (h.setFlag.setFld.ite (h.setGrant.setFlag.ite (.setFlag { h.setGrant.setFlag with })))))

theorem State.Sound.enableFn {fn : Nat} (h : s.Sound C) : (s.enableFn fn).Sound C := h.setFld.ite h

theorem State.Sound.enableAll (h : s.Sound C) : s.enableAll.Sound C := h.foldl fun _ _ h => h.enableFn

theorem State.Sound.disableGone (h : s.Sound C) : s.disableGone.Sound C := h.foldl fun _ _ h => h.ite h.disable

theorem State.Sound.execNumvfsWrite {value : Nat} (h : s.Sound C) : Keeps C (execNumvfsWrite value s) := .whenever h (.disableGone { h with })

theorem State.Sound.execVfEnableSet (h : s.Sound C) : Keeps C (execVfEnableSet s) := .next (.enableAll { h with })

theorem State.Sound.execVfEnableClear (h : s.Sound C) : Keeps C (execVfEnableClear s) := .next (.disableGone { h with })

theorem State.Sound.execMemorySpaceEnableSet (h : s.Sound C) : Keeps C (execMemorySpaceEnableSet s) := .next (.enableAll { h with })

theorem State.Sound.execMemorySpaceEnableClear (h : s.Sound C) : Keeps C (execMemorySpaceEnableClear s) := .next (.disableGone { h with })

theorem State.Sound.execBusMasterEnableClear {fn : Nat} (h : s.Sound C) : Keeps C (execBusMasterEnableClear fn s) := .onUnit (.next { h with })

theorem State.Sound.execBusMasterEnableSet {fn : Nat} (h : s.Sound C) : Keeps C (execBusMasterEnableSet fn s) :=
  .onUnit (.next (.flushHeld { h with }))

theorem State.Sound.clearReg {r : Reg} {p : Nat → Bool} (h : s.Sound C) : (s.clearReg r p).Sound C := { h with regs := Tab.sorted_filter h.regs }

theorem State.Sound.resetPage {fn : Nat} (h : s.Sound C) : (s.resetPage fn).Sound C := by
  unfold State.resetPage
  exact (h.foldl fun _ _ h => h.clearReg).clearReg.clearReg.withFns

theorem State.Sound.resetAttach (h : s.Sound C) : s.resetAttach.Sound C := { h.foldl (fun _ _ h => h.clearReg) with fenceItems := rfl }

theorem State.Sound.settleReset (h : s.Sound C) : s.settleReset.Sound C := h.resetAttach.ite h

theorem State.Sound.flr {fn : Nat} (h : s.Sound C) : (s.flr fn).Sound C := .ite { h.disable with } h.disable.resetPage

theorem State.Sound.execFlrVf {n : Nat} (h : s.Sound C) : Keeps C (execFlrVf n s) := .onUnit (.ite (.next h) (.onAccess h h.flr))

theorem State.Sound.flrAll (h : s.Sound C) : s.flrAll.Sound C := by
  unfold State.flrAll
  exact (h.foldl fun _ _ h => h.flr).withFns.settleReset

theorem State.Sound.execFlrPf (h : s.Sound C) : Keeps C (execFlrPf s) := .onAccess h h.flrAll

theorem State.Sound.eraseIde (h : s.Sound C) : s.eraseIde.Sound C := { h with }

theorem State.Sound.cxlResetAll (h : s.Sound C) : s.cxlResetAll.Sound C := by
  unfold State.cxlResetAll
  exact h.flrAll.eraseIde.withFns

theorem State.Sound.execCxlReset (h : s.Sound C) : Keeps C (execCxlReset s) := .onAccess h h.cxlResetAll

theorem State.Sound.clearChan {c : Nat} (h : s.Sound C) : (s.clearChan c).Sound C :=
  { h with mem := Memory.wf_zero h.mem, memPoison := Tab.sorted_clear h.memPoison, memDamage := Tab.sorted_clear h.memDamage }

theorem State.Sound.clearSlot {l : Nat} (h : s.Sound C) : (s.clearSlot l).Sound C := by
  unfold State.clearSlot
  refine h.ite (h.bump.ite ?_)
  split
  · exact h
  · next c _ =>
    dsimp only
    cases (s.clearChan c).mirrorOf l with
    | none =>
      split
      · exact State.Sound.fillDone { h.clearChan with }
      · exact h.clearChan
    | some sp =>
      split
      · exact State.Sound.fillDone { h.clearChan.clearChan with }
      · exact h.clearChan.clearChan

theorem State.Sound.clearMemory (h : s.Sound C) : s.clearMemory.Sound C := (h.foldl (fun _ _ h => h.clearSlot)).foldl fun _ _ h => h.auditFresh

theorem State.Sound.execCxlResetMemClear (h : s.Sound C) : Keeps C (execCxlResetMemClear s) := .onAccess h h.cxlResetAll.clearMemory

theorem State.Sound.cxlDown (h : s.Sound C) : s.cxlDown.Sound C := by
  unfold State.cxlDown
  exact h.withFns.disableGone.breakCxlInboxes.eraseIde.withFns

theorem State.Sound.execCxlLinkDown (h : s.Sound C) : Keeps C (execCxlLinkDown s) := .whenever h h.cxlDown

theorem State.Sound.lastMessages {fn : Nat} (h : s.Sound C) : (s.lastMessages fn).Sound C := h.foldl fun _ _ h => h.ite (h.setVec.ite h.sendVec)

theorem State.Sound.releaseBoards {fn : Nat} (h : s.Sound C) : (s.releaseBoards fn).Sound C := h.foldl fun _ _ h => h.releaseBoard.auditCheck

theorem State.Sound.releasePools {fn : Nat} (h : s.Sound C) : (s.releasePools fn).Sound C :=
  h.foldl fun _ _ h => h.ite h.auditCheck.auditCheck.setPool.auditFresh.auditFresh

theorem State.Sound.releaseRemote {fn : Nat} (h : s.Sound C) : (s.releaseRemote fn).Sound C := by
  unfold State.releaseRemote
  exact ((h.foldl fun _ _ h => h.closeWindow.ite h).foldl fun _ _ h => h.closeInbox.ite h).withPeerRefs

theorem State.Sound.unlockWindows {fn : Nat} (h : s.Sound C) : (s.unlockWindows fn).Sound C := h.foldl fun _ _ h => h.setFlag.ite h

theorem State.Sound.releaseContext {fn : Nat} (h : s.Sound C) : (s.releaseContext fn).Sound C :=
  h.releaseBoards.releasePools.releaseRemote.unlockWindows.endResidencyOf

theorem State.Sound.stopRings {fn : Nat} (h : s.Sound C) : (s.stopRings fn).Sound C := by
  unfold State.stopRings
  exact (h.foldl fun _ _ h => h.setFlag.setFlag).withFns

theorem State.Sound.fnDown {fn : Nat} (h : s.Sound C) : (s.fnDown fn).Sound C := by
  unfold State.fnDown
  exact h.stopRings.setFld.resetPage.withFns.ite h.stopRings.setFld

theorem State.Sound.execFunctionDisableComplete {fn : Nat} (h : s.Sound C) : Keeps C (execFunctionDisableComplete fn s) :=
  .onUnit (.whenever h h.lastMessages.releaseContext.fnDown.settleReset.enableAll)

/-! ## Links -/

theorem State.Sound.setLane {l n v : Nat} (h : s.Sound C) : (s.setLane l n v).Sound C := h.setFld

theorem State.Sound.failLane {l n : Nat} (h : s.Sound C) : (s.failLane l n).Sound C := .journal (.setLane { h with })

theorem State.Sound.switchLane {l n spare : Nat} (h : s.Sound C) : (s.switchLane l n spare).Sound C := h.failLane.setLane.journal.bump.setLink

theorem State.Sound.lost {e : Nat × Packet} (h : s.Sound C) : (s.lost e).Sound C := h.returned.ite h.oweCredit.dropForward

theorem State.Sound.reroute {port : Option Nat} {e : Nat × Packet} (h : s.Sound C) : (s.reroute port e).Sound C := by
  unfold State.reroute
  split
  · exact h.lost
  · exact h.lost.ite (by
      split
      · exact .ite { h with } h.enqueue
      · exact h)

theorem State.Sound.retryLeft (h : s.Sound C) : s.retryLeft.Sound C := .foldl { h with } fun _ _ h => h.reroute

theorem State.Sound.stopLink {l st : Nat} (h : s.Sound C) : (s.stopLink l st).Sound C :=
  (h.setLink.setFld.retryLeft.foldl (fun _ _ h => h.reroute)).breakInboxes

theorem State.Sound.startBringup {l : Nat} (h : s.Sound C) : (s.startBringup l).Sound C := h.setLink.setFld.ite h

theorem State.Sound.disableLink {l : Nat} (h : s.Sound C) : (s.disableLink l).Sound C := h.stopLink.startBringup

theorem State.Sound.maskOff {l : Nat} (h : s.Sound C) : (s.maskOff l).Sound C := h.setLink.ite h.stopLink

theorem State.Sound.restartLink {l : Nat} (h : s.Sound C) : (s.restartLink l).Sound C := h.setLink.setFld

theorem State.Sound.linkUp {l : Nat} (h : s.Sound C) : (s.linkUp l).Sound C := h.setLink.setFld.setFlag

theorem State.Sound.attemptFails {l : Nat} (h : s.Sound C) : (s.attemptFails l).Sound C :=
  h.setLink.setFlag.stopLink.ite (h.setLink.setFlag.bump.ite h.setLink.setFlag)

theorem State.Sound.chooseLanes {l : Nat} {good : List Nat} (h : s.Sound C) : (s.chooseLanes l good).Sound C :=
  h.foldl fun _ _ h => h.ite (h.setLane.ite h.setLane)

theorem State.Sound.exchange {l : Nat} {peer : PeerIdentity} (h : s.Sound C) : (s.exchange l peer).Sound C :=
  h.setLink.setFld.setFld.linkUp.ite h.setLink.setFld.setFld.setFlag.stopLink

theorem State.Sound.execLinkBringup {l : Nat} (h : s.Sound C) : Keeps C (execLinkBringup l s) := .onUnit (.next h.startBringup)

theorem State.Sound.execLinkSignalDetect {l : Nat} {tr : Training} (h : s.Sound C) : Keeps C (execLinkSignalDetect l tr s) :=
  .onUnit (.whenever h (h.attemptFails.ite (h.chooseLanes.setLink.ite h.chooseLanes)))

theorem State.Sound.execLinkIdentityExchange {l : Nat} {peer : PeerIdentity} (h : s.Sound C) : Keeps C (execLinkIdentityExchange l peer s) :=
  .onUnit (.whenever h h.exchange)

theorem State.Sound.retrain {l : Nat} (h : s.Sound C) : (s.retrain l).Sound C := h.disableLink.ite h.setLink.bump.setFld

theorem State.Sound.execLinkRetrain {l : Nat} (h : s.Sound C) : Keeps C (execLinkRetrain l s) := .onUnit (.whenever h h.retrain)

theorem State.Sound.execLinkRetrainComplete {l : Nat} {tr : Training} {peer : Option PeerIdentity} (h : s.Sound C) :
    Keeps C (execLinkRetrainComplete l tr peer s) :=
  .onUnit (.whenever h (by
    split
    · exact h.attemptFails.ite h.chooseLanes.exchange
    · exact h.attemptFails))

theorem State.Sound.acknowledge {l n : Nat} (h : s.Sound C) : (s.acknowledge l n).Sound C := h.setLink.foldl fun _ _ h => h.pumpItem

theorem State.Sound.nakFrom {l n : Nat} (h : s.Sound C) : (s.nakFrom l n).Sound C := h.setLink

theorem State.Sound.linkHeader {l : Nat} {cw : Codeword} (h : s.Sound C) : (s.linkHeader l cw).Sound C :=
  .ite (.nakFrom (by
    split
    · exact h.acknowledge
    · exact h)) (by
    split
    · exact h.acknowledge
    · exact h)

theorem State.Sound.countSymbols {l : Nat} {corrected : List Nat} (h : s.Sound C) : (s.countSymbols l corrected).Sound C :=
  (h.foldl (fun _ _ h => h.bump)).setLink

theorem State.Sound.execLinkCodewordReceive {l : Nat} {cw : Codeword} (h : s.Sound C) : Keeps C (execLinkCodewordReceive l cw s) :=
  .onUnit (.whenever h (h.countSymbols.bump.setLink.ite
      ((h.countSymbols.linkHeader.setLink.ite h.countSymbols.linkHeader.setLink).ite h.countSymbols.linkHeader.setLink)))

theorem State.Sound.execLaneSwitchRequest {l lane : Nat} (h : s.Sound C) : Keeps C (execLaneSwitchRequest l lane s) :=
  .onUnit (.whenever h h.setLink.enqueue)

theorem State.Sound.execLaneSwitchRequestReceive {l : Nat} (h : s.Sound C) : Keeps C (execLaneSwitchRequestReceive l s) :=
  .onUnit (by
    split
    · exact .next h
    · exact .next (.ite { h with } (.setLink { h with })))

theorem State.Sound.execLaneSwitch {l : Nat} (h : s.Sound C) : Keeps C (execLaneSwitch l s) :=
  .onUnit (by
    split
    · exact .next h
    · exact .whenever h (by
        dsimp only
        split
        · exact h.setLink.switchLane.ite h.setLink
        · exact h.setLink))

theorem State.Sound.execLaneLockLoss {l lane : Nat} (h : s.Sound C) : Keeps C (execLaneLockLoss l lane s) :=
  .onUnit (.whenever h (by
    split
    · exact h.switchLane
    · exact h.retrain))

theorem State.Sound.execSpareLaneStopsQualifying {l : Nat} (h : s.Sound C) : Keeps C (execSpareLaneStopsQualifying l s) :=
  .onUnit (.next (.ite (by
    split
    · exact h.failLane
    · exact h) h))

theorem State.Sound.takePacket {l port : Nat} {e : Nat × Packet} (h : s.Sound C) : (s.takePacket l port e).Sound C :=
  .ite (.retryLeft (.event (.oweCredit (.setLink (.ite { h with } h))))) (.event (.oweCredit (.setLink (.ite { h with } h))))

theorem State.Sound.newCodeword {l : Nat} (h : s.Sound C) : (s.newCodeword l).Sound C := h.setLink.ite h.setLink

theorem State.Sound.resendCodeword {l n : Nat} (h : s.Sound C) : (s.resendCodeword l n).Sound C := by
  unfold State.resendCodeword
  dsimp only
  split
  · exact h.setLink
  · exact h.setLink.bump

theorem State.Sound.closeStream {l : Nat} (h : s.Sound C) : (s.closeStream l).Sound C := h.newCodeword.disableLink.ite h.newCodeword

theorem State.Sound.linkStream {l : Nat} (h : s.Sound C) : (s.linkStream l).Sound C := by
  unfold State.linkStream
  dsimp only
  split
  · exact h.resendCodeword
  · exact h.closeStream.ite (h.newCodeword.ite (by
      split
      · exact h.takePacket.newCodeword.ite h.takePacket
      · exact h.newCodeword))

theorem State.Sound.execLinkPacketSend {l : Nat} (h : s.Sound C) : Keeps C (execLinkPacketSend l s) := .onUnit (.whenever h h.linkStream)

theorem State.Sound.forward {l : Nat} {p : Packet} (h : s.Sound C) : (s.forward l p).Sound C := by
  unfold State.forward
  split
  · exact h.enqueue
  · exact h.oweCredit.dropForward

theorem State.Sound.execPacketReceive {l : Nat} (h : s.Sound C) : Keeps C (execPacketReceive l s) := by
  refine .onUnit ?_
  split
  · next p port _ _ =>
    have htaken : ∀ k, (if p.kind == .chunk && p.dst = (s.setLink l k).chipId then s.setLink l k
        else (s.setLink l k).event baseContext evFlit noRegion p.flits).Sound C := fun _ => h.setLink.ite h.setLink.event
    exact .next ((htaken _).oweCredit.bump.ite ((htaken _).withDelivered.oweCredit.withInbound.ite (htaken _).withDelivered.forward))
  · exact .next h

theorem State.Sound.execLinkMaskWrite {a : Agent} {value : Word32} (h : s.Sound C) : Keeps C (execLinkMaskWrite a value s) :=
  .onUnit (.onAccess h (h.onHostPf (h.setFld.foldl (fun _ _ h => h.maskOff.ite (h.startBringup.ite h)))))

theorem State.Sound.execLinkRtWrite {a : Agent} {chip : Nat} {value : BitVec 16} (h : s.Sound C) : Keeps C (execLinkRtWrite a chip value s) :=
  .onUnit (.onAccess h (h.onHostPf h.setFld))

theorem State.Sound.rejoin {l : Nat} (h : s.Sound C) : (s.rejoin l).Sound C := (h.startBringup.ite h.restartLink).ite (h.ite h.stopLink)

theorem State.Sound.execLinkPortWrite {a : Agent} {port : Nat} {value : BitVec 20} (h : s.Sound C) : Keeps C (execLinkPortWrite a port value s) :=
  .onUnit (.onAccess h (h.onHostPf (h.ite (h.setFld.foldl (fun _ _ h => h.rejoin)))))

theorem State.Sound.execLinkTopoWrite {a : Agent} {value : BitVec 11} (h : s.Sound C) : Keeps C (execLinkTopoWrite a value s) :=
  .onUnit (.onAccess h (h.onHostPf (h.ite (h.setFld.foldl (fun _ _ h => h.ite h.restartLink)))))

/-! ## Reliability -/

theorem State.Sound.dropCarry {t : Nat} (h : s.Sound C) : (s.dropCarry t).Sound C := { h with }

theorem Tile.Sound.carriedTo {old spare : Tile} {tally : Nat} (h : old.Sound) : (old.carriedTo spare tally).Sound := { h with }

theorem State.Sound.retireTile {p : Nat} {c : Carry} (h : s.Sound C) : (s.retireTile p c).Sound C := by
  unfold State.retireTile
  have hblank : ∀ (u : State) r w, u.Sound C → (u.setTile p { (u.tile p).blank with halted := false, rowCorr := r, wordCorr := w }).Sound C :=
    fun _ _ _ hu => hu.setTile { Tile.Sound.empty with }
  exact (hblank _ _ _ h.setFld).withAssay.ite (hblank _ _ _ h.setFld)

theorem State.Sound.substituted {t old sp : Nat} (h : s.Sound C) : (s.substituted t old sp).Sound C := h.bump.dropCarry.journal.journal

theorem State.Sound.resendFrom {t : Nat} (h : s.Sound C) : (s.resendFrom t).Sound C := .foldl { h with } fun _ _ h => h.pumpOne

theorem State.Sound.replayed {p : Nat} {ctlLost : Bool} (h : s.Sound C) : (s.replayed p ctlLost).Sound C := by
  unfold State.replayed
  split
  · exact h
  · exact h.failPart.ite h.addStatus

theorem State.Sound.replaySteps {p : Nat} (h : s.Sound C) : (s.replaySteps p).Sound C := h.foldl fun _ _ h => h.tileEvent

theorem State.Sound.carryRows {p sp : Nat} (h : s.Sound C) : (s.carryRows p sp).Sound C := h.event.event

theorem State.Sound.execCarryComplete {t : Nat} {words : List WordErr} (h : s.Sound C) : Keeps C (execCarryComplete t words s) :=
  .onUnit (by
    split
    · exact .whenever h (h.carryRows.countWords.replayed.setTile
        h.carryRows.countWords.replayed.tile.carriedTo.markUnits).retireTile.setFld.setFld.setFlag.substituted.resendFrom.replaySteps.modeCheck.stir
    · exact .next h)

theorem State.Sound.execCarryTimeout {t : Nat} (h : s.Sound C) : Keeps C (execCarryTimeout t s) := by
  refine .onUnit ?_
  split
  · refine .ite (.next h) ?_
    extract_lets u
    have hu : u.Sound C := by
      dsimp only [u]
      split
      · exact h.failPart
      · exact h
    exact .next hu.endResidency.retireTile.bindTile.substituted.modeCheck.stir
  · exact .next h

theorem State.Sound.startCarry {t sp : Nat} {rotation : Bool} (h : s.Sound C) : (s.startCarry t sp rotation).Sound C := h.stopAssayOf.addCarry

theorem State.Sound.execStrandSubstitution {t : Nat} (h : s.Sound C) : Keeps C (execStrandSubstitution t s) :=
  .onUnit (by
    split
    · exact .whenever h h.startCarry
    · exact .next h)

theorem State.Sound.attemptOver {g i : Nat} (h : s.Sound C) : (s.attemptOver g i).Sound C := by
  unfold State.attemptOver
  split
  · exact h.modRepair
  · exact h.endRepair

theorem State.Sound.attempt {g i : Nat} (h : s.Sound C) : (s.attempt g i).Sound C := h.modRepair

theorem State.Sound.execRepairStart (h : s.Sound C) : Keeps C (execRepairStart s) := by
  unfold Machine.execRepairStart
  split
  · exact .next h
  · split
    · exact .next h.endRepair
    · exact .ite (.next (h.attempt.ite h.bump.attemptOver)) (.ite (.next h) (.next h.attempt.inject))

theorem State.Sound.takeAnswer {p : Packet} (h : s.Sound C) : (s.takeAnswer p).Sound C := by
  unfold State.takeAnswer
  split
  · exact h
  · exact h.attemptOver.ite h.repairPart

theorem State.Sound.repairHost {r : Repair} {i : Nat} (h : s.Sound C) : (s.repairHost r i).Sound C := h.event.foldl fun _ _ h => h.repairPart

theorem State.Sound.execRepairResponse (h : s.Sound C) : Keeps C (execRepairResponse s) :=
  .accepting h (by
    split
    · exact .next (.takeAnswer { h with })
    · split
      · exact .next h.repairHost
      · exact .next h)

theorem State.Sound.answer {q : Packet} {bytes : List Byte} {ok : Bool} (h : s.Sound C) : (s.answer q bytes ok).Sound C := h.foldl fun _ _ h => h.send

theorem State.Sound.execRepairPeerRequest (h : s.Sound C) : Keeps C (execRepairPeerRequest s) := by
  unfold Machine.execRepairPeerRequest
  split
  · exact .next h
  · exact .accepting h (.onAwake h (.ite (.answer { h with }) (.answer (.takeFor { h with }))))

theorem State.Sound.execRepairAttemptTimeout (h : s.Sound C) : Keeps C (execRepairAttemptTimeout s) := by
  unfold Machine.execRepairAttemptTimeout
  split
  · exact .next h
  · exact .next h.attemptOver

theorem State.Sound.failUnit {u : AssayUnit} (h : s.Sound C) : (s.failUnit u).Sound C := by
  unfold State.failUnit
  split
  · exact h.setFld.journal
  · exact h
  · exact h.ite h.setFld.journal

theorem State.Sound.execAssayTestStart {u : AssayUnit} (h : s.Sound C) : Keeps C (execAssayTestStart u s) := by
  refine .onUnit (.whenever h (.ite h.withAssay.failUnit ?_))
  have hbusy : ∀ a : Assay, (({ s with assay := a } : State).setFld Fld.assayStatBusy 0 (assayBusy u)).Sound C := fun _ => h.withAssay.setFld
  split
  · exact (hbusy _).setFld.journal
  · exact hbusy _
  · exact hbusy _

theorem State.Sound.laneTested {g : Nat} {passed : Bool} (h : s.Sound C) : (s.laneTested g passed).Sound C := h.failLane.ite (h.setLane.journal.ite h)

theorem State.Sound.tileTested {p : Nat} {passed : Bool} (h : s.Sound C) : (s.tileTested p passed).Sound C :=
  ((h.setFld.bump.setFlag.ite h.setFld.bump).setTile .blank).journal.modeCheck

theorem State.Sound.chanTested {c : Nat} {passed : Bool} (h : s.Sound C) : (s.chanTested c passed).Sound C :=
  .passEnd (.journal { h.clearChan.setFld with })

theorem State.Sound.assayIdle (h : s.Sound C) : s.assayIdle.Sound C := .setFld { h with }

theorem State.Sound.execAssayTestComplete {passed : Bool} (h : s.Sound C) : Keeps C (execAssayTestComplete passed s) := by
  unfold Machine.execAssayTestComplete
  split
  · exact .next h
  · exact .ite (.next h) (.ite (.next h.assayIdle) (.next (by
      split
      · exact .tileTested { h.assayIdle.bump with }
      · exact .laneTested { h.assayIdle.bump with }
      · exact .chanTested { h.assayIdle.bump with })))

theorem State.Sound.rotateStack {stack : Nat} (h : s.Sound C) : (s.rotateStack stack).Sound C := by
  unfold State.rotateStack
  refine h.ite ?_
  split
  · exact h
  · exact h.ite { h with }

theorem State.Sound.execAssayRotation (h : s.Sound C) : Keeps C (execAssayRotation s) := by
  refine .ite (.next h) ?_
  extract_lets done
  have hdone : ∀ u : State, u.Sound C → (done u).Sound C := fun _ hu => (hu.foldl fun _ _ h => h.rotateStack).withAssay
  clear_value done
  split
  · exact .ite (.next h) (.next (hdone _ h.withAssay.startCarry))
  · exact .next (hdone _ h)

end Sys2Proof.Machine
end

section
/-! SUPPORT. The canonical form store by store: the rules and the commands of security, sessions, power and startup (O3). -/

namespace Sys2Proof.Machine

-- One declaration after another: each blocked elaboration thread holds a stack, which the check's memory limit counts.
set_option Elab.async false

variable {C : Prop} {s : State}

/-! ## Security -/

theorem State.Sound.extendMeas {n : Nat} {v : List Byte} (h : s.Sound C) : (s.extendMeas n v).Sound C := h.setFld

theorem State.Sound.measurePart {n b v : Nat} (h : s.Sound C) : (s.measurePart n b v).Sound C := h.ite (.ite (.extendMeas { h with }) { h with })

theorem State.Sound.measureChange (h : s.Sound C) : s.measureChange.Sound C := h.extendMeas

theorem State.Sound.setLc {lc : Nat} (h : s.Sound C) : (s.setLc lc).Sound C := h.ite h.setFld.measureChange

@[simp] theorem Security.setHalf_slots (c : Security) (h : Nat) (l : List JRec) : (c.setHalf h l).slots = c.slots := by
  unfold Security.setHalf; split <;> rfl

/-- The log halves change, and not the slots of images. -/
theorem Security.sorted_setHalf {c : Security} {n : Nat} {l : List JRec} (h : Tab.sorted c.slots = true) : Tab.sorted (c.setHalf n l).slots = true :=
  (Security.setHalf_slots ..).symm ▸ h

theorem State.Sound.execJournalRecordWrite (h : s.Sound C) : Keeps C (execJournalRecordWrite s) := by
  unfold Machine.execJournalRecordWrite
  split
  · exact .next h
  · next e rest _ =>
    have hlog : ∀ n l, ({ s with sec := { s.sec.setHalf n l with changes := rest } } : State).Sound C := fun _ _ =>
      { h with images := Security.sorted_setHalf h.images }
    exact .whenever h ((hlog _ _).withPins.ite (hlog _ _))

theorem State.Sound.tearRecord {n : Nat} (h : s.Sound C) : (s.tearRecord n).Sound C := by
  unfold State.tearRecord
  split
  · exact h
  · split
    · exact h
    · exact { h with images := Security.sorted_setHalf h.images }

theorem State.Sound.execJournalCompaction (h : s.Sound C) : Keeps C (execJournalCompaction s) :=
  have hlog : ∀ n l, ({ s with sec := s.sec.setHalf n l } : State).Sound C := fun _ _ => h.withSec (Machine.Security.setHalf_slots ..)
  .whenever h (.ite (hlog _ _).setFlag (.ite (hlog _ _).setFlag (.ite (hlog _ _) (hlog _ _))))

theorem State.Sound.dropOldHalf (h : s.Sound C) : s.dropOldHalf.Sound C := h.withSec (Security.setHalf_slots ..)

theorem State.Sound.putSlot {kind slot : Nat} {i : Image} (h : s.Sound C) : (s.putSlot kind slot i).Sound C :=
  { h with images := Tab.sorted_set h.images }

theorem State.Sound.runImage {kind : Nat} {i : Image} (h : s.Sound C) : (s.runImage kind i).Sound C := { h.extendMeas with }

theorem State.Sound.makeKeys (h : s.Sound C) : s.makeKeys.Sound C := .ite { h with } h

theorem State.Sound.readOtp (h : s.Sound C) : s.readOtp.Sound C := h.setFld

theorem State.Sound.recover (h : s.Sound C) : s.recover.Sound C := .setFlag { h with }

theorem State.Sound.newChallenge (h : s.Sound C) : s.newChallenge.Sound C := .setFld { h with }

theorem State.Sound.loadSram {code : List Byte} (h : s.Sound C) : (s.loadSram code).Sound C := { h with }

/-- The management controller runs the firmware. -/
theorem State.Sound.runsFirmware {fw : Image} (h : s.Sound C) :
    ((({ s with sec := { s.sec with mgcRuns := true, firmware := fw.payload } } : State).loadSram fw.payload).setFld Fld.setupStatPhase 0 2).Sound C :=
  .setFld (.loadSram { h with })

theorem State.Sound.bootFirmware (h : s.Sound C) : s.bootFirmware.Sound C := by
  unfold State.bootFirmware
  split
  · exact h.recover
  · refine State.Sound.runsFirmware ?_
    split
    · exact h.runImage.runImage.setFlag
    · exact h.runImage.setFlag

theorem State.Sound.boot (h : s.Sound C) : s.boot.Sound C := by
  unfold State.boot
  have hkeys := (h.setFlag (f := Fld.secStatRecovery) (i := 0) (b := false)).readOtp.makeKeys.dropOldHalf
  dsimp only
  generalize ((s.setFlag Fld.secStatRecovery 0 false).readOtp.makeKeys).dropOldHalf = u at hkeys
  cases u.chosen 1 with
  | none => exact hkeys.recover
  | some ld => exact hkeys.runImage.loadSram.bootFirmware

theorem State.Sound.execBootChain {failures : Nat} (h : s.Sound C) : Keeps C (execBootChain failures s) := .whenever h (h.boot.ite h.readOtp.recover)

theorem State.Sound.execRecoveryImageWrite {kind slot : Nat} {img : Image} (h : s.Sound C) : Keeps C (execRecoveryImageWrite kind slot img s) :=
  .onUnit (.whenever h h.putSlot.setFlag)

theorem State.Sound.execFirmwareUpdate {kind : Nat} {img : Image} (h : s.Sound C) : Keeps C (execFirmwareUpdate kind img s) :=
  .onUnit (.whenever h h.putSlot.journal)

theorem State.Sound.execSvnCommit {kind : Nat} (h : s.Sound C) : Keeps C (execSvnCommit kind s) := .onUnit (.whenever h { h with })

theorem State.Sound.execMgcWatchdogExpiry (h : s.Sound C) : Keeps C (execMgcWatchdogExpiry s) := .whenever h h.loadSram.bump

theorem State.Sound.installIde (h : s.Sound C) : s.installIde.Sound C := .ite { h with } h

theorem State.Sound.execSpdmKeyExchange {transcript : List Byte} (h : s.Sound C) : Keeps C (execSpdmKeyExchange transcript s) :=
  .whenever h (.installIde { h with })

/-! ## Sessions -/

/-- Every tile listed is set again. -/
theorem State.Sound.mapTiles {f : Tile → Tile} (h : s.Sound C) (hf : ∀ tl, tl.Sound → (f tl).Sound) : (s.mapTiles f).Sound C :=
  List.foldlRecOn s.tiles _ (motive := State.Sound C) h fun _ h' e he => h'.setTile (hf _ (h.each e he))

theorem Tile.Sound.erased {t : Tile} (h : t.Sound) : t.erased.Sound :=
  { h with
    spad := rfl, vbuf := rfl, spadMarks := rfl, vbufMarks := rfl, acc := rfl, accMarks := rfl, tableStore := rfl, tableMarks := rfl, locket := rfl
    slots := List.forall_mem_nil _ }

theorem State.Sound.debugErase (h : s.Sound C) : s.debugErase.Sound C := h.flrAll.eraseIde.clearMemory.mapTiles fun _ h => h.erased

theorem State.Sound.returnErase (h : s.Sound C) : s.returnErase.Sound C := by
  unfold State.returnErase
  have herase := h.debugErase
  generalize s.debugErase = v at herase
  exact { herase with }

theorem State.Sound.releaseHalts (h : s.Sound C) : s.releaseHalts.Sound C := by
  have hrun := h.mapTiles (f := fun t => { t with halted := false }) fun _ h => { h with }
  exact { hrun with }

theorem State.Sound.setLevel {l : Nat} (h : s.Sound C) : (s.setLevel l).Sound C := by
  unfold State.setLevel
  refine h.ite ?_
  extract_lets u sec v
  have hu : u.Sound C := h.setFld.measureChange
  have hv : v.Sound C := State.Sound.ite { hu with } hu
  exact hv.releaseHalts.ite hv

theorem State.Sound.refuseDebug {cause : Nat} (h : s.Sound C) : (s.refuseDebug cause).Sound C := h.bump.setFld

theorem State.Sound.endSession (h : s.Sound C) : s.endSession.Sound C := by
  unfold State.endSession
  split
  · exact h
  · exact .journal (.setLc { (h.debugErase.ite h).setLevel.setFld with })

theorem State.Sound.present {t : Token} {action : Nat} {accept : State → State} (h : s.Sound C) (haccept : ∀ s : State, s.Sound C →
    (accept s).Sound C) :
    (s.present t action accept).Sound C :=
  (h.refuseDebug.ite (haccept _ h.bump)).newChallenge

theorem State.Sound.openSession {t : Token} (h : s.Sound C) : (s.openSession t).Sound C := .journal (.setFld (.setLc { h.setLevel with }))

theorem State.Sound.execTokenDebug {t : Token} (h : s.Sound C) : Keeps C (execTokenDebug t s) :=
  .whenever h (h.present (fun _ h => h.openSession.endSession.ite h.openSession))

theorem State.Sound.execTokenReturn {t : Token} (h : s.Sound C) : Keeps C (execTokenReturn t s) := by
  refine .whenever h (h.present fun u h => ?_)
  have herase := h.returnErase
  generalize u.returnErase = v at herase
  exact State.Sound.setLc { herase with }

theorem State.Sound.execTokenLock {t : Token} (h : s.Sound C) : Keeps C (execTokenLock t s) :=
  .whenever h (h.present (fun _ h => .setLevel (.setLc { h with })))

theorem State.Sound.enterLevel {l : Nat} (h : s.Sound C) : (s.enterLevel l).Sound C := by
  unfold State.enterLevel
  refine .ite ?_ h.setLevel
  have herase := h.debugErase
  generalize s.debugErase = v at herase
  exact State.Sound.setLevel { herase with }

theorem State.Sound.execDebugLevelRaise {level : Nat} (h : s.Sound C) : Keeps C (execDebugLevelRaise level s) :=
  .onUnit (.ite (.next h) (.ite (.next h.refuseDebug) (.ite (.onAccess h h.enterLevel) (.next h.enterLevel))))

theorem State.Sound.execDebugLevelLower {level : Nat} (h : s.Sound C) : Keeps C (execDebugLevelLower level s) :=
  .onUnit (.ite (.next h) (.ite (.next (h.endSession.ite h.refuseDebug)) (.next h.setLevel)))

theorem State.Sound.execDebugSessionExpiry (h : s.Sound C) : Keeps C (execDebugSessionExpiry s) := by
  unfold Machine.execDebugSessionExpiry
  split
  · exact .next h
  · exact .whenever h h.endSession

/-! ## Power -/

theorem State.Sound.readSensor {n v : Nat} (h : s.Sound C) : (s.readSensor n v).Sound C := h.setFld.setFld

theorem State.Sound.execSensorRead {readings : List (BitVec 12)} (h : s.Sound C) : Keeps C (execSensorRead readings s) := by
  refine .onUnit (.whenever h ?_)
  extract_lets v w
  have hv : v.Sound C := h.foldl fun _ _ h => h.readSensor
  have hw : w.Sound C := hv.foldl fun _ _ h => h.setFld
  clear_value w
  exact .ite { hw with } hw

theorem State.Sound.thermalStep {r : Nat} (h : s.Sound C) : (s.thermalStep r).Sound C := { h with thermal := Tab.sorted_set h.thermal }

theorem State.Sound.execThermalLoopTick (h : s.Sound C) : Keeps C (execThermalLoopTick s) :=
  .whenever h (h.foldl (fun _ _ h => h.thermalStep)).applyPoints

theorem State.Sound.execPowerSample {watts : Nat} (h : s.Sound C) : Keeps C (execPowerSample watts s) := .whenever h (.setFld { h with })

theorem State.Sound.execPowerCeilingTick {fast : Bool} (h : s.Sound C) : Keeps C (execPowerCeilingTick fast s) :=
  .whenever h (.applyPoints { h with })

theorem State.Sound.execUvGuardEntry {region : Nat} (h : s.Sound C) : Keeps C (execUvGuardEntry region s) := .onUnit (.whenever h h.setFlag.bump)

theorem State.Sound.execUvGuardExit {region : Nat} (h : s.Sound C) : Keeps C (execUvGuardExit region s) :=
  .onUnit (.next h.setFlag.lateWrites.lateRepairs)

theorem State.Sound.stopAssay (h : s.Sound C) : s.stopAssay.Sound C := by
  unfold State.stopAssay
  split
  · exact h
  · split
    · exact h.assayIdle.setFld.journal
    · exact h.assayIdle
    · exact h.assayIdle

theorem State.Sound.stopRates (h : s.Sound C) : s.stopRates.Sound C := h.foldl fun _ _ h => h.setFld

theorem State.Sound.execP1Entry (h : s.Sound C) : Keeps C (execP1Entry s) := by
  unfold Machine.execP1Entry
  split
  · exact .next h
  · exact .whenever h (.applyPoints (.setFld { h with }))

theorem State.Sound.execP2Entry (h : s.Sound C) : Keeps C (execP2Entry s) := by
  unfold Machine.execP2Entry
  split
  · exact .next h
  · exact .whenever h h.stopAssay.setFld.bump.stopRates.applyPoints

theorem State.Sound.execWake (h : s.Sound C) : Keeps C (execWake s) := .next h.startWake

theorem State.Sound.loseItem {id : Nat} (h : s.Sound C) : (s.loseItem id).Sound C := by
  unfold State.loseItem
  split
  · exact h
  · next i hi => exact h.bump.leave fun _ => ⟨i, by simpa using List.mem_of_find?_eq_some hi, rfl, rfl⟩

theorem State.Sound.loseFunctions (h : s.Sound C) : s.loseFunctions.Sound C := by
  unfold State.loseFunctions
  exact ((h.cxlDown.foldl (fun _ _ h => h.loseItem)).foldl (fun _ _ h => h.lastMessages.releaseContext.fnDown.ite h)).settleReset

theorem State.Sound.stopLinks (h : s.Sound C) : s.stopLinks.Sound C := h.foldl fun _ _ h => h.ite h.stopLink

theorem State.Sound.loseContent (h : s.Sound C) : s.loseContent.Sound C := by
  unfold State.loseContent
  extract_lets v w
  have hv : v.Sound C := h.stopAssay.mapTiles fun _ _ => .blank
  have hw : w.Sound C := hv.foldl fun _ _ h => h.endResidency
  clear_value w
  exact { hw with mem := rfl, memPoison := rfl, memDamage := rfl, queues := rfl, links := rfl }

theorem State.Sound.mainOff (h : s.Sound C) : s.mainOff.Sound C := by
  have hoff := h.loseFunctions.stopLinks.loseContent.stopRates.setFlag (f := Fld.setupStatReady) (i := 0) (b := false)
  unfold State.mainOff
  dsimp only
  generalize (s.loseFunctions.stopLinks.loseContent.stopRates).setFlag Fld.setupStatReady 0 false = v at hoff
  exact { hoff with }

theorem State.Sound.enterP3 (h : s.Sound C) : s.enterP3.Sound C := by
  have hoff := h.endSession.mainOff
  unfold State.enterP3
  dsimp only
  generalize s.endSession.mainOff = v at hoff
  exact State.Sound.setFld (.setFlag (.setFld { hoff with }))

theorem State.Sound.execPwrCtlOff {a : Agent} (h : s.Sound C) : Keeps C (execPwrCtlOff a s) :=
  .onUnit (by
    split
    · exact .ite (.next h) (.onAccess h (h.enterP3.ite h))
    · exact .ite (.next h) (.onAccess h (h.enterP3.ite h))
    · exact .next h
    · exact .next h)

theorem State.Sound.execMctpOff (h : s.Sound C) : Keeps C (execMctpOff s) := .whenever h h.enterP3

theorem State.Sound.leaveP3 (h : s.Sound C) : s.leaveP3.Sound C := h.setFld.setFlag.setFld.ite h

theorem State.Sound.execMctpWake (h : s.Sound C) : Keeps C (execMctpWake s) := .whenever h h.leaveP3

theorem State.Sound.execWakeNAssert {low : Bool} (h : s.Sound C) : Keeps C (execWakeNAssert low s) := .next (.ite (.leaveP3 { h with }) { h with })

theorem State.Sound.execHardTrip {sensor : Nat} (h : s.Sound C) : Keeps C (execHardTrip sensor s) :=
  .onUnit (.whenever h (.ite (.journal (.ite (.enterP3 (.setFld (.setFlag { h with }))) (.setFld (.setFlag { h with }))))
      (.ite (.enterP3 (.setFld (.setFlag { h with }))) (.setFld (.setFlag { h with })))))

theorem State.Sound.staticEvents (h : s.Sound C) : s.staticEvents.Sound C := by
  unfold State.staticEvents
  exact ((h.foldl (fun _ _ h => h.staticEvent)).foldl (fun _ _ h => h.event)).event

theorem State.Sound.newInterval (h : s.Sound C) : s.newInterval.Sound C := { h with }

theorem State.Sound.execEnergyRescale {measuredUj : Nat} (h : s.Sound C) : Keeps C (execEnergyRescale measuredUj s) :=
  .whenever h (h.staticEvents.newInterval.foldl (fun _ _ h => h.bump)).bump.bump

/-! ## Startup -/

/-- What cold reset keeps of the stores: host memory and the image slots. -/
theorem State.Sound.cold {vauxLost : Bool} (h : s.Sound C) : (s.cold vauxLost).Sound C := by
  have hcold : ({ State.reset with
      pending := s.pending
      draws := s.draws
      host := s.host
      hostPoison := s.hostPoison
      sec := s.sec.kept
      pins := s.pins.kept vauxLost
      outs := s.outs } : State).Sound C :=
    { State.Sound.reset with host := h.host, images := h.images }
  unfold State.cold
  dsimp only
  split
  · exact hcold.setFlag.setFld
  · exact hcold

theorem State.Sound.execColdReset {vauxLost : Bool} {written : Nat} (h : s.Sound C) : Keeps C (execColdReset vauxLost written s) :=
  .next (h.tearRecord.ite h).cold

theorem State.Sound.execTestModeAssert (h : s.Sound C) : Keeps C (execTestModeAssert s) := .next { h.cold with }

theorem State.Sound.execPorRelease {strap : Nat} (h : s.Sound C) : Keeps C (execPorRelease strap s) :=
  .onUnit (.whenever h (.newChallenge (.readOtp (.setFld { h with }))))

theorem State.Sound.execTripRecord (h : s.Sound C) : Keeps C (execTripRecord s) := by
  unfold Machine.execTripRecord
  split
  · exact .next h
  · exact .whenever h (.setFld (.setFld (.setFlag { h.ite h.journal with })))

theorem State.Sound.putPhys {p st logical : Nat} {fenced : Bool} {fences runs : Nat} (h : s.Sound C) :
    (s.putPhys p st logical fenced fences runs).Sound C :=
  h.setFld.setFld.setFlag.setFld.setFld

theorem State.Sound.factoryTile {p : Nat} (h : s.Sound C) : (s.factoryTile p).Sound C := h.putPhys.setTile { h.tile with }

theorem State.Sound.factoryChan {c : Nat} (h : s.Sound C) : (s.factoryChan c).Sound C := h.setFld.setFld.ite h.setFld

/-- The records of lanes and of channels that left start anew. -/
theorem State.Sound.withRecords {x : Assay} {d : Tab Nat} (h : s.Sound C) :
    ({ s with assay := x, chans := { s.chans with departures := d } } : State).Sound C := { h with }

theorem State.Sound.factory (h : s.Sound C) : s.factory.Sound C := by
  unfold State.factory
  exact (((h.foldl fun _ _ h => h.factoryTile).foldl fun _ _ h => h.factoryChan).foldl fun _ _ h => h.setFld).withRecords.setFld

theorem State.Sound.replayChannel {c st slot : Nat} (h : s.Sound C) : (s.replayChannel c st slot).Sound C := by
  unfold State.replayChannel
  extract_lets s1 s2 s3
  have h1 : s1.Sound C := h.departs.ite h
  have h2 : s2.Sound C := by
    dsimp only [s2]
    split
    · exact h1.setFld
    · exact h1
  have h3 : s3.Sound C := h2.setFld
  exact h3.setFld.ite h3

theorem State.Sound.applyRec {r : JRec} (h : s.Sound C) : (s.applyRec r).Sound C :=
  h.putPhys.ite (.ite (h.setTile { h.tile with }) (h.replayChannel.ite (.ite (.setLane { h with }) ((h.setFld.ite h).ite (h.setFld.ite h)))))

theorem State.Sound.replayRec {r : JRec} (h : s.Sound C) : (s.replayRec r).Sound C := h.applyRec.extendMeas

theorem State.Sound.calibrate {log : List JRec} (h : s.Sound C) : (s.calibrate log).Sound C := by
  unfold State.calibrate
  split
  · exact .ite { h.setFlag.setFld with } (.setFld { h.setFlag.setFld with })
  · exact .ite { h.setFlag.setFld with } (.setFld { h.setFlag.setFld with })

theorem State.Sound.corrected (h : s.Sound C) : s.corrected.Sound C := h.bump

theorem State.Sound.fixTile {p st logical : Nat} (h : s.Sound C) : (s.fixTile p st logical).Sound C := h.setFld.setFld.journal.corrected

theorem State.Sound.settleAssay (h : s.Sound C) : s.settleAssay.Sound C := h.foldl fun _ _ h => h.fixTile

theorem State.Sound.settleMode (h : s.Sound C) : s.settleMode.Sound C :=
  ((h.ite h.setFld.journal.corrected).foldl (fun _ _ h => h.fixTile)).ite (h.ite h.setFld.journal.corrected)

theorem State.Sound.settleClaims {log : List JRec} {t : Nat} (h : s.Sound C) : (State.settleClaims log s t).Sound C := h.foldl fun _ _ h => h.fixTile

theorem State.Sound.settleFenced {t : Nat} (h : s.Sound C) : (s.settleFenced t).Sound C := by
  unfold State.settleFenced
  split
  · exact h
  · exact h.ite (by
      split
      · exact h.fixTile.fixTile
      · exact h)

theorem State.Sound.settleServe {t : Nat} (h : s.Sound C) : (s.settleServe t).Sound C :=
  h.ite (by
    split
    · exact h.fixTile
    · exact h)

theorem State.Sound.settleStrand {t : Nat} (h : s.Sound C) : (s.settleStrand t).Sound C := h.setFlag

theorem State.Sound.settleTiles {log : List JRec} (h : s.Sound C) : (s.settleTiles log).Sound C :=
  (((h.settleAssay.settleMode.foldl (fun _ _ h => h.settleClaims)).foldl (fun _ _ h => h.settleFenced)).foldl (fun _ _ h => h.settleServe)).foldl fun
      _ _ h => h.settleStrand

theorem State.Sound.settleSlot {l : Nat} (h : s.Sound C) : (s.settleSlot l).Sound C :=
  h.ite (by
    split
    · exact (h.setFld.setFld.journal.journal.ite h.setFld.setFld.journal).corrected
    · exact h.ite h.setFld.journal.corrected)

theorem State.Sound.setTop (h : s.Sound C) : s.setTop.Sound C := (h.foldl (fun _ _ h => h.setFlag.setFlag)).setFld.setFld.setFlag

theorem State.Sound.settleChannels (h : s.Sound C) : s.settleChannels.Sound C :=
  ((h.foldl (fun _ _ h => h.setFld.journal.corrected)).foldl (fun _ _ h => h.settleSlot)).setTop

theorem State.Sound.dropRange {t : Nat} {e : Nat × Nat × Nat × Bool} (h : s.Sound C) : (State.dropRange t s e).Sound C :=
  h.ite h.setGrant.setFlag.corrected

theorem State.Sound.dropRect {t : Nat} (h : s.Sound C) : (s.dropRect t).Sound C := h.ite h.setGrant.setFld.setFld.corrected

theorem State.Sound.fitGrant {t : Nat} (h : s.Sound C) : (s.fitGrant t).Sound C := (h.foldl (fun _ _ h => h.dropRange)).dropRect

theorem State.Sound.execJournalReplay (h : s.Sound C) : Keeps C (execJournalReplay s) := by
  refine .whenever h ?_
  extract_lets log s1 s2 sec s3 s4
  have h1 : s1.Sound C := h.bump.ite h
  have h2 : s2.Sound C := h1.setFld.factory
  clear_value s2
  have h3 : s3.Sound C := State.Sound.calibrate (State.Sound.foldl { h2 with } fun _ _ h => h.replayRec)
  have h4 : s4.Sound C := h3.settleTiles.settleChannels
  exact (h4.foldl fun _ _ h => h.fitGrant).setFld

theorem State.Sound.execPgMainRise (h : s.Sound C) : Keeps C (execPgMainRise s) := .whenever h (.ite (.leaveP3 { h with }) { h with })

theorem State.Sound.mainLost (h : s.Sound C) : s.mainLost.Sound C := .ite (.setFld (.mainOff { h with })) { h with }

theorem State.Sound.execPgMainFall (h : s.Sound C) : Keeps C (execPgMainFall s) := .whenever h (.ite { h with } (.mainLost { h with }))

theorem State.Sound.execRailFault (h : s.Sound C) : Keeps C (execRailFault s) := .whenever h (.mainLost { h with })

theorem State.Sound.execRegulatorRamp (h : s.Sound C) : Keeps C (execRegulatorRamp s) :=
  .whenever h (.setFld (.applyPoints (.foldl { h with } (fun _ _ h => h.setFlag))))

theorem State.Sound.trainFail {c : Nat} (h : s.Sound C) : (s.trainFail c).Sound C :=
  h.ite (by
    split
    · exact h.setFld.journal.settleSlot
    · exact h.setFld.journal)

theorem State.Sound.execMemoryTraining {failed : List Nat} (h : s.Sound C) : Keeps C (execMemoryTraining failed s) :=
  .onUnit (.whenever h (h.foldl (fun _ _ h => h.trainFail)).setTop.setFld)

theorem State.Sound.closeOldSession (h : s.Sound C) : s.closeOldSession.Sound C := by
  unfold State.closeOldSession
  split
  · exact h.journal.ite h
  · exact h

/-- What MEMORY_INIT empties. -/
theorem State.Sound.emptied (h : s.Sound C) :
    ({ s with
      mem := []
      memPoison := []
      memDamage := []
      boards := []
      pools := []
      windows := []
      peerRefs := []
      inboxes := []
      tables := []
      windowIns := []
      chans := { s.chans with migrations := [], fills := [], requested := [], scrubPos := [], scrubDone := [], late := [], queues := [], narrowRun := [] } } :
      State).Sound C :=
  { h with mem := rfl, memPoison := rfl, memDamage := rfl, queues := rfl }

theorem State.Sound.initAll (h : s.Sound C) : s.initAll.Sound C := by
  unfold State.initAll
  exact ((h.mapTiles fun _ _ => .blank).foldl fun _ _ h => h.setFlag.setFld.setFld).emptied

theorem State.Sound.execMemoryInit (h : s.Sound C) : Keeps C (execMemoryInit s) :=
  .whenever h (h.initAll.closeOldSession.setFld.foldl (fun _ _ h => h.startBringup.ite h))

theorem State.Sound.portUpNow (h : s.Sound C) : s.portUpNow.Sound C := .enableAll { h with }

theorem State.Sound.execPortReady (h : s.Sound C) : Keeps C (execPortReady s) := .whenever h (.portUpNow (.setFld (.setFlag { h with })))

theorem State.Sound.execPerstNFall (h : s.Sound C) : Keeps C (execPerstNFall s) := .whenever h (.ite (.cxlDown { h with }) { h with })

theorem State.Sound.execPerstNRise (h : s.Sound C) : Keeps C (execPerstNRise s) := .whenever h (.ite (.portUpNow { h with }) { h with })

theorem State.Sound.execAlertCauseRead (h : s.Sound C) : Keeps C (execAlertCauseRead s) := .whenever h { h with }

end Sys2Proof.Machine
end

section
/-! SUPPORT. The canonical form store by store: the rules and the commands of the test access port, the registers, expert routing and the debug access (O3). -/

namespace Sys2Proof.Machine

-- One declaration after another: each blocked elaboration thread holds a stack, which the check's memory limit counts.
set_option Elab.async false

variable {C : Prop} {s : State}

/-! ## The test access port -/

theorem State.Sound.tap {ir : BitVec 8} {dr : List Bool} (h : s.Sound C) : (s.tap ir dr).Sound C := { h with }

theorem State.Sound.capture {ir : BitVec 8} (h : s.Sound C) : (s.capture ir).Sound C := .tap { h with }

theorem State.Sound.scanTest {ir : BitVec 8} (h : s.Sound C) : (s.scanTest ir).Sound C := h.capture.ite h.tap

theorem State.Sound.execIdcode (h : s.Sound C) : Keeps C (execIdcode s) := .whenever h h.tap

theorem State.Sound.execSamplePreload {preload : List Bool} (h : s.Sound C) : Keeps C (execSamplePreload preload s) :=
  .whenever h { h.capture (ir := 0x02) with }

theorem State.Sound.execExtest (h : s.Sound C) : Keeps C (execExtest s) := .whenever h h.scanTest

theorem State.Sound.execExtestPulse (h : s.Sound C) : Keeps C (execExtestPulse s) := .whenever h h.scanTest

theorem State.Sound.execExtestTrain (h : s.Sound C) : Keeps C (execExtestTrain s) := .whenever h h.scanTest

theorem State.Sound.execClamp (h : s.Sound C) : Keeps C (execClamp s) := .whenever h h.tap

theorem State.Sound.execHighz (h : s.Sound C) : Keeps C (execHighz s) := .whenever h h.tap

theorem State.Sound.execBypass {ir : BitVec 8} (h : s.Sound C) : Keeps C (execBypass ir s) := .whenever h h.tap

theorem State.Sound.execTapReset (h : s.Sound C) : Keeps C (execTapReset s) := .whenever h { h with }

/-! ## Registers -/

theorem State.Sound.writeFields {fs : List Field} {i b v : Nat} (h : s.Sound C) : (s.writeFields fs i b v).Sound C := h.foldl fun _ _ h => h.setFld

theorem State.Sound.writePlain {r : Reg} {i b v : Nat} (h : s.Sound C) : (s.writePlain r i b v).Sound C := h.writeFields

theorem State.Sound.via {o : Out State} (h : s.Sound C) (ho : Keeps C o) : (s.via o).Sound C := by
  unfold State.via
  split
  · exact ho _ rfl
  · exact h
  · exact h

theorem State.Sound.writeHwin {w b v : Nat} (h : s.Sound C) : (s.writeHwin w b v).Sound C := h.ite (h.writeFields.setFlag.ite h.writeFields)

theorem State.Sound.writeRing {i b v : Nat} (h : s.Sound C) : (s.writeRing i b v).Sound C :=
  (h.ite h.writeFields).ite (((h.ite h.writeFields).via (h.ite h.writeFields).execRingEnable).ite
      ((h.ite h.writeFields).via (h.ite h.writeFields).execRingDisable))

theorem State.Sound.writeVec {i b v : Nat} (h : s.Sound C) : (s.writeVec i b v).Sound C := h.setVec.flushHeld

theorem State.Sound.writeTenant {ctx v : Nat} (h : s.Sound C) : (s.writeTenant ctx v).Sound C :=
  (((h.via h.execTenantFence).ite h).via ((h.via h.execTenantFence).ite h).execTenantUnfence).ite ((h.via h.execTenantFence).ite h)

theorem State.Sound.writeDoorbell {i b v : Nat} (h : s.Sound C) : (s.writeDoorbell i b v).Sound C :=
  (h.via h.execSqTailWrite).ite (h.via h.execCqHeadWrite)

theorem State.Sound.peakSince {t : Nat} (h : s.Sound C) : (s.peakSince t).Sound C := by
  unfold State.peakSince
  split
  · exact h.peak
  · exact h

theorem State.Sound.writeWord {a : Agent} {x : Place} {v : Nat} (h : s.Sound C) : (s.writeWord a x v).Sound C := by
  unfold State.writeWord
  split
  · exact h.writeDoorbell
  · exact h.writeVec
  · exact h.writePlain.peakSince
  · exact h.writePlain.vecReached
  · exact h.writeRing
  · exact h.writeHwin
  · exact (h.via h.execSetupLock).ite h
  · exact (h.writePlain.via h.writePlain.execPwrCtlOff).ite h.writePlain
  · exact h.writePlain.applyPoints.ite h.writePlain
  · exact h.via h.execLinkMaskWrite
  · exact h.via h.execLinkRtWrite
  · exact (h.via h.execLinkPortWrite).ite h
  · exact h.via h.execLinkTopoWrite
  · exact h.via h.execFnQuotaWrite
  · exact (h.via h.execGrantCommit).ite h
  · exact h.writeTenant
  · exact (h.writePlain.via h.writePlain.execAuditSnap).ite h.writePlain
  · exact h.measurePart.ite h
  · exact h.writePlain

theorem State.Sound.writeAt {a : Agent} {o v : Nat} (h : s.Sound C) : (s.writeAt a o v).Sound C := by
  unfold State.writeAt
  split
  · exact h.writeWord.ite h
  · exact h

theorem State.Sound.writeAccess {a : Agent} {o size v : Nat} (h : s.Sound C) : (s.writeAccess a o size v).Sound C :=
  h.boundDiscard.ite (h.writeAt.writeAt.ite h.writeAt)

theorem State.Sound.badDoorbell {a : Agent} {o : Nat} (h : s.Sound C) : (s.badDoorbell a o).Sound C := by
  unfold State.badDoorbell
  split
  · exact h.bump.ite h
  · exact h

theorem State.Sound.execRegisterWrite {a : Agent} {offset size : Nat} {value : Word64} (h : s.Sound C) :
    Keeps C (execRegisterWrite a offset size value s) :=
  .onUnit (.ite (.next h) (.ite (.next h.boundDiscard)
      (.ite (.next (h.writeAccess.ite (h.badDoorbell.ite h))) (.onAccess h (h.writeAccess.ite (h.badDoorbell.ite h))))))

/-! ## Attestation -/

theorem State.Sound.execAttestationRequest {nonce : List Byte} {overSpdm : Bool} (h : s.Sound C) :
    Keeps C (execAttestationRequest nonce overSpdm s) :=
  .whenever h { h with }

/-! ## Expert routing -/

theorem State.Sound.execXcfg {t : Nat} (h : s.Sound C) : Keeps C (execXcfg t s) :=
  .onInsn h fun _ _ => .ite (h.issueInstant (fun _ h => { h with })) h

theorem State.Sound.execXplace {t : Nat} {chk : Check} (h : s.Sound C) : Keeps C (execXplace t chk s) :=
  .onStore h fun _ _ h => .onInsn h fun _ _ => (h.runEffect ⟨h.tile.sput.sput, fun _ _ h => h⟩).bump.bump.ite
      (h.runEffect ⟨h.tile.sput.sput, fun _ _ h => h⟩)

theorem State.Sound.suppressed {tl : Tile} {n : Nat} (h : s.Sound C) : (s.suppressed tl n).Sound C := by
  unfold State.suppressed
  split
  · exact h.ite h.bump.modItem
  · exact h

theorem State.Sound.execXgather {t : Nat} {chk : Check} (h : s.Sound C) : Keeps C (execXgather t chk s) :=
  .onStore h fun _ _ h => .onInsn h fun _ _ => (h.runEffect ⟨h.tile.foldl (fun _ _ h => h.sput), fun _ _ h => h⟩).suppressed.ite
      (h.runEffect ⟨h.tile.foldl (fun _ _ h => h.sput), fun _ _ h => h⟩)

theorem State.Sound.execXcombine {t : Nat} {chk : Check} (h : s.Sound C) : Keeps C (execXcombine t chk s) :=
  .onStore h fun _ _ h => .onInsn h fun _ _ => (h.runEffect ⟨h.tile.foldl (fun _ _ h => h.sput), fun _ _ h => h⟩).suppressed.ite
      (h.runEffect ⟨h.tile.foldl (fun _ _ h => h.sput), fun _ _ h => h⟩)

theorem State.Sound.execTlook {t : Nat} {chk : Check} (h : s.Sound C) : Keeps C (execTlook t chk s) :=
  .onStore h fun _ _ h => .pathInsn h fun _ _ h => h.idle.ite h.laneEffect.withParts

/-! ## Debug access -/

theorem State.Sound.debugTap (h : s.Sound C) : s.debugTap.Sound C := { h with }

theorem State.Sound.refuseLoupe (h : s.Sound C) : s.refuseLoupe.Sound C := { h with }

theorem State.Sound.serveLoupe (h : s.Sound C) : s.serveLoupe.Sound C := { h with }

theorem State.Sound.giveLoupe {v : Word64} (h : s.Sound C) : (s.giveLoupe v).Sound C := { h with }

theorem Keeps.grant {c : Instr} {l : Nat} {need : DebugNeed} {p3 : Bool} {k : State → State} (h : s.Sound C)
    (hk : ∀ u : State, u.Sound C → (k u).Sound C) : Keeps C (grant c l need p3 s k) :=
  .ite (.next h) (.next (h.debugTap.refuseLoupe.ite (h.debugTap.await.ite (hk _ h.debugTap))))

theorem State.Sound.onServing {t : Nat} {f : Tile → Tile} (h : s.Sound C) (hf : ∀ tl, tl.Sound → (f tl).Sound) : (s.onServing t f).Sound C := by
  unfold State.onServing
  split
  · exact h.setTile (hf _ h.tile)
  · exact h

theorem State.Sound.holdMgc {b : Bool} (h : s.Sound C) : (s.holdMgc b).Sound C := { h with }

theorem State.Sound.holdTarget {c : Instr} {x : HaltTarget} {b : Bool} (h : s.Sound C) : Keeps C (holdTarget c x b s) := by
  unfold Machine.holdTarget
  split
  · exact .grant h fun _ h' => .serveLoupe (h'.onServing (fun _ h => { h with }))
  · exact .grant h fun _ h => h.holdMgc.serveLoupe

theorem State.Sound.execDebugHalt {x : HaltTarget} (h : s.Sound C) : Keeps C (execDebugHalt x s) := .onUnit h.holdTarget

theorem State.Sound.execDebugResume {x : HaltTarget} (h : s.Sound C) : Keeps C (execDebugResume x s) := .onUnit h.holdTarget

theorem issueOf_keeps {opc t : Nat} {l : List (Nat × (State → Out State))} (hl : ∀ e ∈ l, Keeps C (e.2 s)) :
    ∀ k, issueOf opc t l = some k → Keeps C (k s) := by
  induction l with
  | nil => exact fun _ hk => absurd hk nofun
  | cons e r ih =>
    intro k hk
    unfold issueOf at hk
    split at hk
    · obtain rfl := Option.some.inj hk
      exact hl e List.mem_cons_self
    · exact ih (fun e he => hl e (List.mem_cons_of_mem _ he)) k hk

theorem State.Sound.coreIssues {t : Nat} (h : s.Sound C) : ∀ e ∈ coreIssues t, Keeps C (e.2 s) := by
  simp only [Machine.coreIssues, List.forall_mem_cons]
  exact ⟨h.execNop, h.execEndStream, h.execLoop, h.execFence, h.execLdb, h.execMma, h.execDrain, h.execSwap, h.execRed, h.execScfg, h.execSsig, h.execBcfg,
    h.execBwaitd, h.execBwaits, h.execBpush, h.execBpop, h.execRsend, h.execRland, List.forall_mem_nil _⟩

theorem State.Sound.vectorIssues {t : Nat} (h : s.Sound C) : ∀ e ∈ vectorIssues t, Keeps C (e.2 s) := by
  simp only [Machine.vectorIssues, List.forall_mem_cons]
  exact ⟨h.execVld, h.execVst, h.execVmov, h.execVmld, h.execVmst, h.execViota, h.execVadd, h.execVsub, h.execVmul, h.execVfma, h.execVmax, h.execVmin,
    h.execVneg, h.execVabs, h.execVcmp, h.execVsel, h.execVsf, h.execVrstat, h.execVrmsn, h.execVsmx, h.execVupd, List.forall_mem_nil _⟩

theorem State.Sound.unitIssues {t : Nat} (h : s.Sound C) : ∀ e ∈ unitIssues t, Keeps C (e.2 s) := by
  simp only [Machine.unitIssues, List.forall_mem_cons]
  exact ⟨h.execLkload, h.execLkput, h.execLkrd, h.execLkfl, h.execRopet, h.execRope, h.execAmask, h.execApsmx, h.execAmerge, h.execXcfg, h.execXplace,
    h.execXgather, h.execXcombine, h.execTlook, List.forall_mem_nil _⟩

/-- The next instruction of a tile that steps is issued as its own command issues it. -/
theorem State.Sound.issueNext {t : Nat} (h : s.Sound C) : (s.issueNext t).Sound C := by
  have hall : ∀ e ∈ Machine.coreIssues t ++ Machine.vectorIssues t ++ Machine.unitIssues t, Keeps C (e.2 s) :=
    fun e he => (List.mem_append.1 he).elim (fun he => (List.mem_append.1 he).elim (h.coreIssues e) (h.vectorIssues e)) (h.unitIssues e)
  unfold State.issueNext
  split
  · exact h
  · split
    · next k hk => exact h.via (Machine.issueOf_keeps hall k hk)
    · exact h

theorem State.Sound.singleStep {t : Nat} (h : s.Sound C) : (s.singleStep t).Sound C :=
  .ite (.onServing (.issueNext (h.onServing (fun _ h => { h with }))) (fun _ h => { h with })) h

theorem State.Sound.debugStep {x : HaltTarget} (h : s.Sound C) : Keeps C (debugStep x s) := by
  unfold Machine.debugStep
  split
  · exact .grant h fun _ h => h.singleStep.serveLoupe
  · exact .grant h fun _ h => h.serveLoupe

theorem State.Sound.execDebugSingleStep {x : HaltTarget} (h : s.Sound C) : Keeps C (execDebugSingleStep x s) := .onUnit (.accepting h h.debugStep)

theorem Slot.Sound.setField {x : Slot} {k v : Nat} (h : x.Sound) : (x.setField k v).Sound := by
  unfold Slot.setField
  split <;> exact { h with }

theorem Tile.Sound.modSlot {t : Tile} {n : Nat} {f : Slot → Slot} (h : t.Sound) (hf : ∀ x, x.Sound → (f x).Sound) : (t.modSlot n f).Sound :=
  { h with locket := Tab.sorted_modify h.locket, slots := Tab.forall_set h.slots (hf (t.slot n) h.slot) }

theorem Tile.Sound.pokeMask {t : Tile} {m k : Nat} {v : Word64} (h : t.Sound) : (t.pokeMask m k v).Sound := { h with masks := Tab.sorted_set h.masks }

theorem Tile.Sound.debugPoke {t : Tile} {which k : Nat} {v : Word64} (h : t.Sound) : (t.debugPoke which k v).Sound := by
  unfold Tile.debugPoke
  split
  · exact .ite { h with vbuf := Memory.wf_writeNat h.vbuf } h
  · exact .ite { h with acc := Tab.sorted_set h.acc } h
  · exact h.pokeMask.ite h
  · exact .ite { h with tableStore := Tab.sorted_set h.tableStore } h
  · exact .ite { h with syncCount := Tab.sorted_set h.syncCount } h
  · exact .ite { h with syncThresh := Tab.sorted_set h.syncThresh } h
  · exact .ite { h with } h
  · exact .ite { h with } h
  · exact .ite { h with } h
  · exact .ite { h with } h
  · exact .ite { h with angle := Tab.sorted_set h.angle } h
  · exact h.modSlot fun _ h => ⟨Memory.wf_write h.image, h.marks⟩
  · exact h.modSlot fun _ h => ⟨Memory.wf_write h.image, h.marks⟩
  · exact { h with }
  · exact { h with }
  · exact { h with }
  · exact { h with }
  · exact .ite { h with } (.ite { h with } { h with })
  · exact .ite { h with } h
  · exact { h with }
  · exact (h.modSlot (fun _ h => h.setField)).ite h
  · exact .ite { h with } { h with }
  · exact .ite { h with } h
  · exact .ite { h with spadMarks := Tab.sorted_set h.spadMarks } h
  · exact .ite { h with vbufMarks := Tab.sorted_set h.vbufMarks } h
  · exact .ite { h with maskMarks := Tab.sorted_set h.maskMarks } h
  · exact .ite { h with accMarks := Tab.sorted_set h.accMarks } h
  · exact .ite { h with tableMarks := Tab.sorted_set h.tableMarks } h
  · exact h.modSlot fun _ h => ⟨h.image, Tab.sorted_set h.marks⟩
  · exact h.modSlot fun _ h => ⟨h.image, Tab.sorted_set h.marks⟩
  · exact .ite { h with } (.ite { h with } { h with })
  · exact h

theorem State.Sound.giveFree {unit : Nat} (h : s.Sound C) : (s.giveFree unit).Sound C := .giveLoupe { h with }

theorem State.Sound.loupeWrites {o size : Nat} (h : s.Sound C) : (s.loupeWrites o size).Sound C := h.boundDiscard.refuseLoupe.ite h.refuseLoupe

theorem State.Sound.loupeMem {a : Nat} (h : s.Sound C) : (s.loupeMem a).Sound C := h.takeFor.giveLoupe

theorem State.Sound.loupeAccess {acc : LoupeAccess} (h : s.Sound C) : Keeps C (loupeAccess acc s) := by
  unfold Machine.loupeAccess
  split
  · exact .grant h fun _ h => h.giveLoupe
  · exact .grant h fun _ h => h.giveLoupe
  · exact .grant h fun _ h => h.giveLoupe
  · exact .grant h fun _ h => h.loupeWrites
  · exact .grant h fun _ h => h.giveFree
  · exact .grant h fun _ h => h.giveLoupe
  · exact .grant h fun _ h' => ((h'.onServing (fun _ h => h.writeRow)).ite h').serveLoupe
  · exact .grant h fun _ h => h.loupeMem
  · exact .grant h fun _ h => h.storeFor.serveLoupe
  · exact .grant h fun _ h => h.giveLoupe
  · exact .grant h fun _ h' => (h'.onServing (fun _ h => h.debugPoke)).serveLoupe
  · exact .grant h fun _ h => h.giveLoupe
  · exact .grant h fun _ h => .serveLoupe { h with }
  · exact .ite (.grant h (fun _ h => h.giveLoupe)) (.grant h (fun _ h => h.giveFree))

theorem State.Sound.execLoupeDebugAccess {acc : LoupeAccess} (h : s.Sound C) : Keeps C (execLoupeDebugAccess acc s) :=
  .onUnit (.accepting h h.loupeAccess)

/-! ## Waking -/

theorem State.Sound.serve {c : Instr} (h : s.Sound C) : (s.serve c).Sound C :=
  h.via (by
    split
    · exact h.execSqTailWrite
    · exact h.execCqHeadWrite
    · exact h.execRingEnable
    · exact h.execRingDisable
    · exact h.execFnQuotaWrite
    · exact h.execSetupLock
    · exact h.execRegisterWrite
    · exact h.execPwrCtlOff
    · exact h.execAuditSnap
    · exact h.execTenantFence
    · exact h.execTenantUnfence
    · exact h.execGrantCommit
    · exact h.execHwinSetLock
    · exact .next (h.cxlRead.ite h)
    · exact .next (h.cxlWrite.ite h)
    · exact h.execFlrVf
    · exact h.execFlrPf
    · exact h.execCxlReset
    · exact h.execCxlResetMemClear
    · exact h.execLinkMaskWrite
    · exact h.execLinkRtWrite
    · exact h.execLinkPortWrite
    · exact h.execLinkTopoWrite
    · exact h.execDebugLevelRaise
    · exact h.loupeAccess
    · exact h.debugStep
    · exact h.execDebugHalt
    · exact h.execDebugResume
    · exact .next h)

theorem State.Sound.serveWaiting {c : Instr} (h : s.Sound C) : (s.serveWaiting c).Sound C := .ite { h with } h.serve

theorem State.Sound.execWakeComplete (h : s.Sound C) : Keeps C (execWakeComplete s) := by
  unfold Machine.execWakeComplete
  extract_lets again
  have hagain : ∀ u : State, u.Sound C → (again u).Sound C := fun u hu => State.Sound.foldl { hu with } fun _ _ h => h.serveWaiting
  refine .ite (.next (hagain _ ?_)) (.whenever h (hagain _ h))
  exact State.Sound.applyPoints (.setFld (.setFlag { h with }))

end Sys2Proof.Machine
end

section
/-! SUPPORT. Every command keeps the canonical form, and an audit of pool 0 finds nothing (O3). -/

namespace Sys2Proof.Machine

-- One declaration after another: each blocked elaboration thread holds a stack, which the check's memory limit counts.
set_option Elab.async false

variable {C : Prop} {s : State}

/-- Every command keeps the stores' form and the items' conservation. -/
theorem State.Sound.exec {c : Instr} (h : s.Sound C) : Keeps C (exec c s) :=
  match c with
  | .tallyTick => h.execTallyTick
  | .coreRateUpdate _ _ => h.execCoreRateUpdate
  | .stallWatchdogExpiry _ => h.execStallWatchdogExpiry
  | .timingFrameSend => h.execTimingFrameSend
  | .timingFrameReceive _ _ => h.execTimingFrameReceive
  | .launchBegin _ => h.execLaunchBegin
  | .tileModeChange => h.execTileModeChange
  | .launch _ _ => h.execLaunch
  | .launchCheck _ => h.execLaunchCheck
  | .launchArm _ => h.execLaunchArm
  | .load _ _ => h.execLoad
  | .retire _ _ => h.execRetire
  | .nop _ => h.execNop
  | .endStream _ => h.execEndStream
  | .loop _ => h.execLoop
  | .fence _ => h.execFence
  | .ldb _ _ => h.execLdb
  | .mma _ => h.execMma
  | .drain _ => h.execDrain
  | .swap _ => h.execSwap
  | .swapExchange _ => h.execSwapExchange
  | .red _ => h.execRed
  | .redSourceAdd _ _ => h.execRedSourceAdd
  | .rowGroupCommit _ _ _ _ => h.execRowGroupCommit
  | .instructionComplete _ _ => h.execInstructionComplete
  | .waitSatisfied _ _ => h.execWaitSatisfied
  | .dmaEntryStart _ _ => h.execDmaEntryStart
  | .dmaTransfer _ _ _ => h.execDmaTransfer
  | .dmaEntryFinish _ _ => h.execDmaEntryFinish
  | .tilePartEnd _ => h.execTilePartEnd
  | .vld _ _ => h.execVld
  | .vst _ _ => h.execVst
  | .vmov _ _ => h.execVmov
  | .vmld _ _ => h.execVmld
  | .vmst _ _ => h.execVmst
  | .viota _ _ => h.execViota
  | .vadd _ _ => h.execVadd
  | .vsub _ _ => h.execVsub
  | .vmul _ _ => h.execVmul
  | .vfma _ _ => h.execVfma
  | .vmax _ _ => h.execVmax
  | .vmin _ _ => h.execVmin
  | .vneg _ _ => h.execVneg
  | .vabs _ _ => h.execVabs
  | .vcmp _ _ => h.execVcmp
  | .vsel _ _ => h.execVsel
  | .vsf _ _ => h.execVsf
  | .vrstat _ _ => h.execVrstat
  | .vrmsn _ _ => h.execVrmsn
  | .vsmx _ _ => h.execVsmx
  | .vupd _ _ => h.execVupd
  | .scratchpadRowAccess _ _ _ _ => h.execScratchpadRowAccess
  | .scfg _ => h.execScfg
  | .ssig _ => h.execSsig
  | .ssigTakeEffect _ => h.execSsigTakeEffect
  | .bcfg _ => h.execBcfg
  | .bwaitd _ => h.execBwaitd
  | .bwaits _ => h.execBwaits
  | .bangleWaitSatisfied _ => h.execBangleWaitSatisfied
  | .bpush _ => h.execBpush
  | .bpushTakeEffect _ => h.execBpushTakeEffect
  | .bpop _ => h.execBpop
  | .bpopTakeEffect _ => h.execBpopTakeEffect
  | .lkload _ _ => h.execLkload
  | .lkput _ _ => h.execLkput
  | .lkrd _ _ => h.execLkrd
  | .lkfl _ _ => h.execLkfl
  | .ropet _ _ => h.execRopet
  | .rope _ _ => h.execRope
  | .amask _ _ => h.execAmask
  | .apsmx _ _ => h.execApsmx
  | .amerge _ _ => h.execAmerge
  | .pageCmd _ _ => h.execPageCmd
  | .map _ => h.execMap
  | .ref _ => h.execRef
  | .unref _ => h.execUnref
  | .swapOut _ => h.execSwapOut
  | .swapOutCopy _ => h.execSwapOutCopy
  | .swapIn _ => h.execSwapIn
  | .openPool _ => h.execOpenPool
  | .closePool _ => h.execClosePool
  | .xcfg _ => h.execXcfg
  | .xplace _ _ => h.execXplace
  | .xgather _ _ => h.execXgather
  | .xcombine _ _ => h.execXcombine
  | .memCodewordRead _ _ _ _ _ => h.execMemCodewordRead
  | .memCodewordWrite _ _ _ _ _ _ => h.execMemCodewordWrite
  | .scrubRead _ _ _ => h.execScrubRead
  | .migrationStart _ => h.execMigrationStart
  | .migrationCopyStep _ _ _ _ => h.execMigrationCopyStep
  | .poisonFillStep _ _ => h.execPoisonFillStep
  | .ingest _ _ => h.execIngest
  | .ingestArm _ _ => h.execIngestArm
  | .ingestBlockDecode _ => h.execIngestBlockDecode
  | .layoutWrite _ => h.execLayoutWrite
  | .ingestForward _ => h.execIngestForward
  | .inboxWriteReceive => h.execInboxWriteReceive
  | .ingestCmd _ _ => h.execIngestCmd
  | .tableLoad _ => h.execTableLoad
  | .drop _ => h.execDrop
  | .inboxOpen _ => h.execInboxOpen
  | .inboxClose _ => h.execInboxClose
  | .tlook _ _ => h.execTlook
  | .linkCodewordReceive _ _ => h.execLinkCodewordReceive
  | .linkRetrain _ => h.execLinkRetrain
  | .linkRetrainComplete _ _ _ => h.execLinkRetrainComplete
  | .laneSwitchRequest _ _ => h.execLaneSwitchRequest
  | .laneSwitchRequestReceive _ => h.execLaneSwitchRequestReceive
  | .laneSwitch _ => h.execLaneSwitch
  | .laneLockLoss _ _ => h.execLaneLockLoss
  | .linkBringup _ => h.execLinkBringup
  | .linkSignalDetect _ _ => h.execLinkSignalDetect
  | .linkIdentityExchange _ _ => h.execLinkIdentityExchange
  | .linkPacketSend _ => h.execLinkPacketSend
  | .packetReceive _ => h.execPacketReceive
  | .linkMaskWrite _ _ => h.execLinkMaskWrite
  | .linkRtWrite _ _ _ => h.execLinkRtWrite
  | .linkPortWrite _ _ _ => h.execLinkPortWrite
  | .linkTopoWrite _ _ => h.execLinkTopoWrite
  | .rsend _ => h.execRsend
  | .rland _ => h.execRland
  | .chunkReceive => h.execChunkReceive
  | .landingCombine _ _ _ _ => h.execLandingCombine
  | .ack => h.execAck
  | .nak => h.execNak
  | .busy => h.execBusy
  | .chunkBackoffExpiry _ _ => h.execChunkBackoffExpiry
  | .reject => h.execReject
  | .abort => h.execAbort
  | .unreachableNoticeReceive => h.execUnreachableNoticeReceive
  | .collectiveTimeout _ => h.execCollectiveTimeout
  | .abortedKeyExpiry => h.execAbortedKeyExpiry
  | .windowChunkReceive => h.execWindowChunkReceive
  | .windowCmd _ _ => h.execWindowCmd
  | .wopen _ => h.execWopen
  | .wclose _ => h.execWclose
  | .wrefSet _ => h.execWrefSet
  | .wrefClear _ => h.execWrefClear
  | .descriptorFetch _ _ => h.execDescriptorFetch
  | .nopDescriptor _ _ => h.execNopDescriptor
  | .completionRecordWrite _ => h.execCompletionRecordWrite
  | .msixTimerExpiry _ _ => h.execMsixTimerExpiry
  | .sqTailWrite _ _ _ => h.execSqTailWrite
  | .cqHeadWrite _ _ _ => h.execCqHeadWrite
  | .ringEnable _ _ => h.execRingEnable
  | .ringDisable _ _ => h.execRingDisable
  | .fnQuotaWrite _ _ _ => h.execFnQuotaWrite
  | .hwinSetLock _ _ _ => h.execHwinSetLock
  | .cxlMemRead _ _ => h.execCxlMemRead
  | .cxlMemWrite _ _ _ => h.execCxlMemWrite
  | .grantCommit _ _ => h.execGrantCommit
  | .numvfsWrite _ => h.execNumvfsWrite
  | .vfEnableSet => h.execVfEnableSet
  | .vfEnableClear => h.execVfEnableClear
  | .memorySpaceEnableSet => h.execMemorySpaceEnableSet
  | .memorySpaceEnableClear => h.execMemorySpaceEnableClear
  | .busMasterEnableClear _ => h.execBusMasterEnableClear
  | .busMasterEnableSet _ => h.execBusMasterEnableSet
  | .flrVf _ => h.execFlrVf
  | .flrPf => h.execFlrPf
  | .cxlReset => h.execCxlReset
  | .cxlResetMemClear => h.execCxlResetMemClear
  | .cxlLinkDown => h.execCxlLinkDown
  | .functionDisableComplete _ => h.execFunctionDisableComplete
  | .carryComplete _ _ => h.execCarryComplete
  | .carryTimeout _ => h.execCarryTimeout
  | .strandSubstitution _ => h.execStrandSubstitution
  | .repairStart => h.execRepairStart
  | .repairPeerRequest => h.execRepairPeerRequest
  | .repairResponse => h.execRepairResponse
  | .repairAttemptTimeout => h.execRepairAttemptTimeout
  | .tenantFence _ _ => h.execTenantFence
  | .tenantUnfence _ _ => h.execTenantUnfence
  | .auditSnap _ => h.execAuditSnap
  | .assayTestStart _ => h.execAssayTestStart
  | .assayTestComplete _ => h.execAssayTestComplete
  | .assayRotation => h.execAssayRotation
  | .sensorRead _ => h.execSensorRead
  | .thermalLoopTick => h.execThermalLoopTick
  | .powerSample _ => h.execPowerSample
  | .powerCeilingTick _ => h.execPowerCeilingTick
  | .hardTrip _ => h.execHardTrip
  | .uvGuardEntry _ => h.execUvGuardEntry
  | .uvGuardExit _ => h.execUvGuardExit
  | .p1Entry => h.execP1Entry
  | .p2Entry => h.execP2Entry
  | .wake => h.execWake
  | .wakeComplete => h.execWakeComplete
  | .pwrCtlOff _ => h.execPwrCtlOff
  | .mctpOff => h.execMctpOff
  | .mctpWake => h.execMctpWake
  | .wakeNAssert _ => h.execWakeNAssert
  | .energyRescale _ => h.execEnergyRescale
  | .bootChain _ => h.execBootChain
  | .recoveryImageWrite _ _ _ => h.execRecoveryImageWrite
  | .firmwareUpdate _ _ => h.execFirmwareUpdate
  | .svnCommit _ => h.execSvnCommit
  | .attestationRequest _ _ => h.execAttestationRequest
  | .spdmKeyExchange _ => h.execSpdmKeyExchange
  | .journalRecordWrite => h.execJournalRecordWrite
  | .journalCompaction => h.execJournalCompaction
  | .mgcWatchdogExpiry => h.execMgcWatchdogExpiry
  | .tokenDebug _ => h.execTokenDebug
  | .tokenReturn _ => h.execTokenReturn
  | .tokenLock _ => h.execTokenLock
  | .debugLevelRaise _ => h.execDebugLevelRaise
  | .debugLevelLower _ => h.execDebugLevelLower
  | .debugSessionExpiry => h.execDebugSessionExpiry
  | .debugHalt _ => h.execDebugHalt
  | .debugSingleStep _ => h.execDebugSingleStep
  | .debugResume _ => h.execDebugResume
  | .loupeDebugAccess _ => h.execLoupeDebugAccess
  | .idcode => h.execIdcode
  | .samplePreload _ => h.execSamplePreload
  | .extest => h.execExtest
  | .extestPulse => h.execExtestPulse
  | .extestTrain => h.execExtestTrain
  | .clamp => h.execClamp
  | .highz => h.execHighz
  | .bypass _ => h.execBypass
  | .tapReset => h.execTapReset
  | .coldReset _ _ => h.execColdReset
  | .porRelease _ => h.execPorRelease
  | .tripRecord => h.execTripRecord
  | .journalReplay => h.execJournalReplay
  | .pgMainRise => h.execPgMainRise
  | .regulatorRamp => h.execRegulatorRamp
  | .memoryTraining _ => h.execMemoryTraining
  | .memoryInit => h.execMemoryInit
  | .portReady => h.execPortReady
  | .pgMainFall => h.execPgMainFall
  | .railFault => h.execRailFault
  | .perstNFall => h.execPerstNFall
  | .perstNRise => h.execPerstNRise
  | .testModeAssert => h.execTestModeAssert
  | .setupLock _ => h.execSetupLock
  | .registerWrite _ _ _ _ => h.execRegisterWrite
  | .unlistedDescriptorType _ _ => h.execUnlistedDescriptorType
  | .msixUnmask _ _ => h.execMsixUnmask
  | .spareLaneStopsQualifying _ => h.execSpareLaneStopsQualifying
  | .alertCauseRead => h.execAlertCauseRead

/-- A step takes the command out of the queue and executes it. -/
theorem State.Sound.step (h : s.Sound C) : Keeps C (step s) := by
  unfold Machine.step
  split
  · exact .next h
  · exact State.Sound.exec { h with }

/-! ## Pool 0 of an audit -/

/-- Where pool 0 is conserved, both invariants of R400 hold for it: the free items are those of the quota that no item holds, and the items issued less
those returned are the items in flight. -/
theorem State.itemsConserved.auditOk {f : Nat} (h : s.itemsConserved) (hf : f < 64) : s.auditOk 0 f = true := by
  obtain ⟨_, _, hcount⟩ := h
  obtain ⟨hissued, hheld⟩ := hcount f hf
  unfold State.auditOk State.auditIssued State.auditReturned State.auditFree
  simp only [State.auditHeld, State.auditCapacity, State.auditTaken, Option.getD_some, if_true, Bool.and_eq_true, beq_iff_eq]
  constructor
  · omega
  · omega

/-- Settles O3: each store's form by the rules of the operations (`State.Sound`), and pool 0 beside it. -/
theorem stepKeepsCanonicalForm : Obligations.StepKeepsCanonicalForm := by
  refine ⟨fun s t hs ht => ?_, fun s t hs hi ht => ?_, fun s f h hf => ?_⟩
  · exact (State.sound_iff.1 ((State.sound_iff (C := False).2 ⟨hs, nofun⟩).step t ht)).1
  · exact (State.sound_iff.1 ((State.sound_iff (C := True).2 ⟨hs, fun _ => hi⟩).step t ht)).2 trivial
  · have hok := h.auditOk hf
    exact ⟨hok, if_pos hok⟩

end Sys2Proof.Machine
end

section
/-! SUPPORT. Codewords of the array: what storing, damaging, decoding and delivering one changes, and what it leaves alone (O37, O38, O54). -/

namespace Sys2Proof.Machine

-- One declaration after another: each blocked elaboration thread holds a stack, which the check's memory limit counts.
set_option Elab.async false

/-! ## Damage -/

theorem Damage.and_nil (d : Damage) : Damage.and d [] = d := by simp [Damage.and]

theorem Damage.nil_and (d : Damage) : Damage.and [] d = d := rfl

theorem Damage.and_eq_nil {d e : Damage} (h : Damage.and d e = []) : d = [] ∧ e = [] := by
  obtain ⟨_, rfl⟩ := List.append_eq_nil_iff.1 h
  exact ⟨(Damage.and_nil d).symm.trans h, rfl⟩

/-- The part of a strike that shows again once the cells are written. -/
def lastingDamage (x : Strike) : Damage := if x.cause = .once then [] else x.symbols

section
variable {C : Prop} {s : State} {c cw : Nat} {x : Strike} {bytes : List Byte} {p : Bool}

/-! ## Storing a codeword -/

/-- A range written with what it holds is unchanged. -/
theorem Mem.writeRange_readRange {m : Mem} (h : Memory.wf m = true) (a n : Nat) : Mem.writeRange m a (Mem.readRange m a n) = m := by
  refine Tab.ext_of_get (d := 0) (Memory.wf_writeRange h) h fun y => ?_
  by_cases hy : y < a ∨ a + n ≤ y
  · exact Mem.read_writeRange_other h (by rwa [Mem.readRange_length])
  · obtain ⟨k, rfl⟩ := Nat.exists_eq_add_of_le (show a ≤ y by omega)
    refine (Mem.read_writeRange_at (k := k) (by rw [Mem.readRange_length]; omega) h).trans ?_
    simp [Mem.readRange, Mem.read]

@[simp] theorem State.arrayData_length : (s.arrayData c cw).length = 64 := Mem.readRange_length ..

theorem State.arrayData_putArray (hm : Memory.wf s.mem = true) (hb : bytes.length = 64) : (s.putArray c cw bytes p).arrayData c cw = bytes := by
  unfold State.arrayData State.putArray
  have h := Mem.readRange_writeRange (bs := bytes) hm (chanBytes * c + 64 * cw)
  rw [hb] at h
  exact h

theorem State.arrayPoison_putArray (hp : Tab.sorted s.memPoison = true) : (s.putArray c cw bytes p).arrayPoison c cw = p := by
  unfold State.arrayPoison State.putArray
  exact Tab.get_set_self hp

theorem State.mem_putArray_arrayData (hm : Memory.wf s.mem = true) : (s.putArray c cw (s.arrayData c cw) p).mem = s.mem := by
  unfold State.arrayData State.putArray
  dsimp only
  rw [Mem.writeRange_readRange hm]

theorem State.memPoison_putArray_arrayPoison (hp : Tab.sorted s.memPoison = true) (k : Nat) :
    Tab.get false (s.putArray c cw bytes (s.arrayPoison c cw)).memPoison k = Tab.get false s.memPoison k := by
  unfold State.arrayPoison State.putArray
  by_cases hk : k = chanCodewords * c + cw
  · subst hk; exact Tab.get_set_self hp
  · exact Tab.get_set_other hp hk

/-- Cells just written show only the damage of causes that persist. -/
theorem State.cellDamage_putArray (hd : Tab.sorted s.memDamage = true) : (s.putArray c cw bytes p).cellDamage c cw =
    Damage.and (Tab.get [] s.chans.stuckCells (chanCodewords * c + cw)) (Tab.get [] s.chans.failedPins c) := by
  unfold State.cellDamage State.putArray
  dsimp only
  rw [Tab.get_set_self hd, Damage.nil_and]

/-! ## What a strike leaves in the cells -/

@[simp] theorem State.damageCells_regs : (s.damageCells c cw x).regs = s.regs := by unfold State.damageCells; dsimp only; split <;> rfl

@[simp] theorem State.damageCells_mem : (s.damageCells c cw x).mem = s.mem := by unfold State.damageCells; dsimp only; split <;> rfl

@[simp] theorem State.damageCells_memPoison : (s.damageCells c cw x).memPoison = s.memPoison := by unfold State.damageCells; dsimp only; split <;> rfl

/-- Of the channels a strike changes only the damage that persists. -/
theorem State.damageCells_chans : (s.damageCells c cw x).chans =
    { s.chans with stuckCells := (s.damageCells c cw x).chans.stuckCells, failedPins := (s.damageCells c cw x).chans.failedPins } := by
  unfold State.damageCells
  dsimp only
  split <;> rfl

/-- A codeword with no damage has none of any cause. -/
theorem State.cellDamage_nil (h : s.cellDamage c cw = []) : Tab.get [] s.memDamage (chanCodewords * c + cw) = [] ∧
    Tab.get [] s.chans.stuckCells (chanCodewords * c + cw) = [] ∧ Tab.get [] s.chans.failedPins c = [] := by
  obtain ⟨hcells, hpins⟩ := Damage.and_eq_nil h
  obtain ⟨hmem, hstuck⟩ := Damage.and_eq_nil hcells
  exact ⟨hmem, hstuck, hpins⟩

/-- A place with no damage that is damaged holds that damage. -/
theorem Damage.get_modify {t : Tab Damage} {k : Nat} (ht : Tab.sorted t = true) (hk : Tab.get [] t k = []) (d : Damage) :
    Tab.get [] (Tab.modify [] t k fun old => Damage.and old d) k = d := by
  unfold Tab.modify
  rw [Tab.get_set_self ht, hk]
  rfl

/-- An undamaged codeword that is struck shows the strike's symbols, and those that last when it is written again. -/
theorem State.cellDamage_damageCells (hs : s.Sound C) (h : s.cellDamage c cw = []) : (s.damageCells c cw x).cellDamage c cw = x.symbols ∧
    Damage.and (Tab.get [] (s.damageCells c cw x).chans.stuckCells (chanCodewords * c + cw)) (Tab.get [] (s.damageCells c cw x).chans.failedPins c) = lastingDamage x := by
  obtain ⟨hmem, hstuck, hpins⟩ := State.cellDamage_nil h
  unfold State.damageCells State.cellDamage lastingDamage
  cases hx : x.cause with
  | once => simp [Damage.get_modify hs.memDamage hmem, hstuck, hpins, Damage.and_nil]
  | cell => simp [Damage.get_modify hs.stuckCells hstuck, hmem, hpins, Damage.and_nil, Damage.nil_and]
  | pin => simp [Damage.get_modify hs.failedPins hpins, hmem, hstuck, Damage.nil_and]

/-! ## Decoding a codeword (R249) -/

theorem State.decodeCw_clean (h : (s.cellDamage c cw).length = 0) : s.decodeCw c cw = s := by unfold State.decodeCw; rw [h]

theorem State.decodeCw_one (h : (s.cellDamage c cw).length = 1) :
    s.decodeCw c cw = (s.countCe c).putArray c cw (s.arrayData c cw) (s.arrayPoison c cw) := by unfold State.decodeCw; rw [h]

theorem State.decodeCw_two (h : (s.cellDamage c cw).length = 2) : s.decodeCw c cw = s.countUe c cw := by unfold State.decodeCw; rw [h]

@[simp] theorem State.countCe_chans : (s.countCe c).chans = s.chans := by simp [State.countCe]

@[simp] theorem State.putArray_chans : (s.putArray c cw bytes p).chans = s.chans := rfl

@[simp] theorem State.countUe_chans : (s.countUe c cw).chans = s.chans := by
  unfold State.countUe
  rw [State.putArray_chans, State.bump_chans, State.bump_chans]

/-- Decoding leaves everything of the channels but the cells. -/
@[simp] theorem State.decodeCw_chans : (s.decodeCw c cw).chans = s.chans := by
  unfold State.decodeCw
  split
  · rfl
  · rw [State.putArray_chans, State.countCe_chans]
  · exact State.countUe_chans
  · dsimp only
    split
    · rw [State.countUe_chans]
    · rw [State.putArray_chans, State.countCe_chans]

theorem State.countCe_writesOnly : s.writesOnly (· = .memChstat) (s.countCe c) := .trans (.bump _ _ _ (by decide)) (.bump _ _ _ (by decide))

theorem State.countUe_writesOnly : s.writesOnly (· = .memChstat) (s.countUe c cw) :=
  .trans (.trans (.bump Fld.memChstatUe c 1 (by decide)) (.bump Fld.memChstatUeWin c 1 (by decide))) (.of_regs (State.putArray_regs ..))

theorem State.decodeCw_writesOnly : s.writesOnly (· = .memChstat) (s.decodeCw c cw) := by
  unfold State.decodeCw
  split
  · exact .refl
  · exact .trans State.countCe_writesOnly (.of_regs (State.putArray_regs ..))
  · exact State.countUe_writesOnly
  · dsimp only
    refine .trans (.of_regs (u := { s with draws := s.draws + 1 }) rfl) ?_
    split
    · exact State.countUe_writesOnly
    · exact .trans State.countCe_writesOnly (.of_regs (State.putArray_regs ..))

/-! ## What decoding leaves in the codeword, and what it counts -/

theorem State.counted_congr {u : State} {f : Field} {i : Nat} (h : u.fld f i = s.fld f i) (n : Nat) : u.counted f i n = s.counted f i n := by
  unfold State.counted
  rw [h]

/-- A count in one field of a channel's status leaves the others. -/
theorem State.fld_bump_status {f g : Field} {n : Nat} (hf : f.reg = .memChstat ∧ f.lo < 1024 ∧ f.reset = 0 ∧ 0 < f.width) (hg : g.lo < 1024 ∧ g.lo ≠ f.lo) :
    (s.bump f c n).fld g c = s.fld g c := by
  obtain ⟨hreg, hlo, hzero, hwidth⟩ := hf
  exact State.fld_bump_ne (Field.key_ne hlo hg.1 (.inr (.inr hg.2.symm))) (by simp [Field.resetAt, hreg, hzero]) hwidth

/-- A correctable codeword keeps its data and its mark. -/
theorem State.decodeCw_one_data (hs : s.Sound C) (h : (s.cellDamage c cw).length = 1) : (s.decodeCw c cw).mem = s.mem ∧
    ∀ k, Tab.get false (s.decodeCw c cw).memPoison k = Tab.get false s.memPoison k := by
  have hmem : (s.countCe c).mem = s.mem := by simp [State.countCe]
  have hpoison : (s.countCe c).memPoison = s.memPoison := by simp [State.countCe]
  have hdata : s.arrayData c cw = (s.countCe c).arrayData c cw := by unfold State.arrayData; rw [hmem]
  have hmark : s.arrayPoison c cw = (s.countCe c).arrayPoison c cw := by unfold State.arrayPoison; rw [hpoison]
  rw [State.decodeCw_one h, hdata, hmark]
  exact ⟨(State.mem_putArray_arrayData hs.countCe.mem).trans hmem, fun k => by rw [State.memPoison_putArray_arrayPoison hs.countCe.memPoison, hpoison]⟩

/-- An uncorrectable codeword becomes zeros with its mark. -/
theorem State.decodeCw_two_data (hs : s.Sound C) (h : (s.cellDamage c cw).length = 2) : (s.decodeCw c cw).arrayData c cw = zeros64 ∧
    (s.decodeCw c cw).arrayPoison c cw = true := by
  rw [State.decodeCw_two h]
  exact ⟨State.arrayData_putArray hs.bump.bump.mem rfl, State.arrayPoison_putArray hs.bump.bump.memPoison⟩

/-- The write-back leaves of the damage what lasts. -/
theorem State.decodeCw_cellDamage (hs : s.Sound C) (h : (s.cellDamage c cw).length ≠ 0) : (s.decodeCw c cw).cellDamage c cw =
    Damage.and (Tab.get [] s.chans.stuckCells (chanCodewords * c + cw)) (Tab.get [] s.chans.failedPins c) := by
  have hce {v : State} (hv : v.Sound C) {bytes : List Byte} {p : Bool} : ((v.countCe c).putArray c cw bytes p).cellDamage c cw =
      Damage.and (Tab.get [] v.chans.stuckCells (chanCodewords * c + cw)) (Tab.get [] v.chans.failedPins c) := by
    rw [State.cellDamage_putArray hv.countCe.memDamage, State.countCe_chans]
  have hue {v : State} (hv : v.Sound C) : (v.countUe c cw).cellDamage c cw =
      Damage.and (Tab.get [] v.chans.stuckCells (chanCodewords * c + cw)) (Tab.get [] v.chans.failedPins c) := by
    unfold State.countUe
    rw [State.cellDamage_putArray hv.bump.bump.memDamage, State.bump_chans, State.bump_chans]
  unfold State.decodeCw
  split
  case _ h0 => exact absurd h0 h
  · exact hce hs
  · exact hue hs
  · dsimp only
    split
    · exact hue (v := { s with draws := s.draws + 1 }) { hs with }
    · exact hce (v := { s with draws := s.draws + 1 }) { hs with }

theorem State.countCe_fld (hs : s.Sound C) : (s.countCe c).fld Fld.memChstatCe c = s.counted Fld.memChstatCe c 1 ∧
    (s.countCe c).fld Fld.memChstatCeWin c = s.counted Fld.memChstatCeWin c 1 ∧ (s.countCe c).fld Fld.memChstatUe c = s.fld Fld.memChstatUe c ∧
    (s.countCe c).fld Fld.memChstatUeWin c = s.fld Fld.memChstatUeWin c := by
  unfold State.countCe
  refine ⟨?_, ?_, ?_, ?_⟩
  · rw [State.fld_bump_status (by decide) (by decide), State.fld_bump_self hs.regs]
  · rw [State.fld_bump_self hs.bump.regs, State.counted_congr (State.fld_bump_status (by decide) (by decide))]
  · rw [State.fld_bump_status (by decide) (by decide), State.fld_bump_status (by decide) (by decide)]
  · rw [State.fld_bump_status (by decide) (by decide), State.fld_bump_status (by decide) (by decide)]

theorem State.countUe_fld (hs : s.Sound C) : (s.countUe c cw).fld Fld.memChstatUe c = s.counted Fld.memChstatUe c 1 ∧
    (s.countUe c cw).fld Fld.memChstatUeWin c = s.counted Fld.memChstatUeWin c 1 := by
  have hregs (f : Field) : (s.countUe c cw).fld f c = ((s.bump Fld.memChstatUe c 1).bump Fld.memChstatUeWin c 1).fld f c :=
    State.fld_congr (State.putArray_regs ..) f c
  rw [hregs, hregs]
  refine ⟨?_, ?_⟩
  · rw [State.fld_bump_status (by decide) (by decide), State.fld_bump_self hs.regs]
  · rw [State.fld_bump_self hs.bump.regs, State.counted_congr (State.fld_bump_status (by decide) (by decide))]

/-- What a corrected symbol counts (R249). -/
theorem State.decodeCw_one_fld (hs : s.Sound C) (h : (s.cellDamage c cw).length = 1) : (s.decodeCw c cw).fld Fld.memChstatCe c = s.counted Fld.memChstatCe c 1 ∧
    (s.decodeCw c cw).fld Fld.memChstatCeWin c = s.counted Fld.memChstatCeWin c 1 ∧ (s.decodeCw c cw).fld Fld.memChstatUe c = s.fld Fld.memChstatUe c := by
  have hregs (f : Field) : (s.decodeCw c cw).fld f c = (s.countCe c).fld f c := State.fld_congr (by rw [State.decodeCw_one h, State.putArray_regs]) f c
  rw [hregs, hregs, hregs]
  obtain ⟨hce, hwin, hue, _⟩ := State.countCe_fld (c := c) hs
  exact ⟨hce, hwin, hue⟩

/-- What an uncorrectable codeword counts (R249). -/
theorem State.decodeCw_two_fld (hs : s.Sound C) (h : (s.cellDamage c cw).length = 2) : (s.decodeCw c cw).fld Fld.memChstatUe c = s.counted Fld.memChstatUe c 1 ∧
    (s.decodeCw c cw).fld Fld.memChstatUeWin c = s.counted Fld.memChstatUeWin c 1 := by
  rw [State.decodeCw_two h]
  exact State.countUe_fld hs

/-- One codeword adds at most one to the channel's uncorrectable errors. -/
theorem State.decodeCw_ueWin_le (hs : s.Sound C) : (s.decodeCw c cw).fld Fld.memChstatUeWin c ≤ s.fld Fld.memChstatUeWin c + 1 := by
  have hue {v : State} (hv : v.Sound C) : (v.countUe c cw).fld Fld.memChstatUeWin c ≤ v.fld Fld.memChstatUeWin c + 1 := by
    rw [(State.countUe_fld hv).2]
    exact Nat.min_le_left _ _
  have hce {v : State} (hv : v.Sound C) {bytes : List Byte} {p : Bool} : ((v.countCe c).putArray c cw bytes p).fld Fld.memChstatUeWin c ≤
      v.fld Fld.memChstatUeWin c + 1 := by
    obtain ⟨_, _, _, hwin⟩ := State.countCe_fld (c := c) hv
    rw [State.fld_congr (State.putArray_regs ..), hwin]
    exact Nat.le_succ _
  unfold State.decodeCw
  split
  · exact Nat.le_succ _
  · exact hce hs
  · exact hue hs
  · dsimp only
    split
    · exact hue (v := { s with draws := s.draws + 1 }) { hs with }
    · exact hce (v := { s with draws := s.draws + 1 }) { hs with }

end

/-! ## Delivering a codeword, and the failure of its channel -/

/-- Between two states no cell changes, no request joins a queue, and of a channel's status only `STATE` may change. -/
structure State.KeepsCells (s u : State) : Prop where
  mem : u.mem = s.mem
  memPoison : u.memPoison = s.memPoison
  memDamage : u.memDamage = s.memDamage
  stuckCells : u.chans.stuckCells = s.chans.stuckCells
  failedPins : u.chans.failedPins = s.chans.failedPins
  queues : u.chans.queues = s.chans.queues
  late : u.chans.late.length ≤ s.chans.late.length
  sorted : Tab.sorted s.regs = true → Tab.sorted u.regs = true
  status : Tab.sorted s.regs = true → ∀ (f : Field) (i : Nat), f.reg = .memChstat ∧ f.lo < 1024 ∧ f.lo ≠ Fld.memChstatState.lo → u.fld f i = s.fld f i

namespace State.KeepsCells

variable {s t u : State} {c cw : Nat}

theorem refl : s.KeepsCells s := ⟨rfl, rfl, rfl, rfl, rfl, rfl, Nat.le_refl _, id, fun _ _ _ _ => rfl⟩

theorem trans (h : s.KeepsCells t) (h' : t.KeepsCells u) : s.KeepsCells u where
  mem := h'.mem.trans h.mem
  memPoison := h'.memPoison.trans h.memPoison
  memDamage := h'.memDamage.trans h.memDamage
  stuckCells := h'.stuckCells.trans h.stuckCells
  failedPins := h'.failedPins.trans h.failedPins
  queues := h'.queues.trans h.queues
  late := h'.late.trans h.late
  sorted := fun hs => h'.sorted (h.sorted hs)
  status := fun hs f i hf => (h'.status (h.sorted hs) f i hf).trans (h.status hs f i hf)

theorem ite {p : Prop} [Decidable p] (h : s.KeepsCells t) (h' : s.KeepsCells u) : s.KeepsCells (if p then t else u) := by
  split
  · exact h
  · exact h'

theorem setFld {f : Field} {i v : Nat} (hf : f.lo < 1024 ∧ (f.reg ≠ .memChstat ∨ f.lo = Fld.memChstatState.lo) := by decide) : s.KeepsCells (s.setFld f i v) :=
  { refl with
    sorted := fun hs => State.sorted_setFld hs f i v
    status := fun hs _ _ hg => State.fld_setFld_ne hs (.inr (hf.2.imp (fun h he => h (he.trans hg.1)) fun h he => hg.2.2 (he.symm.trans h))) v ⟨hf.1, hg.2.1⟩ }

theorem setFlag {f : Field} {i : Nat} {b : Bool} (hf : f.lo < 1024 ∧ (f.reg ≠ .memChstat ∨ f.lo = Fld.memChstatState.lo) := by decide) :
    s.KeepsCells (s.setFlag f i b) := setFld hf

theorem bump {f : Field} {i n : Nat} (hf : f.lo < 1024 ∧ (f.reg ≠ .memChstat ∨ f.lo = Fld.memChstatState.lo) := by decide) : s.KeepsCells (s.bump f i n) :=
  .ite refl (setFld hf)

theorem journal {ty : Nat} {args : List Nat} : s.KeepsCells (s.journal ty args) := { refl (s := s) with }

theorem setFill {l : Nat} {f : Option (Nat × Nat)} : s.KeepsCells (s.setFill l f) := { refl (s := s) with }

theorem departs : s.KeepsCells (s.departs c) := { refl (s := s) with }

theorem endMigration {k : Nat} : s.KeepsCells (s.endMigration k) := { refl (s := s) with }

theorem passEnd : s.KeepsCells s.passEnd :=
  .ite (.trans (t := { s with chans := { s.chans with scrubDone := [] } }) { refl (s := s) with } (bump (f := Fld.memScrubPasses))) refl

theorem dropLate {l : Nat} : s.KeepsCells (s.dropLate l) :=
  .trans (t := { s with chans := { s.chans with late := s.chans.late.filter fun w => w.lchan != l } })
    { refl (s := s) with late := List.length_filter_le .. } (bump (f := Fld.memErrDropped))

theorem fillDone {l sp : Nat} : s.KeepsCells (s.fillDone l sp) := .trans (.trans setFill setFld) journal

theorem failBound : s.KeepsCells (s.failBound c) := by
  unfold State.failBound
  split
  · exact journal
  · split
    · exact .trans (.trans (.trans setFld setFld) setFill) journal
    · exact .trans (.trans (.trans (.trans setFlag setFlag) setFill) dropLate) journal

theorem failHard : s.KeepsCells (s.failHard c) := by
  unfold State.failHard
  have hleft : s.KeepsCells ((if (s.slotOf c).isSome then s.departs c else s).setFld Fld.memChstatState c 4) := .trans (.ite departs refl) setFld
  refine .trans (.trans hleft ?_) passEnd
  generalize (if (s.slotOf c).isSome then s.departs c else s).setFld Fld.memChstatState c 4 = v
  split
  · split
    · exact .trans endMigration journal
    · split
      · dsimp only
        split
        · exact .trans (.trans (.trans endMigration setFld) setFill) journal
        · exact .trans (.trans (.trans endMigration setFld) journal) fillDone
      · exact failBound
  · exact failBound

theorem checkUeWin : s.KeepsCells (s.checkUeWin c) := .ite failHard refl

theorem arrayData (h : s.KeepsCells u) : u.arrayData c cw = s.arrayData c cw := by unfold State.arrayData; rw [h.mem]

theorem arrayPoison (h : s.KeepsCells u) : u.arrayPoison c cw = s.arrayPoison c cw := by unfold State.arrayPoison; rw [h.memPoison]

theorem cellDamage (h : s.KeepsCells u) : u.cellDamage c cw = s.cellDamage c cw := by
  unfold State.cellDamage
  rw [h.memDamage, h.stuckCells, h.failedPins]

theorem waiting (h : s.KeepsCells u) : u.waitingRequests ≤ s.waitingRequests := by
  unfold State.waitingRequests
  rw [h.queues]
  exact Nat.add_le_add_right h.late _

end State.KeepsCells

section
variable {s : State} {a c : Nat} {m : Bool}

/-- A channel with fewer than 16 uncorrectable errors in its window stays in service. -/
theorem State.checkUeWin_below (h : s.fld Fld.memChstatUeWin c < 16) : s.checkUeWin c = s := if_neg (by simp [Nat.not_le.2 h])

/-- A codeword delivered: a marked one counts, and its granule is queued for repair (R249, R397). -/
def State.delivers (s : State) (a : Nat) (m : Bool) : State := if m then s.poisonDelivered a else s

theorem State.queueRepair_chans : (s.queueRepair a).chans = s.chans := by
  unfold State.queueRepair
  dsimp only
  split
  · rfl
  · split
    · rfl
    · exact State.bump_chans ..

theorem State.queueRepair_writesOnly : s.writesOnly (· = .repairStat) (s.queueRepair a) := by
  unfold State.queueRepair
  dsimp only
  split
  · exact .refl
  · split
    · exact .of_regs rfl
    · exact .bump _ _ _ (by decide)

@[simp] theorem State.poisonDelivered_chans : (s.poisonDelivered a).chans = s.chans := State.queueRepair_chans.trans (State.bump_chans ..)

@[simp] theorem State.delivers_chans : (s.delivers a m).chans = s.chans := by
  cases m
  · rfl
  · exact State.poisonDelivered_chans

theorem State.delivers_writesOnly : s.writesOnly (fun r => r = .memErr ∨ r = .repairStat) (s.delivers a m) := by
  cases m
  · exact .refl
  · exact .trans (.bump _ _ _ (by decide)) (State.queueRepair_writesOnly.mono fun _ => .inr)

theorem State.KeepsCells.queueRepair : s.KeepsCells (s.queueRepair a) := .ite .refl (.ite { KeepsCells.refl (s := s) with } .bump)

theorem State.KeepsCells.poisonDelivered : s.KeepsCells (s.poisonDelivered a) := .trans .bump .queueRepair

theorem State.KeepsCells.delivers : s.KeepsCells (s.delivers a m) := .ite .poisonDelivered .refl

end

/-! ## Where an address lies -/

section
variable {s u : State} {a o l off c : Nat}

/-- The bytes of a codeword lie in one channel. -/
theorem State.mapAddr_offset (h64 : a % 64 = 0) (ho : o < 64) (h : s.mapAddr a = (l, off)) : s.mapAddr (a + o) = (l, off + o) := by
  have hdiv : (a + o) / 256 = a / 256 := by omega
  have hmod : (a + o) % 256 = a % 256 + o := by omega
  unfold State.mapAddr at h ⊢
  obtain ⟨rfl, rfl⟩ := Prod.mk.inj h
  rw [hdiv, hmod, Nat.add_assoc]

/-- What the address interleave reads of a state: the fields of `MEM_TOP` and `MEM_CHMAP`, and the fills. -/
structure State.SameMap (s u : State) : Prop where
  top : ∀ (f : Field) (i : Nat), f.reg = .memTop ∧ f.lo < 1024 → u.fld f i = s.fld f i
  chmap : ∀ (f : Field) (i : Nat), f.reg = .memChmap ∧ f.lo < 1024 → u.fld f i = s.fld f i
  fills : u.chans.fills = s.chans.fills

namespace State.SameMap

theorem of_writesOnly {w : Reg → Prop} (h : s.writesOnly w u) (hs : Tab.sorted s.regs = true) (hw : ¬ w .memTop ∧ ¬ w .memChmap)
    (hf : u.chans.fills = s.chans.fills) : s.SameMap u :=
  ⟨fun _ i hr => h.fld hs ⟨hr.1 ▸ hw.1, hr.2⟩ i, fun _ i hr => h.fld hs ⟨hr.1 ▸ hw.2, hr.2⟩ i, hf⟩

theorem of_regs (h : u.regs = s.regs) (hf : u.chans.fills = s.chans.fills) : s.SameMap u :=
  ⟨fun f i _ => State.fld_congr h f i, fun f i _ => State.fld_congr h f i, hf⟩

theorem memTop (h : s.SameMap u) : u.memTop = s.memTop := h.top _ _ (by decide)

theorem channels (h : s.SameMap u) : u.fld Fld.memTopChannels 0 = s.fld Fld.memTopChannels 0 := h.top _ _ (by decide)

theorem lambda (h : s.SameMap u) : u.lambda = s.lambda := by
  unfold State.lambda State.flag
  simp only [h.chmap Fld.memChmapBacked _ (by decide)]

theorem mapAddr (h : s.SameMap u) : u.mapAddr a = s.mapAddr a := by
  unfold State.mapAddr State.lambdaAt
  rw [h.channels, h.lambda]

theorem unmapAddr (h : s.SameMap u) : u.unmapAddr l off = s.unmapAddr l off := by
  unfold State.unmapAddr
  rw [h.channels, h.lambda]

theorem slotOf (h : s.SameMap u) : u.slotOf c = s.slotOf c := by
  unfold State.slotOf
  simp only [h.chmap Fld.memChmapChannel _ (by decide)]

theorem slotView (h : s.SameMap u) : u.slotView l off = s.slotView l off := by
  unfold State.slotView State.boundChan State.flag State.fillOf
  rw [h.chmap Fld.memChmapChannel _ (by decide), h.chmap Fld.memChmapFenced _ (by decide), h.fills]

end State.SameMap

/-! ## Accesses to a codeword that an array holds -/

/-- A read of a codeword of the array decodes it, delivers it, and then tests its channel (R249, R262). -/
theorem State.readCw_array (ha : a < s.memTop) (hmap : s.mapAddr a = (l, off)) (hv : s.slotView l (off / 64) = .array c) :
    s.readCw a = ((s.decodeCw c (off / 64)).arrayData c (off / 64), (s.decodeCw c (off / 64)).arrayPoison c (off / 64),
      ((s.decodeCw c (off / 64)).delivers a ((s.decodeCw c (off / 64)).arrayPoison c (off / 64))).checkUeWin c) := by
  unfold State.readCw
  rw [if_neg (Nat.not_le.2 ha), hmap]
  dsimp only
  rw [hv]
  rfl

/-- A write to a codeword of the array is made on its channel, when no migration mirrors it. -/
theorem State.writeCw_array {bytes : List Byte} {mark : Bool} (ha : a < s.memTop) (hmap : s.mapAddr a = (l, off)) (hv : s.slotView l (off / 64) = .array c)
    (hheld : s.stackHeld (l % 8) = false) (hmir : s.mirrorOf l = none) : s.writeCw a o bytes mark = s.writeOn c (off / 64) o bytes mark := by
  unfold State.writeCw
  rw [if_neg (Nat.not_le.2 ha), hmap]
  dsimp only
  rw [hv]
  dsimp only
  rw [hheld, if_neg Bool.false_ne_true]
  unfold State.writeBoth
  rw [hmir]

theorem State.strike_array {x : Strike} (ha : a < s.memTop) (hmap : s.mapAddr a = (l, off)) (hv : s.slotView l (off / 64) = .array c) :
    s.strike a x false = s.damageCells c (off / 64) x := by
  unfold State.strike
  rw [if_neg (Nat.not_le.2 ha), hmap]
  dsimp only
  rw [hv]
  rfl

/-- A strike where no array answers damages nothing. -/
theorem State.strike_fenced {x : Strike} {f : Bool} (hmap : s.mapAddr a = (l, off)) (hv : s.slotView l (off / 64) = .fenced) : s.strike a x f = s := by
  unfold State.strike
  rw [hmap]
  dsimp only
  rw [hv]
  exact ite_self s

theorem State.writeOn_whole {cw : Nat} {bytes : List Byte} (hb : bytes.length = 64) : s.writeOn c cw o bytes false = (s.putArray c cw bytes false).checkUeWin c := by
  unfold State.writeOn mergeCw
  simp [hb]

/-- A part write to an undamaged codeword is laid over it and keeps its mark. -/
theorem State.writeOn_part {cw : Nat} {bytes : List Byte} (hb : bytes.length ≠ 64) (hd : (s.cellDamage c cw).length = 0) :
    s.writeOn c cw o bytes false = (s.putArray c cw (overlay (s.arrayData c cw) o bytes) (s.arrayPoison c cw)).checkUeWin c := by
  unfold State.writeOn mergeCw
  simp [hb, State.decodeCw_clean hd]

end

end Sys2Proof.Machine
end

section
/-! SUPPORT. Repairs of device memory from copies (O54). -/

namespace Sys2Proof.Machine

-- One declaration after another: each blocked elaboration thread holds a stack, which the check's memory limit counts.
set_option Elab.async false

/-! ## Requests and answers -/

theorem State.inject_chans (s : State) (p : Packet) (port : Option Nat) : (s.inject p port).1.chans = s.chans := by
  unfold State.inject
  split
  · rfl
  · dsimp only
    split
    · exact State.setLink_chans ..
    · rfl

/-- An answer is eight packets; none of them is a request of device memory. -/
theorem State.answer_chans (s : State) (q : Packet) (bytes : List Byte) (ok : Bool) : (s.answer q bytes ok).chans = s.chans :=
  State.foldl_same (g := State.chans) (fun s _ => State.inject_chans s _ none) _ s

/-- The next repair begins with its next covering entry: from a host copy, or by a request to a peer (R397). -/
theorem repairStart_waiting {s : State} {r : Repair} (h : s.repairs.find? (fun x => x.waiting.isNone) = some r) :
    (s.repairEntry r.granule r.untried = none → exec .repairStart s = .next (s.endRepair r.granule Fld.repairStatFailed)) ∧
    (∀ i, s.repairEntry r.granule r.untried = some i → s.fld Fld.repairSrcKind i = 0 →
      exec .repairStart s = .next (if s.hostPermits 0 (s.copyAddr i r.granule) 4096 false then s.attempt r.granule i
        else (s.bump Fld.hostErrOutside 0 1).attemptOver r.granule i)) ∧
    (∀ i port l, s.repairEntry r.granule r.untried = some i → s.fld Fld.repairSrcKind i ≠ 0 → port = bitsOf (s.fld Fld.repairSrcSrc i) 51 5 →
      s.portUnreachable port = false → s.portLink port (s.repairPacket i r.granule) = some l →
      exec .repairStart s = .next (if s.mgmtFull l then s else ((s.attempt r.granule i).inject (s.repairPacket i r.granule) (some port)).1)) := by
  refine ⟨fun he => ?_, fun i he hk => ?_, ?_⟩
  · show execRepairStart s = _
    simp only [execRepairStart, h, he]
  · show execRepairStart s = _
    simp only [execRepairStart, h, he, hk, if_true]
  · rintro i _ l he hk rfl hreach hl
    show execRepairStart s = _
    simp only [execRepairStart, h, he, hk, hreach, hl, if_false, Option.any_some, Bool.false_eq_true]
    split <;> rfl

theorem repairPeerRequest_found {s u : State} {e : Nat × Packet} (hp : s.inP0 = true)
    (he : s.inbound.find? (fun (x : Nat × Packet) => x.2.kind == .repairReq) = some e) (hu : u = { s with inbound := s.inbound.erase e }) :
    exec .repairPeerRequest s = .next (s.accepted (if !u.serves (e.2.aux.getD 0 0) 4096 then u.answer e.2 [] false
      else (u.takeFor baseContext (e.2.aux.getD 0 0) 4096).2.2.answer e.2 (u.takeFor baseContext (e.2.aux.getD 0 0) 4096).1
        (!(u.takeFor baseContext (e.2.aux.getD 0 0) 4096).2.1))) := by
  subst hu
  show execRepairPeerRequest s = _
  simp only [execRepairPeerRequest, he, onAwake, hp, if_true, State.accepting_next]

theorem repairResponse_answer {s : State} {e : Nat × Packet} (he : s.inbound.find? (fun (x : Nat × Packet) => x.2.kind == .repairResp) = some e) :
    exec .repairResponse s = .next (s.accepted (({ s with inbound := s.inbound.erase e }).takeAnswer e.2)) := by
  show execRepairResponse s = _
  simp only [execRepairResponse, he, State.accepting_next]

theorem repairResponse_host {s : State} {r : Repair} {i : Nat} (he : s.inbound.find? (fun (x : Nat × Packet) => x.2.kind == .repairResp) = none)
    (hr : s.hostRepair = some (r, i)) : exec .repairResponse s = .next (s.accepted (s.repairHost r i)) := by
  show execRepairResponse s = _
  simp only [execRepairResponse, he, hr, State.accepting_next]

theorem repairAttemptTimeout_due {s : State} {r : Repair} {i : Nat} (hw : r.waiting = some i)
    (hr : s.repairs.find? (fun x => x.waiting.isSome && decide (x.got.length < 8) && decide (x.since + 5000000 ≤ s.tally)) = some r) :
    exec .repairAttemptTimeout s = .next (s.attemptOver r.granule i) := by
  show execRepairAttemptTimeout s = _
  simp only [execRepairAttemptTimeout, hr, hw, Option.getD_some]

/-- The first answer to a repair is taken; one with no usable data tries the next entry (R397). -/
theorem State.takeAnswer_of {s : State} {p : Packet} {r : Repair} (h : s.answerOf p = some r) : s.takeAnswer p =
    if p.aux.getD 3 0 = 0 ∨ p.poison = true then s.attemptOver r.granule (p.aux.getD 1 0) else s.repairPart r.granule (p.aux.getD 2 0) p.payload := by
  unfold State.takeAnswer
  rw [h]
  simp only [Bool.or_eq_true, decide_eq_true_eq]

/-! ## One codeword of a granule -/

section
variable {s : State} {a l k c : Nat} {bytes : List Byte}

/-- A codeword of the array is repaired when it decodes with its mark (R398). -/
theorem State.repairCw_array (ha : a < s.memTop) (hmap : s.mapAddr a = (l, 64 * k)) (hv : s.slotView l k = .array c) :
    s.repairCw a bytes = if (s.decodeCw c k).arrayPoison c k then s.storeCw a 64 (a, 0, 64) bytes false else s := by
  unfold State.repairCw
  rw [if_neg (Nat.not_le.2 ha), hmap]
  dsimp only
  rw [Nat.mul_div_cancel_left k (by decide), hv]

theorem State.repairCw_fenced (hmap : s.mapAddr a = (l, 64 * k)) (hv : s.slotView l k = .fenced) : s.repairCw a bytes = s := by
  unfold State.repairCw
  rw [hmap]
  dsimp only
  rw [Nat.mul_div_cancel_left k (by decide), hv]
  exact ite_self s

/-- A controller whose engine is free is not held. -/
theorem State.stackHeld_of_free (ha : a < s.memTop) (hmap : s.mapAddr a = (l, 64 * k)) (hb : s.engineBusyAt a = false) : s.stackHeld (l % 8) = false := by
  unfold State.engineBusyAt at hb
  rw [hmap, decide_eq_true ha, Bool.true_and, Bool.or_eq_false_iff] at hb
  exact hb.1

/-- A marked codeword whose engine is free is written. -/
theorem State.repairCw_free (ha : a < s.memTop) (hmap : s.mapAddr a = (l, 64 * k)) (hv : s.slotView l k = .array c)
    (hp : (s.decodeCw c k).arrayPoison c k = true) (hlen : bytes.length = 64) (hb : s.engineBusyAt a = false) (hm : s.mirrorOf l = none) :
    s.repairCw a bytes = (s.putArray c k bytes false).checkUeWin c := by
  have hk : 64 * k / 64 = k := Nat.mul_div_cancel_left k (by decide)
  rw [State.repairCw_array ha hmap hv, if_pos hp]
  unfold State.storeCw
  rw [hb, if_neg Bool.false_ne_true, State.writeCw_array ha hmap (hk.symm ▸ hv) (State.stackHeld_of_free ha hmap hb) hm, hk, State.writeOn_whole hlen]

/-- One whose engine is not waits in its queue. -/
theorem State.repairCw_busy (ha : a < s.memTop) (hmap : s.mapAddr a = (l, 64 * k)) (hv : s.slotView l k = .array c)
    (hp : (s.decodeCw c k).arrayPoison c k = true) (hb : s.engineBusyAt a = true) : s.repairCw a bytes = s.joinQueue ⟨a, 64, some bytes, narrowAccess a 64⟩ := by
  rw [State.repairCw_array ha hmap hv, if_pos hp]
  unfold State.storeCw
  rw [hb, if_pos rfl, Nat.add_zero]

end

/-! ## A repair leaves the queue -/

section
variable {s : State} {g : Nat} {r : Repair}

theorem State.repairDone_pending (hr : s.repairs.find? (fun r => r.granule == g) = some r) (h : r.got.length ≠ 8 ∨ r.late ≠ []) : s.repairDone g = s := by
  unfold State.repairDone
  rw [hr]
  exact if_neg (by simpa [imp_iff_not_or] using h)

theorem State.repairDone_complete (hr : s.repairs.find? (fun r => r.granule == g) = some r) (hgot : r.got.length = 8) (hlate : r.late = []) :
    s.repairDone g = s.endRepair g (if s.granuleFenced g then Fld.repairStatFailed else Fld.repairStatDone) := by
  unfold State.repairDone
  rw [hr]
  exact if_pos (by simp [hgot, hlate])

/-- A repair that leaves the queue is counted in one field of `REPAIR_STAT`. -/
theorem State.endRepair_counts (hs : Tab.sorted s.regs = true) {f : Field} (hf : f.reg = .repairStat ∧ f.lo < 1024 ∧ f.reset = 0 ∧ 0 < f.width) :
    (s.endRepair g f).repairs = s.repairs.filter (fun r => r.granule != g) ∧ (s.endRepair g f).mem = s.mem ∧ (s.endRepair g f).fld f 0 = s.counted f 0 1 ∧
    (∀ f' : Field, f'.lo < 1024 → f'.lo ≠ f.lo → (s.endRepair g f).fld f' 0 = s.fld f' 0) ∧ s.regsBut (s.endRepair g f) [.repairStat] := by
  obtain ⟨hreg, hlo, hzero, hwidth⟩ := hf
  have hregs : (s.endRepair g f).regs = (s.bump f 0 1).regs := rfl
  have hreset : f.resetAt 0 = 0 := by simp [Field.resetAt, hreg, hzero]
  refine ⟨State.bump_repairs .., State.bump_mem .., (State.fld_congr hregs f 0).trans (State.fld_bump_self hs f 0 1), fun f' hlo' hne => ?_, ?_⟩
  · exact (State.fld_congr hregs f' 0).trans (State.fld_bump_ne (Field.key_ne hlo hlo' (.inr (.inr hne.symm))) hreset hwidth)
  · have hw : s.writesOnly (· ∈ [Reg.repairStat]) (s.endRepair g f) := .trans (.bump f 0 1 ⟨by simp [hreg], hlo⟩) (.of_regs hregs)
    exact hw.regsBut hs

end

/-- Settles O54: each command by its cases, a codeword by the view of its slot, and the end of a repair by the count it takes. -/
theorem repairsRewritePoisonedCodewords : Obligations.RepairsRewritePoisonedCodewords := by
  unfold Obligations.RepairsRewritePoisonedCodewords
  refine ⟨fun s r hr => ?_, fun s u e a hp he ha hu => ?_, fun s => ?_, fun s a c l k bytes hmap => ?_, fun s u g r hs hr hu => ?_⟩
  · obtain ⟨hnone, hhost, hpeer⟩ := repairStart_waiting hr
    refine ⟨hnone, ?_, ?_⟩
    · rintro i _ he rfl hk
      exact hhost i he hk
    · rintro i port _ l he hk hport rfl hreach hl
      exact hpeer i port l he hk hport hreach hl
  · subst ha
    rw [repairPeerRequest_found hp he hu]
    refine ⟨fun hserve => ?_, fun bytes m v hserve hv => ?_⟩
    · rw [hserve, Bool.not_false, if_pos rfl, State.accepted_of_chans]
      rw [State.answer_chans, hu]
    · rw [hserve, hv]
      rfl
  · refine ⟨fun e he => repairResponse_answer he, fun r i he hr => repairResponse_host he hr, fun r i hr hw => repairAttemptTimeout_due hw hr,
      fun p hp => by unfold State.takeAnswer; rw [hp], fun p r hr => ⟨fun h => ?_, fun hok hm => ?_⟩⟩
    · rw [State.takeAnswer_of hr, if_pos h]
    · rw [State.takeAnswer_of hr, if_neg (not_or.2 ⟨hok, by simp [hm]⟩)]
  · refine ⟨fun ha => ?_, fun ha hv hp => ?_, fun _ hv => State.repairCw_fenced hmap.symm hv, fun ha hv hp hlen => ?_, fun hm hp hlen => ?_⟩
    · exact if_pos ha
    · rw [State.repairCw_array ha hmap.symm hv, hp, if_neg Bool.false_ne_true]
    · exact ⟨fun hb hm => State.repairCw_free ha hmap.symm hv hp hlen hb hm, fun hb => State.repairCw_busy ha hmap.symm hv hp hb⟩
    · exact ⟨State.arrayPoison_putArray hp, State.arrayData_putArray hm hlen⟩
  · subst hu
    refine ⟨State.repairDone_pending hr, fun hgot hlate => ?_⟩
    rw [State.repairDone_complete hr hgot hlate]
    by_cases hf : s.granuleFenced g = true
    · obtain ⟨hrest, hmem, hcount, hother, hbut⟩ := State.endRepair_counts (g := g) (State.canonical.regs hs) (f := Fld.repairStatFailed) (by decide)
      simp only [hf, if_true]
      exact ⟨hrest, hmem, hcount, hother _ (by decide) (by decide), hbut⟩
    · obtain ⟨hrest, hmem, hcount, hother, hbut⟩ := State.endRepair_counts (g := g) (State.canonical.regs hs) (f := Fld.repairStatDone) (by decide)
      simp only [hf, if_false, Bool.false_eq_true]
      exact ⟨hrest, hmem, hother _ (by decide) (by decide), hcount, hbut⟩

end Sys2Proof.Machine
end

section
/-! SUPPORT. The patrol scrub, migrations and poison fills (O38). -/

namespace Sys2Proof.Machine

-- One declaration after another: each blocked elaboration thread holds a stack, which the check's memory limit counts.
set_option Elab.async false

/-! ## The end of a scrub pass -/

section
variable {s : State} {c : Nat}

theorem State.passEnd_idle (h : s.chans.scrubDone = []) : s.passEnd = s := if_neg (by simp [h])

/-- A pass goes on while a channel that scrub visits has not been read to its end. -/
theorem State.passEnd_unfinished (hc : c < 272) (hs : s.scrubs c = true) (hd : s.chans.scrubDone.contains c = false) : s.passEnd = s := by
  refine if_neg fun h => ?_
  have hall := List.all_eq_true.1 (Bool.and_eq_true_iff.1 h).2 c (List.mem_range.2 hc)
  rw [hs, hd] at hall
  exact Bool.false_ne_true hall

/-- A pass whose channels are all read to their end is over, and counts. -/
theorem State.passEnd_finished (hr : Tab.sorted s.regs = true) (hne : s.chans.scrubDone ≠ [])
    (hall : ∀ k < 272, s.scrubs k = true → s.chans.scrubDone.contains k = true) :
    s.passEnd.chans = { s.chans with scrubDone := [] } ∧ s.passEnd.fld Fld.memScrubPasses 0 = s.counted Fld.memScrubPasses 0 1 := by
  have hend : s.passEnd = ({ s with chans := { s.chans with scrubDone := [] } }).bump Fld.memScrubPasses 0 1 := by
    refine if_pos (Bool.and_eq_true_iff.2 ⟨by simpa using hne, List.all_eq_true.2 fun k hk => ?_⟩)
    cases hsk : s.scrubs k with
    | false => rfl
    | true => simpa using hall k (List.mem_range.1 hk) hsk
  rw [hend]
  exact ⟨State.bump_chans .., State.fld_bump_self (by exact hr) ..⟩

/-- The channel position moves on, and a channel read to its end is done. -/
def State.scrubMoved (v : State) (c cw : Nat) : State :=
  { v with chans := { v.chans with scrubPos := Tab.set 0 v.chans.scrubPos c ((cw + 1) % chanCodewords),
                                   scrubDone := if cw + 1 = chanCodewords then c :: v.chans.scrubDone else v.chans.scrubDone } }

@[simp] theorem State.scrubMoved_regs (cw : Nat) : (s.scrubMoved c cw).regs = s.regs := rfl

@[simp] theorem State.scrubMoved_fld (cw : Nat) (f : Field) (i : Nat) : (s.scrubMoved c cw).fld f i = s.fld f i := rfl

@[simp] theorem State.scrubMoved_arrayData (k cw n : Nat) : (s.scrubMoved c cw).arrayData k n = s.arrayData k n := rfl

@[simp] theorem State.scrubMoved_arrayPoison (k cw n : Nat) : (s.scrubMoved c cw).arrayPoison k n = s.arrayPoison k n := rfl

@[simp] theorem State.scrubMoved_cellDamage (k cw n : Nat) : (s.scrubMoved c cw).cellDamage k n = s.cellDamage k n := rfl

theorem State.scrubMoved_fills (cw : Nat) : (s.scrubMoved c cw).chans.fills = s.chans.fills := rfl

theorem State.scrubMoved_next {cw : Nat} (h : cw + 1 < chanCodewords) : s.scrubMoved c cw =
    { s with chans := { s.chans with scrubPos := Tab.set 0 s.chans.scrubPos c (cw + 1) } } := by
  unfold State.scrubMoved
  rw [Nat.mod_eq_of_lt h, if_neg (Nat.ne_of_lt h)]

end

/-! ## The scrub of a channel in service (R258) -/

section
variable {C : Prop} {s : State} {c l a cw : Nat} {x : Strike}

/-- At the first codeword the windows of the channel start again. -/
def State.windowed (s : State) (c cw : Nat) : State := if cw = 0 then (s.setFld Fld.memChstatCeWin c 0).setFld Fld.memChstatUeWin c 0 else s

/-- The codeword is read: of a channel in service through its slot, of an idle spare directly. -/
def State.scrubAt (s : State) (c cw : Nat) (x : Strike) (f : Bool) : State :=
  match s.slotOf c with
  | some l => (((s.strike (s.unmapAddr l (64 * cw)) x f).bursts baseContext (s.unmapAddr l (64 * cw)) 1).readCw (s.unmapAddr l (64 * cw))).2.2
  | none => ((s.damageCells c cw x).event baseContext evBurst noRegion (if ((s.damageCells c cw x).cellDamage c cw).isEmpty then 1 else 2)).scrubSpare c cw f

theorem State.scrubAt_bound {f : Bool} (hl : s.slotOf c = some l) (ha : a = s.unmapAddr l (64 * cw)) :
    s.scrubAt c cw x f = (((s.strike a x f).bursts baseContext a 1).readCw a).2.2 := by
  unfold State.scrubAt
  rw [hl, ha]

theorem State.scrubAt_spare {f : Bool} (hl : s.slotOf c = none) : s.scrubAt c cw x f =
    ((s.damageCells c cw x).event baseContext evBurst noRegion (if ((s.damageCells c cw x).cellDamage c cw).isEmpty then 1 else 2)).scrubSpare c cw f := by
  unfold State.scrubAt
  rw [hl]

/-- `SCRUB_READ` of a channel that the scrub visits and has not read to its end. -/
theorem scrubRead_visits {f : Bool} (hc : c < 272) (hx : Damage.wf x.symbols = true) (hen : s.flag Fld.memScrubEnable 0 = true) (hon : s.chanOn c = true)
    (hsc : s.scrubs c = true) (hdone : s.chans.scrubDone.contains c = false) (hcw : cw = Tab.get 0 s.chans.scrubPos c) :
    exec (.scrubRead c x f) s = .next (((s.windowed c cw).scrubAt c cw x f).scrubMoved c cw).passEnd := by
  subst hcw
  refine (onUnit_ok (by simp [hc, hx])).trans (whenever_pos ?_)
  rw [hen, hon, hsc, hdone]
  rfl

theorem State.windowed_eq : s.windowed c cw = { s with regs := (s.windowed c cw).regs } := by
  unfold State.windowed
  split <;> rfl

theorem State.windowed_writesOnly : s.writesOnly (· = .memChstat) (s.windowed c cw) := by
  unfold State.windowed
  split
  · exact .trans (.setFld _ _ _ (by decide)) (.setFld _ _ _ (by decide))
  · exact .refl

theorem State.Sound.windowed (h : s.Sound C) : (s.windowed c cw).Sound C := h.setFld.setFld.ite h

theorem State.windowed_fld (hs : s.Sound C) {f : Field} (hf : f.lo < 1024 ∧ f.lo ≠ Fld.memChstatCeWin.lo ∧ f.lo ≠ Fld.memChstatUeWin.lo) :
    (s.windowed c cw).fld f c = s.fld f c := by
  obtain ⟨hlo, hce, hue⟩ := hf
  unfold State.windowed
  split
  · rw [State.fld_setFld_ne hs.setFld.regs (.inr (.inr hue.symm)) _ ⟨by decide, hlo⟩, State.fld_setFld_ne hs.regs (.inr (.inr hce.symm)) _ ⟨by decide, hlo⟩]
  · rfl

theorem State.windowed_start (hs : s.Sound C) : (s.windowed c 0).fld Fld.memChstatCeWin c = 0 ∧ (s.windowed c 0).fld Fld.memChstatUeWin c = 0 := by
  refine ⟨?_, State.fld_setFld_self hs.setFld.regs ..⟩
  exact (State.fld_setFld_ne hs.setFld.regs (.inr (.inr (by decide))) _ (by decide)).trans (State.fld_setFld_self hs.regs ..)

theorem State.windowed_later (h : 0 < cw) : s.windowed c cw = s := if_neg (by omega)

theorem State.windowed_ueWin_le (hs : s.Sound C) : (s.windowed c cw).fld Fld.memChstatUeWin c ≤ s.fld Fld.memChstatUeWin c := by
  rcases Nat.eq_zero_or_pos cw with rfl | h
  · rw [(State.windowed_start hs).2]
    exact Nat.zero_le _
  · rw [State.windowed_later h]

/-- The state in which the codeword is decoded: the strike shows, and the burst is charged. -/
def State.scrubbing (s : State) (c cw a : Nat) (x : Strike) : State := ((s.windowed c cw).damageCells c cw x).bursts baseContext a 1

theorem State.Sound.scrubbing (h : s.Sound C) : (s.scrubbing c cw a x).Sound C := h.windowed.damageCells.bursts

theorem State.scrubbing_regs : (s.scrubbing c cw a x).regs = (s.windowed c cw).regs := State.damageCells_regs

/-- Of the channels the strike changes only the damage. -/
theorem State.scrubbing_chans : (s.scrubbing c cw a x).chans = { s.chans with
    stuckCells := (s.scrubbing c cw a x).chans.stuckCells, failedPins := (s.scrubbing c cw a x).chans.failedPins } := by
  have hw : (s.windowed c cw).chans = s.chans := by rw [State.windowed_eq]
  refine (State.damageCells_chans (s := s.windowed c cw)).trans ?_
  rw [hw]
  rfl

theorem State.windowed_sameMap (hs : s.Sound C) : s.SameMap (s.windowed c cw) :=
  .of_writesOnly State.windowed_writesOnly hs.regs (by simp) (by rw [State.windowed_eq])

theorem State.scrubbing_sameMap (hs : s.Sound C) : s.SameMap (s.scrubbing c cw a x) :=
  .of_writesOnly (State.windowed_writesOnly.trans (.of_regs State.scrubbing_regs)) hs.regs (by simp) (by rw [State.scrubbing_chans])

/-- A codeword scrubbed: decoded and delivered. -/
def State.scrubbed (s : State) (c cw a : Nat) (x : Strike) : State :=
  ((s.scrubbing c cw a x).decodeCw c cw).delivers a (((s.scrubbing c cw a x).decodeCw c cw).arrayPoison c cw)

/-- A channel in service that the scrub visits, with its next codeword: undamaged, at address `a`, which the strike `x` hits. -/
structure State.AtScrub (s : State) (c l a cw : Nat) (x : Strike) : Prop where
  chan : c < 272
  wf : Damage.wf x.symbols = true
  enabled : s.flag Fld.memScrubEnable 0 = true
  on : s.chanOn c = true
  slot : s.slotOf c = some l
  visited : s.scrubs c = true
  going : s.chans.scrubDone.contains c = false
  position : cw = Tab.get 0 s.chans.scrubPos c
  address : a = s.unmapAddr l (64 * cw)
  top : a < s.memTop
  mapped : s.mapAddr a = (l, 64 * cw)
  view : s.slotView l cw = .array c
  clean : s.cellDamage c cw = []

theorem scrubRead_bound (hs : s.Sound C) (h : s.AtScrub c l a cw x) :
    exec (.scrubRead c x false) s = .next (((s.scrubbed c cw a x).checkUeWin c).scrubMoved c cw).passEnd := by
  have hk : 64 * cw / 64 = cw := Nat.mul_div_cancel_left cw (by decide)
  have hw : s.SameMap (s.windowed c cw) := State.windowed_sameMap hs
  have ht : s.SameMap (s.scrubbing c cw a x) := State.scrubbing_sameMap hs
  have hstrike : (s.windowed c cw).strike a x false = (s.windowed c cw).damageCells c cw x := by
    rw [State.strike_array (hw.memTop ▸ h.top) (hw.mapAddr.trans h.mapped) (by rw [hk, hw.slotView, h.view]), hk]
  have hread := State.readCw_array (ht.memTop ▸ h.top) (ht.mapAddr.trans h.mapped) (by rw [hk, ht.slotView, h.view])
  rw [hk] at hread
  have hat : (s.windowed c cw).scrubAt c cw x false = ((s.scrubbing c cw a x).readCw a).2.2 := by
    rw [State.scrubAt_bound (hw.slotOf.trans h.slot) (h.address.trans hw.unmapAddr.symm), hstrike]
    rfl
  rw [scrubRead_visits h.chan h.wf h.enabled h.on h.visited h.going h.position, hat, hread]
  rfl

/-! ### What the scrubbed codeword holds and its channel counts -/

theorem State.scrubbing_cellDamage (hs : s.Sound C) (h : s.cellDamage c cw = []) : (s.scrubbing c cw a x).cellDamage c cw = x.symbols ∧
    Damage.and (Tab.get [] (s.scrubbing c cw a x).chans.stuckCells (chanCodewords * c + cw)) (Tab.get [] (s.scrubbing c cw a x).chans.failedPins c) =
      lastingDamage x := by
  have hw : (s.windowed c cw).cellDamage c cw = [] := by rwa [State.windowed_eq]
  exact State.cellDamage_damageCells hs.windowed hw

theorem State.scrubbing_mem : (s.scrubbing c cw a x).mem = s.mem := State.damageCells_mem.trans (by rw [State.windowed_eq])

theorem State.scrubbing_memPoison : (s.scrubbing c cw a x).memPoison = s.memPoison := State.damageCells_memPoison.trans (by rw [State.windowed_eq])

theorem State.scrubbing_fld (f : Field) (i : Nat) : (s.scrubbing c cw a x).fld f i = (s.windowed c cw).fld f i := State.fld_congr State.scrubbing_regs f i

theorem State.scrubbed_keepsCells : ((s.scrubbing c cw a x).decodeCw c cw).KeepsCells (s.scrubbed c cw a x) := .delivers

theorem State.scrubbed_chans : (s.scrubbed c cw a x).chans = (s.scrubbing c cw a x).chans := State.delivers_chans.trans State.decodeCw_chans

theorem State.scrubbed_writesOnly : s.writesOnly (fun r => r = .memChstat ∨ r = .memErr ∨ r = .repairStat) (s.scrubbed c cw a x) :=
  .trans (.mono (.trans State.windowed_writesOnly (.trans (.of_regs State.scrubbing_regs) State.decodeCw_writesOnly)) fun _ => .inl)
    (State.delivers_writesOnly.mono fun _ => .inr)

/-- The status of the scrubbed channel is what decoding counts. -/
theorem State.scrubbed_status (hs : s.Sound C) {f : Field} (hf : f.reg = .memChstat ∧ f.lo < 1024 ∧ f.lo ≠ Fld.memChstatState.lo) :
    (s.scrubbed c cw a x).fld f c = ((s.scrubbing c cw a x).decodeCw c cw).fld f c :=
  State.scrubbed_keepsCells.status hs.scrubbing.decodeCw.regs f c hf

theorem State.scrubbed_ueWin_le (hs : s.Sound C) : (s.scrubbed c cw a x).fld Fld.memChstatUeWin c ≤ s.fld Fld.memChstatUeWin c + 1 := by
  rw [State.scrubbed_status hs (by decide)]
  refine (State.decodeCw_ueWin_le hs.scrubbing).trans (Nat.add_le_add_right ?_ 1)
  rw [State.scrubbing_fld]
  exact State.windowed_ueWin_le hs

/-- With at most one damaged symbol the codeword keeps its data and its mark, and no uncorrectable error counts. -/
theorem State.scrubbed_corrected (hs : s.Sound C) (h : s.cellDamage c cw = []) (hx : x.symbols.length ≤ 1) :
    (s.scrubbed c cw a x).arrayData c cw = s.arrayData c cw ∧ (s.scrubbed c cw a x).arrayPoison c cw = s.arrayPoison c cw ∧
    (s.scrubbed c cw a x).fld Fld.memChstatUe c = s.fld Fld.memChstatUe c ∧
    (s.scrubbed c cw a x).fld Fld.memChstatCe c = s.counted Fld.memChstatCe c x.symbols.length := by
  have hd : (s.scrubbing c cw a x).cellDamage c cw = x.symbols := (State.scrubbing_cellDamage hs h).1
  have hfld (f : Field) (hf : f.lo < 1024 ∧ f.lo ≠ Fld.memChstatCeWin.lo ∧ f.lo ≠ Fld.memChstatUeWin.lo) :
      (s.scrubbing c cw a x).fld f c = s.fld f c := (State.scrubbing_fld f c).trans (State.windowed_fld hs hf)
  rw [State.scrubbed_keepsCells.arrayData, State.scrubbed_keepsCells.arrayPoison, State.scrubbed_status hs (by decide), State.scrubbed_status hs (by decide)]
  unfold State.arrayData State.arrayPoison
  rcases Nat.le_one_iff_eq_zero_or_eq_one.1 hx with h0 | h1
  · rw [State.decodeCw_clean (hd.symm ▸ h0), h0, State.scrubbing_mem, State.scrubbing_memPoison]
    exact ⟨rfl, rfl, hfld _ (by decide), hfld _ (by decide)⟩
  · obtain ⟨hmem, hmark⟩ := State.decodeCw_one_data hs.scrubbing (hd.symm ▸ h1)
    obtain ⟨hce, _, hue⟩ := State.decodeCw_one_fld hs.scrubbing (hd.symm ▸ h1)
    rw [hmem, hmark, hce, hue, h1, State.scrubbing_mem, State.scrubbing_memPoison]
    exact ⟨rfl, rfl, hfld _ (by decide), State.counted_congr (hfld _ (by decide)) 1⟩

/-- With two the codeword is lost: zeros with the mark, counted. -/
theorem State.scrubbed_lost (hs : s.Sound C) (h : s.cellDamage c cw = []) (hx : x.symbols.length = 2) :
    (s.scrubbed c cw a x).arrayData c cw = zeros64 ∧ (s.scrubbed c cw a x).arrayPoison c cw = true ∧
    (s.scrubbed c cw a x).fld Fld.memChstatUe c = s.counted Fld.memChstatUe c 1 := by
  have hd : ((s.scrubbing c cw a x).cellDamage c cw).length = 2 := (State.scrubbing_cellDamage hs h).1.symm ▸ hx
  obtain ⟨hdata, hmark⟩ := State.decodeCw_two_data hs.scrubbing hd
  rw [State.scrubbed_keepsCells.arrayData, State.scrubbed_keepsCells.arrayPoison, State.scrubbed_status hs (by decide), (State.decodeCw_two_fld hs.scrubbing hd).1]
  exact ⟨hdata, hmark, State.counted_congr ((State.scrubbing_fld _ _).trans (State.windowed_fld hs (by decide))) 1⟩

/-- The windows of a channel that is not at its first codeword count on. -/
theorem State.scrubbed_windows (hs : s.Sound C) (h : s.cellDamage c cw = []) (hcw : 0 < cw) :
    (x.symbols.length = 1 → (s.scrubbed c cw a x).fld Fld.memChstatCeWin c = s.counted Fld.memChstatCeWin c 1) ∧
    (x.symbols.length = 2 → (s.scrubbed c cw a x).fld Fld.memChstatUeWin c = s.counted Fld.memChstatUeWin c 1) := by
  have hd : (s.scrubbing c cw a x).cellDamage c cw = x.symbols := (State.scrubbing_cellDamage hs h).1
  have hfld (f : Field) : (s.scrubbing c cw a x).fld f c = s.fld f c := by rw [State.scrubbing_fld, State.windowed_later hcw]
  rw [State.scrubbed_status hs (by decide), State.scrubbed_status hs (by decide)]
  refine ⟨fun h1 => ?_, fun h2 => ?_⟩
  · obtain ⟨_, hwin, _⟩ := State.decodeCw_one_fld hs.scrubbing (hd.symm ▸ h1)
    exact hwin.trans (State.counted_congr (hfld _) 1)
  · exact (State.decodeCw_two_fld hs.scrubbing (hd.symm ▸ h2)).2.trans (State.counted_congr (hfld _) 1)

/-- With no damage nothing of the channel's status changes but what starts again. -/
theorem State.scrubbed_clean_status (hs : s.Sound C) (h : s.cellDamage c cw = []) (hx : x.symbols.length = 0) {f : Field}
    (hf : f.reg = .memChstat ∧ f.lo < 1024 ∧ f.lo ≠ Fld.memChstatState.lo) : (s.scrubbed c cw a x).fld f c = (s.windowed c cw).fld f c := by
  rw [State.scrubbed_status hs hf, State.decodeCw_clean ((State.scrubbing_cellDamage hs h).1.symm ▸ hx), State.scrubbing_fld]

theorem State.scrubbed_cellDamage (hs : s.Sound C) (h : s.cellDamage c cw = []) (hx : x.cause = .once) : (s.scrubbed c cw a x).cellDamage c cw = [] := by
  obtain ⟨hd, hlast⟩ := State.scrubbing_cellDamage (a := a) (x := x) hs h
  rw [State.scrubbed_keepsCells.cellDamage]
  by_cases h0 : x.symbols.length = 0
  · rw [State.decodeCw_clean (hd.symm ▸ h0), hd]
    exact List.eq_nil_of_length_eq_zero h0
  · rw [State.decodeCw_cellDamage hs.scrubbing (hd.symm ▸ h0), hlast]
    exact if_pos hx

/-! ### The pass goes on, or ends -/

/-- A channel in service that is not done keeps the pass going. -/
theorem State.scrubMoved_passEnd (hs : s.Sound C) (h : s.AtScrub c l a cw x) (hcw : cw + 1 < chanCodewords) :
    ((s.scrubbed c cw a x).scrubMoved c cw).passEnd = (s.scrubbed c cw a x).scrubMoved c cw := by
  have hmap : s.SameMap ((s.scrubbed c cw a x).scrubMoved c cw) :=
    .of_writesOnly (.trans State.scrubbed_writesOnly (.of_regs (State.scrubMoved_regs cw))) hs.regs (by simp)
      (by rw [State.scrubMoved_fills, State.scrubbed_chans, State.scrubbing_chans])
  refine State.passEnd_unfinished h.chan ?_ ?_
  · have hsc := h.visited
    unfold State.scrubs at hsc ⊢
    rw [h.slot] at hsc
    rw [hmap.slotOf, h.slot]
    unfold State.flag at hsc ⊢
    dsimp only at hsc ⊢
    rw [hmap.chmap Fld.memChmapFenced l (by decide)]
    exact hsc
  · unfold State.scrubMoved
    dsimp only
    rw [if_neg (Nat.ne_of_lt hcw), State.scrubbed_chans, State.scrubbing_chans]
    exact h.going

/-- With no damage, beyond the first codeword, only the counts of a marked codeword delivered are written. -/
theorem State.scrubbed_clean_writesOnly (hs : s.Sound C) (h : s.cellDamage c cw = []) (hx : x.symbols = []) (hcw : 0 < cw) :
    s.writesOnly (fun r => r = .memErr ∨ r = .repairStat) (s.scrubbed c cw a x) := by
  have hd : ((s.scrubbing c cw a x).cellDamage c cw).length = 0 := by rw [(State.scrubbing_cellDamage hs h).1, hx]; rfl
  refine .trans (.of_regs ?_) State.delivers_writesOnly
  rw [State.decodeCw_clean hd, State.scrubbing_regs, State.windowed_later hcw]

/-- What scrub visits depends on the map and on the states of the channels. -/
theorem State.scrubs_congr {u : State} {w : Reg → Prop} (h : s.writesOnly w u) (hs : Tab.sorted s.regs = true) (hw : ¬ w .memTop ∧ ¬ w .memChmap ∧ ¬ w .memChstat)
    (hf : u.chans.fills = s.chans.fills) (k : Nat) : u.scrubs k = s.scrubs k := by
  obtain ⟨htop, hchmap, hstat⟩ := hw
  have hmap : s.SameMap u := .of_writesOnly h hs ⟨htop, hchmap⟩ hf
  unfold State.scrubs State.flag
  rw [hmap.slotOf, h.fld hs ⟨hstat, by decide⟩]
  simp only [hmap.chmap Fld.memChmapFenced _ (by decide)]

/-- Behind the last codeword of the last channel every channel that the scrub visits is done. -/
theorem State.scrubMoved_allDone (hs : s.Sound C) (h : s.cellDamage c cw = []) (hx : x.symbols = []) (hcw : cw + 1 = chanCodewords)
    (hall : (List.range 272).all (fun k => k == c || !s.scrubs k || s.chans.scrubDone.contains k) = true) :
    ((s.scrubbed c cw a x).scrubMoved c cw).chans.scrubDone = c :: s.chans.scrubDone ∧
    ∀ k < 272, ((s.scrubbed c cw a x).scrubMoved c cw).scrubs k = true → (c :: s.chans.scrubDone).contains k = true := by
  have hpos : 0 < cw := by unfold chanCodewords at hcw; omega
  have hchans : (s.scrubbed c cw a x).chans = _ := State.scrubbed_chans.trans State.scrubbing_chans
  have hwrites : s.writesOnly (fun r => r = .memErr ∨ r = .repairStat) ((s.scrubbed c cw a x).scrubMoved c cw) :=
    .trans (State.scrubbed_clean_writesOnly hs h hx hpos) (.of_regs (State.scrubMoved_regs cw))
  refine ⟨?_, fun k hk hsk => ?_⟩
  · unfold State.scrubMoved
    rw [if_pos hcw, hchans]
  · rw [State.scrubs_congr hwrites hs.regs (by simp) (by rw [State.scrubMoved_fills, hchans]) k] at hsk
    have hdone := List.all_eq_true.1 hall k (List.mem_range.2 hk)
    rw [hsk] at hdone
    simpa using hdone

theorem State.scrubbed_passes (hs : s.Sound C) : (s.scrubbed c cw a x).fld Fld.memScrubPasses 0 = s.fld Fld.memScrubPasses 0 :=
  State.scrubbed_writesOnly.fld hs.regs (by decide) 0

/-- Before its last codeword a channel's position moves on, and its pass goes on. -/
theorem scrubRead_goesOn (hs : s.Sound C) (h : s.AtScrub c l a cw x) (hcw : cw + 1 < chanCodewords) (hue : s.fld Fld.memChstatUeWin c < 15) :
    exec (.scrubRead c x false) s = .next ((s.scrubbed c cw a x).scrubMoved c cw) ∧
    ((s.scrubbed c cw a x).scrubMoved c cw).chans.scrubPos = Tab.set 0 s.chans.scrubPos c (cw + 1) ∧
    ((s.scrubbed c cw a x).scrubMoved c cw).chans.scrubDone = s.chans.scrubDone := by
  have hchans : (s.scrubbed c cw a x).chans = _ := State.scrubbed_chans.trans State.scrubbing_chans
  have hwin : (s.scrubbed c cw a x).fld Fld.memChstatUeWin c < 16 := (State.scrubbed_ueWin_le hs).trans_lt (Nat.add_lt_add_right hue 1)
  refine ⟨?_, ?_, ?_⟩
  · rw [scrubRead_bound hs h, State.checkUeWin_below hwin, State.scrubMoved_passEnd hs h hcw]
  · rw [State.scrubMoved_next hcw, hchans]
  · rw [State.scrubMoved_next hcw, hchans]

/-- Behind the last codeword of the last channel the position starts again, and the pass counts. -/
theorem scrubRead_endsPass (hs : s.Sound C) (h : s.AtScrub c l a cw x) (hcw : cw + 1 = chanCodewords) (hx : x.symbols = [])
    (hall : (List.range 272).all (fun k => k == c || !s.scrubs k || s.chans.scrubDone.contains k) = true) (hue : s.fld Fld.memChstatUeWin c < 16) :
    ∃ u, exec (.scrubRead c x false) s = .next u ∧ u.chans.scrubPos = Tab.set 0 s.chans.scrubPos c 0 ∧ u.chans.scrubDone = [] ∧
      u.fld Fld.memScrubPasses 0 = s.counted Fld.memScrubPasses 0 1 := by
  have hpos : 0 < cw := by unfold chanCodewords at hcw; omega
  have hwin := State.scrubbed_clean_status (a := a) hs h.clean (List.length_eq_zero_iff.2 hx) (f := Fld.memChstatUeWin) (by decide)
  rw [State.windowed_later hpos] at hwin
  obtain ⟨hdone, hfinished⟩ := State.scrubMoved_allDone (a := a) hs h.clean hx hcw hall
  have hsorted : Tab.sorted ((s.scrubbed c cw a x).scrubMoved c cw).regs = true := by
    rw [State.scrubMoved_regs]
    exact (State.scrubbed_writesOnly hs.regs).1
  obtain ⟨hchans, hpasses⟩ := State.passEnd_finished hsorted (by rw [hdone]; exact List.cons_ne_nil _ _) (by rwa [hdone])
  rw [scrubRead_bound hs h, State.checkUeWin_below (hwin.trans_lt hue)]
  refine ⟨_, rfl, ?_, ?_, ?_⟩
  · rw [hchans]
    unfold State.scrubMoved
    rw [hcw, Nat.mod_self, State.scrubbed_chans, State.scrubbing_chans]
  · rw [hchans]
  · rw [hpasses]
    exact State.counted_congr ((State.scrubMoved_fld ..).trans (State.scrubbed_passes hs)) 1

end

/-! ## The scrub of an idle spare (R259) -/

theorem State.scrubSpare_eq (e : State) (c cw : Nat) (f : Bool) : e.scrubSpare c cw f =
    if f = true then (e.setFld Fld.memChstatState c 4).journal recChannel [c, 4, 0x3F]
    else if e.fld Fld.memChstatUeWin c < (e.decodeCw c cw).fld Fld.memChstatUeWin c then
      ((e.decodeCw c cw).setFld Fld.memChstatState c 4).journal recChannel [c, 4, 0x3F]
    else e.decodeCw c cw := by
  cases f
  · simp [State.scrubSpare]
  · simp [State.scrubSpare]

/-- Of the channels a spare's scrub changes only the damage. -/
theorem State.scrubSpare_chans (e : State) (c cw : Nat) (f : Bool) : (e.scrubSpare c cw f).chans = e.chans := by
  rw [State.scrubSpare_eq]
  split
  · rfl
  · split
    · exact State.decodeCw_chans
    · exact State.decodeCw_chans

/-! ## Migrations and fills -/

theorem migrationStart_declining {s : State} {l sp : Nat} (hl : l < 256) (hsp : s.idleSpare (l % 8) = some sp) (hon : s.chanOn sp = true)
    (hdec : s.declining l = true) (hauto : s.flag Fld.memSpareCtlAuto 0 = true) (hm : s.migrationOf (l % 8) = none) (hdone : s.chans.scrubDone = []) :
    exec (.migrationStart l) s = .next { s.setFld Fld.memChstatState sp 2 with
      chans := { s.chans with migrations := Tab.set none s.chans.migrations (l % 8) (some (l, sp, 0)) } } := by
  show execMigrationStart l s = _
  unfold execMigrationStart
  rw [onUnit_ok (by simpa using hl), hsp]
  dsimp only
  rw [whenever_pos (by simp [hon, hdec, hauto, hm]), State.passEnd_idle (by exact hdone)]

/-- A copy step of the migration of a slot whose spare is in an active stack. -/
theorem migrationCopyStep_runs {s : State} {l sp n old : Nat} {x : Strike} (hl : l < 256) (hx : Damage.wf x.symbols = true) (hon : s.chanOn sp = true)
    (hm : s.migrationOf (l % 8) = some (l, sp, n)) (hb : s.boundChan l = some old) (f g : Bool) : exec (.migrationCopyStep l x f g) s = .next (
      if f then s.failHard old else if g then s.failHard sp else
      let v := (s.event baseContext evBurst noRegion 2).damageCells old n x
      let v2 := (v.event baseContext evBurst noRegion (if (v.cellDamage old n).isEmpty then 0 else 1)).decodeCw old n
      let w := ((v2.putArray sp n (v2.arrayData old n) (v2.arrayPoison old n)).copied l sp n).checkUeWin old
      if n + 1 = chanCodewords && w.fld Fld.memChstatState old == 0 then w.migrationComplete l old sp else w) := by
  show execMigrationCopyStep l x f g s = _
  unfold execMigrationCopyStep
  rw [onUnit_ok (by simp [hl, hx]), hm, hb]
  dsimp only
  rw [whenever_pos (by simp [hon])]

theorem poisonFillStep_runs {s : State} {l sp n : Nat} (hl : l < 256) (hon : s.chanOn sp = true) (hf : s.fillOf l = some (sp, n)) (f : Bool) :
    exec (.poisonFillStep l f) s = .next (if f then s.failHard sp else
      let v := (s.event baseContext evBurst noRegion 1).putArray sp n zeros64 true
      (if n + 1 < chanCodewords then v.setFill l (some (sp, n + 1)) else v.fillDone l sp).lateWrites.lateRepairs) := by
  show execPoisonFillStep l f s = _
  unfold execPoisonFillStep
  rw [onUnit_ok (by simpa using hl), hf]
  dsimp only
  rw [whenever_pos hon]

/-! ## The statement -/

/-- Settles O38: a scrub by what the codeword's cells show, the others by their cases. -/
theorem scrubMigrationAndFillAdvance : Obligations.ScrubMigrationAndFillAdvance := by
  unfold Obligations.ScrubMigrationAndFillAdvance
  refine ⟨fun s c l a cw x hc hx hcan hen hon hl hsc hdone hcw ha htop hmap hv hclean honce => ?_,
    fun s v e d w c cw x f hc hx hen hon hl hst hdone hcw hlt h0 hv he hd hw _ => ?_,
    fun s l sp hl hsp hon hdec hauto hm hdone => migrationStart_declining hl hsp hon hdec hauto hm hdone,
    fun s v v2 w l sp n old x hl hx hon hm hb hv hv2 hw => ?_, fun s v l sp f hl hon hf hv => ?_⟩
  · have hs : s.Sound False := State.sound_iff.2 ⟨hcan, False.elim⟩
    have hat : s.AtScrub c l a cw x := ⟨hc, hx, hen, hon, hl, hsc, hdone, hcw, ha, htop, hmap, hv, hclean⟩
    refine ⟨fun hlt hue => ?_, scrubRead_endsPass hs hat⟩
    obtain ⟨hexec, hpos, hkept⟩ := scrubRead_goesOn hs hat hlt hue
    refine ⟨_, hexec, hpos, hkept, ?_⟩
    simp only [State.scrubMoved_fld, State.scrubMoved_arrayData, State.scrubMoved_arrayPoison, State.scrubMoved_cellDamage]
    refine ⟨State.scrubbed_passes hs, State.scrubbed_cellDamage hs hclean honce, State.scrubbed_corrected hs hclean, State.scrubbed_lost hs hclean,
      fun h0 => (State.scrubbed_windows hs hclean h0).1, fun h0 => (State.scrubbed_windows hs hclean h0).2, ?_⟩
    rintro rfl hx0
    obtain ⟨hce, hue0⟩ := State.windowed_start (c := c) hs
    exact ⟨(State.scrubbed_clean_status hs hclean hx0 (by decide)).trans hce, (State.scrubbed_clean_status hs hclean hx0 (by decide)).trans hue0⟩
  · have hsc : s.scrubs c = true := by unfold State.scrubs; rw [hl, hst]; rfl
    have hwe : w = e.scrubSpare c cw f := by rw [hw, State.scrubSpare_eq, hd]
    have hnone : w.chans.scrubDone = [] := by rw [hwe, State.scrubSpare_chans, he, State.event_chans, hv, State.damageCells_chans, hdone]
    rw [scrubRead_visits hc hx hen hon hsc (by rw [hdone]; rfl) hcw, State.windowed_later h0, State.scrubAt_spare hl, ← hv, ← he, ← hwe, State.scrubMoved_next hlt,
      State.passEnd_idle (by exact hnone)]
  · rw [migrationCopyStep_runs hl hx hon hm hb, migrationCopyStep_runs hl hx hon hm hb, migrationCopyStep_runs hl hx hon hm hb, if_neg Bool.false_ne_true,
      if_neg Bool.false_ne_true, if_pos rfl, if_pos rfl]
    dsimp only
    rw [← hv, ← hv2, ← hw]
    exact ⟨fun hlt => by simp [Nat.ne_of_lt hlt], fun hlast hst => by simp [hlast, hst], rfl, rfl⟩
  · rw [poisonFillStep_runs hl hon hf, poisonFillStep_runs hl hon hf, if_neg Bool.false_ne_true, if_pos rfl]
    dsimp only
    rw [← hv]
    exact ⟨fun hlt => by rw [if_pos hlt], fun hge => by rw [if_neg (Nat.not_lt.2 hge)]; rfl, rfl⟩

end Sys2Proof.Machine
end

section
/-! SUPPORT. Requests of device memory at their channel engine (O37). -/

namespace Sys2Proof.Machine

-- One declaration after another: each blocked elaboration thread holds a stack, which the check's memory limit counts.
set_option Elab.async false

/-! ## A request that an idle engine serves -/

/-- The requests that wait in the queues of the engines. -/
def queueLoad (t : Tab (List MemReq × List MemReq)) : Nat := (t.map fun e => e.2.1.length + e.2.2.length).sum

theorem State.waitingRequests_eq (s : State) : s.waitingRequests = s.chans.late.length + queueLoad s.chans.queues := by
  unfold State.waitingRequests queueLoad
  rw [List.sum_eq_foldl]

theorem queueLoad_set (k : Nat) (v : List MemReq × List MemReq) : ∀ t : Tab (List MemReq × List MemReq),
    queueLoad (Tab.set ([], []) t k v) + ((Tab.get ([], []) t k).1.length + (Tab.get ([], []) t k).2.length) = queueLoad t + (v.1.length + v.2.length)
  | [] => by
    by_cases hv : v = ([], [])
    · simp [Tab.set, Tab.get, hv]
    · simp [Tab.set, Tab.get, hv, queueLoad]
  | (j, w) :: r => by
    have ih := queueLoad_set k v r
    unfold queueLoad at ih ⊢
    by_cases hlt : k < j
    · have hne : j ≠ k := by omega
      by_cases hv : v = ([], [])
      · simp [Tab.set, Tab.get, hlt, hv, hne]
      · simp [Tab.set, Tab.get, hlt, hv, hne]
        omega
    · by_cases hjk : j = k
      · by_cases hv : v = ([], [])
        · simp [Tab.set, Tab.get, hv, hjk]
          omega
        · simp [Tab.set, Tab.get, hv, hjk]
          omega
      · simp only [Tab.set, Tab.get, hlt, hjk, if_false, List.map_cons, List.sum_cons]
        omega

section
variable {C : Prop} {s : State} {q : MemReq} {x : Strike} {l : Nat}

/-- The state in which an idle engine serves a request that has come to it. -/
def State.alone (s : State) (q : MemReq) : State := (s.joinQueue q).setQueues (s.mapAddr q.addr).1 ([], []) 0

@[simp] theorem State.alone_regs : (s.alone q).regs = s.regs := rfl

theorem State.Sound.alone (h : s.Sound C) : (s.alone q).Sound C := { h with queues := Tab.sorted_set (Tab.sorted_set h.queues) }

theorem State.alone_sameMap : s.SameMap (s.alone q) := .of_regs rfl rfl

/-- A request that comes to an idle engine is alone in its queue. -/
theorem State.joinQueue_idle (hl : (s.mapAddr q.addr).1 = l) (hq : s.queuesOf l = ([], [])) :
    s.joinQueue q = s.setQueues l (if q.narrow then ([q], []) else ([], [q])) (Tab.get 0 s.chans.narrowRun l) := by
  unfold State.joinQueue
  dsimp only
  rw [hl, hq]
  rfl

theorem State.queuesOf_joinQueue (hl : (s.mapAddr q.addr).1 = l) (hq : s.queuesOf l = ([], [])) :
    (s.joinQueue q).queuesOf l = if q.narrow then ([q], []) else ([], [q]) := by
  rw [State.joinQueue_idle hl hq]
  exact Tab.get_set_ne (by split <;> simp)

theorem State.nextRequest_joinQueue (hl : (s.mapAddr q.addr).1 = l) (hq : s.queuesOf l = ([], [])) : (s.joinQueue q).nextRequest l = some (q, s.alone q) := by
  have hnow := State.queuesOf_joinQueue hl hq
  unfold State.nextRequest State.alone
  rw [hnow, hl]
  cases q.narrow <;> rfl

/-- Passing through an empty queue adds no request that waits. -/
theorem State.alone_waiting (hl : (s.mapAddr q.addr).1 = l) (hq : s.queuesOf l = ([], [])) : (s.alone q).waitingRequests = s.waitingRequests := by
  have hnow := State.queuesOf_joinQueue hl hq
  have hone : (if q.narrow then ([q], []) else ([], [q]) : List MemReq × List MemReq).1.length +
      (if q.narrow then ([q], []) else ([], [q]) : List MemReq × List MemReq).2.length = 1 := by split <;> rfl
  have hjoin := queueLoad_set l (if q.narrow then ([q], []) else ([], [q])) s.chans.queues
  have hleave := queueLoad_set l ([], []) (s.joinQueue q).chans.queues
  rw [show Tab.get ([], []) s.chans.queues l = ([], []) from hq, hone] at hjoin
  rw [show Tab.get ([], []) (s.joinQueue q).chans.queues l = _ from hnow, hone] at hleave
  have hqueues : (s.joinQueue q).chans.queues = Tab.set ([], []) s.chans.queues l (if q.narrow then ([q], []) else ([], [q])) := by
    rw [State.joinQueue_idle hl hq]
    rfl
  have halone : (s.alone q).chans.queues = Tab.set ([], []) (s.joinQueue q).chans.queues l ([], []) := by
    unfold State.alone
    rw [hl]
    rfl
  rw [State.waitingRequests_eq, State.waitingRequests_eq, halone, show (s.alone q).chans.late = s.chans.late from rfl]
  rw [hqueues] at hleave ⊢
  simp only [List.length_nil, Nat.add_zero] at hjoin hleave
  omega

/-- An engine that is not held and has no other request serves the one that comes (R254). -/
theorem State.engineStep_alone {f : Bool} (ha : q.addr < s.memTop) (hl : (s.mapAddr q.addr).1 = l) (hheld : s.stackHeld (l % 8) = false)
    (hq : s.queuesOf l = ([], [])) (hlen : q.len ≠ 0) : s.engineStep q x f false = s.accepted ((s.alone q).serveRequest q x f) := by
  unfold State.engineStep
  dsimp only
  rw [if_neg (Nat.not_le.2 ha), hl, hheld, if_neg Bool.false_ne_true, if_neg hlen, if_neg Bool.false_ne_true, State.nextRequest_joinQueue hl hq]

end

/-! ## A lone access to a codeword that an array holds undamaged -/

/-- Byte `o` of the codeword at `a` lies in channel `c`, undamaged; the engine of logical channel `l` is free. -/
structure State.AtCodeword (s : State) (a o l off c : Nat) : Prop where
  on : s.memOn = true
  aligned : a % 64 = 0
  inside : o < 64
  top : a + o < s.memTop
  mapped : s.mapAddr a = (l, off)
  view : s.slotView l (off / 64) = .array c
  free : s.stackHeld (l % 8) = false
  idle : s.queuesOf l = ([], [])
  clean : s.cellDamage c (off / 64) = []

section
variable {C : Prop} {s : State} {a o l off c n : Nat} {x : Strike} {q : MemReq}

theorem codeword_of_byte (h64 : a % 64 = 0) (ho : o < 64) : (a + o) / 64 * 64 = a ∧ (a + o) % 64 = o := by omega

/-- The codeword as the engine decodes it: struck, and its burst charged. -/
def State.fetching (s : State) (q : MemReq) (c cw : Nat) (x : Strike) : State := ((s.alone q).damageCells c cw x).bursts baseContext q.addr 1

theorem State.fetching_regs {cw : Nat} : (s.fetching q c cw x).regs = s.regs := State.damageCells_regs

theorem State.fetching_mem {cw : Nat} : (s.fetching q c cw x).mem = s.mem := State.damageCells_mem

theorem State.fetching_memPoison {cw : Nat} : (s.fetching q c cw x).memPoison = s.memPoison := State.damageCells_memPoison

theorem State.Sound.fetching {cw : Nat} (h : s.Sound C) : (s.fetching q c cw x).Sound C := h.alone.damageCells.bursts

theorem State.fetching_sameMap {cw : Nat} : s.SameMap (s.fetching q c cw x) := .of_regs State.fetching_regs (by
  show ((s.alone q).damageCells c cw x).chans.fills = _
  rw [State.damageCells_chans]
  rfl)

theorem State.fetching_cellDamage {cw : Nat} (hs : s.Sound C) (h : s.cellDamage c cw = []) : (s.fetching q c cw x).cellDamage c cw = x.symbols ∧
    Damage.and (Tab.get [] (s.fetching q c cw x).chans.stuckCells (chanCodewords * c + cw)) (Tab.get [] (s.fetching q c cw x).chans.failedPins c) =
      lastingDamage x :=
  State.cellDamage_damageCells hs.alone h

theorem State.fetching_waiting {cw : Nat} (hl : (s.mapAddr q.addr).1 = l) (hq : s.queuesOf l = ([], [])) :
    (s.fetching q c cw x).waitingRequests = s.waitingRequests := by
  rw [← State.alone_waiting hl hq]
  show ((s.alone q).damageCells c cw x).waitingRequests = _
  unfold State.waitingRequests
  rw [State.damageCells_chans]

/-- The codeword delivered, and its channel tested. -/
def State.fetched (s : State) (q : MemReq) (a c cw : Nat) (x : Strike) : State :=
  (((s.fetching q c cw x).decodeCw c cw).delivers a (((s.fetching q c cw x).decodeCw c cw).arrayPoison c cw)).checkUeWin c

theorem State.fetched_keepsCells {cw : Nat} : ((s.fetching q c cw x).decodeCw c cw).KeepsCells (s.fetched q a c cw x) := .trans .delivers .checkUeWin

theorem State.fetched_waiting {cw : Nat} (hl : (s.mapAddr q.addr).1 = l) (hq : s.queuesOf l = ([], [])) :
    (s.fetched q a c cw x).waitingRequests ≤ s.waitingRequests := by
  refine State.fetched_keepsCells.waiting.trans (Nat.le_of_eq ?_)
  rw [← State.fetching_waiting (c := c) (cw := cw) (x := x) hl hq]
  unfold State.waitingRequests
  rw [State.decodeCw_chans]

/-- The bytes of a codeword that a read of `n` bytes from offset `o` answers: a narrow one its 32-byte sector. -/
def sectorOf (a n : Nat) (b : List Byte) : List Byte := if narrowAccess a n then (b.drop (a % 64 / 32 * 32)).take 32 else b

theorem sectorOf_offset (h64 : a % 64 = 0) (ho : o < 64) (b : List Byte) :
    sectorOf (a + o) n b = if n ≤ 32 ∧ o % 32 + n ≤ 32 then (b.drop (o / 32 * 32)).take 32 else b := by
  have h32 : (a + o) % 32 = o % 32 := by omega
  unfold sectorOf narrowAccess
  rw [(codeword_of_byte h64 ho).2, h32]
  simp only [Bool.and_eq_true, decide_eq_true_eq]

/-- The request of a read of `n` bytes. -/
def readReq (a n : Nat) : MemReq := ⟨a, n, none, narrowAccess a n⟩

/-- The data and the mark that a read answers. -/
def State.answersRead (s : State) (bytes : List Byte) (m : Bool) : State := { s with outs := { s.outs with memData := bytes, memMark := m } }

theorem State.KeepsCells.answersRead {bytes : List Byte} {m : Bool} : s.KeepsCells (s.answersRead bytes m) := { KeepsCells.refl (s := s) with }

theorem State.serveRequest_read (s : State) (b n : Nat) (x : Strike) (f : Bool) : s.serveRequest (readReq b n) x f =
    let r := ((s.strike (b / 64 * 64) x f).bursts baseContext b 1).readCw (b / 64 * 64)
    r.2.2.answersRead (sectorOf b n r.1) r.2.1 := rfl

/-- A request that comes to an idle engine is served at once, when serving it leaves no further one waiting. -/
theorem State.engineStep_served (ha : q.addr < s.memTop) (hl : (s.mapAddr q.addr).1 = l) (hheld : s.stackHeld (l % 8) = false) (hq : s.queuesOf l = ([], []))
    (hlen : q.len ≠ 0) (hwait : ((s.alone q).serveRequest q x false).waitingRequests ≤ s.waitingRequests) :
    s.engineStep q x false false = (s.alone q).serveRequest q x false := by
  rw [State.engineStep_alone ha hl hheld hq hlen, State.accepted_served hwait]

theorem memCodewordRead_on (hon : s.memOn = true) (hx : Damage.wf x.symbols = true) (f w : Bool) :
    exec (.memCodewordRead a n x f w) s = .next (s.engineStep (readReq a n) x f w) := (onUnit_ok hx).trans (whenever_pos hon)

/-- A read of an undamaged codeword of an array answers it as decoded. -/
theorem memCodewordRead_alone (h : s.AtCodeword a o l off c) (hx : Damage.wf x.symbols = true) (hn : 0 < n) (hr : q = readReq (a + o) n) :
    exec (.memCodewordRead (a + o) n x false false) s = .next ((s.fetched q a c (off / 64) x).answersRead
      (sectorOf (a + o) n (((s.fetching q c (off / 64) x).decodeCw c (off / 64)).arrayData c (off / 64)))
      (((s.fetching q c (off / 64) x).decodeCw c (off / 64)).arrayPoison c (off / 64))) := by
  obtain ⟨hbase, hoff⟩ := codeword_of_byte h.aligned h.inside
  have haddr : q.addr = a + o := by rw [hr]; rfl
  have hl : (s.mapAddr q.addr).1 = l := by rw [haddr, State.mapAddr_offset h.aligned h.inside h.mapped]
  have htop : a < s.memTop := (Nat.le_add_right a o).trans_lt h.top
  have hmap : s.SameMap (s.fetching q c (off / 64) x) := State.fetching_sameMap
  have hread := State.readCw_array (hmap.memTop ▸ htop) (hmap.mapAddr.trans h.mapped) (hmap.slotView.trans h.view)
  have hstrike : (s.alone q).strike a x false = (s.alone q).damageCells c (off / 64) x := by
    have hq : s.SameMap (s.alone q) := State.alone_sameMap
    exact State.strike_array (hq.memTop ▸ htop) (hq.mapAddr.trans h.mapped) (hq.slotView.trans h.view)
  have hfetch : ((s.alone q).damageCells c (off / 64) x).bursts baseContext (a + o) 1 = s.fetching q c (off / 64) x := by
    unfold State.fetching
    rw [haddr]
  have hserve : (s.alone q).serveRequest q x false = (s.fetched q a c (off / 64) x).answersRead
      (sectorOf (a + o) n (((s.fetching q c (off / 64) x).decodeCw c (off / 64)).arrayData c (off / 64)))
      (((s.fetching q c (off / 64) x).decodeCw c (off / 64)).arrayPoison c (off / 64)) := by
    have hrun := State.serveRequest_read (s.alone q) (a + o) n x false
    rw [← hr, hbase, hstrike, hfetch, hread] at hrun
    exact hrun
  have hlen : q.len ≠ 0 := by rw [hr]; exact Nat.ne_of_gt hn
  have hwait : ((s.alone q).serveRequest q x false).waitingRequests ≤ s.waitingRequests := by
    rw [hserve]
    exact State.KeepsCells.answersRead.waiting.trans (State.fetched_waiting hl h.idle)
  rw [memCodewordRead_on h.on hx, ← hr, State.engineStep_served (haddr ▸ h.top) hl h.free h.idle hlen hwait, hserve]

theorem State.answered_keepsCells {cw : Nat} {bytes : List Byte} {m : Bool} :
    ((s.fetching q c cw x).decodeCw c cw).KeepsCells ((s.fetched q a c cw x).answersRead bytes m) := .trans State.fetched_keepsCells .answersRead

/-- Without damage a read answers the stored bytes and their mark, and changes neither (R249). -/
theorem memCodewordRead_clean (hs : s.Sound C) (h : s.AtCodeword a o l off c) (hx : Damage.wf x.symbols = true) (hn : 0 < n) (h0 : x.symbols.length = 0) :
    ∃ u, exec (.memCodewordRead (a + o) n x false false) s = .next u ∧ u.outs.memData = sectorOf (a + o) n (s.arrayData c (off / 64)) ∧
      u.outs.memMark = s.arrayPoison c (off / 64) ∧ u.mem = s.mem ∧ u.memPoison = s.memPoison := by
  obtain ⟨q, hq⟩ : ∃ q, q = readReq (a + o) n := ⟨_, rfl⟩
  have hd : (s.fetching q c (off / 64) x).decodeCw c (off / 64) = s.fetching q c (off / 64) x :=
    State.decodeCw_clean ((State.fetching_cellDamage hs h.clean).1.symm ▸ h0)
  refine ⟨_, memCodewordRead_alone h hx hn hq, ?_, ?_, ?_, ?_⟩
  · show sectorOf _ _ _ = _
    rw [hd]
    unfold State.arrayData
    rw [State.fetching_mem]
  · show State.arrayPoison _ _ _ = _
    rw [hd]
    unfold State.arrayPoison
    rw [State.fetching_memPoison]
  · rw [State.answered_keepsCells.mem, hd, State.fetching_mem]
  · rw [State.answered_keepsCells.memPoison, hd, State.fetching_memPoison]

/-- With one damaged symbol it answers the same, and the correction counts. -/
theorem memCodewordRead_corrected (hs : s.Sound C) (h : s.AtCodeword a o l off c) (hx : Damage.wf x.symbols = true) (hn : 0 < n) (h1 : x.symbols.length = 1) :
    ∃ u, exec (.memCodewordRead (a + o) n x false false) s = .next u ∧ u.outs.memData = sectorOf (a + o) n (s.arrayData c (off / 64)) ∧
      u.outs.memMark = s.arrayPoison c (off / 64) ∧ u.mem = s.mem ∧ (∀ k, Tab.get false u.memPoison k = Tab.get false s.memPoison k) ∧
      u.cellDamage c (off / 64) = lastingDamage x ∧ u.fld Fld.memChstatCe c = s.counted Fld.memChstatCe c 1 ∧
      u.fld Fld.memChstatCeWin c = s.counted Fld.memChstatCeWin c 1 := by
  obtain ⟨q, hq⟩ : ∃ q, q = readReq (a + o) n := ⟨_, rfl⟩
  have ht : (s.fetching q c (off / 64) x).Sound C := hs.fetching
  obtain ⟨hdamage, hlast⟩ := State.fetching_cellDamage (q := q) (x := x) hs h.clean
  have hone : ((s.fetching q c (off / 64) x).cellDamage c (off / 64)).length = 1 := hdamage.symm ▸ h1
  obtain ⟨hmem, hmark⟩ := State.decodeCw_one_data ht hone
  obtain ⟨hce, hwin, _⟩ := State.decodeCw_one_fld ht hone
  have hfld (f : Field) : (s.fetching q c (off / 64) x).fld f c = s.fld f c := State.fld_congr State.fetching_regs f c
  rw [State.fetching_mem] at hmem
  rw [State.fetching_memPoison] at hmark
  refine ⟨_, memCodewordRead_alone h hx hn hq, ?_, hmark _, ?_, fun k => ?_, ?_, ?_, ?_⟩
  · show sectorOf _ _ _ = _
    unfold State.arrayData
    rw [hmem]
  · rw [State.answered_keepsCells.mem, hmem]
  · rw [State.answered_keepsCells.memPoison, hmark]
  · rw [State.answered_keepsCells.cellDamage, State.decodeCw_cellDamage ht (by rw [hone]; decide), hlast]
  · rw [State.answered_keepsCells.status ht.decodeCw.regs _ _ (by decide), hce, State.counted_congr (hfld _)]
  · rw [State.answered_keepsCells.status ht.decodeCw.regs _ _ (by decide), hwin, State.counted_congr (hfld _)]

/-- With two it answers zeros with the mark, which the codeword then holds, and counts. -/
theorem memCodewordRead_lost (hs : s.Sound C) (h : s.AtCodeword a o l off c) (hx : Damage.wf x.symbols = true) (hn : 0 < n) (h2 : x.symbols.length = 2) :
    ∃ u, exec (.memCodewordRead (a + o) n x false false) s = .next u ∧ u.outs.memData = sectorOf (a + o) n zeros64 ∧ u.outs.memMark = true ∧
      u.arrayData c (off / 64) = zeros64 ∧ u.arrayPoison c (off / 64) = true ∧ u.cellDamage c (off / 64) = lastingDamage x ∧
      u.fld Fld.memChstatUe c = s.counted Fld.memChstatUe c 1 ∧ u.fld Fld.memChstatUeWin c = s.counted Fld.memChstatUeWin c 1 := by
  obtain ⟨q, hq⟩ : ∃ q, q = readReq (a + o) n := ⟨_, rfl⟩
  have ht : (s.fetching q c (off / 64) x).Sound C := hs.fetching
  obtain ⟨hdamage, hlast⟩ := State.fetching_cellDamage (q := q) (x := x) hs h.clean
  have htwo : ((s.fetching q c (off / 64) x).cellDamage c (off / 64)).length = 2 := hdamage.symm ▸ h2
  obtain ⟨hdata, hmark⟩ := State.decodeCw_two_data ht htwo
  obtain ⟨hue, hwin⟩ := State.decodeCw_two_fld ht htwo
  have hfld (f : Field) : (s.fetching q c (off / 64) x).fld f c = s.fld f c := State.fld_congr State.fetching_regs f c
  refine ⟨_, memCodewordRead_alone h hx hn hq, congrArg (sectorOf (a + o) n) hdata, hmark, ?_, ?_, ?_, ?_, ?_⟩
  · rw [State.answered_keepsCells.arrayData, hdata]
  · rw [State.answered_keepsCells.arrayPoison, hmark]
  · rw [State.answered_keepsCells.cellDamage, State.decodeCw_cellDamage ht (by rw [htwo]; decide), hlast]
  · rw [State.answered_keepsCells.status ht.decodeCw.regs _ _ (by decide), hue, State.counted_congr (hfld _)]
  · rw [State.answered_keepsCells.status ht.decodeCw.regs _ _ (by decide), hwin, State.counted_congr (hfld _)]

end

/-! ## A lone write -/

section
variable {C : Prop} {s : State} {a o l off c : Nat} {x : Strike} {bytes : List Byte} {part : Bool} {q : MemReq}

/-- The request of a write; a part of a larger one is never narrow. -/
def writeReq (a : Nat) (bytes : List Byte) (part : Bool) : MemReq := ⟨a, bytes.length, some bytes, !part && narrowAccess a bytes.length⟩

/-- A write served: a whole codeword is stored and then struck, part of one is struck and then merged (R249, R256). -/
def State.stores (s : State) (a o : Nat) (bytes : List Byte) (x : Strike) : State :=
  if bytes.length = 64 then (s.writeCw a 0 bytes false).strike a x false else (s.strike a x false).writeCw a o bytes false

theorem State.serveRequest_write (s : State) (b : Nat) (bytes : List Byte) (part : Bool) (x : Strike) : s.serveRequest (writeReq b bytes part) x false =
    (s.storeBursts baseContext b bytes.length).stores (b / 64 * 64) (b % 64) bytes x := rfl

theorem overlay_length {old : List Byte} (hold : old.length = 64) (h : o + bytes.length ≤ 64) : (overlay old o bytes).length = 64 := by
  unfold overlay
  simp only [List.length_append, List.length_take, List.length_drop, hold]
  omega

theorem overlay_whole {old : List Byte} (hold : old.length = 64) (hb : bytes.length = 64) : overlay old 0 bytes = bytes := by
  unfold overlay
  rw [List.take_zero, List.nil_append, List.drop_eq_nil_of_le (by omega), List.append_nil]

/-- What a write of `bytes` at offset `o` leaves in an undamaged codeword: the bytes laid over it; a whole write has no mark, a part write keeps it. -/
def State.storedCw (s : State) (c cw o : Nat) (bytes : List Byte) : State :=
  s.putArray c cw (overlay (s.arrayData c cw) o bytes) (if bytes.length = 64 then false else s.arrayPoison c cw)

/-- A write of an undamaged codeword stores it, and no request waits for it. -/
theorem State.stores_array (hs : s.Sound C) (ha : a < s.memTop) (hmap : s.mapAddr a = (l, off)) (hv : s.slotView l (off / 64) = .array c)
    (hheld : s.stackHeld (l % 8) = false) (hmir : s.mirrorOf l = none) (hue : s.fld Fld.memChstatUeWin c < 16) (hclean : s.cellDamage c (off / 64) = [])
    (hlen : o + bytes.length ≤ 64) (hx : x.symbols = []) : (s.stores a o bytes x).mem = (s.storedCw c (off / 64) o bytes).mem ∧
    (s.stores a o bytes x).memPoison = (s.storedCw c (off / 64) o bytes).memPoison ∧ (s.stores a o bytes x).waitingRequests = s.waitingRequests := by
  have hwaits {v : State} : (v.damageCells c (off / 64) x).waitingRequests = v.waitingRequests := by
    unfold State.waitingRequests
    rw [State.damageCells_chans]
  have hue' {v : State} {b : List Byte} {p : Bool} (hr : v.regs = s.regs) : (v.putArray c (off / 64) b p).checkUeWin c = v.putArray c (off / 64) b p :=
    State.checkUeWin_below (State.fld_congr ((State.putArray_regs ..).trans hr) .. ▸ hue)
  unfold State.stores State.storedCw
  by_cases hb : bytes.length = 64
  · obtain rfl : o = 0 := by omega
    have hsame : s.SameMap (s.putArray c (off / 64) bytes false) := .of_regs (State.putArray_regs ..) rfl
    rw [if_pos hb, if_pos hb, overlay_whole State.arrayData_length hb, State.writeCw_array ha hmap hv hheld hmir, State.writeOn_whole hb, hue' rfl,
      State.strike_array (hsame.memTop ▸ ha) (hsame.mapAddr.trans hmap) (hsame.slotView.trans hv)]
    exact ⟨State.damageCells_mem, State.damageCells_memPoison, hwaits⟩
  · have hfills : (s.damageCells c (off / 64) x).chans.fills = s.chans.fills := by rw [State.damageCells_chans]
    have hsame : s.SameMap (s.damageCells c (off / 64) x) := .of_regs State.damageCells_regs hfills
    have hmir' : (s.damageCells c (off / 64) x).mirrorOf l = none := by
      rw [← hmir]
      unfold State.mirrorOf State.migrationOf
      rw [State.damageCells_chans]
    have hheld' : (s.damageCells c (off / 64) x).stackHeld (l % 8) = false := by
      rw [← hheld]
      unfold State.stackHeld State.flag
      rw [State.fld_congr State.damageCells_regs]
    have hnone : ((s.damageCells c (off / 64) x).cellDamage c (off / 64)).length = 0 := by rw [(State.cellDamage_damageCells hs hclean).1, hx]; rfl
    have hdata : (s.damageCells c (off / 64) x).arrayData c (off / 64) = s.arrayData c (off / 64) := by unfold State.arrayData; rw [State.damageCells_mem]
    have hmark : (s.damageCells c (off / 64) x).arrayPoison c (off / 64) = s.arrayPoison c (off / 64) := by
      unfold State.arrayPoison; rw [State.damageCells_memPoison]
    rw [if_neg hb, if_neg hb, State.strike_array ha hmap hv, State.writeCw_array (hsame.memTop ▸ ha) (hsame.mapAddr.trans hmap) (hsame.slotView.trans hv) hheld' hmir',
      State.writeOn_part hb hnone, hue' State.damageCells_regs, hdata, hmark]
    unfold State.putArray
    refine ⟨?_, ?_, hwaits⟩
    · dsimp only
      rw [State.damageCells_mem]
    · dsimp only
      rw [State.damageCells_memPoison]

theorem memCodewordWrite_on (hon : s.memOn = true) (hx : Damage.wf x.symbols = true) (hlen : a % 64 + bytes.length ≤ 64) (f w : Bool) :
    exec (.memCodewordWrite a bytes part x f w) s = .next (s.engineStep (writeReq a bytes part) x f w) :=
  (onUnit_ok hx).trans (whenever_pos (by simp [hon, hlen]))

/-- A write of an undamaged codeword is served at once, and stores it. -/
theorem memCodewordWrite_alone (hs : s.Sound C) (h : s.AtCodeword a o l off c) (hx : x.symbols = []) (hmir : s.mirrorOf l = none)
    (hue : s.fld Fld.memChstatUeWin c < 16) (hpos : 0 < bytes.length) (hlen : o + bytes.length ≤ 64) :
    ∃ u, exec (.memCodewordWrite (a + o) bytes part x false false) s = .next u ∧ u.mem = (s.storedCw c (off / 64) o bytes).mem ∧
      u.memPoison = (s.storedCw c (off / 64) o bytes).memPoison := by
  obtain ⟨hbase, hoff⟩ := codeword_of_byte h.aligned h.inside
  obtain ⟨q, hq⟩ : ∃ q, q = writeReq (a + o) bytes part := ⟨_, rfl⟩
  have haddr : q.addr = a + o := by rw [hq]; rfl
  have hl : (s.mapAddr q.addr).1 = l := by rw [haddr, State.mapAddr_offset h.aligned h.inside h.mapped]
  have htop : a < s.memTop := (Nat.le_add_right a o).trans_lt h.top
  have hserve : (s.alone q).serveRequest q x false = ((s.alone q).storeBursts baseContext (a + o) bytes.length).stores a o bytes x := by
    have hrun := State.serveRequest_write (s.alone q) (a + o) bytes part x
    rw [← hq, hbase, hoff] at hrun
    exact hrun
  have halone : s.SameMap ((s.alone q).storeBursts baseContext (a + o) bytes.length) := .of_regs rfl rfl
  have hst : ((s.alone q).storeBursts baseContext (a + o) bytes.length).Sound C := hs.alone.storeBursts
  obtain ⟨hmem, hmark, hwait⟩ := State.stores_array hst (halone.memTop ▸ htop) (halone.mapAddr.trans h.mapped) (halone.slotView.trans h.view) h.free hmir hue
    h.clean hlen hx
  have hqlen : q.len ≠ 0 := by rw [hq]; exact Nat.ne_of_gt hpos
  have hwait' : ((s.alone q).serveRequest q x false).waitingRequests ≤ s.waitingRequests := by
    rw [hserve, hwait]
    exact Nat.le_of_eq (State.alone_waiting hl h.idle)
  have hin : (a + o) % 64 + bytes.length ≤ 64 := by omega
  rw [memCodewordWrite_on h.on (by rw [hx]; rfl) hin, ← hq, State.engineStep_served (haddr ▸ h.top) hl h.free h.idle hqlen hwait', hserve]
  exact ⟨_, rfl, hmem, hmark⟩

/-- The codeword that a write leaves, and every byte of memory outside it. -/
theorem State.storedCw_reads {cw : Nat} (hs : s.Sound C) (hlen : o + bytes.length ≤ 64) : (s.storedCw c cw o bytes).arrayData c cw = overlay (s.arrayData c cw) o bytes ∧
    (s.storedCw c cw o bytes).arrayPoison c cw = (if bytes.length = 64 then false else s.arrayPoison c cw) ∧
    ∀ b, (b < chanBytes * c + 64 * cw ∨ chanBytes * c + 64 * cw + 64 ≤ b) → Mem.read (s.storedCw c cw o bytes).mem b = Mem.read s.mem b := by
  have hover : (overlay (s.arrayData c cw) o bytes).length = 64 := overlay_length State.arrayData_length hlen
  refine ⟨State.arrayData_putArray hs.mem hover, State.arrayPoison_putArray hs.memPoison, fun b hb => ?_⟩
  unfold State.storedCw State.putArray
  exact Mem.read_writeRange_other hs.mem (by rwa [hover])

end

/-! ## A fenced slot, and addresses at or above `MEM_TOP` -/

section
variable {C : Prop} {s : State} {a o l off : Nat} {x : Strike} {bytes : List Byte} {part : Bool}

theorem sectorOf_wide (b : List Byte) : sectorOf a 64 b = b := if_neg (by simp [narrowAccess])

theorem State.readCw_fenced (ha : a < s.memTop) (hmap : s.mapAddr a = (l, off)) (hv : s.slotView l (off / 64) = .fenced) :
    s.readCw a = (zeros64, true, s.poisonDelivered a) := by
  unfold State.readCw
  rw [if_neg (Nat.not_le.2 ha), hmap]
  dsimp only
  rw [hv]

theorem State.writeCw_fenced {m : Bool} (ha : a < s.memTop) (hmap : s.mapAddr a = (l, off)) (hv : s.slotView l (off / 64) = .fenced) :
    s.writeCw a o bytes m = s.bump Fld.memErrDropped 0 1 := by
  unfold State.writeCw
  rw [if_neg (Nat.not_le.2 ha), hmap]
  dsimp only
  rw [hv]

theorem State.stores_fenced (hs : Tab.sorted s.regs = true) (ha : a < s.memTop) (hmap : s.mapAddr a = (l, off)) (hv : s.slotView l (off / 64) = .fenced) :
    s.stores a o bytes x = s.bump Fld.memErrDropped 0 1 := by
  have hsame : s.SameMap (s.bump Fld.memErrDropped 0 1) :=
    .of_writesOnly (w := (· = .memErr)) (.bump _ _ _ (by decide)) hs (by simp) (by rw [State.bump_chans])
  unfold State.stores
  split
  · rw [State.writeCw_fenced ha hmap hv, State.strike_fenced (hsame.mapAddr.trans hmap) (hsame.slotView.trans hv)]
  · rw [State.strike_fenced hmap hv, State.writeCw_fenced ha hmap hv]

theorem State.strike_beyond {f : Bool} (ha : s.memTop ≤ a) : s.strike a x f = s := if_pos ha

theorem State.stores_beyond (ha : s.memTop ≤ a) : s.stores a o bytes x = s.bump Fld.memErrBeyond 0 1 := by
  have hsame : (s.bump Fld.memErrBeyond 0 1).memTop = s.memTop :=
    State.fld_bump_ne (Field.key_ne (by decide) (by decide) (.inr (.inl (by decide)))) (by decide) (by decide)
  have hwrite (o : Nat) : s.writeCw a o bytes false = s.bump Fld.memErrBeyond 0 1 := if_pos ha
  unfold State.stores
  split
  · rw [hwrite, State.strike_beyond (hsame.symm ▸ ha)]
  · rw [State.strike_beyond ha, hwrite]

theorem State.poisonDelivered_fld (hs : Tab.sorted s.regs = true) :
    (s.poisonDelivered a).fld Fld.memErrPoisonRead 0 = s.counted Fld.memErrPoisonRead 0 1 := by
  have hbump : s.writesOnly (· = .memErr) (s.bump Fld.memErrPoisonRead 0 1) := .bump _ _ _ (by decide)
  exact (State.queueRepair_writesOnly.fld (hbump hs).1 (by decide) 0).trans (State.fld_bump_self hs ..)

/-- A read of a fenced slot answers zeros with the mark, and counts (R263). -/
theorem memCodewordRead_fenced (hs : s.Sound C) (hon : s.memOn = true) (h64 : a % 64 = 0) (htop : a < s.memTop) (hmap : s.mapAddr a = (l, off))
    (hv : s.slotView l (off / 64) = .fenced) (hheld : s.stackHeld (l % 8) = false) (hq : s.queuesOf l = ([], [])) (hx : Damage.wf x.symbols = true) :
    ∃ u, exec (.memCodewordRead a 64 x false false) s = .next u ∧ u.outs.memData = zeros64 ∧ u.outs.memMark = true ∧ u.mem = s.mem ∧
      u.fld Fld.memErrPoisonRead 0 = s.counted Fld.memErrPoisonRead 0 1 := by
  have hbase : a / 64 * 64 = a := by omega
  have hl : (s.mapAddr (readReq a 64).addr).1 = l := congrArg Prod.fst hmap
  have halone : s.SameMap (s.alone (readReq a 64)) := State.alone_sameMap
  have hserve := State.serveRequest_read (s.alone (readReq a 64)) a 64 x false
  rw [hbase, State.strike_fenced (halone.mapAddr.trans hmap) (halone.slotView.trans hv)] at hserve
  obtain ⟨v, hburst⟩ : ∃ v, v = (s.alone (readReq a 64)).bursts baseContext a 1 := ⟨_, rfl⟩
  have hregs : v.regs = s.regs := by rw [hburst]; rfl
  have hmem : v.mem = s.mem := by rw [hburst]; rfl
  have hwaiting : v.waitingRequests = s.waitingRequests := by rw [hburst]; exact State.alone_waiting hl hq
  have hsame : s.SameMap v := .of_regs hregs (by rw [hburst]; rfl)
  rw [← hburst, State.readCw_fenced (hsame.memTop ▸ htop) (hsame.mapAddr.trans hmap) (hsame.slotView.trans hv)] at hserve
  dsimp only at hserve
  rw [sectorOf_wide] at hserve
  have hkeeps : v.KeepsCells ((v.poisonDelivered a).answersRead zeros64 true) := .trans .poisonDelivered .answersRead
  have hwait : ((s.alone (readReq a 64)).serveRequest (readReq a 64) x false).waitingRequests ≤ s.waitingRequests := by
    rw [hserve]
    exact hkeeps.waiting.trans (Nat.le_of_eq hwaiting)
  rw [memCodewordRead_on hon hx, State.engineStep_served htop hl hheld hq (by decide : (64 : Nat) ≠ 0) hwait, hserve]
  exact ⟨_, rfl, rfl, rfl, hkeeps.mem.trans hmem,
    (State.poisonDelivered_fld (hregs ▸ hs.regs)).trans (State.counted_congr (State.fld_congr hregs ..) 1)⟩

/-- A write to a fenced slot is dropped, and counts (R263). -/
theorem memCodewordWrite_fenced (hs : s.Sound C) (hon : s.memOn = true) (h64 : a % 64 = 0) (ho : o < 64) (htop : a + o < s.memTop) (hmap : s.mapAddr a = (l, off))
    (hv : s.slotView l (off / 64) = .fenced) (hheld : s.stackHeld (l % 8) = false) (hq : s.queuesOf l = ([], [])) (hx : Damage.wf x.symbols = true)
    (hpos : 0 < bytes.length) (hlen : o + bytes.length ≤ 64) :
    ∃ u, exec (.memCodewordWrite (a + o) bytes part x false false) s = .next u ∧ u.mem = s.mem ∧ u.memPoison = s.memPoison ∧
      u.memDamage = s.memDamage ∧ u.fld Fld.memErrDropped 0 = s.counted Fld.memErrDropped 0 1 := by
  obtain ⟨hbase, hoff⟩ := codeword_of_byte h64 ho
  have hl : (s.mapAddr (writeReq (a + o) bytes part).addr).1 = l := congrArg Prod.fst (State.mapAddr_offset h64 ho hmap)
  have hserve := State.serveRequest_write (s.alone (writeReq (a + o) bytes part)) (a + o) bytes part x
  obtain ⟨v, hburst⟩ : ∃ v, v = (s.alone (writeReq (a + o) bytes part)).storeBursts baseContext (a + o) bytes.length := ⟨_, rfl⟩
  have hregs : v.regs = s.regs := by rw [hburst]; rfl
  have hcells : v.mem = s.mem ∧ v.memPoison = s.memPoison ∧ v.memDamage = s.memDamage := by rw [hburst]; exact ⟨rfl, rfl, rfl⟩
  have hwaiting : v.waitingRequests = s.waitingRequests := by rw [hburst]; exact State.alone_waiting hl hq
  have hsame : s.SameMap v := .of_regs hregs (by rw [hburst]; rfl)
  rw [← hburst, hbase, State.stores_fenced (hregs ▸ hs.regs) (hsame.memTop ▸ (Nat.le_add_right a o).trans_lt htop) (hsame.mapAddr.trans hmap)
    (hsame.slotView.trans hv)] at hserve
  have hkeeps : v.KeepsCells (v.bump Fld.memErrDropped 0 1) := .bump
  have hwait : ((s.alone (writeReq (a + o) bytes part)).serveRequest (writeReq (a + o) bytes part) x false).waitingRequests ≤ s.waitingRequests := by
    rw [hserve]
    exact hkeeps.waiting.trans (Nat.le_of_eq hwaiting)
  have hin : (a + o) % 64 + bytes.length ≤ 64 := by omega
  rw [memCodewordWrite_on hon hx hin, State.engineStep_served htop hl hheld hq (Nat.ne_of_gt hpos) hwait, hserve]
  obtain ⟨hmem, hpoison, hdamage⟩ := hcells
  exact ⟨_, rfl, hkeeps.mem.trans hmem, hkeeps.memPoison.trans hpoison, hkeeps.memDamage.trans hdamage,
    (State.fld_bump_self (hregs ▸ hs.regs) ..).trans (State.counted_congr (State.fld_congr hregs ..) 1)⟩

/-- No engine holds an address at or above `MEM_TOP`: its request is served as it comes (R252). -/
theorem State.engineStep_beyond {q : MemReq} (ha : s.memTop ≤ q.addr) (hlen : q.len ≠ 0) : s.engineStep q x false false = s.serveRequest q x false := by
  unfold State.engineStep
  dsimp only
  rw [if_pos ha, if_neg hlen]

/-- A read there answers zeros without the mark, and counts. -/
theorem memCodewordRead_beyond (hon : s.memOn = true) (h64 : a % 64 = 0) (ho : o < 64) (htop : s.memTop ≤ a) (hx : Damage.wf x.symbols = true) :
    exec (.memCodewordRead (a + o) 64 x false false) s =
      .next (((s.bursts baseContext (a + o) 1).bump Fld.memErrBeyond 0 1).answersRead zeros64 false) := by
  have hread : (s.bursts baseContext (a + o) 1).readCw a = (zeros64, false, (s.bursts baseContext (a + o) 1).bump Fld.memErrBeyond 0 1) := if_pos htop
  have hserve := State.serveRequest_read s (a + o) 64 x false
  rw [(codeword_of_byte h64 ho).1, State.strike_beyond htop, hread] at hserve
  dsimp only at hserve
  rw [sectorOf_wide] at hserve
  rw [memCodewordRead_on hon hx, State.engineStep_beyond (htop.trans (Nat.le_add_right a o)) (by decide : (64 : Nat) ≠ 0), hserve]

/-- A write there stores nothing, and counts. -/
theorem memCodewordWrite_beyond (hon : s.memOn = true) (h64 : a % 64 = 0) (ho : o < 64) (htop : s.memTop ≤ a) (hx : Damage.wf x.symbols = true)
    (hpos : 0 < bytes.length) (hlen : o + bytes.length ≤ 64) : exec (.memCodewordWrite (a + o) bytes part x false false) s =
      .next ((s.storeBursts baseContext (a + o) bytes.length).bump Fld.memErrBeyond 0 1) := by
  have hin : (a + o) % 64 + bytes.length ≤ 64 := by omega
  have hserve := State.serveRequest_write s (a + o) bytes part x
  rw [(codeword_of_byte h64 ho).1, State.stores_beyond (s := s.storeBursts baseContext (a + o) bytes.length) (by exact htop)] at hserve
  rw [memCodewordWrite_on hon hx hin, State.engineStep_beyond (htop.trans (Nat.le_add_right a o)) (Nat.ne_of_gt hpos), hserve]

/-! ## The queues of an engine (R254) -/

/-- A request that is to wait joins its queue. -/
theorem State.engineStep_waits {q : MemReq} {f : Bool} (ha : q.addr < s.memTop) (hheld : s.stackHeld ((s.mapAddr q.addr).1 % 8) = false) (hlen : q.len ≠ 0) :
    s.engineStep q x f true = s.joinQueue q := by
  unfold State.engineStep
  dsimp only
  rw [if_neg (Nat.not_le.2 ha), hheld, if_neg Bool.false_ne_true, if_neg hlen, if_pos rfl]

/-- With both queues filled a narrow request goes first, but a bulk one after four narrow bursts in a row. -/
theorem State.nextRequest_both {y z : MemReq} {ns bs : List MemReq} (h : s.queuesOf l = (y :: ns, z :: bs)) : s.nextRequest l =
    some (if Tab.get 0 s.chans.narrowRun l < 4 then (y, s.setQueues l (ns, z :: bs) (Tab.get 0 s.chans.narrowRun l + 1))
      else (z, s.setQueues l (y :: ns, bs) 0)) := by
  unfold State.nextRequest
  rw [h]

end

/-! ## The statement -/

/-- Settles O37: a lone request by what its codeword shows or where its address lies, and the queues by their cases. -/
theorem codewordAccessesReachTheirChannel : Obligations.CodewordAccessesReachTheirChannel := by
  unfold Obligations.CodewordAccessesReachTheirChannel
  refine ⟨fun s a c l off o n x whole hon hcan hx h64 hn hlen htop hmap hv hheld hq hclean hwhole => ?_,
    fun s a c l off o bytes part hon hcan h64 htop hmap hv hheld hq hclean hmir hue hpos hlen => ?_,
    fun s a l off o bytes part hon hcan h64 htop hmap hv hheld hq hpos hlen => ?_,
    fun s v w a o bytes part hon h64 htop hpos hlen hv hw => ?_,
    fun s a n bytes part x f hon htop hheld hx hn hpos hlen => ?_,
    fun s l x y n b h => ?_, fun s v => ⟨State.accepted_served, State.accepted_waits⟩, fun s a n bytes x p f r hon hx => ?_⟩
  · have hs : s.Sound False := State.sound_iff.2 ⟨hcan, False.elim⟩
    have ho : o < 64 := by omega
    have hat : s.AtCodeword a o l off c := ⟨hon, h64, ho, htop, hmap, hv, hheld, hq, hclean⟩
    have hsector (b : List Byte) : whole b = sectorOf (a + o) n b := (hwhole b).trans (sectorOf_offset h64 ho b).symm
    simp only [hsector]
    exact ⟨memCodewordRead_clean hs hat hx hn, memCodewordRead_corrected hs hat hx hn, fun h2 _ => memCodewordRead_lost hs hat hx hn h2⟩
  · have hs : s.Sound False := State.sound_iff.2 ⟨hcan, False.elim⟩
    have hat : s.AtCodeword a o l off c := ⟨hon, h64, by omega, htop, hmap, hv, hheld, hq, hclean⟩
    obtain ⟨u, hexec, hmem, hpoison⟩ := memCodewordWrite_alone (x := ⟨[], .once⟩) (part := part) hs hat rfl hmir hue hpos hlen
    obtain ⟨hdata, hmark, hother⟩ := State.storedCw_reads (c := c) (cw := off / 64) hs hlen
    have hum : u.arrayPoison c (off / 64) = (s.storedCw c (off / 64) o bytes).arrayPoison c (off / 64) := by unfold State.arrayPoison; rw [hpoison]
    refine ⟨u, hexec, ?_, fun h => ?_, fun h => ?_, fun b hb => ?_⟩
    · rw [← hdata]
      unfold State.arrayData
      rw [hmem]
    · rw [hum, hmark, if_pos h]
    · rw [hum, hmark, if_neg (Nat.ne_of_lt h)]
    · rw [hmem, hother b hb]
  · have hs : s.Sound False := State.sound_iff.2 ⟨hcan, False.elim⟩
    exact ⟨memCodewordRead_fenced hs hon h64 ((Nat.le_add_right a o).trans_lt htop) hmap hv hheld hq rfl,
      memCodewordWrite_fenced hs hon h64 (by omega) htop hmap hv hheld hq rfl hpos hlen⟩
  · subst hv hw
    exact ⟨memCodewordRead_beyond hon h64 (by omega) htop rfl, memCodewordWrite_beyond hon h64 (by omega) htop rfl hpos hlen⟩
  · have hread : s.engineStep (readReq a n) x f true = s.joinQueue (readReq a n) := State.engineStep_waits htop hheld (Nat.ne_of_gt hn)
    have hwrite : s.engineStep (writeReq a bytes part) x f true = s.joinQueue (writeReq a bytes part) :=
      State.engineStep_waits htop hheld (Nat.ne_of_gt hpos)
    exact ⟨(memCodewordRead_on hon hx f true).trans (congrArg _ hread), (memCodewordWrite_on hon hx hlen f true).trans (congrArg _ hwrite)⟩
  · rw [State.nextRequest_both h]
    exact ⟨fun hlt => by rw [if_pos hlt], fun hge => by rw [if_neg (Nat.not_lt.2 hge)]⟩
  · exact ⟨(onUnit_ok hx).trans (whenever_neg hon), (onUnit_ok hx).trans (whenever_neg (by simp [hon]))⟩

end Sys2Proof.Machine
end

section
/-! SUPPORT. Table lookup (O32): the elements that `TLOOK` writes, and the marks that it reads. -/

namespace Sys2Proof.Machine

/-- A lane effect that also reads a store outside the vector buffers and the scratchpad reads that store's mark. -/
theorem Effect.Lanes.readingStore {e : Effect} {tl : Tile} {i : Insn} {n : Nat} {on : Nat → Bool} {r : Nat → Word32} {m : Bool}
    (h : e.Lanes tl i n on r m) (b : Bool) : ({ e with extra := e.extra || b } : Effect).Lanes tl i n on r (b || m) where
  tile := h.tile
  writes := h.writes
  vwrites := h.vwrites
  mark := h.mark
  clear := h.clear
  reads hn := by
    rw [← h.reads hn]
    simp only [Effect.readsMarked, Bool.or_comm e.extra b, Bool.or_assoc]

/-- The scale of an element of a block of 32: every element has one. -/
theorem Tile.scale_getD (tl : Tile) (o : Word64) {n k : Nat} (hk : k < n) :
    ((tl.sread (tl.opnd o) 0 (ceilDiv n 32)).map BitVec.toNat).getD (k / 32) 127 = ((tl.sread (tl.opnd o) 0 (ceilDiv n 32)).getD (k / 32) 0).toNat := by
  have hblock : k / 32 < (tl.sread (tl.opnd o) 0 (ceilDiv n 32)).length := by
    rw [Tile.sread_length]
    unfold ceilDiv
    omega
  rw [List.getD_eq_getElem _ _ (by simpa using hblock), List.getD_eq_getElem _ _ hblock, List.getElem_map]

/-- Settles O32: the effect writes each element's table value, scaled or in canonical form, and reads the marks of the indices, the scales and the table store. -/
theorem tableLookupWritesValues : Obligations.TableLookupWritesValues := by
  unfold Obligations.TableLookupWritesValues
  refine laneRow_of_lanes .tlook (eff := ?eff) (fun t s => ?exec) fun s tl i hclear => ?lanes
  case exec =>
    show execTlook t .pass s = _
    rw [execTlook, onStore_pass]
  case lanes =>
    dsimp only at hclear ⊢
    split
    · next hn =>
      rw [hn]
      exact Tile.idle_lanes ..
    · next hn =>
      rw [Tile.actives_eq, bne_iff_ne.2 hn, Bool.true_and, ← Tile.readsMark_or]
      refine (Effect.Lanes.reading (Tile.laneEffect_map (fun k hk _ => ?_) [] [] 4) ⟨rfl, rfl⟩ rfl hclear _).readingStore _
      split
      · rw [Tile.scale_getD tl i.opd2 hk]
      · rfl

end Sys2Proof.Machine
end

section
/-! SUPPORT. Ingest items (O40): the list at event 3, the engine, one block, a laid-out segment, and a raw payload (R266-R277). -/

namespace Sys2Proof.Machine

/-- Item `i` runs, with run `r` at its segment `g`. -/
structure State.AtSegment (s : State) (item : Nat) (i : Item) (r : IngestRun) (g : Segment) : Prop where
  item : s.item item = some i
  run : i.ingest = some r
  segment : r.segs[r.seg]? = some g
  phase : i.phase = .running

/-- An ingest item at event 3 that no inbox command of its function holds back reads its list, and passes or is rejected by it. -/
theorem ingest_passes {s v : State} {fn ring : Nat} {i : Item} {d bytes : List Byte} {m : Bool} {gs : List (List Byte × Segment)}
    (h : s.passes3 fn ring i d tyIngest = true)
    (hbefore : s.items.any (fun j => j.fn == i.fn && j.list.isSome && j.type == tyIngestCmd && j.phase == .running) = false)
    (hread : (s.pass3 i.id .passed3).takeFor fn (descList d) (128 * descCount d) = (bytes, m, v))
    (hgs : gs = (List.range (descCount d)).map (fun k => ((bytes.drop (128 * k)).take 128, Segment.ofBytes ((bytes.drop (128 * k)).take 128)))) :
    exec (.ingest fn ring) s = .next (s.accepted (((v.consumed i.id m).ingestCause fn gs).elim
      (((v.consumed i.id m).modItem i.id (fun y =>
        { y with phase := .passed4, ingest := some ((v.consumed i.id m).ingestRun fn (gs.map Prod.snd)) })).takeSlots i.id (tablesMask (gs.map Prod.snd)))
      ((v.consumed i.id m).reject i.id))) := by
  show execIngest fn ring s = _
  unfold execIngest
  rw [onEvent3_passes h rfl (by rw [hbefore]; rfl), State.accepting_next]
  simp only [hread, ← hgs]
  cases (v.consumed i.id m).ingestCause fn gs <;> rfl

/-- An item past event 4 takes its credits and starts on an idle engine. -/
theorem ingestArm_idle {s : State} {item e : Nat} {i : Item} {r : IngestRun} (he : e < 4) (hi : s.item item = some i) (hr : i.ingest = some r)
    (hphase : i.phase = .passed4) (hidle : s.engineBusy e = false) (hfit : s.creditsFit i r.credits = true) : exec (.ingestArm item e) s =
      .next ((s.takeCredits i.fn item r.credits).modItem item (fun i => { i with phase := .running, ingest := some { r with engine := some e } })) := by
  show execIngestArm item e s = _
  unfold execIngestArm
  rw [onUnit_ok (decide_eq_true he)]
  simp only [hi, hr]
  exact whenever_pos (by simp [hphase, hidle, hfit])

/-- After a bad header nothing of the segment is read. -/
theorem ingestBlockDecode_notReached {s : State} {item : Nat} {i : Item} {r : IngestRun} {g : Segment} (h : s.AtSegment item i r g)
    (hblock : r.block < g.blocks) (hgone : r.gone = false) (hlost : r.lost = true) : exec (.ingestBlockDecode item) s =
      .next (s.accepted ((s.blockResult i r g resNotReached 0).1.afterBlock i g (s.blockResult i r g resNotReached 0).2)) := by
  show execIngestBlockDecode item s = _
  unfold execIngestBlockDecode
  simp [h.item, h.run, h.segment, h.phase, Nat.not_le.2 hblock, hgone, hlost]

/-- Every byte of a segment that follows no inbox has arrived. -/
theorem State.hasArrived_of_all {s : State} {r : IngestRun} {k : Nat} (h : s.arrivedTo r k = none) (e : Nat) : s.hasArrived r k e = true := by
  unfold State.hasArrived
  rw [h]

/-- The next block of a segment whose bytes are all there, with its header in the staging range. -/
theorem ingestBlockDecode_arrived {s v w : State} {item n : Nat} {i : Item} {r : IngestRun} {g : Segment} {hd pl : List Byte} {hm pm : Bool}
    (h : s.AtSegment item i r g) (hblock : r.block < g.blocks) (hgone : r.gone = false) (hlost : r.lost = false) (hover : r.overrun = false)
    (harrived : s.arrivedTo r r.seg = none) (hinside : r.at_ + 32 ≤ g.src + g.srcBytes) (hhead : s.takeFor i.fn r.at_ 32 = (hd, hm, v))
    (hn : n = min (leAt hd 0x14 4) (g.src + g.srcBytes - (r.at_ + 32))) (hpay : v.takeFor i.fn (r.at_ + 32) n = (pl, pm, w)) :
    exec (.ingestBlockDecode item) s = .next (s.accepted (
      let o := w.decodeBlock i r g hd pl (hm || pm)
      let x := w.blockRef i (BlockHeader.ofBytes hd)
      let y := if o.code = resOk then x.storeFor i.fn ((if g.layout then g.work else g.dst) + r.outSum) o.bytes else x
      let z := y.blockResult i (r.noteSlot (BlockHeader.ofBytes hd)) g o.code o.gen
      z.1.afterBlock i g { z.2 with at_ := o.nextAt, outSum := r.outSum + o.size, lost := o.bad, overrun := o.beyond })) := by
  subst hn
  show execIngestBlockDecode item s = _
  unfold execIngestBlockDecode
  simp [h.item, h.run, h.segment, h.phase, Nat.not_le.2 hblock, hgone, hlost, hover, hinside, State.hasArrived_of_all harrived, hhead, hpay]

/-- A `LAYOUT` segment whose blocks are all decoded writes its columns when every result is `OK`, then its result words. -/
theorem layoutWrite_decoded {s : State} {item : Nat} {i : Item} {r : IngestRun} {g : Segment} (h : s.AtSegment item i r g)
    (hlayout : g.layout = true) (hblocks : g.blocks ≤ r.block) : exec (.layoutWrite item) s = .next (s.accepted (
      let v := if (finalWords r.results).all (fun w => w % 256 == resOk) then (s.layoutAll item i.fn g).bump Fld.ingestStatBlocksOk i.fn g.blocks else s
      (if g.statusOut = 0 then v else v.storeFor i.fn g.statusOut ((finalWords r.results).flatMap (leBytes 4))).setRun item r.nextSeg)) := by
  show execLayoutWrite item s = _
  unfold execLayoutWrite
  simp only [h.item, h.run, h.segment, h.phase, hlayout, Option.bind_some, bne_self_eq_false, Bool.not_true, Bool.or_self, Bool.false_or, decide_eq_true_eq, Nat.not_lt.2 hblocks,
    if_false, State.accepting_next]

/-- A payload of a fixed table decodes to itself when it has the length that the header gives (R273, R274). -/
theorem decodePayload_fixed (h : BlockHeader) (p : List Byte) : decodePayload h none p =
    if p.length = h.out then (resOk, p) else if h.out < p.length then (resOverrun, []) else (resUnderrun, []) := by
  unfold decodePayload
  rcases Nat.lt_trichotomy p.length h.out with hlt | heq | hgt
  · rw [if_neg (Nat.lt_asymm hlt), if_pos hlt, if_neg (Nat.ne_of_lt hlt), if_neg (Nat.lt_asymm hlt)]
  · rw [heq, if_neg (Nat.lt_irrefl _), if_neg (Nat.lt_irrefl _), if_pos rfl]
  · rw [if_pos hgt, if_neg (Nat.ne_of_gt hgt), if_pos hgt]

/-- Settles O40: one lemma per command, each under the conditions that the statement lists. -/
theorem ingestItemsArmDecodeAndWrite : Obligations.IngestItemsArmDecodeAndWrite := by
  unfold Obligations.IngestItemsArmDecodeAndWrite
  refine ⟨fun s v fn ring n i d bytes m gs h hbefore hn hread hgs => ?list, fun s item e i r he hi hr hphase hidle hfit => ?arm,
    fun s v w x y item n out i r g hd pl hm pm o hi hr hg hphase hblock hgone => ?block,
    fun s v item i r g hi hr hg hphase hlayout hblocks hv => ?layout, fun h p _ => decodePayload_fixed h p⟩
  case list =>
    subst hn
    rw [ingest_passes h hbefore hread hgs]
    exact ⟨fun hc => by rw [hc, Option.elim_none], fun c hc => by rw [hc, Option.elim_some]⟩
  case arm => exact ingestArm_idle he hi hr hphase hidle hfit
  case block =>
    have h : s.AtSegment item i r g := ⟨hi, hr, hg, hphase⟩
    refine ⟨ingestBlockDecode_notReached h hblock hgone, fun hlost hover harrived hinside hhead hn hpay ho hx hout hy => ?_⟩
    subst hout hy hx ho
    exact ingestBlockDecode_arrived h hblock hgone hlost hover harrived hinside hhead hn hpay
  case layout =>
    subst hv
    exact layoutWrite_decoded ⟨hi, hr, hg, hphase⟩ hlayout hblocks

end Sys2Proof.Machine
end

section
/-! SUPPORT. Forwarded bytes (O41): the next piece of a staging range, and a write that reaches an inbox (R286-R289). -/

namespace Sys2Proof.Machine

/-- Item `i` runs and forwards, with run `r`, whose next piece is of segment `k`, which is `g`, from offset `off`, of up to `room` bytes. -/
structure State.Forwards (s : State) (item : Nat) (i : Item) (r : IngestRun) (k : Nat) (g : Segment) (off room : Nat) : Prop where
  item : s.item item = some i
  run : i.ingest = some r
  phase : i.phase = .running
  going : r.stopForward = false
  piece : s.forwardNext r = some (k, g, off, room)

section
variable {s : State} {item k off room : Nat} {i : Item} {r : IngestRun} {g : Segment}

/-- An item whose port is unreachable stops forwarding (R287). -/
theorem ingestForward_unreachable (h : s.Forwards item i r k g off room) (hport : s.portUnreachable g.fwdPort = true) :
    exec (.ingestForward item) s = .next (s.accepted (s.stopForward item)) := by
  show execIngestForward item s = _
  unfold execIngestForward
  simp [h.item, h.run, h.phase, h.going, h.piece, hport]

/-- A piece goes to the port's peer in one packet, and is counted unless the packet is lost. -/
theorem ingestForward_sends {v w : State} {c : Nat} {bytes : List Byte} {m lost : Bool} (h : s.Forwards item i r k g off room)
    (hport : s.portUnreachable g.fwdPort = false) (hpeer : s.portPeer g.fwdPort = some c) (hroom : 0 < room)
    (hcredits : s.onFirstHop item g.fwdPort < 16) (hread : s.takeFor i.fn (g.src + off) (s.sameMark (g.src + off) room) = (bytes, m, v))
    (hsent : (v.consumed item m).inject (Packet.make c (v.consumed item m).chipId .bulk i.fn k .inboxWrite 0 0 0
      [item, g.fwdInbox, g.fwdGen, g.fwdOff + off] bytes m) (some g.fwdPort) = (w, lost)) :
    exec (.ingestForward item) s = .next (s.accepted (if lost then w.stopForward item
      else w.setRun item { r with forwarded := listSet r.forwarded k (off + s.sameMark (g.src + off) room), unanswered := r.unanswered + 1 })) := by
  have hblocked : ¬(room = 0 ∨ 16 ≤ s.onFirstHop item g.fwdPort) := by omega
  show execIngestForward item s = _
  unfold execIngestForward
  cases lost <;> simp [h.item, h.run, h.phase, h.going, h.piece, hport, hpeer, hblocked, hread, hsent]

end

/-- A write to an inbox that is not open is rejected with reason 1 (R287). -/
theorem State.inboxReject_closed {s : State} {n : Nat} (h : Tab.get none s.inboxes n = none) (l gen off len : Nat) :
    s.inboxReject l n gen off len = some 1 := by
  unfold State.inboxReject
  rw [h]

/-- A write of the inbox's generation that ends within it and comes from its source port is taken (R287, R320). -/
theorem State.inboxReject_taken {s : State} {l n gen off len : Nat} {x : Inbox} (hopen : Tab.get none s.inboxes n = some x)
    (hwhole : s.flag Fld.inboxStatBroken n = false) (hgen : s.fld Fld.inboxStatGen n = gen) (hfits : off + len ≤ x.size)
    (hport : s.portOf l = some x.port) : s.inboxReject l n gen off len = none := by
  unfold State.inboxReject
  simp [hopen, hwhole, hgen, Nat.not_lt.2 hfits, hport]

section
variable {s : State} {l : Nat} {p : Packet} {rest : List (Nat × Packet)}

/-- A forwarded write that is rejected writes nothing. -/
theorem inboxWriteReceive_rejected {why : Nat} (hawake : s.inP0 = true)
    (hfirst : takeFirst s.inbound (fun p => p.kind == .inboxWrite) = some ((l, p), rest))
    (hwhy : s.inboxReject l (p.aux.getD 1 8) (p.aux.getD 2 0) (p.aux.getD 3 0) p.payload.length = some why) :
    exec .inboxWriteReceive s = .next (s.accepted (({ s with inbound := rest } : State).replyInbox p 4 why)) := by
  have hwhy' : ({ s with inbound := rest } : State).inboxReject l (p.aux.getD 1 8) (p.aux.getD 2 0) (p.aux.getD 3 0) p.payload.length = some why := hwhy
  show execInboxWriteReceive s = _
  unfold execInboxWriteReceive
  simp only [hfirst, onAwake_p0 hawake, State.accepting_next, hwhy']

/-- A forwarded write that is taken is written at its offset and acknowledged. -/
theorem inboxWriteReceive_taken {x : Inbox} (hawake : s.inP0 = true)
    (hfirst : takeFirst s.inbound (fun p => p.kind == .inboxWrite) = some ((l, p), rest))
    (hopen : Tab.get none s.inboxes (p.aux.getD 1 8) = some x)
    (htaken : s.inboxReject l (p.aux.getD 1 8) (p.aux.getD 2 0) (p.aux.getD 3 0) p.payload.length = none) :
    exec .inboxWriteReceive s = .next (s.accepted
      (((({ s with inbound := rest } : State).protectedWrite baseContext (x.base + p.aux.getD 3 0) p.payload p.poison).inboxWritten (p.aux.getD 1 8)
        (p.aux.getD 3 0) p.payload.length).replyInbox p 1 0)) := by
  have htaken' : ({ s with inbound := rest } : State).inboxReject l (p.aux.getD 1 8) (p.aux.getD 2 0) (p.aux.getD 3 0) p.payload.length = none := htaken
  show execInboxWriteReceive s = _
  unfold execInboxWriteReceive
  simp only [hfirst, onAwake_p0 hawake, State.accepting_next, htaken', hopen, Option.map_some, Option.getD_some]

end

/-- Settles O41: a piece is sent or its item stops; a write is rejected or taken by what `State.inboxReject` says of its inbox. -/
theorem inboxesCarryForwardedBytes : Obligations.InboxesCarryForwardedBytes := by
  unfold Obligations.InboxesCarryForwardedBytes
  refine ⟨fun s v w item k off room n c i r g bytes m lost hi hr hphase hgoing hpiece hn => ?forward,
    fun s v l n gen off p rest hawake hfirst hn hgen hoff hv => ?receive⟩
  case forward =>
    subst hn
    have h : s.Forwards item i r k g off room := ⟨hi, hr, hphase, hgoing, hpiece⟩
    exact ⟨ingestForward_unreachable h, ingestForward_sends h⟩
  case receive =>
    subst hn hgen hoff hv
    exact ⟨fun hclosed => inboxWriteReceive_rejected hawake hfirst (State.inboxReject_closed hclosed ..),
      fun x hopen hwhole hgen hfits hport =>
        inboxWriteReceive_taken hawake hfirst hopen (State.inboxReject_taken hopen hwhole hgen hfits hport)⟩

end Sys2Proof.Machine
end

section
/-! SUPPORT. The front of the queue (O1), eligible links (O43), and what the commands of one link's training and codewords answer (O44). -/

namespace Sys2Proof.Machine

/-! ## The queue -/

/-- Settles O1: a step is `exec` of the command taken out; with none it idles. -/
theorem stepRunsFrontCommand : Obligations.StepRunsFrontCommand := by
  unfold Obligations.StepRunsFrontCommand
  refine ⟨fun c rest s => rfl, fun s hempty => ?_⟩
  unfold step
  rw [hempty]

/-! ## Ports (R298, R304) -/

/-- A link belongs to a valid port exactly when some valid port names it. -/
theorem State.portOf_isSome {s : State} {l : Nat} : (s.portOf l).isSome = true ↔ ∃ p, p < 20 ∧ s.portValid p = true ∧ l ∈ s.portLinks p := by
  simp [State.portOf, List.find?_isSome]

/-- Settles O43: the mask bit, and the port that `State.portOf` finds. -/
theorem linkIsEligibleInAValidPort : Obligations.LinkIsEligibleInAValidPort := by
  unfold Obligations.LinkIsEligibleInAValidPort
  intro s l
  rw [State.linkEligible, Bool.and_eq_true, State.portOf_isSome, State.linkMasked]

theorem State.portValid_iff {s : State} {p : Nat} : s.portValid p = true ↔
    1 ≤ (s.portLinks p).length ∧ (s.portLinks p).length ≤ 15 ∧ ((∀ l ∈ s.portLinks p, 15 ≤ l) ∨ (∀ l ∈ s.portLinks p, l < 15)) ∧
      ∀ q l, q < 20 → q ≠ p → l ∈ s.portLinks p → l ∉ s.portLinks q := by
  have hothers : ((List.range 20).all fun q => q == p || (s.portLinks q).all fun l => !(s.portLinks p).contains l) = true ↔
      ∀ q l, q < 20 → q ≠ p → l ∈ s.portLinks p → l ∉ s.portLinks q := by
    simp only [List.all_eq_true, List.mem_range, Bool.or_eq_true, beq_iff_eq, Bool.not_eq_true', List.contains_eq_mem, decide_eq_false_iff_not]
    exact ⟨fun h q l hq hne hp hl => (h q hq).elim hne fun hall => hall l hl hp,
      fun h q hq => or_iff_not_imp_left.2 fun hne l hl hp => h q l hq hne hp hl⟩
  simp only [State.portValid, Bool.and_eq_true, hothers, and_assoc]
  simp [globalLink, Nat.one_le_iff_ne_zero]

/-! ## Training (R293, R299) -/

section
variable {s : State} {l : Nat} {tr : Training}

theorem State.mem_goodLanes {n : Nat} : n ∈ s.goodLanes l tr ↔
    n < 5 ∧ s.lane l n ≠ 2 ∧ 0 < (tr.measured.getD n (0, 0)).2 ∧ (tr.measured.getD n (0, 0)).1 * 100000 ≤ (tr.measured.getD n (0, 0)).2 := by
  simp only [State.goodLanes, laneQualifies, List.mem_filter, List.mem_range, Bool.and_eq_true, decide_eq_true_eq, bne_iff_ne]
  tauto

theorem trainingLocks_iff : trainingLocks tr = true ↔ tr.fecLocks = true ∧ tr.skewNs ≤ 20 := by
  simp [trainingLocks]

/-- An eligible link that is disabled, with power, begins its bring-up. -/
theorem State.startBringup_begins (he : s.linkEligible l = true) (hp : s.linksPowered = true) (hst : s.linkState l = 0) :
    s.startBringup l = (s.setLink l { s.link l with event := 1, failedRetrains := 0 }).setFld Fld.linkStatState l 1 := by
  simp [State.startBringup, he, hp, hst]

theorem State.startBringup_of_not_eligible (he : s.linkEligible l = false) : s.startBringup l = s := by
  simp [State.startBringup, he]

theorem linkBringup_eq (hl : l < 20) : exec (.linkBringup l) s = .next (s.startBringup l) :=
  onUnit_ok (decide_eq_true hl)

/-- What follows where a unit is in the state that an event asks for. -/
theorem onUnit_whenever {ok c : Bool} {w : String} {s t : State} (hok : ok = true) (hc : c = true) : onUnit ok w (whenever c s t) = .next t :=
  (onUnit_ok hok).trans (whenever_pos hc)

/-- The lanes of a link in training are measured: four good ones are chosen, and fewer fail the attempt. -/
theorem linkSignalDetect_eq (hl : l < 20) (hm : tr.measured.length = 5) (hst : s.linkState l = 1) (hev : (s.link l).event = 1) :
    exec (.linkSignalDetect l tr) s = .next (if (s.goodLanes l tr).length < 4 then s.attemptFails l
      else let v := s.chooseLanes l (s.goodLanes l tr)
        if trainingLocks tr then v.setLink l { v.link l with event := 4 } else v) :=
  onUnit_whenever (by simp [hl, hm]) (by simp [hst, hev])

theorem linkIdentityExchange_eq {x : PeerIdentity} (hl : l < 20) (hst : s.linkState l = 1) (hev : (s.link l).event = 4) :
    exec (.linkIdentityExchange l x) s = .next (s.exchange l x) :=
  onUnit_whenever (decide_eq_true hl) (by simp [hst, hev])

/-- An attempt that fails starts again at event 1, and the third in a row stops the link. -/
theorem State.attemptFails_eq {v : State}
    (hv : v = (s.setLink l { s.link l with event := 1, failedRetrains := (s.link l).failedRetrains + 1 }).setFlag Fld.linkStatMismatch l false) :
    s.attemptFails l = if 2 ≤ (s.link l).failedRetrains then v.stopLink l 4 else if v.linkState l = 3 then v.bump Fld.linkErrRetrains l 1 else v := by
  subst hv
  simp only [State.attemptFails, show (3 ≤ (s.link l).failedRetrains + 1) = (2 ≤ (s.link l).failedRetrains) by simp]

/-! ## Retraining (R296) -/

theorem linkRetrain_eq (hl : l < 20) (hst : s.linkState l = 2) (hrun : max 1 (s.fld Fld.linkCtlRetryLimit 0) ≤ (s.link l).nakRun) :
    exec (.linkRetrain l) s = .next (s.retrain l) :=
  onUnit_whenever (decide_eq_true hl) (Bool.and_eq_true_iff.2 ⟨beq_iff_eq.2 hst, decide_eq_true hrun⟩)

theorem linkRetrainComplete_exchanges {x : PeerIdentity} (hl : l < 20) (hm : tr.measured.length = 5) (hst : s.linkState l = 3)
    (hgood : 4 ≤ (s.goodLanes l tr).length) (hlock : trainingLocks tr = true) :
    exec (.linkRetrainComplete l tr (some x)) s = .next ((s.chooseLanes l (s.goodLanes l tr)).exchange l x) := by
  refine (onUnit_whenever (by simp [hl, hm]) (beq_iff_eq.2 hst)).trans ?_
  simp [Nat.not_lt.2 hgood, hlock]

theorem linkRetrainComplete_fails (hl : l < 20) (hm : tr.measured.length = 5) (hst : s.linkState l = 3) :
    exec (.linkRetrainComplete l tr none) s = .next (s.attemptFails l) :=
  onUnit_whenever (by simp [hl, hm]) (beq_iff_eq.2 hst)

end

/-! ## Codewords received (R295) -/

section
variable {s v w : State} {l : Nat} {cw : Codeword}

theorem Codeword.bad_iff : Codeword.bad cw = true ↔ Codeword.decodes cw = false ∨ ∃ p ∈ cw.packets, p.crc ≠ p.crcOf := by
  simp [Codeword.bad, Packet.crcOk]

theorem Codeword.good_iff : Codeword.bad cw = false ↔ Codeword.decodes cw = true ∧ ∀ p ∈ cw.packets, p.crc = p.crcOf := by
  simp [Codeword.bad, Packet.crcOk]

/-- A bad codeword: it and every later one are discarded until the resent copy arrives. -/
theorem linkCodewordReceive_bad (hl : l < 20) (hw : cw.wf = true) (hst : s.linkState l = 2) (hbad : Codeword.bad cw = true)
    (hv : v = (s.countSymbols l (Codeword.corrected cw)).bump Fld.linkErrUncorr l 1) :
    exec (.linkCodewordReceive l cw) s = .next (v.setLink l { v.link l with discarding := true, nakDue := true, missed := 0 }) := by
  subst hv
  refine (onUnit_whenever (by simp [hl, hw]) (beq_iff_eq.2 hst)).trans ?_
  simp only [hbad, if_true]

/-- A good codeword is taken in its order when its packets find buffers. -/
theorem linkCodewordReceive_good (hl : l < 20) (hw : cw.wf = true) (hst : s.linkState l = 2) (hgood : Codeword.bad cw = false)
    (hv : v = (s.countSymbols l (Codeword.corrected cw)).linkHeader l cw) :
    exec (.linkCodewordReceive l cw) s = .next (if cw.seq % 512 = (v.link l).expect % 512 then
      if v.buffersFor l cw.packets then v.setLink l
        ({ v.link l with expect := (v.link l).expect + 1, discarding := false, arrived := (v.link l).arrived ++ cw.packets }.handBack cw.credits)
      else v.setLink l { v.link l with discarding := true, nakDue := true, missed := 0 }
    else v.setLink l ((v.link l).outOfOrder cw.seq)) := by
  subst hv
  refine (onUnit_whenever (by simp [hl, hw]) (beq_iff_eq.2 hst)).trans ?_
  simp only [hgood, Bool.false_eq_true, if_false]

end

section
variable {k : Link} {seq ahead : Nat}

/-- A copy of a codeword that has come before asks for nothing. -/
theorem Link.outOfOrder_before (ha : ahead = (seq % 512 + 512 - k.expect % 512) % 512) (hd : k.discarding = false) (hfar : 255 ≤ ahead) :
    k.outOfOrder seq = k := by
  have hnot : ¬ (seq % 512 + 512 - k.expect % 512) % 512 < 255 := by omega
  simp [Link.outOfOrder, hd, hnot]

/-- The first codeword beyond a gap, and every 256th discarded, makes a `NAK` due. -/
theorem Link.outOfOrder_naks (ha : ahead = (seq % 512 + 512 - k.expect % 512) % 512)
    (h : (k.discarding = false ∧ ahead < 255) ∨ (k.discarding = true ∧ 255 ≤ k.missed)) :
    k.outOfOrder seq = { k with discarding := true, nakDue := true, missed := 0 } := by
  rcases h with ⟨hd, hnear⟩ | ⟨hd, hmissed⟩
  · simp [Link.outOfOrder, hd, ← ha, hnear]
  · simp [Link.outOfOrder, hd, hmissed]

theorem Link.outOfOrder_waits (hd : k.discarding = true) (hmissed : k.missed < 255) : k.outOfOrder seq = { k with missed := k.missed + 1 } := by
  simp [Link.outOfOrder, hd, Nat.not_le.2 hmissed]

end

/-- Settles O44: each clause is what one of the commands above answers in its case. -/
theorem linksTrainAndCarryCodewords : Obligations.LinksTrainAndCarryCodewords := by
  unfold Obligations.LinksTrainAndCarryCodewords
  refine ⟨fun s p hp => State.portValid_iff, fun s l hl => ⟨fun he hp hst => ?begins, fun he => ?stays⟩, fun s l tr hl hm hst hev => ?detect,
    fun s l tr n => State.mem_goodLanes, fun s v l x hl hst hev hv => ?identity, fun s v b w l cw hl hlen hok hst hv hb hw => ?codeword,
    fun s l hl hst hrun => ?retrain, fun s l tr hl hm hst => ⟨fun x hgood hfec hskew => ?completes, linkRetrainComplete_fails hl hm hst⟩,
    fun s v l hv => ?fails⟩
  case begins => rw [linkBringup_eq hl, State.startBringup_begins he hp hst]
  case stays => rw [linkBringup_eq hl, State.startBringup_of_not_eligible he]
  case detect =>
    rw [linkSignalDetect_eq hl hm hst hev]
    exact ⟨fun hgood => by simp only [if_neg (Nat.not_lt.2 hgood), trainingLocks_iff], fun hfew => by rw [if_pos hfew]⟩
  case identity => rw [linkIdentityExchange_eq hl hst hev, hv]; rfl
  case codeword =>
    subst hv
    have hwf : cw.wf = true := Bool.and_eq_true_iff.2 ⟨decide_eq_true hlen, List.all_eq_true.2 hok⟩
    refine ⟨fun hbad => linkCodewordReceive_bad hl hwf hst (Codeword.bad_iff.2 hbad) hb, fun hdec hcrc => ?_⟩
    rw [linkCodewordReceive_good hl hwf hst (Codeword.good_iff.2 ⟨hdec, hcrc⟩) hw]
    refine ⟨fun hseq hroom => by rw [if_pos hseq, if_pos hroom], fun hseq hfull => by rw [if_pos hseq, hfull]; rfl, fun k ahead hk ha hpos hlt => ?_⟩
    subst hk
    have hseq : ¬ cw.seq % 512 = (w.link l).expect % 512 := by omega
    simp only [if_neg hseq]
    exact ⟨fun hd hfar => by rw [Link.outOfOrder_before ha hd hfar], fun h => by rw [Link.outOfOrder_naks ha h],
      fun hd hmissed => by rw [Link.outOfOrder_waits hd hmissed]⟩
  case retrain =>
    rw [linkRetrain_eq hl hst hrun]
    exact ⟨fun hopen => by simp [State.retrain, hopen], fun hclosing => by simp [State.retrain, hclosing, State.disableLink]⟩
  case completes => exact linkRetrainComplete_exchanges hl hm hst hgood (trainingLocks_iff.2 ⟨hfec, hskew⟩)
  case fails =>
    rw [State.attemptFails_eq hv]
    exact ⟨fun h => if_pos h.ge, fun h h3 => by rw [if_neg (Nat.not_le.2 h), if_pos h3], fun h h1 => by rw [if_neg (Nat.not_le.2 h), if_neg (by omega)]⟩

end Sys2Proof.Machine
end

section
/-! SUPPORT. The symbols of a codeword on its lanes, and lane sparing (O45, first part). -/

namespace Sys2Proof.Machine

/-! ## The code (R294) -/

theorem polyTimes_length (p : List Nat) (r : Nat) : (polyTimes p r).length = p.length + 1 := by simp [polyTimes]

theorem rsGenerator_length : ∀ (n r : Nat) (p : List Nat), (rsGenerator n r p).length = p.length + n
  | 0, _, _ => rfl
  | n + 1, r, p => by rw [rsGenerator, rsGenerator_length n, polyTimes_length]; omega

theorem rsShift_length {g par : List Nat} (h : g.length = par.length) (hpos : 0 < par.length) (m : Nat) : (rsShift g par m).length = par.length := by
  simp [rsShift, h]; omega

/-- The remainder's register keeps the length of the generator. -/
theorem rsFold_length {g : List Nat} (hg : 0 < g.length) : ∀ (data par : List Nat), par.length = g.length → (data.foldl (rsShift g) par).length = g.length
  | [], _, h => h
  | m :: data, _, h => rsFold_length hg data _ ((rsShift_length h.symm (h ▸ hg) m).trans h)

theorem rsParity_length (data : List Nat) : (rsParity data).length = 30 := by
  have hg : ((rsGenerator 30 1 [1]).drop 1).length = 30 := by rw [List.length_drop, rsGenerator_length]; rfl
  exact (rsFold_length (by omega) data _ (by rw [hg, List.length_replicate])).trans hg

namespace SentCodeword

variable (c : SentCodeword)

theorem symbols_length : c.symbols.length = 544 := by simp [symbols, rsParity_length]

theorem laneSymbols_length (n : Nat) : (c.laneSymbols n).length = 136 := by simp [laneSymbols]

/-- Symbol i travels at position i mod 4. -/
theorem laneSymbols_getD {i : Nat} (hi : i < 544) : (c.laneSymbols (i % 4)).getD (i / 4) 0 = c.symbols.getD i 0 := by
  have hpos : i / 4 < (c.laneSymbols (i % 4)).length := by rw [laneSymbols_length]; omega
  rw [List.getD_eq_getElem _ _ hpos]
  simp only [laneSymbols, List.getElem_map, List.getElem_range]
  rw [show 4 * (i / 4) + i % 4 = i by omega]

theorem symbols_data {i : Nat} (hi : i < 514) : c.symbols.getD i 0 = c.data / 2 ^ (10 * i) % 2 ^ 10 := by
  have hpos : i < c.symbols.length := by rw [symbols_length]; omega
  rw [List.getD_eq_getElem _ _ hpos]
  simp only [symbols]
  rw [List.getElem_append_left (by simpa using hi), List.getElem_map, List.getElem_range, bitsOf]

theorem header_eq : c.header = c.seq % 512 + 2 ^ 9 * (c.ack % 512) + 2 ^ 18 * (if c.ackv then 1 else 0) + 2 ^ 19 * (if c.nak then 1 else 0) := by
  rw [header]
  cases c.ackv <;> cases c.nak <;> simp

theorem header_lt : c.header < 2 ^ 20 := by
  rw [header_eq]
  split <;> split <;> omega

theorem data_mod : c.data % 2 ^ 20 = c.header := by
  rw [data, Nat.add_mul_mod_self_left, Nat.mod_eq_of_lt c.header_lt]

theorem data_div : c.data / 2 ^ 20 = leNat (c.flits.flatMap fun f => f.bytes) := by
  rw [data, Nat.add_mul_div_left _ _ (Nat.two_pow_pos 20), Nat.div_eq_of_lt c.header_lt, Nat.zero_add]

end SentCodeword

/-! ## Links after an update -/

theorem State.link_setLink_self {s : State} (h : Tab.sorted s.links = true) (l : Nat) (k : Link) : (s.setLink l k).link l = k := Tab.get_set_self h

theorem State.link_setLink_other {s : State} (h : Tab.sorted s.links = true) {l m : Nat} (hm : m ≠ l) (k : Link) : (s.setLink l k).link m = s.link m :=
  Tab.get_set_other h hm

/-! ## Lane sparing (R297) -/

section
variable {s v : State} {l n : Nat}

theorem laneSwitchRequest_asks (hl : l < 20) (hn : n < 5) (hst : s.linkState l = 2) (hlane : s.lane l n = 0) (hauto : s.flag Fld.linkCtlAutoSpare 0 = true)
    (hnone : (s.link l).switch = none) (hspare : s.lanesIn l 1 ≠ []) (hover : s.fld Fld.linkCtlSymThresh 0 < s.windowSymbols l n)
    (hroom : s.mgmtFull l = false) (hv : v = s.setLink l { s.link l with switch := some ⟨n, ((s.link l).sent + 16) % 512, false⟩ }) :
    exec (.laneSwitchRequest l n) s = .next (v.enqueue l 20
      (Packet.make (v.fld Fld.linkStatPeerChip l) v.chipId .mgmt 0 0 .laneSwitch 0 0 0 [n, ((s.link l).sent + 16) % 512] [] false)) := by
  subst hv
  exact onUnit_whenever (by simp [hl, hn]) (by simp [hst, hlane, hauto, hnone, hspare, hover, hroom])

theorem laneSwitchRequestReceive_takes {e : Nat × Packet} (hl : l < 20) (hst : s.linkState l = 2)
    (hfirst : s.inbound.find? (fun e => e.1 == l && e.2.kind == .laneSwitch) = some e) (hnone : (s.link l).switch = none)
    (hv : v = { s with inbound := s.inbound.erase e }) :
    exec (.laneSwitchRequestReceive l) s = .next (v.setLink l { s.link l with switch := some ⟨e.2.aux.getD 0 0 % 5, e.2.aux.getD 1 0, true⟩ }) := by
  subst hv
  have hup : ({ s with inbound := s.inbound.erase e } : State).linkState l = 2 := hst
  have hopen : (({ s with inbound := s.inbound.erase e } : State).link l).switch = none := hnone
  refine (onUnit_ok (decide_eq_true hl)).trans ?_
  simp only [hfirst, hup, hopen]
  rfl

theorem laneSwitch_switches {sp : Nat} {r : List Nat} {w : LaneSwitchAt} (hl : l < 20) (hst : s.linkState l = 2) (hsw : (s.link l).switch = some w)
    (hreached : (s.link l).switchReached w = true) (hv : v = s.setLink l { s.link l with switch := none }) (hspare : v.lanesIn l 1 = sp :: r)
    (hlane : v.lane l w.lane = 0) : exec (.laneSwitch l) s = .next (v.switchLane l w.lane sp) := by
  subst hv
  refine (onUnit_ok (decide_eq_true hl)).trans ?_
  simp only [hsw]
  rw [whenever_pos (by simp [hst, hreached])]
  simp only [hspare, hlane, if_true]

/-- The answer to a lock loss is decided by the spare. -/
theorem laneLockLoss_eq (hl : l < 20) (hn : n < 5) (hst : s.linkState l = 2) (hlane : s.lane l n = 0) : exec (.laneLockLoss l n) s =
    .next (match s.lanesIn l 1 with
      | sp :: _ => s.switchLane l n sp
      | [] => s.retrain l) :=
  onUnit_whenever (by simp [hl, hn]) (by simp [hst, hlane])

theorem spareLaneStopsQualifying_fails {sp : Nat} {r : List Nat} (hl : l < 20) (hst : s.linkState l = 2) (hspare : s.lanesIn l 1 = sp :: r) :
    exec (.spareLaneStopsQualifying l) s = .next (s.failLane l sp) := by
  refine (onUnit_ok (decide_eq_true hl)).trans ?_
  simp only [hst, hspare, if_true]

end

end Sys2Proof.Machine
end

section
/-! SUPPORT. The stream of codewords that a link sends, and the packets received in order (O45). -/

namespace Sys2Proof.Machine

/-! ## The stream (R294-R296) -/

section
variable {s v : State} {l : Nat}

theorem linkPacketSend_eq (hl : l < 20) (hst : s.linkState l = 2) : exec (.linkPacketSend l) s = .next (s.linkStream l) :=
  onUnit_whenever (decide_eq_true hl) (beq_iff_eq.2 hst)

theorem State.linkStream_resends {n : Nat} {e : Nat × SentCodeword} (hresend : (s.link l).resend = some n)
    (hfirst : (s.link l).replay.find? (fun e => n ≤ e.1) = some e) :
    s.linkStream l = (s.setLink l { (s.link l).send e.1 e.2.flits e.2.credits with
      resend := ((s.link l).replay.find? (fun x => e.1 < x.1)).map Prod.fst }).bump Fld.linkErrRetries l 1 := by
  simp only [State.linkStream, hresend, State.resendCodeword, hfirst]

theorem State.linkStream_closes (hresend : (s.link l).resend = none) (hclosing : (s.link l).closing = true) : s.linkStream l = s.closeStream l := by
  simp only [State.linkStream, hresend, hclosing, if_true]

/-- With ten flits to be sent, or no packet that may go, the next codeword leaves. -/
theorem State.linkStream_codeword (hresend : (s.link l).resend = none) (hopen : (s.link l).closing = false)
    (h : 10 ≤ (s.link l).tx.length ∨ (s.link l).chosen = none) : s.linkStream l = s.newCodeword l := by
  simp only [State.linkStream, hresend, hopen, Bool.false_eq_true, if_false]
  rcases h with h | h
  · rw [if_pos h]
  · simp only [h, ite_self]

theorem State.linkStream_takes {port : Nat} {e : Nat × Packet} (hresend : (s.link l).resend = none) (hopen : (s.link l).closing = false)
    (htx : (s.link l).tx.length < 10) (hchosen : (s.link l).chosen = some e) (hport : s.portOf l = some port) (hv : v = s.takePacket l port e) :
    s.linkStream l = if 10 ≤ (v.link l).tx.length then v.newCodeword l else v := by
  subst hv
  simp only [State.linkStream, hresend, hopen, Bool.false_eq_true, if_false, if_neg (Nat.not_le.2 htx), hchosen, hport]

/-- The ten flits of a new codeword: those to be sent, and idle flits where there are fewer. -/
theorem codewordFlits_length (tx : List Flit) (f : Nat → Flit) : (tx.take 10 ++ (List.range (10 - tx.length)).map f).length = 10 := by
  simp; omega

theorem State.newCodeword_keeps (hroom : (s.link l).replay.length < 256) {fs : List Flit}
    (hfs : fs = (s.link l).tx.take 10 ++ (List.range (10 - (s.link l).tx.length)).map (fun i => idleFlit l (s.link l).sent ((s.link l).tx.length + i))) :
    s.newCodeword l = s.setLink l { s.link l with
      sent := (s.link l).sent + 1, tx := (s.link l).tx.drop 10, owed := [], nakDue := false
      out := some ⟨(s.link l).sent % 512, ((s.link l).expect + 511) % 512, decide (0 < (s.link l).expect), (s.link l).nakDue, fs, (s.link l).owed⟩
      replay := (s.link l).replay ++ [((s.link l).sent, ⟨(s.link l).sent % 512, ((s.link l).expect + 511) % 512, decide (0 < (s.link l).expect), (s.link l).nakDue, fs,
        (s.link l).owed⟩)] } := by
  subst hfs
  simp only [State.newCodeword, if_pos hroom]
  rfl

theorem State.newCodeword_idle (hfull : 256 ≤ (s.link l).replay.length) : s.newCodeword l = s.setLink l { s.link l with
    nakDue := false, out := some ⟨((s.link l).sent + 255) % 512, ((s.link l).expect + 511) % 512, decide (0 < (s.link l).expect), (s.link l).nakDue,
      (List.range 10).map (idleFlit l (s.link l).sent), []⟩ } := by
  simp only [State.newCodeword, if_neg (Nat.not_lt.2 hfull)]
  rfl

end

/-! ## The packet that goes next (R301, R307) -/

/-- A packet of this chip that is no `MGMT` packet takes the next number of its port and channel; nothing but the link, that number and the activity changes. -/
theorem State.takePacket_own {s : State} {l port : Nat} {e : Nat × Packet} (hsrc : e.1 = 20) (hvc : e.2.vc ≠ .mgmt) :
    ∃ k : Link, ∃ n : Nat, s.takePacket l port e = (({ s with
        pseqs := Tab.set 0 s.pseqs (4 * port + e.2.vc.code) ((Tab.get 0 s.pseqs (4 * port + e.2.vc.code) + 1) % 2 ^ 24) } : State).setLink l k).event n evFlit noRegion e.2.flits ∧
      k.queue = (s.link l).queue.erase e ∧
      k.tx = (s.link l).tx ++ ({ e.2 with pseq := Tab.get 0 s.pseqs (4 * port + e.2.vc.code), stage := e.2.stage + 1 } : Packet).flitList := by
  have hvc' : (e.2.vc == .mgmt) = false := beq_eq_false_iff_ne.2 hvc
  simp only [State.takePacket, stageAfter, State.oweCredit, hsrc, hvc', bne_iff_ne, ne_eq, not_false_eq_true, if_true,
    show ¬ (20 : Nat) < 20 by omega, show ¬ ((20 : Nat) = 21) by omega, if_false, Bool.false_eq_true]
  exact ⟨_, _, rfl, rfl, rfl⟩

namespace Link

variable {k : Link}

theorem nextVc_mgmt (h : k.heads .mgmt ≠ []) : k.nextVc = some .mgmt := by simp [nextVc, h]

theorem nextVc_bulk (hm : k.heads .mgmt = []) (hrun : 4 ≤ k.run) (h : k.heads .bulk ≠ []) : k.nextVc = some .bulk := by simp [nextVc, hm, hrun, h]

theorem nextVc_clasp (hm : k.heads .mgmt = []) (hturn : k.run < 4 ∨ k.heads .bulk = []) (h : k.heads .clasp ≠ []) : k.nextVc = some .clasp := by
  rcases hturn with hrun | hbulk
  · simp [nextVc, hm, Nat.not_le.2 hrun, h]
  · simp [nextVc, hm, hbulk, h]

end Link

/-! ## Packets received (R307, R308) -/

/-- The next packet that need not wait: a duplicate is discarded, and any other is delivered or forwarded. -/
theorem packetReceive_eq {s v w : State} {l port : Nat} {p : Packet} {old : List Nat} (hl : l < 20)
    (hfirst : (s.link l).arrived.find? (fun p => !s.forwardWaits p) = some p) (hport : s.portOf l = some port)
    (hold : old = Tab.get [] s.deliveredSeqs (4 * port + p.vc.code))
    (hv : v = (if p.kind = .chunk ∧ p.dst = s.chipId then s.setLink l { s.link l with arrived := (s.link l).arrived.erase p }
      else (s.setLink l { s.link l with arrived := (s.link l).arrived.erase p }).event baseContext evFlit noRegion p.flits))
    (hw : w = { v with deliveredSeqs := Tab.set [] s.deliveredSeqs (4 * port + p.vc.code) ((p.pseq :: old).take 4096) }) :
    exec (.packetReceive l) s = .next (if old.contains p.pseq then (v.oweCredit l p).bump Fld.linkRouteDups 0 1
      else if p.dst = s.chipId then { w.oweCredit l p with inbound := s.inbound ++ [(l, p)] } else w.forward l p) := by
  have hcond : (p.kind == .chunk && decide (p.dst = (s.setLink l { s.link l with arrived := (s.link l).arrived.erase p }).chipId)) =
      decide (p.kind = .chunk ∧ p.dst = s.chipId) := by
    rw [Bool.decide_and]; rfl
  refine (onUnit_ok (decide_eq_true hl)).trans ?_
  simp only [hfirst, hport, hcond, decide_eq_true_eq]
  by_cases hchunk : p.kind = .chunk ∧ p.dst = s.chipId
  · simp only [if_pos hchunk] at hv ⊢
    subst hv hw hold
    rfl
  · simp only [if_neg hchunk] at hv ⊢
    subst hv hw hold
    rfl

/-! ## The statement -/

/-- Settles O45: each command by its case, the symbols by their places, and the packet taken by what `State.takePacket_own` says of its link. -/
theorem lanesAreSparedAndPacketsMove : Obligations.LanesAreSparedAndPacketsMove := by
  unfold Obligations.LanesAreSparedAndPacketsMove
  refine ⟨fun s v l n => laneSwitchRequest_asks, fun s v l e => laneSwitchRequestReceive_takes, fun s v l sp r w => laneSwitch_switches,
    fun s l n hl hn hst hlane => ?lockLoss, fun s l sp r => spareLaneStopsQualifying_fails, fun s l n e hl hst hresend hfirst => ?resend,
    fun s l fs hl hst hresend hopen hsend hroom hfs => ?codeword, fun s l hl hst hresend hopen hsend hfull => ?idle,
    fun s v l hl hst hresend hclosing hv => ?closing, fun c n i hi => ?symbols,
    fun s v l port key e p hl hst hresend hopen htx hchosen hport hsrc hvc hkey hp hv => ?packet,
    fun s v w l port p old hl hfirst hport hold hv hw => ?receive, fun k => ⟨Link.nextVc_mgmt, Link.nextVc_bulk, Link.nextVc_clasp⟩⟩
  case lockLoss =>
    rw [laneLockLoss_eq hl hn hst hlane]
    exact ⟨fun sp r h => by rw [h], fun h => by rw [h]⟩
  case resend => rw [linkPacketSend_eq hl hst, State.linkStream_resends hresend hfirst]
  case codeword =>
    rw [linkPacketSend_eq hl hst, State.linkStream_codeword hresend hopen hsend, State.newCodeword_keeps hroom hfs]
    exact ⟨rfl, hfs ▸ codewordFlits_length _ _⟩
  case idle => rw [linkPacketSend_eq hl hst, State.linkStream_codeword hresend hopen hsend, State.newCodeword_idle hfull]
  case closing =>
    subst hv
    rw [linkPacketSend_eq hl hst, State.linkStream_closes hresend hclosing]
    exact ⟨fun hend => by simp only [State.closeStream, if_pos hend]; rfl, fun hrest => by simp only [State.closeStream, if_neg hrest]⟩
  case symbols =>
    exact ⟨c.symbols_length, c.laneSymbols_length n, c.laneSymbols_getD hi, fun hdata => c.symbols_data hdata, c.data_mod, c.data_div, c.header_eq⟩
  case packet =>
    rw [linkPacketSend_eq hl hst, State.linkStream_takes hresend hopen htx hchosen hport hv]
    subst hkey hp
    obtain ⟨k, n, htake, hqueue, hflits⟩ := State.takePacket_own (s := s) (l := l) (port := port) hsrc hvc
    rw [htake] at hv
    subst hv
    refine ⟨rfl, rfl, rfl, fun hsorted => ⟨?_, ?_, fun m hm => State.link_setLink_other hsorted hm k⟩⟩
    · exact (congrArg Link.queue (State.link_setLink_self hsorted l k)).trans hqueue
    · exact (congrArg Link.tx (State.link_setLink_self hsorted l k)).trans hflits
  case receive =>
    rw [packetReceive_eq hl hfirst hport hold hv hw]
    exact ⟨fun hdup => by rw [if_pos (List.contains_iff_mem.2 hdup)],
      fun hnew hhere => by rw [if_neg (mt List.contains_iff_mem.1 hnew), if_pos hhere],
      fun hnew haway => by rw [if_neg (mt List.contains_iff_mem.1 hnew), if_neg haway]⟩

end Sys2Proof.Machine
end

section
/-! SUPPORT. Replies, notices and timeouts of the sending side of a transfer (O49). -/

namespace Sys2Proof.Machine

/-! ## Replies (R318-R320, R334) -/

section
variable {s v : State} {link : Nat} {p : Packet} {rest : List (Nat × Packet)} {x : Transfer}

/-- A count of a context does not change which transfer a reply answers. -/
theorem State.answered_bump (s : State) (f : Field) (i n : Nat) (p : Packet) : (s.bump f i n).answered p = s.answered p := by
  unfold State.bump
  split <;> rfl

theorem ack_ends (hown : isForwardReply p = false) (hv : v = { s with inbound := rest }) (hx : v.answered p = some x)
    (hfirst : takeFirst s.inbound (fun p => isReply p 1 && (isForwardReply p || s.answerReady p)) = some ((link, p), rest)) :
    exec .ack s = .next (v.endTransfer x) := by
  subst hv
  show execAck s = _
  simp only [execAck, hfirst, hown, hx, Bool.false_eq_true, if_false]

theorem reject_ends (hown : isForwardReply p = false) (hv : v = { s with inbound := rest }) (hx : v.answered p = some x)
    (hfirst : takeFirst s.inbound (fun p => isReply p 4 && (isForwardReply p || s.answerReady p)) = some ((link, p), rest)) :
    exec .reject s = .next (((v.bump Fld.collStatRejects p.tenant 1).addStatus x.item stStaleWindow).endTransfer x) := by
  subst hv
  show execReject s = _
  simp only [execReject, hfirst, hown, State.answered_bump, hx, Bool.false_eq_true, if_false]

theorem nak_counts {c n : Nat} {w : State} (hv : v = { s with inbound := rest }) (hx : v.answered p = some x)
    (hfirst : takeFirst s.inbound (fun p => isReply p 2) = some ((link, p), rest)) (hc : c = replyChunk p) (hn : n = Tab.get 0 x.naks c + 1)
    (hw : w = v.modTransfer x.id (fun x => { x with naks := Tab.set 0 x.naks c n })) :
    exec .nak s = .next (if max 1 (s.fld Fld.collCtlNakLimit 0) ≤ n then w.failPart x.item stCollFailed else w.resendChunk x.id c) := by
  subst hv hc hn hw
  show execNak s = _
  simp only [execNak, hfirst, hx]
  rfl

theorem busy_waits {b : State} (hv : v = { s with inbound := rest }) (hx : v.answered p = some x)
    (hfirst : takeFirst s.inbound (fun p => isReply p 3) = some ((link, p), rest)) (hb : b = v.bump Fld.collStatBusy p.tenant 1) :
    exec .busy s = .next (b.modTransfer x.id (fun x => { x with naks := Tab.set 0 x.naks (replyChunk p) 0
                                                                backoff := x.backoff ++ [(replyChunk p, s.tally + 1000 * max 1 (b.fld Fld.collCtlBackoff 0))] })) := by
  subst hv hb
  show execBusy s = _
  simp only [execBusy, hfirst, State.answered_bump, hx, State.bump_tally]

end

theorem chunkBackoffExpiry_resends {s : State} {id c : Nat} {x : Transfer} {b : Nat × Nat} (hx : s.transfer id = some x)
    (hb : x.backoff.find? (fun b => b.1 == c && b.2 ≤ s.tally) = some b) :
    exec (.chunkBackoffExpiry id c) s = .next ((s.modTransfer id (fun x => { x with backoff := x.backoff.erase b })).resendChunk id c) := by
  show execChunkBackoffExpiry id c s = _
  simp only [execChunkBackoffExpiry, hx, hb]

/-! ## Aborted keys and notices (R310, R327, R328) -/

section
variable {s v : State} {link tag cseq : Nat} {p : Packet} {rest : List (Nat × Packet)}

/-- An `ABORT` fails the launch part with its key; of a key without one it is noted unless it is kept already. -/
theorem abort_eq (hfirst : takeFirst s.inbound (fun p => isReply p 5) = some ((link, p), rest)) (hv : v = { s with inbound := rest })
    (htag : tag = p.t14.toNat) (hcseq : cseq = p.t18.toNat % 2 ^ 24) : exec .abort s = .next (match s.launchOf tag cseq with
      | some i => (v.modItem i.id (fun i => { i with abortChip := some p.src })).failPart i.id stCollFailed
      | none => if (s.keptKey tag cseq).isSome then v
        else { v with abortedKeys := (s.abortedKeys ++ [AbortedKey.mk tag cseq stCollFailed s.tally (some p.src)]).drop (s.abortedKeys.length + 1 - 64) }) := by
  subst hv htag hcseq
  show execAbort s = _
  simp only [execAbort, hfirst]
  rfl

theorem unreachableNotice_fails {x : Transfer} (hfirst : takeFirst s.inbound (fun p => p.kind == .notice) = some ((link, p), rest))
    (hv : v = { s with inbound := rest }) (hkind : p.aux.getD 0 9 ≤ 1)
    (hx : v.transferOf (leAt p.payload 0 2 % 2048) (leAt p.payload 0xC 2) (leAt p.payload 0x14 4) (leAt p.payload 0x18 4) (leAt p.payload 0x1C 4) p.aux[1]? = some x) :
    exec .unreachableNoticeReceive s = .next (v.failPart x.item stUnreachable) := by
  subst hv
  show execUnreachableNoticeReceive s = _
  simp only [execUnreachableNoticeReceive, hfirst, if_neg (show ¬ p.aux.getD 0 9 = 4 by omega), if_pos hkind, hx]

end

/-! ## Timeouts (R327, R328) -/

/-- A transfer or a landing of the item that is late fails its launch part. -/
theorem collectiveTimeout_fails {s : State} {item : Nat} (hlate : (∃ x ∈ s.transfers, x.item = item ∧ ∃ c, x.since = some c ∧ c + s.collTimeout ≤ s.tally) ∨
    (∃ l ∈ s.landings, l.item = item ∧ ∃ x ∈ l.posts, x.2 + s.collTimeout ≤ s.tally)) :
    exec (.collectiveTimeout item) s = .next (s.failPart item stCollFailed) := by
  refine whenever_pos ?_
  simpa [Option.any_eq_true] using hlate

/-- Settles O49: each reply and notice by what it decides, and the keys that are kept by their filter. -/
theorem repliesDecideTransfers : Obligations.RepliesDecideTransfers := by
  unfold Obligations.RepliesDecideTransfers
  refine ⟨fun s v link p rest x hown hv hx => ⟨ack_ends hown hv hx, reject_ends hown hv hx, fun hfirst c n w => nak_counts hv hx hfirst,
    fun hfirst b => busy_waits hv hx hfirst⟩, fun s id c x b => chunkBackoffExpiry_resends, fun s v link tag cseq p rest hfirst hv htag hcseq => ?abort,
    fun s v link p rest x => unreachableNotice_fails, fun s item => collectiveTimeout_fails, fun s => ?expiry⟩
  case abort =>
    rw [abort_eq hfirst hv htag hcseq]
    exact ⟨fun i h => by rw [h], fun h hkept => by rw [h]; exact congrArg _ (if_pos hkept), fun h hnew => by rw [h, hnew]; rfl⟩
  case expiry => exact ⟨_, rfl, rfl, fun k => List.mem_filter.trans (and_congr_right fun _ => decide_eq_true_iff)⟩

end Sys2Proof.Machine
end

section
/-! SUPPORT. Transfers and landings begin, and chunks arrive for them (O48). -/

namespace Sys2Proof.Machine

/-! ## `RSEND` and `RLAND` (R314, R321) -/

theorem rsend_issues {s v : State} {t p : Nat} {i : Insn} {q : Part} {item : Item} {l : Launch} {b : Board} {e : Route} {x : Transfer}
    (h : s.atInsn t p opRsend i = true) (hpart : (s.tile p).part = some q) (hitem : s.partItem (s.tile p) = some item) (hlaunch : item.launch = some l)
    (hboard : s.launchBoard item = some b) (hroute : (s.launchVariant item).bind (fun v => v.routes[i.arg 0 16]?) = some e)
    (hx : x = s.newTransfer t (s.tile p).nextOp i e item l b q) (hv : v = s.issueOp t p ((s.tile p).mkOp i 0 [(x.src, e.length)] [] 1 0)) :
    exec (.rsend t) s = .next (if (s.tile p).clearOf [(x.src, e.length)] [] then
      ({ v with transfers := v.transfers ++ [x], nextTransfer := v.nextTransfer + 1 }).pumpOne x.id else s) := by
  subst hv hx
  show execRsend t s = _
  rw [execRsend, onInsn_at h]
  simp only [hpart, hitem, hlaunch, hboard, hroute]
  cases (s.tile p).clearOf [((s.newTransfer t (s.tile p).nextOp i e item l b q).src, e.length)] [] <;> rfl

theorem rland_posts {s : State} {t p : Nat} {i : Insn} {q : Part} {l : Landing} {writes : List (Nat × Nat)} (h : s.atInsn t p opRland i = true)
    (hpart : (s.tile p).part = some q) (hw : writes = i.landSegs ((s.tile p).opnd i.opd0)) (hl : l = s.landing q.item (i.arg 0 12) (i.arg 12 7) t) :
    exec (.rland t) s = .next (if (s.tile p).clearOf [] writes then
      ((s.setLanding { l with posts := l.posts ++ [((s.tile p).nextOp, s.tally)] }).issueOp t p ((s.tile p).mkOp i 0 [] writes 1 0)).postLanding l i else s) := by
  subst hw hl
  show execRland t s = _
  rw [execRland, onInsn_at h]
  simp only [hpart]
  cases (s.tile p).clearOf [] (i.landSegs ((s.tile p).opnd i.opd0)) <;> rfl

/-! ## Chunks (R317, R318, R322) -/

theorem State.startWake_p0 {s : State} (h : s.inP0 = true) : s.startWake = s := State.startWake_idle (.inl (beq_iff_eq.1 h))

/-- The first chunk delivered here that can be taken, its flits charged: a bad one is answered with `NAK`, and any other takes effect. -/
theorem chunkReceive_first {s v : State} {link : Nat} {p : Packet} {rest : List (Nat × Packet)} {f : ChunkFields} (hp0 : s.inP0 = true)
    (hnone : s.arriving.find? (fun a => s.tileTakes a.tile) = none)
    (hfirst : takeFirst s.inbound (fun p => p.kind == .chunk && s.chunkReady p) = some ((link, p), rest)) (hf : f = ChunkFields.of p)
    (hv : v = (if link < 20 then ({ s with inbound := rest } : State).event (((s.launchOf f.tag f.cseq).map (·.fn)).getD baseContext) evFlit noRegion p.flits
      else { s with inbound := rest })) :
    exec .chunkReceive s = .next (if p.crc = p.crcOf then v.chunkCome link 0 p
      else (v.bump Fld.collStatNaks (((s.launchOf f.tag f.cseq).map (·.fn)).getD p.tenant) 1).reply p 2 0 f.chunk) := by
  have hwake : ({ s with inbound := rest } : State).startWake = { s with inbound := rest } := State.startWake_p0 hp0
  have hlaunch : ∀ a b, ({ s with inbound := rest } : State).launchOf a b = s.launchOf a b := fun _ _ => rfl
  subst hf hv
  show execChunkReceive s = _
  simp only [execChunkReceive, hnone, hfirst, hwake, hlaunch]
  by_cases hcrc : p.crc = p.crcOf
  · have hok : p.crcOk = true := beq_iff_eq.2 hcrc
    simp only [hok, hcrc, Bool.not_true, Bool.false_eq_true, if_true, if_false]
  · have hbad : p.crcOk = false := beq_eq_false_iff_ne.2 hcrc
    simp only [hbad, hcrc, Bool.not_false, if_true, if_false]

/-- A chunk whose launch runs here goes to that launch. -/
theorem State.chunkCome_launch {s : State} {link rows : Nat} {p : Packet} {f : ChunkFields} {i : Item} {b : Board} (hf : f = ChunkFields.of p)
    (hi : s.launchOf f.tag f.cseq = some i) (hb : s.launchBoard i = some b) : s.chunkCome link rows p = s.chunkFor i b link rows p f := by
  subst hf
  simp only [State.chunkCome, hi, hb]

/-- With no launch here, a key kept as aborted answers with `ABORT`, and any other with `BUSY`. -/
theorem State.chunkCome_none {s : State} {link rows : Nat} {p : Packet} {f : ChunkFields} (hf : f = ChunkFields.of p)
    (hi : s.launchOf f.tag f.cseq = none) : s.chunkCome link rows p = match s.keptKey f.tag f.cseq with
      | some k => s.reply p 5 k.status 0
      | none => s.reply p 3 0 f.chunk := by
  subst hf
  simp only [State.chunkCome, hi] <;> rfl

/-- The next row of a chunk that is being written comes first. -/
theorem chunkReceive_arriving {s : State} {a : Arrival} (ha : s.arriving.find? (fun a => s.tileTakes a.tile) = some a) :
    exec .chunkReceive s = .next (State.chunkCome { s with arriving := s.arriving.erase a } a.link a.rows a.packet) := by
  show execChunkReceive s = _
  simp only [execChunkReceive, ha]

theorem State.copyReceive_row {s v w : State} {i : Item} {l : Landing} {bt link rows q : Nat} {p : Packet} {f : ChunkFields} {evs : List Nat} {g : Nat × Nat}
    (hnew : l.acked.contains (f.rank, f.xfer) = false) (hrun : i.phase = .running) (hv : v = s.consumed i.id p.poison) (hq : v.physOf l.tile = some q)
    (hitem : (v.tile q).itemId = some i.id) (hg : (rowPieces (f.off, p.payload.length))[rows]? = some g)
    (hw : w = (v.race l.tile (v.tile q).part (if (v.tile q).meetsEngine (g.1 / 256) true evs then 1 else 0)).tileEvent q evRow 1) :
    s.copyReceive i l bt link rows p f evs = (let u := w.setTile q (((w.tile q).writeAt g.1 ((p.payload.drop (g.1 - f.off)).take g.2)).markSegs [g] p.poison);
      if rows + 1 < (rowPieces (f.off, p.payload.length)).length then { u with arriving := u.arriving ++ [⟨l.tile, link, p, f.off, rows + 1, evs⟩] }
      else u.copyWritten i l false p f) := by
  subst hv hw
  simp only [State.copyReceive, hnew, hrun, hq, hitem, hg, State.copyRow, Bool.false_eq_true, if_false, bne_self_eq_false]

/-! ## Landings (R323) -/

theorem landingCombine_due {s : State} {t p op rank chunk : Nat} {x : Op} {l : Landing} {h : HeldChunk} (hacts : s.acts t p = true)
    (hx : (s.tile p).op op = some x) (hl : s.landings.find? (fun l => l.tile == t && (l.posts.map Prod.fst).head? == some op) = some l)
    (hh : l.held.find? (fun h => h.srcRank == rank && h.chunk == chunk &&
      (h.orderFree || (s.ranksOf l.item x.insn).all (fun q => rank ≤ q || l.combined.contains (q, chunk)))) = some h) :
    exec (.landingCombine t op rank chunk) s = .next ((s.combine l x.insn h).settle l.item l.coll l.step t) := by
  show execLandingCombine t op rank chunk s = _
  rw [execLandingCombine, onTile_at hacts]
  simp only [hx, hl, hh]

/-- The landing of a key that is found reads as the landing put in its place. -/
theorem State.landing_setLanding {s : State} {l m : Landing} (hl : s.landings.find? (fun x => x.at_ l.item l.coll l.step l.tile) = some l)
    (hm : m.item = l.item ∧ m.coll = l.coll ∧ m.step = l.step ∧ m.tile = l.tile) : (s.setLanding m).landing l.item l.coll l.step l.tile = m := by
  obtain ⟨hitem, hcoll, hstep, htile⟩ := hm
  have hany : s.landings.any (fun x => x.at_ l.item l.coll l.step l.tile) = true :=
    List.any_eq_true.2 ⟨l, List.mem_of_find?_eq_some hl, List.find?_some (p := fun x : Landing => x.at_ l.item l.coll l.step l.tile) hl⟩
  have hself : m.at_ l.item l.coll l.step l.tile = true := by simp [Landing.at_, hitem, hcoll, hstep, htile]
  have hmatch : ∀ x : Landing, (if x.at_ l.item l.coll l.step l.tile then m else x).at_ l.item l.coll l.step l.tile = x.at_ l.item l.coll l.step l.tile := by
    intro x
    split
    · next hx => rw [hself, hx]
    · rfl
  simp only [State.setLanding, State.landing, hitem, hcoll, hstep, htile, hany, if_true, List.find?_map, Function.comp_def, hmatch, hl, Option.map_some,
    Option.getD_some, List.find?_some (p := fun x : Landing => x.at_ l.item l.coll l.step l.tile) hl]

theorem w34AddSat_fst (a b : W34) : (w34AddSat a b).1 = w34Add a b := rfl

/-- A chunk combined in its order is added element by element into its index's accumulator, and its slot is released. -/
theorem State.combine_landing {s : State} {l : Landing} {i : Insn} {h : HeldChunk}
    (hl : s.landings.find? (fun x => x.at_ l.item l.coll l.step l.tile) = some l) (hord : h.orderFree = false) :
    ∃ m, (s.combine l i h).landing l.item l.coll l.step l.tile = m ∧ m.held = l.held.erase h ∧ m.combined = (h.srcRank, h.chunk) :: l.combined ∧
      m.accs = Tab.set [] l.accs h.chunk (if (Tab.get [] l.accs h.chunk).isEmpty then (i.landValues h.bytes).map (fun x => w34Add 0 x)
        else ((Tab.get [] l.accs h.chunk).zip (i.landValues h.bytes)).map (fun e => w34Add e.1 e.2)) := by
  simp only [State.combine, hord, Bool.false_and, Bool.false_eq_true, if_false]
  refine ⟨_, State.landing_setLanding hl ⟨rfl, rfl, rfl, rfl⟩, rfl, rfl, congrArg (Tab.set [] l.accs h.chunk) ?_⟩
  split <;> simp [Function.comp_def, w34AddSat_fst]

/-- Settles O48: each instruction issues where it may, a chunk takes effect by the launch with its key, and a held chunk is combined into its landing. -/
theorem transfersAndLandingsBegin : Obligations.TransfersAndLandingsBegin := by
  unfold Obligations.TransfersAndLandingsBegin
  refine ⟨fun s v t p i q item l b e x => rsend_issues, fun s t p i q l writes => rland_posts, fun s v link p rest f hp0 hnone hfirst hf hv => ?first,
    fun s v a i b f ha hf hi hb hv => ?arriving, fun s v w i l bt link rows q p f evs g => State.copyReceive_row,
    fun s t p op rank chunk x l h => landingCombine_due, fun s l i h => State.combine_landing⟩
  case first =>
    have hsame : v.launchOf f.tag f.cseq = s.launchOf f.tag f.cseq ∧ v.keptKey f.tag f.cseq = s.keptKey f.tag f.cseq := by
      rw [hv]
      split <;> exact ⟨rfl, rfl⟩
    rw [chunkReceive_first hp0 hnone hfirst hf hv]
    refine ⟨fun hbad => by rw [if_neg hbad], fun hok i b hi hb => ?_, fun hok hi => ?_⟩
    · rw [if_pos hok, State.chunkCome_launch hf (hsame.1.trans hi) hb]
    · rw [if_pos hok, State.chunkCome_none hf (hsame.1.trans hi), hsame.2]
      exact ⟨fun k hk => by rw [hk], fun hk => by rw [hk]⟩
  case arriving =>
    have hlaunch : v.launchOf f.tag f.cseq = some i := by rw [hv]; exact hi
    have hboard : v.launchBoard i = some b := by rw [hv]; exact hb
    rw [chunkReceive_arriving ha, ← hv]
    exact congrArg _ (State.chunkCome_launch hf hlaunch hboard)

end Sys2Proof.Machine
end

section
/-! SUPPORT. Remote windows: the commands of a window list, and the chunks that arrive for a window (O50). -/

namespace Sys2Proof.Machine

/-! ## Window commands (R331, R332) -/

section
variable {s u : State} {op item : Nat} {i : Item} {l : ListRun} {b : List Byte} {c : WindowCmd}

/-- A well-formed entry of a window list is refused by the first reason that applies, and runs when none does. -/
theorem onWindow_at (h : s.atEntry tyWindowCmd op Item.beforeWindows item i l b u) (hc : c = WindowCmd.ofEntry b) (hfit : c.bad = false)
    (needs : State → Item → WindowCmd → List (Bool × Nat)) (k : State → Item → ListRun → WindowCmd → State) :
    onWindow op item s needs k = .next (((firstRefusal (needs u i c)).map (fun code => u.listResult i l code [])).getD (k u i l c)) := by
  subst hc
  rw [onWindow, onEntry_at h]
  simp only [hfit, Bool.false_eq_true, if_false]
  cases firstRefusal (needs u i (WindowCmd.ofEntry b)) <;> rfl

theorem wopen_opens {gen : Nat} (h : s.atEntry tyWindowCmd wcOpen Item.beforeWindows item i l b u) (hc : c = WindowCmd.ofEntry b) (hfit : c.bad = false)
    (hgen : gen = u.fld Fld.winStatGen c.index % 65535 + 1) (hgrant : u.windowGranted i c.index = true) (hown : (u.grantOf i).own c.addr c.size = true)
    (hclosed : u.windowOpen c.index = false) : exec (.wopen item) s = .next
      ((((({ u with windows := Tab.set none u.windows c.index (some ⟨c.addr, c.size, c.peerLo, c.peerHi⟩) }).setFld Fld.winStatGen c.index gen).setFlag
        Fld.winStatOpen c.index true).setFld Fld.winStatTenant c.index i.fn).setFld Fld.winStatArrived c.index 0 |>.listResult i l 0 [(4, leBytes 2 gen)]) := by
  subst hgen
  show execWopen item s = _
  rw [execWopen, onWindow_at h hc hfit, refusals_cons, hgrant, hown, refusals_cons, hclosed]
  rfl

theorem wopen_ungranted (h : s.atEntry tyWindowCmd wcOpen Item.beforeWindows item i l b u) (hc : c = WindowCmd.ofEntry b) (hfit : c.bad = false)
    (hgrant : u.windowGranted i c.index = false) : exec (.wopen item) s = .next (u.listResult i l 0x01 []) := by
  show execWopen item s = _
  rw [execWopen, onWindow_at h hc hfit, refusals_cons, hgrant]
  rfl

theorem wopen_again (h : s.atEntry tyWindowCmd wcOpen Item.beforeWindows item i l b u) (hc : c = WindowCmd.ofEntry b) (hfit : c.bad = false)
    (hgrant : u.windowGranted i c.index = true) (hown : (u.grantOf i).own c.addr c.size = true) (hopen : u.windowOpen c.index = true) :
    exec (.wopen item) s = .next (u.listResult i l 0x04 []) := by
  show execWopen item s = _
  rw [execWopen, onWindow_at h hc hfit, refusals_cons, hgrant, hown, refusals_cons, hopen]
  rfl

theorem wclose_closes (h : s.atEntry tyWindowCmd wcClose Item.beforeWindows item i l b u) (hc : c = WindowCmd.ofEntry b) (hfit : c.bad = false)
    (hopen : u.windowOpen c.index = true) (htenant : u.fld Fld.winStatTenant c.index = i.fn) (hfree : u.windowBusy c.index = false) :
    exec (.wclose item) s = .next ((u.closeWindow c.index).listResult i l 0 []) := by
  show execWclose item s = _
  rw [execWclose, onWindow_at h hc hfit, refusals_cons, hopen, htenant, bne_self_eq_false, refusals_cons, refusals_cons, hfree]
  rfl

theorem wrefSet_sets (h : s.atEntry tyWindowCmd wcRefSet Item.beforeWindows item i l b u) (hc : c = WindowCmd.ofEntry b) (hfit : c.bad = false) :
    exec (.wrefSet item) s = .next ((u.setPeerRef i.fn c.index (some ⟨c.gen, c.peer, c.addr⟩)).listResult i l 0 []) := by
  show execWrefSet item s = _
  rw [execWrefSet, onWindow_at h hc hfit]
  rfl

theorem wrefClear_clears (h : s.atEntry tyWindowCmd wcRefClear Item.beforeWindows item i l b u) (hc : c = WindowCmd.ofEntry b) (hfit : c.bad = false) :
    exec (.wrefClear item) s = .next ((u.setPeerRef i.fn c.index none).listResult i l 0 []) := by
  show execWrefClear item s = _
  rw [execWrefClear, onWindow_at h hc hfit]
  rfl

end

theorem windowCmd_starts {s : State} {fn ring : Nat} {i : Item} {d : List Byte} (h : s.passes3 fn ring i d tyWindowCmd = true) :
    exec (.windowCmd fn ring) s = .next ((s.pass3 i.id .passed3).startList i.id d) := by
  show execWindowCmd fn ring s = _
  rw [execWindowCmd, onEvent3_passes h rfl rfl]

/-! ## Window chunks (R333, R334) -/

theorem State.send_chans (s : State) (p : Packet) : (s.send p).chans = s.chans := State.inject_chans s p none

theorem State.reply_chans (s : State) (p : Packet) (type reason chunk : Nat) : (s.reply p type reason chunk).chans = s.chans := State.send_chans ..

/-- The first window chunk delivered here: what it writes takes effect once the channels accept all of it. -/
theorem windowChunkReceive_first {s v : State} {link : Nat} {p : Packet} {rest : List (Nat × Packet)} (hp0 : s.inP0 = true)
    (hfirst : takeFirst s.inbound (fun p => p.kind == .window) = some ((link, p), rest)) (hv : v = { s with inbound := rest }) :
    exec .windowChunkReceive s = .next (s.accepted (
      if p.crc = p.crcOf then match v.windowReject (p.t14.toNat % 1024) (p.t14.toNat / 65536 % 65536) p.src p.t18.toNat p.payload.length with
        | some why => ((v.bump Fld.winStatRejected (p.t14.toNat % 1024) 1).dropWindowIn (v.windowIn p.src (p.t14.toNat % 1024) (p.t14.toNat / 65536 % 65536)
            (p.t1c.toNat % 256) (p.aux.getD 0 0) ((p.t18.toNat + 2 ^ 32 - 992 * (p.flow % 32768)) % 2 ^ 32))).reply p 4 why 0
        | none => v.windowAccept p (p.t14.toNat % 1024) (p.t14.toNat / 65536 % 65536) (p.t1c.toNat % 256) p.t18.toNat (p.flow % 32768)
            (p.t1c.toNat / 256 % 2 = 1)
      else (v.bump Fld.collStatNaks (v.windowTenant (p.t14.toNat % 1024) p.tenant) 1).reply p 2 0 (p.flow % 32768))) := by
  subst hv
  show execWindowChunkReceive s = _
  simp only [execWindowChunkReceive, hfirst, onAwake_p0 hp0, State.accepting_next, bitsOf, bitOf, pow_zero, Nat.div_one, Nat.reducePow, Packet.crcOk]
  by_cases hcrc : p.crc = p.crcOf
  · simp only [hcrc, beq_self_eq_true, Bool.not_true, Bool.false_eq_true, if_true, if_false] <;> rfl
  · simp only [hcrc, beq_eq_false_iff_ne.2 hcrc, Bool.not_false, if_true, if_false]

/-- A window chunk is rejected by the first check that fails: closed, another generation, beyond the window, or a chip outside its peers. -/
theorem State.windowReject_none {s : State} {w gen src off len : Nat} : s.windowReject w gen src off len = none ↔
    ∃ x, Tab.get none s.windows w = some x ∧ s.fld Fld.winStatGen w = gen ∧ off + len ≤ x.size ∧ x.peerLo ≤ src ∧ src ≤ x.peerHi := by
  unfold State.windowReject
  cases Tab.get none s.windows w with
  | none => simp
  | some x =>
    simp only [Option.some.injEq, exists_eq_left', bne_iff_ne, ne_eq, Bool.or_eq_true, decide_eq_true_eq]
    split_ifs <;> simp <;> omega

theorem State.windowReject_closed {s : State} {w : Nat} (h : Tab.get none s.windows w = none) (gen src off len : Nat) :
    s.windowReject w gen src off len = some 1 := by
  simp only [State.windowReject, h]

/-- A chunk that is written is counted and noted; its transfer is acknowledged once every chunk to the last is held. -/
theorem State.windowAccept_eq {s v : State} {p : Packet} {w gen bt off c base : Nat} {last : Bool} {x : Window} {r k : WindowIn}
    (hx : Tab.get none s.windows w = some x) (hbase : base = x.base)
    (hv : v = (s.protectedWrite (s.windowTenant w p.tenant) (base + off) p.payload p.poison).addFld Fld.winStatArrived w p.payload.length)
    (hr : r = v.windowIn p.src w gen bt (p.aux.getD 0 0) ((off + 2 ^ 32 - 992 * c) % 2 ^ 32))
    (hk : k = { r with seen := if r.seen.contains c then r.seen else c :: r.seen, last := if last then some c else r.last }) :
    s.windowAccept p w gen bt off c last = match k.last with
      | some n => if (List.range (n + 1)).all k.seen.contains then (v.dropWindowIn k).reply p 1 0 (n + 1) else v.setWindowIn k
      | none => v.setWindowIn k := by
  subst hbase hv hr hk
  simp only [State.windowAccept, hx, Option.map_some, Option.getD_some] <;> rfl

/-- Settles O50: each command by the reasons against it, and a chunk by its checks; an answer makes no request of device memory. -/
theorem windowsOpenAcceptAndClose : Obligations.WindowsOpenAcceptAndClose := by
  unfold Obligations.WindowsOpenAcceptAndClose
  refine ⟨fun s fn ring i d => windowCmd_starts, fun s u op item gen i l b c h hc hfit hgen => ⟨?opens, ?ungranted, ?again, ?closes, ?refSet, ?refClear⟩,
    fun s v link w gen off bt c p rest hp0 hfirst hv hw hgen hoff hbt hc => ?chunk, fun s v p w gen bt off c base last x r k => State.windowAccept_eq,
    fun s w gen src off len => ⟨State.windowReject_none, fun hclosed => State.windowReject_closed hclosed ..⟩⟩
  case opens => rintro rfl hgrant hown hclosed; exact wopen_opens h hc hfit hgen hgrant hown hclosed
  case ungranted => rintro rfl hgrant; exact wopen_ungranted h hc hfit hgrant
  case again => rintro rfl hgrant hown hopen; exact wopen_again h hc hfit hgrant hown hopen
  case closes => rintro rfl hopen htenant hfree; exact wclose_closes h hc hfit hopen htenant hfree
  case refSet => rintro rfl; exact wrefSet_sets h hc hfit
  case refClear => rintro rfl; exact wrefClear_clears h hc hfit
  case chunk =>
    have hchans : v.chans = s.chans := by rw [hv]
    subst hw hgen hoff hbt hc
    rw [windowChunkReceive_first hp0 hfirst hv]
    refine ⟨fun hbad => ?_, fun hok why hwhy => ?_, fun hok hnone => by rw [if_pos hok, hnone]⟩
    · rw [if_neg hbad, State.accepted_of_chans ((State.reply_chans ..).trans ((State.bump_chans ..).trans hchans))]
    · rw [if_pos hok, hwhy]
      exact congrArg _ (State.accepted_of_chans ((State.reply_chans ..).trans ((State.bump_chans ..).trans hchans)))

end Sys2Proof.Machine
end

section
/-! SUPPORT. Writes of the MGC and of Loupe that are discarded (O46). -/

namespace Sys2Proof.Machine

/-! ## The count of a discarded write (R451) -/

/-- `SEC_BOUND` after a discarded write of agent `n` (0 the MGC, 1 Loupe) at offset `o`. -/
def State.boundFields (s : State) (n o : Nat) : State :=
  (((s.bump Fld.secBoundMgc 0 (1 - n)).bump Fld.secBoundLoupe 0 n).setFld Fld.secBoundLastOffset 0 (o / 4)).setFld Fld.secBoundLastAgent 0 n

/-- The number of an agent in `SEC_BOUND` and in a `BOUND` record. -/
def boundAgent (a : Agent) : Nat := if a = .loupe then 1 else 0

/-- A discarded write counts; a record is made of it when one is due, and the count of the writes since starts again. -/
theorem State.boundDiscard_eq {s : State} {a : Agent} (ha : a = .mgc ∨ a = .loupe) (o : Nat) : s.boundDiscard a o =
    { s.boundFields (boundAgent a) o with sec := if s.boundDue then { s.sec with
        boundWrites := 0, boundAt := some s.tally, changes := s.sec.changes ++ [(recBound, [(boundAgent a), o, s.sec.boundWrites + 1], s.tally)] }
      else { s.sec with boundWrites := s.sec.boundWrites + 1 } } := by
  have hdue : ∀ n, (s.boundFields n o).boundDue = s.boundDue := by
    intro n
    unfold State.boundDue State.boundFields
    simp
  have h0 := hdue 0
  have h1 := hdue 1
  rcases ha with rfl | rfl
  · change (if (s.boundFields 0 o).boundDue then _ else _) = _
    rw [h0]
    cases s.boundDue <;> rfl
  · change (if (s.boundFields 1 o).boundDue then _ else _) = _
    rw [h1]
    cases s.boundDue <;> rfl

section
variable {s : State} {n : Nat}

theorem State.boundFields_eq (s : State) (n o : Nat) : s.boundFields n o = { s with regs := (s.boundFields n o).regs } := by
  unfold State.boundFields State.bump
  split <;> split <;> rfl

theorem State.boundFields_writesOnly (o : Nat) : s.writesOnly (· ∈ [Reg.secBound]) (s.boundFields n o) :=
  (((State.writesOnly.bump _ _ _ (by decide)).trans (.bump _ _ _ (by decide))).trans (.setFld _ _ _ (by decide))).trans (.setFld _ _ _ (by decide))

/-- The agent's count rises; the last offset and agent are kept. -/
theorem State.boundFields_flds (hs : Tab.sorted s.regs = true) (hn : n < 2) (o : Nat) :
    (s.boundFields n o).fld Fld.secBoundLastAgent 0 = n ∧ (s.boundFields n o).fld Fld.secBoundLastOffset 0 = o / 4 % 2 ^ Fld.secBoundLastOffset.width ∧
    (s.boundFields n o).fld Fld.secBoundMgc 0 = s.counted Fld.secBoundMgc 0 (1 - n) ∧
    (s.boundFields n o).fld Fld.secBoundLoupe 0 = s.counted Fld.secBoundLoupe 0 n := by
  have h1 : Tab.sorted (s.bump Fld.secBoundMgc 0 (1 - n)).regs = true :=
    (State.writesOnly.bump (w := fun _ => True) Fld.secBoundMgc 0 (1 - n) (by decide) hs).1
  have h2 : Tab.sorted ((s.bump Fld.secBoundMgc 0 (1 - n)).bump Fld.secBoundLoupe 0 n).regs = true :=
    (State.writesOnly.bump (w := fun _ => True) Fld.secBoundLoupe 0 n (by decide) h1).1
  have h3 := State.sorted_setFld h2 Fld.secBoundLastOffset 0 (o / 4)
  unfold State.boundFields
  refine ⟨?_, ?_, ?_, ?_⟩
  · rw [State.fld_setFld_self h3]
    exact Nat.mod_eq_of_lt hn
  · rw [State.fld_setFld_ne h3 (by decide) _ (by decide), State.fld_setFld_self h2]
  · rw [State.fld_setFld_ne h3 (by decide) _ (by decide), State.fld_setFld_ne h2 (by decide) _ (by decide),
      State.fld_bump_ne (by decide) (by decide) (by decide), State.fld_bump_self hs]
  · rw [State.fld_setFld_ne h3 (by decide) _ (by decide), State.fld_setFld_ne h2 (by decide) _ (by decide), State.fld_bump_self h1]
    unfold State.counted
    rw [State.fld_bump_ne (by decide) (by decide) (by decide)]

end

theorem State.boundDue_iff {s : State} : s.boundDue = true ↔ ∀ c, s.sec.boundAt = some c → c + 1000000000 ≤ s.tally := by
  unfold State.boundDue
  cases s.sec.boundAt <;> simp

/-! ## Agents that act (R430, R454) -/

section
variable {s : State} {a : Agent}

/-- Loupe acts always, the MGC while it runs its firmware and no probe holds it. -/
theorem State.agentActs_of (h : a = .loupe ∨ (a = .mgc ∧ s.sec.mgcRuns = true ∧ s.sec.mgcHalted = false)) :
    a.wf = true ∧ s.agentActs a = true ∧ a ≠ .hostPf := by
  rcases h with rfl | ⟨rfl, hruns, hfree⟩
  · exact ⟨rfl, rfl, by decide⟩
  · exact ⟨rfl, by simp [State.agentActs, hruns, hfree], by decide⟩

/-- A command of the host driver that another agent gives in P0 is discarded. -/
theorem onAccess_discards {c : Instr} {ok : Bool} {w : String} {o : Nat} {k : State → State} (hok : ok = true) (hp0 : s.inP0 = true)
    (hact : s.agentActs a = true) (hne : a ≠ .hostPf) :
    onUnit ok w (onAccess c s (fun s => onHostPf a o s k)) = .next (s.boundDiscard a o) := by
  rw [onUnit_ok hok, onAccess_p0 hp0, onHostPf_other hne, hact]
  rfl

/-- A `REGISTER_WRITE` that reaches a register of the host driver is discarded, in P0 and in P3. -/
theorem registerWrite_discards {o size : Nat} {v : Word64} (h : a = .loupe ∨ (a = .mgc ∧ s.sec.mgcRuns = true ∧ s.sec.mgcHalted = false))
    (halign : aligned48 o size = true) (hdisc : s.writeDiscarded a o size = true)
    (hst : s.fld Fld.pwrStatState 0 = 3 ∨ (s.inP0 = true ∧ s.servedAsleep a o = false)) :
    exec (.registerWrite a o size v) s = .next (s.boundDiscard a o) := by
  obtain ⟨hwf, hact, -⟩ := State.agentActs_of h
  refine (onUnit_ok hwf).trans ?_
  rcases hst with h3 | ⟨hp0, hawake⟩
  · simp [hact, h3, halign, hdisc]
  · have hn3 : ¬ s.fld Fld.pwrStatState 0 = 3 := by rw [beq_iff_eq.1 hp0]; decide
    simp [hact, hn3, halign, hdisc, hawake, onAccess_p0 hp0, State.writeAccess]

end

/-- Settles O46: a discarded write by its fields and its record, and each command by the agent that gives it. -/
theorem discardedWritesAreCountedAndRecorded : Obligations.DiscardedWritesAreCountedAndRecorded := by
  unfold Obligations.DiscardedWritesAreCountedAndRecorded
  refine ⟨fun s u a o n ha hcan hu hn => ?counts, fun s a h hp0 => ?commands,
    fun s a o size v h h3 halign hdisc => registerWrite_discards h halign hdisc (.inl h3)⟩
  case counts =>
    have hn2 : n < 2 := by rw [hn]; split <;> decide
    rw [State.boundDiscard_eq ha, show boundAgent a = n from hn.symm] at hu
    obtain ⟨hagent, hoffset, hmgc, hloupe⟩ := State.boundFields_flds (State.canonical.regs hcan) hn2 o
    have hregs : u.regs = (s.boundFields n o).regs := by rw [hu]
    have hbut := (State.boundFields_writesOnly (n := n) o).regsBut (State.canonical.regs hcan)
    have hfld : ∀ f i, u.fld f i = (s.boundFields n o).fld f i := fun f i => State.fld_congr hregs f i
    refine ⟨?_, fun f i hf hr => (hfld f i).trans (hbut f i hf hr), (hfld _ _).trans hagent, (hfld _ _).trans hoffset, (hfld _ _).trans hmgc,
      (hfld _ _).trans hloupe, fun hdue => ?_, fun c hc hearly => ?_⟩
    · rw [State.boundFields_eq] at hu
      rw [hu]
      cases s.boundDue <;> rfl
    · rw [if_pos (State.boundDue_iff.2 hdue)] at hu
      rw [hu]
      exact ⟨rfl, rfl, rfl⟩
    · have hnot : ¬ s.boundDue = true := fun hdue => Nat.not_le.2 hearly (State.boundDue_iff.1 hdue c hc)
      rw [if_neg hnot] at hu
      rw [hu]
      exact ⟨rfl, rfl, hc⟩
  case commands =>
    obtain ⟨hwf, hact, hne⟩ := State.agentActs_of h
    have hunit : ∀ {b : Bool}, b = true → (a.wf && b) = true := fun hb => by rw [hwf, hb]; rfl
    refine ⟨fun v => onAccess_discards hwf hp0 hact hne, fun c v hc => onAccess_discards (hunit (decide_eq_true hc)) hp0 hact hne,
      fun p v hp => onAccess_discards (hunit (decide_eq_true hp)) hp0 hact hne, fun v => onAccess_discards hwf hp0 hact hne,
      fun c v hc => onAccess_discards (hunit (decide_eq_true hc)) hp0 hact hne, fun w v hw => onAccess_discards (hunit (decide_eq_true hw)) hp0 hact hne,
      fun c hc => ⟨onAccess_discards (hunit (decide_eq_true hc)) hp0 hact hne, onAccess_discards (hunit (decide_eq_true hc)) hp0 hact hne,
        onAccess_discards (hunit (decide_eq_true hc)) hp0 hact hne⟩,
      onAccess_discards hwf hp0 hact hne, ?lock,
      fun o size v halign hdisc hawake => registerWrite_discards h halign hdisc (.inr ⟨hp0, hawake⟩)⟩
    case lock =>
      show execSetupLock .loupe s = _
      rw [execSetupLock, onUnit_ok (show Agent.wf .loupe = true from rfl), onAccess_p0 hp0]

end Sys2Proof.Machine
end

section
/-! SUPPORT. The two ends of an item: the descriptor fetched and the record written (O35). -/

namespace Sys2Proof.Machine

/-! ## Descriptors (R367-R369) -/

theorem descriptorFetch_turn {s : State} {fn ring : Nat} (hfn : fn < 64) (hring : ring < 64) (hp0 : s.inP0 = true) (hturn : s.turnFn = some fn)
    (hturn' : s.turnRing fn = some ring) : exec (.descriptorFetch fn ring) s = .next { State.fetchRun fn ring 4 s with
      fns := { (State.fetchRun fn ring 4 s).fns with
        lastServed := fn, lastRing := Tab.set 63 (State.fetchRun fn ring 4 s).fns.lastRing fn ring } } :=
  onUnit_whenever (by simp [hfn, hring]) (by simp [hp0, hturn, hturn'])

/-- A descriptor that is read becomes the newest item. -/
theorem State.fetchOne_read {s : State} {fn ring : Nat} {bytes : List Byte} (h : s.hostRead fn (s.fld Fld.ringCfgSqBase (ringKey fn ring) +
      64 * (s.fld Fld.ringCfgSqHead (ringKey fn ring) % s.sqEntries (ringKey fn ring))) 64 = (some (bytes, false), s)) :
    (s.fetchOne fn ring).items = s.items ++ [Item.new s.nextItem fn ring (s.fld Fld.ringCfgSqHead (ringKey fn ring)) (some bytes)] ∧
    (s.fetchOne fn ring).nextItem = s.nextItem + 1 := by
  simp only [State.fetchOne, h]
  exact ⟨rfl, rfl⟩

/-! ## Records (R372-R379) -/

/-- The next record of a ring, with the link up: lost where no window permits it, and written otherwise. -/
theorem completionRecordWrite_due {s d w : State} {item r n a dur : Nat} {ok : Bool} {i : Item} {bytes : List Byte} (hi : s.item item = some i)
    (hdue : s.recordDue i = true) (hready : s.hostReady i.fn = true) (hup : s.fns.linkUp = true) (hr : r = 64 * i.fn + i.ring)
    (hn : n = s.fld Fld.ringCfgCqTail r) (hd : s.durationOf i = (dur, d)) (ha : a = s.fld Fld.ringCfgCqBase r + 32 * (n % s.cqEntries r))
    (hb : bytes = i.record dur n (s.cqEntries r)) (hw : d.hostWrite i.fn a bytes false = (ok, w)) :
    exec (.completionRecordWrite item) s = .next (s.accepted (if ok = false then (w.bump Fld.hostErrLost i.fn 1).leave i
      else let v := if i.statusCode = stDisabled ∨ i.statusCode = stFenced then w.bump Fld.fnStateAborted i.fn 1 else w
        ((v.addFld Fld.ringCfgCqTail r 1).vecAdd i.fn (v.fld Fld.ringCfgVector r)).leave i)) := by
  subst hr hn ha hb
  show execCompletionRecordWrite item s = _
  simp only [execCompletionRecordWrite, hi, hdue, hready, hup, hd, hw, Bool.true_or, Bool.and_self, Bool.not_true, Bool.or_self, Bool.false_eq_true,
    if_false, whenever_pos, State.accepting_next, Bool.or_eq_true, decide_eq_true_eq, Bool.not_eq_eq_eq_not]

theorem Item.record_length (i : Item) (dur n entries : Nat) : (i.record dur n entries).length = 32 := by simp [Item.record]

/-- The first of a list of marked codes decides. -/
theorem find?_marked_first {before after : List (Bool × Nat)} {st : Nat} (h : before.all (fun x => !x.1) = true) :
    ((before ++ (true, st) :: after).find? (·.1)).elim 0 Prod.snd = st := by
  have hnone : before.find? (·.1) = none := List.find?_eq_none.2 fun x hx => by simpa using List.all_eq_true.1 h x hx
  rw [List.find?_append, hnone]
  rfl

theorem find?_marked_none {l : List (Bool × Nat)} (h : l.all (fun x => !x.1) = true) : (l.find? (·.1)).elim 0 Prod.snd = 0 := by
  rw [List.find?_eq_none.2 fun x hx => by simpa using List.all_eq_true.1 h x hx]
  rfl

/-- The causes of a rejection other than `RUNTIME_BOUND` stand before the failures of execution, and `RUNTIME_BOUND` after them (R378). -/
theorem Item.statusCode_eq (i : Item) : i.statusCode =
    ([(i.statuses.contains stDisabled, 0x10), (i.statuses.contains stFenced, 0x11), (i.statuses.contains stRejected && i.cause != causeRuntimeBound, 0x60),
      (i.statuses.contains stPoison, 0x01), (i.statuses.contains stUnreachable, 0x40), (i.statuses.contains stCollFailed, 0x41),
      (i.statuses.contains stOverrun, 0x30), (i.statuses.contains stUnderrun, 0x31), (i.statuses.contains stTableRetired, 0x32),
      (i.statuses.contains stRejected && i.cause == causeRuntimeBound, 0x60), (i.statuses.contains stStaleWindow, 0x20),
      (i.statuses.contains stPreempted, 0x50), (i.statuses.contains stReplayed, 0x02)].find? (·.1)).elim 0 Prod.snd := by
  by_cases hrb : i.cause = causeRuntimeBound
  · have hbeq : (i.cause == causeRuntimeBound) = true := beq_iff_eq.2 hrb
    simp only [Item.statusCode, hbeq, bne, Bool.and_true]
    rfl
  · have hbeq : (i.cause == causeRuntimeBound) = false := beq_eq_false_iff_ne.2 hrb
    simp only [Item.statusCode, hbeq, bne, Bool.and_false]
    cases i.statuses.contains stRejected
    · rfl
    · cases i.statuses.contains stDisabled
      · cases i.statuses.contains stFenced <;> rfl
      · rfl

/-- Settles O35: the fetch by its turn, the record by what the host window permits, and the status by the order of the list. -/
theorem recordsAreWrittenInTheRing : Obligations.RecordsAreWrittenInTheRing := by
  unfold Obligations.RecordsAreWrittenInTheRing
  refine ⟨fun s fn ring => descriptorFetch_turn, fun s fn ring bytes => State.fetchOne_read,
    fun s d w item r n a dur ok i bytes hi hdue hready hup hr hn hd ha hb hw => ?record, Item.record_length, fun i applies happlies => ?status⟩
  case record =>
    rw [completionRecordWrite_due hi hdue hready hup hr hn hd ha hb hw]
    refine ⟨fun hlost => by rw [if_pos hlost], fun hok hne hne' => ?_, fun hok haborted => ?_⟩
    · rw [if_neg (by simp [hok])]
      simp only [if_neg (not_or.2 ⟨hne, hne'⟩)]
    · rw [if_neg (by simp [hok])]
      simp only [if_pos haborted]
  case status =>
    have hcode : i.statusCode = (applies.find? (·.1)).elim 0 Prod.snd := by rw [happlies]; exact i.statusCode_eq
    exact ⟨fun before after st hsplit hbefore => by rw [hcode, hsplit, find?_marked_first hbefore], fun hnone => by rw [hcode, find?_marked_none hnone]⟩

end Sys2Proof.Machine
end

section
/-! SUPPORT. Doorbells, ring pairs, the lock point and MSI-X messages (O51). -/

namespace Sys2Proof.Machine

/-! ## Doorbells (R349, R350) -/

section
variable {s : State} {fn r : Nat}

theorem sqTailWrite_eq (hfn : fn < 64) (hr : r < 64) (hp0 : s.inP0 = true) (v : Word32) :
    exec (.sqTailWrite fn r v) s = .next (State.doorbell fn r (State.newTail fn r v.toNat) s) :=
  (onUnit_ok (by simp [hfn, hr])).trans (onAccess_p0 hp0)

theorem cqHeadWrite_eq (hfn : fn < 64) (hr : r < 64) (hp0 : s.inP0 = true) (v : Word32) :
    exec (.cqHeadWrite fn r v) s = .next (State.doorbell fn r (State.newHead fn r v.toNat) s) :=
  (onUnit_ok (by simp [hfn, hr])).trans (onAccess_p0 hp0)

theorem State.doorbell_of_not_enabled (hoff : s.fnEnabled fn = false) (f : State → Option RingRun) : State.doorbell fn r f s = s := by
  simp [State.doorbell, hoff]

theorem State.doorbell_of_ring_off (hon : s.fnEnabled fn = true) (hring : s.ringOn fn r = false) (f : State → Option RingRun) :
    State.doorbell fn r f s = s.bump Fld.hostErrDoorbell fn 1 := by
  simp [State.doorbell, hon, hring]

/-- A doorbell of an enabled ring stores what `f` gives, and one that `f` refuses counts. -/
theorem State.doorbell_on (hon : s.fnEnabled fn = true) (hring : s.ringOn fn r = true) (f : State → Option RingRun) :
    State.doorbell fn r f s = ((f s).map (s.setRing fn r)).getD (s.bump Fld.hostErrDoorbell fn 1) := by
  simp only [State.doorbell, hon, hring, Bool.not_true, Bool.false_eq_true, if_false]
  cases f s <;> rfl

section
variable {k v : Nat} (hk : k = ringKey fn r)
include hk

theorem State.newTail_eq : State.newTail fn r v s =
    if diff32 v (s.fld Fld.ringCfgSqHead k) ≤ s.sqEntries k then some { s.ring fn r with sqTail := v } else none := by
  subst hk
  unfold State.newTail
  by_cases h : diff32 v (s.fld Fld.ringCfgSqHead (ringKey fn r)) ≤ s.sqEntries (ringKey fn r)
  · rw [if_pos h, if_neg (Nat.not_lt.2 h)]
  · rw [if_neg h, if_pos (Nat.lt_of_not_le h)]

theorem State.newHead_eq : State.newHead fn r v s =
    if diff32 v (s.ring fn r).cqHead ≤ diff32 (s.fld Fld.ringCfgCqTail k) (s.ring fn r).cqHead then some { s.ring fn r with cqHead := v } else none := by
  subst hk
  unfold State.newHead
  by_cases h : diff32 v (s.ring fn r).cqHead ≤ diff32 (s.fld Fld.ringCfgCqTail (ringKey fn r)) (s.ring fn r).cqHead
  · rw [if_pos h, if_neg (Nat.not_lt.2 h)]
  · rw [if_neg h, if_pos (Nat.lt_of_not_le h)]

end

theorem map_getD_ite {α β : Type} {c : Prop} [Decidable c] (x : α) (f : α → β) (y : β) :
    ((if c then some x else none : Option α).map f).getD y = if c then f x else y := by
  split <;> rfl

/-! ## Enabling and draining (R357, R358) -/

/-- `RING_ENABLE` of an inactive pair is decided by the checks of R357. -/
theorem ringEnable_inactive {v : State} (hfn : fn < 64) (hr : r < 64) (hp0 : s.inP0 = true) (hoff : s.flag Fld.ringCfgActive (64 * fn + r) = false)
    (hv : v = s.setFld Fld.ringCfgCfgErr (64 * fn + r) (s.ringCheck fn r)) :
    exec (.ringEnable fn r) s = .next (if s.ringCheck fn r = 0 then
      ((((((v.setFlag Fld.ringCfgEnable (64 * fn + r) true).setFlag Fld.ringCfgActive (64 * fn + r) true).setFld
        Fld.ringCfgSqHead (64 * fn + r) 0).setFld Fld.ringCfgCqTail (64 * fn + r) 0).setRing fn r ⟨0, 0⟩)).reachLock
      else v.setFlag Fld.ringCfgEnable (64 * fn + r) false) := by
  subst hv
  show execRingEnable fn r s = _
  simp only [execRingEnable, onUnit_ok (show (decide (fn < 64) && decide (r < 64)) = true by simp [hfn, hr]), onAccess_p0 hp0, ringKey, hoff,
    Bool.false_eq_true, if_false]

theorem ringDisable_eq (hfn : fn < 64) (hr : r < 64) (hp0 : s.inP0 = true) :
    exec (.ringDisable fn r) s = .next ((s.setFlag Fld.ringCfgEnable (64 * fn + r) false).drainRing fn r) :=
  (onUnit_ok (by simp [hfn, hr])).trans (onAccess_p0 hp0)

/-- A pair that is disabled is drained: it stays active while an item of it is in flight. -/
theorem State.drainRing_disabled (hs : Tab.sorted s.regs = true) :
    ((s.setFlag Fld.ringCfgEnable (64 * fn + r) false).drainRing fn r).flag Fld.ringCfgEnable (64 * fn + r) = false ∧
    ((s.setFlag Fld.ringCfgEnable (64 * fn + r) false).drainRing fn r).flag Fld.ringCfgActive (64 * fn + r) =
      (s.flag Fld.ringCfgActive (64 * fn + r) && !(s.ringItems fn r).isEmpty) := by
  have hs' : Tab.sorted (s.setFlag Fld.ringCfgEnable (64 * fn + r) false).regs = true := State.sorted_setFld hs _ _ _
  have henable : (s.setFlag Fld.ringCfgEnable (64 * fn + r) false).flag Fld.ringCfgEnable (64 * fn + r) = false := State.flag_setFlag_self hs rfl _ _
  have hactive : (s.setFlag Fld.ringCfgEnable (64 * fn + r) false).flag Fld.ringCfgActive (64 * fn + r) = s.flag Fld.ringCfgActive (64 * fn + r) :=
    State.flag_setFld_ne hs (.inr (.inr (by decide))) _ (by decide)
  have hitems : (s.setFlag Fld.ringCfgEnable (64 * fn + r) false).ringItems fn r = s.ringItems fn r := rfl
  simp only [State.drainRing, henable, hactive, hitems, Bool.not_false, Bool.and_true]
  cases hon : s.flag Fld.ringCfgActive (64 * fn + r) with
  | false => exact ⟨henable, hactive.trans hon⟩
  | true =>
    cases hempty : (s.ringItems fn r).isEmpty with
    | false => exact ⟨henable, hactive.trans hon⟩
    | true => exact ⟨(State.flag_setFld_ne hs' (.inr (.inr (by decide))) _ (by decide)).trans henable, State.flag_setFlag_self hs' rfl _ _⟩

theorem State.drainRing_eq (s : State) (fn r : Nat) : s.drainRing fn r = { s with regs := (s.drainRing fn r).regs } := by
  unfold State.drainRing
  simp only
  split <;> rfl

theorem State.drainRing_writesOnly (s : State) (fn r : Nat) : s.writesOnly (· ∈ [Reg.ringCfg]) (s.drainRing fn r) := by
  unfold State.drainRing
  simp only
  split
  · exact State.writesOnly.setFlag _ _ _ (by decide)
  · exact State.writesOnly.refl

/-! ## The lock point (R493) -/

theorem setupLock_host (hp0 : s.inP0 = true) : exec (.setupLock .hostPf) s = .next s.reachLock := by
  show execSetupLock .hostPf s = _
  rw [execSetupLock, onUnit_ok (show Agent.wf .hostPf = true from rfl), onAccess_p0 hp0]
  rfl

theorem setupLock_mgc (hp0 : s.inP0 = true) (hruns : s.sec.mgcRuns = true) (hfree : s.sec.mgcHalted = false) :
    exec (.setupLock .mgc) s = .next s.reachLock := by
  have hact : s.agentActs .mgc = true := by simp [State.agentActs, hruns, hfree]
  show execSetupLock .mgc s = _
  rw [execSetupLock, onUnit_ok (show Agent.wf .mgc = true from rfl), onAccess_p0 hp0]
  simp only [hact, if_true]

/-- The lock point, once reached, stays. -/
theorem State.reachLock_locked (hs : Tab.sorted s.regs = true) : s.reachLock.locked = true := by
  have hs1 : Tab.sorted (s.setFlag Fld.setupStatLocked 0 true).regs = true := State.sorted_setFld hs _ _ _
  have hlock : (s.setFlag Fld.setupStatLocked 0 true).flag Fld.setupStatLocked 0 = true := State.flag_setFlag_self hs rfl _ _
  have haligned : (s.setFlag Fld.setupStatLocked 0 true).writesOnly (· ∈ [Reg.tallyStat])
      ((((s.setFlag Fld.setupStatLocked 0 true).setFlag Fld.tallyStatLocked 0 true).setFlag Fld.tallyStatAligned 0 true).setFld Fld.tallyStatErrNs 0 0) :=
    ((State.writesOnly.setFlag _ _ _ (by decide)).trans (.setFlag _ _ _ (by decide))).trans (.setFld _ _ _ (by decide))
  unfold State.reachLock
  split
  · assumption
  · dsimp only
    split
    · exact (haligned.flag hs1 (by decide) 0).trans hlock
    · exact hlock

end

/-! ## Messages (R351, R353) -/

section
variable {s : State} {fn v : Nat}

theorem msixTimerExpiry_sends (hfn : fn < 64) (hv : v < 2048) (hstate : s.fnState fn ≠ 0) (hcount : (s.vec fn v).count ≠ 0)
    (htime : s.fld Fld.msixModTimeUs (2048 * fn + v) ≠ 0)
    (hdue : (s.vec fn v).since + 1000 * s.fld Fld.msixModTimeUs (2048 * fn + v) ≤ s.tally) :
    exec (.msixTimerExpiry fn v) s = .next (s.sendVec fn v) :=
  onUnit_whenever (by simp [hfn, hv]) (by simp [hcount, htime, hdue, hstate])

theorem State.sendVec_held (h : s.vecHeld fn v = true) : s.sendVec fn v = s.setVec fn v { s.vec fn v with pbit := true } := by
  simp [State.sendVec, h]

theorem State.sendVec_lost (h : s.vecHeld fn v = false) (hdown : s.fns.linkUp = false) :
    s.sendVec fn v = (s.setVec fn v { s.vec fn v with count := 0, pbit := false }).bump Fld.hostErrLost fn 1 := by
  simp [State.sendVec, h, hdown]

theorem State.sendVec_sent (h : s.vecHeld fn v = false) (hup : s.fns.linkUp = true) :
    s.sendVec fn v = { s.setVec fn v { s.vec fn v with count := 0, pbit := false } with outs := { s.outs with messages := s.outs.messages ++ [(fn, v)] } } := by
  simp only [State.sendVec, h, hup, Bool.false_eq_true, if_false, Bool.not_true]

end

/-- Settles O51: each command's next state by its case. -/
theorem doorbellsAndRingsFollowTheirCounts : Obligations.DoorbellsAndRingsFollowTheirCounts := by
  unfold Obligations.DoorbellsAndRingsFollowTheirCounts
  refine ⟨fun s fn r v hfn hr hp0 => ?doorbells, fun s v fn r hfn hr hp0 hoff hv => ?enable, fun s fn r hfn hr hp0 hcan => ?disable,
    fun s hp0 => ⟨setupLock_host hp0, setupLock_mgc hp0, fun hcan => State.reachLock_locked (State.canonical.regs hcan)⟩,
    fun s fn v hfn hv hstate hcount htime hdue => ?timer, fun s fn v hfn hv => ⟨onUnit_ok (by simp [hfn, hv]), onUnit_ok (by simp [hfn])⟩⟩
  case doorbells =>
    rw [sqTailWrite_eq hfn hr hp0, cqHeadWrite_eq hfn hr hp0]
    refine ⟨fun hoff => ?_, fun hon hring => ?_, fun hon hring => ?_⟩
    · rw [State.doorbell_of_not_enabled hoff, State.doorbell_of_not_enabled hoff]
      exact ⟨rfl, rfl⟩
    · rw [State.doorbell_of_ring_off hon hring, State.doorbell_of_ring_off hon hring]
      exact ⟨rfl, rfl⟩
    · rw [State.doorbell_on hon hring, State.doorbell_on hon hring, State.newTail_eq (k := 64 * fn + r) rfl, State.newHead_eq (k := 64 * fn + r) rfl,
        map_getD_ite, map_getD_ite]
      exact ⟨rfl, rfl⟩
  case enable =>
    rw [ringEnable_inactive hfn hr hp0 hoff hv]
    exact ⟨fun h => by rw [if_pos h], fun h => by rw [if_neg h]⟩
  case disable =>
    have hs := State.canonical.regs hcan
    have hwrites := (State.writesOnly.setFlag (w := (· ∈ [Reg.ringCfg])) (s := s) Fld.ringCfgEnable (64 * fn + r) false (by decide)).trans
      (State.drainRing_writesOnly _ fn r)
    obtain ⟨henable, hactive⟩ := State.drainRing_disabled (fn := fn) (r := r) hs
    exact ⟨_, ringDisable_eq hfn hr hp0, henable, hactive, State.drainRing_eq .., hwrites.regsBut hs⟩
  case timer =>
    rw [msixTimerExpiry_sends hfn hv hstate hcount htime hdue]
    exact ⟨fun h => by rw [State.sendVec_held h], fun h hdown => by rw [State.sendVec_lost h hdown],
      fun h hup => ⟨_, rfl, by rw [State.sendVec_sent h hup], by rw [State.sendVec_sent h hup]; rfl, by rw [State.sendVec_sent h hup]; rfl⟩⟩

end Sys2Proof.Machine
end

section
/-! SUPPORT. What the stop of a context and a reset of registers leave of the functions (O52, first part). -/

namespace Sys2Proof.Machine

/-! ## Operations that leave the functions' configuration alone -/

theorem State.fns_foldl {α : Type} {f : State → α → State} (hf : ∀ s a, (f s a).fns = s.fns) (l : List α) (s : State) : (l.foldl f s).fns = s.fns :=
  State.foldl_same (g := State.fns) hf l s

section
variable (s : State)

theorem State.endItem_fns (id : Nat) : (s.endItem id).fns = s.fns := by
  unfold State.endItem
  split
  · rfl
  · split <;> rfl

theorem State.inject_fns (p : Packet) (q : Option Nat) : (s.inject p q).1.fns = s.fns := by
  unfold State.inject
  split
  · rfl
  · dsimp only
    split <;> rfl

theorem State.staticEvent_fns (p : Nat) : (s.staticEvent p).fns = s.fns := by
  unfold State.staticEvent
  split <;> rfl

theorem State.endPart_fns (t p : Nat) : (s.endPart t p).fns = s.fns := by
  refine (State.fns_foldl (fun s e => ?_) _ _).trans (s.staticEvent_fns p)
  split <;> rfl

theorem State.endAllParts_fns (id : Nat) : (s.endAllParts id).fns = s.fns := by
  refine State.fns_foldl (fun s t => ?_) _ _
  split
  · exact s.endPart_fns t _
  · rfl

theorem State.sendAborts_fns (c : Nat) (b : Board) (q r : Nat) : (s.sendAborts c b q r).fns = s.fns :=
  State.fns_foldl (fun s _ => s.inject_fns _ none) _ s

theorem State.stopPart_fns (id st : Nat) : (s.stopPart id st).fns = s.fns := by
  unfold State.stopPart
  split
  · rfl
  · split
    · split
      · rfl
      · exact (State.endItem_fns ..).trans ((State.sendAborts_fns ..).trans (s.endAllParts_fns id))
    · rfl

theorem State.stopItem_fns (st : Nat) (i : Item) : (s.stopItem st i).fns = s.fns := by
  unfold State.stopItem
  split
  · rfl
  · split
    · exact s.stopPart_fns ..
    · exact State.endItem_fns ..
  · exact State.endItem_fns ..

theorem State.stopContext_fns (c st : Nat) : (s.stopContext c st).fns = s.fns :=
  State.fns_foldl (fun s i => s.stopItem_fns st i) _ _

end

/-! ## Registers at their Reset column (R353) -/

/-- A register that is cleared reads its Reset column where the condition holds; every other field reads as before. -/
theorem State.fld_clearReg {s : State} (hs : Tab.sorted s.regs = true) (r : Reg) (p : Nat → Bool) {f : Field} (hf : f.lo < 1024) (i : Nat) :
    (s.clearReg r p).fld f i = if f.reg = r ∧ p i = true then f.resetAt i else s.fld f i := by
  have hc : f.reg.ctorIdx < 128 := Reg.ctorIdx_lt f.reg
  have hreg : f.key i / 1024 % 128 = f.reg.ctorIdx := by unfold Field.key; omega
  have hinst : f.key i / 131072 = i := by unfold Field.key; omega
  refine (Tab.get_filter (p := fun k => !(k / 1024 % 128 == r.ctorIdx && p (k / 131072))) hs).trans ?_
  simp only [hreg, hinst]
  by_cases hr : f.reg = r
  · subst hr
    cases p i <;> simp [State.fld]
  · have hne : (f.reg.ctorIdx == r.ctorIdx) = false := beq_eq_false_iff_ne.2 fun he => hr (Reg.eq_of_ctorIdx he)
    simp [hne, hr, State.fld]

theorem State.sorted_clearRegs (p : Nat → Bool) : ∀ (rs : List Reg) {s : State}, Tab.sorted s.regs = true →
    Tab.sorted (rs.foldl (fun (s : State) r => s.clearReg r p) s).regs = true
  | [], _, hs => hs
  | _ :: rs, _, hs => State.sorted_clearRegs p rs (Tab.sorted_filter hs)

theorem State.fld_clearRegs (p : Nat → Bool) {f : Field} (hf : f.lo < 1024) (i : Nat) : ∀ (rs : List Reg) {s : State}, Tab.sorted s.regs = true →
    (rs.foldl (fun (s : State) r => s.clearReg r p) s).fld f i = if f.reg ∈ rs ∧ p i = true then f.resetAt i else s.fld f i
  | [], _, _ => by simp
  | r :: rs, s, hs => by
    rw [List.foldl_cons, State.fld_clearRegs p hf i rs (Tab.sorted_filter hs), State.fld_clearReg hs r p hf]
    by_cases hp : p i = true <;> by_cases hr : f.reg = r <;> simp [hp, hr]

end Sys2Proof.Machine
end

section
/-! SUPPORT. Functions enabled, disabled and reset (O52). -/

namespace Sys2Proof.Machine

/-! ## A disable begins (R380) -/

section
variable {s : State} {fn g : Nat}

theorem State.fnEnabled_congr {u : State} (h : u.fnState g = s.fnState g) : u.fnEnabled g = s.fnEnabled g := by
  unfold State.fnEnabled
  rw [h]

theorem State.sorted_disable (hs : Tab.sorted s.regs = true) (fn : Nat) : Tab.sorted (s.disable fn).regs = true := by
  unfold State.disable
  split
  · rw [State.stopContext_regs]
    exact State.sorted_setFld hs _ _ _
  · exact hs

theorem State.disable_fns (s : State) (fn : Nat) : (s.disable fn).fns = s.fns := by
  unfold State.disable
  split
  · exact State.stopContext_fns ..
  · rfl

/-- An enabled function is disabling; every other one is as before. -/
theorem State.fnState_disable (hs : Tab.sorted s.regs = true) : (s.disable fn).fnState g = if g = fn ∧ s.fnEnabled fn = true then 2 else s.fnState g := by
  unfold State.disable
  by_cases hon : s.fnEnabled fn = true
  · rw [if_pos hon]
    refine (State.fld_congr (State.stopContext_regs ..) _ _).trans ?_
    by_cases hg : g = fn
    · rw [if_pos ⟨hg, hon⟩, hg]
      exact State.fld_setFld_self hs _ _ _
    · rw [if_neg fun h => hg h.1]
      exact State.fld_setFld_ne hs (.inl (Ne.symm hg)) _ (by decide)
  · rw [if_neg hon, if_neg fun h => hon h.2]

theorem State.fnEnabled_disable_self (hs : Tab.sorted s.regs = true) : (s.disable fn).fnEnabled fn = false := by
  unfold State.fnEnabled
  rw [State.fnState_disable hs]
  by_cases hon : s.fnEnabled fn = true
  · rw [if_pos ⟨rfl, hon⟩]
    rfl
  · rw [if_neg fun h => hon h.2]
    exact Bool.eq_false_iff.2 hon

end

/-- Between two states no function becomes enabled, while the keys of the register file rise. -/
def State.OffKept (s u : State) : Prop := Tab.sorted s.regs = true → Tab.sorted u.regs = true ∧ ∀ g, s.fnEnabled g = false → u.fnEnabled g = false

namespace State.OffKept

variable {s t u : State}

theorem refl : s.OffKept s := fun hs => ⟨hs, fun _ h => h⟩

theorem trans (h : s.OffKept t) (h' : t.OffKept u) : s.OffKept u := fun hs => ⟨(h' (h hs).1).1, fun g hg => (h' (h hs).1).2 g ((h hs).2 g hg)⟩

theorem of_regs (h : u.regs = s.regs) : s.OffKept u := fun hs => ⟨h ▸ hs, fun _ hg => (State.fnEnabled_congr (State.fld_congr h _ _)).trans hg⟩

theorem disable (s : State) (fn : Nat) : s.OffKept (s.disable fn) := fun hs => by
  refine ⟨State.sorted_disable hs fn, fun g hg => ?_⟩
  by_cases h : g = fn
  · rw [h]
    exact State.fnEnabled_disable_self hs
  · refine (State.fnEnabled_congr ?_).trans hg
    rw [State.fnState_disable hs, if_neg fun h' => h h'.1]

/-- Each step of a fold keeps what is off and puts its own function off: in the end every function of the list is off. -/
theorem foldl_off {f : State → Nat → State} (hkeep : ∀ (s : State) (a : Nat), s.OffKept (f s a)) {I : State → Prop} (hI : ∀ s a, I s → I (f s a)) {P : Nat → Prop}
    (hoff : ∀ s a, Tab.sorted s.regs = true → I s → P a → (f s a).fnEnabled a = false) :
    ∀ (l : List Nat) (s : State), Tab.sorted s.regs = true → I s → Tab.sorted (l.foldl f s).regs = true ∧ I (l.foldl f s) ∧
      (∀ g, s.fnEnabled g = false → (l.foldl f s).fnEnabled g = false) ∧ ∀ a ∈ l, P a → (l.foldl f s).fnEnabled a = false
  | [], _, hs, hi => ⟨hs, hi, fun _ h => h, fun _ h => absurd h List.not_mem_nil⟩
  | b :: l, s, hs, hi => by
    have hs' := (hkeep s b hs).1
    obtain ⟨h1, h2, h3, h4⟩ := foldl_off hkeep hI hoff l (f s b) hs' (hI s b hi)
    refine ⟨h1, h2, fun g hg => h3 g ((hkeep s b hs).2 g hg), fun a ha hp => ?_⟩
    rcases List.mem_cons.1 ha with rfl | ha
    · exact h3 a (hoff s a hs hi hp)
    · exact h4 a ha hp

end State.OffKept

/-- The virtual functions and then the physical one: every function. -/
theorem mem_allFunctions {fn : Nat} : fn ∈ (List.range 63).map (· + 1) ++ [0] ↔ fn < 64 := by
  simp only [List.mem_append, List.mem_map, List.mem_range, List.mem_singleton]
  exact ⟨by rintro (⟨a, ha, rfl⟩ | rfl) <;> omega, fun h => (Nat.eq_zero_or_pos fn).elim .inr fun hp => .inl ⟨fn - 1, by omega, by omega⟩⟩

/-! ## The enabling condition (R344) -/

section
variable {s : State}

/-- What the enabling condition of every function rests on. -/
def State.enablingBasis (s : State) : Functions × Bool := (s.fns, s.fld Fld.secStatLc 0 != 3)

theorem State.shouldEnable_congr {u : State} (h : u.enablingBasis = s.enablingBasis) (g : Nat) : u.shouldEnable g = s.shouldEnable g := by
  obtain ⟨hfns, hlc⟩ := Prod.mk.inj h
  unfold State.shouldEnable
  rw [hfns, hlc]

theorem State.disable_enablingBasis (hs : Tab.sorted s.regs = true) (fn : Nat) : (s.disable fn).enablingBasis = s.enablingBasis := by
  have hlc : (s.disable fn).fld Fld.secStatLc 0 = s.fld Fld.secStatLc 0 := by
    unfold State.disable
    split
    · exact (State.fld_congr (State.stopContext_regs ..) _ _).trans (State.fld_setFld_ne hs (.inr (.inl (by decide))) _ (by decide))
    · rfl
  unfold State.enablingBasis
  rw [State.disable_fns, hlc]

/-- Every function whose condition has gone is off, and the configuration stays. -/
theorem State.disableGone_off (hs : Tab.sorted s.regs = true) : Tab.sorted s.disableGone.regs = true ∧ s.disableGone.fns = s.fns ∧
    ∀ fn, fn < 64 → s.shouldEnable fn = false → s.disableGone.fnEnabled fn = false := by
  obtain ⟨h1, ⟨-, h2⟩, -, h4⟩ := State.OffKept.foldl_off (f := fun s f => if s.shouldEnable f then s else s.disable f)
    (I := fun u => Tab.sorted u.regs = true ∧ u.enablingBasis = s.enablingBasis) (P := fun fn => s.shouldEnable fn = false)
    (fun s a => by split; exacts [.refl, .disable s a])
    (fun u a hu => by
      split
      · exact hu
      · exact ⟨State.sorted_disable hu.1 a, (State.disable_enablingBasis hu.1 a).trans hu.2⟩)
    (fun u a hsu hu hp => by
      rw [if_neg (by rw [State.shouldEnable_congr hu.2, hp]; decide)]
      exact State.fnEnabled_disable_self hsu) _ s hs ⟨hs, rfl⟩
  exact ⟨h1, (Prod.mk.inj h2).1, fun fn hfn hp => h4 fn (mem_allFunctions.2 hfn) hp⟩

theorem State.shouldEnable_vf_off (h : s.fns.vfEnable = false) {fn : Nat} (hfn : 1 ≤ fn) : s.shouldEnable fn = false := by
  simp [State.shouldEnable, h, Nat.ne_of_gt hfn]

theorem State.shouldEnable_memSpace_off (h : s.fns.memSpace = false) (fn : Nat) : s.shouldEnable fn = false := by simp [State.shouldEnable, h]

theorem State.shouldEnable_link_down (h : s.fns.linkUp = false) (fn : Nat) : s.shouldEnable fn = false := by simp [State.shouldEnable, h]

/-- A disabled function whose condition holds is enabled, or fenced while its context is. -/
theorem State.enableAll_state (hs : Tab.sorted s.regs = true) {fn : Nat} (hfn : fn < 64) (hoff : s.fnState fn = 0) (hshould : s.shouldEnable fn = true) :
    s.enableAll.fnState fn = if s.fenced fn then 3 else 1 := by
  have hsorted : ∀ (s : State) (b : Nat), Tab.sorted s.regs = true → Tab.sorted (s.enableFn b).regs = true := by
    intro s b hs
    unfold State.enableFn
    split
    · exact State.sorted_setFld hs _ _ _
    · exact hs
  have hother : ∀ (s : State) (b : Nat), Tab.sorted s.regs = true → b ≠ fn → (s.enableFn b).fnState fn = s.fnState fn ∧
      (if (s.enableFn b).fnState fn = 0 && (s.enableFn b).shouldEnable fn then (if (s.enableFn b).fenced fn then 3 else 1) else (s.enableFn b).fnState fn) =
        (if s.fnState fn = 0 && s.shouldEnable fn then (if s.fenced fn then 3 else 1) else s.fnState fn) := by
    intro s b hs hb
    unfold State.enableFn
    split
    · have hstate : ∀ v, (s.setFld Fld.fnStateState b v).fnState fn = s.fnState fn := fun v => State.fld_setFld_ne hs (.inl hb) v (by decide)
      have hfenced : ∀ v, (s.setFld Fld.fnStateState b v).fenced fn = s.fenced fn := fun v =>
        State.flag_setFld_ne hs (.inr (.inl (by decide))) v (by decide)
      have hbasis : ∀ v, (s.setFld Fld.fnStateState b v).enablingBasis = s.enablingBasis := fun v => by
        unfold State.enablingBasis
        rw [State.fld_setFld_ne hs (.inr (.inl (by decide))) v (by decide)]
        rfl
      simp only [hstate, hfenced, State.shouldEnable_congr (hbasis _), and_self]
    · exact ⟨rfl, rfl⟩
  have hself : ∀ s : State, Tab.sorted s.regs = true →
      (s.enableFn fn).fnState fn = if s.fnState fn = 0 && s.shouldEnable fn then (if s.fenced fn then 3 else 1) else s.fnState fn := by
    intro s hs
    unfold State.enableFn
    split
    · refine (State.fld_setFld_self hs _ _ _).trans ?_
      split <;> rfl
    · rfl
  refine (State.foldl_sets (I := fun s => Tab.sorted s.regs = true) (T := fun s => s.fnState fn)
    (P := fun s => if s.fnState fn = 0 && s.shouldEnable fn then (if s.fenced fn then 3 else 1) else s.fnState fn) hsorted hother hself
    List.nodup_range (List.mem_range.2 hfn) s hs).trans ?_
  simp [hoff, hshould]

end

/-! ## Function-level resets (R353) -/

section
variable {s : State} {fn g : Nat}

theorem State.fnStateState_resetAt (i : Nat) : Fld.fnStateState.resetAt i = 0 := if_neg (by decide)

/-- The page of a function that is reset reads its Reset columns; every other function's state is as before. -/
theorem State.fnState_resetPage (hs : Tab.sorted s.regs = true) : (s.resetPage fn).fnState g = if g = fn then 0 else s.fnState g := by
  have hp := State.sorted_clearRegs (· == fn) pageRegs hs
  have hr := State.fld_clearRegs (· == fn) (f := Fld.fnStateState) (by decide) g pageRegs hs
  unfold State.resetPage State.fnState
  dsimp only
  generalize pageRegs.foldl (fun (s : State) r => s.clearReg r (· == fn)) s = v at hp hr
  change ((v.clearReg .ringCfg (fun i => i / 64 == fn)).clearReg .msixMod (fun i => i / 2048 == fn)).fld Fld.fnStateState g = _
  rw [State.fld_clearReg (Tab.sorted_filter hp) _ _ (by decide), if_neg fun h => absurd h.1 (by decide), State.fld_clearReg hp _ _ (by decide),
    if_neg fun h => absurd h.1 (by decide), hr, State.fnStateState_resetAt]
  have hmem : Fld.fnStateState.reg ∈ pageRegs := by decide
  simp [hmem]

theorem State.sorted_resetPage (hs : Tab.sorted s.regs = true) (fn : Nat) : Tab.sorted (s.resetPage fn).regs = true :=
  Tab.sorted_filter (Tab.sorted_filter (State.sorted_clearRegs (· == fn) pageRegs hs))

theorem State.OffKept.resetPage (s : State) (fn : Nat) : s.OffKept (s.resetPage fn) := fun hs => by
  refine ⟨State.sorted_resetPage hs fn, fun g hg => ?_⟩
  unfold State.fnEnabled
  rw [State.fnState_resetPage hs]
  split
  · rfl
  · exact hg

theorem State.OffKept.flr (s : State) (fn : Nat) : s.OffKept (s.flr fn) := by
  unfold State.flr
  dsimp only
  split
  · exact (State.OffKept.disable s fn).trans (.of_regs rfl)
  · exact (State.OffKept.disable s fn).trans (.resetPage _ fn)

theorem State.flr_off (hs : Tab.sorted s.regs = true) : (s.flr fn).fnEnabled fn = false := by
  unfold State.flr
  dsimp only
  split
  · exact State.fnEnabled_disable_self hs
  · exact ((State.OffKept.resetPage _ fn) (State.sorted_disable hs fn)).2 fn (State.fnEnabled_disable_self hs)

/-- A reset of a function that is disabled already leaves every function's state. -/
theorem State.fnState_flr_disabled (hs : Tab.sorted s.regs = true) (hoff : s.fnState fn = 0) : (s.flr fn).fnState g = if g = fn then 0 else s.fnState g := by
  have hdis : s.disable fn = s := by simp [State.disable, State.fnEnabled, hoff]
  simp only [State.flr, hdis, hoff]
  exact State.fnState_resetPage hs

theorem State.resetAttach_sorted (hs : Tab.sorted s.regs = true) : Tab.sorted s.resetAttach.regs = true :=
  State.sorted_clearRegs (fun _ => true) attachRegs hs

theorem State.fnState_resetAttach (hs : Tab.sorted s.regs = true) : s.resetAttach.fnState g = s.fnState g := by
  refine (State.fld_clearRegs (fun _ => true) (f := Fld.fnStateState) (by decide) g attachRegs hs).trans ?_
  exact if_neg fun h => absurd h.1 (by decide)

theorem State.OffKept.settleReset (s : State) : s.OffKept s.settleReset := by
  unfold State.settleReset
  split
  · exact fun hs => ⟨State.resetAttach_sorted hs, fun g hg => (State.fnEnabled_congr (State.fnState_resetAttach hs)).trans hg⟩
  · exact .refl

/-- What a reset of the physical function, or the link going down, clears of the functions' configuration. -/
def State.clearAttach (v : State) (pending : Bool) : State :=
  { v with fns := { v.fns with numVfs := 0, vfEnable := false, memSpace := false, pfReset := pending } }

theorem State.flrAll_eq (s : State) : s.flrAll = ((((List.range 63).map (· + 1) ++ [0]).foldl State.flr s).clearAttach true).settleReset := by
  unfold State.flrAll
  generalize ((List.range 63).map (· + 1) ++ [0]).foldl State.flr s = v
  rfl

theorem State.settleReset_fns (s : State) : s.settleReset.fns.numVfs = s.fns.numVfs ∧ s.settleReset.fns.vfEnable = s.fns.vfEnable ∧
    s.settleReset.fns.memSpace = s.fns.memSpace := by
  have hclear : ∀ v : State, (attachRegs.foldl (fun (s : State) r => s.clearReg r (fun _ => true)) v).fns = v.fns :=
    fun v => State.fns_foldl (f := fun (s : State) r => s.clearReg r (fun _ => true)) (fun _ _ => rfl) attachRegs v
  unfold State.settleReset
  split
  · unfold State.resetAttach
    simp only [hclear, and_self]
  · exact ⟨rfl, rfl, rfl⟩

/-- A reset of the physical function leaves no function enabled and its configuration cleared. -/
theorem State.flrAll_off (hs : Tab.sorted s.regs = true) : (∀ fn, fn < 64 → s.flrAll.fnEnabled fn = false) ∧
    s.flrAll.fns.numVfs = 0 ∧ s.flrAll.fns.vfEnable = false ∧ s.flrAll.fns.memSpace = false := by
  obtain ⟨hsorted, -, -, hoff⟩ := State.OffKept.foldl_off (f := State.flr) (I := fun _ => True) (P := fun _ => True) State.OffKept.flr (fun _ _ h => h)
    (fun s a hs _ _ => State.flr_off hs) ((List.range 63).map (· + 1) ++ [0]) s hs trivial
  rw [State.flrAll_eq]
  generalize ((List.range 63).map (· + 1) ++ [0]).foldl State.flr s = v at hsorted hoff ⊢
  obtain ⟨hnum, hvf, hmem⟩ := (v.clearAttach true).settleReset_fns
  exact ⟨fun fn hfn => (State.OffKept.settleReset (v.clearAttach true) hsorted).2 fn (hoff fn (mem_allFunctions.2 hfn) trivial), hnum, hvf, hmem⟩

/-- Resets of disabled functions leave every function disabled. -/
theorem State.foldl_flr_disabled : ∀ (l : List Nat) (s : State), (∀ a ∈ l, a < 64) → Tab.sorted s.regs = true → (∀ fn, fn < 64 → s.fnState fn = 0) →
    Tab.sorted (l.foldl State.flr s).regs = true ∧ ∀ fn, fn < 64 → (l.foldl State.flr s).fnState fn = 0
  | [], _, _, hs, h => ⟨hs, h⟩
  | a :: l, s, hl, hs, h => by
    refine State.foldl_flr_disabled l _ (fun b hb => hl b (List.mem_cons_of_mem _ hb)) (State.OffKept.flr s a hs).1 fun fn hfn => ?_
    rw [State.fnState_flr_disabled hs (h a (hl a List.mem_cons_self))]
    split
    · rfl
    · exact h fn hfn

theorem State.settleReset_disabled (hpending : s.fns.pfReset = true) (hoff : ∀ fn, fn < 64 → s.fnState fn = 0) : s.settleReset = s.resetAttach := by
  have hidle : s.anyDisabling = false := by
    refine List.any_eq_false.2 fun f hf => ?_
    simp [hoff f (List.mem_range.1 hf)]
  simp [State.settleReset, hpending, hidle]

theorem State.resetAttach_cleared (hs : Tab.sorted s.regs = true) : s.resetAttach.grants = [] ∧ ∀ w, w < 256 → s.resetAttach.flag Fld.hwinLock w = false := by
  refine ⟨rfl, fun w _ => ?_⟩
  have hlock : s.resetAttach.fld Fld.hwinLock w = Fld.hwinLock.resetAt w :=
    (State.fld_clearRegs (fun _ => true) (f := Fld.hwinLock) (by decide) w attachRegs hs).trans (if_pos ⟨by decide, rfl⟩)
  rw [State.flag, hlock]
  simp [Field.resetAt, Fld.hwinLock]

/-- With every function disabled the reset of the host attachment takes place at once. -/
theorem State.flrAll_attach (hs : Tab.sorted s.regs = true) (hoff : ∀ fn, fn < 64 → s.fnState fn = 0) :
    s.flrAll.grants = [] ∧ ∀ w, w < 256 → s.flrAll.flag Fld.hwinLock w = false := by
  obtain ⟨hsorted, hzero⟩ := State.foldl_flr_disabled ((List.range 63).map (· + 1) ++ [0]) s (fun a ha => mem_allFunctions.1 ha) hs hoff
  rw [State.flrAll_eq]
  generalize ((List.range 63).map (· + 1) ++ [0]).foldl State.flr s = v at hsorted hzero ⊢
  rw [State.settleReset_disabled (s := v.clearAttach true) rfl hzero]
  exact State.resetAttach_cleared hsorted

end

/-! ## The link goes down (R353, R443) -/

theorem State.breakCxlInboxes_fns (s : State) : s.breakCxlInboxes.fns = s.fns :=
  State.fns_foldl (fun s n => by split; split; all_goals rfl) _ s

theorem State.breakCxlInboxes_writesOnly (s : State) : s.writesOnly (· ∈ [Reg.inboxStat]) s.breakCxlInboxes := by
  refine State.writesOnly.foldl (fun s n => ?_) _ s
  split
  · split
    · exact .setFlag _ _ _ (by decide)
    · exact .refl
  · exact .refl

/-- A link that goes down leaves no function enabled, and what it was set up with is gone. -/
theorem State.cxlDown_off {s : State} (hs : Tab.sorted s.regs = true) : s.cxlDown.sec.ideKeys = [] ∧ s.cxlDown.fns.linkUp = false ∧
    s.cxlDown.fns.trained = none ∧ s.cxlDown.fns.hdm = none ∧ s.cxlDown.fns.numVfs = 0 ∧ s.cxlDown.fns.vfEnable = false ∧ s.cxlDown.fns.memSpace = false ∧
    ∀ fn, fn < 64 → s.cxlDown.fnEnabled fn = false := by
  obtain ⟨hsorted, hfns, hoff⟩ := State.disableGone_off (s := { s with fns := { s.fns with linkUp := false, trained := none, hdm := none } }) hs
  unfold State.cxlDown
  generalize ({ s with fns := { s.fns with linkUp := false, trained := none, hdm := none } } : State).disableGone = v at hsorted hfns hoff ⊢
  dsimp only
  have hfns' := (State.breakCxlInboxes_fns v).trans hfns
  have hregs := fun fn => (State.breakCxlInboxes_writesOnly v).fld hsorted (f := Fld.fnStateState) (by decide) fn
  generalize v.breakCxlInboxes = u at hfns' hregs ⊢
  exact ⟨rfl, congrArg Functions.linkUp hfns', congrArg Functions.trained hfns', congrArg Functions.hdm hfns', rfl, rfl, rfl,
    fun fn hfn => (State.fnEnabled_congr (hregs fn)).trans (hoff fn hfn (State.shouldEnable_link_down rfl fn))⟩

/-! ## Memory cleared (R353) -/

/-- Keys that are cleared read as the default, whatever the order of the table. -/
theorem Tab.get_clear_inside {α : Type} {d : α} : ∀ {t : Tab α} {a n k : Nat}, a ≤ k → k < a + n → Tab.get d (Tab.clear t a n) k = d
  | [], _, _, _, _, _ => rfl
  | (k', v) :: r, a, n, k, hlo, hhi => by
    have ih := Tab.get_clear_inside (d := d) (t := r) hlo hhi
    by_cases hk : k' < a ∨ a + n ≤ k'
    · have hclear : Tab.clear ((k', v) :: r) a n = (k', v) :: Tab.clear r a n := by simp [Tab.clear, hk]
      have hne : ¬ k' = k := by omega
      rw [hclear, Tab.get, if_neg hne]
      split
      · rfl
      · exact ih
    · have hclear : Tab.clear ((k', v) :: r) a n = Tab.clear r a n := by simp only [Tab.clear, List.filter_cons]; simp [hk]
      rw [hclear]
      exact ih

theorem State.clearSlot_plain {s : State} {l c : Nat} (hbacked : s.flag Fld.memChmapBacked l = true) (hfree : s.flag Fld.memChmapFenced l = false)
    (hc : s.boundChan l = some c) (hmirror : s.mirrorOf l = none) (hfill : s.fillOf l = none) : s.clearSlot l = s.clearChan c := by
  have hmirror' : (s.clearChan c).mirrorOf l = none := hmirror
  have hfill' : (s.clearChan c).fillOf l = none := hfill
  simp only [State.clearSlot, hbacked, hfree, hc, hmirror', hfill', Bool.not_true, Bool.false_eq_true, if_false]

theorem State.cxlResetAll_exec {s : State} (hp0 : s.inP0 = true) : ∃ u, exec .cxlReset s = .next u ∧ u.sec.ideKeys = [] ∧ u.fns.hdm = none ∧
    u = { s.flrAll with sec := u.sec, fns := u.fns } ∧ u.sec = { s.flrAll.sec with ideKeys := [] } ∧ u.fns = { s.flrAll.fns with hdm := none } ∧
    exec .cxlResetMemClear s = .next u.clearMemory := by
  have hreset : exec .cxlReset s = .next s.cxlResetAll := by rw [exec, execCxlReset, onAccess_p0 hp0]
  have hclear : exec .cxlResetMemClear s = .next s.cxlResetAll.clearMemory := by
    rw [exec, execCxlResetMemClear, onAccess_p0 hp0]
  unfold State.cxlResetAll at hreset hclear
  generalize s.flrAll = v at hreset hclear ⊢
  exact ⟨_, hreset, rfl, rfl, rfl, rfl, rfl, hclear⟩

/-- Settles O52: each command by what it sets, and the functions by the operations that disable, reset and enable them. -/
theorem functionsAreEnabledAndDisabled : Obligations.FunctionsAreEnabledAndDisabled := by
  unfold Obligations.FunctionsAreEnabledAndDisabled
  refine ⟨fun s n hn hvf => ?numVfs, rfl, rfl, fun s hcan => ?clears, fun s fn hcan => State.enableAll_state (State.canonical.regs hcan),
    fun s fn hfn => ⟨onUnit_ok (decide_eq_true hfn), onUnit_ok (decide_eq_true hfn)⟩, fun s n hp0 => ?resets, fun s hcan => ?off,
    fun s l c hbacked hfree hc hmirror hfill a => ?memory, fun s fn hfn hst hitems => ?complete⟩
  case numVfs => exact whenever_pos (by simp [hn, hvf, totalVfs])
  case clears =>
    have hs := State.canonical.regs hcan
    refine ⟨_, _, rfl, rfl, fun hup => ⟨_, whenever_pos hup, State.cxlDown_off hs⟩, fun fn hpos hfn => ?_, fun fn hfn => ?_⟩
    · exact (State.disableGone_off (s := { s with fns := { s.fns with vfEnable := false } }) hs).2.2 fn hfn (State.shouldEnable_vf_off rfl hpos)
    · exact (State.disableGone_off (s := { s with fns := { s.fns with memSpace := false } }) hs).2.2 fn hfn (State.shouldEnable_memSpace_off rfl fn)
  case resets =>
    refine ⟨fun hpos hn hvf hnum => ?_, onAccess_p0 hp0, State.cxlResetAll_exec hp0⟩
    refine (onUnit_ok (by simp [hpos, hn])).trans ?_
    simp [hvf, hnum, onAccess_p0 hp0]
  case off =>
    have hs := State.canonical.regs hcan
    obtain ⟨hall, hnum, hvf, hmem⟩ := State.flrAll_off hs
    exact ⟨fun fn _ => State.flr_off hs, hall, hnum, hvf, hmem, State.flrAll_attach hs⟩
  case memory =>
    rw [State.clearSlot_plain hbacked hfree hc hmirror hfill]
    exact ⟨fun hlo hhi => Tab.get_clear_inside hlo hhi, fun hout hwf => (Tab.get_clear (Memory.sorted_of_wf hwf)).trans (if_pos hout)⟩
  case complete =>
    have hempty : (s.fnItems fn).isEmpty = true := by
      simpa [State.fnItems, List.filter_eq_nil_iff] using hitems
    exact onUnit_whenever (decide_eq_true hfn) (by simp [hst, hempty])

end Sys2Proof.Machine
end

section
/-! SUPPORT. The tests of Assay and its rotation (O55). -/

namespace Sys2Proof.Machine

/-! ## Lanes of a link -/

/-- A two-bit digit of a number is replaced, and the digits beside it stay. -/
theorem bitsOf_replaceDigit (x v : Nat) {n j : Nat} (hn : n < 5) (hj : j < 5) :
    bitsOf ((x - 4 ^ n * bitsOf x (2 * n) 2 + 4 ^ n * (v % 4)) % 2 ^ 10) (2 * j) 2 = if j = n then v % 4 else bitsOf x (2 * j) 2 := by
  unfold bitsOf
  interval_cases n <;> interval_cases j <;> simp <;> omega

section
variable {s : State} (hs : Tab.sorted s.regs = true)
include hs

theorem State.lane_setLane (v : Nat) {l n m j : Nat} (hn : n < 5) (hj : j < 5) : (s.setLane l n v).lane m j = if m = l ∧ j = n then v % 4 else s.lane m j := by
  unfold State.lane State.setLane
  by_cases hl : m = l
  · subst hl
    rw [State.fld_setFld_self hs]
    exact (bitsOf_replaceDigit _ v hn hj).trans (by simp)
  · rw [State.fld_setFld_ne hs (.inl (Ne.symm hl)) _ (by decide), if_neg fun h => hl h.1]

end

theorem State.failLane_writesOnly (s : State) (l n : Nat) : s.writesOnly (· ∈ [Reg.linkStat]) (s.failLane l n) :=
  State.writesOnly.trans (.trans (.of_regs rfl) (.setFld Fld.linkStatLanes l _ (by decide))) (.of_regs rfl)

/-! ## A test starts (R405-R407) -/

/-- A unit is under test: its state is kept, it leaves the list of what comes next, and `BUSY` shows its kind. -/
def State.underTest (s : State) (x : AssayUnit) : State :=
  ({ s with assay := { s.assay with unit := some (x, s.unitState x), next := s.assay.next.filter (· != x) } }).setFld Fld.assayStatBusy 0 (assayBusy x)

/-- A tile under test shows it in its state, and the journal records it. -/
def State.testBegun (s : State) : AssayUnit → State
  | .tile p => ((s.underTest (.tile p)).setFld Fld.tilePhysState p 3).journal recTile (((s.underTest (.tile p)).setFld Fld.tilePhysState p 3).tileRecord p)
  | .lane g => s.underTest (.lane g)
  | .channel c => s.underTest (.channel c)

section
variable {s : State} {x : AssayUnit} (hwf : x.wf = true)
include hwf

theorem assayTestStart_waits (h : s.assayRuns = false ∨ s.assay.unit ≠ none ∨ s.assayEnabled x = false ∨ s.testable x = false ∨ s.testTurn x = false) :
    exec (.assayTestStart x) s = .next s := by
  refine (onUnit_ok hwf).trans (whenever_neg ?_)
  rcases h with h | h | h | h | h <;> simp [h, Option.isNone_iff_eq_none]

variable (hruns : s.assayRuns = true) (hidle : s.assay.unit = none) (hon : s.assayEnabled x = true) (htest : s.testable x = true) (hturn : s.testTurn x = true)
include hruns hidle hon htest hturn

/-- A unit that is worn out is failed, and any other one is under test. -/
theorem assayTestStart_begins : exec (.assayTestStart x) s = .next (
    if s.wornOut x then ({ s with assay := { s.assay with next := s.assay.next.filter (· != x) } }).failUnit x
    else s.testBegun x) := by
  refine (onUnit_whenever hwf (by simp [hruns, hidle, hon, htest, hturn])).trans ?_
  cases x <;> rfl

/-- What a test that starts writes. -/
theorem assayTestStart_tests (hs : Tab.sorted s.regs = true) (hworn : s.wornOut x = false) : ∃ u, exec (.assayTestStart x) s = .next u ∧
    u.assay = { s.assay with unit := some (x, s.unitState x), next := s.assay.next.filter (· != x) } ∧
    u.fld Fld.assayStatBusy 0 = assayBusy x ∧ u.tiles = s.tiles ∧ (∀ p, x = .tile p → u.fld Fld.tilePhysState p = 3) ∧
    ∀ f i, f.reg ≠ .assayStat → (∀ p, x = .tile p → ¬ (f.reg = .tilePhys ∧ i = p)) → f.lo < 1024 → u.fld f i = s.fld f i := by
  refine ⟨_, (assayTestStart_begins hwf hruns hidle hon htest hturn).trans (by rw [hworn, if_neg (by decide)]), ?_⟩
  have hbusy : (s.underTest x).fld Fld.assayStatBusy 0 = assayBusy x := by
    refine (State.fld_setFld_self (by exact hs) _ _ _).trans ?_
    cases x <;> rfl
  have hother : ∀ (f : Field) (i : Nat), f.reg ≠ .assayStat → f.lo < 1024 → (s.underTest x).fld f i = s.fld f i :=
    fun f i hf hlo => State.fld_setFld_ne (by exact hs) (.inr (.inl hf.symm)) _ ⟨by decide, hlo⟩
  have hs' : Tab.sorted (s.underTest x).regs = true := State.sorted_setFld (by exact hs) _ _ _
  cases x with
  | tile p =>
    refine ⟨rfl, (State.fld_setFld_ne hs' (.inr (.inl (by decide))) _ (by decide)).trans hbusy, rfl, fun q hq => ?_, fun f i hf hfree hlo => ?_⟩
    · obtain rfl := AssayUnit.tile.inj hq
      exact State.fld_setFld_self hs' _ _ _
    · have hne : p ≠ i ∨ Fld.tilePhysState.reg ≠ f.reg := by
        by_contra hcon
        push Not at hcon
        exact hfree p rfl ⟨hcon.2.symm, hcon.1.symm⟩
      exact (State.fld_setFld_ne hs' (hne.imp id .inl) _ ⟨by decide, hlo⟩).trans (hother f i hf hlo)
  | lane g => exact ⟨rfl, hbusy, rfl, fun _ hp => AssayUnit.noConfusion hp, fun f i hf _ hlo => hother f i hf hlo⟩
  | channel c => exact ⟨rfl, hbusy, rfl, fun _ hp => AssayUnit.noConfusion hp, fun f i hf _ hlo => hother f i hf hlo⟩

end

theorem State.testTurn_iff {s : State} {x : AssayUnit} : s.testTurn x = true ↔
    s.assayNext = some x ∨ (s.assayNext = none ∧ (s.testDue x = true ∨ (s.unitState x = 2 ∧ assayBusy x = 1))) := by
  unfold State.testTurn
  cases hnext : s.assayNext with
  | none => simp only [Bool.or_eq_true, Bool.and_eq_true, beq_iff_eq, reduceCtorEq, false_or, true_and]
  | some v => simp only [beq_iff_eq, Option.some.injEq, reduceCtorEq, false_and, or_false, eq_comm (a := v)]

/-! ## A test ends (R405, R406) -/

/-- Nothing is under test, and the outcome of the test is counted. -/
def State.testCounted (s : State) (x : AssayUnit) (passed : Bool) : State :=
  let u := s.assayIdle.bump (if passed then Fld.assayStatPass else Fld.assayStatFail) 0 1
  { u with assay := { u.assay with lastTest := Tab.set 0 u.assay.lastTest (assayKey x) (u.tally + 1) } }

section
variable {s : State} {x : AssayUnit} {prior : Nat} (hunit : s.assay.unit = some (x, prior))
include hunit

/-- A test of a tile in a region that the under-voltage guard holds does not end. -/
theorem assayTestComplete_held (passed : Bool) (h : s.unitHeld x = true) : exec (.assayTestComplete passed) s = .next s := by
  show execAssayTestComplete passed s = _
  simp only [execAssayTestComplete, hunit, h, if_true]

theorem assayTestComplete_gone (passed : Bool) (htile : ∀ p, x ≠ .tile p) (h : s.unitState x ≠ prior) :
    exec (.assayTestComplete passed) s = .next s.assayIdle := by
  show execAssayTestComplete passed s = _
  cases x with
  | tile p => exact absurd rfl (htile p)
  | lane g => simp [execAssayTestComplete, hunit, State.unitHeld, h]
  | channel c => simp [execAssayTestComplete, hunit, State.unitHeld, h]

theorem assayTestComplete_tile (passed : Bool) {p : Nat} (hx : x = .tile p) (h : s.flag Fld.pwrRegionUv (islandOf p) = false) :
    exec (.assayTestComplete passed) s = .next ((s.testCounted x passed).tileTested p passed) := by
  show execAssayTestComplete passed s = _
  subst hx
  simp only [execAssayTestComplete, hunit, State.unitHeld, h, Bool.false_eq_true, if_false] <;> rfl

theorem assayTestComplete_lane (passed : Bool) {g : Nat} (hx : x = .lane g) (h : s.unitState x = prior) :
    exec (.assayTestComplete passed) s = .next ((s.testCounted x passed).laneTested g passed) := by
  show execAssayTestComplete passed s = _
  subst hx
  simp only [execAssayTestComplete, hunit, State.unitHeld, h, bne_self_eq_false, Bool.false_eq_true, if_false] <;> rfl

theorem assayTestComplete_channel (passed : Bool) {c : Nat} (hx : x = .channel c) (h : s.unitState x = prior) :
    exec (.assayTestComplete passed) s = .next ((s.testCounted x passed).chanTested c passed) := by
  show execAssayTestComplete passed s = _
  subst hx
  simp only [execAssayTestComplete, hunit, State.unitHeld, h, bne_self_eq_false, Bool.false_eq_true, if_false] <;> rfl

end

/-! ## What the count of an outcome leaves -/

section
variable (s : State) (x : AssayUnit) (passed : Bool)

theorem State.testCounted_eq : s.testCounted x passed = { s with regs := (s.testCounted x passed).regs, assay := (s.testCounted x passed).assay } := by
  unfold State.testCounted State.bump
  dsimp only
  split <;> rfl

theorem State.testCounted_unit : (s.testCounted x passed).assay.unit = none := by
  unfold State.testCounted State.bump
  dsimp only
  split <;> rfl

theorem State.testCounted_laneFails : (s.testCounted x passed).assay.laneFails = s.assay.laneFails := by
  unfold State.testCounted State.bump
  dsimp only
  split <;> rfl

theorem State.testCounted_writesOnly : s.writesOnly (· ∈ [Reg.assayStat]) (s.testCounted x passed) := by
  refine State.writesOnly.trans (t := s.assayIdle.bump (if passed then Fld.assayStatPass else Fld.assayStatFail) 0 1)
    (.trans (.trans (.of_regs rfl) (.setFld Fld.assayStatBusy 0 0 (by decide))) (.bump _ 0 1 ?_)) (.of_regs rfl)
  cases passed <;> decide

variable {s x passed}

/-- The outcome's count rises, the other one stays, and nothing is under test. -/
theorem State.testCounted_stat (hs : Tab.sorted s.regs = true) : (s.testCounted x passed).fld Fld.assayStatBusy 0 = 0 ∧
    (s.testCounted x passed).fld Fld.assayStatPass 0 = s.counted Fld.assayStatPass 0 (if passed then 1 else 0) ∧
    (s.testCounted x passed).fld Fld.assayStatFail 0 = s.counted Fld.assayStatFail 0 (if passed then 0 else 1) := by
  have hs' : Tab.sorted s.assayIdle.regs = true := State.sorted_setFld hs _ _ _
  have hne : ∀ f : Field, f.lo < 1024 → Fld.assayStatBusy.lo ≠ f.lo → s.assayIdle.fld f 0 = s.fld f 0 :=
    fun f hf h => State.fld_setFld_ne hs (.inr (.inr h)) _ ⟨by decide, hf⟩
  have hbusy : s.assayIdle.fld Fld.assayStatBusy 0 = 0 := State.fld_setFld_self hs _ _ _
  have hbump : ∀ f g : Field, (f.lo < 1024 ∧ g.lo < 1024 ∧ f.lo ≠ g.lo) → f.resetAt 0 = 0 → 0 < f.width →
      (s.assayIdle.bump f 0 1).fld g 0 = s.assayIdle.fld g 0 :=
    fun f g h hr hw => State.fld_bump_ne (Field.key_ne h.1 h.2.1 (.inr (.inr h.2.2))) hr hw
  cases passed with
  | true =>
    refine ⟨(hbump Fld.assayStatPass _ (by decide) rfl (by decide)).trans hbusy, (State.fld_bump_self hs' _ _ _).trans ?_,
      (hbump Fld.assayStatPass _ (by decide) rfl (by decide)).trans (hne _ (by decide) (by decide))⟩
    unfold State.counted
    rw [hne _ (by decide) (by decide)]
    rfl
  | false =>
    refine ⟨(hbump Fld.assayStatFail _ (by decide) rfl (by decide)).trans hbusy,
      (hbump Fld.assayStatFail _ (by decide) rfl (by decide)).trans (hne _ (by decide) (by decide)), (State.fld_bump_self hs' _ _ _).trans ?_⟩
    unfold State.counted
    rw [hne _ (by decide) (by decide)]
    rfl

end

/-! ## What the end of each kind of test writes -/

theorem State.sorted_testCounted {s : State} (hs : Tab.sorted s.regs = true) (x : AssayUnit) (passed : Bool) :
    Tab.sorted (s.testCounted x passed).regs = true := (s.testCounted_writesOnly x passed hs).1

/-- The fields that the end of a tile's test sets: its state, its count of tests, and a fence that a pass lifts. -/
def State.tileOutcome (s : State) (p : Nat) (passed : Bool) : State :=
  let u := (s.setFld Fld.tilePhysState p (if passed then 1 else 4)).bump Fld.tilePhysAssayRuns p 1
  if passed then u.setFlag Fld.tilePhysArrayFenced p false else u

section
variable {s : State} {p : Nat} {passed : Bool}

theorem State.tileTested_eq (s : State) (p : Nat) (passed : Bool) : s.tileTested p passed =
    ((((s.tileOutcome p passed).setTile p ((s.tileOutcome p passed).tile p).blank).journal recTile
      (((s.tileOutcome p passed).setTile p ((s.tileOutcome p passed).tile p).blank).tileRecord p)).modeCheck) := rfl

theorem State.tileOutcome_frame (s : State) (p : Nat) (passed : Bool) : s.tileOutcome p passed = { s with regs := (s.tileOutcome p passed).regs } := by
  unfold State.tileOutcome State.bump
  cases passed <;> dsimp only <;> split <;> rfl

theorem State.tileOutcome_writesOnly (s : State) (p : Nat) (passed : Bool) : s.writesOnly (· ∈ [Reg.tilePhys]) (s.tileOutcome p passed) := by
  have h : s.writesOnly (· ∈ [Reg.tilePhys]) ((s.setFld Fld.tilePhysState p (if passed then 1 else 4)).bump Fld.tilePhysAssayRuns p 1) :=
    .trans (.setFld _ _ _ (by decide)) (.bump _ _ _ (by decide))
  cases passed
  · exact h
  · exact h.trans (.setFlag _ _ _ (by decide))

theorem State.tileOutcome_fields (hs : Tab.sorted s.regs = true) : (s.tileOutcome p passed).fld Fld.tilePhysState p = (if passed then 1 else 4) ∧
    (s.tileOutcome p passed).flag Fld.tilePhysArrayFenced p = (!passed && s.flag Fld.tilePhysArrayFenced p) ∧
    (s.tileOutcome p passed).fld Fld.tilePhysAssayRuns p = s.counted Fld.tilePhysAssayRuns p 1 := by
  have h1 : Tab.sorted (s.setFld Fld.tilePhysState p (if passed then 1 else 4)).regs = true := State.sorted_setFld hs _ _ _
  have h2 : Tab.sorted ((s.setFld Fld.tilePhysState p (if passed then 1 else 4)).bump Fld.tilePhysAssayRuns p 1).regs = true :=
    (State.writesOnly.bump (w := fun _ => True) Fld.tilePhysAssayRuns p 1 ⟨trivial, by decide⟩ h1).1
  have hbump : ∀ f : Field, (f.lo < 1024 ∧ Fld.tilePhysAssayRuns.lo ≠ f.lo) →
      ((s.setFld Fld.tilePhysState p (if passed then 1 else 4)).bump Fld.tilePhysAssayRuns p 1).fld f p =
        (s.setFld Fld.tilePhysState p (if passed then 1 else 4)).fld f p :=
    fun f h => State.fld_bump_ne (Field.key_ne (by decide) h.1 (.inr (.inr h.2))) rfl (by decide)
  have hstate : ((s.setFld Fld.tilePhysState p (if passed then 1 else 4)).bump Fld.tilePhysAssayRuns p 1).fld Fld.tilePhysState p = if passed then 1 else 4 := by
    refine (hbump _ (by decide)).trans ((State.fld_setFld_self hs _ _ _).trans ?_)
    cases passed <;> rfl
  have hruns : ((s.setFld Fld.tilePhysState p (if passed then 1 else 4)).bump Fld.tilePhysAssayRuns p 1).fld Fld.tilePhysAssayRuns p =
      s.counted Fld.tilePhysAssayRuns p 1 := by
    rw [State.fld_bump_self h1, State.counted_congr (State.fld_setFld_ne hs (.inr (.inr (by decide))) _ (by decide))]
  have hfenced : ((s.setFld Fld.tilePhysState p (if passed then 1 else 4)).bump Fld.tilePhysAssayRuns p 1).fld Fld.tilePhysArrayFenced p =
      s.fld Fld.tilePhysArrayFenced p := (hbump _ (by decide)).trans (State.fld_setFld_ne hs (.inr (.inr (by decide))) _ (by decide))
  cases passed with
  | false => exact ⟨hstate, congrArg (· != 0) hfenced, hruns⟩
  | true =>
    exact ⟨(State.fld_setFld_ne h2 (.inr (.inr (by decide))) _ (by decide)).trans hstate, State.flag_setFlag_self h2 rfl _ _,
      (State.fld_setFld_ne h2 (.inr (.inr (by decide))) _ (by decide)).trans hruns⟩

/-- The end of a tile's test: the outcome's fields, and storage that holds nothing. -/
theorem State.tileTested_spec (ht : Tab.sorted s.tiles = true) : (s.tileTested p passed).assay = s.assay ∧
    (s.tileTested p passed).mem = s.mem ∧ (s.tileTested p passed).tile p = (s.tile p).blank ∧ (∀ k, k ≠ p → (s.tileTested p passed).tile k = s.tile k) ∧
    (s.tileTested p passed).regs = (s.tileOutcome p passed).regs := by
  have hframe := s.tileOutcome_frame p passed
  have htiles : (s.tileOutcome p passed).tiles = s.tiles := (congrArg State.tiles hframe :)
  have hassay := congrArg State.assay hframe
  have hmem := congrArg State.mem hframe
  have ht' : Tab.sorted (s.tileOutcome p passed).tiles = true := htiles ▸ ht
  have htile : ∀ k, (s.tileOutcome p passed).tile k = s.tile k := fun k => congrArg (Tab.get Tile.empty · k) htiles
  rw [State.tileTested_eq, State.modeCheck_eq]
  refine ⟨hassay, hmem, ?_, fun k hk => (State.tile_setTile_other ht' hk _).trans (htile k), rfl⟩
  exact (State.tile_setTile_self ht' _ _).trans (congrArg Tile.blank (htile p))

end

section
variable {s : State} {g c : Nat}

/-- A lane that fails a test has failed once more and is failed; a failed one that passes is a spare. -/
theorem State.laneTested_eq (s : State) (g : Nat) (passed : Bool) : s.laneTested g passed =
    if passed = false then s.failLane (g / 5) (g % 5)
    else if s.lane (g / 5) (g % 5) = 2 then (s.setLane (g / 5) (g % 5) 1).journal recLane [g, 1, Tab.get 0 s.assay.laneFails g] else s := by
  cases passed <;> rfl

theorem State.laneTested_writesOnly (s : State) (g : Nat) (passed : Bool) : s.writesOnly (· ∈ [Reg.linkStat]) (s.laneTested g passed) := by
  rw [State.laneTested_eq]
  split
  · exact s.failLane_writesOnly _ _
  · split
    · exact .trans (.setFld Fld.linkStatLanes _ _ (by decide)) (.of_regs rfl)
    · exact .refl

theorem State.laneTested_unit (s : State) (g : Nat) (passed : Bool) : (s.laneTested g passed).assay.unit = s.assay.unit := by
  rw [State.laneTested_eq]
  split
  · rfl
  · split <;> rfl

/-- Of the fields of `LINK_STAT` a lane's test changes the lanes only. -/
theorem State.laneTested_linkStat (hs : Tab.sorted s.regs = true) (passed : Bool) {f : Field} {i : Nat} (hlo : f.lo < 1024)
    (hf : f.lo ≠ Fld.linkStatLanes.lo) : (s.laneTested g passed).fld f i = s.fld f i := by
  have hset : ∀ (u : State) (v : Nat), Tab.sorted u.regs = true → (u.setLane (g / 5) (g % 5) v).fld f i = u.fld f i := fun u v hu =>
    State.fld_setFld_ne hu (.inr (.inr hf.symm)) _ ⟨by decide, hlo⟩
  rw [State.laneTested_eq]
  split
  · exact hset _ 2 (by exact hs)
  · split
    · exact hset s 1 hs
    · rfl

/-- The lane under test after it, and every other lane as before. -/
theorem State.lane_laneTested (hs : Tab.sorted s.regs = true) (passed : Bool) {l j : Nat} (hj : j < 5) : (s.laneTested g passed).lane l j =
    if 5 * l + j = g then (if passed = false then 2 else if s.lane l j = 2 then 1 else s.lane l j) else s.lane l j := by
  have hn : g % 5 < 5 := Nat.mod_lt _ (by decide)
  have hthis : (l = g / 5 ∧ j = g % 5) ↔ 5 * l + j = g := by omega
  have hset : ∀ (u : State) (v : Nat), Tab.sorted u.regs = true → v < 4 →
      (u.setLane (g / 5) (g % 5) v).lane l j = if 5 * l + j = g then v else u.lane l j := fun u v hu hv => by
    rw [State.lane_setLane hu v hn hj, Nat.mod_eq_of_lt hv]
    exact if_congr hthis rfl rfl
  rw [State.laneTested_eq]
  by_cases hp : passed = false
  · rw [if_pos hp]
    refine (hset _ 2 (by exact hs) (by decide)).trans ?_
    simp only [hp, if_true]
    rfl
  · rw [if_neg hp]
    by_cases hl : s.lane (g / 5) (g % 5) = 2
    · rw [if_pos hl]
      refine (hset s 1 hs (by decide)).trans (if_ctx_congr Iff.rfl (fun h => ?_) fun _ => rfl)
      obtain ⟨rfl, rfl⟩ := hthis.2 h
      rw [if_neg hp, if_pos hl]
    · rw [if_neg hl]
      split
      · next h =>
        obtain ⟨rfl, rfl⟩ := hthis.2 h
        simp only [hl, if_false]
      · rfl

theorem State.laneTested_failed (s : State) (g : Nat) : Tab.get 0 (s.laneTested g false).assay.laneFails g = Tab.get 0 s.assay.laneFails g + 1 ∧
    (s.laneTested g false).sec.changes = s.sec.changes ++ [(recLane, [g, 2, Tab.get 0 s.assay.laneFails g + 1], s.tally)] := by
  have hlane : 5 * (g / 5) + g % 5 = g := Nat.div_add_mod g 5
  rw [State.laneTested_eq, if_pos rfl, State.failLane, hlane]
  exact ⟨Tab.get_set_ne (Nat.succ_ne_zero _), rfl⟩

theorem State.laneTested_passed (s : State) (g : Nat) : (s.laneTested g true).assay.laneFails = s.assay.laneFails ∧
    (s.laneTested g true).sec.changes = s.sec.changes ++
      (if s.lane (g / 5) (g % 5) = 2 then [(recLane, [g, 1, Tab.get 0 s.assay.laneFails g], s.tally)] else []) := by
  rw [State.laneTested_eq, if_neg (by decide)]
  split
  · exact ⟨rfl, rfl⟩
  · exact ⟨rfl, (List.append_nil _).symm⟩

theorem State.passEnd_frame (s : State) : s.passEnd = { s with regs := s.passEnd.regs, chans := s.passEnd.chans } := by
  unfold State.passEnd State.bump
  split
  · dsimp only
    split <;> rfl
  · rfl

theorem State.passEnd_writesOnly (s : State) : s.writesOnly (· ∈ [Reg.memScrub]) s.passEnd := by
  unfold State.passEnd
  split
  · exact .trans (.of_regs rfl) (.bump Fld.memScrubPasses 0 1 (by decide))
  · exact .refl

/-- The end of a channel's test: its state, its codewords as zeros without a mark, and the record in the journal. -/
theorem State.chanTested_spec (hs : Tab.sorted s.regs = true) (c : Nat) (passed : Bool) : ∃ u, s.chanTested c passed = u ∧ u.assay = s.assay ∧
    s.writesOnly (· ∈ [Reg.memChstat, .memScrub]) u ∧ u.fld Fld.memChstatState c = (if passed then 1 else 4) ∧
    (∀ i, i ≠ c → u.fld Fld.memChstatState i = s.fld Fld.memChstatState i) ∧
    u.sec.changes = s.sec.changes ++ [(recChannel, [c, if passed then 1 else 4, 0x3F], s.tally)] ∧
    u.mem = Mem.zero s.mem (chanBytes * c) chanBytes ∧ u.memPoison = Tab.clear s.memPoison (chanCodewords * c) chanCodewords := by
  obtain ⟨v, hend, hregs, hassay, hmem, hpoison, hchanges⟩ : ∃ v : State, s.chanTested c passed = v.passEnd ∧
      v.regs = (s.setFld Fld.memChstatState c (if passed then 1 else 4)).regs ∧ v.assay = s.assay ∧
      v.mem = Mem.zero s.mem (chanBytes * c) chanBytes ∧ v.memPoison = Tab.clear s.memPoison (chanCodewords * c) chanCodewords ∧
      v.sec.changes = s.sec.changes ++ [(recChannel, [c, if passed then 1 else 4, 0x3F], s.tally)] := ⟨_, rfl, rfl, rfl, rfl, rfl, rfl⟩
  have hvs : Tab.sorted v.regs = true := hregs ▸ State.sorted_setFld hs _ _ _
  have hframe := v.passEnd_frame
  have hstate : ∀ i, v.passEnd.fld Fld.memChstatState i = (s.setFld Fld.memChstatState c (if passed then 1 else 4)).fld Fld.memChstatState i :=
    fun i => (v.passEnd_writesOnly.fld hvs (by decide) i).trans (State.fld_congr hregs _ _)
  refine ⟨_, hend, (congrArg State.assay hframe :).trans hassay, ?_, (hstate c).trans ?_, fun i hi => (hstate i).trans ?_,
    (congrArg (fun u : State => u.sec.changes) hframe :).trans hchanges, (congrArg State.mem hframe :).trans hmem,
    (congrArg State.memPoison hframe :).trans hpoison⟩
  · exact .trans (.trans (.setFld Fld.memChstatState c _ (by decide)) (.of_regs hregs)) (v.passEnd_writesOnly.mono fun r hr => List.mem_cons_of_mem _ hr)
  · refine (State.fld_setFld_self hs _ _ _).trans ?_
    cases passed <;> rfl
  · exact State.fld_setFld_ne hs (.inl (Ne.symm hi)) _ (by decide)

end

/-- Settles O55: each command by its conditions; the ends of tests by what each kind of unit gets. -/
theorem assayTestsUnitsAndRotates : Obligations.AssayTestsUnitsAndRotates := by
  unfold Obligations.AssayTestsUnitsAndRotates
  refine ⟨fun s x hwf h => assayTestStart_waits hwf h, fun s x hwf hcan hruns hidle hon htest hturn => ?starts, fun s x prior => ?turn,
    fun s p prior passed hcan hp hunit huv => ?tile, fun s u x prior passed hunit htile => ?other, fun s g prior passed hcan hg hunit hstate => ?lane,
    fun s c prior passed hcan hc hunit hstate => ?channel, fun s t sp hruns hrotate hdue hnext hfresh => ?rotates⟩
  case starts =>
    refine ⟨fun hworn => ?_, assayTestStart_tests hwf hruns hidle hon htest hturn (State.canonical.regs hcan)⟩
    rw [assayTestStart_begins hwf hruns hidle hon htest hturn, if_pos hworn]
  case turn => exact ⟨State.testTurn_iff, fun p passed hx hunit huv => assayTestComplete_held hunit passed (by rw [hx]; exact huv)⟩
  case tile =>
    have hs := State.canonical.regs hcan
    have hcount := State.sorted_testCounted hs (.tile p) passed
    have hwrites := s.testCounted_writesOnly (.tile p) passed
    have hframe := s.testCounted_eq (.tile p) passed
    obtain ⟨hbusy, hpass, hfail⟩ := State.testCounted_stat (x := .tile p) (passed := passed) hs
    obtain ⟨hstate, hfenced, htested⟩ := State.tileOutcome_fields (p := p) (passed := passed) hcount
    have htiles : (s.testCounted (.tile p) passed).tiles = s.tiles := (congrArg State.tiles hframe :)
    obtain ⟨hassay, hmem, hself, hrest, hregs⟩ := State.tileTested_spec (s := s.testCounted (.tile p) passed) (p := p) (passed := passed) (by rw [htiles]; exact State.canonical.tiles hcan)
    have hlast := ((s.testCounted (.tile p) passed).tileOutcome_writesOnly p passed).trans (.of_regs hregs)
    have htile : ∀ k, (s.testCounted (.tile p) passed).tile k = s.tile k := fun k => congrArg (Tab.get Tile.empty · k) htiles
    refine ⟨_, assayTestComplete_tile hunit passed rfl huv, (congrArg Assay.unit hassay).trans (s.testCounted_unit _ _),
      (hlast.fld hcount (by decide) 0).trans hbusy, (State.fld_congr hregs _ _).trans hstate, hself.trans (congrArg Tile.blank (htile p)),
      (State.flag_congr hregs _ _).trans (hfenced.trans ?_), (State.fld_congr hregs _ _).trans (htested.trans (State.counted_congr ?_ _)),
      (hlast.fld hcount (by decide) 0).trans hpass, (hlast.fld hcount (by decide) 0).trans hfail, ?_, fun k hk => (hrest k hk).trans (htile k),
      hmem.trans (congrArg State.mem hframe :)⟩
    · rw [hwrites.flag hs (by decide)]
    · exact hwrites.fld hs (by decide) p
    · exact (State.writesOnly.trans (hwrites.mono fun r hr => List.mem_cons.2 (.inl (List.mem_singleton.1 hr)))
        (hlast.mono fun r hr => List.mem_cons_of_mem _ hr)).regsBut hs
  case other =>
    refine ⟨assayTestComplete_gone hunit passed htile, fun hstate hu => ⟨fun g hx => ?_, fun c hx => ?_⟩⟩
    · rw [assayTestComplete_lane hunit passed hx hstate, hu, hx]
      rfl
    · rw [assayTestComplete_channel hunit passed hx hstate, hu, hx]
      rfl
  case lane =>
    have hs := State.canonical.regs hcan
    have hcount := State.sorted_testCounted hs (.lane g) passed
    have hwrites := s.testCounted_writesOnly (.lane g) passed
    have hframe := s.testCounted_eq (.lane g) passed
    have hlast := (s.testCounted (.lane g) passed).laneTested_writesOnly g passed
    have hlane : ∀ l j, (s.testCounted (.lane g) passed).lane l j = s.lane l j := fun l j => by
      unfold State.lane
      rw [hwrites.fld hs (by decide)]
    have hsec : (s.testCounted (.lane g) passed).sec = s.sec := (congrArg State.sec hframe :)
    have htally : (s.testCounted (.lane g) passed).tally = s.tally := (congrArg State.tally hframe :)
    have hfails := s.testCounted_laneFails (.lane g) passed
    obtain ⟨hbusy, hpass, hfail⟩ := State.testCounted_stat (x := .lane g) (passed := passed) hs
    refine ⟨_, assayTestComplete_lane hunit passed rfl hstate, (State.laneTested_unit _ _ _).trans (s.testCounted_unit _ _), ?_,
      (hlast.fld hcount (by decide) 0).trans hbusy, (hlast.fld hcount (by decide) 0).trans hpass, (hlast.fld hcount (by decide) 0).trans hfail,
      fun l j hj hne => ?_, fun f i hf hlo hne => ?_, ?_, fun hp => ?_, fun hp => ?_⟩
    · exact (State.writesOnly.trans (hwrites.mono fun r hr => List.mem_cons.2 (.inl (List.mem_singleton.1 hr)))
        (hlast.mono fun r hr => List.mem_cons_of_mem _ hr)).regsBut hs
    · rw [State.lane_laneTested hcount passed hj, if_neg hne, hlane]
    · exact (State.laneTested_linkStat hcount passed hlo hne).trans (hwrites.fld hs ⟨by rw [hf]; decide, hlo⟩ i)
    · rw [State.lane_laneTested hcount passed (Nat.mod_lt _ (by decide)), if_pos (Nat.div_add_mod g 5), hlane, ← hstate]
      rfl
    · subst hp
      obtain ⟨hcounts, hchanges⟩ := (s.testCounted (.lane g) false).laneTested_failed g
      rw [hcounts, hchanges, hfails, hsec, htally]
      exact ⟨rfl, rfl⟩
    · subst hp
      obtain ⟨hcounts, hchanges⟩ := (s.testCounted (.lane g) true).laneTested_passed g
      rw [hcounts, hchanges, hfails, hsec, htally, hlane, ← hstate]
      exact ⟨rfl, rfl⟩
  case channel =>
    have hs := State.canonical.regs hcan
    have hcount := State.sorted_testCounted hs (.channel c) passed
    have hwrites := s.testCounted_writesOnly (.channel c) passed
    have hframe := s.testCounted_eq (.channel c) passed
    obtain ⟨u, hu, hassay, hlast, hstate', hothers, hchanges, hmem, hpoison⟩ := State.chanTested_spec hcount c passed
    obtain ⟨-, hpass, hfail⟩ := State.testCounted_stat (x := .channel c) (passed := passed) hs
    have hmem' : (s.testCounted (.channel c) passed).mem = s.mem := (congrArg State.mem hframe :)
    have hsec : (s.testCounted (.channel c) passed).sec = s.sec := (congrArg State.sec hframe :)
    have htally : (s.testCounted (.channel c) passed).tally = s.tally := (congrArg State.tally hframe :)
    refine ⟨u, (assayTestComplete_channel hunit passed rfl hstate).trans (by rw [hu]), (congrArg Assay.unit hassay).trans (s.testCounted_unit _ _), ?_,
      (hlast.fld hcount (by decide) 0).trans hpass, (hlast.fld hcount (by decide) 0).trans hfail, hstate',
      fun i hi => (hothers i hi).trans (hwrites.fld hs (by decide) i), by rw [hchanges, hsec, htally], fun a hlo hhi => ?_, fun k hk => ?_, fun a ha => ?_⟩
    · exact (State.writesOnly.trans (hwrites.mono fun r hr => List.mem_cons.2 (.inl (List.mem_singleton.1 hr)))
        (hlast.mono fun r hr => List.mem_cons_of_mem _ hr)).regsBut hs
    · rw [hmem]
      exact Tab.get_clear_inside hlo hhi
    · unfold State.arrayPoison
      rw [hpoison]
      exact Tab.get_clear_inside (Nat.le_add_right _ _) (Nat.add_lt_add_left hk _)
    · rw [hmem, hmem', Mem.read_zero (State.canonical.mem hcan), if_neg (by omega)]
  case rotates =>
    have hgo : (!(s.assayRuns && s.flag Fld.assayCtlRotate 0 && s.periodDue s.assay.lastRotation)) = false := by simp [hruns, hrotate, hdue]
    refine ⟨fun hbusy => ?_, fun p u hp hu => ?_⟩
    · show execAssayRotation s = _
      simp only [execAssayRotation, hgo, hnext, hfresh, hbusy, Bool.false_eq_true, if_false, Option.isNone_none, if_true]
    · show execAssayRotation s = _
      rw [hu]
      simp only [execAssayRotation, hgo, hnext, hfresh, hp, Bool.false_eq_true, if_false, Option.isNone_some]

end Sys2Proof.Machine
end

section
/-! SUPPORT. A write that waits for a held controller block takes effect at the exit of the under-voltage guard (O56). -/

namespace Sys2Proof.Machine

/-- The under-voltage guard holds region 0, and with it the controller blocks of stacks 0 to 3 (R37, R415); a write of one byte to codeword 0 of logical channel 0
waits for it. -/
def heldWriteState : State :=
  { State.reset.setFlag Fld.pwrRegionUv 0 true with chans := { State.reset.chans with late := [⟨0, 0, 0, [0xFF], false⟩] } }

theorem heldWriteState_canonical : heldWriteState.canonical = true := by decide

/-- The write is in memory once the guard has let go, and was not before. -/
theorem heldWriteState_written : Mem.read heldWriteState.mem 0 = 0 ∧
    Mem.read ((heldWriteState.setFlag Fld.pwrRegionUv 0 false).lateWrites.lateRepairs).mem 0 = 0xFF := by decide

/-- At an exit that a write waits for, more than register fields changes. -/
theorem uvGuardExit_writes_memory {u : State} (h : exec (.uvGuardExit 0) heldWriteState = .next u) : u ≠ { heldWriteState with regs := u.regs } := by
  have hexit : exec (.uvGuardExit 0) heldWriteState = .next ((heldWriteState.setFlag Fld.pwrRegionUv 0 false).lateWrites.lateRepairs) := rfl
  have hu := Host.Outcome.next.inj (h.symm.trans hexit)
  intro hframe
  have hmem : u.mem = heldWriteState.mem := (congrArg State.mem hframe :)
  obtain ⟨hbefore, hafter⟩ := heldWriteState_written
  rw [← hu, hmem, hbefore] at hafter
  exact absurd hafter (by decide)

/-- Refutes O56: its clause for `UV_GUARD_EXIT` says that nothing but register fields changes, but a write that waited for a controller block of the region
takes effect at the exit (R262, R415): in `heldWriteState` the byte at address 0 becomes 0xFF. -/
theorem not_sensorsLoopsAndEnergyFollowTheReadings : ¬ Obligations.SensorsLoopsAndEnergyFollowTheReadings := by
  unfold Obligations.SensorsLoopsAndEnergyFollowTheReadings
  rintro ⟨-, -, -, -, hguard, -⟩
  obtain ⟨-, -, u, hexit, -, hframe, -⟩ := hguard heldWriteState 0 (by decide) heldWriteState_canonical
  exact uvGuardExit_writes_memory hexit hframe

end Sys2Proof.Machine
end

section
/-! SUPPORT. The log of a journal half, the half that is active, and what a record or a compaction step makes of them (O58, first part). -/

namespace Sys2Proof.Machine

/-! ## Records in order (R445) -/

/-- The `SEQ` that the last record of a list bears, or the one before the list. -/
def endSeq : Option Nat → List JRec → Option Nat
  | prev, [] => prev
  | _, r :: rest => endSeq (some r.seq) rest

theorem endSeq_of_ne_nil (prev : Option Nat) : ∀ {l : List JRec}, l ≠ [] → endSeq prev l = l.getLast?.map (fun r => r.seq)
  | [], h => absurd rfl h
  | [_], _ => rfl
  | r :: q :: rest, _ => (endSeq_of_ne_nil (some r.seq) (l := q :: rest) (List.cons_ne_nil _ _)).trans (by rw [List.getLast?_cons_cons])

/-- The valid records of a list are all valid again, and what follows them is judged by the last of them. -/
theorem validAfter_append (b : List JRec) : ∀ (prev : Option Nat) (l : List JRec),
    validAfter prev (validAfter prev l ++ b) = validAfter prev l ++ validAfter (endSeq prev (validAfter prev l)) b
  | _, [] => rfl
  | prev, r :: rest => by
    by_cases h : (r.intact && r.seq == (match prev with
      | none => r.args.getD 1 0
      | some n => n + 1)) = true
    · have hkeep : ∀ l : List JRec, validAfter prev (r :: l) = r :: validAfter (some r.seq) l := fun l => if_pos h
      rw [hkeep, List.cons_append, hkeep, validAfter_append b (some r.seq) rest]
      rfl
    · have hdrop : validAfter prev (r :: rest) = [] := if_neg h
      rw [hdrop]
      rfl

theorem validAfter_idem (prev : Option Nat) (l : List JRec) : validAfter prev (validAfter prev l) = validAfter prev l := by
  simpa [validAfter] using validAfter_append [] prev l

theorem numbered_cons (n : Nat) (e : Nat × List Nat × Nat) (l : List (Nat × List Nat × Nat)) :
    numbered n (e :: l) = ⟨e.1, e.2.1, n + 1, e.2.2, none⟩ :: numbered (n + 1) l := by
  simp only [numbered, List.zipIdx_cons, List.map_cons, Nat.add_zero, List.cons.injEq, true_and]
  rw [List.zipIdx_succ, List.map_map]
  refine List.map_congr_left fun x _ => ?_
  simp only [Function.comp_apply, JRec.mk.injEq, true_and, and_true]
  omega

/-- Records numbered from one on follow a record of that number. -/
theorem validAfter_numbered : ∀ (n : Nat) (l : List (Nat × List Nat × Nat)), validAfter (some n) (numbered n l) = numbered n l
  | _, [] => rfl
  | n, e :: l => by
    rw [numbered_cons]
    refine (if_pos ?_).trans (congrArg _ (validAfter_numbered (n + 1) l))
    simp [JRec.intact]

theorem numbered_length (n : Nat) (l : List (Nat × List Nat × Nat)) : (numbered n l).length = l.length := by simp [numbered]

/-- The valid records of a log with numbered ones behind it. -/
theorem validAfter_append_numbered {l : List JRec} (hne : validAfter none l ≠ []) (b : List (Nat × List Nat × Nat)) :
    validAfter none (validAfter none l ++ numbered (((validAfter none l).getLast?.map (fun r => r.seq)).getD 0) b) =
      validAfter none l ++ numbered (((validAfter none l).getLast?.map (fun r => r.seq)).getD 0) b := by
  obtain ⟨r, hr⟩ : ∃ r, (validAfter none l).getLast? = some r := ⟨_, List.getLast?_eq_some_getLast hne⟩
  rw [validAfter_append, endSeq_of_ne_nil none hne, hr]
  exact congrArg _ (validAfter_numbered r.seq b)

/-! ## The records behind a SEAL -/

theorem sealedTail_append {l tail : List JRec} (b : List JRec) (h : sealedTail l = some tail) : sealedTail (l ++ b) = some (tail ++ b) := by
  induction l with
  | nil => exact absurd h (by simp [sealedTail])
  | cons r rest ih =>
    simp only [sealedTail, List.cons_append] at h ⊢
    split at h
    · next hseal => simp [hseal, Option.some.inj h]
    · next hseal => simp [hseal, ih h]

/-- A list whose only `SEAL` is its last record has nothing behind it. -/
theorem sealedTail_last {l : List JRec} {r : JRec} (hl : ∀ x ∈ l, x.type ≠ recSeal) (hr : r.type = recSeal) : sealedTail (l ++ [r]) = some [] := by
  induction l with
  | nil => simp [sealedTail, hr]
  | cons x rest ih => simpa [sealedTail, hl x List.mem_cons_self] using ih fun y hy => hl y (List.mem_cons_of_mem _ hy)

theorem snapshot_not_seal : ∀ (l : List JRec), ∀ e ∈ snapshot l, e.1 ≠ recSeal
  | [], e, he => absurd he (by simp [snapshot])
  | r :: rest, e, he => by
    simp only [snapshot] at he
    split at he
    · exact snapshot_not_seal rest e he
    · next hkeep =>
      rcases List.mem_cons.1 he with rfl | he
      · intro hseal
        exact hkeep (by simp [transient, show r.type = recSeal from hseal])
      · exact snapshot_not_seal rest e he

/-! ## The two halves -/

section
variable {c d : Security} {h : Nat}

theorem Security.half_setHalf_self (l : List JRec) : (c.setHalf h l).half h = l := by
  unfold Security.setHalf Security.half
  by_cases h0 : h = 0 <;> simp [h0]

theorem Security.half_setHalf_other (hh : h ≤ 1) (l : List JRec) : (c.setHalf h l).half (1 - h) = c.half (1 - h) := by
  obtain rfl | rfl : h = 0 ∨ h = 1 := by omega
  all_goals rfl

theorem Security.log_setHalf_self (l : List JRec) : (c.setHalf h l).log h = validAfter none l := by
  unfold Security.log
  rw [Security.half_setHalf_self]

theorem Security.log_setHalf_other (hh : h ≤ 1) (l : List JRec) : (c.setHalf h l).log (1 - h) = c.log (1 - h) := by
  unfold Security.log
  rw [Security.half_setHalf_other hh]

theorem Security.gen_congr {k : Nat} (hlog : d.log k = c.log k) : d.gen k = c.gen k := by
  unfold Security.gen
  rw [hlog]

theorem Security.gen_of_empty {k : Nat} (hlog : c.log k = []) : c.gen k = 0 := by
  unfold Security.gen
  rw [hlog]
  rfl

/-- Records behind a log that is not empty leave its generation and its snapshot point. -/
theorem Security.gen_append {k : Nat} {b : List JRec} (hne : c.log k ≠ []) (hlog : d.log k = c.log k ++ b) : d.gen k = c.gen k ∧ d.point k = c.point k := by
  unfold Security.gen Security.point
  rw [hlog, List.head?_append_of_ne_nil _ hne]
  exact ⟨rfl, rfl⟩

/-- The half that the generations favour: the newer one, and half 0 of equals. -/
def Security.newer (c : Security) (h : Nat) : Prop := c.gen (1 - h) < c.gen h ∨ (c.gen (1 - h) = c.gen h ∧ h = 0)

/-- A newer half that holds all of the older one, or whose older one holds no generation. -/
def Security.settled (c : Security) (n : Nat) : Prop := c.gen (1 - n) = 0 ∨ c.toCopy (1 - n) n = some []

theorem Security.newer_iff (hh : h ≤ 1) : c.newer h ↔ (if c.gen 0 < c.gen 1 then 1 else 0) = h := by
  unfold Security.newer
  obtain rfl | rfl : h = 0 ∨ h = 1 := by omega
  all_goals (split <;> simp <;> omega)

theorem Security.active_le (c : Security) : c.active ≤ 1 := by
  unfold Security.active
  dsimp only
  split <;> split <;> omega

theorem Security.active_of_newer (hh : h ≤ 1) (hnew : c.newer h) (hset : c.settled h) : c.active = h := by
  unfold Security.active
  rw [(Security.newer_iff hh).1 hnew]
  exact if_pos (by simpa [Security.settled] using hset)

theorem Security.active_of_older (hh : h ≤ 1) (hnew : c.newer (1 - h)) (hset : ¬ c.settled (1 - h)) : c.active = h := by
  unfold Security.active
  rw [(Security.newer_iff (by omega)).1 hnew]
  have hback : 1 - (1 - h) = h := by omega
  refine (if_neg ?_).trans hback
  simpa [Security.settled] using hset

/-- The active half is the newer one that is settled, or the older one of one that is not. -/
theorem Security.active_cases (ha : c.active = h) : (c.newer h ∧ c.settled h) ∨ (c.newer (1 - h) ∧ ¬ c.settled (1 - h)) := by
  have hh : h ≤ 1 := ha ▸ c.active_le
  by_cases hnew : c.newer h
  · by_cases hset : c.settled h
    · exact .inl ⟨hnew, hset⟩
    · have hother := Security.active_of_older (c := c) (h := 1 - h) (by omega) (by rwa [show 1 - (1 - h) = h by omega]) (by rwa [show 1 - (1 - h) = h by omega])
      omega
  · have hnew' : c.newer (1 - h) := by
      unfold Security.newer at hnew ⊢
      rw [show 1 - (1 - h) = h by omega]
      omega
    by_cases hset : c.settled (1 - h)
    · have hother := Security.active_of_newer (by omega) hnew' hset
      omega
    · exact .inr ⟨hnew', hset⟩

/-- The active half holds a generation, or is half 0. -/
theorem Security.active_gen (ha : c.active = h) : c.gen h ≠ 0 ∨ h = 0 := by
  rcases Security.active_cases ha with ⟨hnew, -⟩ | ⟨-, hset⟩
  · unfold Security.newer at hnew
    omega
  · refine .inl fun h0 => hset (.inl ?_)
    rw [show 1 - (1 - h) = h by have := c.active_le; omega]
    exact h0

/-- With the other half erased the same half is active. -/
theorem Security.active_erased (ha : c.active = h) (hlog : d.log h = c.log h) (hempty : d.log (1 - h) = []) : d.active = h := by
  have hgen := Security.gen_congr hlog
  have hzero := Security.gen_of_empty hempty
  refine Security.active_of_newer (ha ▸ c.active_le) ?_ (.inl hzero)
  unfold Security.newer
  rcases Security.active_gen ha with hne | h0
  · omega
  · omega

/-- Records behind the active log leave it active. -/
theorem Security.active_extended {b : List JRec} (ha : c.active = h) (hne : c.log h ≠ []) (hlog : d.log h = c.log h ++ b)
    (hother : d.log (1 - h) = c.log (1 - h)) : d.active = h := by
  have hh : h ≤ 1 := ha ▸ c.active_le
  obtain ⟨hgen, hpoint⟩ := Security.gen_append hne hlog
  have hgen' := Security.gen_congr hother
  have hpoint' : d.point (1 - h) = c.point (1 - h) := by unfold Security.point; rw [hother]
  have hback : 1 - (1 - h) = h := by omega
  rcases Security.active_cases ha with ⟨hnew, hset⟩ | ⟨hnew, hset⟩
  · refine Security.active_of_newer hh (by unfold Security.newer at hnew ⊢; rwa [hgen, hgen']) (hset.imp (hgen'.trans ·) fun hcopy => ?_)
    unfold Security.toCopy at hcopy ⊢
    obtain ⟨tail, htail, hdrop⟩ := Option.map_eq_some_iff.1 hcopy
    rw [hlog, sealedTail_append b htail, hother, hpoint]
    refine congrArg some (List.drop_eq_nil_of_le ?_)
    have hlen := List.drop_eq_nil_iff.1 hdrop
    rw [List.length_append]
    omega
  · refine Security.active_of_older hh (by unfold Security.newer at hnew ⊢; rw [hback] at hnew ⊢; rwa [hgen, hgen']) fun hset' => hset ?_
    unfold Security.settled at hset' ⊢
    rw [hback] at hset' ⊢
    refine hset'.imp (hgen.symm.trans ·) fun hcopy => ?_
    unfold Security.toCopy at hcopy ⊢
    rw [hother, hlog, hpoint'] at hcopy
    obtain ⟨tail, htail, hdrop⟩ := Option.map_eq_some_iff.1 hcopy
    rw [htail]
    refine congrArg some (List.drop_eq_nil_of_le ?_)
    have hlen := List.drop_eq_nil_iff.1 hdrop
    rw [List.filter_append, List.length_append] at hlen
    omega

end

end Sys2Proof.Machine
end

section
/-! SUPPORT. Records and compaction steps of the journal store (O58, second part). -/

namespace Sys2Proof.Machine

section
variable {s : State}

theorem State.activeHalf_le (s : State) : s.activeHalf ≤ 1 := Security.active_le _

theorem State.activeHalf_of_sec {c : Security} {h : Nat} (hsec : s.sec = c) (hactive : c.active = h) : s.activeHalf = h := by
  rw [State.activeHalf, hsec, hactive]

theorem State.log_of_sec {c : Security} {h : Nat} (hsec : s.sec = c) (hactive : c.active = h) : s.log = c.log h := by
  rw [State.log, State.activeHalf, hsec, hactive]

/-- Behind a log that is not empty a record takes the next `SEQ`. -/
theorem State.withRecord_append (hne : s.log ≠ []) (e : Nat × List Nat × Nat) : s.withRecord e = s.log ++ [⟨e.1, e.2.1, s.logSeq + 1, e.2.2, none⟩] := by
  have hbegun : s.logBegun = s.log := if_neg (by simpa using hne)
  unfold State.withRecord
  rw [hbegun]
  exact congrArg (s.log ++ ·) (numbered_cons _ e [])

/-- An empty log begins with `GENESIS` and `SEAL` of generation 1. -/
theorem State.withRecord_begins (hlog : s.log = []) (e : Nat × List Nat × Nat) : s.withRecord e =
    [⟨recGenesis, [1, 0], 0, s.tally, none⟩, ⟨recSeal, [], 1, s.tally, none⟩, ⟨e.1, e.2.1, 2, e.2.2, none⟩] := by
  have hbegun : s.logBegun = genesis 1 0 s.tally :: numbered 0 [(recSeal, [], s.tally)] := if_pos (by simp [hlog])
  unfold State.withRecord
  rw [hbegun]
  simp [genesis, numbered]

/-- The log of a half whose records are these. -/
theorem State.withRecord_valid (s : State) (e : Nat × List Nat × Nat) : validAfter none (s.withRecord e) = s.withRecord e := by
  by_cases hlog : s.log = []
  · rw [State.withRecord_begins hlog]
    simp [validAfter, JRec.intact]
  · have hvalid := validAfter_append_numbered (l := s.sec.half s.activeHalf) (by exact hlog) [e]
    have hbegun : s.logBegun = s.log := if_neg (by simpa using hlog)
    rw [State.withRecord, hbegun]
    exact hvalid

/-- With nothing in the active log no half holds a generation. -/
theorem State.gens_of_log_empty (hlog : s.log = []) : s.activeHalf = 0 ∧ s.sec.gen 1 = 0 := by
  have hgen : s.sec.gen s.activeHalf = 0 := Security.gen_of_empty hlog
  have hzero : s.activeHalf = 0 := (Security.active_gen rfl).resolve_left fun hne => hne hgen
  rw [hzero] at hgen
  refine ⟨hzero, ?_⟩
  rcases Security.active_cases (c := s.sec) hzero with ⟨hnew, -⟩ | ⟨-, hset⟩
  · change s.sec.gen 1 < s.sec.gen 0 ∨ s.sec.gen 1 = s.sec.gen 0 ∧ 0 = 0 at hnew
    omega
  · exact absurd (.inl hgen) hset

/-- The half that a record is written to stays active, its log ends with the record, and the other half is as before. -/
theorem Security.record_written {c d : Security} {e : Nat × List Nat × Nat} (hd : d = s.sec.setHalf s.activeHalf (s.withRecord e))
    (h0 : c.half0 = d.half0) (h1 : c.half1 = d.half1) : c.active = s.activeHalf ∧ c.log s.activeHalf = s.withRecord e ∧
      c.half (1 - s.activeHalf) = s.sec.half (1 - s.activeHalf) := by
  have hle := s.activeHalf_le
  subst hd
  have hc : ∀ k, c.half k = (s.sec.setHalf s.activeHalf (s.withRecord e)).half k := fun k => by
    unfold Security.half
    rw [h0, h1]
  have hlogs : ∀ k, c.log k = (s.sec.setHalf s.activeHalf (s.withRecord e)).log k := fun k => by
    unfold Security.log
    rw [hc]
  have hother : c.log (1 - s.activeHalf) = s.sec.log (1 - s.activeHalf) := (hlogs _).trans (Security.log_setHalf_other hle _)
  have hself : c.log s.activeHalf = s.withRecord e := (hlogs _).trans ((Security.log_setHalf_self _).trans (s.withRecord_valid e))
  refine ⟨?_, hself, (hc _).trans (Security.half_setHalf_other hle _)⟩
  by_cases hlog : s.log = []
  · obtain ⟨hzero, hgen⟩ := State.gens_of_log_empty hlog
    rw [State.withRecord_begins hlog, hzero] at hself
    rw [hzero] at hother ⊢
    have h0 : c.gen 0 = 1 := by
      unfold Security.gen
      rw [hself]
      rfl
    have h1 : c.gen 1 = 0 := (Security.gen_congr hother).trans hgen
    exact Security.active_of_newer (by decide) (.inl (show c.gen 1 < c.gen 0 by omega)) (.inl h1)
  · exact Security.active_extended rfl hlog (hself.trans (State.withRecord_append hlog e)) hother

/-- `JOURNAL_RECORD_WRITE` writes the record of the oldest change. -/
theorem journalRecordWrite_writes {ty tl : Nat} {args : List Nat} {rest : List (Nat × List Nat × Nat)} (hawake : s.awake = true)
    (hchanges : s.sec.changes = (ty, args, tl) :: rest) : ∃ u, exec .journalRecordWrite s = .next u ∧ u.sec.changes = rest ∧ u.regs = s.regs ∧
      (ty = recTrip → u.pins.tripRecorded = true) ∧ u.sec.half (1 - s.activeHalf) = s.sec.half (1 - s.activeHalf) ∧
      u.log = s.withRecord (ty, args, tl) := by
  obtain ⟨d, hd⟩ : ∃ d, d = s.sec.setHalf s.activeHalf (s.withRecord (ty, args, tl)) := ⟨_, rfl⟩
  obtain ⟨hactive, hlog, hother⟩ := Security.record_written (c := { d with changes := rest }) hd rfl rfl
  obtain ⟨u, hexec, hsec, hregs, htrip⟩ : ∃ u, exec .journalRecordWrite s = .next u ∧ u.sec = { d with changes := rest } ∧ u.regs = s.regs ∧
      (ty = recTrip → u.pins.tripRecorded = true) := by
    by_cases hty : ty = recTrip
    · refine ⟨{ s with sec := { d with changes := rest }, pins := { s.pins with tripRecorded := true } }, ?_, rfl, rfl, fun _ => rfl⟩
      show execJournalRecordWrite s = _
      simp only [execJournalRecordWrite, hchanges, whenever_pos hawake, hty, if_true, hd]
    · refine ⟨{ s with sec := { d with changes := rest } }, ?_, rfl, rfl, fun h => absurd h hty⟩
      show execJournalRecordWrite s = _
      simp only [execJournalRecordWrite, hchanges, whenever_pos hawake, hty, if_false, hd]
  exact ⟨u, hexec, by rw [hsec], hregs, htrip, by rw [hsec, hother], (State.log_of_sec hsec hactive).trans hlog⟩

end

/-! ## Compaction (R448) -/

/-- A valid first record bears its snapshot point as its `SEQ`. -/
theorem validAfter_single {g : JRec} (h : validAfter none [g] = [g]) : (([g] : List JRec).getLast?.map (fun r => r.seq)).getD 0 =
    (([g] : List JRec).head?.map (fun r => r.args.getD 1 0)).getD 0 := by
  have hseq : g.intact = true ∧ g.seq = g.args.getD 1 0 := by
    by_contra hno
    have hempty : validAfter none [g] = [] := if_neg (by simpa using hno)
    rw [hempty] at h
    exact List.cons_ne_nil _ _ h.symm
  exact hseq.2

theorem numbered_append (n : Nat) (a b : List (Nat × List Nat × Nat)) : numbered n (a ++ b) = numbered n a ++ numbered (n + a.length) b := by
  induction a generalizing n with
  | nil => rfl
  | cons e a ih => rw [List.cons_append, numbered_cons, numbered_cons, ih, List.length_cons, List.cons_append, Nat.add_right_comm, Nat.add_assoc]

theorem numbered_type {n : Nat} {l : List (Nat × List Nat × Nat)} {x : JRec} (hx : x ∈ numbered n l) : ∃ e ∈ l, x.type = e.1 := by
  obtain ⟨e, he, rfl⟩ := List.mem_map.1 hx
  exact ⟨e.1, List.fst_mem_of_mem_zipIdx he, rfl⟩

/-- The snapshot ends with the only `SEAL` of it. -/
theorem sealedTail_snapshotTail (s : State) (old new : Nat) : sealedTail (s.snapshotTail old new) = some [] := by
  unfold State.snapshotTail
  dsimp only
  rw [List.map_append, numbered_append]
  refine sealedTail_last (fun x hx => ?_) rfl
  obtain ⟨e, he, hx⟩ := numbered_type hx
  obtain ⟨y, hy, rfl⟩ := List.mem_map.1 he
  exact hx ▸ snapshot_not_seal _ y hy

theorem Security.gen_of_log {c : Security} {k : Nat} {g : JRec} {rest : List JRec} (hlog : c.log k = g :: rest) : c.gen k = g.args.getD 0 0 := by
  rw [Security.gen, hlog]
  rfl

/-- Records numbered from the snapshot point follow a log that is `GENESIS` alone. -/
theorem Security.log_behind_genesis {c : Security} {k : Nat} {g : JRec} (hlog : c.log k = [g]) (b : List (Nat × List Nat × Nat)) :
    validAfter none ([g] ++ numbered (c.point k) b) = g :: numbered (c.point k) b := by
  have hvalid : validAfter none [g] = [g] := hlog ▸ validAfter_idem none (c.half k)
  have hpoint : c.point k = g.seq := by
    rw [Security.point, hlog]
    exact (validAfter_single hvalid).symm
  have happend := validAfter_append (numbered g.seq b) none [g]
  rw [hvalid] at happend
  rw [hpoint, happend]
  exact congrArg ([g] ++ ·) (validAfter_numbered g.seq b)

/-- A sealed half that is newer and has been given all that it lacked is active. -/
theorem Security.active_copied {c d : Security} {h : Nat} {b tail : List JRec} (hh : h ≤ 1) (hnew : c.gen (1 - h) < c.gen h)
    (htail : sealedTail (c.log h) = some tail) (hlog : d.log h = c.log h ++ b) (hother : d.log (1 - h) = c.log (1 - h))
    (hb : b.length = ((c.log (1 - h)).filter (fun r => c.point h < r.seq)).length - tail.length) : d.active = h := by
  have hne : c.log h ≠ [] := fun he => by rw [he] at htail; exact absurd htail (by simp [sealedTail])
  obtain ⟨hgen, hpoint⟩ := Security.gen_append hne hlog
  refine Security.active_of_newer hh (.inl (by rw [hgen, Security.gen_congr hother]; exact hnew)) (.inr ?_)
  unfold Security.toCopy
  rw [hlog, sealedTail_append b htail, hother, hpoint]
  refine congrArg some (List.drop_eq_nil_of_le ?_)
  rw [List.length_append]
  omega

section
variable {s : State}

section
variable (hawake : s.awake = true)
include hawake

/-- One step of the compaction, as it stands with the other half. -/
theorem journalCompaction_step (hgo : s.flag Fld.journalStatCompacting 0 = true ∨ s.logFree < 0x800000) : exec .journalCompaction s = .next (
    if s.flag Fld.journalStatCompacting 0 = false then
      ({ s with sec := s.sec.setHalf (1 - s.activeHalf) [genesis (s.sec.gen s.activeHalf + 1) s.logSeq s.tally] }).setFlag Fld.journalStatCompacting 0 true
    else if s.sec.gen (1 - s.activeHalf) < s.sec.gen s.activeHalf then
      ({ s with sec := s.sec.setHalf (1 - s.activeHalf) [] }).setFlag Fld.journalStatCompacting 0 false
    else if sealedTail (s.sec.log (1 - s.activeHalf)) = none then
      { s with sec := s.sec.setHalf (1 - s.activeHalf) (s.sec.log (1 - s.activeHalf) ++ s.snapshotTail s.activeHalf (1 - s.activeHalf)) }
    else { s with sec := s.sec.setHalf (1 - s.activeHalf) (s.sec.log (1 - s.activeHalf) ++ s.copyTail s.activeHalf (1 - s.activeHalf)) }) := by
  refine (whenever_pos (by simpa [hawake] using hgo)).trans ?_
  simp only [Bool.not_eq_true', Option.isNone_iff_eq_none]

end

/-- The logs of both halves once the other one is written anew. -/
theorem State.logs_setOther {c : Security} {l : List JRec} (hc : c = s.sec.setHalf (1 - s.activeHalf) l) :
    c.log (1 - s.activeHalf) = validAfter none l ∧ c.log s.activeHalf = s.sec.log s.activeHalf ∧ c.half (1 - s.activeHalf) = l := by
  have hle := s.activeHalf_le
  have hother := Security.log_setHalf_other (c := s.sec) (h := 1 - s.activeHalf) (by omega) l
  rw [show 1 - (1 - s.activeHalf) = s.activeHalf by omega] at hother
  rw [hc]
  exact ⟨Security.log_setHalf_self l, hother, Security.half_setHalf_self l⟩

theorem validAfter_genesis (gen point tally : Nat) : validAfter none [genesis gen point tally] = [genesis gen point tally] := by
  simp [validAfter, genesis, JRec.intact]

/-- With `GENESIS` of the next generation in the other half the same half is active. -/
theorem State.active_genesis {c : Security} {point tally : Nat} (hgen : 0 < s.sec.gen s.activeHalf)
    (hnew : c.log (1 - s.activeHalf) = [genesis (s.sec.gen s.activeHalf + 1) point tally]) (hold : c.log s.activeHalf = s.sec.log s.activeHalf) :
    c.active = s.activeHalf := by
  have hle := s.activeHalf_le
  have hback : 1 - (1 - s.activeHalf) = s.activeHalf := by omega
  have hg' := Security.gen_congr hold
  have hg : c.gen (1 - s.activeHalf) = s.sec.gen s.activeHalf + 1 := Security.gen_of_log hnew
  refine Security.active_of_older hle (.inl (by rw [hback, hg, hg']; omega)) ?_
  rintro (h | h)
  · rw [hback, hg'] at h
    omega
  · unfold Security.toCopy at h
    rw [hnew] at h
    simp [genesis, sealedTail, recGenesis, recSeal] at h

section
variable (hawake : s.awake = true)
include hawake

/-- A compaction begins: the other half holds `GENESIS` of the next generation, and the active half stays active. -/
theorem journalCompaction_begins (hs : Tab.sorted s.regs = true) (hoff : s.flag Fld.journalStatCompacting 0 = false) (hfree : s.logFree < 0x800000)
    (hgen : 0 < s.sec.gen s.activeHalf) : ∃ u, exec .journalCompaction s = .next u ∧ u.flag Fld.journalStatCompacting 0 = true ∧
      s.regsBut u [.journalStat] ∧ u.activeHalf = s.activeHalf ∧ u.log = s.log ∧
      u.sec = s.sec.setHalf (1 - s.activeHalf) [⟨recGenesis, [s.sec.gen s.activeHalf + 1, s.logSeq], s.logSeq, s.tally, none⟩] := by
  have hstep := (journalCompaction_step hawake (.inr hfree)).trans (congrArg Host.Outcome.next (if_pos hoff))
  generalize hc : s.sec.setHalf (1 - s.activeHalf) [genesis (s.sec.gen s.activeHalf + 1) s.logSeq s.tally] = c at hstep
  obtain ⟨hnew, hold, -⟩ := State.logs_setOther hc.symm
  have hactive := State.active_genesis hgen (hnew.trans (validAfter_genesis _ _ _)) hold
  have hflag := State.flag_setFlag_self (s := { s with sec := c }) hs (f := Fld.journalStatCompacting) rfl 0 true
  have hwrites : s.writesOnly (· ∈ [Reg.journalStat]) (({ s with sec := c } : State).setFlag Fld.journalStatCompacting 0 true) :=
    State.writesOnly.trans (.of_regs rfl) (.setFlag _ _ _ (by decide))
  have hsec : (({ s with sec := c } : State).setFlag Fld.journalStatCompacting 0 true).sec = c := rfl
  generalize ({ s with sec := c } : State).setFlag Fld.journalStatCompacting 0 true = u at hstep hflag hwrites hsec
  exact ⟨u, hstep, hflag, hwrites.regsBut hs, State.activeHalf_of_sec hsec hactive, (State.log_of_sec hsec hactive).trans hold, by rw [hsec, ← hc]; rfl⟩

/-- A compaction ends: the old half is erased. -/
theorem journalCompaction_ends (hs : Tab.sorted s.regs = true) (hon : s.flag Fld.journalStatCompacting 0 = true)
    (hgen : s.sec.gen (1 - s.activeHalf) < s.sec.gen s.activeHalf) : ∃ u, exec .journalCompaction s = .next u ∧
      u.flag Fld.journalStatCompacting 0 = false ∧ s.regsBut u [.journalStat] ∧ u.activeHalf = s.activeHalf ∧ u.log = s.log ∧
      u.sec.half (1 - s.activeHalf) = [] := by
  have hstep := (journalCompaction_step hawake (.inl hon)).trans (congrArg Host.Outcome.next ((if_neg (by simp [hon])).trans (if_pos hgen)))
  generalize hc : s.sec.setHalf (1 - s.activeHalf) [] = c at hstep
  obtain ⟨hnew, hold, hhalf⟩ := State.logs_setOther hc.symm
  have hactive : c.active = s.activeHalf := Security.active_erased rfl hold hnew
  have hflag := State.flag_setFlag_self (s := { s with sec := c }) hs (f := Fld.journalStatCompacting) rfl 0 false
  have hwrites : s.writesOnly (· ∈ [Reg.journalStat]) (({ s with sec := c } : State).setFlag Fld.journalStatCompacting 0 false) :=
    State.writesOnly.trans (.of_regs rfl) (.setFlag _ _ _ (by decide))
  have hsec : (({ s with sec := c } : State).setFlag Fld.journalStatCompacting 0 false).sec = c := rfl
  generalize ({ s with sec := c } : State).setFlag Fld.journalStatCompacting 0 false = u at hstep hflag hwrites hsec
  exact ⟨u, hstep, hflag, hwrites.regsBut hs, State.activeHalf_of_sec hsec hactive, (State.log_of_sec hsec hactive).trans hold, by rw [hsec, hhalf]⟩

variable (hon : s.flag Fld.journalStatCompacting 0 = true) (hgen : s.sec.gen s.activeHalf < s.sec.gen (1 - s.activeHalf))
include hon hgen

/-- The snapshot and its `SEAL` follow `GENESIS`. -/
theorem journalCompaction_seals (hopen : sealedTail (s.sec.log (1 - s.activeHalf)) = none) : ∃ u, exec .journalCompaction s = .next u ∧ u.regs = s.regs ∧
    u.sec = s.sec.setHalf (1 - s.activeHalf) (s.sec.log (1 - s.activeHalf) ++ s.snapshotTail s.activeHalf (1 - s.activeHalf)) ∧
    (∀ g, s.sec.log (1 - s.activeHalf) = [g] → u.sec.log (1 - s.activeHalf) = g :: s.snapshotTail s.activeHalf (1 - s.activeHalf) ∧
      sealedTail (u.sec.log (1 - s.activeHalf)) = some []) := by
  have hstep := (journalCompaction_step hawake (.inl hon)).trans (congrArg Host.Outcome.next
    ((if_neg (by simp [hon])).trans ((if_neg (Nat.not_lt.2 (Nat.le_of_lt hgen))).trans (if_pos hopen))))
  generalize hc : s.sec.setHalf (1 - s.activeHalf) (s.sec.log (1 - s.activeHalf) ++ s.snapshotTail s.activeHalf (1 - s.activeHalf)) = c at hstep ⊢
  obtain ⟨hnew, -, -⟩ := State.logs_setOther hc.symm
  refine ⟨_, hstep, rfl, rfl, fun g hg => ?_⟩
  have hlog : c.log (1 - s.activeHalf) = g :: s.snapshotTail s.activeHalf (1 - s.activeHalf) := by
    rw [hnew, hg]
    exact Security.log_behind_genesis hg _
  have hopen' : g.type ≠ recSeal := fun hseal => by
    rw [hg] at hopen
    simp [sealedTail, hseal] at hopen
  exact ⟨hlog, (congrArg sealedTail hlog).trans ((if_neg hopen').trans (sealedTail_snapshotTail s _ _))⟩

/-- The records made meanwhile follow, and the new half is active. -/
theorem journalCompaction_copies (hsealed : sealedTail (s.sec.log (1 - s.activeHalf)) ≠ none) : ∃ u, exec .journalCompaction s = .next u ∧
    u.regs = s.regs ∧ u.activeHalf = 1 - s.activeHalf ∧
    u.sec.log (1 - s.activeHalf) = s.sec.log (1 - s.activeHalf) ++ s.copyTail s.activeHalf (1 - s.activeHalf) := by
  have hback : 1 - (1 - s.activeHalf) = s.activeHalf := by have := s.activeHalf_le; omega
  have hstep := (journalCompaction_step hawake (.inl hon)).trans (congrArg Host.Outcome.next
    ((if_neg (by simp [hon])).trans ((if_neg (Nat.not_lt.2 (Nat.le_of_lt hgen))).trans (if_neg hsealed))))
  generalize hc : s.sec.setHalf (1 - s.activeHalf) (s.sec.log (1 - s.activeHalf) ++ s.copyTail s.activeHalf (1 - s.activeHalf)) = c at hstep
  obtain ⟨hnew, hold, -⟩ := State.logs_setOther hc.symm
  obtain ⟨tail, htail⟩ := Option.ne_none_iff_exists'.1 hsealed
  have hne : s.sec.log (1 - s.activeHalf) ≠ [] := fun h => by rw [h] at htail; exact absurd htail (by simp [sealedTail])
  have hlog : c.log (1 - s.activeHalf) = s.sec.log (1 - s.activeHalf) ++ s.copyTail s.activeHalf (1 - s.activeHalf) :=
    hnew.trans (validAfter_append_numbered hne _)
  have hlen : (s.copyTail s.activeHalf (1 - s.activeHalf)).length =
      ((s.sec.log s.activeHalf).filter (fun r => s.sec.point (1 - s.activeHalf) < r.seq)).length - tail.length := by
    refine (numbered_length _ _).trans ?_
    simp [Security.toCopy, htail]
  have hactive : c.active = 1 - s.activeHalf := Security.active_copied (Nat.sub_le 1 _) (by rw [hback]; exact hgen) htail hlog
    (by rw [hback]; exact hold) (by rw [hback]; exact hlen)
  exact ⟨_, hstep, rfl, State.activeHalf_of_sec rfl hactive, hlog⟩

end

end

end Sys2Proof.Machine
end

section
/-! SUPPORT. Images and the boot chain (O58, third part). -/

namespace Sys2Proof.Machine

/-! ## The image that is chosen (R434, R435) -/

/-- What the choice and the check of an image rest on. -/
def State.imageBasis (s : State) : Tab (Option Image) × Tab Nat × Nat × List (Nat × List Nat × Nat) × List JRec :=
  (s.sec.slots, s.sec.floors, s.sec.revoked, s.sec.changes, s.log)

theorem State.chosen_congr {s u : State} (h : u.imageBasis = s.imageBasis) (k : Nat) : u.chosen k = s.chosen k := by
  simp only [State.imageBasis, Prod.mk.injEq] at h
  obtain ⟨hslots, hfloors, hrevoked, hchanges, hlog⟩ := h
  have hslot : ∀ j, u.slotImage k j = s.slotImage k j := fun j => by rw [State.slotImage, State.slotImage, hslots]
  have hvalid : u.valid k = s.valid k := by
    funext i
    unfold State.valid State.keyOk State.floorOf
    rw [hfloors, hrevoked]
  have hfirst : u.firstChoice k = s.firstChoice k := by
    unfold State.firstChoice State.namedSlot
    rw [hlog, hchanges, hslot, hslot]
  unfold State.chosen
  dsimp only
  rw [hfirst, hslot, hslot, hvalid]

theorem State.chosen_valid {s : State} {k : Nat} {i : Image} (h : s.chosen k = some i) : s.valid k i = true := by
  unfold State.chosen at h
  dsimp only at h
  split at h
  · split at h
    · next hvalid => exact Option.some.inj h ▸ hvalid
    · exact (Option.filter_eq_some_iff.1 h).2
  · exact (Option.filter_eq_some_iff.1 h).2

theorem State.valid_iff {s : State} {k : Nat} {i : Image} : s.valid k i = true ↔ i.formOk k = true ∧
    (sha384 (rsaKeyAt i.signed 0x50 ++ slhKeyAt i.signed 0x50) = Config.rootKeyHash (leAt i.signed 7 1) ∧ leAt i.signed 7 1 < 4 ∧
      bitOf s.sec.revoked (leAt i.signed 7 1) = false) ∧
    sha384 i.payload = (i.signed.drop 0x20).take 48 ∧ Config.rsaVerifies (rsaKeyAt i.signed 0x50) i.signed i.rsaSig = true ∧
    Config.slhVerifies (slhKeyAt i.signed 0x50) i.signed i.slhSig = true ∧ s.floorOf k ≤ i.svn := by
  simp only [State.valid, State.keyOk, rsaOk, slhOk, Bool.and_eq_true, beq_iff_eq, decide_eq_true_eq, Bool.not_eq_true', and_assoc]

/-! ## Measuring an image (R439) -/

theorem Security.log_congr {c d : Security} (h0 : d.half0 = c.half0) (h1 : d.half1 = c.half1) (k : Nat) : d.log k = c.log k := by
  unfold Security.log Security.half
  rw [h0, h1]

theorem Security.active_congr {c d : Security} (hlog : ∀ k, d.log k = c.log k) : d.active = c.active := by
  unfold Security.active Security.gen Security.toCopy Security.point
  simp only [hlog]

theorem State.log_congr {s u : State} (h0 : u.sec.half0 = s.sec.half0) (h1 : u.sec.half1 = s.sec.half1) : u.log = s.log := by
  have hlog := Security.log_congr h0 h1
  rw [State.log, State.log, State.activeHalf, State.activeHalf, Security.active_congr hlog, hlog]

theorem State.runImage_imageBasis (s : State) (k : Nat) (i : Image) : (s.runImage k i).imageBasis = s.imageBasis := by
  have hlog : (s.runImage k i).log = s.log := State.log_congr rfl rfl
  unfold State.imageBasis
  rw [hlog]
  rfl

theorem State.loadSram_imageBasis (s : State) (code : List Byte) : (s.loadSram code).imageBasis = s.imageBasis := by
  have hlog : (s.loadSram code).log = s.log := State.log_congr rfl rfl
  unfold State.imageBasis
  rw [hlog]
  rfl

theorem Security.setHalf_rest (c : Security) (h : Nat) (l : List JRec) :
    c.setHalf h l = { c with half0 := (c.setHalf h l).half0, half1 := (c.setHalf h l).half1 } := by
  unfold Security.setHalf
  split <;> rfl

section
variable {s : State} {k : Nat} {i : Image} (hs : Tab.sorted s.regs = true)
include hs

theorem State.sorted_runImage (k : Nat) (i : Image) : Tab.sorted (s.runImage k i).regs = true := State.sorted_setFld hs _ _ _

theorem State.runImage_measured (k : Nat) (i : Image) :
    (s.runImage k i).fld Fld.measValue (k - 1) = leNat (sha384 (s.measured (k - 1) ++ sha384 i.signed)) % 2 ^ 384 := State.fld_setFld_self hs _ _ _

theorem State.runImage_fld (k : Nat) (i : Image) {f : Field} {j : Nat} (hne : k - 1 ≠ j ∨ Reg.meas ≠ f.reg) (hlo : f.lo < 1024) :
    (s.runImage k i).fld f j = s.fld f j := State.fld_setFld_ne hs (hne.imp id .inl) _ ⟨by decide, hlo⟩

end

/-- The Assay image is measured, or its absence is noted. -/
def State.assayMeasured (s : State) : State :=
  match s.chosen 3 with
  | some i => (s.runImage 3 i).setFlag Fld.secStatNoAssay 0 false
  | none => s.setFlag Fld.secStatNoAssay 0 true

section
variable {s : State}

/-- The MGC runs verified firmware, and start-up goes on. -/
def State.firmwareRuns (s : State) (fw : Image) : State :=
  (({ s with sec := { s.sec with mgcRuns := true, firmware := fw.payload } }).loadSram fw.payload).setFld Fld.setupStatPhase 0 2

/-- Firmware that is chosen is measured, then the Assay image, and then it runs. -/
theorem State.bootFirmware_some {fw : Image} (h : s.chosen 2 = some fw) : s.bootFirmware = (s.runImage 2 fw).assayMeasured.firmwareRuns fw := by
  unfold State.bootFirmware State.assayMeasured
  simp only [h]
  cases (s.runImage 2 fw).chosen 3 <;> rfl

theorem State.firmwareRuns_sec (s : State) (fw : Image) : (s.firmwareRuns fw).sec =
    { s.sec with mgcRuns := true, firmware := fw.payload, sram := Mem.writeRange [] 0 (fw.payload.take 0x400000) } := rfl

theorem State.bootFirmware_none (h : s.chosen 2 = none) : s.bootFirmware = s.recover := by
  unfold State.bootFirmware
  rw [h]

theorem State.assayMeasured_sec (s : State) : ∃ t, s.assayMeasured.sec = { s.sec with running := t } := by
  unfold State.assayMeasured
  split
  · exact ⟨_, rfl⟩
  · exact ⟨_, rfl⟩

variable (hs : Tab.sorted s.regs = true)
include hs

theorem State.assayMeasured_fields : Tab.sorted s.assayMeasured.regs = true ∧ s.assayMeasured.flag Fld.secStatNoAssay 0 = (s.chosen 3).isNone ∧
    (∀ im, s.chosen 3 = some im → s.assayMeasured.fld Fld.measValue 2 = leNat (sha384 (s.measured 2 ++ sha384 im.signed)) % 2 ^ 384) ∧
    ∀ (f : Field) (j : Nat), f.lo < 1024 → (f.reg ≠ .secStat ∨ f.lo ≠ Fld.secStatNoAssay.lo) → (f.reg ≠ .meas ∨ j ≠ 2) → s.assayMeasured.fld f j = s.fld f j := by
  unfold State.assayMeasured
  cases him : s.chosen 3 with
  | none =>
    exact ⟨State.sorted_setFld hs _ _ _, State.flag_setFlag_self hs rfl _ _, fun _ h => absurd h (by simp), fun f j hlo hf _ =>
      State.fld_setFld_ne hs (.inr (hf.imp Ne.symm Ne.symm)) _ ⟨by decide, hlo⟩⟩
  | some im =>
    have hr := State.sorted_runImage hs 3 im
    refine ⟨State.sorted_setFld hr _ _ _, State.flag_setFlag_self hr rfl _ _, fun im' h => ?_, fun f j hlo hf hj => ?_⟩
    · obtain rfl := Option.some.inj h
      exact (State.fld_setFld_ne hr (.inr (.inl (by decide))) _ (by decide)).trans (State.runImage_measured hs 3 im)
    · exact (State.fld_setFld_ne hr (.inr (hf.imp Ne.symm Ne.symm)) _ ⟨by decide, hlo⟩).trans
        (State.runImage_fld hs 3 im (hj.symm.imp Ne.symm Ne.symm) hlo)

/-- What the device is once the firmware runs. -/
theorem State.bootFirmware_runs {fw : Image} (h : s.chosen 2 = some fw) : ∃ t, s.bootFirmware.sec =
      { s.sec with running := t, mgcRuns := true, firmware := fw.payload, sram := Mem.writeRange [] 0 (fw.payload.take 0x400000) } ∧
    s.bootFirmware.fld Fld.setupStatPhase 0 = 2 ∧ s.bootFirmware.flag Fld.secStatNoAssay 0 = (s.chosen 3).isNone ∧
    s.bootFirmware.fld Fld.measValue 1 = leNat (sha384 (s.measured 1 ++ sha384 fw.signed)) % 2 ^ 384 ∧
    (∀ im, s.chosen 3 = some im → s.bootFirmware.fld Fld.measValue 2 = leNat (sha384 (s.measured 2 ++ sha384 im.signed)) % 2 ^ 384) ∧
    s.bootFirmware.fld Fld.measValue 0 = s.fld Fld.measValue 0 ∧ s.bootFirmware.fld Fld.secStatRecovery 0 = s.fld Fld.secStatRecovery 0 ∧
    s.bootFirmware.fld Fld.secStatLc 0 = s.fld Fld.secStatLc 0 := by
  have hr := State.sorted_runImage hs 2 fw
  obtain ⟨t, hsec⟩ := (s.runImage 2 fw).assayMeasured_sec
  obtain ⟨ha, hno, him, hother⟩ := State.assayMeasured_fields hr
  have hchosen : (s.runImage 2 fw).chosen 3 = s.chosen 3 := State.chosen_congr (s.runImage_imageBasis 2 fw) 3
  have hmeas2 : (s.runImage 2 fw).measured 2 = s.measured 2 := congrArg (leBytes 48) (State.runImage_fld hs 2 fw (.inl (by decide)) (by decide))
  have hmeas1 := State.runImage_measured hs 2 fw
  have hkept : ∀ (f : Field), f.lo < 1024 → (f.reg ≠ .secStat ∨ f.lo ≠ Fld.secStatNoAssay.lo) →
      (s.runImage 2 fw).assayMeasured.fld f 0 = s.fld f 0 := fun f hlo hf =>
    (hother f 0 hlo hf (.inr (by decide))).trans (State.runImage_fld hs 2 fw (.inl (by decide)) hlo)
  have hother1 := hother Fld.measValue 1 (by decide) (by decide) (by decide)
  have hrunsec : ((s.runImage 2 fw).sec : Security) = { s.sec with running := (s.runImage 2 fw).sec.running } := rfl
  rw [State.bootFirmware_some h]
  rw [hchosen] at hno
  generalize s.runImage 2 fw = v at *
  generalize v.assayMeasured = w at *
  have hphase : (w.firmwareRuns fw).fld Fld.setupStatPhase 0 = 2 := State.fld_setFld_self (by exact ha) _ _ _
  have hfields : ∀ (f : Field) (j : Nat), f.lo < 1024 → f.reg ≠ .setupStat → (w.firmwareRuns fw).fld f j = w.fld f j :=
    fun f j hlo hf => State.fld_setFld_ne (by exact ha) (.inr (.inl hf.symm)) _ ⟨by decide, hlo⟩
  refine ⟨t, ?_, hphase, ?_, ?_, fun im h3 => ?_, ?_, ?_, ?_⟩
  · rw [State.firmwareRuns_sec, hsec, hrunsec]
  · rw [State.flag, hfields _ 0 (by decide) (by decide)]
    exact hno
  · rw [hfields _ 1 (by decide) (by decide), hother1]
    exact hmeas1
  · rw [hfields _ 2 (by decide) (by decide), him im (hchosen.trans h3), hmeas2]
  all_goals rw [hfields _ 0 (by decide) (by decide)]; exact hkept _ (by decide) (by decide)

theorem State.recover_fields : s.recover.flag Fld.secStatRecovery 0 = true ∧ ∀ (f : Field) (j : Nat), f.lo < 1024 →
    (f.reg ≠ .secStat ∨ f.lo ≠ Fld.secStatRecovery.lo) → s.recover.fld f j = s.fld f j :=
  ⟨State.flag_setFlag_self (by exact hs) rfl _ _, fun _ _ hlo hf => State.fld_setFld_ne (by exact hs) (.inr (hf.imp Ne.symm Ne.symm)) _ ⟨by decide, hlo⟩⟩

end

/-! ## The boot chain (R435, R436, R440) -/

section
variable {s : State}

/-- The chain before the loader: the life cycle is read, FACTORY has its keys, and the half that is not used is erased. -/
def State.bootBegun (s : State) : State := (s.setFlag Fld.secStatRecovery 0 false).readOtp.makeKeys.dropOldHalf

theorem State.makeKeys_frame (s : State) : ∃ d k, s.makeKeys = { s with draws := d, sec := { s.sec with deviceKeys := k } } := by
  unfold State.makeKeys
  split
  · exact ⟨_, _, rfl⟩
  · exact ⟨_, _, rfl⟩

theorem State.makeKeys_keys (s : State) : (s.fld Fld.secStatLc 0 = 0 → s.makeKeys.sec.identityKeys = true) ∧
    (s.fld Fld.secStatLc 0 ≠ 0 → s.makeKeys.sec.deviceKeys = s.sec.deviceKeys) := by
  unfold State.makeKeys
  split
  · next h => exact ⟨fun _ => rfl, fun hlc => absurd h (by simp [hlc])⟩
  · next h =>
    refine ⟨fun hlc => ?_, fun _ => rfl⟩
    simpa [Security.identityKeys, hlc, Option.isSome_iff_ne_none] using h

theorem State.dropOldHalf_sec (s : State) : s.dropOldHalf.sec = s.sec.setHalf (1 - s.activeHalf) [] := rfl

theorem State.dropOldHalf_log (s : State) : s.dropOldHalf.log = s.log := by
  generalize hc : s.sec.setHalf (1 - s.activeHalf) [] = c
  obtain ⟨hnew, hold, -⟩ := State.logs_setOther hc.symm
  have hsec : s.dropOldHalf.sec = c := s.dropOldHalf_sec.trans hc
  exact (State.log_of_sec hsec (Security.active_erased rfl hold hnew)).trans hold

theorem State.otpLc_lt (s : State) : s.otpLc < 4 := by
  unfold State.otpLc
  split_ifs <;> decide

/-- What the chain has done before the loader is chosen. -/
theorem State.bootBegun_facts (hs : Tab.sorted s.regs = true) : Tab.sorted s.bootBegun.regs = true ∧ s.bootBegun.imageBasis = s.imageBasis ∧
    s.bootBegun.fld Fld.secStatLc 0 = s.otpLc ∧ s.bootBegun.fld Fld.secStatRecovery 0 = 0 ∧
    (∀ (f : Field) (j : Nat), f.lo < 1024 → f.reg ≠ .secStat → s.bootBegun.fld f j = s.fld f j) ∧
    (s.otpLc = 0 → s.bootBegun.sec.identityKeys = true) ∧ (s.otpLc ≠ 0 → s.bootBegun.sec.deviceKeys = s.sec.deviceKeys) := by
  have h1 : Tab.sorted (s.setFlag Fld.secStatRecovery 0 false).regs = true := State.sorted_setFld hs _ _ _
  have h2 : Tab.sorted (s.setFlag Fld.secStatRecovery 0 false).readOtp.regs = true := State.sorted_setFld h1 _ _ _
  have hlc : (s.setFlag Fld.secStatRecovery 0 false).readOtp.fld Fld.secStatLc 0 = s.otpLc :=
    (State.fld_setFld_self h1 _ _ _).trans (Nat.mod_eq_of_lt s.otpLc_lt)
  have hrecovery : (s.setFlag Fld.secStatRecovery 0 false).readOtp.fld Fld.secStatRecovery 0 = 0 :=
    (State.fld_setFld_ne h1 (.inr (.inr (by decide))) _ (by decide)).trans (State.fld_setFld_self hs _ _ _)
  have hother : ∀ (f : Field) (j : Nat), f.lo < 1024 → f.reg ≠ .secStat → (s.setFlag Fld.secStatRecovery 0 false).readOtp.fld f j = s.fld f j :=
    fun f j hlo hf => (State.fld_setFld_ne h1 (.inr (.inl hf.symm)) _ ⟨by decide, hlo⟩).trans (State.fld_setFld_ne hs (.inr (.inl hf.symm)) _ ⟨by decide, hlo⟩)
  have hsec : (s.setFlag Fld.secStatRecovery 0 false).readOtp.sec = s.sec := rfl
  unfold State.bootBegun
  generalize (s.setFlag Fld.secStatRecovery 0 false).readOtp = v at *
  obtain ⟨d, k, hkeys⟩ := v.makeKeys_frame
  obtain ⟨hfactory, hfield⟩ := v.makeKeys_keys
  have hregs : v.makeKeys.dropOldHalf.regs = v.regs := by
    rw [hkeys]
    rfl
  have hdev : v.makeKeys.dropOldHalf.sec.deviceKeys = v.makeKeys.sec.deviceKeys := by
    rw [State.dropOldHalf_sec, Security.setHalf_rest]
  have hbasis : v.makeKeys.dropOldHalf.imageBasis = s.imageBasis := by
    have hlog : v.makeKeys.log = s.log := by
      have hkeysec : v.makeKeys.sec = { s.sec with deviceKeys := k } := by rw [hkeys, hsec]
      exact State.log_congr (congrArg Security.half0 hkeysec :) (congrArg Security.half1 hkeysec :)
    have hsec' := v.makeKeys.dropOldHalf_sec
    unfold State.imageBasis
    rw [v.makeKeys.dropOldHalf_log, hlog, hsec', Security.setHalf_rest, hkeys, hsec]
  refine ⟨hregs ▸ h2, hbasis, (State.fld_congr hregs _ _).trans hlc, (State.fld_congr hregs _ _).trans hrecovery,
    fun f j hlo hf => (State.fld_congr hregs _ _).trans (hother f j hlo hf), fun h0 => ?_, fun h0 => ?_⟩
  · rw [Security.identityKeys, hdev]
    exact hfactory (hlc.trans h0)
  · rw [hdev, hfield (fun h => h0 (hlc.symm.trans h)), hsec]

/-- The loader is measured, and the MGC's SRAM holds it. -/
def State.loaderRuns (s : State) (ld : Image) : State := (s.runImage 1 ld).loadSram ld.payload

theorem State.boot_none (h : s.bootBegun.chosen 1 = none) : s.boot = s.bootBegun.recover := by
  unfold State.boot
  unfold State.bootBegun at h ⊢
  generalize (s.setFlag Fld.secStatRecovery 0 false).readOtp.makeKeys.dropOldHalf = v at h ⊢
  simp only [h]

theorem State.boot_some {ld : Image} (h : s.bootBegun.chosen 1 = some ld) : s.boot = (s.bootBegun.loaderRuns ld).bootFirmware := by
  unfold State.boot
  unfold State.bootBegun at h ⊢
  generalize (s.setFlag Fld.secStatRecovery 0 false).readOtp.makeKeys.dropOldHalf = v at h ⊢
  simp only [h]
  rfl

theorem State.loaderRuns_facts (hs : Tab.sorted s.regs = true) (ld : Image) : Tab.sorted (s.loaderRuns ld).regs = true ∧
    (s.loaderRuns ld).imageBasis = s.imageBasis ∧ (s.loaderRuns ld).sec.deviceKeys = s.sec.deviceKeys ∧
    (s.loaderRuns ld).fld Fld.measValue 0 = leNat (sha384 (s.measured 0 ++ sha384 ld.signed)) % 2 ^ 384 ∧
    ∀ (f : Field) (j : Nat), f.lo < 1024 → 0 ≠ j ∨ Reg.meas ≠ f.reg → (s.loaderRuns ld).fld f j = s.fld f j :=
  ⟨State.sorted_runImage hs 1 ld, (State.loadSram_imageBasis _ _).trans (s.runImage_imageBasis 1 ld), rfl, State.runImage_measured hs 1 ld,
    fun _ _ hlo hne => State.runImage_fld hs 1 ld hne hlo⟩

/-- Without a valid loader or without valid firmware the device is in recovery. -/
theorem State.boot_recovers (hs : Tab.sorted s.regs = true) (hphase : s.fld Fld.setupStatPhase 0 = 1) (h : s.chosen 1 = none ∨ s.chosen 2 = none) :
    s.boot.sec.mgcRuns = false ∧ s.boot.flag Fld.secStatRecovery 0 = true ∧ s.boot.fld Fld.setupStatPhase 0 = 1 := by
  obtain ⟨hb, hbasis, -, -, hother, -, -⟩ := State.bootBegun_facts hs
  have hchosen := State.chosen_congr hbasis
  have hstart := (hother Fld.setupStatPhase 0 (by decide) (by decide)).trans hphase
  have hrecover : ∀ v : State, Tab.sorted v.regs = true → v.fld Fld.setupStatPhase 0 = 1 → v.recover.sec.mgcRuns = false ∧
      v.recover.flag Fld.secStatRecovery 0 = true ∧ v.recover.fld Fld.setupStatPhase 0 = 1 := fun v hv h1 =>
    ⟨rfl, (State.recover_fields hv).1, ((State.recover_fields hv).2 _ _ (by decide) (by decide)).trans h1⟩
  cases hld : s.bootBegun.chosen 1 with
  | none =>
    rw [State.boot_none hld]
    exact hrecover _ hb hstart
  | some ld =>
    have hfw : s.chosen 2 = none := h.resolve_left fun h1 => by rw [hchosen, h1] at hld; exact absurd hld (by simp)
    obtain ⟨hl, hlbasis, -, -, hkept⟩ := State.loaderRuns_facts hb ld
    have hfw' : (s.bootBegun.loaderRuns ld).chosen 2 = none := (State.chosen_congr (hlbasis.trans hbasis) 2).trans hfw
    rw [State.boot_some hld, State.bootFirmware_none hfw']
    exact hrecover _ hl ((hkept _ 0 (by decide) (by decide)).trans hstart)

/-- With a valid loader and valid firmware the MGC runs the firmware. -/
theorem State.boot_runs (hs : Tab.sorted s.regs = true) {ld fw : Image} (hld : s.chosen 1 = some ld) (hfw : s.chosen 2 = some fw) :
    s.boot.sec.mgcRuns = true ∧ s.boot.flag Fld.secStatRecovery 0 = false ∧ s.boot.fld Fld.setupStatPhase 0 = 2 ∧ s.boot.fld Fld.secStatLc 0 = s.otpLc ∧
    s.boot.flag Fld.secStatNoAssay 0 = (s.chosen 3).isNone ∧
    s.boot.fld Fld.measValue 0 = leNat (sha384 (s.measured 0 ++ sha384 ld.signed)) % 2 ^ 384 ∧
    s.boot.fld Fld.measValue 1 = leNat (sha384 (s.measured 1 ++ sha384 fw.signed)) % 2 ^ 384 ∧
    (∀ im, s.chosen 3 = some im → s.boot.fld Fld.measValue 2 = leNat (sha384 (s.measured 2 ++ sha384 im.signed)) % 2 ^ 384) ∧
    s.boot.sec.firmware = fw.payload ∧ s.boot.sec.sram = Mem.writeRange [] 0 (fw.payload.take 0x400000) ∧
    (s.otpLc = 0 → s.boot.sec.identityKeys = true) ∧ (s.otpLc ≠ 0 → s.boot.sec.deviceKeys = s.sec.deviceKeys) := by
  obtain ⟨hb, hbasis, hlc, hrecovery, hother, hfactory, hfield⟩ := State.bootBegun_facts hs
  have hld' : s.bootBegun.chosen 1 = some ld := (State.chosen_congr hbasis 1).trans hld
  obtain ⟨hsorted, hlbasis, hkeys, hmeas0, hkept⟩ := State.loaderRuns_facts hb ld
  have hbasis' := hlbasis.trans hbasis
  have hmeasured : ∀ n, s.bootBegun.measured n = s.measured n := fun n => by
    rw [State.measured, State.measured, hother Fld.measValue n (by decide) (by decide)]
  rw [State.boot_some hld']
  generalize s.bootBegun.loaderRuns ld = v at *
  have hfw' : v.chosen 2 = some fw := (State.chosen_congr hbasis' 2).trans hfw
  have hmeasured' : ∀ n, 0 ≠ n → v.measured n = s.measured n := fun n hn => by
    rw [State.measured, hkept Fld.measValue n (by decide) (.inl hn)]
    exact hmeasured n
  obtain ⟨t, hsec, hphase, hno, hmeas1, hmeas2, hmeas, hrec, hcycle⟩ := State.bootFirmware_runs hsorted hfw'
  rw [State.chosen_congr hbasis' 3] at hno hmeas2
  rw [hmeasured' 1 (by decide)] at hmeas1
  rw [hmeasured' 2 (by decide)] at hmeas2
  rw [hmeasured 0] at hmeas0
  refine ⟨congrArg Security.mgcRuns hsec, ?_, hphase, hcycle.trans ((hkept _ 0 (by decide) (by decide)).trans hlc), hno, hmeas.trans hmeas0, hmeas1, hmeas2,
    congrArg Security.firmware hsec, congrArg Security.sram hsec, fun h0 => ?_, fun h0 => ?_⟩
  · rw [State.flag, hrec, hkept _ 0 (by decide) (by decide), hrecovery]
    rfl
  · rw [Security.identityKeys, hsec]
    exact (congrArg Option.isSome hkeys).trans (hfactory h0)
  · rw [hsec]
    exact hkeys.trans (hfield h0)

end

end Sys2Proof.Machine
end

section
/-! SUPPORT. Slots, floors, attestation and sessions, and the settling of O58. -/

namespace Sys2Proof.Machine

/-! ## Lengths of hashes and reports (R439, R441) -/

theorem shaRound_length (v : List Word64) (kw : Word64 × Word64) (h : v.length = 8) : (shaRound v kw).length = 8 := by
  unfold shaRound
  split
  · rfl
  · exact h

theorem shaBlock_length {v : List Word64} (h : v.length = 8) (block : List Byte) : (shaBlock v block).length = 8 := by
  have hfold : ∀ (kws : List (Word64 × Word64)) (w : List Word64), w.length = 8 → (kws.foldl shaRound w).length = 8 := by
    intro kws
    induction kws with
    | nil => exact fun w hw => hw
    | cons kw kws ih => exact fun w hw => ih _ (shaRound_length w kw hw)
  rw [shaBlock, List.length_zipWith, h, hfold _ v h]
  rfl

theorem shaBlocks_length : ∀ (n : Nat) {v : List Word64} (bs : List Byte), v.length = 8 → (shaBlocks n v bs).length = 8
  | 0, _, _, h => h
  | n + 1, v, bs, h => by
    unfold shaBlocks
    split
    · exact h
    · exact shaBlocks_length n _ (shaBlock_length h _)

theorem sha384_length (bs : List Byte) : (sha384 bs).length = 48 := by
  have hlen := shaBlocks_length ((shaPad bs).length / 128) (v := shaInit) (shaPad bs) rfl
  unfold sha384
  dsimp only
  rw [List.length_flatMap]
  simp [hlen]

theorem fitBytes_length (n : Nat) (bs : List Byte) : (fitBytes n bs).length = n := by
  unfold fitBytes
  rw [List.length_append, List.length_take, List.length_replicate]
  omega

theorem fitBytes_of_length {n : Nat} {bs : List Byte} (h : bs.length = n) : fitBytes n bs = bs := by
  unfold fitBytes
  rw [List.take_of_length_le h.le, h, Nat.sub_self, List.replicate_zero, List.append_nil]

section
variable (s : State) (nonce : List Byte)

theorem State.measured_lengths (l : List Nat) : (l.flatMap s.measured).length = 48 * l.length := by
  induction l with
  | nil => rfl
  | cons n l ih => rw [List.flatMap_cons, List.length_append, ih, State.measured, leBytes_length, List.length_cons]; omega

theorem State.reportHead_length : (s.reportHead nonce).length = 1024 := by
  have hmeas : ((List.range 8).flatMap s.measured).length = 384 := s.measured_lengths _
  unfold State.reportHead State.identityHash
  simp only [List.length_append, hmeas, leBytes_length, fitBytes_length, sha384_length, List.flatMap_cons, List.flatMap_nil, List.length_nil]

theorem State.attest_length : (s.attest nonce).length = 17632 := by
  simp only [State.attest, List.length_append, State.reportHead_length, fitBytes_length]

/-- A report begins with its magic number, and the nonce stands at byte 16. -/
theorem State.attest_begins : (s.attest nonce).take 4 = [0x4F, 0x56, 0x41, 0x54] ∧ (nonce.length = 32 → ((s.attest nonce).drop 16).take 32 = nonce) := by
  have hprefix : (leBytes 4 0x5441564F ++ leBytes 2 1 ++ leBytes 2 0 ++ leBytes 4 17632 ++ leBytes 4 0) ++ fitBytes 32 nonce <+: s.attest nonce := by
    unfold State.attest State.reportHead
    iterate 20 refine List.prefix_append_of_prefix ?_
    exact List.prefix_rfl
  obtain ⟨rest, hrest⟩ := hprefix
  have hlen : (leBytes 4 0x5441564F ++ leBytes 2 1 ++ leBytes 2 0 ++ leBytes 4 17632 ++ leBytes 4 0).length = 16 := rfl
  rw [← hrest, List.append_assoc]
  refine ⟨rfl, fun h => ?_⟩
  rw [fitBytes_of_length h, ← hlen, List.drop_left, ← h, List.take_left]

end

/-! ## Slots, floors and sessions (R436-R438, R443) -/

section
variable {s : State} {k n : Nat} {i : Image}

theorem State.firstChoice_le (s : State) (k : Nat) : s.firstChoice k ≤ 1 := by
  unfold State.firstChoice
  cases hnamed : s.namedSlot k with
  | none =>
    dsimp only
    split
    · split <;> omega
    · omega
    · omega
  | some m =>
    unfold State.namedSlot at hnamed
    obtain ⟨r, -, rfl⟩ := Option.map_eq_some_iff.1 hnamed
    exact Nat.le_of_lt_succ (Nat.mod_lt _ (by decide))

theorem State.slotImage_putSlot (s : State) (k n : Nat) (i : Image) : (s.putSlot k n i).slotImage k n = some i := Tab.get_set_ne (by simp)

theorem State.slotImage_putSlot_other (hs : Tab.sorted s.sec.slots = true) {m : Nat} (hne : m ≠ n) : (s.putSlot k n i).slotImage k m = s.slotImage k m :=
  Tab.get_set_other hs (by omega)

theorem State.firstChoice_of_named {m : Nat} (h : s.namedSlot k = some m) : s.firstChoice k = m := by
  unfold State.firstChoice
  rw [h]

/-- An update names the slot that it fills as the first choice. -/
theorem State.firstChoice_updated (s : State) (k n : Nat) (i : Image) (hn : n < 2) : ((s.putSlot k n i).journal recSlotActive [k, n]).firstChoice k = n := by
  have hnamed : ((s.putSlot k n i).journal recSlotActive [k, n]).namedSlot k = some n := by
    have hchanges : ((s.putSlot k n i).journal recSlotActive [k, n]).sec.changes = s.sec.changes ++ [(recSlotActive, [k, n], s.tally)] := rfl
    unfold State.namedSlot
    dsimp only
    rw [hchanges, List.map_append, ← List.append_assoc, List.filter_append]
    simp [Nat.mod_eq_of_lt hn]
  exact State.firstChoice_of_named hnamed

/-- Both slots of a kind hold images at or above a value. -/
theorem State.slots_hold_iff {v : Nat} : (s.slotImage k 0).any (fun i => decide (v ≤ i.svn)) = true ∧ (s.slotImage k 1).any (fun i => decide (v ≤ i.svn)) = true ↔
    ∃ a b, s.slotImage k 0 = some a ∧ s.slotImage k 1 = some b ∧ v ≤ a.svn ∧ v ≤ b.svn := by
  cases s.slotImage k 0 <;> cases s.slotImage k 1 <;> simp

theorem svnCommit_eq (hk : 1 ≤ k) (hk' : k ≤ 3) {v : Nat} (hv : v = min 64 (Tab.get 0 s.sec.running k)) : exec (.svnCommit k) s =
    whenever (s.mgcServes && (s.slotImage k 0).any (fun i => decide (v ≤ i.svn)) && (s.slotImage k 1).any (fun i => decide (v ≤ i.svn)) &&
      decide (s.floorOf k < v)) s { s with sec := { s.sec with floors := Tab.set 0 s.sec.floors k v } } := by
  subst hv
  exact onUnit_ok (by simp [hk, hk'])

theorem State.installIde_eq (s : State) : s.installIde =
    if s.fns.linkUp = true ∧ s.fld Fld.pwrStatState 0 ≠ 3 then
      { s with draws := s.draws + 1, sec := { s.sec with ideKeys := [Config.ideKey (2 * s.draws), Config.ideKey (2 * s.draws + 1)] } }
    else s := by
  unfold State.installIde
  by_cases h : s.fns.linkUp = true ∧ s.fld Fld.pwrStatState 0 ≠ 3 <;> simp [h]

end

/-- Settles O58: images by the steps of their check, the chain by what it does in order, and the journal by its two halves. -/
theorem onlyVerifiedImagesRunAndTheJournalKeepsOrder : Obligations.OnlyVerifiedImagesRunAndTheJournalKeepsOrder := by
  unfold Obligations.OnlyVerifiedImagesRunAndTheJournalKeepsOrder
  refine ⟨fun s k i => State.chosen_valid, fun s k i => State.valid_iff, fun s hcan hawake hphase hrec => ?boots,
    fun s k n i hk hk' hn => ⟨fun hrec hvalid => ?recovers, fun h => ?noRecovery, fun hserves hvalid => ?updates, fun h => ?noUpdate⟩,
    fun s k v hk hk' hv => ?commits, fun s nonce spdm hawake hserves hspdm => ?attests, fun s script => ⟨fun hserves hkeys => ?session, fun h => ?noSession⟩,
    fun s ty tl args rest hawake hchanges => ?writes, fun s hawake hcan => ?compacts, fun s => ⟨fun hoff hfree => ?waits, whenever_pos, whenever_neg⟩⟩
  case boots =>
    have hs := State.canonical.regs hcan
    have hgo : (s.awake && s.fld Fld.setupStatPhase 0 == 1 && !s.flag Fld.secStatRecovery 0) = true := by simp [hawake, hphase, hrec]
    have hexec : ∀ n, exec (.bootChain n) s = .next (if decide (n < 16) && s.sec.identityArea then s.boot else s.readOtp.recover) :=
      fun n => whenever_pos hgo
    refine ⟨fun n hn => ?_, fun n hn harea hno => ?_, fun n ld fw hn harea hld hfw => ?_⟩
    · have hfail : (decide (n < 16) && s.sec.identityArea) = false := by
        rcases hn with hn | hn
        · simp [Nat.not_lt.2 hn]
        · simp [hn]
      have hotp : Tab.sorted s.readOtp.regs = true := State.sorted_setFld hs _ _ _
      obtain ⟨hrecovery, hothers⟩ := State.recover_fields hotp
      refine ⟨_, (hexec n).trans (by rw [hfail]; rfl), rfl, hrecovery, (hothers _ 0 (by decide) (by decide)).trans ?_,
        (hothers _ 0 (by decide) (by decide)).trans ((State.fld_setFld_ne hs (.inr (.inl (by decide))) _ (by decide)).trans hphase)⟩
      exact (State.fld_setFld_self hs _ _ _).trans (Nat.mod_eq_of_lt s.otpLc_lt)
    · exact ⟨s.boot, (hexec n).trans (by simp [hn, harea]), State.boot_recovers hs hphase hno⟩
    · exact ⟨s.boot, (hexec n).trans (by simp [hn, harea]), State.boot_runs hs hld hfw⟩
  case recovers =>
    refine ⟨_, onUnit_whenever (by simp [hk, hk', hn]) (by simp [hrec, hvalid]), s.slotImage_putSlot k n i, fun hcan => ?_, rfl⟩
    have hs := State.canonical.regs hcan
    exact ⟨State.flag_setFlag_self (by exact hs) rfl _ _,
      (State.writesOnly.trans (.of_regs rfl) (.setFlag Fld.secStatRecovery 0 false (by decide))).regsBut hs⟩
  case noRecovery => exact (onUnit_ok (by simp [hk, hk', hn])).trans (whenever_neg (by rcases h with h | h <;> simp [h]))
  case updates =>
    have hle := s.firstChoice_le k
    exact ⟨_, onUnit_whenever (by simp [hk, hk']) (by simp [hserves, hvalid]), s.slotImage_putSlot k _ i, s.firstChoice_updated k _ i (by omega), rfl,
      fun hslots => State.slotImage_putSlot_other hslots (by omega)⟩
  case noUpdate => exact (onUnit_ok (by simp [hk, hk'])).trans (whenever_neg (by rcases h with h | h <;> simp [h]))
  case commits =>
    rw [svnCommit_eq hk hk' hv, ← State.slots_hold_iff]
    refine ⟨fun ⟨hserves, ⟨h0, h1⟩, hfloor⟩ => whenever_pos (by simp [hserves, h0, h1, hfloor]), fun h => whenever_neg (Bool.eq_false_iff.2 fun hgo => h ?_)⟩
    simpa [and_assoc] using hgo
  case attests =>
    have hexec : exec (.attestationRequest nonce spdm) s = .next { s with
        outs := { s.outs with report := if s.fld Fld.secStatLc 0 = 3 || !s.sec.identityKeys then [] else s.attest nonce } } := by
      refine whenever_pos ?_
      cases spdm <;> simp [hawake, hserves, hspdm]
    refine ⟨_, hexec, rfl, fun h => ?_, fun hlc hkeys => ?_⟩
    · rcases h with h | h <;> simp [h]
    · obtain ⟨hmagic, hnonce⟩ := s.attest_begins nonce
      have hreport : (if s.fld Fld.secStatLc 0 = 3 || !s.sec.identityKeys then [] else s.attest nonce) = s.attest nonce := if_neg (by simp [hlc, hkeys])
      dsimp only
      rw [hreport]
      exact ⟨rfl, s.attest_length nonce, hmagic, hnonce⟩
  case session =>
    refine ⟨_, whenever_pos (by simp [hserves, hkeys]), ?_⟩
    rw [State.installIde_eq]
    by_cases hopen : s.fns.linkUp = true ∧ s.fld Fld.pwrStatState 0 ≠ 3
    · rw [if_pos (by exact hopen)]
      refine ⟨rfl, fitBytes_length _ _, rfl, fun _ _ => ⟨_, _, rfl⟩, fun h => ?_⟩
      rcases h with h | h
      · exact absurd (hopen.1.symm.trans h) (by decide)
      · exact absurd h hopen.2
    · rw [if_neg (by exact hopen)]
      exact ⟨rfl, fitBytes_length _ _, rfl, fun hup hp3 => absurd ⟨hup, hp3⟩ hopen, fun _ => rfl⟩
  case noSession => exact whenever_neg (by rcases h with h | h <;> simp [h])
  case writes =>
    obtain ⟨u, hexec, hrest, hregs, htrip, hhalf, hlog⟩ := journalRecordWrite_writes hawake hchanges
    exact ⟨u, hexec, hrest, hregs, htrip, hhalf, fun hne => hlog.trans (State.withRecord_append hne _), fun hempty => hlog.trans (State.withRecord_begins hempty _)⟩
  case compacts =>
    have hs := State.canonical.regs hcan
    exact ⟨journalCompaction_begins hawake hs, fun hon hgen => ⟨journalCompaction_seals hawake hon hgen, journalCompaction_copies hawake hon hgen⟩,
      journalCompaction_ends hawake hs⟩
  case waits => exact whenever_neg (by simp [hoff, Nat.not_lt.2 hfree])

end Sys2Proof.Machine
end

section
/-! SUPPORT. The life cycle, the debug level, tokens and sessions (O59, first part). -/

namespace Sys2Proof.Machine

/-! ## Changes of the life cycle and of the level (R439, R453, R457) -/

/-- Fields that neither a level nor a life cycle nor their measurement sets. -/
def Field.apart (f : Field) (g : Field) : Prop := f.lo < 1024 ∧ f.reg ≠ .meas ∧ (f.reg ≠ g.reg ∨ f.lo ≠ g.lo)

theorem State.mapTiles_frame (s : State) (f : Tile → Tile) : ∃ t, s.mapTiles f = { s with tiles := t } := by
  have hfold : ∀ (l : List (Nat × Tile)) (u : State), ∃ t, l.foldl (fun (s : State) e => s.setTile e.1 (f e.2)) u = { u with tiles := t } := by
    intro l
    induction l with
    | nil => exact fun u => ⟨u.tiles, rfl⟩
    | cons e l ih =>
      intro u
      obtain ⟨t, ht⟩ := ih (u.setTile e.1 (f e.2))
      exact ⟨t, ht.trans rfl⟩
  exact hfold s.tiles s

theorem State.releaseHalts_frame (s : State) : ∃ t, s.releaseHalts = { s with tiles := t, sec := { s.sec with mgcHalted := false } } := by
  obtain ⟨t, ht⟩ := s.mapTiles_frame fun t => { t with halted := false }
  exact ⟨t, by rw [State.releaseHalts, ht]⟩

theorem State.setLc_frame (s : State) (lc : Nat) : ∃ r, s.setLc lc = { s with regs := r } := by
  unfold State.setLc
  split
  · exact ⟨s.regs, rfl⟩
  · exact ⟨_, rfl⟩

theorem State.setLevel_frame (s : State) (l : Nat) : ∃ r t a m, s.setLevel l = { s with regs := r, tiles := t, sec := { s.sec with aboveL0 := a, mgcHalted := m } } := by
  unfold State.setLevel
  split
  · exact ⟨_, _, _, _, rfl⟩
  · dsimp only
    by_cases h0 : 0 < l
    · rw [if_pos h0]
      split
      · obtain ⟨t, ht⟩ := State.releaseHalts_frame
          { (s.setFld Fld.secStatLevel 0 l).measureChange with sec := { (s.setFld Fld.secStatLevel 0 l).measureChange.sec with aboveL0 := true } }
        exact ⟨_, t, true, false, ht⟩
      · exact ⟨_, _, true, _, rfl⟩
    · rw [if_neg h0, if_pos (by omega)]
      obtain ⟨t, ht⟩ := (s.setFld Fld.secStatLevel 0 l).measureChange.releaseHalts_frame
      exact ⟨_, t, _, false, ht⟩

section
variable {s : State} (hs : Tab.sorted s.regs = true)
include hs

theorem State.measureChange_fields : Tab.sorted s.measureChange.regs = true ∧
    ∀ (f : Field) (i : Nat), f.lo < 1024 → f.reg ≠ .meas → s.measureChange.fld f i = s.fld f i :=
  ⟨State.sorted_setFld hs _ _ _, fun _ _ hlo hf => State.fld_setFld_ne hs (.inr (.inl hf.symm)) _ ⟨by decide, hlo⟩⟩

theorem State.setLc_fields {lc : Nat} (hlc : lc < 4) : Tab.sorted (s.setLc lc).regs = true ∧ (s.setLc lc).fld Fld.secStatLc 0 = lc ∧
    ∀ (f : Field) (i : Nat), f.apart Fld.secStatLc → (s.setLc lc).fld f i = s.fld f i := by
  have hset := State.sorted_setFld hs Fld.secStatLc 0 lc
  obtain ⟨hm, hkeep⟩ := State.measureChange_fields hset
  unfold State.setLc
  split
  · next h => exact ⟨hs, h, fun _ _ _ => rfl⟩
  · exact ⟨hm, (hkeep _ _ (by decide) (by decide)).trans ((State.fld_setFld_self hs _ _ _).trans (Nat.mod_eq_of_lt hlc)),
      fun f i ⟨hlo, hmeas, hne⟩ => (hkeep f i hlo hmeas).trans (State.fld_setFld_ne hs (.inr (hne.imp Ne.symm Ne.symm)) _ ⟨by decide, hlo⟩)⟩

theorem State.setLevel_fields {l : Nat} (hl : l < 4) : Tab.sorted (s.setLevel l).regs = true ∧ (s.setLevel l).level = l ∧
    ∀ (f : Field) (i : Nat), f.apart Fld.secStatLevel → (s.setLevel l).fld f i = s.fld f i := by
  have hset := State.sorted_setFld hs Fld.secStatLevel 0 l
  obtain ⟨hm, hkeep⟩ := State.measureChange_fields hset
  have hlevel : (s.setFld Fld.secStatLevel 0 l).measureChange.level = l :=
    (hkeep _ _ (by decide) (by decide)).trans ((State.fld_setFld_self hs _ _ _).trans (Nat.mod_eq_of_lt hl))
  have hother : ∀ (f : Field) (i : Nat), f.apart Fld.secStatLevel → (s.setFld Fld.secStatLevel 0 l).measureChange.fld f i = s.fld f i :=
    fun f i ⟨hlo, hmeas, hne⟩ => (hkeep f i hlo hmeas).trans (State.fld_setFld_ne hs (.inr (hne.imp Ne.symm Ne.symm)) _ ⟨by decide, hlo⟩)
  by_cases h : s.level = l
  · have hsame : s.setLevel l = s := if_pos h
    rw [hsame]
    exact ⟨hs, h, fun _ _ _ => rfl⟩
  · have hregs : (s.setLevel l).regs = (s.setFld Fld.secStatLevel 0 l).measureChange.regs := by
      unfold State.setLevel
      rw [if_neg h]
      dsimp only
      split <;> split <;> simp only [State.releaseHalts_regs]
    exact ⟨hregs ▸ hm, (State.fld_congr hregs _ _).trans hlevel, fun f i hf => (State.fld_congr hregs _ _).trans (hother f i hf)⟩

end

/-- A level above L0 is noted for good. -/
theorem State.setLevel_aboveL0 {s : State} {l : Nat} (h : s.level < l) : (s.setLevel l).sec.aboveL0 = true := by
  have hpos : 0 < l := by omega
  unfold State.setLevel
  rw [if_neg (by omega)]
  simp only [hpos, if_true]
  split
  · obtain ⟨t, ht⟩ := State.releaseHalts_frame
      { (s.setFld Fld.secStatLevel 0 l).measureChange with sec := { (s.setFld Fld.secStatLevel 0 l).measureChange.sec with aboveL0 := true } }
    rw [ht]
  · rfl

/-- Below L2 the MGC runs on. -/
theorem State.setLevel_mgcHalted {s : State} {l : Nat} (h : l < s.level) (h2 : l < 2) : (s.setLevel l).sec.mgcHalted = false := by
  unfold State.setLevel
  rw [if_neg (by omega)]
  dsimp only
  rw [if_pos h2]
  rfl

/-! ## Tokens (R456) -/

section
variable {s : State} {t : Token} {action : Nat}

/-- A check that fails gives its cause, so no cause means that it and the checks behind it are met. -/
theorem check_zero_iff {b : Bool} {k x : Nat} (hk : k ≠ 0) : (if (!b) = true then k else x) = 0 ↔ b = true ∧ x = 0 := by
  cases b <;> simp [hk]

theorem State.tokenCause_le (s : State) (t : Token) (action : Nat) : s.tokenCause t action ≤ 8 := by
  unfold State.tokenCause
  split_ifs <;> decide

/-- A token that meets every check of R456, in their order. -/
theorem State.tokenCause_zero_iff (ha : action = 1 ∨ action = 2 ∨ action = 3) : s.tokenCause t action = 0 ↔ tokenForm t action = true ∧
    (sha384 (rsaKeyAt t.signed 0x100 ++ slhKeyAt t.signed 0x100) = Config.rootKeyHash t.keyIndex ∧ t.keyIndex < 4 ∧ bitOf s.sec.revoked t.keyIndex = false) ∧
    Config.rsaVerifies (rsaKeyAt t.signed 0x100) t.signed t.rsaSig = true ∧ Config.slhVerifies (slhKeyAt t.signed 0x100) t.signed t.slhSig = true ∧
    s.sec.identityKeys = true ∧ t.idHash = leNat s.identityHash ∧ t.challenge = s.fld Fld.dbgChallengeValue 0 ∧ s.fld Fld.secStatLc 0 = (if action = 3 then 0 else 1) ∧
    (action = 1 → t.level ≤ s.fld Fld.dbgConsentLevel 0) ∧ (action = 2 → s.flag Fld.dbgConsentReturnOk 0 = true) := by
  have hconsent : s.consents t action = true ↔ (action = 1 → t.level ≤ s.fld Fld.dbgConsentLevel 0) ∧ (action = 2 → s.flag Fld.dbgConsentReturnOk 0 = true) := by
    rcases ha with rfl | rfl | rfl <;> simp [State.consents]
  have hchecks : s.tokenCause t action = 0 ↔ tokenForm t action = true ∧ s.keyOk t.keyIndex (rsaKeyAt t.signed 0x100 ++ slhKeyAt t.signed 0x100) = true ∧
      rsaOk t.signed 0x100 t.rsaSig = true ∧ slhOk t.signed 0x100 t.slhSig = true ∧ (s.sec.identityKeys && t.idHash == leNat s.identityHash) = true ∧
      t.challenge = s.fld Fld.dbgChallengeValue 0 ∧ s.fld Fld.secStatLc 0 = actionLc action ∧ s.consents t action = true := by
    unfold State.tokenCause
    simp only [bne, check_zero_iff, ne_eq, one_ne_zero, OfNat.ofNat_ne_zero, not_false_eq_true, beq_iff_eq, and_true]
  rw [hchecks, hconsent]
  simp only [State.keyOk, rsaOk, slhOk, actionLc, Bool.and_eq_true, beq_iff_eq, decide_eq_true_eq, Bool.not_eq_true', and_assoc]

theorem State.present_refused {accept : State → State} (h : s.tokenCause t action ≠ 0) :
    s.present t action accept = (s.refuseDebug (s.tokenCause t action)).newChallenge := by
  unfold State.present
  dsimp only
  rw [if_pos h]

theorem State.present_accepted {accept : State → State} (h : s.tokenCause t action = 0) :
    s.present t action accept = (accept (s.bump Fld.dbgStatAccepted 0 1)).newChallenge := by
  unfold State.present
  dsimp only
  rw [if_neg (by simp [h])]

theorem State.newChallenge_fld (hs : Tab.sorted s.regs = true) {f : Field} (hf : f.lo < 1024 ∧ f.reg ≠ .dbgChallenge) (i : Nat) :
    s.newChallenge.fld f i = s.fld f i := State.fld_setFld_ne (by exact hs) (.inr (.inl hf.2.symm)) _ ⟨by decide, hf.1⟩

/-- A refusal counts and keeps its cause. -/
theorem State.refuseDebug_fields (hs : Tab.sorted s.regs = true) {cause : Nat} (hc : cause < 16) : Tab.sorted (s.refuseDebug cause).regs = true ∧
    (s.refuseDebug cause).fld Fld.dbgStatRefused 0 = s.counted Fld.dbgStatRefused 0 1 ∧ (s.refuseDebug cause).fld Fld.dbgStatCause 0 = cause ∧
    s.writesOnly (· ∈ [Reg.dbgStat]) (s.refuseDebug cause) := by
  have hwrites : s.writesOnly (· ∈ [Reg.dbgStat]) (s.bump Fld.dbgStatRefused 0 1) := .bump _ _ _ (by decide)
  have hb := (hwrites hs).1
  exact ⟨State.sorted_setFld hb _ _ _, (State.fld_setFld_ne hb (.inr (.inr (by decide))) _ (by decide)).trans (State.fld_bump_self hs _ _ _),
    (State.fld_setFld_self hb _ _ _).trans (Nat.mod_eq_of_lt hc), hwrites.trans (.setFld _ _ _ (by decide))⟩

theorem State.bump_frame (s : State) (f : Field) (i n : Nat) : ∃ r, s.bump f i n = { s with regs := r } := by
  unfold State.bump
  split
  · exact ⟨_, rfl⟩
  · exact ⟨_, rfl⟩

/-- What a refused token leaves. -/
theorem State.refused_token (hs : Tab.sorted s.regs = true) (t : Token) (action : Nat) :
    ((s.refuseDebug (s.tokenCause t action)).newChallenge).fld Fld.dbgStatRefused 0 = s.counted Fld.dbgStatRefused 0 1 ∧
    ((s.refuseDebug (s.tokenCause t action)).newChallenge).fld Fld.dbgStatCause 0 = s.tokenCause t action ∧
    s.regsBut ((s.refuseDebug (s.tokenCause t action)).newChallenge) [.dbgStat, .dbgChallenge] ∧
    (s.refuseDebug (s.tokenCause t action)).newChallenge =
      { s with regs := ((s.refuseDebug (s.tokenCause t action)).newChallenge).regs, draws := s.draws + 1 } := by
  obtain ⟨hr, hcount, hcause, hwrites⟩ := State.refuseDebug_fields hs (Nat.lt_of_le_of_lt (s.tokenCause_le t action) (by decide : 8 < 16))
  refine ⟨(State.newChallenge_fld hr (by decide) 0).trans hcount, (State.newChallenge_fld hr (by decide) 0).trans hcause, ?_, ?_⟩
  · exact (State.writesOnly.trans (hwrites.mono fun r h => List.mem_cons.2 (.inl (List.mem_singleton.1 h)))
      (State.writesOnly.trans (.of_regs rfl) (.setFld Fld.dbgChallengeValue 0 _ (by decide)))).regsBut hs
  · obtain ⟨r, hb⟩ := s.bump_frame Fld.dbgStatRefused 0 1
    rw [State.refuseDebug, hb]
    rfl

/-! ## Sessions (R457, R461) -/

/-- What the opening of a session leaves: at L0 in FIELD_DEBUG, with its level granted. -/
theorem State.openSession_spec (hs : Tab.sorted s.regs = true) (hl : t.level < 4) : Tab.sorted (s.openSession t).regs = true ∧
    (s.openSession t).fld Fld.secStatLc 0 = 2 ∧ (s.openSession t).level = 0 ∧ (s.openSession t).fld Fld.secStatGranted 0 = t.level ∧
    (s.openSession t).sec.session = some ⟨t.level, t.idHash, s.tally, t.duration, false⟩ ∧
    (s.openSession t).sec.changes = s.sec.changes ++ [(recDebugSession, [1, t.level, t.idHash], s.tally)] ∧ (s.openSession t).mem = s.mem ∧
    (s.openSession t).tally = s.tally ∧ ∀ (f : Field) (i : Nat), f.lo < 1024 → f.reg ≠ .meas → f.reg ≠ .secStat → (s.openSession t).fld f i = s.fld f i := by
  obtain ⟨h1, hlevel, hkeep1⟩ := State.setLevel_fields hs (l := 0) (by decide)
  obtain ⟨r, tl, a, m, hframe⟩ := s.setLevel_frame 0
  have hmem : (s.setLevel 0).mem = s.mem := by rw [hframe]
  have htally : (s.setLevel 0).tally = s.tally := by rw [hframe]
  have hchanges : (s.setLevel 0).sec.changes = s.sec.changes := by rw [hframe]
  unfold State.openSession
  generalize s.setLevel 0 = v at *
  obtain ⟨h2, hlc, hkeep2⟩ := State.setLc_fields (s := { v with sec := { v.sec with session := some ⟨t.level, t.idHash, v.tally, t.duration, false⟩ } })
    h1 (lc := 2) (by decide)
  obtain ⟨r', hframe'⟩ := State.setLc_frame { v with sec := { v.sec with session := some ⟨t.level, t.idHash, v.tally, t.duration, false⟩ } } 2
  have hsec : (State.setLc { v with sec := { v.sec with session := some ⟨t.level, t.idHash, v.tally, t.duration, false⟩ } } 2).sec =
      { v.sec with session := some ⟨t.level, t.idHash, v.tally, t.duration, false⟩ } := by rw [hframe']
  have hmem' : (State.setLc { v with sec := { v.sec with session := some ⟨t.level, t.idHash, v.tally, t.duration, false⟩ } } 2).mem = v.mem := by rw [hframe']
  have htally' : (State.setLc { v with sec := { v.sec with session := some ⟨t.level, t.idHash, v.tally, t.duration, false⟩ } } 2).tally = v.tally := by
    rw [hframe']
  dsimp only
  generalize State.setLc { v with sec := { v.sec with session := some ⟨t.level, t.idHash, v.tally, t.duration, false⟩ } } 2 = w at *
  have hother : ∀ (f : Field) (i : Nat), f.lo < 1024 → (f.reg ≠ .secStat ∨ f.lo ≠ Fld.secStatGranted.lo) →
      (w.setFld Fld.secStatGranted 0 t.level).fld f i = w.fld f i := fun f i hlo hne => State.fld_setFld_ne h2 (.inr (hne.imp Ne.symm Ne.symm)) _ ⟨by decide, hlo⟩
  refine ⟨State.sorted_setFld h2 _ _ _, (hother _ 0 (by decide) (by decide)).trans hlc,
    (hother _ 0 (by decide) (by decide)).trans ((hkeep2 _ 0 (by unfold Field.apart; decide)).trans hlevel),
    (State.fld_setFld_self h2 _ _ _).trans (Nat.mod_eq_of_lt hl), ?_, ?_, hmem'.trans hmem, htally'.trans htally, fun f i hlo hm hr => ?_⟩
  · exact (congrArg Security.session hsec).trans (by rw [htally])
  · show w.sec.changes ++ [(recDebugSession, [1, t.level, t.idHash], w.tally)] = _
    rw [hsec, htally', htally, ← hchanges]
  · exact (hother f i hlo (.inl hr)).trans ((hkeep2 f i ⟨hlo, hm, .inl hr⟩).trans (hkeep1 f i ⟨hlo, hm, .inl hr⟩))

end

end Sys2Proof.Machine
end

section
/-! SUPPORT. The end of a session, and what accepted tokens and level requests leave (O59, second part). -/

namespace Sys2Proof.Machine

/-! ## The end of a session (R461) -/

/-- A session closes: L0, no grant, FIELD_LOCKED, and the closing record. -/
def State.sessionClosed (s : State) (x : Session) : State :=
  (({ (s.setLevel 0).setFld Fld.secStatGranted 0 0 with sec := { ((s.setLevel 0).setFld Fld.secStatGranted 0 0).sec with session := none } }).setLc 1).journal
    recDebugSession [0, x.granted, x.idHash]

section
variable {s : State}

theorem State.endSession_eq {x : Session} (h : s.sec.session = some x) : s.endSession = (if x.heldHigh then s.debugErase else s).sessionClosed x := by
  unfold State.endSession
  rw [h]
  rfl

theorem State.sessionClosed_spec (hs : Tab.sorted s.regs = true) (x : Session) : (s.sessionClosed x).sec.session = none ∧
    (s.sessionClosed x).fld Fld.secStatLc 0 = 1 ∧ (s.sessionClosed x).level = 0 ∧ (s.sessionClosed x).fld Fld.secStatGranted 0 = 0 ∧
    (s.sessionClosed x).mem = s.mem ∧ (s.sessionClosed x).sec.changes = s.sec.changes ++ [(recDebugSession, [0, x.granted, x.idHash], s.tally)] ∧
    Tab.sorted (s.sessionClosed x).regs = true ∧
    ∀ (f : Field) (i : Nat), f.lo < 1024 → f.reg ≠ .meas → f.reg ≠ .secStat → (s.sessionClosed x).fld f i = s.fld f i := by
  obtain ⟨h1, hlevel, hkeep1⟩ := State.setLevel_fields hs (l := 0) (by decide)
  obtain ⟨r, tl, a, m, hframe⟩ := s.setLevel_frame 0
  have hmem : (s.setLevel 0).mem = s.mem := by rw [hframe]
  have htally : (s.setLevel 0).tally = s.tally := by rw [hframe]
  have hchanges : (s.setLevel 0).sec.changes = s.sec.changes := by rw [hframe]
  unfold State.sessionClosed
  generalize s.setLevel 0 = v at *
  have h2 : Tab.sorted (v.setFld Fld.secStatGranted 0 0).regs = true := State.sorted_setFld h1 _ _ _
  have hgranted : (v.setFld Fld.secStatGranted 0 0).fld Fld.secStatGranted 0 = 0 := State.fld_setFld_self h1 _ _ _
  have hkeep2 : ∀ (f : Field) (i : Nat), f.lo < 1024 → (f.reg ≠ .secStat ∨ f.lo ≠ Fld.secStatGranted.lo) → (v.setFld Fld.secStatGranted 0 0).fld f i = v.fld f i :=
    fun f i hlo hne => State.fld_setFld_ne h1 (.inr (hne.imp Ne.symm Ne.symm)) _ ⟨by decide, hlo⟩
  have hvmem : (v.setFld Fld.secStatGranted 0 0).mem = v.mem := rfl
  have hvtally : (v.setFld Fld.secStatGranted 0 0).tally = v.tally := rfl
  have hvsec : (v.setFld Fld.secStatGranted 0 0).sec = v.sec := rfl
  generalize v.setFld Fld.secStatGranted 0 0 = w at *
  obtain ⟨h3, hlc, hkeep3⟩ := State.setLc_fields (s := { w with sec := { w.sec with session := none } }) h2 (lc := 1) (by decide)
  obtain ⟨r', hframe'⟩ := State.setLc_frame { w with sec := { w.sec with session := none } } 1
  have hsec : (State.setLc { w with sec := { w.sec with session := none } } 1).sec = { w.sec with session := none } := by rw [hframe']
  have hmem' : (State.setLc { w with sec := { w.sec with session := none } } 1).mem = w.mem := by rw [hframe']
  have htally' : (State.setLc { w with sec := { w.sec with session := none } } 1).tally = w.tally := by rw [hframe']
  generalize State.setLc { w with sec := { w.sec with session := none } } 1 = z at *
  refine ⟨congrArg Security.session hsec, hlc, (hkeep3 _ 0 (by unfold Field.apart; decide)).trans ((hkeep2 _ 0 (by decide) (by decide)).trans hlevel),
    (hkeep3 _ 0 (by unfold Field.apart; decide)).trans hgranted, hmem'.trans (hvmem.trans hmem), ?_, h3, fun f i hlo hm hr =>
    (hkeep3 f i ⟨hlo, hm, .inl hr⟩).trans ((hkeep2 f i hlo (.inl hr)).trans (hkeep1 f i ⟨hlo, hm, .inl hr⟩))⟩
  show z.sec.changes ++ [(recDebugSession, [0, x.granted, x.idHash], z.tally)] = _
  rw [hsec, htally', hvsec, hvtally, htally, hchanges]

/-- What the end of any session leaves. -/
theorem State.endSession_ends (hcan : s.canonical = true) {x : Session} (h : s.sec.session = some x) : s.endSession.fld Fld.secStatLc 0 = 1 := by
  have hs : s.Sound False := State.sound_iff.2 ⟨hcan, False.elim⟩
  rw [State.endSession_eq h]
  obtain ⟨-, hlc, -⟩ := State.sessionClosed_spec (State.Sound.ite (c := x.heldHigh = true) hs.debugErase hs).regs x
  exact hlc

theorem State.endSession_session (h : s.sec.session = some x) : s.endSession.sec.session = none := by
  rw [State.endSession_eq h]
  generalize (if x.heldHigh = true then s.debugErase else s) = v
  unfold State.sessionClosed
  obtain ⟨r, hframe⟩ := State.setLc_frame
    { (v.setLevel 0).setFld Fld.secStatGranted 0 0 with sec := { ((v.setLevel 0).setFld Fld.secStatGranted 0 0).sec with session := none } } 1
  rw [hframe]
  rfl

end

/-! ## Accepted tokens (R453, R456, R458) -/

/-- The count of an accepted token, before its effect. -/
theorem State.accepted_counted {s : State} (hs : Tab.sorted s.regs = true) : Tab.sorted (s.bump Fld.dbgStatAccepted 0 1).regs = true ∧
    (s.bump Fld.dbgStatAccepted 0 1).fld Fld.dbgStatAccepted 0 = s.counted Fld.dbgStatAccepted 0 1 ∧
    ∀ (f : Field) (i : Nat), f.lo < 1024 → f.reg ≠ .dbgStat → (s.bump Fld.dbgStatAccepted 0 1).fld f i = s.fld f i := by
  have hwrites : s.writesOnly (· ∈ [Reg.dbgStat]) (s.bump Fld.dbgStatAccepted 0 1) := .bump _ _ _ (by decide)
  exact ⟨(hwrites hs).1, State.fld_bump_self hs _ _ _, fun f i hlo hf => hwrites.fld hs ⟨by simpa using hf, hlo⟩ i⟩

theorem tokenForm_level {t : Token} {action : Nat} (h : tokenForm t action = true) : t.level < 4 := by
  simp only [tokenForm, Bool.and_eq_true] at h
  obtain ⟨-, hfields⟩ := h
  split at hfields
  · simp only [Bool.and_eq_true, decide_eq_true_eq] at hfields
    omega
  · simp only [Bool.and_eq_true, beq_iff_eq] at hfields
    omega

section
variable {s : State} {t : Token} (hcan : s.canonical = true) (hawake : s.awake = true)
include hcan hawake

/-- A debug token that is accepted opens a session at L0, which ends at once in P3. -/
theorem tokenDebug_opens (h : s.tokenCause t 1 = 0) : ∃ o : State,
    exec (.tokenDebug t) s = .next (if s.fld Fld.pwrStatState 0 = 3 then o.endSession.newChallenge else o.newChallenge) ∧ Tab.sorted o.regs = true ∧
    o.fld Fld.secStatLc 0 = 2 ∧ o.level = 0 ∧ o.fld Fld.secStatGranted 0 = t.level ∧
    o.sec.session = some ⟨t.level, t.idHash, s.tally, t.duration, false⟩ ∧
    o.sec.changes = s.sec.changes ++ [(recDebugSession, [1, t.level, t.idHash], s.tally)] ∧ o.mem = s.mem ∧ o.tally = s.tally ∧
    o.fld Fld.dbgStatAccepted 0 = s.counted Fld.dbgStatAccepted 0 1 := by
  obtain ⟨hform, -⟩ := (State.tokenCause_zero_iff (.inl rfl)).1 h
  obtain ⟨hb, hcount, hkeep⟩ := State.accepted_counted (State.canonical.regs hcan)
  obtain ⟨r, hframe⟩ := s.bump_frame Fld.dbgStatAccepted 0 1
  have htally : (s.bump Fld.dbgStatAccepted 0 1).tally = s.tally := by rw [hframe]
  have hsec : (s.bump Fld.dbgStatAccepted 0 1).sec = s.sec := by rw [hframe]
  have hmem : (s.bump Fld.dbgStatAccepted 0 1).mem = s.mem := by rw [hframe]
  have hexec : exec (.tokenDebug t) s = .next (s.present t 1 fun s => if (s.openSession t).fld Fld.pwrStatState 0 = 3 then (s.openSession t).endSession
    else s.openSession t) := whenever_pos hawake
  rw [State.present_accepted h] at hexec
  generalize s.bump Fld.dbgStatAccepted 0 1 = b at *
  obtain ⟨ho, hlc, hlevel, hgranted, hsession, hchanges, homem, hotally, hother⟩ := State.openSession_spec hb (tokenForm_level hform)
  have hpower : (b.openSession t).fld Fld.pwrStatState 0 = s.fld Fld.pwrStatState 0 :=
    (hother _ 0 (by decide) (by decide) (by decide)).trans (hkeep _ 0 (by decide) (by decide))
  refine ⟨b.openSession t, hexec.trans ?_, ho, hlc, hlevel, hgranted, by rw [hsession, htally], by rw [hchanges, hsec, htally], homem.trans hmem,
    hotally.trans htally, (hother _ 0 (by decide) (by decide) (by decide)).trans hcount⟩
  rw [hpower]
  split <;> rfl

theorem tokenDebug_accepted (h : s.tokenCause t 1 = 0) (hp3 : s.fld Fld.pwrStatState 0 ≠ 3) : ∃ u, exec (.tokenDebug t) s = .next u ∧
    u.fld Fld.secStatLc 0 = 2 ∧ u.sec.session = some ⟨t.level, t.idHash, s.tally, t.duration, false⟩ ∧ u.fld Fld.secStatGranted 0 = t.level ∧ u.level = 0 ∧
    u.fld Fld.dbgStatAccepted 0 = s.counted Fld.dbgStatAccepted 0 1 ∧
    u.sec.changes = s.sec.changes ++ [(recDebugSession, [1, t.level, t.idHash], s.tally)] ∧ u.mem = s.mem := by
  obtain ⟨o, hexec, ho, hlc, hlevel, hgranted, hsession, hchanges, hmem, -, hcount⟩ := tokenDebug_opens hcan hawake h
  rw [if_neg hp3] at hexec
  exact ⟨_, hexec, (State.newChallenge_fld ho (by decide) 0).trans hlc, hsession, (State.newChallenge_fld ho (by decide) 0).trans hgranted,
    (State.newChallenge_fld ho (by decide) 0).trans hlevel, (State.newChallenge_fld ho (by decide) 0).trans hcount, hchanges, hmem⟩

theorem tokenDebug_accepted_p3 (h : s.tokenCause t 1 = 0) (hp3 : s.fld Fld.pwrStatState 0 = 3) : ∃ u, exec (.tokenDebug t) s = .next u ∧
    u.fld Fld.secStatLc 0 = 1 ∧ u.sec.session = none ∧ u.fld Fld.secStatGranted 0 = 0 ∧ u.level = 0 ∧
    u.fld Fld.dbgStatAccepted 0 = s.counted Fld.dbgStatAccepted 0 1 ∧
    u.sec.changes = s.sec.changes ++ [(recDebugSession, [1, t.level, t.idHash], s.tally), (recDebugSession, [0, t.level, t.idHash], s.tally)] := by
  obtain ⟨o, hexec, ho, -, -, -, hsession, hchanges, -, htally, hcount⟩ := tokenDebug_opens hcan hawake h
  obtain ⟨hnone, hlc, hlevel, hgranted, -, hchanges', hsorted, hother⟩ := State.sessionClosed_spec ho ⟨t.level, t.idHash, s.tally, t.duration, false⟩
  rw [if_pos hp3, State.endSession_eq hsession, if_neg Bool.false_ne_true] at hexec
  refine ⟨_, hexec, (State.newChallenge_fld hsorted (by decide) 0).trans hlc, hnone, (State.newChallenge_fld hsorted (by decide) 0).trans hgranted,
    (State.newChallenge_fld hsorted (by decide) 0).trans hlevel,
    (State.newChallenge_fld hsorted (by decide) 0).trans ((hother _ 0 (by decide) (by decide) (by decide)).trans hcount), hchanges'.trans ?_⟩
  rw [hchanges, htally, List.append_assoc]
  rfl

/-- A return token that is accepted erases and retires the device. -/
theorem tokenReturn_accepted (h : s.tokenCause t 2 = 0) : ∃ u, exec (.tokenReturn t) s = .next u ∧ u.sec.identityKeys = false ∧ u.sec.identityArea = false ∧
    u.sec.otpReturned = true ∧ u.fld Fld.secStatLc 0 = 3 := by
  have hs : s.Sound False := State.sound_iff.2 ⟨hcan, False.elim⟩
  have hexec : exec (.tokenReturn t) s = .next (s.present t 2 fun s => State.setLc { s.returnErase with sec := { s.returnErase.sec with otpReturned := true } } 3) :=
    whenever_pos hawake
  rw [State.present_accepted h] at hexec
  have herased := (hs.bump (f := Fld.dbgStatAccepted) (i := 0) (n := 1)).returnErase
  have hkeys : ((s.bump Fld.dbgStatAccepted 0 1).returnErase).sec.identityArea = false ∧
      ((s.bump Fld.dbgStatAccepted 0 1).returnErase).sec.identityKeys = false := by
    unfold State.returnErase
    exact ⟨rfl, rfl⟩
  dsimp only at hexec
  generalize (s.bump Fld.dbgStatAccepted 0 1).returnErase = v at *
  obtain ⟨hl, hlc, -⟩ := State.setLc_fields (s := { v with sec := { v.sec with otpReturned := true } }) herased.regs (lc := 3) (by decide)
  obtain ⟨r, hframe⟩ := State.setLc_frame { v with sec := { v.sec with otpReturned := true } } 3
  have hsec : (State.setLc { v with sec := { v.sec with otpReturned := true } } 3).sec = { v.sec with otpReturned := true } := by rw [hframe]
  generalize State.setLc { v with sec := { v.sec with otpReturned := true } } 3 = w at *
  have hsec' : w.newChallenge.sec = { v.sec with otpReturned := true } := hsec
  refine ⟨_, hexec, ?_, by rw [hsec']; exact hkeys.1, by rw [hsec'], (State.newChallenge_fld hl (by decide) 0).trans hlc⟩
  rw [hsec']
  exact hkeys.2

/-- A lock token that is accepted locks the device at L0. -/
theorem tokenLock_accepted (h : s.tokenCause t 3 = 0) : ∃ u, exec (.tokenLock t) s = .next u ∧ u.sec.otpField = true ∧ u.fld Fld.secStatLc 0 = 1 ∧
    u.level = 0 ∧ u.sec.session = s.sec.session := by
  have hexec : exec (.tokenLock t) s = .next (s.present t 3 fun s => (State.setLc { s with sec := { s.sec with otpField := true } } 1).setLevel 0) :=
    whenever_pos hawake
  rw [State.present_accepted h] at hexec
  obtain ⟨hb, -, -⟩ := State.accepted_counted (State.canonical.regs hcan)
  obtain ⟨r, hframe⟩ := s.bump_frame Fld.dbgStatAccepted 0 1
  have hsec : (s.bump Fld.dbgStatAccepted 0 1).sec = s.sec := by rw [hframe]
  dsimp only at hexec
  generalize s.bump Fld.dbgStatAccepted 0 1 = b at *
  obtain ⟨hl, hlc, -⟩ := State.setLc_fields (s := { b with sec := { b.sec with otpField := true } }) hb (lc := 1) (by decide)
  obtain ⟨r1, hframe1⟩ := State.setLc_frame { b with sec := { b.sec with otpField := true } } 1
  have hsec1 : (State.setLc { b with sec := { b.sec with otpField := true } } 1).sec = { s.sec with otpField := true } := by rw [hframe1, ← hsec]
  generalize State.setLc { b with sec := { b.sec with otpField := true } } 1 = v at *
  obtain ⟨hv, hlevel, hkeep⟩ := State.setLevel_fields hl (l := 0) (by decide)
  obtain ⟨r2, t2, a2, m2, hframe2⟩ := v.setLevel_frame 0
  have hsec2 : (v.setLevel 0).sec = { s.sec with otpField := true, aboveL0 := a2, mgcHalted := m2 } := by rw [hframe2, hsec1]
  generalize v.setLevel 0 = w at *
  have hsec3 : w.newChallenge.sec = { s.sec with otpField := true, aboveL0 := a2, mgcHalted := m2 } := hsec2
  exact ⟨_, hexec, by rw [hsec3], (State.newChallenge_fld hv (by decide) 0).trans ((hkeep _ 0 (by unfold Field.apart; decide)).trans hlc),
    (State.newChallenge_fld hv (by decide) 0).trans hlevel, by rw [hsec3]⟩

end

/-! ## Level requests (R457, R459) -/

section
variable {s : State} {l : Nat} (hl : l < 4) (hawake : s.awake = true)
include hl hawake

theorem debugLevelRaise_eq (hup : s.level < l) : exec (.debugLevelRaise l) s =
    if s.mayEnter l = false then .next (s.refuseDebug 9)
    else if s.fld Fld.secStatLc 0 = 2 ∧ 2 ≤ l then onAccess (.debugLevelRaise l) s (fun s => s.enterLevel l) else .next (s.setLevel l) := by
  refine (onUnit_ok (decide_eq_true hl)).trans ?_
  simp only [hawake, hup, decide_true, Bool.and_self, Bool.not_true, Bool.false_eq_true, if_false, Bool.not_eq_true', Bool.and_eq_true, decide_eq_true_eq]
  refine if_congr Iff.rfl rfl (if_ctx_congr Iff.rfl (fun _ => rfl) fun h => ?_)
  rw [State.enterLevel, if_neg (by simpa using h)]

theorem debugLevelLower_eq (hdown : l < s.level) : exec (.debugLevelLower l) s =
    .next (if s.fld Fld.secStatLc 0 = 2 then (if l = 0 then s.endSession else s.refuseDebug 9) else s.setLevel l) := by
  refine (onUnit_ok (decide_eq_true hl)).trans ?_
  simp only [hawake, hdown, decide_true, Bool.and_self, Bool.not_true, Bool.false_eq_true, if_false]
  split <;> rfl

end

/-- The level that is entered is the level in force. -/
theorem State.enterLevel_level {s : State} (hcan : s.canonical = true) {l : Nat} (hl : l < 4) : (s.enterLevel l).level = l := by
  have hs : s.Sound False := State.sound_iff.2 ⟨hcan, False.elim⟩
  have herase := hs.debugErase
  unfold State.enterLevel
  generalize s.debugErase = v at herase ⊢
  split
  · exact (State.setLevel_fields (s := { v with sec := { v.sec with session := v.sec.session.map (fun (x : Session) => { x with heldHigh := true }) } })
      herase.regs hl).2.1
  · exact (State.setLevel_fields hs.regs hl).2.1

end Sys2Proof.Machine
end

section
/-! SUPPORT. What the debug probe reaches at each level, and the settling of O59. -/

namespace Sys2Proof.Machine

/-! ## Grants (R454, R459) -/

section
variable {c : Instr} {l : Nat} {need : DebugNeed} {s : State} {k : State → State} (hawake : s.awake = true)
include hawake

/-- In P3 an access that it does not serve is refused. -/
theorem grant_off (hp3 : s.fld Fld.pwrStatState 0 = 3) : grant c l need false s k = .next s.debugTap.refuseLoupe := by
  have h3 : (s.fld Fld.pwrStatState 0 == 3) = true := beq_iff_eq.2 hp3
  simp [grant, hawake, h3]

/-- In P3 the L-die is served where the grant says so. -/
theorem grant_ldie (hl : l ≤ s.level) : grant c l .ldie true s k = .next (k s.debugTap) := by
  have hlevel : ¬ s.debugTap.level < l := Nat.not_lt.2 hl
  simp [grant, hawake, hlevel, DebugNeed.wakes]

/-- In P1 and P2 an access that needs the wake waits for it. -/
theorem grant_waits (hl : l ≤ s.level) (hst : s.fld Fld.pwrStatState 0 = 1 ∨ s.fld Fld.pwrStatState 0 = 2) :
    grant c l .step false s k = .next { s.debugTap.startWake with waiting := s.waiting ++ [c] } := by
  have hlevel : ¬ s.debugTap.level < l := Nat.not_lt.2 hl
  have h3 : (s.fld Fld.pwrStatState 0 == 3) = false := by rcases hst with h | h <;> rw [h] <;> rfl
  have hwake : DebugNeed.step.wakes (s.fld Fld.pwrStatState 0) = true := by rcases hst with h | h <;> rw [h] <;> rfl
  have hawait : s.debugTap.await c = { s.debugTap.startWake with waiting := s.waiting ++ [c] } := if_pos hst
  simp only [grant, hawake, hlevel, h3, hwake, hawait, Bool.not_true, Bool.false_eq_true, if_false, decide_false, Bool.false_and, Bool.or_self, if_true]

end

/-! ## The commands of the probe -/

section
variable {s : State} {x : HaltTarget} {acc : LoupeAccess} {v : State}

theorem debugSingleStep_accepts (hwf : x.wf = true) (h : debugStep x s = .next v) : exec (.debugSingleStep x) s = .next (s.accepted v) := by
  refine (onUnit_ok hwf).trans ?_
  rw [h]
  rfl

theorem loupeDebugAccess_accepts (hwf : acc.wf = true) (h : loupeAccess acc s = .next v) : exec (.loupeDebugAccess acc) s = .next (s.accepted v) := by
  refine (onUnit_ok hwf).trans ?_
  rw [h]
  rfl

/-- What makes no request of device memory is accepted as it is. -/
theorem loupeDebugAccess_chans (hwf : acc.wf = true) (h : loupeAccess acc s = .next v) (hchans : v.chans = s.chans) :
    exec (.loupeDebugAccess acc) s = .next v := by
  rw [loupeDebugAccess_accepts hwf h, State.accepted_of_chans hchans]

theorem debugSingleStep_chans (hwf : x.wf = true) (h : debugStep x s = .next v) (hchans : v.chans = s.chans) : exec (.debugSingleStep x) s = .next v := by
  rw [debugSingleStep_accepts hwf h, State.accepted_of_chans hchans]

variable (hawake : s.awake = true)
include hawake

theorem debugHalt_refused (hwf : x.wf = true) (hl : s.level < 2) : exec (.debugHalt x) s = .next s.debugTap.refuseLoupe := by
  refine (onUnit_ok hwf).trans ?_
  unfold holdTarget
  cases x <;> exact grant_refused hawake hl

theorem debugResume_refused (hwf : x.wf = true) (hl : s.level < 2) : exec (.debugResume x) s = .next s.debugTap.refuseLoupe := by
  refine (onUnit_ok hwf).trans ?_
  unfold holdTarget
  cases x <;> exact grant_refused hawake hl

theorem debugSingleStep_refused (hwf : x.wf = true) (hl : s.level < 2) : exec (.debugSingleStep x) s = .next s.debugTap.refuseLoupe := by
  refine debugSingleStep_chans hwf ?_ rfl
  unfold debugStep
  cases x <;> exact grant_refused hawake hl

/-- The level that an access needs. -/
def LoupeAccess_level : LoupeAccess → Nat
  | .readSecStat | .readChallenge _ | .writeRegister _ _ _ => 0
  | .readRegister _ _ _ | .readTrace _ => 1
  | .scan _ => 3
  | _ => 2

/-- Below its level an access to the debug data registers is refused. -/
theorem loupeAccess_refused (hl : s.level < LoupeAccess_level acc) : loupeAccess acc s = .next s.debugTap.refuseLoupe := by
  unfold loupeAccess
  cases acc with
  | scan chain =>
    dsimp only
    split <;> exact grant_refused hawake hl
  | readSecStat => exact absurd hl (Nat.not_lt_zero _)
  | readChallenge => exact absurd hl (Nat.not_lt_zero _)
  | writeRegister => exact absurd hl (Nat.not_lt_zero _)
  | _ => exact grant_refused hawake hl

theorem loupeDebugAccess_refused (hwf : acc.wf = true) (hl : s.level < LoupeAccess_level acc) :
    exec (.loupeDebugAccess acc) s = .next s.debugTap.refuseLoupe := loupeDebugAccess_chans hwf (loupeAccess_refused hawake hl) rfl

end

/-! ## A tile held by the probe -/

section
variable {s : State} {t p : Nat} (hp : s.physOf t = some p)
include hp

theorem State.onServing_eq (f : Tile → Tile) : s.onServing t f = s.setTile p (f (s.tile p)) := by
  unfold State.onServing
  rw [hp]

theorem State.tileAt_eq : s.tileAt t = s.tile p := by
  unfold State.tileAt
  rw [hp]

/-- The next instruction issues by its own command. -/
theorem State.issueNext_eq {i : Insn} (hi : (s.tile p).next = some i) : s.issueNext t =
    match issueOf i.opc.toNat t (coreIssues t ++ vectorIssues t ++ unitIssues t) with
    | some k => s.via (k s)
    | none => s := by
  simp only [State.issueNext, State.tileAt_eq hp, hi] <;> rfl

theorem State.singleStep_held (h : (s.tile p).halted = true) : s.singleStep t =
    ((s.setTile p { s.tile p with halted := false }).issueNext t).onServing t (fun tl => { tl with halted := true }) := by
  unfold State.singleStep
  rw [State.tileAt_eq hp, if_pos h, State.onServing_eq hp]

theorem State.singleStep_running (h : (s.tile p).halted = false) : s.singleStep t = s := by
  unfold State.singleStep
  rw [State.tileAt_eq hp, if_neg (by simp [h])]

end

end Sys2Proof.Machine
end

section
/-! SUPPORT. The settling of O59. -/

namespace Sys2Proof.Machine

/-! ## Refused tokens and level requests -/

section
variable {s : State}

theorem exec_token_refused {c : Instr} {t : Token} {action : Nat} {accept : State → State} (hexec : exec c s = whenever s.awake s (s.present t action accept))
    (h : s.tokenCause t action ≠ 0) : exec c s = if s.awake = true then .next (s.refuseDebug (s.tokenCause t action)).newChallenge else .next s := by
  rw [State.present_refused h] at hexec
  refine hexec.trans ?_
  cases ha : s.awake
  · exact whenever_neg rfl
  · exact whenever_pos rfl

theorem debugLevelRaise_unmayed {l : Nat} (hl : l < 4) (hawake : s.awake = true) (hup : s.level < l) (hno : s.mayEnter l = false) :
    exec (.debugLevelRaise l) s = .next (s.refuseDebug 9) := by
  rw [debugLevelRaise_eq hl hawake hup, if_pos hno]

/-- A level that needs no erase is put in force. -/
theorem debugLevelRaise_unerased {l : Nat} (hl : l < 4) (hawake : s.awake = true) (hup : s.level < l) (hmay : s.mayEnter l = true)
    (hno : s.fld Fld.secStatLc 0 ≠ 2 ∨ l < 2) (hcan : s.canonical = true) :
    ∃ u, exec (.debugLevelRaise l) s = .next u ∧ u.level = l ∧ u.sec.aboveL0 = true ∧ u.mem = s.mem := by
  have hexec : exec (.debugLevelRaise l) s = .next (s.setLevel l) := by
    rw [debugLevelRaise_eq hl hawake hup, if_neg (by simp [hmay]), if_neg (by omega)]
  obtain ⟨r, t, a, m, hframe⟩ := s.setLevel_frame l
  exact ⟨_, hexec, (State.setLevel_fields (State.canonical.regs hcan) hl).2.1, State.setLevel_aboveL0 hup, by rw [hframe]⟩

/-- A level that needs the erase is an access. -/
theorem debugLevelRaise_erased {l : Nat} (hl : l < 4) (hawake : s.awake = true) (hup : s.level < l) (hmay : s.mayEnter l = true)
    (hlc : s.fld Fld.secStatLc 0 = 2) (h2 : 2 ≤ l) : exec (.debugLevelRaise l) s = onAccess (.debugLevelRaise l) s (fun s => s.enterLevel l) := by
  rw [debugLevelRaise_eq hl hawake hup, if_neg (by simp [hmay]), if_pos ⟨hlc, h2⟩]

/-- An access that comes in P1 or P2 waits for its wake. -/
theorem onAccess_awaits {c : Instr} {k : State → State} (hst : s.fld Fld.pwrStatState 0 = 1 ∨ s.fld Fld.pwrStatState 0 = 2) :
    onAccess c s k = .next { s.startWake with waiting := s.waiting ++ [c] } := by
  have hp0 : s.inP0 = false := by
    unfold State.inP0
    rcases hst with h | h <;> rw [h] <;> rfl
  rw [onAccess_asleep hp0, State.await, if_pos hst]

theorem debugLevelLower_unsessioned {l : Nat} (hl : l < 4) (hawake : s.awake = true) (hdown : l < s.level) (hlc : s.fld Fld.secStatLc 0 ≠ 2)
    (hcan : s.canonical = true) : ∃ u, exec (.debugLevelLower l) s = .next u ∧ u.level = l ∧ u.mem = s.mem ∧ (l < 2 → u.sec.mgcHalted = false) := by
  have hexec := debugLevelLower_eq hl hawake hdown
  rw [if_neg hlc] at hexec
  obtain ⟨r, t, a, m, hframe⟩ := s.setLevel_frame l
  exact ⟨_, hexec, (State.setLevel_fields (State.canonical.regs hcan) hl).2.1, by rw [hframe], State.setLevel_mgcHalted hdown⟩

/-- The end of a session at its time, and what it leaves. -/
theorem debugSessionExpiry_ends {x : Session} (hx : s.sec.session = some x) :
    exec .debugSessionExpiry s = .next (if x.since + x.duration ≤ s.tally then s.endSession else s) := by
  show execDebugSessionExpiry s = _
  unfold execDebugSessionExpiry
  rw [hx]
  dsimp only
  by_cases h : x.since + x.duration ≤ s.tally
  · rw [if_pos h, whenever_pos (decide_eq_true h)]
  · rw [if_neg h, whenever_neg (decide_eq_false h)]

end

/-! ## Halts, steps and resumes that are served -/

section
variable {s : State} {t p : Nat} (hawake : s.awake = true) (hp0 : s.inP0 = true) (hl : 2 ≤ s.level) (ht : t < 256) (hp : s.physOf t = some p)
include hawake hp0 hl ht hp

omit ht in
theorem debugHold_tile (b : Bool) (c : Instr) : holdTarget c (.tile t) b s = .next (s.debugTap.setTile p { s.tile p with halted := b }).serveLoupe := by
  have honServing := State.onServing_eq (s := s.debugTap) (t := t) hp fun tl => { tl with halted := b }
  have hserved := grant_served (c := c) (need := .cdie) (p3 := false) (k := fun s => (s.onServing t (fun tl => { tl with halted := b })).serveLoupe) hawake hl hp0
  rw [honServing] at hserved
  exact hserved

theorem debugHalt_tile : ∃ u, exec (.debugHalt (.tile t)) s = .next u ∧ (u.tile p) = { s.tile p with halted := true } ∧ u.tileLive t p = false ∧
    u.regs = s.regs ∧ u.outs.loupeRefused = false := by
  have htile : ((s.debugTap.setTile p { s.tile p with halted := true }).serveLoupe).tile p = { s.tile p with halted := true } :=
    Tab.get_set_ne fun h => Bool.noConfusion (congrArg Tile.halted h : true = false)
  refine ⟨_, (onUnit_ok (decide_eq_true ht)).trans (debugHold_tile hawake hp0 hl hp true _), htile, ?_, rfl, rfl⟩
  unfold State.tileLive
  rw [htile]
  rfl

theorem debugResume_tile : ∃ u, exec (.debugResume (.tile t)) s = .next u ∧ u.regs = s.regs ∧ u.outs.loupeRefused = false ∧
    (Tab.sorted s.tiles = true → (u.tile p) = { s.tile p with halted := false } ∧ ∀ k, k ≠ p → u.tile k = s.tile k) :=
  ⟨_, (onUnit_ok (decide_eq_true ht)).trans (debugHold_tile hawake hp0 hl hp false _), rfl, rfl, fun hs =>
    ⟨State.tile_setTile_self (s := s.debugTap) hs p _, fun _ hk => State.tile_setTile_other (s := s.debugTap) hs hk _⟩⟩

omit ht hp in
theorem debugStep_tile : debugStep (.tile t) s = .next (s.debugTap.singleStep t).serveLoupe :=
  grant_served (k := fun s => (s.singleStep t).serveLoupe) hawake hl hp0

/-- A tile that runs is not stepped. -/
theorem debugSingleStep_running (h : (s.tile p).halted = false) : exec (.debugSingleStep (.tile t)) s = .next s.debugTap.serveLoupe := by
  have hstep := debugStep_tile (t := t) hawake hp0 hl
  rw [State.singleStep_running (s := s.debugTap) hp h] at hstep
  exact debugSingleStep_chans (decide_eq_true ht) hstep rfl

/-- A halted tile is let go for one issue. -/
theorem debugSingleStep_held (h : (s.tile p).halted = true) : exec (.debugSingleStep (.tile t)) s = .next (s.accepted
    ((((s.debugTap.setTile p { s.tile p with halted := false }).issueNext t).onServing t (fun tl => { tl with halted := true })).serveLoupe)) := by
  have hstep := debugStep_tile (t := t) hawake hp0 hl
  rw [State.singleStep_held (s := s.debugTap) hp h] at hstep
  exact debugSingleStep_accepts (decide_eq_true ht) hstep

end

/-! ## Accesses -/

theorem debugHalt_mgc_eq (s : State) : exec (.debugHalt .mgc) s = grant (.debugHalt .mgc) 2 .ldie true s (fun s => (s.holdMgc true).serveLoupe) := rfl

theorem debugResume_mgc_eq (s : State) : exec (.debugResume .mgc) s = grant (.debugResume .mgc) 2 .ldie false s (fun s => (s.holdMgc false).serveLoupe) := rfl

theorem loupeAccess_readMem (a : Nat) (s : State) :
    loupeAccess (.readMem a) s = grant (.loupeDebugAccess (.readMem a)) 2 .step false s (fun s => s.loupeMem a) := rfl

theorem debugStep_tile_eq (t : Nat) (s : State) :
    debugStep (.tile t) s = grant (.debugSingleStep (.tile t)) 2 .step false s (fun s => (s.singleStep t).serveLoupe) := rfl

section
variable {s : State} (hawake : s.awake = true)
include hawake

theorem debugHalt_mgc (hp0 : s.inP0 = true) (hl : 2 ≤ s.level) : ∃ u, exec (.debugHalt .mgc) s = .next u ∧ u.sec = { s.sec with mgcHalted := true } ∧
    u.mgcServes = false :=
  ⟨_, (debugHalt_mgc_eq s).trans (grant_served hawake hl hp0), rfl,
    Bool.and_false _⟩

theorem debugSingleStep_mgc (hp0 : s.inP0 = true) (hl : 2 ≤ s.level) : exec (.debugSingleStep .mgc) s = .next s.debugTap.serveLoupe :=
  debugSingleStep_chans rfl (grant_served (k := fun s => s.serveLoupe) hawake hl hp0) rfl

theorem readMem_served (hp0 : s.inP0 = true) (hl : 2 ≤ s.level) (a : Nat) :
    exec (.loupeDebugAccess (.readMem a)) s = .next (s.accepted (s.debugTap.loupeMem a)) :=
  loupeDebugAccess_accepts rfl (grant_served (k := fun s => s.loupeMem a) hawake hl hp0)

/-- A byte of the scratchpad of the serving tile. -/
theorem readSpad_served (hp0 : s.inP0 = true) (hl : 2 ≤ s.level) {t p a : Nat} (ht : t < 256) (hp : s.physOf t = some p) (ha : a < 4194304) : ∃ u,
    exec (.loupeDebugAccess (.readSpad t a)) s = .next u ∧ u.outs.loupe = (Mem.read (s.tile p).spad a).setWidth 64 ∧ u.outs.loupeRefused = false ∧
    u.tiles = s.tiles ∧ u.regs = s.regs := by
  refine ⟨_, loupeDebugAccess_chans (acc := .readSpad t a) (decide_eq_true ht) (grant_served
    (k := fun s => s.giveLoupe (if a < 4194304 then (Mem.read (s.tileAt t).spad a).setWidth 64 else 0)) hawake hl hp0) rfl, ?_, rfl, rfl, rfl⟩
  show (if a < 4194304 then (Mem.read (s.debugTap.tileAt t).spad a).setWidth 64 else 0) = _
  rw [if_pos ha, State.tileAt_eq (s := s.debugTap) hp]
  rfl

/-- A word of the state of the serving tile. -/
theorem writeTileState_served (hp0 : s.inP0 = true) (hl : 2 ≤ s.level) {t p : Nat} (ht : t < 256) (hp : s.physOf t = some p) (w k : Nat) (v : Word64) : ∃ u,
    exec (.loupeDebugAccess (.writeTileState t w k v)) s = .next u ∧ (Tab.sorted s.tiles = true → u.tile p = (s.tile p).debugPoke w k v) ∧ u.regs = s.regs := by
  have hserved := grant_served (c := .loupeDebugAccess (.writeTileState t w k v)) (need := .cdie) (p3 := false)
    (k := fun s => (s.onServing t (fun tl => tl.debugPoke w k v)).serveLoupe) hawake hl hp0
  have honServing := State.onServing_eq (s := s.debugTap) (t := t) hp fun tl => tl.debugPoke w k v
  rw [honServing] at hserved
  exact ⟨_, loupeDebugAccess_chans (acc := .writeTileState t w k v) (decide_eq_true ht) hserved rfl,
    fun hs => State.tile_setTile_self (s := s.debugTap) hs p _, rfl⟩

theorem readChallenge_served {w : Nat} (hw : w < 4) : ∃ u, exec (.loupeDebugAccess (.readChallenge w)) s = .next u ∧
    u.outs.loupe = BitVec.ofNat 64 (s.fld Fld.dbgChallengeValue 0 / 2 ^ (64 * w)) ∧ u.outs.loupeRefused = false ∧ u.regs = s.regs :=
  ⟨_, loupeDebugAccess_chans (acc := .readChallenge w) (decide_eq_true hw) (grant_ldie
    (k := fun s => s.giveLoupe (BitVec.ofNat 64 (s.fld Fld.dbgChallengeValue 0 / 2 ^ (64 * w)))) hawake (Nat.zero_le _)) rfl, rfl, rfl, rfl⟩

theorem readRegister_served (hp0 : s.inP0 = true) (hl : 1 ≤ s.level) (o n : Nat) : ∃ u, exec (.loupeDebugAccess (.readRegister 0 o n)) s = .next u ∧
    u.outs.loupe = BitVec.ofNat 64 (s.debugTap.readThrough s.debugTap.locate o n) ∧ u.outs.loupeRefused = false ∧ u.regs = s.regs :=
  ⟨_, loupeDebugAccess_chans (acc := .readRegister 0 o n) rfl (grant_served
    (k := fun s => s.giveLoupe (BitVec.ofNat 64 (s.readThrough s.locate o n))) hawake hl hp0) rfl, rfl, rfl, rfl⟩

/-! ## P3, P1 and P2 (R459) -/

theorem debugHalt_mgc_p3 (hl : 2 ≤ s.level) : exec (.debugHalt .mgc) s = .next (s.debugTap.holdMgc true).serveLoupe :=
  (debugHalt_mgc_eq s).trans (grant_ldie hawake hl)

theorem debugSingleStep_p3 {x : HaltTarget} (hwf : x.wf = true) (hp3 : s.fld Fld.pwrStatState 0 = 3) :
    exec (.debugSingleStep x) s = .next s.debugTap.refuseLoupe := by
  refine debugSingleStep_chans hwf ?_ rfl
  unfold debugStep
  cases x <;> exact grant_off hawake hp3

end

/-- What waits for a wake asks device memory for nothing yet. -/
theorem awaits_chans (s : State) (c : Instr) : (({ s.debugTap.startWake with waiting := s.waiting ++ [c] } : State)).chans = s.chans :=
  State.startWake_chans s.debugTap

/-- A step issues the next instruction by its own command. -/
theorem issueNext_is_exec {s : State} {t p : Nat} (hp : s.physOf t = some p) {i : Insn} (hi : (s.tile p).next = some i) {c : Instr} {w : State}
    (hc : issueOf i.opc.toNat t (coreIssues t ++ vectorIssues t ++ unitIssues t) = some (exec c)) (h : exec c s = .next w) : s.issueNext t = w := by
  rw [State.issueNext_eq hp hi, hc]
  dsimp only
  rw [h]
  rfl

/-- Settles O59: each token, level, session and access by the lemma that says what its checks let through. -/
theorem tokensLevelsAndDebugAccessesAreGated : Obligations.TokensLevelsAndDebugAccessesAreGated := by
  unfold Obligations.TokensLevelsAndDebugAccessesAreGated
  refine ⟨fun s t action hcan hcause => ?_, fun s t action ha => State.tokenCause_zero_iff ha, fun s t hcan hawake =>
    ⟨tokenDebug_accepted hcan hawake, tokenDebug_accepted_p3 hcan hawake, tokenReturn_accepted hcan hawake, tokenLock_accepted hcan hawake⟩,
    fun s l hl hawake => ⟨debugLevelRaise_unmayed hl hawake, debugLevelRaise_unerased hl hawake, fun hup hmay hlc h2 hp0 => ⟨?_, fun hcan => ?_⟩,
      fun hup hmay hlc h2 hst => ?_, fun hdown hlc => ?_, debugLevelLower_unsessioned hl hawake⟩,
    fun s x hx => ⟨debugSessionExpiry_ends hx, State.endSession_session hx, fun hcan => State.endSession_ends hcan hx, fun hheld hcan => ?_⟩,
    fun s c x acc hawake hx hacc hgated => ?_, fun s t p hawake hp0 hl ht hp => ⟨debugHalt_tile hawake hp0 hl ht hp, debugResume_tile hawake hp0 hl ht hp,
      debugSingleStep_running hawake hp0 hl ht hp, fun hheld => ⟨_, _, debugSingleStep_held hawake hp0 hl ht hp hheld, rfl, rfl⟩, fun i w hi => ?_,
      debugSingleStep_mgc hawake hp0 hl, readMem_served hawake hp0 hl, debugHalt_mgc hawake hp0 hl, fun a => readSpad_served hawake hp0 hl ht hp,
      writeTileState_served hawake hp0 hl ht hp⟩,
    fun s w o n hawake hw => ⟨readChallenge_served hawake hw, fun hl hp0 => readRegister_served hawake hp0 hl o n⟩,
    fun s x a hawake hl hx => ⟨fun hp3 => ⟨debugHalt_mgc_p3 hawake hl, (debugResume_mgc_eq s).trans (grant_off hawake hp3), debugSingleStep_p3 hawake hx hp3,
      loupeDebugAccess_chans rfl ((loupeAccess_readMem a s).trans (grant_off hawake hp3)) rfl⟩, fun hst => ⟨loupeDebugAccess_chans rfl ((loupeAccess_readMem a s).trans (grant_waits hawake hl hst)) (awaits_chans s _), ?_⟩⟩⟩
  · obtain ⟨hrefused, hcount, hbut, hframe⟩ := State.refused_token (State.canonical.regs hcan) t action
    exact ⟨_, fun h => exec_token_refused (action := action) (by rw [h]; rfl) hcause, fun h => exec_token_refused (action := action) (by rw [h]; rfl) hcause,
      fun h => exec_token_refused (action := action) (by rw [h]; rfl) hcause, hrefused, hcount, hbut, hframe⟩
  · rw [debugLevelRaise_erased hl hawake hup hmay hlc h2, onAccess_p0 hp0]
  · exact State.enterLevel_level hcan hl
  · rw [debugLevelRaise_erased hl hawake hup hmay hlc h2, onAccess_awaits hst]
  · rw [debugLevelLower_eq hl hawake hdown, if_pos hlc]
  · obtain ⟨-, -, hlevel, hgranted, hmem, hchanges, -⟩ := State.sessionClosed_spec (State.canonical.regs hcan) x
    rw [State.endSession_eq hx, if_neg (by simp [hheld])]
    exact ⟨hlevel, hgranted, hmem, hchanges⟩
  · obtain ⟨hl, rfl | rfl | rfl | ⟨t, a, rfl, rfl⟩ | ⟨a, v, rfl, rfl⟩ | ⟨t, w, k, v, rfl, rfl⟩ | ⟨a, rfl, rfl⟩⟩ |
      ⟨hl, ⟨f, o, n, rfl, rfl⟩ | ⟨t, rfl, rfl⟩⟩ | ⟨hl, n, rfl, rfl⟩ := hgated
    · exact debugHalt_refused hawake hx hl
    · exact debugResume_refused hawake hx hl
    · exact debugSingleStep_refused hawake hx hl
    all_goals exact loupeDebugAccess_refused hawake hacc hl
  · exact ⟨fun ho => issueNext_is_exec hp hi (by rw [ho]; rfl), fun ho => issueNext_is_exec hp hi (by rw [ho]; rfl),
      fun ho => issueNext_is_exec hp hi (by rw [ho]; rfl)⟩
  · rintro t rfl
    exact debugSingleStep_chans hx ((debugStep_tile_eq t s).trans (grant_waits hawake hl hst)) (awaits_chans s _)

end Sys2Proof.Machine
end

section
/-! SUPPORT. What leaves the pins as they are: device memory, items, contexts and links, and so the loss of the main power (O60, first part). -/

namespace Sys2Proof.Machine

theorem State.pins_foldl {α : Type} {f : State → α → State} (hf : ∀ s a, (f s a).pins = s.pins) (l : List α) (s : State) : (l.foldl f s).pins = s.pins :=
  State.foldl_same (g := State.pins) hf l s

theorem State.pins_ite {c : Prop} [Decidable c] {u v : State} {x : Pins} (hu : u.pins = x) (hv : v.pins = x) : (if c then u else v).pins = x := by
  split
  · exact hu
  · exact hv

/-! ## Device memory -/

@[simp] theorem State.putArray_pins (s : State) (c cw : Nat) (bytes : List Byte) (p : Bool) : (s.putArray c cw bytes p).pins = s.pins := rfl

@[simp] theorem State.give_pins (s : State) (p i n : Nat) : (s.give p i n).pins = s.pins := rfl

@[simp] theorem State.addStatus_pins (s : State) (id st : Nat) : (s.addStatus id st).pins = s.pins := rfl

@[simp] theorem State.countCe_pins (s : State) (c : Nat) : (s.countCe c).pins = s.pins := by simp only [State.countCe, State.bump_pins]

@[simp] theorem State.countUe_pins (s : State) (c cw : Nat) : (s.countUe c cw).pins = s.pins :=
  (State.putArray_pins ..).trans ((State.bump_pins ..).trans (State.bump_pins ..))

@[simp] theorem State.decodeCw_pins (s : State) (c cw : Nat) : (s.decodeCw c cw).pins = s.pins := by
  unfold State.decodeCw
  split
  · rfl
  · exact (State.putArray_pins ..).trans (s.countCe_pins c)
  · exact s.countUe_pins c cw
  · dsimp only
    split
    · exact (State.countUe_pins ..).trans rfl
    · exact (State.putArray_pins ..).trans ((State.countCe_pins ..).trans rfl)

@[simp] theorem State.poisonDelivered_pins (s : State) (a : Nat) : (s.poisonDelivered a).pins = s.pins := by
  unfold State.poisonDelivered State.queueRepair
  dsimp only
  exact State.pins_ite (by simp) (State.pins_ite (by simp) (by simp))

@[simp] theorem State.passEnd_pins (s : State) : s.passEnd.pins = s.pins := State.pins_ite (by simp) rfl

@[simp] theorem State.fillDone_pins (s : State) (l sp : Nat) : (s.fillDone l sp).pins = s.pins := rfl

@[simp] theorem State.failBound_pins (s : State) (c : Nat) : (s.failBound c).pins = s.pins := by
  unfold State.failBound
  split
  · rfl
  · split
    · rfl
    · simp [State.dropLate, State.setFill]

@[simp] theorem State.failHard_pins (s : State) (c : Nat) : (s.failHard c).pins = s.pins := by
  have hfailed : ((if (s.slotOf c).isSome then s.departs c else s).setFld Fld.memChstatState c 4).pins = s.pins :=
    State.pins_ite (u := s.departs c) rfl rfl
  unfold State.failHard
  dsimp only
  generalize (if (s.slotOf c).isSome then s.departs c else s).setFld Fld.memChstatState c 4 = v at hfailed
  rw [State.passEnd_pins, ← hfailed]
  split
  · split
    · exact State.journal_pins ..
    · split
      · split
        · exact State.journal_pins ..
        · exact (State.fillDone_pins ..).trans (State.journal_pins ..)
      · exact v.failBound_pins c
  · exact v.failBound_pins c

@[simp] theorem State.checkUeWin_pins (s : State) (c : Nat) : (s.checkUeWin c).pins = s.pins := State.pins_ite (s.failHard_pins c) rfl

@[simp] theorem State.fetchCw_pins (s : State) (a n : Nat) (q : Nat × Nat × Nat) : (s.fetchCw a n q).2.2.pins = s.pins := by
  have hread : (s.readCw q.1).2.2.pins = s.pins := by
    unfold State.readCw
    split
    · simp
    · dsimp only
      split
      · simp
      · simp
      · exact (State.checkUeWin_pins _ _).trans (State.pins_ite (by simp) (by simp))
  unfold State.fetchCw
  split
  · rfl
  · exact hread

@[simp] theorem State.memRead_pins (s : State) (a n : Nat) : (s.memRead a n).2.pins = s.pins := by
  unfold State.memRead
  generalize cwSplit a n = l
  suffices hall : ∀ (l : List (Nat × Nat × Nat)) (acc : List (Byte × Bool) × State), (l.foldl (fun acc q =>
      ((acc.1 ++ (((acc.2.fetchCw a n q).1.drop q.2.1).take q.2.2).map (fun b => (b, (acc.2.fetchCw a n q).2.1)), (acc.2.fetchCw a n q).2.2) :
        List (Byte × Bool) × State)) acc).2.pins = acc.2.pins from hall l _
  intro l
  induction l with
  | nil => exact fun _ => rfl
  | cons q l ih => exact fun acc => (ih _).trans (acc.2.fetchCw_pins a n q)

@[simp] theorem State.ctrlRead_pins (s : State) (a n : Nat) : (s.ctrlRead none a n).2.pins = s.pins := (State.memRead_pins (s.bursts _ a n) a n).trans rfl

@[simp] theorem State.writeOn_pins (s : State) (c cw o : Nat) (bytes : List Byte) (m : Bool) : (s.writeOn c cw o bytes m).pins = s.pins := by
  have hdecoded : (if m || bytes.length = 64 then s else s.decodeCw c cw).pins = s.pins := State.pins_ite rfl (s.decodeCw_pins c cw)
  unfold State.writeOn
  simp only [State.checkUeWin_pins, State.putArray_pins]
  exact hdecoded

@[simp] theorem State.writeCw_pins (s : State) (a o : Nat) (bytes : List Byte) (m : Bool) : (s.writeCw a o bytes m).pins = s.pins := by
  have hboth : ∀ l c cw, (s.writeBoth l c cw o bytes m).pins = s.pins := fun l c cw => by
    unfold State.writeBoth
    split <;> simp
  unfold State.writeCw
  split
  · simp
  · dsimp only
    split
    · simp
    · rfl
    · exact State.pins_ite rfl (hboth _ _ _)

@[simp] theorem State.storeCw_pins (s : State) (a n : Nat) (q : Nat × Nat × Nat) (bytes : List Byte) (m : Bool) : (s.storeCw a n q bytes m).pins = s.pins := by
  unfold State.storeCw
  split
  · rfl
  · exact s.writeCw_pins ..

@[simp] theorem State.putNatFor_pins (s : State) (c a n v : Nat) : (s.putNatFor c a n v).pins = s.pins :=
  (State.pins_foldl (fun s _ => s.storeCw_pins ..) _ (s.storeBursts c a _)).trans rfl

/-! ## Tiles, items and contexts -/

@[simp] theorem State.mapTiles_pins (s : State) (f : Tile → Tile) : (s.mapTiles f).pins = s.pins :=
  State.pins_foldl (f := fun (s : State) (e : Nat × Tile) => s.setTile e.1 (f e.2)) (fun _ _ => rfl) s.tiles s

@[simp] theorem State.endPart_pins (s : State) (t p : Nat) : (s.endPart t p).pins = s.pins := by
  have hstatic : (s.staticEvent p).pins = s.pins := by
    unfold State.staticEvent
    split <;> rfl
  refine (State.pins_foldl (fun s e => ?_) _ _).trans hstatic
  split <;> rfl

@[simp] theorem State.endItem_pins (s : State) (id : Nat) : (s.endItem id).pins = s.pins := by
  unfold State.endItem
  split
  · rfl
  · exact State.pins_ite rfl rfl

@[simp] theorem State.inject_pins (s : State) (p : Packet) (q : Option Nat) : (s.inject p q).1.pins = s.pins := by
  unfold State.inject
  split
  · rfl
  · dsimp only
    split <;> rfl

@[simp] theorem State.stopPart_pins (s : State) (id st : Nat) : (s.stopPart id st).pins = s.pins := by
  have hparts : (s.endAllParts id).pins = s.pins := State.pins_foldl (fun s t => by split; exacts [s.endPart_pins t _, rfl]) _ s
  have haborts : ∀ (v : State) (c : Nat) (b : Board) (q r : Nat), (v.sendAborts c b q r).pins = v.pins := fun v c b q r =>
    State.pins_foldl (fun s _ => s.inject_pins _ none) _ v
  unfold State.stopPart
  split
  · rfl
  · split
    · exact State.pins_ite rfl (by simp only [State.endItem_pins, State.addStatus_pins, haborts, hparts])
    · rfl

@[simp] theorem State.stopContext_pins (s : State) (c st : Nat) : (s.stopContext c st).pins = s.pins := by
  have habort : ∀ (v : State) (id : Nat), (v.abortItem id st).pins = v.pins := fun v id => by
    simp only [State.abortItem, State.endItem_pins, State.addStatus_pins, State.leave4]
  refine (State.pins_foldl (fun v i => ?_) _ (s.dropRetiring c)).trans rfl
  unfold State.stopItem
  split
  · rfl
  · exact State.pins_ite (v.stopPart_pins i.id st) (habort v i.id)
  · exact habort v i.id

@[simp] theorem State.endResidency_pins (s : State) (t : Nat) : (s.endResidency t).pins = s.pins := by
  have hfresh : ∀ v : State, (v.freshTile t).pins = v.pins := fun v => by
    unfold State.freshTile
    split <;> rfl
  exact State.pins_ite ((hfresh _).trans (by simp)) rfl

@[simp] theorem State.endResidencyOf_pins (s : State) (c : Nat) (hd : Option Nat) : (s.endResidencyOf c hd).pins = s.pins :=
  State.pins_foldl (fun s t => State.pins_ite (s.endResidency_pins t) rfl) _ s

@[simp] theorem State.disable_pins (s : State) (fn : Nat) : (s.disable fn).pins = s.pins := State.pins_ite (by simp) rfl

@[simp] theorem State.releaseGen_pins (s : State) (k g : Nat) : (s.releaseGen k g).pins = s.pins := by
  unfold State.releaseGen
  dsimp only
  split
  · rfl
  · split <;> rfl

@[simp] theorem State.releaseGens_pins (l : List (Nat × Nat)) (s : State) : (l.foldl (fun (s : State) r => s.releaseGen r.1 r.2) s).pins = s.pins :=
  State.pins_foldl (fun s r => s.releaseGen_pins r.1 r.2) l s

@[simp] theorem State.releaseBoard_pins (s : State) (c k : Nat) : (s.releaseBoard c k).pins = s.pins := by
  unfold State.releaseBoard
  split
  · rfl
  · simp

@[simp] theorem State.retireComplete_pins (s : State) (c k : Nat) : (s.retireComplete c k).pins = s.pins := by
  unfold State.retireComplete
  split
  · split
    · exact State.pins_ite (by simp) rfl
    · rfl
  · rfl

theorem State.releaseGo_pins (tenant k : Nat) (p : Pool) : ∀ (n : Nat) (s : State), (s.releaseGo tenant k p n).pins = s.pins
  | 0, _ => rfl
  | n + 1, s => by
    unfold State.releaseGo
    dsimp only
    refine State.pins_ite (by simp) ?_
    rw [State.releaseGo_pins tenant k p n, State.give_pins, State.putNatFor_pins]
    exact State.pins_ite (by simp [State.setPage]) (by simp)

@[simp] theorem State.release_pins (s : State) (tenant k : Nat) : (s.release tenant k).pins = s.pins := by
  unfold State.release
  split
  · rfl
  · exact (State.releaseGo_pins ..).trans ((State.ctrlRead_pins ..).trans (State.ctrlRead_pins ..))

@[simp] theorem State.fenceDrained_pins (s : State) (c : Nat) : (s.fenceDrained c).pins = s.pins := State.pins_ite rfl rfl

@[simp] theorem State.fence_pins (s : State) (c cause : Nat) : (s.fence c cause).pins = s.pins := by
  unfold State.fence
  refine State.pins_ite rfl ((State.fenceDrained_pins _ c).trans ?_)
  exact State.pins_ite (by simp) (by simp)

@[simp] theorem State.auditCheck_pins (s : State) (p i : Nat) : (s.auditCheck p i).pins = s.pins := by
  unfold State.auditCheck
  refine State.pins_ite rfl ?_
  dsimp only
  split <;> simp

@[simp] theorem State.giveBack_pins (s : State) (i : Item) : (s.giveBack i).pins = s.pins := by
  have hcredits := State.pins_foldl (f := fun (s : State) (c : Nat × Nat × Nat × Nat) => s.give (c.1 + 1) (creditIndex i.fn c.1 c.2.1 c.2.2.1) c.2.2.2)
    (fun _ _ => rfl) i.credits s
  unfold State.giveBack
  dsimp only
  split
  · rw [State.releaseGens_pins, hcredits]
  · next l _ =>
    have hserials : ∀ v : State, (l.serials.foldl (fun (s : State) e => (s.give 7 (4 * i.fn + e.1) 1).release i.fn e.1) v).pins = v.pins :=
      State.pins_foldl (fun s e => (State.release_pins _ _ _).trans (s.give_pins 7 _ 1)) l.serials
    refine State.pins_ite ?_ ?_
    · rw [State.retireComplete_pins, State.give_pins, State.modBoard, State.setBoard_pins, hserials, State.releaseGens_pins, hcredits]
    · rw [hserials, State.releaseGens_pins, hcredits]

@[simp] theorem State.narrowForgets_pins (s : State) (c id : Nat) : (s.narrowForgets c id).pins = s.pins := by
  unfold State.narrowForgets
  split
  · rfl
  · exact State.pins_ite rfl rfl

@[simp] theorem State.leave_pins (s : State) (i : Item) : (s.leave i).pins = s.pins := by
  have hdrain : ∀ (v : State) (r : Nat), (v.drainRing i.fn r).pins = v.pins := fun _ _ => State.pins_ite rfl rfl
  unfold State.leave
  dsimp only
  refine (State.pins_foldl (fun s (a : Nat × Nat) => s.auditCheck_pins a.1 a.2) _ _).trans ?_
  simp only [State.stir_pins, State.fenceForgets, State.fenceDrained_pins, State.narrowForgets_pins, hdrain, State.giveBack_pins, State.give_pins, State.leave4]

@[simp] theorem State.loseItem_pins (s : State) (id : Nat) : (s.loseItem id).pins = s.pins := by
  unfold State.loseItem
  split <;> simp

/-! ## Functions -/

@[simp] theorem State.lastMessages_pins (s : State) (fn : Nat) : (s.lastMessages fn).pins = s.pins := by
  have hset : ∀ (v : State) (n : Nat) (x : Vec), (v.setVec fn n x).pins = v.pins := fun _ _ _ => rfl
  have hsend : ∀ (v : State) (n : Nat), (v.sendVec fn n).pins = v.pins := fun v n => by
    unfold State.sendVec
    exact State.pins_ite rfl (State.pins_ite (by simp [hset]) rfl)
  refine State.pins_foldl (fun v n => ?_) (s.vectorsOf fn) s
  exact State.pins_ite rfl (State.pins_ite (hset v n _) (hsend v n))

@[simp] theorem State.clearRegs_pins (s : State) (rs : List Reg) (p : Nat → Bool) : (rs.foldl (fun (s : State) r => s.clearReg r p) s).pins = s.pins :=
  State.pins_foldl (f := fun (s : State) r => s.clearReg r p) (fun _ _ => rfl) rs s

@[simp] theorem State.resetPage_pins (s : State) (fn : Nat) : (s.resetPage fn).pins = s.pins := by
  have hcleared := s.clearRegs_pins pageRegs (· == fn)
  unfold State.resetPage
  dsimp only
  generalize List.foldl (fun (s : State) r => s.clearReg r (· == fn)) s pageRegs = v at hcleared
  exact hcleared

@[simp] theorem State.fnDown_pins (s : State) (fn : Nat) : (s.fnDown fn).pins = s.pins := by
  have hstopped : (s.stopRings fn).pins = s.pins := by
    have hfold := State.pins_foldl (f := fun (s : State) k => (s.setFlag Fld.ringCfgActive (ringKey fn k) false).setFlag Fld.ringCfgEnable (ringKey fn k) false)
      (fun _ _ => rfl) (List.range 64) s
    unfold State.stopRings
    dsimp only
    generalize List.foldl _ s (List.range 64) = v at hfold ⊢
    exact hfold
  unfold State.fnDown
  generalize s.stopRings fn = v at hstopped
  dsimp only
  generalize hset : v.setFld Fld.fnStateState fn 0 = u
  have hu : u.pins = s.pins := hset ▸ (v.setFld_pins ..).trans hstopped
  have hpage := (u.resetPage_pins fn).trans hu
  generalize u.resetPage fn = w at hpage ⊢
  exact State.pins_ite hpage hu

@[simp] theorem State.settleReset_pins (s : State) : s.settleReset.pins = s.pins := by
  have hcleared := s.clearRegs_pins attachRegs fun _ => true
  unfold State.settleReset State.resetAttach
  dsimp only
  generalize List.foldl (fun (s : State) r => s.clearReg r fun _ => true) s attachRegs = v at hcleared
  exact State.pins_ite hcleared rfl

theorem State.closeAmong_pins (s : State) (fn : Nat) (ws ns : List Nat) : (s.closeAmong fn ws ns).pins = s.pins := by
  have hwindows := State.pins_foldl (f := fun (s : State) w => if s.flag Fld.winStatOpen w && s.fld Fld.winStatTenant w == fn then s.closeWindow w else s)
    (fun _ _ => State.pins_ite rfl rfl) ws s
  unfold State.closeAmong
  dsimp only
  generalize List.foldl _ s ws = v at hwindows ⊢
  have hinboxes := State.pins_foldl (f := fun (s : State) n => if s.flag Fld.inboxStatOpen n && s.fld Fld.inboxStatTenant n == fn then s.closeInbox n else s)
    (fun _ _ => State.pins_ite rfl rfl) ns v
  exact hinboxes.trans hwindows

theorem State.unlockWindows_pins (s : State) (fn : Nat) : (s.unlockWindows fn).pins = s.pins := by
  have hset : ∀ (v : State) (w : Nat), (if v.fld Fld.hwinTenant w = fn then v.setFlag Fld.hwinLock w false else v).pins = v.pins :=
    fun v w => State.pins_ite (v.setFlag_pins ..) rfl
  unfold State.unlockWindows
  exact State.pins_foldl hset (List.range 256) s

/-- By its own induction: the kernel would unfold an audit to match it with the step of a general fold. -/
theorem State.releaseHandles_pins (fn : Nat) : ∀ (l : List Nat) (s : State),
    (l.foldl (fun (s : State) h => (s.releaseBoard fn h).auditCheck 4 (boardKey fn h)) s).pins = s.pins
  | [], _ => rfl
  | h :: l, s => (State.releaseHandles_pins fn l ((s.releaseBoard fn h).auditCheck 4 (boardKey fn h))).trans
      ((State.auditCheck_pins (s.releaseBoard fn h) 4 (boardKey fn h)).trans (s.releaseBoard_pins fn h))

theorem State.releaseBoards_pins (s : State) (fn : Nat) : (s.releaseBoards fn).pins = s.pins := State.releaseHandles_pins fn (s.handlesOf fn) s

theorem State.releasePools_pins (s : State) (fn : Nat) : (s.releasePools fn).pins = s.pins := by
  have hclosed : ∀ (u : State) (k i : Nat), (((u.setPool fn k none).auditFresh 6 i).auditFresh 7 i).pins = u.pins := fun _ _ _ => rfl
  unfold State.releasePools
  refine State.pins_foldl (fun v k => ?_) (List.range 4) s
  exact State.pins_ite rfl ((hclosed _ k (4 * fn + k)).trans ((State.auditCheck_pins ..).trans (State.auditCheck_pins ..)))

theorem State.releaseRemote_pins (s : State) (fn : Nat) : (s.releaseRemote fn).pins = s.pins :=
  (congrArg State.pins (s.releaseRemote_eq fn)).trans (s.closeAmong_pins fn _ _)

@[simp] theorem State.releaseContext_pins (s : State) (fn : Nat) : (s.releaseContext fn).pins = s.pins :=
  calc (s.releaseContext fn).pins
      = ((((s.releaseBoards fn).releasePools fn).releaseRemote fn).unlockWindows fn).pins := State.endResidencyOf_pins _ fn none
    _ = (((s.releaseBoards fn).releasePools fn).releaseRemote fn).pins := State.unlockWindows_pins _ fn
    _ = ((s.releaseBoards fn).releasePools fn).pins := State.releaseRemote_pins _ fn
    _ = (s.releaseBoards fn).pins := State.releasePools_pins _ fn
    _ = s.pins := s.releaseBoards_pins fn

@[simp] theorem State.cxlDown_pins (s : State) : s.cxlDown.pins = s.pins := by
  have hgone : ∀ v : State, v.disableGone.pins = v.pins := fun v => State.pins_foldl (fun s f => State.pins_ite rfl (s.disable_pins f)) _ v
  have hbroken : ∀ v : State, v.breakCxlInboxes.pins = v.pins := fun v => by
    refine State.pins_foldl (fun s n => ?_) (List.range 8) v
    split
    · exact State.pins_ite rfl rfl
    · rfl
  unfold State.cxlDown
  simp only [State.eraseIde_pins, hbroken, hgone]

@[simp] theorem State.loseFunctions_pins (s : State) : s.loseFunctions.pins = s.pins := by
  unfold State.loseFunctions
  dsimp only
  rw [State.settleReset_pins, State.pins_foldl (fun s f => State.pins_ite (by simp) rfl) (List.range 64), State.pins_foldl (fun s id => s.loseItem_pins id),
    State.cxlDown_pins]

/-! ## Links -/

@[simp] theorem State.failPart_pins (s : State) (id st : Nat) : (s.failPart id st).pins = s.pins := by
  unfold State.failPart
  split
  · rfl
  · split
    · refine State.pins_ite rfl ((State.stopPart_pins _ id st).trans ?_)
      exact State.pins_ite (by simp [State.keepKey]) rfl
    · rfl

@[simp] theorem State.stopForward_pins (s : State) (id : Nat) : (s.stopForward id).pins = s.pins := by
  unfold State.stopForward
  split
  · rfl
  · split
    · rfl
    · exact State.pins_ite rfl (State.pins_ite (by simp) rfl)

@[simp] theorem State.returned_pins (s : State) (k : PktKind) (aux : List Nat) : (s.returned k aux).pins = s.pins := by
  unfold State.returned
  split
  · split <;> simp
  · split <;> simp
  all_goals simp

@[simp] theorem State.dropForward_pins (s : State) (p : Packet) : (s.dropForward p).pins = s.pins := by
  unfold State.dropForward State.sendNotice
  dsimp only
  exact State.pins_ite (by simp) (State.pins_ite (by simp) (by simp))

@[simp] theorem State.reroute_pins (s : State) (q : Option Nat) (e : Nat × Packet) : (s.reroute q e).pins = s.pins := by
  have howed : (s.oweCredit e.1 e.2).pins = s.pins := State.pins_ite rfl rfl
  have hlost : (s.lost e).pins = s.pins := State.pins_ite (s.returned_pins _ _) ((State.dropForward_pins _ _).trans howed)
  unfold State.reroute
  split
  · exact hlost
  · refine State.pins_ite hlost ?_
    split
    · exact State.pins_ite rfl rfl
    · rfl

@[simp] theorem State.stopLink_pins (s : State) (l st : Nat) : (s.stopLink l st).pins = s.pins := by
  have hretried : ∀ v : State, v.retryLeft.pins = v.pins := fun v =>
    (State.pins_foldl (f := fun (s : State) (e : Nat × Nat × Packet) => s.reroute (some e.1) e.2) (fun s e => s.reroute_pins (some e.1) e.2) v.mgmtLeft
      { v with mgmtLeft := [] }).trans rfl
  have hbroken : ∀ v : State, v.breakInboxes.pins = v.pins := fun v => by
    refine State.pins_foldl (fun s n => ?_) (List.range 8) v
    split
    · exact State.pins_ite rfl rfl
    · rfl
  unfold State.stopLink
  dsimp only
  rw [hbroken, State.pins_foldl (fun s e => s.reroute_pins _ e), hretried]
  rfl

/-! ## The loss of the main power -/

@[simp] theorem State.stopAssay_pins (s : State) : s.stopAssay.pins = s.pins := by
  unfold State.stopAssay
  split
  · rfl
  · dsimp only
    split <;> rfl

@[simp] theorem State.powerLost_pins (s : State) : s.powerLost.pins = s.pins := by
  have hlinks : ∀ v : State, v.stopLinks.pins = v.pins := fun v => State.pins_foldl (fun s l => State.pins_ite rfl (s.stopLink_pins l 0)) _ v
  have hcontent : ∀ v : State, v.loseContent.pins = v.pins := fun v => by
    have hblank := (State.mapTiles_pins v.stopAssay Tile.blank).trans v.stopAssay_pins
    unfold State.loseContent
    dsimp only
    generalize v.stopAssay.mapTiles Tile.blank = u at hblank ⊢
    have hended := State.pins_foldl (fun s k => State.endResidency_pins s k) (List.range 256) u
    generalize List.foldl State.endResidency u (List.range 256) = w at hended ⊢
    exact hended.trans hblank
  have hrates : ∀ v : State, v.stopRates.pins = v.pins := fun v =>
    State.pins_foldl (f := fun (s : State) r => s.setFld Fld.coreRateRate r 0) (fun _ _ => rfl) (List.range 16) v
  unfold State.powerLost
  rw [hrates, hcontent, hlinks, State.loseFunctions_pins]

/-- The loss of the main power turns the device's own outputs off, and leaves every other pin. -/
theorem State.mainOff_pins (s : State) : s.mainOff.pins = s.pins.mainOff := by
  have hlost := s.powerLost_pins
  rw [State.mainOff_eq]
  generalize s.powerLost = v at hlost ⊢
  exact congrArg Pins.mainOff hlost

end Sys2Proof.Machine
end

section
/-! SUPPORT. Cold reset, the release of `POR_N`, and the phases of start-up (O60, second part). -/

namespace Sys2Proof.Machine

/-! ## Cold reset (R478) -/

/-- What a cold reset leaves, before `TRIPPED` shows a latch. -/
def State.coldBase (s : State) (vauxLost : Bool) : State :=
  { State.reset with
    pending := s.pending, draws := s.draws, host := s.host, hostPoison := s.hostPoison, sec := s.sec.kept, pins := s.pins.kept vauxLost, outs := s.outs }

section
variable (s : State) (vl : Bool)

theorem State.cold_unlatched (h : (s.pins.kept vl).tripLatch = none) : s.cold vl = s.coldBase vl := by
  unfold State.cold
  dsimp only
  rw [h]
  rfl

theorem State.cold_latched {n : Nat} (h : (s.pins.kept vl).tripLatch = some n) :
    s.cold vl = ((s.coldBase vl).setFlag Fld.pwrStatTripped 0 true).setFld Fld.pwrStatTripSensor 0 n := by
  unfold State.cold
  dsimp only
  rw [h]
  rfl

theorem State.cold_frame : ∃ r, s.cold vl = { s.coldBase vl with regs := r } := by
  cases h : (s.pins.kept vl).tripLatch with
  | none => exact ⟨_, s.cold_unlatched vl h⟩
  | some n => exact ⟨_, s.cold_latched vl h⟩

theorem State.cold_tripped {n : Nat} (h : (s.pins.kept vl).tripLatch = some n) : (s.cold vl).flag Fld.pwrStatTripped 0 = true := by
  have hsorted : Tab.sorted (s.coldBase vl).regs = true := rfl
  rw [s.cold_latched vl h]
  exact (State.flag_setFld_ne (State.sorted_setFld hsorted _ _ _) (by decide) _ (by decide)).trans (State.flag_setFlag_self hsorted rfl 0 true)

end

section
variable {s : State} {n : Nat}

theorem State.tearRecord_whole (h : n = 0 ∨ s.sec.changes = []) : s.tearRecord n = s := by
  unfold State.tearRecord
  rcases h with h | h
  · split
    · rfl
    · rw [if_pos h]
  · rw [h]

/-- The record in progress stands behind the log, torn unless all of it was written. -/
theorem State.tearRecord_torn (hn : 0 < n) {e : Nat × List Nat × Nat} {rest : List (Nat × List Nat × Nat)} (h : s.sec.changes = e :: rest) :
    ∃ r : JRec, r.type = e.1 ∧ r.args = e.2.1 ∧ r.tally = e.2.2 ∧
      s.tearRecord n = { s with sec := s.sec.setHalf s.activeHalf (s.logBegun ++ [if n < r.bytes.length then { r with torn := some (r.bytes.take n) } else r]) } := by
  have hrecord : s.withRecord e = s.logBegun ++ [⟨e.1, e.2.1, (s.logBegun.getLast?.map (fun r => r.seq)).getD 0 + 1, e.2.2, none⟩] := rfl
  refine ⟨⟨e.1, e.2.1, (s.logBegun.getLast?.map (fun r => r.seq)).getD 0 + 1, e.2.2, none⟩, rfl, rfl, rfl, ?_⟩
  unfold State.tearRecord
  rw [h]
  dsimp only
  rw [if_neg (by omega), hrecord, List.dropLast_concat, List.getLast?_concat]
  rfl

theorem State.tearRecord_frame (s : State) (n : Nat) : ∃ h0 h1, s.tearRecord n = { s with sec := { s.sec with half0 := h0, half1 := h1 } } := by
  rcases Nat.eq_zero_or_pos n with hn | hn
  · exact ⟨_, _, State.tearRecord_whole (.inl hn)⟩
  · cases h : s.sec.changes with
    | nil => exact ⟨_, _, State.tearRecord_whole (.inr h)⟩
    | cons e rest =>
      obtain ⟨r, -, -, -, htorn⟩ := State.tearRecord_torn hn h
      rw [Security.setHalf_rest] at htorn
      exact ⟨_, _, htorn⟩

end

/-- What a cold reset leaves of the fields that the flash, the board and the host hold. -/
theorem State.cold_fields (s : State) (vl : Bool) : (s.cold vl).pins = s.pins.kept vl ∧ (s.cold vl).sec = s.sec.kept ∧ (s.cold vl).pending = s.pending ∧
    (s.cold vl).host = s.host ∧ (s.cold vl).mem = [] ∧ (s.cold vl).items = [] := by
  obtain ⟨r, hframe⟩ := s.cold_frame vl
  rw [hframe]
  exact ⟨rfl, rfl, rfl, rfl, rfl, rfl⟩

theorem Pins.kept_latch (x : Pins) (vl : Bool) : (x.kept vl).tripLatch = if vl then none else x.tripLatch := rfl

theorem Security.kept_half (c : Security) (h : Nat) : c.kept.half h = c.half h := by
  unfold Security.half
  split <;> rfl

theorem exec_coldReset (s : State) (vl : Bool) (w : Nat) : exec (.coldReset vl w) s = .next ((if vl then s.tearRecord w else s).cold vl) := rfl

/-- What the reset finds after a record in progress has been torn. -/
theorem State.torn_frame (s : State) (vl : Bool) (w : Nat) : ∃ h0 h1, (if vl then s.tearRecord w else s) =
    { s with sec := { s.sec with half0 := h0, half1 := h1 } } := by
  cases vl
  · exact ⟨_, _, rfl⟩
  · exact s.tearRecord_frame w

theorem coldReset_keeps (s : State) (vl : Bool) (w : Nat) : ∃ u, exec (.coldReset vl w) s = .next u ∧ u.pins.porN = false ∧ (vl = true → u.pins.vaux = false) ∧
    (vl = false → u.pins.vaux = s.pins.vaux) ∧ u.pending = s.pending ∧ u.host = s.host ∧ u.mem = [] ∧ u.items = [] ∧
    u.sec.slots = s.sec.slots ∧ u.sec.floors = s.sec.floors ∧ u.sec.deviceKeys = s.sec.deviceKeys ∧ u.sec.changes = [] ∧ u.sec.session = none ∧
    (vl = false ∨ w = 0 ∨ s.sec.changes = [] → u.sec.half0 = s.sec.half0 ∧ u.sec.half1 = s.sec.half1) ∧
    (∀ e rest, vl = true → 0 < w → s.sec.changes = e :: rest → u.sec.half (1 - s.activeHalf) = s.sec.half (1 - s.activeHalf) ∧
      ∃ r : JRec, r.type = e.1 ∧ r.args = e.2.1 ∧ r.tally = e.2.2 ∧
        u.sec.half s.activeHalf = s.logBegun ++ [if w < r.bytes.length then { r with torn := some (r.bytes.take w) } else r]) ∧
    (s.pins.tripLatch = none ∨ vl = true → u.regs = []) ∧
    (vl = false → ∀ n, s.pins.tripLatch = some n → u.flag Fld.pwrStatTripped 0 = true ∧ u.pins.tripLatch = some n) := by
  obtain ⟨h0, h1, hframe⟩ := s.torn_frame vl w
  generalize hv : (if vl then s.tearRecord w else s) = v at hframe
  have hpins : v.pins = s.pins := hframe ▸ rfl
  obtain ⟨hcold, hsec, hpending, hhost, hmem, hitems⟩ := v.cold_fields vl
  have hkept : v.sec.kept = { s.sec.kept with half0 := v.sec.half0, half1 := v.sec.half1 } := by
    rw [hframe]
    rfl
  refine ⟨v.cold vl, hv ▸ exec_coldReset s vl w, by rw [hcold]; rfl, fun h => ?_, fun h => ?_, hpending.trans (hframe ▸ rfl), hhost.trans (hframe ▸ rfl), hmem, hitems,
    by rw [hsec, hkept]; rfl, by rw [hsec, hkept]; rfl, by rw [hsec, hkept]; rfl, by rw [hsec]; rfl, by rw [hsec]; rfl, fun h => ?_, fun e rest h hw he => ?_,
    fun h => ?_, fun h n hn => ?_⟩
  · rw [hcold, h]
    exact Bool.and_false _
  · rw [hcold, h, hpins]
    exact Bool.and_true _
  · have hsame : v = s := by
      rw [← hv]
      rcases h with h | h
      · rw [h]
        rfl
      · cases vl
        · rfl
        · exact State.tearRecord_whole h
    rw [hsec, hsame]
    exact ⟨rfl, rfl⟩
  · obtain ⟨r, htype, hargs, htally, htorn⟩ := State.tearRecord_torn hw he
    have hhalves : v.sec = s.sec.setHalf s.activeHalf (s.logBegun ++ [if w < r.bytes.length then { r with torn := some (r.bytes.take w) } else r]) := by
      rw [← hv, h, if_pos rfl, htorn]
    rw [hsec, Security.kept_half, Security.kept_half, hhalves, Security.half_setHalf_other s.activeHalf_le, Security.half_setHalf_self]
    exact ⟨rfl, r, htype, hargs, htally, rfl⟩
  · have hlatch : (v.pins.kept vl).tripLatch = none := by
      rw [Pins.kept_latch, hpins]
      rcases h with h | h
      · rw [h, ite_self]
      · rw [h]
        rfl
    rw [v.cold_unlatched vl hlatch]
    rfl
  · have hlatch : (v.pins.kept vl).tripLatch = some n := by
      rw [Pins.kept_latch, hpins, h]
      exact hn
    exact ⟨v.cold_tripped vl hlatch, by rw [hcold]; exact hlatch⟩

/-- Under `TEST_MODE` the device stays in reset (R469). -/
theorem testModeAssert_holds (s : State) : ∃ u, exec .testModeAssert s = .next u ∧ u.pins.testMode = true ∧ u.pins.porN = false ∧ u.mem = [] ∧
    ∀ n, n < 4 → exec (.porRelease n) u = .next u := by
  obtain ⟨hcold, -, -, -, hmem, -⟩ := s.cold_fields (!s.pins.vaux)
  have hexec : exec .testModeAssert s = .next { s.cold (!s.pins.vaux) with
      pins := { (s.cold (!s.pins.vaux)).pins with testMode := true, porHigh := s.pins.porHigh } } := rfl
  generalize s.cold (!s.pins.vaux) = v at hcold hmem hexec
  refine ⟨_, hexec, rfl, congrArg Pins.porN hcold, hmem, fun n hn => ?_⟩
  exact (onUnit_ok (decide_eq_true hn)).trans (whenever_neg (Bool.and_false _))

/-! ## Start-up (R479) -/

section
variable {s : State}

/-- `SETUP_STAT.PHASE` reads a phase that is not 0 once it is set, whatever the order of the keys. -/
theorem State.phase_set (s : State) {n : Nat} (hn : 0 < n ∧ n < 16) : (s.setFld Fld.setupStatPhase 0 n).fld Fld.setupStatPhase 0 = n := by
  have hset : (s.setFld Fld.setupStatPhase 0 n).fld Fld.setupStatPhase 0 = n % 2 ^ 4 := Tab.get_set_ne (by
    show n % 2 ^ 4 ≠ 0
    omega)
  rw [hset]
  omega

theorem porRelease_starts {n : Nat} (hn : n < 4) (hpor : s.pins.porN = false) (htest : s.pins.testMode = false) (hcan : s.canonical = true) :
    ∃ u, exec (.porRelease n) s = .next u ∧ u.tally = 0 ∧ u.fld Fld.setupStatPhase 0 = 1 ∧
      u.pins = { s.pins with vaux := true, porN := true, porHigh := true, smbAddr := 0x60 + n, window := s.mainGood } ∧ u.fld Fld.secStatLc 0 = s.otpLc ∧
      u.fld Fld.dbgChallengeValue 0 = (Config.challenge s.draws).toNat ∧ u = { s with regs := u.regs, tally := 0, pins := u.pins, draws := s.draws + 1 } := by
  have hgo : (!s.pins.porN && !s.pins.testMode) = true := by rw [hpor, htest]; rfl
  have hexec : exec (.porRelease n) s = .next (((({ s with tally := 0, pins := { s.pins with
      vaux := true, porN := true, porHigh := true, smbAddr := 0x60 + n, window := s.mainGood } } : State).setFld Fld.setupStatPhase 0 1).readOtp).newChallenge) :=
    (onUnit_ok (decide_eq_true hn)).trans (whenever_pos hgo)
  generalize hv : ({ s with tally := 0, pins := { s.pins with vaux := true, porN := true, porHigh := true, smbAddr := 0x60 + n, window := s.mainGood } } : State) = v at hexec
  have hs : Tab.sorted v.regs = true := hv ▸ State.canonical.regs hcan
  have h1 := State.sorted_setFld hs Fld.setupStatPhase 0 1
  have h2 : Tab.sorted (v.setFld Fld.setupStatPhase 0 1).readOtp.regs = true := State.sorted_setFld h1 _ _ _
  have hotp : (v.setFld Fld.setupStatPhase 0 1).otpLc = s.otpLc := by rw [← hv]; rfl
  refine ⟨_, hexec, by rw [← hv]; rfl, ?_, by rw [← hv]; rfl, ?_, ?_, by rw [← hv]; rfl⟩
  · exact (State.newChallenge_fld h2 (by decide) 0).trans ((State.fld_setFld_ne h1 (by decide) _ (by decide)).trans (v.phase_set (by decide)))
  · exact (State.newChallenge_fld h2 (by decide) 0).trans ((State.fld_setFld_self h1 _ _ _).trans ((congrArg (· % 2 ^ 2) hotp).trans (Nat.mod_eq_of_lt s.otpLc_lt)))
  · have hdraws : v.draws = s.draws := by rw [← hv]
    refine (State.fld_setFld_self (by exact h2) _ _ _).trans ?_
    show (Config.challenge v.draws).toNat % 2 ^ 256 = _
    rw [hdraws]
    exact Nat.mod_eq_of_lt (BitVec.isLt _)

/-! ### The trip record -/

theorem tripRecord_eq {n : Nat} (hlatch : s.pins.tripLatch = some n) (hawake : s.awake = true) (hphase : s.fld Fld.setupStatPhase 0 = 2) : exec .tripRecord s =
    .next (if s.fld Fld.pwrStatState 0 ≠ 3 ∧ s.pins.stillHot = false then
      (((({ (if s.pins.tripRecorded then s else s.journal recTrip [n, s.sensor n]) with pins := { s.pins with tripLatch := none, tripRecorded := false } } :
        State)).setFlag Fld.pwrStatTripped 0 false).setFld Fld.pwrStatTripSensor 0 0).setFld Fld.setupStatPhase 0 3 else s) := by
  have hpins : (if s.pins.tripRecorded then s else s.journal recTrip [n, s.sensor n]).pins = s.pins := State.pins_ite rfl (s.journal_pins ..)
  show execTripRecord s = _
  unfold execTripRecord
  rw [hlatch]
  dsimp only
  unfold whenever
  rw [hpins]
  simp [hawake, hphase]

theorem tripRecord_clears {n : Nat} (hcan : s.canonical = true) (hlatch : s.pins.tripLatch = some n) (hawake : s.awake = true)
    (hphase : s.fld Fld.setupStatPhase 0 = 2) (hcool : s.pins.stillHot = false) (hp3 : s.fld Fld.pwrStatState 0 ≠ 3) : ∃ u, exec .tripRecord s = .next u ∧
      u.pins = { s.pins with tripLatch := none, tripRecorded := false } ∧ u.fld Fld.setupStatPhase 0 = 3 ∧ u.flag Fld.pwrStatTripped 0 = false ∧
      u.sec.changes = (if s.pins.tripRecorded = true then s.sec.changes else s.sec.changes ++ [(recTrip, [n, s.sensor n], s.tally)]) := by
  have hexec := tripRecord_eq hlatch hawake hphase
  rw [if_pos ⟨hp3, hcool⟩] at hexec
  have hrecorded : Tab.sorted (if s.pins.tripRecorded then s else s.journal recTrip [n, s.sensor n]).regs = true ∧
      (if s.pins.tripRecorded then s else s.journal recTrip [n, s.sensor n]).sec.changes =
        if s.pins.tripRecorded = true then s.sec.changes else s.sec.changes ++ [(recTrip, [n, s.sensor n], s.tally)] := by
    cases s.pins.tripRecorded
    · exact ⟨State.canonical.regs hcan, rfl⟩
    · exact ⟨State.canonical.regs hcan, rfl⟩
  generalize (if s.pins.tripRecorded then s else s.journal recTrip [n, s.sensor n]) = v at hexec hrecorded
  obtain ⟨hs, hchanges⟩ := hrecorded
  have h1 := State.sorted_setFld (s := { v with pins := { s.pins with tripLatch := none, tripRecorded := false } }) hs Fld.pwrStatTripped 0 0
  have h2 := State.sorted_setFld h1 Fld.pwrStatTripSensor 0 0
  refine ⟨_, hexec, rfl, State.phase_set _ (by decide), ?_, hchanges⟩
  exact (State.flag_setFld_ne h2 (by decide) _ (by decide)).trans ((State.flag_setFld_ne h1 (by decide) _ (by decide)).trans
    (State.flag_setFlag_self (s := { v with pins := { s.pins with tripLatch := none, tripRecorded := false } }) hs rfl 0 false))

end

end Sys2Proof.Machine
end

section
/-! SUPPORT. Replay, memory, the port, the rails and boundary scan, and the settling of O60. -/

namespace Sys2Proof.Machine

section
variable {s : State}

/-! ### Replay -/

/-- The replay of the journal may run. -/
def State.replays (s : State) : Prop := s.awake = true ∧ s.sec.mgcRuns = true ∧ s.fld Fld.pwrStatState 0 ≠ 3 ∧ s.sec.changes = [] ∧
  ((s.fld Fld.setupStatPhase 0 = 2 ∧ s.pins.tripLatch = none) ∨ s.fld Fld.setupStatPhase 0 = 3)

/-- The replay ends by setting the phase. -/
theorem journalReplay_eq (s : State) : ∃ v : State, (s.replays → exec .journalReplay s = .next (v.setFld Fld.setupStatPhase 0 5)) ∧
    (¬ s.replays → exec .journalReplay s = .next s) := by
  have hgo : (s.awake && s.sec.mgcRuns && s.fld Fld.pwrStatState 0 != 3 && s.sec.changes.isEmpty &&
      ((s.fld Fld.setupStatPhase 0 == 2 && s.pins.tripLatch.isNone) || s.fld Fld.setupStatPhase 0 == 3)) = true ↔ s.replays := by
    simp only [State.replays, Bool.and_eq_true, Bool.or_eq_true, beq_iff_eq, bne_iff_ne, List.isEmpty_iff, Option.isNone_iff_eq_none, and_assoc, ne_eq]
  exact ⟨_, fun h => whenever_pos (hgo.2 h), fun h => whenever_neg (Bool.eq_false_iff.2 fun hc => h (hgo.1 hc))⟩

theorem journalReplay_replays (h : s.replays) : ∃ u, exec .journalReplay s = .next u ∧ u.fld Fld.setupStatPhase 0 = 5 := by
  obtain ⟨v, hexec, -⟩ := journalReplay_eq s
  exact ⟨_, hexec h, v.phase_set (by decide)⟩

theorem journalReplay_idles (h : ¬ s.replays) : exec .journalReplay s = .next s := by
  obtain ⟨v, -, hexec⟩ := journalReplay_eq s
  exact hexec h

/-! ### Rails and memory -/

/-- Operations that write registers only leave every other part of the state. -/
theorem State.regs_only {α : Type} {f : State → α → State} (hf : ∀ (s : State) (a : α), ∃ r, f s a = { s with regs := r }) :
    ∀ (l : List α) (s : State), ∃ r, l.foldl f s = { s with regs := r }
  | [], s => ⟨s.regs, rfl⟩
  | a :: l, s => by
    obtain ⟨r, hr⟩ := hf s a
    obtain ⟨r', hr'⟩ := State.regs_only hf l (f s a)
    refine ⟨r', hr'.trans ?_⟩
    rw [hr]

theorem regulatorRamp_ramps (h : s.atPhase 5 = true) : ∃ u, exec .regulatorRamp s = .next u ∧ u.fld Fld.setupStatPhase 0 = 6 ∧
    u.pins = { s.pins with regulators := true, switches := 3 } ∧ u.mem = s.mem := by
  obtain ⟨r, hr⟩ := State.regs_only (f := fun (s : State) r => s.setFlag Fld.pwrRegionUv r false) (fun _ _ => ⟨_, rfl⟩) (List.range 16)
    { s with pins := { s.pins with regulators := true, switches := 3 } }
  have hexec : exec .regulatorRamp s = .next ((((List.range 16).foldl (fun (s : State) r => s.setFlag Fld.pwrRegionUv r false)
    { s with pins := { s.pins with regulators := true, switches := 3 } }).applyPoints).setFld Fld.setupStatPhase 0 6) := whenever_pos h
  generalize (List.range 16).foldl (fun (s : State) r => s.setFlag Fld.pwrRegionUv r false) _ = v at hr hexec
  have hpins : v.applyPoints.pins = v.pins := by rw [v.applyPoints_eq]
  have hmem : v.applyPoints.mem = v.mem := by rw [v.applyPoints_eq]
  generalize v.applyPoints = w at hpins hmem hexec
  exact ⟨_, hexec, w.phase_set (by decide), hpins.trans (by rw [hr]), hmem.trans (by rw [hr])⟩

theorem memoryTraining_trains {failed : List Nat} (hwf : failed.all (fun c => c < 272) = true) (h : s.atPhase 6 = true) :
    exec (.memoryTraining failed) s = .next ((failed.foldl State.trainFail s).setTop.setFld Fld.setupStatPhase 0 7) :=
  (onUnit_ok hwf).trans (whenever_pos h)

/-- A bring-up that begins changes registers and links only. -/
theorem State.startBringup_frame (s : State) (l : Nat) : ∃ r k, s.startBringup l = { s with regs := r, links := k } := by
  unfold State.startBringup
  split
  · exact ⟨_, _, rfl⟩
  · exact ⟨_, _, rfl⟩

theorem State.startBringup_phase {s : State} (hs : Tab.sorted s.regs = true) (l : Nat) : Tab.sorted (s.startBringup l).regs = true ∧
    (s.startBringup l).fld Fld.setupStatPhase 0 = s.fld Fld.setupStatPhase 0 := by
  unfold State.startBringup
  split
  · exact ⟨State.sorted_setFld (s := s.setLink l _) hs _ _ _, State.fld_setFld_ne (s := s.setLink l _) hs (.inr (by decide)) _ (by decide)⟩
  · exact ⟨hs, rfl⟩

/-- The links whose mask bit is 1 begin their bring-up. -/
def State.bringupMasked (s : State) (ls : List Nat) : State := ls.foldl (fun (s : State) l => if s.linkMasked l then s.startBringup l else s) s

theorem State.bringupMasked_frame : ∀ (ls : List Nat) (s : State), ∃ r k, s.bringupMasked ls = { s with regs := r, links := k }
  | [], s => ⟨s.regs, s.links, rfl⟩
  | l :: ls, s => by
    obtain ⟨r, k, hstep⟩ : ∃ r k, (if s.linkMasked l then s.startBringup l else s) = { s with regs := r, links := k } := by
      split
      · exact s.startBringup_frame l
      · exact ⟨_, _, rfl⟩
    obtain ⟨r', k', hrest⟩ := State.bringupMasked_frame ls (if s.linkMasked l then s.startBringup l else s)
    refine ⟨r', k', Eq.trans hrest ?_⟩
    rw [hstep]

theorem State.bringupMasked_phase : ∀ (ls : List Nat) {s : State}, Tab.sorted s.regs = true →
    (s.bringupMasked ls).fld Fld.setupStatPhase 0 = s.fld Fld.setupStatPhase 0
  | [], _, _ => rfl
  | l :: ls, s, hs => by
    have hstep : Tab.sorted (if s.linkMasked l then s.startBringup l else s).regs = true ∧
        (if s.linkMasked l then s.startBringup l else s).fld Fld.setupStatPhase 0 = s.fld Fld.setupStatPhase 0 := by
      split
      · exact State.startBringup_phase hs l
      · exact ⟨hs, rfl⟩
    exact (State.bringupMasked_phase ls hstep.1).trans hstep.2

theorem State.closeOldSession_frame (s : State) : ∃ c, s.closeOldSession = { s with sec := c } := by
  unfold State.closeOldSession
  split
  · split
    · exact ⟨_, rfl⟩
    · exact ⟨_, rfl⟩
  · exact ⟨_, rfl⟩

theorem State.initAll_empties (s : State) : s.initAll.mem = [] ∧ s.initAll.memPoison = [] ∧ s.initAll.memDamage = [] ∧ s.initAll.boards = [] ∧
    s.initAll.pools = [] ∧ s.initAll.windows = [] := by
  unfold State.initAll
  exact ⟨rfl, rfl, rfl, rfl, rfl, rfl⟩

theorem memoryInit_clears (h : s.atPhase 7 = true) : ∃ u, exec .memoryInit s = .next u ∧ u.mem = [] ∧ u.memPoison = [] ∧ u.memDamage = [] ∧ u.boards = [] ∧
    u.pools = [] ∧ u.windows = [] ∧ (s.canonical = true → u.fld Fld.setupStatPhase 0 = 9) := by
  have hexec : exec .memoryInit s = .next ((s.initAll.closeOldSession.setFld Fld.setupStatPhase 0 9).bringupMasked (List.range 20)) := whenever_pos h
  have hempty := s.initAll_empties
  have hsorted : s.canonical = true → Tab.sorted s.initAll.regs = true := fun hcan =>
    (State.Sound.initAll (State.sound_iff.2 ⟨hcan, False.elim⟩ : s.Sound False)).regs
  generalize s.initAll = v at hexec hempty hsorted
  obtain ⟨c, hclosed⟩ := v.closeOldSession_frame
  rw [hclosed] at hexec
  obtain ⟨r, k, hframe⟩ := State.bringupMasked_frame (List.range 20) (({ v with sec := c } : State).setFld Fld.setupStatPhase 0 9)
  have hphase : s.canonical = true → ((({ v with sec := c } : State).setFld Fld.setupStatPhase 0 9).bringupMasked (List.range 20)).fld Fld.setupStatPhase 0 = 9 :=
    fun hcan => (State.bringupMasked_phase _ (State.sorted_setFld (s := { v with sec := c }) (hsorted hcan) _ _ _)).trans (State.phase_set _ (by decide))
  generalize State.bringupMasked (({ v with sec := c } : State).setFld Fld.setupStatPhase 0 9) (List.range 20) = u at hexec hframe hphase
  obtain ⟨hmem, hpoison, hdamage, hboards, hpools, hwindows⟩ := hempty
  exact ⟨u, hexec, hframe ▸ hmem, hframe ▸ hpoison, hframe ▸ hdamage, hframe ▸ hboards, hframe ▸ hpools, hframe ▸ hwindows, hphase⟩

/-! ### The port (R337, R480) -/

theorem State.enableAll_frame (s : State) : ∃ r, s.enableAll = { s with regs := r } := by
  refine State.regs_only (fun v f => ?_) (List.range 64) s
  unfold State.enableFn
  split
  · exact ⟨_, rfl⟩
  · exact ⟨_, rfl⟩

/-- Every training gives one of the rates and widths of R337. -/
theorem training_listed (n : Nat) : linkRates.getD (n % 9 / 3) 128 ∈ linkRates ∧ linkWidths.getD (n % 9 % 3) 16 ∈ linkWidths := by
  have hsmall : ∀ k, k < 9 → linkRates.getD (k / 3) 128 ∈ linkRates ∧ linkWidths.getD (k % 3) 16 ∈ linkWidths := by decide
  exact hsmall (n % 9) (Nat.mod_lt _ (by decide))

theorem State.portUpNow_frame (s : State) : ∃ r a b, a ∈ linkRates ∧ b ∈ linkWidths ∧
    s.portUpNow = { s with regs := r, draws := s.draws + 1, fns := { s.fns with linkUp := true, trained := some (a, b) } } := by
  obtain ⟨hrate, hwidth⟩ := training_listed (Config.portTraining s.draws)
  obtain ⟨r, hr⟩ := State.enableAll_frame { s with draws := s.draws + 1, fns := { s.fns with
    linkUp := true, trained := some (linkRates.getD (Config.portTraining s.draws % 9 / 3) 128, linkWidths.getD (Config.portTraining s.draws % 9 % 3) 16) } }
  exact ⟨r, _, _, hrate, hwidth, hr⟩

theorem portReady_trains (h9 : s.atPhase 9 = true) (hperst : s.pins.perstN = true) (hdown : s.fns.linkUp = false) : ∃ u, exec .portReady s = .next u ∧
    u.fns.linkUp = true ∧ u.pins.prsntLow = true ∧ u.pins.cxlReceivers = true ∧
    (∃ r w, r ∈ linkRates ∧ w ∈ linkWidths ∧ u.fns.trained = some (r, w)) ∧
    u = (((({ s with pins := u.pins }).setFlag Fld.setupStatReady 0 true).setFld Fld.setupStatPhase 0 10)).portUpNow := by
  have hgo : ((s.atPhase 9 || s.atPhase 10) && s.pins.perstN && !s.fns.linkUp) = true := by rw [h9, hperst, hdown]; rfl
  have hexec : exec .portReady s = .next ((({ s with pins := { s.pins with prsntLow := true, cxlReceivers := true } } : State).setFlag
    Fld.setupStatReady 0 true).setFld Fld.setupStatPhase 0 10).portUpNow := whenever_pos hgo
  obtain ⟨r, a, b, ha, hb, hframe⟩ := State.portUpNow_frame ((({ s with pins := { s.pins with prsntLow := true, cxlReceivers := true } } : State).setFlag
    Fld.setupStatReady 0 true).setFld Fld.setupStatPhase 0 10)
  generalize hu : State.portUpNow _ = u at hexec hframe
  have hpins : u.pins = { s.pins with prsntLow := true, cxlReceivers := true } := by rw [hframe]; rfl
  exact ⟨u, hexec, by rw [hframe], by rw [hpins], by rw [hpins], ⟨a, b, ha, hb, by rw [hframe]⟩, by rw [hpins, hu]⟩

theorem portReady_idles (h9 : s.atPhase 9 = false) (h10 : s.atPhase 10 = false) : exec .portReady s = .next s :=
  whenever_neg (by rw [h9, h10]; rfl)

/-! ### The rails (R477, R478) -/

theorem pgMainRise_opens (hlow : s.pins.pgMain = false) (hstays : s.awake = false ∨ s.pins.wakeN = true) : exec .pgMainRise s =
    .next { s with pins := { s.pins with pgMain := true, railFault := false, window := s.pins.porN } } := by
  have hgo : (!s.pins.pgMain) = true := by rw [hlow]; rfl
  have hexec : exec .pgMainRise s = .next (if s.awake && !s.pins.wakeN then
    State.leaveP3 { s with pins := { s.pins with pgMain := true, railFault := false, window := s.pins.porN } } else
    { s with pins := { s.pins with pgMain := true, railFault := false, window := s.pins.porN } }) := whenever_pos hgo
  rw [hexec, if_neg]
  rcases hstays with h | h <;> simp [h]

theorem pgMainFall_falls (h : s.pins.pgMain = true) (v : State) (hv : v = { s with pins := { s.pins with pgMain := false, railFault := false } }) :
    exec .pgMainFall s = .next (if s.pins.railFault = true then v else v.mainLost) := by
  rw [hv]
  exact whenever_pos h

theorem State.mainLost_eq (s : State) : s.mainLost = if s.awake = true ∧ s.fld Fld.pwrStatState 0 ≠ 3 then
    ({ s with pins := { s.pins with window := false } } : State).mainOff.setFld Fld.setupStatPhase 0 (min 5 (s.fld Fld.setupStatPhase 0))
    else { s with pins := { s.pins with window := false } } := by
  unfold State.mainLost
  refine if_congr ?_ rfl rfl
  simp only [Bool.and_eq_true, bne_iff_ne]
  rfl

theorem State.mainLost_pins (s : State) : s.mainLost.pins.window = false ∧ s.mainLost.pins.pgMain = s.pins.pgMain := by
  rw [State.mainLost_eq]
  split
  · rw [State.setFld_pins, State.mainOff_pins]
    exact ⟨rfl, rfl⟩
  · exact ⟨rfl, rfl⟩

theorem State.mainLost_off (hawake : s.awake = true) (hp3 : s.fld Fld.pwrStatState 0 ≠ 3) : s.mainLost.pins.regulators = false ∧
    s.mainLost.pins.prsntLow = false ∧ (s.canonical = true → s.mainLost.fld Fld.setupStatPhase 0 = min 5 (s.fld Fld.setupStatPhase 0)) := by
  obtain ⟨hregulators, -, hprsnt, -⟩ := State.mainOff_off { s with pins := { s.pins with window := false } }
  have hsorted : s.canonical = true → Tab.sorted ({ s with pins := { s.pins with window := false } } : State).mainOff.regs = true := fun hcan =>
    (State.Sound.mainOff (State.Sound.withPins (State.sound_iff.2 ⟨hcan, False.elim⟩ : s.Sound False))).regs
  rw [State.mainLost_eq, if_pos ⟨hawake, hp3⟩]
  generalize ({ s with pins := { s.pins with window := false } } : State).mainOff = v at hregulators hprsnt hsorted
  refine ⟨hregulators, hprsnt, fun hcan => (State.fld_setFld_self (hsorted hcan) _ _ _).trans (Nat.mod_eq_of_lt ?_)⟩
  exact Nat.lt_of_le_of_lt (Nat.min_le_left _ _) (by decide)

theorem State.mainLost_asleep (h : s.awake = false ∨ s.fld Fld.pwrStatState 0 = 3) : s.mainLost = { s with pins := { s.pins with window := false } } := by
  rw [State.mainLost_eq, if_neg]
  rcases h with h | h <;> simp [h]

/-! ### `PERST_N` -/

theorem perstNRise_closes (hlow : s.pins.perstN = false) : ∃ u, exec .perstNRise s = .next u ∧ u.pins.perstN = true ∧ u.pins.window = false ∧
    u.pins.ir = (if s.pins.window = true ∧ 3 ≤ s.pins.ir.toNat ∧ s.pins.ir.toNat ≤ 7 then 0xFF else s.pins.ir) := by
  have hgo : (!s.pins.perstN) = true := by rw [hlow]; rfl
  have hir : (if s.pins.window && scanDriving s.pins.ir then 0xFF else s.pins.ir) =
      if s.pins.window = true ∧ 3 ≤ s.pins.ir.toNat ∧ s.pins.ir.toNat ≤ 7 then (0xFF : BitVec 8) else s.pins.ir :=
    if_congr (by simp [scanDriving]) rfl rfl
  generalize hv : ({ s with pins := { s.pins with perstN := true, window := false, ir := if s.pins.window && scanDriving s.pins.ir then 0xFF else s.pins.ir } } :
    State) = v
  have hexec : exec .perstNRise s = .next (if v.flag Fld.setupStatReady 0 && !v.fns.linkUp then v.portUpNow else v) := hv ▸ whenever_pos hgo
  have hpins : (if v.flag Fld.setupStatReady 0 && !v.fns.linkUp then v.portUpNow else v).pins = v.pins := by
    obtain ⟨r, a, b, -, -, hframe⟩ := v.portUpNow_frame
    exact State.pins_ite (by rw [hframe]) rfl
  refine ⟨_, hexec, ?_, ?_, ?_⟩
  · rw [hpins, ← hv]
  · rw [hpins, ← hv]
  · rw [hpins, ← hv]
    exact hir

end

/-! ## Boundary scan (R470-R472) -/

section
variable {s : State} (hvaux : s.pins.vaux = true)
include hvaux

theorem idcode_shifts : ∃ u, exec .idcode s = .next u ∧ u = { s with pins := { s.pins with ir := 0x01 }, outs := { s.outs with dr := u.outs.dr } } ∧
    u.outs.dr.length = 32 ∧ ∀ k, k < 32 → u.outs.dr.getD k false = (0x10768A47#32).getLsbD k := by
  have hbits : ∀ k, k < 32 → ((List.range 32).map (bitOf idcodeB0)).getD k false = (0x10768A47#32).getLsbD k := by decide
  exact ⟨_, whenever_pos hvaux, rfl, rfl, hbits⟩

omit hvaux in
theorem State.captured_length (s : State) : s.captured.length = 479 := by
  have hcells : boundaryCells.length = 479 := by simp [boundaryCells, laneBalls, List.length_flatMap]
  unfold State.captured
  rw [List.length_map, List.length_zipIdx, hcells]

theorem samplePreload_samples (b : List Bool) : ∃ u, exec (.samplePreload b) s = .next u ∧
    u.pins = { s.pins with ir := 0x02, boundary := (s.captured ++ b).drop b.length } ∧ u.outs.dr = s.captured ∧ s.captured.length = 479 ∧
    u.pins.boundary.length = 479 ∧ u.regs = s.regs ∧ u.tiles = s.tiles := by
  refine ⟨_, whenever_pos hvaux, rfl, rfl, s.captured_length, ?_, rfl, rfl⟩
  show ((s.captured ++ b).drop b.length).length = 479
  rw [List.length_drop, List.length_append, s.captured_length]
  omega

omit hvaux in
/-- An instruction that drives the lanes captures inside the window, and bypasses outside it. -/
theorem State.scanTest_captures (s : State) (ir : BitVec 8) : (s.scanTest ir).pins = { s.pins with ir := ir } ∧
    (s.scanTest ir).outs.dr = (if s.pins.window = true then s.captured else [false]) ∧ (s.scanTest ir).regs = s.regs ∧ (s.scanTest ir).tiles = s.tiles := by
  unfold State.scanTest
  split
  · exact ⟨rfl, rfl, rfl, rfl⟩
  · exact ⟨rfl, rfl, rfl, rfl⟩

theorem extest_captures {c : Instr} {ir : BitVec 8} (h : (c = .extest ∧ ir = 3) ∨ (c = .extestPulse ∧ ir = 4) ∨ (c = .extestTrain ∧ ir = 5)) :
    ∃ u, exec c s = .next u ∧ u.pins = { s.pins with ir := ir } ∧ u.outs.dr = (if s.pins.window = true then s.captured else [false]) ∧ u.regs = s.regs ∧
      u.tiles = s.tiles := by
  have hexec : exec c s = .next (s.scanTest ir) := by
    rcases h with ⟨rfl, rfl⟩ | ⟨rfl, rfl⟩ | ⟨rfl, rfl⟩ <;> exact whenever_pos hvaux
  exact ⟨_, hexec, s.scanTest_captures ir⟩

omit hvaux in
/-- The values that name no instruction. -/
theorem tapInsn_bypass {ir : BitVec 8} (h : ir = 0 ∨ 8 ≤ ir.toNat ∧ ir.toNat < 0x40 ∨ 0x80 ≤ ir.toNat) : tapInsn ir = .bypass := by
  have hn : ir.toNat = 0 ∨ 8 ≤ ir.toNat ∧ ir.toNat < 0x40 ∨ 0x80 ≤ ir.toNat := h.imp_left fun h => by rw [h]; rfl
  unfold tapInsn
  dsimp only
  repeat rw [if_neg (by omega)]
  rw [if_neg (by simp only [Bool.and_eq_true, decide_eq_true_eq]; omega)]

theorem bypass_shifts {c : Instr} {ir : BitVec 8}
    (h : (c = .clamp ∧ ir = 6) ∨ (c = .highz ∧ ir = 7) ∨ (c = .bypass ir ∧ (ir = 0 ∨ 8 ≤ ir.toNat ∧ ir.toNat < 0x40 ∨ 0x80 ≤ ir.toNat))) :
    exec c s = .next { s with pins := { s.pins with ir := ir }, outs := { s.outs with dr := [false] } } := by
  rcases h with ⟨rfl, rfl⟩ | ⟨rfl, rfl⟩ | ⟨rfl, hir⟩
  · exact whenever_pos hvaux
  · exact whenever_pos hvaux
  · have hexec : exec (.bypass ir) s = .next (s.tap (if tapInsn ir = .bypass then ir else 0xFF) [false]) := whenever_pos hvaux
    rw [hexec, if_pos (tapInsn_bypass hir)]
    rfl

end

/-- Settles O60: each command by the lemma that says what it leaves at its phase or level. -/
theorem startUpRunsInOrderAndScanIsServed : Obligations.StartUpRunsInOrderAndScanIsServed := by
  unfold Obligations.StartUpRunsInOrderAndScanIsServed
  refine ⟨coldReset_keeps, testModeAssert_holds, fun s n => porRelease_starts, fun s n hcan hlatch hawake hphase => ⟨fun h => ?_, tripRecord_clears hcan hlatch hawake hphase⟩,
    fun s => ⟨journalReplay_replays, journalReplay_idles⟩,
    fun s failed hwf => ⟨regulatorRamp_ramps, memoryTraining_trains hwf, memoryInit_clears, portReady_trains, whenever_neg,
      fun h => (onUnit_ok hwf).trans (whenever_neg h), whenever_neg, portReady_idles⟩,
    fun s => ⟨pgMainRise_opens, fun v hv h => pgMainFall_falls h v hv, fun hgood hawake => whenever_pos (by rw [hgood, hawake]; rfl),
      fun h => whenever_neg (by rcases h with h | h <;> simp [h]), s.mainLost_pins.1, s.mainLost_pins.2, State.mainLost_off, State.mainLost_asleep⟩,
    fun s => ⟨whenever_pos, perstNRise_closes, whenever_pos⟩,
    fun s b hvaux => ⟨idcode_shifts hvaux, samplePreload_samples hvaux b, fun c ir => extest_captures hvaux, fun c ir => bypass_shifts hvaux, whenever_pos hvaux⟩⟩
  rw [tripRecord_eq hlatch hawake hphase, if_neg]
  rintro ⟨hp3, hcool⟩
  rcases h with h | h
  · exact absurd (h.symm.trans hcool) (by decide)
  · exact hp3 h

end Sys2Proof.Machine
end
